-- ==== Sys2Proof/Word.lean ====
section
/-! DEFINITION. The machine's word types: bytes, the 64-bit scalar word of R229, the 32-bit instruction word of R401,
and the register-number types of R403. -/

namespace Sys2Proof

/-- A byte of memory. -/
abbrev Byte := BitVec 8

/-- A scalar register value (R229). -/
abbrev Word := BitVec 64

/-- An instruction word (R401). -/
abbrev IWord := BitVec 32

/-- A scalar register number (R403). -/
abbrev XNum := BitVec 5

/-- A vector register number (R403). -/
abbrev VNum := BitVec 5

/-- A mask register number (R403). -/
abbrev MNum := BitVec 3

/-- A fibre register number (R403). -/
abbrev FNum := BitVec 4

/-- An accumulator tile number (R403). -/
abbrev ANum := BitVec 2

/-- An element-type code (R258). -/
abbrev ETCode := BitVec 4

/-- One row of a vector register: up to 1,024 bytes (R231 to R233). -/
abbrev Row := BitVec 8192

/-- One row of a mask register (R246). -/
abbrev MaskRow := BitVec 2048

/-- One row of an accumulator tile: 128 elements of 32 bits (R250). -/
abbrev TileRow := BitVec 4096

/-- A fabric endpoint number (R59). -/
abbrev Epid := BitVec 19

end Sys2Proof
end

