-- ==== Sys2Proof/Events.lean ====
section
/-! DEFINITION. The data that an event carries into the machine: fabric packets (R62, R63), host records (R126), and
the small choices of the event rows of the opcode table. All plain data. -/

namespace Sys2Proof

/-- A fabric packet: the header of R62, field by field, and its data beats as bytes. `zerosOk` says that every zero field
of the header holds zero (R67). `nonce` is the nonce that a sealed packet's data was sealed under, its sender tag first (R104): it is no part
of the header, and the spec does not say how a receiver learns it (assumption 61). `resided` is how long the packet has stood at this
endpoint, in units of 250 ns rounded up (R78). -/
structure Packet where
  ptype : BitVec 8
  dbeats : BitVec 5
  dst : Epid
  src : Epid
  vc : BitVec 2
  age : BitVec 8
  job : BitVec 16
  gen : BitVec 16
  tag : BitVec 12
  enc : Bool
  flow : BitVec 16
  itag : BitVec 32
  spec16 : BitVec 16
  spec64 : BitVec 64
  zerosOk : Bool
  data : List Byte
  nonce : BitVec 96
  resided : Nat
  deriving DecidableEq, Repr

/-- What a port or a module has counted since the last report (R36): flit retries, and errors attributed to a lane, at the far end of a
die-to-die module or at the near one. -/
structure LinkErrors where
  retries : Nat
  far : Bool
  lane : Nat
  errors : Nat
  deriving DecidableEq, Repr

/-- The report of one end of a module of a link, or of a port, whose module number has no meaning. -/
structure LinkReport where
  part : Nat
  errs : LinkErrors
  deriving DecidableEq, Repr

/-- A lane group of a hart's core at work for that hart. -/
structure LaneAt where
  hart : Fin 4
  lane : Fin 4
  deriving DecidableEq, Repr

/-- A staging slot of a hart that still waits for its data, by its place among them. -/
structure SlotAt where
  hart : Fin 4
  slot : Nat
  deriving DecidableEq, Repr

/-- The planes on which an endpoint cannot be reached (R71). -/
structure PathsDown where
  dst : Epid
  down : BitVec 24
  deriving DecidableEq, Repr

/-- A Sync that one port of a Bellwether has received in an interval (R84), with its domainNumber. -/
structure PtpSync where
  port : Fin 12
  domain : Nat
  deriving DecidableEq, Repr

/-- An Announce of IEEE 1588 (R84): its domainNumber, and the data set that the best master clock algorithm compares. -/
structure PtpAnnounce where
  domain : Nat
  priority1 : Nat
  clockClass : Nat
  accuracy : Nat
  variance : Nat
  priority2 : Nat
  grandmaster : Nat
  steps : Nat
  deriving DecidableEq, Repr

/-- What one port of a Bellwether has heard announced. -/
structure PortAnnounce where
  port : Fin 12
  ann : PtpAnnounce
  deriving DecidableEq, Repr

/-- A port of a Bellwether. -/
structure PtpPort where
  die : Fin 2
  port : Fin 12
  deriving DecidableEq, Repr

/-- The four times of a peer-delay exchange (R84), in ns: sent, received there, answered there, received here. -/
structure PtpTimes where
  t1 : Int
  t2 : Int
  t3 : Int
  t4 : Int
  deriving DecidableEq, Repr

/-- Whose store performs: the oldest of a hart's store buffer, of a lane group's store queue of a hart, or of the copy chunks that a bank
has held up; or that of another agent of the device, for a context; the VA and bytes beside it are the last one's alone. -/
inductive StoreAgent where
  | buffer (h : Fin 4)
  | lane (h g : Fin 4)
  | copy (h : Fin 4)
  | agent (ctxid : Nat)
  deriving DecidableEq, Repr

end Sys2Proof
end

