-- ==== Sys2Proof/Syntax.lean ====
section
/-! DEFINITION. The instructions and events of the opcode table, one constructor for each of its rows. Register and
immediate fields have the widths of R402; an instruction row names its fields as the table does. An event row carries
what comes from outside the state: a packet, a value written, the hart or unit it happens at. -/

namespace Sys2Proof

/-- One instruction word (chapters 15 to 23), or one event of the opcode table. -/
inductive Instr where
  /-- R406: Prefix word: records a predicate, destination copy and token give/take in PFXS for the successor instruction. -/
  | pfx (p : BitVec 3) (n c : BitVec 1) (v : BitVec 5) (g : BitVec 1) (f : BitVec 3) (t : BitVec 1) (e : BitVec 3) (z : BitVec 8)
  /-- R443: Scalar 64-bit add. -/
  | add (d a b : BitVec 5)
  /-- R443: Scalar 64-bit subtract. -/
  | sub (d a b : BitVec 5)
  /-- R443: Scalar bitwise and. -/
  | and (d a b : BitVec 5)
  /-- R443: Scalar bitwise or. -/
  | or (d a b : BitVec 5)
  /-- R443: Scalar bitwise xor. -/
  | xor (d a b : BitVec 5)
  /-- R443: Scalar shift left by b mod 64. -/
  | sll (d a b : BitVec 5)
  /-- R443: Scalar logical shift right by b mod 64. -/
  | srl (d a b : BitVec 5)
  /-- R443: Scalar arithmetic shift right by b mod 64. -/
  | sra (d a b : BitVec 5)
  /-- R443: Scalar signed set-less-than. -/
  | slt (d a b : BitVec 5)
  /-- R443: Scalar unsigned set-less-than. -/
  | sltu (d a b : BitVec 5)
  /-- R443: Scalar signed minimum. -/
  | min (d a b : BitVec 5)
  /-- R443: Scalar signed maximum. -/
  | max (d a b : BitVec 5)
  /-- R443: Scalar unsigned minimum. -/
  | minu (d a b : BitVec 5)
  /-- R443: Scalar unsigned maximum. -/
  | maxu (d a b : BitVec 5)
  /-- R443: Scalar multiply, low 64 bits. -/
  | mul (d a b : BitVec 5)
  /-- R443: Scalar signed multiply, high 64 bits. -/
  | mulh (d a b : BitVec 5)
  /-- R443: Scalar unsigned multiply, high 64 bits. -/
  | mulhu (d a b : BitVec 5)
  /-- R264: Scalar signed divide without trap. -/
  | div (d a b : BitVec 5)
  /-- R264: Scalar unsigned divide without trap. -/
  | divu (d a b : BitVec 5)
  /-- R264: Scalar signed remainder without trap. -/
  | rem (d a b : BitVec 5)
  /-- R264: Scalar unsigned remainder without trap. -/
  | remu (d a b : BitVec 5)
  /-- R443: Count leading zero bits. -/
  | clz (d a : BitVec 5)
  /-- R443: Count trailing zero bits. -/
  | ctz (d a : BitVec 5)
  /-- R443: Count set bits. -/
  | popc (d a : BitVec 5)
  /-- R443: Sign-extend from b[5:0] bits. -/
  | sext (d a b : BitVec 5)
  /-- R443: Zero-extend from b[5:0] bits. -/
  | zext (d a b : BitVec 5)
  /-- R443: Reverse the 64 bits of a register. -/
  | brev (d a : BitVec 5)
  /-- R444: Add sign-extended immediate. -/
  | addi (d a : BitVec 5) (i : BitVec 16)
  /-- R444: And with zero-extended immediate. -/
  | andi (d a : BitVec 5) (i : BitVec 16)
  /-- R444: Or with zero-extended immediate. -/
  | ori (d a : BitVec 5) (i : BitVec 16)
  /-- R444: Xor with zero-extended immediate. -/
  | xori (d a : BitVec 5) (i : BitVec 16)
  /-- R444: Signed set-less-than immediate. -/
  | slti (d a : BitVec 5) (i : BitVec 16)
  /-- R444: Unsigned set-less-than sign-extended immediate. -/
  | sltiu (d a : BitVec 5) (i : BitVec 16)
  /-- R444: Load sign-extended immediate shifted left 16. -/
  | lhi (d : BitVec 5) (i : BitVec 16)
  /-- R445: Page-relative PC address in 4 KiB units. -/
  | adpc (d : BitVec 5) (i : BitVec 16)
  /-- R446: Shift left by immediate. -/
  | slli (d a : BitVec 5) (s : BitVec 6)
  /-- R446: Logical shift right by immediate. -/
  | srli (d a : BitVec 5) (s : BitVec 6)
  /-- R446: Arithmetic shift right by immediate. -/
  | srai (d a : BitVec 5) (s : BitVec 6)
  /-- R446: Rotate left by immediate. -/
  | roli (d a : BitVec 5) (s : BitVec 6)
  /-- R447: Scalar floating-point add. -/
  | fadd (d a b : BitVec 5) (t : BitVec 2) (r : BitVec 3)
  /-- R447: Scalar floating-point subtract. -/
  | fsub (d a b : BitVec 5) (t : BitVec 2) (r : BitVec 3)
  /-- R447: Scalar floating-point multiply. -/
  | fmul (d a b : BitVec 5) (t : BitVec 2) (r : BitVec 3)
  /-- R447: Scalar floating-point divide. -/
  | fdiv (d a b : BitVec 5) (t : BitVec 2) (r : BitVec 3)
  /-- R447: Scalar floating-point square root. -/
  | fsqrt (d a : BitVec 5) (t : BitVec 2) (r : BitVec 3)
  /-- R280: Scalar floating-point minimum. -/
  | fmin (d a b : BitVec 5) (t : BitVec 2)
  /-- R280: Scalar floating-point maximum. -/
  | fmax (d a b : BitVec 5) (t : BitVec 2)
  /-- R447: Scalar fused multiply-add into the destination. -/
  | fmadd (d a b : BitVec 5) (t : BitVec 2) (r : BitVec 3)
  /-- R447: Scalar floating-point equality compare. -/
  | feq (d a b : BitVec 5) (t : BitVec 2)
  /-- R447: Scalar floating-point less-than compare. -/
  | flt (d a b : BitVec 5) (t : BitVec 2)
  /-- R447: Scalar floating-point less-or-equal compare. -/
  | fle (d a b : BitVec 5) (t : BitVec 2)
  /-- R447: Scalar floating-point class code. -/
  | fclass (d a : BitVec 5) (t : BitVec 2)
  /-- R447: Integer to floating-point conversion. -/
  | fcvif (d a : BitVec 5) (i : BitVec 4) (t : BitVec 2) (r : BitVec 3)
  /-- R277: Floating-point to integer conversion, saturating. -/
  | fcvfi (d a : BitVec 5) (i : BitVec 4) (t : BitVec 2) (r : BitVec 3)
  /-- R276: Floating-point format conversion. -/
  | fcvff (d a : BitVec 5) (s t : BitVec 2) (r : BitVec 3)
  /-- R448: Scalar load of 1 to 8 bytes. -/
  | ld (d b : BitVec 5) (w : BitVec 3) (o : BitVec 13)
  /-- R448: Scalar store of 1 to 8 bytes into the store buffer. -/
  | st (s b : BitVec 5) (w : BitVec 2) (o : BitVec 13)
  /-- R454: Atomic add. -/
  | amoadd (d a b : BitVec 5) (z q l : BitVec 1) (c : BitVec 3)
  /-- R454: Atomic and. -/
  | amoand (d a b : BitVec 5) (z q l : BitVec 1) (c : BitVec 3)
  /-- R454: Atomic or. -/
  | amoor (d a b : BitVec 5) (z q l : BitVec 1) (c : BitVec 3)
  /-- R454: Atomic xor. -/
  | amoxor (d a b : BitVec 5) (z q l : BitVec 1) (c : BitVec 3)
  /-- R454: Atomic signed minimum. -/
  | amomin (d a b : BitVec 5) (z q l : BitVec 1) (c : BitVec 3)
  /-- R454: Atomic signed maximum. -/
  | amomax (d a b : BitVec 5) (z q l : BitVec 1) (c : BitVec 3)
  /-- R454: Atomic unsigned minimum. -/
  | amominu (d a b : BitVec 5) (z q l : BitVec 1) (c : BitVec 3)
  /-- R454: Atomic unsigned maximum. -/
  | amomaxu (d a b : BitVec 5) (z q l : BitVec 1) (c : BitVec 3)
  /-- R454: Atomic swap. -/
  | amoswap (d a b : BitVec 5) (z q l : BitVec 1) (c : BitVec 3)
  /-- R454: Atomic compare and swap against x(rd). -/
  | amocas (d a b : BitVec 5) (z q l : BitVec 1) (c : BitVec 3)
  /-- R454: Atomic floating-point add under RNE. -/
  | amofadd (d a b : BitVec 5) (z q l : BitVec 1) (c : BitVec 3)
  /-- R455: Load and set the line reservation. -/
  | ldr (d a : BitVec 5) (z : BitVec 1)
  /-- R455: Store conditional on the reservation, reporting success in x(rd). -/
  | stc (d a b : BitVec 5) (z : BitVec 1)
  /-- R457: Branch if equal. -/
  | beq (a b : BitVec 5) (i : BitVec 16)
  /-- R457: Branch if not equal. -/
  | bne (a b : BitVec 5) (i : BitVec 16)
  /-- R457: Branch if signed less. -/
  | blt (a b : BitVec 5) (i : BitVec 16)
  /-- R457: Branch if signed greater or equal. -/
  | bge (a b : BitVec 5) (i : BitVec 16)
  /-- R457: Branch if unsigned less. -/
  | bltu (a b : BitVec 5) (i : BitVec 16)
  /-- R457: Branch if unsigned greater or equal. -/
  | bgeu (a b : BitVec 5) (i : BitVec 16)
  /-- R458: PC-relative jump. -/
  | jmp (i : BitVec 26)
  /-- R458: PC-relative call pushing the return stack. -/
  | call (i : BitVec 26)
  /-- R458: Indirect jump with link in x(rd). -/
  | jalr (d a : BitVec 5)
  /-- R458: Return to the address popped from the return stack. -/
  | ret
  /-- R458: Indirect call pushing the return stack. -/
  | callr (a : BitVec 5)
  /-- R461: Arms hardware loop level l with count, start and end. -/
  | loop (l : BitVec 1) (c : BitVec 5) (n : BitVec 20)
  /-- R466: Trap SVC to the runtime. -/
  | svc (i : BitVec 8)
  /-- R466: Trap BRK at the instruction. -/
  | brk (i : BitVec 8)
  /-- R368: Return from a trap, re-pairing any pending prefix and releasing held queues. -/
  | eret
  /-- R467: Wait until the event bit is set, then clear it. -/
  | wfe
  /-- R469: Wait at clu scope and invalidate the core's instruction cache. -/
  | ifence
  /-- R470: Invalidate TLB entries of one page device-wide. -/
  | tinv (a : BitVec 5)
  /-- R470: Invalidate all TLB entries and the binding cache. -/
  | tinva
  /-- R378: End an emulation, writing results from the frame. -/
  | emuret
  /-- R468: Set the event bit of a hart of the same context. -/
  | evsig (a : BitVec 5)
  /-- R471: Dispatch boundary in compatibility mode, no-op in native mode. -/
  | yield
  /-- R464: Read a control register. -/
  | crr (d : BitVec 5) (c : BitVec 12)
  /-- R464: Write a control register, returning its old value. -/
  | crw (d a : BitVec 5) (c : BitVec 12)
  /-- R464: Set bits of a control register. -/
  | crs (d a : BitVec 5) (c : BitVec 12)
  /-- R464: Clear bits of a control register. -/
  | crc (d a : BitVec 5) (c : BitVec 12)
  /-- R441: Retired signed saturating multiply-accumulate, emulated. -/
  | smac (d a b : BitVec 5)
  /-- R441: Retired unsigned saturating multiply-accumulate, emulated. -/
  | smacz (d a b : BitVec 5)
  /-- R474: Set element type, lane groups, VL and row quota. -/
  | setvl (d a : BitVec 5) (e : BitVec 4) (g : BitVec 2) (t : BitVec 1)
  /-- R474: Set type, lane groups, VL and VROWS with a row count. -/
  | setlens (d a b : BitVec 5) (e : BitVec 4) (g : BitVec 2) (t : BitVec 1)
  /-- R475: Set VL from a progress word read with acquire. -/
  | setvlp (d a b : BitVec 5)
  /-- R477: Request matrix mode for the hart. -/
  | mstart
  /-- R477: Leave matrix mode, zeroing or keeping tiles. -/
  | mstop (t : BitVec 1)
  /-- R477: Set accumulator tile types. -/
  | mcfg (a : BitVec 5) (t : BitVec 1)
  /-- R476: Release every lane group and optionally every vector row. -/
  | vrelease (d : BitVec 5) (t : BitVec 1)
  /-- R482: Vector unit-stride load. -/
  | vld (d b : BitVec 5) (m : BitVec 3) (c : BitVec 1) (w : BitVec 2) (x : BitVec 1)
  /-- R482: Vector strided load. -/
  | vlds (d b r : BitVec 5) (m : BitVec 3) (w : BitVec 2) (x : BitVec 1)
  /-- R482: Vector indexed load. -/
  | vldx (d b i : BitVec 5) (m : BitVec 3) (w : BitVec 2) (x : BitVec 1)
  /-- R482: Vector indexed-ordered load. -/
  | vldxo (d b i : BitVec 5) (m : BitVec 3) (c : BitVec 1) (w : BitVec 2) (x : BitVec 1)
  /-- R482: Vector unit-stride store, optionally with notify. -/
  | vst (s b : BitVec 5) (m : BitVec 3) (c n : BitVec 1) (w : BitVec 2)
  /-- R482: Vector strided store. -/
  | vsts (s b r : BitVec 5) (m : BitVec 3) (n : BitVec 1) (w : BitVec 2)
  /-- R482: Vector indexed store. -/
  | vstx (s b i : BitVec 5) (m : BitVec 3) (n : BitVec 1) (w : BitVec 2)
  /-- R482: Vector indexed-ordered store. -/
  | vstxo (s b i : BitVec 5) (m : BitVec 3) (c n : BitVec 1) (w : BitVec 2)
  /-- R490: Bind a vector register to a stream control block. -/
  | sbind (n a : BitVec 5)
  /-- R490: End a stream binding. -/
  | sunbind (n : BitVec 5)
  /-- R490: Set a stream position. -/
  | spos (n a : BitVec 5)
  /-- R495: Gather rows into the scratchpad by index. -/
  | gsp (d s i : BitVec 5) (m : BitVec 3)
  /-- R495: Scatter rows from the scratchpad by index. -/
  | ssp (d s i : BitVec 5) (m : BitVec 3)
  /-- R494: Copy by descriptor, kinds 0 and 1. -/
  | cpy (a : BitVec 5) (m : BitVec 3)
  /-- R494: Remote copy by descriptor, kinds 0, 2, 3 and 4. -/
  | cpyr (a : BitVec 5) (m : BitVec 3)
  /-- R504: Compress active indices and append them to a queue. -/
  | capp (d a b : BitVec 5) (m : BitVec 3)
  /-- R488: Load a mask register from memory. -/
  | vlm (r : BitVec 3) (a : BitVec 5)
  /-- R488: Store a mask register to memory. -/
  | vsm (r : BitVec 3) (a : BitVec 5)
  /-- R501: Wait for every earlier copy and count failed chunks. -/
  | cwait (d : BitVec 5)
  /-- R512: Vector integer add, vector operand. -/
  | vaddVv (d a b : BitVec 5) (m : BitVec 3) (p : BitVec 2)
  /-- R512: Vector integer add, scalar operand. -/
  | vaddVx (d a x : BitVec 5) (m : BitVec 3)
  /-- R512: Vector integer subtract, vector operand. -/
  | vsubVv (d a b : BitVec 5) (m : BitVec 3) (p : BitVec 2)
  /-- R512: Vector integer subtract, scalar operand. -/
  | vsubVx (d a x : BitVec 5) (m : BitVec 3)
  /-- R512: Vector reverse subtract from a scalar. -/
  | vrsubVx (d a x : BitVec 5) (m : BitVec 3)
  /-- R512: Vector multiply low, vector operand. -/
  | vmulVv (d a b : BitVec 5) (m : BitVec 3) (p : BitVec 2)
  /-- R512: Vector multiply low, scalar operand. -/
  | vmulVx (d a x : BitVec 5) (m : BitVec 3)
  /-- R512: Vector signed multiply high, vector operand. -/
  | vmulhVv (d a b : BitVec 5) (m : BitVec 3) (p : BitVec 2)
  /-- R512: Vector signed multiply high, scalar operand. -/
  | vmulhVx (d a x : BitVec 5) (m : BitVec 3)
  /-- R512: Vector unsigned multiply high, vector operand. -/
  | vmulhuVv (d a b : BitVec 5) (m : BitVec 3) (p : BitVec 2)
  /-- R512: Vector unsigned multiply high, scalar operand. -/
  | vmulhuVx (d a x : BitVec 5) (m : BitVec 3)
  /-- R264: Vector signed divide, vector operand. -/
  | vdivVv (d a b : BitVec 5) (m : BitVec 3) (p : BitVec 2)
  /-- R264: Vector signed divide, scalar operand. -/
  | vdivVx (d a x : BitVec 5) (m : BitVec 3)
  /-- R264: Vector unsigned divide, vector operand. -/
  | vdivuVv (d a b : BitVec 5) (m : BitVec 3) (p : BitVec 2)
  /-- R264: Vector unsigned divide, scalar operand. -/
  | vdivuVx (d a x : BitVec 5) (m : BitVec 3)
  /-- R264: Vector signed remainder, vector operand. -/
  | vremVv (d a b : BitVec 5) (m : BitVec 3) (p : BitVec 2)
  /-- R264: Vector signed remainder, scalar operand. -/
  | vremVx (d a x : BitVec 5) (m : BitVec 3)
  /-- R264: Vector unsigned remainder, vector operand. -/
  | vremuVv (d a b : BitVec 5) (m : BitVec 3) (p : BitVec 2)
  /-- R264: Vector unsigned remainder, scalar operand. -/
  | vremuVx (d a x : BitVec 5) (m : BitVec 3)
  /-- R512: Vector signed minimum, vector operand. -/
  | vminVv (d a b : BitVec 5) (m : BitVec 3) (p : BitVec 2)
  /-- R512: Vector signed minimum, scalar operand. -/
  | vminVx (d a x : BitVec 5) (m : BitVec 3)
  /-- R512: Vector signed maximum, vector operand. -/
  | vmaxVv (d a b : BitVec 5) (m : BitVec 3) (p : BitVec 2)
  /-- R512: Vector signed maximum, scalar operand. -/
  | vmaxVx (d a x : BitVec 5) (m : BitVec 3)
  /-- R512: Vector unsigned minimum, vector operand. -/
  | vminuVv (d a b : BitVec 5) (m : BitVec 3) (p : BitVec 2)
  /-- R512: Vector unsigned minimum, scalar operand. -/
  | vminuVx (d a x : BitVec 5) (m : BitVec 3)
  /-- R512: Vector unsigned maximum, vector operand. -/
  | vmaxuVv (d a b : BitVec 5) (m : BitVec 3) (p : BitVec 2)
  /-- R512: Vector unsigned maximum, scalar operand. -/
  | vmaxuVx (d a x : BitVec 5) (m : BitVec 3)
  /-- R512: Vector bitwise and, vector operand. -/
  | vandVv (d a b : BitVec 5) (m : BitVec 3) (p : BitVec 2)
  /-- R512: Vector bitwise and, scalar operand. -/
  | vandVx (d a x : BitVec 5) (m : BitVec 3)
  /-- R512: Vector bitwise or, vector operand. -/
  | vorVv (d a b : BitVec 5) (m : BitVec 3) (p : BitVec 2)
  /-- R512: Vector bitwise or, scalar operand. -/
  | vorVx (d a x : BitVec 5) (m : BitVec 3)
  /-- R512: Vector bitwise xor, vector operand. -/
  | vxorVv (d a b : BitVec 5) (m : BitVec 3) (p : BitVec 2)
  /-- R512: Vector bitwise xor, scalar operand. -/
  | vxorVx (d a x : BitVec 5) (m : BitVec 3)
  /-- R512: Vector shift left, vector operand. -/
  | vsllVv (d a b : BitVec 5) (m : BitVec 3) (p : BitVec 2)
  /-- R512: Vector shift left, scalar operand. -/
  | vsllVx (d a x : BitVec 5) (m : BitVec 3)
  /-- R512: Vector logical shift right, vector operand. -/
  | vsrlVv (d a b : BitVec 5) (m : BitVec 3) (p : BitVec 2)
  /-- R512: Vector logical shift right, scalar operand. -/
  | vsrlVx (d a x : BitVec 5) (m : BitVec 3)
  /-- R512: Vector arithmetic shift right, vector operand. -/
  | vsraVv (d a b : BitVec 5) (m : BitVec 3) (p : BitVec 2)
  /-- R512: Vector arithmetic shift right, scalar operand. -/
  | vsraVx (d a x : BitVec 5) (m : BitVec 3)
  /-- R512: Vector signed saturating add, vector operand. -/
  | vsaddVv (d a b : BitVec 5) (m : BitVec 3) (p : BitVec 2)
  /-- R512: Vector signed saturating add, scalar operand. -/
  | vsaddVx (d a x : BitVec 5) (m : BitVec 3)
  /-- R512: Vector unsigned saturating add, vector operand. -/
  | vsadduVv (d a b : BitVec 5) (m : BitVec 3) (p : BitVec 2)
  /-- R512: Vector unsigned saturating add, scalar operand. -/
  | vsadduVx (d a x : BitVec 5) (m : BitVec 3)
  /-- R512: Vector signed saturating subtract, vector operand. -/
  | vssubVv (d a b : BitVec 5) (m : BitVec 3) (p : BitVec 2)
  /-- R512: Vector signed saturating subtract, scalar operand. -/
  | vssubVx (d a x : BitVec 5) (m : BitVec 3)
  /-- R512: Vector unsigned saturating subtract, vector operand. -/
  | vssubuVv (d a b : BitVec 5) (m : BitVec 3) (p : BitVec 2)
  /-- R512: Vector unsigned saturating subtract, scalar operand. -/
  | vssubuVx (d a x : BitVec 5) (m : BitVec 3)
  /-- R512: Vector signed absolute value. -/
  | vabs (d a : BitVec 5) (m : BitVec 3)
  /-- R512: Vector multiply-accumulate, vector operand. -/
  | vmaccVv (d a b : BitVec 5) (m : BitVec 3) (p : BitVec 2)
  /-- R512: Vector multiply-accumulate, scalar operand. -/
  | vmaccVx (d a x : BitVec 5) (m : BitVec 3)
  /-- R515: Vector select by mask selector, vector operand. -/
  | vselVv (d a b : BitVec 5) (m : BitVec 3) (p : BitVec 2)
  /-- R515: Vector select by mask selector, scalar operand. -/
  | vselVx (d a x : BitVec 5) (m : BitVec 3)
  /-- R512: Vector move from a vector. -/
  | vmvVv (d a : BitVec 5) (m : BitVec 3)
  /-- R512: Vector move from a scalar. -/
  | vmvVx (d x : BitVec 5) (m : BitVec 3)
  /-- R512: Vector per-element popcount. -/
  | vpopc (d a : BitVec 5) (m : BitVec 3)
  /-- R512: Vector per-element leading-zero count. -/
  | vclz (d a : BitVec 5) (m : BitVec 3)
  /-- R513: Exclusive popcount prefix of a row. -/
  | vpcp (d a : BitVec 5) (m : BitVec 3)
  /-- R512: Write element indices. -/
  | vid (d : BitVec 5) (m : BitVec 3)
  /-- R514: Vector bit-field extract, vector control. -/
  | vextVv (d a b : BitVec 5) (m : BitVec 3) (p : BitVec 2)
  /-- R514: Vector bit-field extract, scalar control. -/
  | vextVx (d a x : BitVec 5) (m : BitVec 3)
  /-- R514: Vector bit-field insert, vector control. -/
  | vinsVv (d a b : BitVec 5) (m : BitVec 3) (p : BitVec 2)
  /-- R514: Vector bit-field insert, scalar control. -/
  | vinsVx (d a x : BitVec 5) (m : BitVec 3)
  /-- R512: Vector absolute difference, vector operand. -/
  | vabsdVv (d a b : BitVec 5) (m : BitVec 3) (p : BitVec 2)
  /-- R512: Vector absolute difference, scalar operand. -/
  | vabsdVx (d a x : BitVec 5) (m : BitVec 3)
  /-- R441: Retired signed averaging add, emulated. -/
  | vaaddVv (d a b : BitVec 5) (m : BitVec 3)
  /-- R441: Retired signed averaging add with scalar, emulated. -/
  | vaaddVx (d a x : BitVec 5) (m : BitVec 3)
  /-- R441: Retired unsigned averaging add, emulated. -/
  | vaadduVv (d a b : BitVec 5) (m : BitVec 3)
  /-- R441: Retired unsigned averaging add with scalar, emulated. -/
  | vaadduVx (d a x : BitVec 5) (m : BitVec 3)
  /-- R441: Retired signed averaging subtract, emulated. -/
  | vasubVv (d a b : BitVec 5) (m : BitVec 3)
  /-- R441: Retired signed averaging subtract with scalar, emulated. -/
  | vasubVx (d a x : BitVec 5) (m : BitVec 3)
  /-- R441: Retired unsigned averaging subtract, emulated. -/
  | vasubuVv (d a b : BitVec 5) (m : BitVec 3)
  /-- R441: Retired unsigned averaging subtract with scalar, emulated. -/
  | vasubuVx (d a x : BitVec 5) (m : BitVec 3)
  /-- R517: Vector FP add, vector operand. -/
  | vfaddVv (d a b : BitVec 5) (m : BitVec 3) (p : BitVec 2)
  /-- R517: Vector FP add, scalar operand. -/
  | vfaddVx (d a x : BitVec 5) (m : BitVec 3)
  /-- R517: Vector FP subtract, vector operand. -/
  | vfsubVv (d a b : BitVec 5) (m : BitVec 3) (p : BitVec 2)
  /-- R517: Vector FP subtract, scalar operand. -/
  | vfsubVx (d a x : BitVec 5) (m : BitVec 3)
  /-- R517: Vector FP reverse subtract from a scalar. -/
  | vfrsubVx (d a x : BitVec 5) (m : BitVec 3)
  /-- R517: Vector FP multiply, vector operand. -/
  | vfmulVv (d a b : BitVec 5) (m : BitVec 3) (p : BitVec 2)
  /-- R517: Vector FP multiply, scalar operand. -/
  | vfmulVx (d a x : BitVec 5) (m : BitVec 3)
  /-- R517: Vector FP divide, vector operand. -/
  | vfdivVv (d a b : BitVec 5) (m : BitVec 3) (p : BitVec 2)
  /-- R517: Vector FP divide, scalar operand. -/
  | vfdivVx (d a x : BitVec 5) (m : BitVec 3)
  /-- R517: Vector FP reverse divide of a scalar. -/
  | vfrdivVx (d a x : BitVec 5) (m : BitVec 3)
  /-- R517: Vector FP square root. -/
  | vfsqrt (d a : BitVec 5) (m : BitVec 3)
  /-- R517: Vector fused multiply-add, vector operand. -/
  | vfmaVv (d a b : BitVec 5) (m : BitVec 3) (p : BitVec 2)
  /-- R517: Vector fused multiply-add, scalar operand. -/
  | vfmaVx (d a x : BitVec 5) (m : BitVec 3)
  /-- R517: Vector fused multiply-subtract, vector operand. -/
  | vfmsVv (d a b : BitVec 5) (m : BitVec 3) (p : BitVec 2)
  /-- R517: Vector fused multiply-subtract, scalar operand. -/
  | vfmsVx (d a x : BitVec 5) (m : BitVec 3)
  /-- R517: Vector fused negative multiply-add, vector operand. -/
  | vfnmaVv (d a b : BitVec 5) (m : BitVec 3) (p : BitVec 2)
  /-- R517: Vector fused negative multiply-add, scalar operand. -/
  | vfnmaVx (d a x : BitVec 5) (m : BitVec 3)
  /-- R280: Vector FP minimum, vector operand. -/
  | vfminVv (d a b : BitVec 5) (m : BitVec 3) (p : BitVec 2)
  /-- R280: Vector FP minimum, scalar operand. -/
  | vfminVx (d a x : BitVec 5) (m : BitVec 3)
  /-- R280: Vector FP maximum, vector operand. -/
  | vfmaxVv (d a b : BitVec 5) (m : BitVec 3) (p : BitVec 2)
  /-- R280: Vector FP maximum, scalar operand. -/
  | vfmaxVx (d a x : BitVec 5) (m : BitVec 3)
  /-- R519: Vector FP absolute value. -/
  | vfabs (d a : BitVec 5) (m : BitVec 3)
  /-- R519: Vector FP negate. -/
  | vfneg (d a : BitVec 5) (m : BitVec 3)
  /-- R518: Vector table reciprocal estimate. -/
  | vfrcp (d a : BitVec 5) (m : BitVec 3)
  /-- R518: Vector table reciprocal square-root estimate. -/
  | vfrsqrt (d a : BitVec 5) (m : BitVec 3)
  /-- R519: Vector sign injection, vector operand. -/
  | vfsgnVv (d a b : BitVec 5) (m : BitVec 3) (p : BitVec 2)
  /-- R519: Vector sign injection, scalar operand. -/
  | vfsgnVx (d a x : BitVec 5) (m : BitVec 3)
  /-- R519: Vector FP class code. -/
  | vfclass (d a : BitVec 5) (m : BitVec 3)
  /-- R284: Vector correctly rounded 2^x. -/
  | vfexp2 (d a : BitVec 5) (m : BitVec 3)
  /-- R284: Vector correctly rounded log2. -/
  | vflog2 (d a : BitVec 5) (m : BitVec 3)
  /-- R283: Vector saturation of infinities. -/
  | vfsat (d a : BitVec 5) (m : BitVec 3)
  /-- R531: Vector compare into a mask, vector operand. -/
  | vcmpVv (d : BitVec 3) (a b : BitVec 5) (m : BitVec 3) (p : BitVec 2) (c : BitVec 3) (t : BitVec 2)
  /-- R531: Vector compare into a mask, scalar operand. -/
  | vcmpVx (d : BitVec 3) (a x : BitVec 5) (m c : BitVec 3) (t : BitVec 2)
  /-- R532: Mask and. -/
  | mand (d a b m : BitVec 3)
  /-- R532: Mask or. -/
  | mor (d a b m : BitVec 3)
  /-- R532: Mask xor. -/
  | mxor (d a b m : BitVec 3)
  /-- R532: Mask and-not. -/
  | mandn (d a b m : BitVec 3)
  /-- R532: Mask not. -/
  | mnot (d a m : BitVec 3)
  /-- R532: Mask move. -/
  | mmv (d a m : BitVec 3)
  /-- R532: Mask set active bits. -/
  | mset (d m : BitVec 3)
  /-- R532: Mask clear active bits. -/
  | mclr (d m : BitVec 3)
  /-- R532: Count active set mask bits into a scalar. -/
  | mpop (d : BitVec 5) (a m : BitVec 3)
  /-- R532: Index of the lowest active set mask bit. -/
  | mfirst (d : BitVec 5) (a m : BitVec 3)
  /-- R532: Index of the highest active set mask bit. -/
  | mlast (d : BitVec 5) (a m : BitVec 3)
  /-- R532: Mask of positions before the first set bit. -/
  | mbefore (d a m : BitVec 3)
  /-- R532: Mask of positions up to the first set bit. -/
  | mincl (d a m : BitVec 3)
  /-- R532: Mask of only the first set bit. -/
  | monly (d a m : BitVec 3)
  /-- R532: Mask to vector of ones and zeros. -/
  | mtov (d : BitVec 5) (a m : BitVec 3)
  /-- R532: Vector non-zero test into a mask. -/
  | vtom (d : BitVec 3) (a : BitVec 5) (m : BitVec 3)
  /-- R534: Pack active elements of each row. -/
  | vcompress (d a : BitVec 5) (m : BitVec 3)
  /-- R534: Expand packed elements to active positions. -/
  | vexpand (d a : BitVec 5) (m : BitVec 3)
  /-- R534: Slide elements up by a scalar amount. -/
  | vslideup (d a x : BitVec 5) (m : BitVec 3)
  /-- R534: Slide elements down by a scalar amount. -/
  | vslidedn (d a x : BitVec 5) (m : BitVec 3)
  /-- R535: Gather elements within a row by index. -/
  | vgath (d a b : BitVec 5) (m : BitVec 3)
  /-- R534: Reverse elements of a row. -/
  | vrev (d a : BitVec 5) (m : BitVec 3)
  /-- R535: Transpose a square tile. -/
  | vtr (d a : BitVec 5) (m : BitVec 3)
  /-- R536: Explicitly relay a register to the captured type and lane map. -/
  | vrelay (d : BitVec 5)
  /-- R534: Interleave two rows. -/
  | vzip (d a b : BitVec 5) (m : BitVec 3)
  /-- R534: De-interleave a row. -/
  | vunzip (d a : BitVec 5) (m : BitVec 3)
  /-- R534: Rotate rows of a tile by a scalar. -/
  | vrowmv (d a x : BitVec 5) (m : BitVec 3)
  /-- R539: Integer sum reduction. -/
  | vredsum (d a b : BitVec 5) (m : BitVec 3)
  /-- R539: Integer tree sum reduction. -/
  | vredsumt (d a b : BitVec 5) (m : BitVec 3)
  /-- R539: Signed minimum reduction. -/
  | vredmin (d a b : BitVec 5) (m : BitVec 3)
  /-- R539: Signed maximum reduction. -/
  | vredmax (d a b : BitVec 5) (m : BitVec 3)
  /-- R539: Bitwise and reduction. -/
  | vredand (d a b : BitVec 5) (m : BitVec 3)
  /-- R539: Bitwise or reduction. -/
  | vredor (d a b : BitVec 5) (m : BitVec 3)
  /-- R539: Bitwise xor reduction. -/
  | vredxor (d a b : BitVec 5) (m : BitVec 3)
  /-- R539: Unsigned minimum reduction. -/
  | vredminu (d a b : BitVec 5) (m : BitVec 3)
  /-- R539: Unsigned maximum reduction. -/
  | vredmaxu (d a b : BitVec 5) (m : BitVec 3)
  /-- R539: Sequential floating-point sum reduction. -/
  | vfredsum (d a b : BitVec 5) (m : BitVec 3)
  /-- R539: Fixed-tree floating-point sum reduction. -/
  | vfredsumt (d a b : BitVec 5) (m : BitVec 3)
  /-- R539: Floating-point maximum reduction. -/
  | vfredmax (d a b : BitVec 5) (m : BitVec 3)
  /-- R539: Floating-point minimum reduction. -/
  | vfredmin (d a b : BitVec 5) (m : BitVec 3)
  /-- R540: Inclusive integer scan. -/
  | vscan (d a b : BitVec 5) (m : BitVec 3)
  /-- R540: Exclusive integer scan. -/
  | vscanx (d a b : BitVec 5) (m : BitVec 3)
  /-- R540: Inclusive floating-point scan in index order. -/
  | vfscan (d a b : BitVec 5) (m : BitVec 3)
  /-- R541: Index-carrying compare and swap of held and candidate pairs. -/
  | vkswap (d a b : BitVec 5) (m : BitVec 3)
  /-- R542: Index-carrying compare and swap with scalar candidate index. -/
  | vkswapi (d a x : BitVec 5) (m : BitVec 3)
  /-- R521: Convert elements to the destination's tagged type under FCSR.RM. -/
  | vcvt (d a : BitVec 5) (m : BitVec 3)
  /-- R521: Convert elements with an encoded rounding mode. -/
  | vcvtr (d a : BitVec 5) (r m : BitVec 3)
  /-- R522: Block-scaled quantisation with E8M0 scales. -/
  | vqbs (d a b : BitVec 5) (m : BitVec 3)
  /-- R523: Block-scaled dequantisation. -/
  | vdqbs (d a b : BitVec 5) (m : BitVec 3)
  /-- R553: Fibre intersection with combine. -/
  | fisect (d a b : BitVec 4) (c : BitVec 5)
  /-- R555: Bitmap fibre intersection. -/
  | fisectb (d a b : BitVec 4)
  /-- R553: Fibre union with combine. -/
  | funion (d a b : BitVec 4) (c : BitVec 5)
  /-- R553: Fibre merge with tie rule. -/
  | fmerge (d a b : BitVec 4) (c : BitVec 5)
  /-- R554: Stable sort of a fibre by coordinate. -/
  | fsort (d a : BitVec 4)
  /-- R554: Drop inactive or zero fibre entries. -/
  | fcompact (d a : BitVec 4) (m : BitVec 3)
  /-- R553: Fibre difference. -/
  | fdiff (d a b : BitVec 4)
  /-- R554: Combine runs of equal coordinates. -/
  | fdedup (d a : BitVec 4) (c : BitVec 5)
  /-- R560: Load one fibre of a compressed level. -/
  | fld (d a : BitVec 4)
  /-- R561: Store a fibre into a compressed level. -/
  | fst (f a : BitVec 4)
  /-- R557: Convert a bitmap row into a fibre. -/
  | fbm (d : BitVec 4) (v : BitVec 5)
  /-- R562: Look up a coordinate in the level fibres named by a fibre. -/
  | fwalk (d f a : BitVec 4)
  /-- R557: Expand a fibre into a dense vector row. -/
  | fexpand (f : BitVec 4) (v : BitVec 5)
  /-- R557: Pack active vector elements into a fibre. -/
  | fpack (d : BitVec 4) (m : BitVec 3) (v : BitVec 5)
  /-- R565: Pack fibre-given row lengths into one segmented strip. -/
  | fsetl (f : BitVec 4) (s : BitVec 3) (x : BitVec 5)
  /-- R557: Read fibre occupancy into a scalar. -/
  | focc (f : BitVec 4) (x : BitVec 5)
  /-- R557: Copy fibre coordinates into a vector. -/
  | fcoord (f : BitVec 4) (v : BitVec 5)
  /-- R557: Copy fibre values into a vector. -/
  | fval (f : BitVec 4) (v : BitVec 5)
  /-- R557: Move a fibre. -/
  | fmv (d f : BitVec 4)
  /-- R557: Make a fibre valid and empty. -/
  | fclr (d : BitVec 4)
  /-- R575: Clear an accumulator tile's in-use bit. -/
  | mzero (n : BitVec 2)
  /-- R572: Strictly ordered outer product into a tile. -/
  | mopo (n : BitVec 2) (a b : BitVec 5) (r c f : BitVec 3)
  /-- R572: Block-scaled strictly ordered outer product. -/
  | mopob (n : BitVec 2) (a b : BitVec 5) (r c f : BitVec 3)
  /-- R572: Single-rounding outer product into a tile. -/
  | mopr (n : BitVec 2) (a b : BitVec 5) (r c f : BitVec 3)
  /-- R572: Block-scaled single-rounding outer product. -/
  | moprb (n : BitVec 2) (a b : BitVec 5) (r c f : BitVec 3)
  /-- R572: Integer outer product into an INT32 tile. -/
  | mopi (n : BitVec 2) (a b : BitVec 5) (r c : BitVec 3) (f : BitVec 1)
  /-- R573: Structured-sparse outer product. -/
  | mops (n : BitVec 2) (a b : BitVec 5) (r c f : BitVec 3)
  /-- R573: Block-scaled structured-sparse outer product. -/
  | mopsb (n : BitVec 2) (a b : BitVec 5) (r c f : BitVec 3)
  /-- R576: Move tile rows into a vector register. -/
  | mtv (n : BitVec 2) (d x : BitVec 5)
  /-- R576: Move tile columns into a vector register. -/
  | mtvc (n : BitVec 2) (d x : BitVec 5)
  /-- R576: Move vector rows into tile rows. -/
  | mvt (n : BitVec 2) (a x : BitVec 5)
  /-- R576: Move vector rows into tile columns. -/
  | mvtc (n : BitVec 2) (a x : BitVec 5)
  /-- R577: Load a tile region from memory. -/
  | mld (n : BitVec 2) (a b : BitVec 5)
  /-- R577: Store a tile region to memory. -/
  | mst (n : BitVec 2) (a b : BitVec 5)
  /-- R579: Bind the cores of a rectangle into a co-tile. -/
  | mgang
  /-- R581: Synchronise the members of a co-tile. -/
  | mgsync
  /-- R336: Wait until earlier accesses have performed at the scope. -/
  | fence (s : BitVec 3)
  /-- R344: Sequentially consistent fence completing on the next heartbeat tick. -/
  | fsc
  /-- R338: Fence at hart scope. -/
  | lsync
  /-- R589: Barrier over the task's harts in a scope region. -/
  | gbar (s : BitVec 3)
  /-- R593: Wait until a progress word reaches a target. -/
  | wfp (a b d : BitVec 5)
  /-- R594: Move the oldest error-queue entry to memory. -/
  | eqpop (a d : BitVec 5)
  /-- R348: Wait for every chunk of copies with a completion mask. -/
  | acqm (n : BitVec 3)
  /-- R595: Wait until every remote request of the hart is answered. -/
  | drainw (d : BitVec 5)
  /-- R598: Vector atomic add per element. -/
  | vamoadd (d a x : BitVec 5) (m : BitVec 3)
  /-- R598: Vector atomic and. -/
  | vamoand (d a x : BitVec 5) (m : BitVec 3)
  /-- R598: Vector atomic or. -/
  | vamoor (d a x : BitVec 5) (m : BitVec 3)
  /-- R598: Vector atomic xor. -/
  | vamoxor (d a x : BitVec 5) (m : BitVec 3)
  /-- R598: Vector atomic signed minimum. -/
  | vamomin (d a x : BitVec 5) (m : BitVec 3)
  /-- R598: Vector atomic signed maximum. -/
  | vamomax (d a x : BitVec 5) (m : BitVec 3)
  /-- R598: Vector atomic unsigned minimum. -/
  | vamominu (d a x : BitVec 5) (m : BitVec 3)
  /-- R598: Vector atomic unsigned maximum. -/
  | vamomaxu (d a x : BitVec 5) (m : BitVec 3)
  /-- R598: Vector atomic swap. -/
  | vamoswap (d a x : BitVec 5) (m : BitVec 3)
  /-- R598: Vector atomic floating-point add. -/
  | vamofadd (d a x : BitVec 5) (m : BitVec 3)
  /-- R601: Scatter-accumulate add. -/
  | vsca (d a x : BitVec 5) (m : BitVec 3)
  /-- R601: Scatter-accumulate maximum. -/
  | vscamax (d a x : BitVec 5) (m : BitVec 3)
  /-- R601: Scatter-accumulate minimum. -/
  | vscamin (d a x : BitVec 5) (m : BitVec 3)
  /-- R603: Ordered floating-point scatter-accumulate through the combining store. -/
  | vscao (d a x : BitVec 5) (m : BitVec 3)
  /-- R604: Offer a task record to the central task queue. -/
  | tsk (a b d : BitVec 5)
  /-- R605: Pull one chunk from the task's work queue. -/
  | tqget (c s : BitVec 5)
  /-- R606: Read disciplined time. -/
  | gtime (d : BitVec 5)
  /-- R607: Wait until GTIME reaches a target. -/
  | gwait (a d : BitVec 5)
  /-- R608: Wait until HBEAT reaches a target. -/
  | hbeat (a d : BitVec 5)
  /-- R609: End the hart's part of its task after draining. -/
  | tdone
  /-- R441: Retired 64x64 tile outer product, emulated. -/
  | tmop (n : BitVec 2) (a b : BitVec 5)
  /-- R441: Retired 64x64 tile zero, emulated. -/
  | tmzero (n : BitVec 2)
  /-- R376: After queues drain, a retired encoding writes the frame and enters E, or traps EMU at S. -/
  | emulationEntry (h : Fin 4)
  /-- R363: A posted instruction faults; older work retires, younger stops, queues are held and the trap is taken. -/
  | trapInQueue (h : Fin 4)
  /-- R365: A held or pending asynchronous trap is delivered at an instruction boundary. -/
  | asyncTrapDelivery (h : Fin 4)
  /-- R210: An element-group pass of a queued vector instruction enters its lane group once its conditions hold. -/
  | vectorPassEntry (a : LaneAt)
  /-- R210: A pass writes its result and advances the progress index. -/
  | vectorPassWrite (a : LaneAt)
  /-- R208: An engine instruction retires, freeing its queue entry and pushing its tokens. -/
  | engineRetire (h : Fin 4) (e : Fin 5)
  /-- R213: Load data completes in a staging slot or scalar destination. -/
  | loadDataArrival (a : SlotAt)
  /-- R327: A buffered or queued store writes its storage point. -/
  | storePerform (a : StoreAgent) (va : Word) (bytes : List Byte)
  /-- R485: After every element has performed, a notify store writes NCNT to VNOTA. -/
  | notifyStore (h : Fin 4)
  /-- R298: A page-table walk completes with a translation or a fault. -/
  | tableWalkDone (h : Fin 4) (va : Word) (kind : Fin 4)
  /-- R219: A stream engine completes the fetch of a strip into its buffer. -/
  | streamStripFetch (h b : Fin 4)
  /-- R347: A copy chunk completes and sets its completion mask bit. -/
  | copyChunkComplete (h : Fin 4)
  /-- R502: The copy engine reads a descriptor and begins requesting chunks. -/
  | copyBegin (h : Fin 4)
  /-- R556: The intersect unit starts an accepted fibre instruction. -/
  | intersectStart (h : Fin 4)
  /-- R574: A step of an outer product enters the array after slot wait and hazards. -/
  | matrixStepEntry (h : Fin 4)
  /-- R574: An outer-product step writes its accumulator elements 12 cycles after entry. -/
  | matrixStepWrite (h : Fin 4)
  /-- R168: A waiting mstart is granted matrix mode when the holder leaves. -/
  | matrixModeGrant
  /-- R579: All members' mgang reach their queue heads and bind on one cycle. -/
  | mgangBind (h : Fin 4)
  /-- R581: All members' mgsync retire together. -/
  | mgsyncRelease (h : Fin 4)
  /-- R162: Freed lane groups are granted to waiting harts by priority. -/
  | laneGroupGrant
  /-- R336: A waiting fence or lsync completes and applies its scope effects. -/
  | fenceComplete (h : Fin 4)
  /-- R348: acqm completes once its copies' chunks have completed. -/
  | acqmComplete (h : Fin 4)
  /-- R595: drainw completes once every remote request is answered. -/
  | drainwComplete (h : Fin 4)
  /-- R501: cwait retires once every earlier copy has completed. -/
  | cwaitRetire (h : Fin 4)
  /-- R609: After draining, the hart stops and releases groups, streams, reservation and matrix mode. -/
  | tdoneStop (h : Fin 4)
  /-- R589: A gbar's fence phase ends and its arrival is recorded. -/
  | barrierArrival (h : Fin 4)
  /-- R589: All participants have arrived; the release is applied at every participant. -/
  | barrierRelease (task : Nat) (scope : BitVec 3)
  /-- R155: A re-read of the progress word meets the target and the hart becomes ready. -/
  | wfpWake (h : Fin 4)
  /-- R467: A hart waiting in wfe sees EV set and continues. -/
  | wfeWake (h : Fin 4)
  /-- R607: GTIME reaches the gwait target. -/
  | gwaitWake (h : Fin 4)
  /-- R468: An evsig reaches its target hart and sets EV. -/
  | eventSignalArrival (hartid : BitVec 11) (ctxid : BitVec 32)
  /-- R311: A waiting FIFO push or pop performs once room or data exists. -/
  | fifoWaitServed (h : Fin 4)
  /-- R504: After room is available, capp reserves, writes entries and completes batches. -/
  | cappAppend (h : Fin 4)
  /-- R470: tinv or tinva completes after outstanding walks end. -/
  | tlbInvalidateDone (h : Fin 4)
  /-- R492: A waiting sbind claims a freed stream engine. -/
  | sbindEngineClaim (h : Fin 4)
  /-- R90: Every 256 cycles HBEAT advances at every core. -/
  | heartbeatTick (adv : Nat)
  /-- R141: The dispatch unit's per-cycle decision dispatches the head or a backfill record. -/
  | taskDispatch
  /-- R135: A host record held on FULL retries admission each cycle. -/
  | fullAdmissionRetry
  /-- R127: Host NOP record completes OK. -/
  | nop
  /-- R124: Host record accepting features; in FEATWAIT it builds context 0 and starts the runtime. -/
  | featack
  /-- R127: Host record creating a context with its JOB entry ACTIVE. -/
  | ctxnew
  /-- R127: Host record killing a context and quarantining its JOB entry. -/
  | ctxkill
  /-- R128: Host record launching a task on this device, queued or timed. -/
  | launch
  /-- R127: Host record setting one digest of a job's attestation policy. -/
  | policy
  /-- R127: Host record verifying a staged firmware image and writing it to the idle slot. -/
  | fwstage
  /-- R125: Host write advancing the command producer count, or ignored and RINGERR set. -/
  | crqtailWrite (v : BitVec 32)
  /-- R130: Host write advancing the completion consumer count, releasing a held record. -/
  | cqconsWrite (v : BitVec 32)
  /-- R132: Host write advancing the event consumer count. -/
  | evconsWrite (v : BitVec 32)
  /-- R120: DEVCTL RESET with a valid key kills every context and restarts bring-up. -/
  | moduleReset (v : BitVec 32)
  /-- R116: A write to a register with no behaviour of its own stores its RW fields. -/
  | registerWrite (off : Nat) (bytes : List Byte)
  /-- R26: MONCTL CLR write clears a monitor's statistics. -/
  | monitorClear (die k : Nat)
  /-- R27: A MONCTL write changing SEL, SHIFT or BASE acts also as a clear. -/
  | monitorConfigWrite (die k : Nat) (v : BitVec 32)
  /-- R26: A monitor takes a sample and updates min, max, count and histogram. -/
  | monitorSample (die k sample : Nat)
  /-- R115: Loss of the PCI Express link, which stops no device activity. -/
  | pcieLinkDown
  /-- R19: Power-on starts the staggered die bring-up. -/
  | powerOn
  /-- R121: 1 ms after module reset the state moves to POWERUP. -/
  | resetToPowerup
  /-- R19: A die's slot time arrives and it is powered. -/
  | diePowerUp (die : Nat)
  /-- R20: A die reports power-good; the last one ends the power sequence. -/
  | diePowerGood (die : Nat)
  /-- R20: A die misses power-good within 1 ms; the sequence stops and the device fails. -/
  | powerGoodTimeout (die : Nat)
  /-- R122: The firmware slot check ends, selecting a slot or failing. -/
  | firmwareCheckDone
  /-- R18: Input power above 3,200 W over 1 ms raises a warning event. -/
  | powerWarn
  /-- R18: A junction above 100 °C raises a warning event. -/
  | thermalWarn (die : Nat)
  /-- R18: Input power above 3,520 W over 100 µs trips the module. -/
  | powerTrip
  /-- R18: A junction at 110 °C trips the module. -/
  | thermalTrip (die : Nat)
  /-- R53: A 256-byte flit is received, checked, acknowledged and its beats delivered. -/
  | flitReceive (port : Nat) (flit : List Byte)
  /-- R37: A flit fails four consecutive retries and the module retrains at once. -/
  | flitRetryLimit (port : Bool) (n m : Nat)
  /-- R36: The 1 ms counting window ends and retry and lane counters clear. -/
  | retryWindowBoundary (port : Bool) (n m : Nat)
  /-- R38: A module over threshold starts its service sequence by pausing. -/
  | linkServiceStart (port : Bool) (n : Nat) (r : LinkReport)
  /-- R38: The module's replay buffers drain and remap or retrain proceeds. -/
  | linkDrainDone (port : Bool) (n m : Nat)
  /-- R40: The drain misses 640 cycles and the sequence proceeds to retraining. -/
  | linkDrainTimeout (port : Bool) (n m : Nat)
  /-- R38: A lane is remapped to a spare and the configuration exchange follows. -/
  | linkRemapDone (port : Bool) (n m : Nat)
  /-- R38: A module or port retrain ends and the configuration exchange follows. -/
  | linkRetrainDone (port : Bool) (n m : Nat)
  /-- R34: A configuration record is received and compared; mismatch demotes and retrains. -/
  | configRecord (port : Bool) (n m : Nat) (record : BitVec 128)
  /-- R34: No configuration record arrives in time, counting as a mismatch. -/
  | configRecordTimeout (port : Bool) (n m : Nat)
  /-- R71: A flow with nothing outstanding moves to the plane given by the new plane count. -/
  | flowRepin (flow : BitVec 16) (d : PathsDown)
  /-- R63: A remote load request is performed at the home and answered. -/
  | ldreq (p : Packet)
  /-- R72: A load response arrives and completes or traps the load. -/
  | ldrsp (p : Packet)
  /-- R63: A remote store request is performed at the home and answered. -/
  | streq (p : Packet)
  /-- R72: A store completion arrives; failure writes an error entry. -/
  | stcmp (p : Packet)
  /-- R64: A remote atomic is performed at the home and answered. -/
  | amoreq (p : Packet)
  /-- R72: An atomic response arrives with the old value or status. -/
  | amorsp (p : Packet)
  /-- R64: Scatter-accumulate entries are combined one by one at the home. -/
  | scareq (p : Packet)
  /-- R64: A scatter-accumulate completion arrives; failure writes a KIND 2 entry. -/
  | scacmp (p : Packet)
  /-- R65: A parity holder XORs a delta into its parity unit and returns PDACK. -/
  | pdelta (p : Packet)
  /-- R323: A parity acknowledgement arrives; failure marks the holder lost and degrades the group. -/
  | pdack (p : Packet)
  /-- R109: A reduction packet arrives; a site holding both children forms and forwards the node. -/
  | reduce (p : Packet)
  /-- R109: A reduction result arrives, is forwarded down, and the last chunk writes the status word. -/
  | redres (p : Packet)
  /-- R641: A held reduction packet with no accepted descriptor is dropped. -/
  | reduceHoldTimeout (i : Nat)
  /-- R111: A missing chunk fails the reduction with FAIL and an error entry. -/
  | reductionTimeout (job : BitVec 16) (rid : BitVec 32)
  /-- R63: A remote copy read is performed at the home and answered with CPYDAT. -/
  | cpyrd (p : Packet)
  /-- R63: Copy read data arrives at the copy engine. -/
  | cpydat (p : Packet)
  /-- R63: A remote copy write is performed at the home and answered. -/
  | cpywr (p : Packet)
  /-- R63: A copy write completion arrives. -/
  | cpycmp (p : Packet)
  /-- R95: A timed record is checked at the source Bellwether and answered with TLACK. -/
  | tlrec (p : Packet)
  /-- R500: A timed-record acknowledgement arrives and its answer word is written. -/
  | tlack (p : Packet)
  /-- R175: An arm reaches a member, which acknowledges once prepared. -/
  | gangctlArm (p : Packet)
  /-- R643: An acknowledge of an arm or cancel reaches the coordinator. -/
  | gangctlAcknowledge (p : Packet)
  /-- R176: A cancel disarms a member and is acknowledged. -/
  | gangctlCancel (p : Packet)
  /-- R96: A wave-mode go makes the member act on acceptance. -/
  | gangctlGo (p : Packet)
  /-- R178: A straggler report makes the coordinator declare a split and resolve it. -/
  | gangctlStraggler (p : Packet)
  /-- R100: An SPDM message fragment is received and reassembled. -/
  | spdmmsg (p : Packet)
  /-- R100: An incomplete SPDM message is discarded 1 ms after its first fragment. -/
  | spdmReassemblyTimeout (src : Epid) (mseq : BitVec 16)
  /-- R73: A request's response misses 160 µs and it completes with TIMEOUT. -/
  | requestTimeout (tag : Nat)
  /-- R642: A timed-out request's tag frees 64 µs later. -/
  | tagRelease (tag : Nat)
  /-- R77: 64 µs after a retirement a held activation of the JOB number may proceed. -/
  | quarantineExpiry (job : BitVec 16)
  /-- R87: A PTP Sync updates the servo, lock state and UNC, and may step GTIME out of FREE. -/
  | ptpSync (die : Fin 2) (offset : Int) (ptp : Nat) (syncs : List PtpSync)
  /-- R84: A PTP Announce is received; a grandmaster change enters HOLDOVER. -/
  | ptpAnnounce (die : Fin 2) (x : PortAnnounce)
  /-- R84: A peer-delay message is exchanged on a port. -/
  | ptpPdelay (p : PtpPort) (t : PtpTimes)
  /-- R87: Four Sync intervals without valid Sync move LOCKED to HOLDOVER. -/
  | syncLossTimeout (die : Fin 2)
  /-- R87: UNC passes 1,000 ns in HOLDOVER and the state becomes UNCERTAIN. -/
  | holdoverToUncertain (die : Fin 2)
  /-- R96: 10 µs before T the coordinator decides timed, wave or cancel and sends arm or cancel. -/
  | modeDecision (gangid : BitVec 32) (t : Nat)
  /-- R175: At T − 4 µs a missing arm acknowledgement makes the coordinator cancel. -/
  | armAckDeadline (gangid : BitVec 32) (t : Nat)
  /-- R176: Every 1 µs the coordinator resends cancel to unacknowledging members. -/
  | cancelResend (gangid : BitVec 32) (t : Nat)
  /-- R196: A member finishes reading, checking and binding, reserving slots, and becomes armable. -/
  | gangPreparationDone (gangid : BitVec 32) (t : Nat)
  /-- R91: GTIME reaches T; armed members launch, freeze or resume, and unarmed ones raise STRAGGLER. -/
  | switchInstant (gangid : BitVec 32) (t : Nat)
  /-- R179: The coordinator offers a cancelled or split gang record again at T + 100 µs. -/
  | gangReoffer (gangid : BitVec 32) (t : Nat)
  /-- R180: A pre-empting member's drain is not done by T + 50 µs. -/
  | stragglerLimit (gangid : BitVec 32) (t : Nat)
  /-- R188: Compatibility harts not stopped within WDLIMIT; the context is killed with WDOG. -/
  | watchdogExpiry (gangid : BitVec 32) (t : Nat)
  /-- R190: The drain counter reaches zero and the save image is written, then resources freed. -/
  | saveImageWrite (gangid : BitVec 32) (t : Nat)
  /-- R309: A BANKMODE write starts the close, drain, write-back, clear and open sequence. -/
  | bankmodeWrite (die bank : Nat) (v : Word)
  /-- R309: A bank mode change finishes and the bank opens in its new mode. -/
  | bankModeChangeDone (die bank : Nat)
  /-- R315: A line with repeated corrected errors is remapped to a spare. -/
  | lineRemap (die bank line : Nat)
  /-- R325: RBCTL GO starts a survivor's rebuild of lost stripes. -/
  | rebuildGo (group : Nat) (v : Word)
  /-- R325: A rebuilt unit is written to the replacement; the last sets DONE, a failure sets FAIL. -/
  | rebuildUnitDone (group stripe : Nat) (slot : BitVec 4) (newep : Epid)
  /-- R115: The PCI Express link returns after a loss, and host access to BAR0 and MSI-X delivery resume. -/
  | pcieLinkUp
  /-- R436: Issue of a reserved word, or of a word breaking a field rule, traps ILL precisely at issue, or kills the context with EMU_NEST at E. -/
  | reservedEncoding (h : Fin 4) (w : IWord)
  /-- R401: An instruction fetch whose translation faults, or whose target is misaligned, traps PF_FETCH with ETVAL the fetch VA. -/
  | pfFetch (h : Fin 4) (va : Word)
  /-- R127: A command record with an unknown OPC completes with status BADOPC and has no effect. -/
  | badopc
  /-- R103: GTIME passes the EXPIRY of a held JOBKEY and the key is erased. -/
  | jobkeyExpiry (job : BitVec 16)
  /-- R386: The SHA3-512 of a verified-copy unit completes 1,368 cycles after its last byte is read, and the destination is written or the eight chunks fail with an AUTH entry. -/
  | verifyHashDone (h : Fin 4)
  deriving DecidableEq, Repr

end Sys2Proof
end

