-- ==== Sys2Proof/WellFormed.lean ====
section
/-! DEFINITION. The field rules that an instruction must meet beyond its match and mask (R404, R439): a word that breaks one
traps ILL. -/

namespace Sys2Proof

/-- A rounding field of the scalar FP instructions: 5 and 6 are reserved (R439). -/
def rmOk (r : BitVec 3) : Bool := r != 5#3 && r != 6#3

/-- The integer types of `fcvif` and `fcvfi`: i32, i64, z32, z64 (R439). -/
def itOk (i : BitVec 4) : Bool := i == 2#4 || i == 3#4 || i == 6#4 || i == 7#4

/-- Whether R253 lists a control-register number. -/
def crListed (c : BitVec 12) : Bool :=
  let n := c.toNat
  n == 0x001 || n == 0x002 || n == 0x008 || (0x010 ≤ n && n ≤ 0x019) || (0x020 ≤ n && n ≤ 0x03F) ||
  (0x040 ≤ n && n ≤ 0x045) || (0x100 ≤ n && n ≤ 0x108) || (0xC00 ≤ n && n ≤ 0xC06) || (0xC08 ≤ n && n ≤ 0xC0B)

/-- The field rules of R404 and R439. Rows without a rule, and events, have none to break. -/
def Instr.wf : Instr → Bool
  | .fadd _ _ _ _ r => rmOk r
  | .fsub _ _ _ _ r => rmOk r
  | .fmul _ _ _ _ r => rmOk r
  | .fdiv _ _ _ _ r => rmOk r
  | .fsqrt _ _ _ r => rmOk r
  | .fmadd _ _ _ _ r => rmOk r
  | .fcvif _ _ i _ r => itOk i && rmOk r
  | .fcvfi _ _ i _ r => itOk i && rmOk r
  | .fcvff _ _ s t r => s != t && rmOk r
  | .ld _ _ w _ => w != 7#3
  | .loop _ _ n => n != 0#20
  | .crr _ c => crListed c
  | .crw _ _ c => crListed c
  | .crs _ _ c => crListed c
  | .crc _ _ c => crListed c
  | .vld _ _ _ _ w x => !(x == 1#1 && w == 3#2)
  | .vlds _ _ _ _ w x => !(x == 1#1 && w == 3#2)
  | .vldx _ _ _ _ w x => !(x == 1#1 && w == 3#2)
  | .vldxo _ _ _ _ _ w x => !(x == 1#1 && w == 3#2)
  | .vcmpVv d _ _ _ _ c t => d != 0#3 && !(6 ≤ c.toNat && t.toNat < 2)
  | .vcmpVx d _ _ _ c t => d != 0#3 && !(6 ≤ c.toNat && t.toNat < 2)
  | .vcvtr _ _ r _ => decide (r.toNat ≤ 4)
  | .fisect _ _ _ c => decide (c.toNat ≤ 5)
  | .funion _ _ _ c => decide (c.toNat ≤ 5)
  | .fmerge _ _ _ c => decide (c.toNat ≤ 5)
  | .fdedup _ _ c => decide (c.toNat ≤ 5)
  | .mopo _ _ _ _ _ f => decide (f.toNat ≤ 5)
  | .mopob _ _ _ _ _ f => decide (2 ≤ f.toNat) && decide (f.toNat ≤ 4)
  | .mopr _ _ _ _ _ f => decide (f.toNat ≤ 5)
  | .moprb _ _ _ _ _ f => decide (2 ≤ f.toNat) && decide (f.toNat ≤ 4)
  | .mopsb _ _ _ _ _ f => decide (2 ≤ f.toNat) && decide (f.toNat ≤ 4)
  | _ => true

end Sys2Proof
end

