-- ==== Sys2Proof/Decode.lean ====
section
/-! DEFINITION. The decoder of instruction words (R435, R436, R439, R440), total and rejecting by name, and the encoder
written from the same field positions (R402). -/

namespace Sys2Proof

/-- Why a word is reserved (R436): its major, its function code, or a field rule. -/
inductive Reserved where
  | major
  | function
  | field
  deriving DecidableEq, Repr

/-- A word of an instruction: the bits under `mask` must equal `pat` (R404), and the field rules must hold (R439). -/
def pick (w mask pat : IWord) (i : Instr) (rest : Except Reserved Instr) : Except Reserved Instr :=
  if w &&& mask = pat then (if i.wf then .ok i else .error .field) else rest

/-- Major 0x01 (R439). -/
def decMajor01 (w : IWord) : Except Reserved Instr :=
  pick w 0xFC000000#32 0x04000000#32 (.pfx (w.extractLsb' 23 3) (w.extractLsb' 22 1) (w.extractLsb' 21 1) (w.extractLsb' 16 5) (w.extractLsb' 15 1) (w.extractLsb' 12 3) (w.extractLsb' 11 1) (w.extractLsb' 8 3) (w.extractLsb' 0 8)) (.error .field)

/-- Major 0x02 (R439). -/
def decMajor02 (w : IWord) : Except Reserved Instr :=
  match (w.extractLsb' 0 11).toNat with
  | 0x0 => pick w 0xFC0007FF#32 0x08000000#32 (.add (w.extractLsb' 21 5) (w.extractLsb' 16 5) (w.extractLsb' 11 5)) (.error .field)
  | 0x1 => pick w 0xFC0007FF#32 0x08000001#32 (.sub (w.extractLsb' 21 5) (w.extractLsb' 16 5) (w.extractLsb' 11 5)) (.error .field)
  | 0x2 => pick w 0xFC0007FF#32 0x08000002#32 (.and (w.extractLsb' 21 5) (w.extractLsb' 16 5) (w.extractLsb' 11 5)) (.error .field)
  | 0x3 => pick w 0xFC0007FF#32 0x08000003#32 (.or (w.extractLsb' 21 5) (w.extractLsb' 16 5) (w.extractLsb' 11 5)) (.error .field)
  | 0x4 => pick w 0xFC0007FF#32 0x08000004#32 (.xor (w.extractLsb' 21 5) (w.extractLsb' 16 5) (w.extractLsb' 11 5)) (.error .field)
  | 0x5 => pick w 0xFC0007FF#32 0x08000005#32 (.sll (w.extractLsb' 21 5) (w.extractLsb' 16 5) (w.extractLsb' 11 5)) (.error .field)
  | 0x6 => pick w 0xFC0007FF#32 0x08000006#32 (.srl (w.extractLsb' 21 5) (w.extractLsb' 16 5) (w.extractLsb' 11 5)) (.error .field)
  | 0x7 => pick w 0xFC0007FF#32 0x08000007#32 (.sra (w.extractLsb' 21 5) (w.extractLsb' 16 5) (w.extractLsb' 11 5)) (.error .field)
  | 0x8 => pick w 0xFC0007FF#32 0x08000008#32 (.slt (w.extractLsb' 21 5) (w.extractLsb' 16 5) (w.extractLsb' 11 5)) (.error .field)
  | 0x9 => pick w 0xFC0007FF#32 0x08000009#32 (.sltu (w.extractLsb' 21 5) (w.extractLsb' 16 5) (w.extractLsb' 11 5)) (.error .field)
  | 0xA => pick w 0xFC0007FF#32 0x0800000A#32 (.min (w.extractLsb' 21 5) (w.extractLsb' 16 5) (w.extractLsb' 11 5)) (.error .field)
  | 0xB => pick w 0xFC0007FF#32 0x0800000B#32 (.max (w.extractLsb' 21 5) (w.extractLsb' 16 5) (w.extractLsb' 11 5)) (.error .field)
  | 0xC => pick w 0xFC0007FF#32 0x0800000C#32 (.minu (w.extractLsb' 21 5) (w.extractLsb' 16 5) (w.extractLsb' 11 5)) (.error .field)
  | 0xD => pick w 0xFC0007FF#32 0x0800000D#32 (.maxu (w.extractLsb' 21 5) (w.extractLsb' 16 5) (w.extractLsb' 11 5)) (.error .field)
  | 0x10 => pick w 0xFC0007FF#32 0x08000010#32 (.mul (w.extractLsb' 21 5) (w.extractLsb' 16 5) (w.extractLsb' 11 5)) (.error .field)
  | 0x11 => pick w 0xFC0007FF#32 0x08000011#32 (.mulh (w.extractLsb' 21 5) (w.extractLsb' 16 5) (w.extractLsb' 11 5)) (.error .field)
  | 0x12 => pick w 0xFC0007FF#32 0x08000012#32 (.mulhu (w.extractLsb' 21 5) (w.extractLsb' 16 5) (w.extractLsb' 11 5)) (.error .field)
  | 0x13 => pick w 0xFC0007FF#32 0x08000013#32 (.div (w.extractLsb' 21 5) (w.extractLsb' 16 5) (w.extractLsb' 11 5)) (.error .field)
  | 0x14 => pick w 0xFC0007FF#32 0x08000014#32 (.divu (w.extractLsb' 21 5) (w.extractLsb' 16 5) (w.extractLsb' 11 5)) (.error .field)
  | 0x15 => pick w 0xFC0007FF#32 0x08000015#32 (.rem (w.extractLsb' 21 5) (w.extractLsb' 16 5) (w.extractLsb' 11 5)) (.error .field)
  | 0x16 => pick w 0xFC0007FF#32 0x08000016#32 (.remu (w.extractLsb' 21 5) (w.extractLsb' 16 5) (w.extractLsb' 11 5)) (.error .field)
  | 0x18 => pick w 0xFC00FFFF#32 0x08000018#32 (.clz (w.extractLsb' 21 5) (w.extractLsb' 16 5)) (.error .field)
  | 0x19 => pick w 0xFC00FFFF#32 0x08000019#32 (.ctz (w.extractLsb' 21 5) (w.extractLsb' 16 5)) (.error .field)
  | 0x1A => pick w 0xFC00FFFF#32 0x0800001A#32 (.popc (w.extractLsb' 21 5) (w.extractLsb' 16 5)) (.error .field)
  | 0x1B => pick w 0xFC0007FF#32 0x0800001B#32 (.sext (w.extractLsb' 21 5) (w.extractLsb' 16 5) (w.extractLsb' 11 5)) (.error .field)
  | 0x1C => pick w 0xFC0007FF#32 0x0800001C#32 (.zext (w.extractLsb' 21 5) (w.extractLsb' 16 5) (w.extractLsb' 11 5)) (.error .field)
  | 0x1D => pick w 0xFC00FFFF#32 0x0800001D#32 (.brev (w.extractLsb' 21 5) (w.extractLsb' 16 5)) (.error .field)
  | _ => .error .function

/-- Major 0x03 (R439). -/
def decMajor03 (w : IWord) : Except Reserved Instr :=
  pick w 0xFC000000#32 0x0C000000#32 (.addi (w.extractLsb' 21 5) (w.extractLsb' 16 5) (w.extractLsb' 0 16)) (.error .field)

/-- Major 0x04 (R439). -/
def decMajor04 (w : IWord) : Except Reserved Instr :=
  pick w 0xFC000000#32 0x10000000#32 (.andi (w.extractLsb' 21 5) (w.extractLsb' 16 5) (w.extractLsb' 0 16)) (.error .field)

/-- Major 0x05 (R439). -/
def decMajor05 (w : IWord) : Except Reserved Instr :=
  pick w 0xFC000000#32 0x14000000#32 (.ori (w.extractLsb' 21 5) (w.extractLsb' 16 5) (w.extractLsb' 0 16)) (.error .field)

/-- Major 0x06 (R439). -/
def decMajor06 (w : IWord) : Except Reserved Instr :=
  pick w 0xFC000000#32 0x18000000#32 (.xori (w.extractLsb' 21 5) (w.extractLsb' 16 5) (w.extractLsb' 0 16)) (.error .field)

/-- Major 0x07 (R439). -/
def decMajor07 (w : IWord) : Except Reserved Instr :=
  pick w 0xFC000000#32 0x1C000000#32 (.slti (w.extractLsb' 21 5) (w.extractLsb' 16 5) (w.extractLsb' 0 16)) (.error .field)

/-- Major 0x08 (R439). -/
def decMajor08 (w : IWord) : Except Reserved Instr :=
  pick w 0xFC000000#32 0x20000000#32 (.sltiu (w.extractLsb' 21 5) (w.extractLsb' 16 5) (w.extractLsb' 0 16)) (.error .field)

/-- Major 0x09 (R439). -/
def decMajor09 (w : IWord) : Except Reserved Instr :=
  pick w 0xFC1F0000#32 0x24000000#32 (.lhi (w.extractLsb' 21 5) (w.extractLsb' 0 16)) (.error .field)

/-- Major 0x0A (R439). -/
def decMajor0A (w : IWord) : Except Reserved Instr :=
  pick w 0xFC1F0000#32 0x28000000#32 (.adpc (w.extractLsb' 21 5) (w.extractLsb' 0 16)) (.error .field)

/-- Major 0x0B (R439). -/
def decMajor0B (w : IWord) : Except Reserved Instr :=
  match (w.extractLsb' 14 2).toNat with
  | 0x0 => pick w 0xFC00C0FF#32 0x2C000000#32 (.slli (w.extractLsb' 21 5) (w.extractLsb' 16 5) (w.extractLsb' 8 6)) (.error .field)
  | 0x1 => pick w 0xFC00C0FF#32 0x2C004000#32 (.srli (w.extractLsb' 21 5) (w.extractLsb' 16 5) (w.extractLsb' 8 6)) (.error .field)
  | 0x2 => pick w 0xFC00C0FF#32 0x2C008000#32 (.srai (w.extractLsb' 21 5) (w.extractLsb' 16 5) (w.extractLsb' 8 6)) (.error .field)
  | 0x3 => pick w 0xFC00C0FF#32 0x2C00C000#32 (.roli (w.extractLsb' 21 5) (w.extractLsb' 16 5) (w.extractLsb' 8 6)) (.error .field)
  | _ => .error .function

/-- Major 0x0C (R439). -/
def decMajor0C (w : IWord) : Except Reserved Instr :=
  match (w.extractLsb' 0 6).toNat with
  | 0x0 => pick w 0xFC00003F#32 0x30000000#32 (.fadd (w.extractLsb' 21 5) (w.extractLsb' 16 5) (w.extractLsb' 11 5) (w.extractLsb' 9 2) (w.extractLsb' 6 3)) (.error .field)
  | 0x1 => pick w 0xFC00003F#32 0x30000001#32 (.fsub (w.extractLsb' 21 5) (w.extractLsb' 16 5) (w.extractLsb' 11 5) (w.extractLsb' 9 2) (w.extractLsb' 6 3)) (.error .field)
  | 0x2 => pick w 0xFC00003F#32 0x30000002#32 (.fmul (w.extractLsb' 21 5) (w.extractLsb' 16 5) (w.extractLsb' 11 5) (w.extractLsb' 9 2) (w.extractLsb' 6 3)) (.error .field)
  | 0x3 => pick w 0xFC00003F#32 0x30000003#32 (.fdiv (w.extractLsb' 21 5) (w.extractLsb' 16 5) (w.extractLsb' 11 5) (w.extractLsb' 9 2) (w.extractLsb' 6 3)) (.error .field)
  | 0x4 => pick w 0xFC00F83F#32 0x30000004#32 (.fsqrt (w.extractLsb' 21 5) (w.extractLsb' 16 5) (w.extractLsb' 9 2) (w.extractLsb' 6 3)) (.error .field)
  | 0x5 => pick w 0xFC0001FF#32 0x30000005#32 (.fmin (w.extractLsb' 21 5) (w.extractLsb' 16 5) (w.extractLsb' 11 5) (w.extractLsb' 9 2)) (.error .field)
  | 0x6 => pick w 0xFC0001FF#32 0x30000006#32 (.fmax (w.extractLsb' 21 5) (w.extractLsb' 16 5) (w.extractLsb' 11 5) (w.extractLsb' 9 2)) (.error .field)
  | 0x7 => pick w 0xFC00003F#32 0x30000007#32 (.fmadd (w.extractLsb' 21 5) (w.extractLsb' 16 5) (w.extractLsb' 11 5) (w.extractLsb' 9 2) (w.extractLsb' 6 3)) (.error .field)
  | 0x8 => pick w 0xFC0001FF#32 0x30000008#32 (.feq (w.extractLsb' 21 5) (w.extractLsb' 16 5) (w.extractLsb' 11 5) (w.extractLsb' 9 2)) (.error .field)
  | 0x9 => pick w 0xFC0001FF#32 0x30000009#32 (.flt (w.extractLsb' 21 5) (w.extractLsb' 16 5) (w.extractLsb' 11 5) (w.extractLsb' 9 2)) (.error .field)
  | 0xA => pick w 0xFC0001FF#32 0x3000000A#32 (.fle (w.extractLsb' 21 5) (w.extractLsb' 16 5) (w.extractLsb' 11 5) (w.extractLsb' 9 2)) (.error .field)
  | 0xB => pick w 0xFC00F9FF#32 0x3000000B#32 (.fclass (w.extractLsb' 21 5) (w.extractLsb' 16 5) (w.extractLsb' 9 2)) (.error .field)
  | 0x10 => pick w 0xFC00803F#32 0x30000010#32 (.fcvif (w.extractLsb' 21 5) (w.extractLsb' 16 5) (w.extractLsb' 11 4) (w.extractLsb' 9 2) (w.extractLsb' 6 3)) (.error .field)
  | 0x11 => pick w 0xFC00803F#32 0x30000011#32 (.fcvfi (w.extractLsb' 21 5) (w.extractLsb' 16 5) (w.extractLsb' 11 4) (w.extractLsb' 9 2) (w.extractLsb' 6 3)) (.error .field)
  | 0x12 => pick w 0xFC00E03F#32 0x30000012#32 (.fcvff (w.extractLsb' 21 5) (w.extractLsb' 16 5) (w.extractLsb' 11 2) (w.extractLsb' 9 2) (w.extractLsb' 6 3)) (.error .field)
  | _ => .error .function

/-- Major 0x0D (R439). -/
def decMajor0D (w : IWord) : Except Reserved Instr :=
  pick w 0xFC000000#32 0x34000000#32 (.ld (w.extractLsb' 21 5) (w.extractLsb' 16 5) (w.extractLsb' 13 3) (w.extractLsb' 0 13)) (.error .field)

/-- Major 0x0E (R439). -/
def decMajor0E (w : IWord) : Except Reserved Instr :=
  pick w 0xFC008000#32 0x38000000#32 (.st (w.extractLsb' 21 5) (w.extractLsb' 16 5) (w.extractLsb' 13 2) (w.extractLsb' 0 13)) (.error .field)

/-- Major 0x0F (R439). -/
def decMajor0F (w : IWord) : Except Reserved Instr :=
  match (w.extractLsb' 0 5).toNat with
  | 0x0 => pick w 0xFC00001F#32 0x3C000000#32 (.amoadd (w.extractLsb' 21 5) (w.extractLsb' 16 5) (w.extractLsb' 11 5) (w.extractLsb' 10 1) (w.extractLsb' 9 1) (w.extractLsb' 8 1) (w.extractLsb' 5 3)) (.error .field)
  | 0x1 => pick w 0xFC00001F#32 0x3C000001#32 (.amoand (w.extractLsb' 21 5) (w.extractLsb' 16 5) (w.extractLsb' 11 5) (w.extractLsb' 10 1) (w.extractLsb' 9 1) (w.extractLsb' 8 1) (w.extractLsb' 5 3)) (.error .field)
  | 0x2 => pick w 0xFC00001F#32 0x3C000002#32 (.amoor (w.extractLsb' 21 5) (w.extractLsb' 16 5) (w.extractLsb' 11 5) (w.extractLsb' 10 1) (w.extractLsb' 9 1) (w.extractLsb' 8 1) (w.extractLsb' 5 3)) (.error .field)
  | 0x3 => pick w 0xFC00001F#32 0x3C000003#32 (.amoxor (w.extractLsb' 21 5) (w.extractLsb' 16 5) (w.extractLsb' 11 5) (w.extractLsb' 10 1) (w.extractLsb' 9 1) (w.extractLsb' 8 1) (w.extractLsb' 5 3)) (.error .field)
  | 0x4 => pick w 0xFC00001F#32 0x3C000004#32 (.amomin (w.extractLsb' 21 5) (w.extractLsb' 16 5) (w.extractLsb' 11 5) (w.extractLsb' 10 1) (w.extractLsb' 9 1) (w.extractLsb' 8 1) (w.extractLsb' 5 3)) (.error .field)
  | 0x5 => pick w 0xFC00001F#32 0x3C000005#32 (.amomax (w.extractLsb' 21 5) (w.extractLsb' 16 5) (w.extractLsb' 11 5) (w.extractLsb' 10 1) (w.extractLsb' 9 1) (w.extractLsb' 8 1) (w.extractLsb' 5 3)) (.error .field)
  | 0x6 => pick w 0xFC00001F#32 0x3C000006#32 (.amominu (w.extractLsb' 21 5) (w.extractLsb' 16 5) (w.extractLsb' 11 5) (w.extractLsb' 10 1) (w.extractLsb' 9 1) (w.extractLsb' 8 1) (w.extractLsb' 5 3)) (.error .field)
  | 0x7 => pick w 0xFC00001F#32 0x3C000007#32 (.amomaxu (w.extractLsb' 21 5) (w.extractLsb' 16 5) (w.extractLsb' 11 5) (w.extractLsb' 10 1) (w.extractLsb' 9 1) (w.extractLsb' 8 1) (w.extractLsb' 5 3)) (.error .field)
  | 0x8 => pick w 0xFC00001F#32 0x3C000008#32 (.amoswap (w.extractLsb' 21 5) (w.extractLsb' 16 5) (w.extractLsb' 11 5) (w.extractLsb' 10 1) (w.extractLsb' 9 1) (w.extractLsb' 8 1) (w.extractLsb' 5 3)) (.error .field)
  | 0x9 => pick w 0xFC00001F#32 0x3C000009#32 (.amocas (w.extractLsb' 21 5) (w.extractLsb' 16 5) (w.extractLsb' 11 5) (w.extractLsb' 10 1) (w.extractLsb' 9 1) (w.extractLsb' 8 1) (w.extractLsb' 5 3)) (.error .field)
  | 0xA => pick w 0xFC00001F#32 0x3C00000A#32 (.amofadd (w.extractLsb' 21 5) (w.extractLsb' 16 5) (w.extractLsb' 11 5) (w.extractLsb' 10 1) (w.extractLsb' 9 1) (w.extractLsb' 8 1) (w.extractLsb' 5 3)) (.error .field)
  | 0xC => pick w 0xFC00FBFF#32 0x3C00000C#32 (.ldr (w.extractLsb' 21 5) (w.extractLsb' 16 5) (w.extractLsb' 10 1)) (.error .field)
  | 0xD => pick w 0xFC0003FF#32 0x3C00000D#32 (.stc (w.extractLsb' 21 5) (w.extractLsb' 16 5) (w.extractLsb' 11 5) (w.extractLsb' 10 1)) (.error .field)
  | _ => .error .function

/-- Major 0x10 (R439). -/
def decMajor10 (w : IWord) : Except Reserved Instr :=
  pick w 0xFC000000#32 0x40000000#32 (.beq (w.extractLsb' 21 5) (w.extractLsb' 16 5) (w.extractLsb' 0 16)) (.error .field)

/-- Major 0x11 (R439). -/
def decMajor11 (w : IWord) : Except Reserved Instr :=
  pick w 0xFC000000#32 0x44000000#32 (.bne (w.extractLsb' 21 5) (w.extractLsb' 16 5) (w.extractLsb' 0 16)) (.error .field)

/-- Major 0x12 (R439). -/
def decMajor12 (w : IWord) : Except Reserved Instr :=
  pick w 0xFC000000#32 0x48000000#32 (.blt (w.extractLsb' 21 5) (w.extractLsb' 16 5) (w.extractLsb' 0 16)) (.error .field)

/-- Major 0x13 (R439). -/
def decMajor13 (w : IWord) : Except Reserved Instr :=
  pick w 0xFC000000#32 0x4C000000#32 (.bge (w.extractLsb' 21 5) (w.extractLsb' 16 5) (w.extractLsb' 0 16)) (.error .field)

/-- Major 0x14 (R439). -/
def decMajor14 (w : IWord) : Except Reserved Instr :=
  pick w 0xFC000000#32 0x50000000#32 (.bltu (w.extractLsb' 21 5) (w.extractLsb' 16 5) (w.extractLsb' 0 16)) (.error .field)

/-- Major 0x15 (R439). -/
def decMajor15 (w : IWord) : Except Reserved Instr :=
  pick w 0xFC000000#32 0x54000000#32 (.bgeu (w.extractLsb' 21 5) (w.extractLsb' 16 5) (w.extractLsb' 0 16)) (.error .field)

/-- Major 0x16 (R439). -/
def decMajor16 (w : IWord) : Except Reserved Instr :=
  pick w 0xFC000000#32 0x58000000#32 (.jmp (w.extractLsb' 0 26)) (.error .field)

/-- Major 0x17 (R439). -/
def decMajor17 (w : IWord) : Except Reserved Instr :=
  pick w 0xFC000000#32 0x5C000000#32 (.call (w.extractLsb' 0 26)) (.error .field)

/-- Major 0x18 (R439). -/
def decMajor18 (w : IWord) : Except Reserved Instr :=
  match (w.extractLsb' 0 11).toNat with
  | 0x0 => pick w 0xFC00FFFF#32 0x60000000#32 (.jalr (w.extractLsb' 21 5) (w.extractLsb' 16 5)) (.error .field)
  | 0x1 => pick w 0xFFFFFFFF#32 0x60000001#32 .ret (.error .field)
  | 0x2 => pick w 0xFFE0FFFF#32 0x60000002#32 (.callr (w.extractLsb' 16 5)) (.error .field)
  | _ => .error .function

/-- Major 0x19 (R439). -/
def decMajor19 (w : IWord) : Except Reserved Instr :=
  pick w 0xFC000000#32 0x64000000#32 (.loop (w.extractLsb' 25 1) (w.extractLsb' 20 5) (w.extractLsb' 0 20)) (.error .field)

/-- Major 0x1A (R439). -/
def decMajor1A (w : IWord) : Except Reserved Instr :=
  match (w.extractLsb' 0 8).toNat with
  | 0x1 => pick w 0xFFFF00FF#32 0x68000001#32 (.svc (w.extractLsb' 8 8)) (.error .field)
  | 0x2 => pick w 0xFFFF00FF#32 0x68000002#32 (.brk (w.extractLsb' 8 8)) (.error .field)
  | 0x3 => pick w 0xFFFFFFFF#32 0x68000003#32 .eret (.error .field)
  | 0x4 => pick w 0xFFFFFFFF#32 0x68000004#32 .wfe (.error .field)
  | 0x5 => pick w 0xFFFFFFFF#32 0x68000005#32 .ifence (.error .field)
  | 0x6 => pick w 0xFFE0FFFF#32 0x68000006#32 (.tinv (w.extractLsb' 16 5)) (.error .field)
  | 0x7 => pick w 0xFFFFFFFF#32 0x68000007#32 .tinva (.error .field)
  | 0x8 => pick w 0xFFFFFFFF#32 0x68000008#32 .emuret (.error .field)
  | 0x9 => pick w 0xFFE0FFFF#32 0x68000009#32 (.evsig (w.extractLsb' 16 5)) (.error .field)
  | 0xA => pick w 0xFFFFFFFF#32 0x6800000A#32 .yield (.error .field)
  | _ => .error .function

/-- Major 0x1B (R439). -/
def decMajor1B (w : IWord) : Except Reserved Instr :=
  match (w.extractLsb' 14 2).toNat with
  | 0x0 => pick w 0xFC1FF000#32 0x6C000000#32 (.crr (w.extractLsb' 21 5) (w.extractLsb' 0 12)) (.error .field)
  | 0x1 => pick w 0xFC00F000#32 0x6C004000#32 (.crw (w.extractLsb' 21 5) (w.extractLsb' 16 5) (w.extractLsb' 0 12)) (.error .field)
  | 0x2 => pick w 0xFC00F000#32 0x6C008000#32 (.crs (w.extractLsb' 21 5) (w.extractLsb' 16 5) (w.extractLsb' 0 12)) (.error .field)
  | 0x3 => pick w 0xFC00F000#32 0x6C00C000#32 (.crc (w.extractLsb' 21 5) (w.extractLsb' 16 5) (w.extractLsb' 0 12)) (.error .field)
  | _ => .error .function

/-- Major 0x1C (R439). -/
def decMajor1C (w : IWord) : Except Reserved Instr :=
  match (w.extractLsb' 0 11).toNat with
  | 0x0 => pick w 0xFC0007FF#32 0x70000000#32 (.smac (w.extractLsb' 21 5) (w.extractLsb' 16 5) (w.extractLsb' 11 5)) (.error .field)
  | 0x1 => pick w 0xFC0007FF#32 0x70000001#32 (.smacz (w.extractLsb' 21 5) (w.extractLsb' 16 5) (w.extractLsb' 11 5)) (.error .field)
  | _ => .error .function

/-- Major 0x20 (R439). -/
def decMajor20 (w : IWord) : Except Reserved Instr :=
  match (w.extractLsb' 0 3).toNat with
  | 0x0 => pick w 0xFC00F80F#32 0x80000000#32 (.setvl (w.extractLsb' 21 5) (w.extractLsb' 16 5) (w.extractLsb' 7 4) (w.extractLsb' 5 2) (w.extractLsb' 4 1)) (.error .field)
  | 0x1 => pick w 0xFC00000F#32 0x80000001#32 (.setlens (w.extractLsb' 21 5) (w.extractLsb' 16 5) (w.extractLsb' 11 5) (w.extractLsb' 7 4) (w.extractLsb' 5 2) (w.extractLsb' 4 1)) (.error .field)
  | 0x2 => pick w 0xFC0007FF#32 0x80000002#32 (.setvlp (w.extractLsb' 21 5) (w.extractLsb' 16 5) (w.extractLsb' 11 5)) (.error .field)
  | 0x3 => pick w 0xFFFFFFFF#32 0x80000003#32 .mstart (.error .field)
  | 0x4 => pick w 0xFFFFFFEF#32 0x80000004#32 (.mstop (w.extractLsb' 4 1)) (.error .field)
  | 0x5 => pick w 0xFFE0FFEF#32 0x80000005#32 (.mcfg (w.extractLsb' 16 5) (w.extractLsb' 4 1)) (.error .field)
  | 0x6 => pick w 0xFC1FFFEF#32 0x80000006#32 (.vrelease (w.extractLsb' 21 5) (w.extractLsb' 4 1)) (.error .field)
  | _ => .error .function

/-- Major 0x21 (R439). -/
def decMajor21 (w : IWord) : Except Reserved Instr :=
  match (w.extractLsb' 6 2).toNat with
  | 0x0 => pick w 0xFC00F8D1#32 0x84000000#32 (.vld (w.extractLsb' 21 5) (w.extractLsb' 16 5) (w.extractLsb' 8 3) (w.extractLsb' 5 1) (w.extractLsb' 2 2) (w.extractLsb' 1 1)) (.error .field)
  | 0x1 => pick w 0xFC0000F1#32 0x84000040#32 (.vlds (w.extractLsb' 21 5) (w.extractLsb' 16 5) (w.extractLsb' 11 5) (w.extractLsb' 8 3) (w.extractLsb' 2 2) (w.extractLsb' 1 1)) (.error .field)
  | 0x2 => pick w 0xFC0000F1#32 0x84000080#32 (.vldx (w.extractLsb' 21 5) (w.extractLsb' 16 5) (w.extractLsb' 11 5) (w.extractLsb' 8 3) (w.extractLsb' 2 2) (w.extractLsb' 1 1)) (.error .field)
  | 0x3 => pick w 0xFC0000D1#32 0x840000C0#32 (.vldxo (w.extractLsb' 21 5) (w.extractLsb' 16 5) (w.extractLsb' 11 5) (w.extractLsb' 8 3) (w.extractLsb' 5 1) (w.extractLsb' 2 2) (w.extractLsb' 1 1)) (.error .field)
  | _ => .error .function

/-- Major 0x22 (R439). -/
def decMajor22 (w : IWord) : Except Reserved Instr :=
  match (w.extractLsb' 6 2).toNat with
  | 0x0 => pick w 0xFC00F8C3#32 0x88000000#32 (.vst (w.extractLsb' 21 5) (w.extractLsb' 16 5) (w.extractLsb' 8 3) (w.extractLsb' 5 1) (w.extractLsb' 4 1) (w.extractLsb' 2 2)) (.error .field)
  | 0x1 => pick w 0xFC0000E3#32 0x88000040#32 (.vsts (w.extractLsb' 21 5) (w.extractLsb' 16 5) (w.extractLsb' 11 5) (w.extractLsb' 8 3) (w.extractLsb' 4 1) (w.extractLsb' 2 2)) (.error .field)
  | 0x2 => pick w 0xFC0000E3#32 0x88000080#32 (.vstx (w.extractLsb' 21 5) (w.extractLsb' 16 5) (w.extractLsb' 11 5) (w.extractLsb' 8 3) (w.extractLsb' 4 1) (w.extractLsb' 2 2)) (.error .field)
  | 0x3 => pick w 0xFC0000C3#32 0x880000C0#32 (.vstxo (w.extractLsb' 21 5) (w.extractLsb' 16 5) (w.extractLsb' 11 5) (w.extractLsb' 8 3) (w.extractLsb' 5 1) (w.extractLsb' 4 1) (w.extractLsb' 2 2)) (.error .field)
  | _ => .error .function

/-- Major 0x23 (R439). -/
def decMajor23 (w : IWord) : Except Reserved Instr :=
  match (w.extractLsb' 0 6).toNat with
  | 0x0 => pick w 0xFC00FFFF#32 0x8C000000#32 (.sbind (w.extractLsb' 21 5) (w.extractLsb' 16 5)) (.error .field)
  | 0x1 => pick w 0xFC1FFFFF#32 0x8C000001#32 (.sunbind (w.extractLsb' 21 5)) (.error .field)
  | 0x2 => pick w 0xFC00FFFF#32 0x8C000002#32 (.spos (w.extractLsb' 21 5) (w.extractLsb' 16 5)) (.error .field)
  | 0x4 => pick w 0xFC0000FF#32 0x8C000004#32 (.gsp (w.extractLsb' 21 5) (w.extractLsb' 16 5) (w.extractLsb' 11 5) (w.extractLsb' 8 3)) (.error .field)
  | 0x5 => pick w 0xFC0000FF#32 0x8C000005#32 (.ssp (w.extractLsb' 21 5) (w.extractLsb' 16 5) (w.extractLsb' 11 5) (w.extractLsb' 8 3)) (.error .field)
  | 0x6 => pick w 0xFFE0F8FF#32 0x8C000006#32 (.cpy (w.extractLsb' 16 5) (w.extractLsb' 8 3)) (.error .field)
  | 0x7 => pick w 0xFFE0F8FF#32 0x8C000007#32 (.cpyr (w.extractLsb' 16 5) (w.extractLsb' 8 3)) (.error .field)
  | 0x8 => pick w 0xFC0000FF#32 0x8C000008#32 (.capp (w.extractLsb' 21 5) (w.extractLsb' 16 5) (w.extractLsb' 11 5) (w.extractLsb' 8 3)) (.error .field)
  | 0xA => pick w 0xFF00FFFF#32 0x8C00000A#32 (.vlm (w.extractLsb' 21 3) (w.extractLsb' 16 5)) (.error .field)
  | 0xB => pick w 0xFF00FFFF#32 0x8C00000B#32 (.vsm (w.extractLsb' 21 3) (w.extractLsb' 16 5)) (.error .field)
  | 0xC => pick w 0xFC1FFFFF#32 0x8C00000C#32 (.cwait (w.extractLsb' 21 5)) (.error .field)
  | _ => .error .function

/-- Major 0x24 (R439). -/
def decMajor24 (w : IWord) : Except Reserved Instr :=
  match (w.extractLsb' 0 6).toNat with
  | 0x0 => pick w 0xFC00003F#32 0x90000000#32 (.vaddVv (w.extractLsb' 21 5) (w.extractLsb' 16 5) (w.extractLsb' 11 5) (w.extractLsb' 8 3) (w.extractLsb' 6 2)) (.error .field)
  | 0x1 => pick w 0xFC00003F#32 0x90000001#32 (.vsubVv (w.extractLsb' 21 5) (w.extractLsb' 16 5) (w.extractLsb' 11 5) (w.extractLsb' 8 3) (w.extractLsb' 6 2)) (.error .field)
  | 0x3 => pick w 0xFC00003F#32 0x90000003#32 (.vmulVv (w.extractLsb' 21 5) (w.extractLsb' 16 5) (w.extractLsb' 11 5) (w.extractLsb' 8 3) (w.extractLsb' 6 2)) (.error .field)
  | 0x4 => pick w 0xFC00003F#32 0x90000004#32 (.vmulhVv (w.extractLsb' 21 5) (w.extractLsb' 16 5) (w.extractLsb' 11 5) (w.extractLsb' 8 3) (w.extractLsb' 6 2)) (.error .field)
  | 0x5 => pick w 0xFC00003F#32 0x90000005#32 (.vmulhuVv (w.extractLsb' 21 5) (w.extractLsb' 16 5) (w.extractLsb' 11 5) (w.extractLsb' 8 3) (w.extractLsb' 6 2)) (.error .field)
  | 0x6 => pick w 0xFC00003F#32 0x90000006#32 (.vdivVv (w.extractLsb' 21 5) (w.extractLsb' 16 5) (w.extractLsb' 11 5) (w.extractLsb' 8 3) (w.extractLsb' 6 2)) (.error .field)
  | 0x7 => pick w 0xFC00003F#32 0x90000007#32 (.vdivuVv (w.extractLsb' 21 5) (w.extractLsb' 16 5) (w.extractLsb' 11 5) (w.extractLsb' 8 3) (w.extractLsb' 6 2)) (.error .field)
  | 0x8 => pick w 0xFC00003F#32 0x90000008#32 (.vremVv (w.extractLsb' 21 5) (w.extractLsb' 16 5) (w.extractLsb' 11 5) (w.extractLsb' 8 3) (w.extractLsb' 6 2)) (.error .field)
  | 0x9 => pick w 0xFC00003F#32 0x90000009#32 (.vremuVv (w.extractLsb' 21 5) (w.extractLsb' 16 5) (w.extractLsb' 11 5) (w.extractLsb' 8 3) (w.extractLsb' 6 2)) (.error .field)
  | 0xA => pick w 0xFC00003F#32 0x9000000A#32 (.vminVv (w.extractLsb' 21 5) (w.extractLsb' 16 5) (w.extractLsb' 11 5) (w.extractLsb' 8 3) (w.extractLsb' 6 2)) (.error .field)
  | 0xB => pick w 0xFC00003F#32 0x9000000B#32 (.vmaxVv (w.extractLsb' 21 5) (w.extractLsb' 16 5) (w.extractLsb' 11 5) (w.extractLsb' 8 3) (w.extractLsb' 6 2)) (.error .field)
  | 0xC => pick w 0xFC00003F#32 0x9000000C#32 (.vminuVv (w.extractLsb' 21 5) (w.extractLsb' 16 5) (w.extractLsb' 11 5) (w.extractLsb' 8 3) (w.extractLsb' 6 2)) (.error .field)
  | 0xD => pick w 0xFC00003F#32 0x9000000D#32 (.vmaxuVv (w.extractLsb' 21 5) (w.extractLsb' 16 5) (w.extractLsb' 11 5) (w.extractLsb' 8 3) (w.extractLsb' 6 2)) (.error .field)
  | 0xE => pick w 0xFC00003F#32 0x9000000E#32 (.vandVv (w.extractLsb' 21 5) (w.extractLsb' 16 5) (w.extractLsb' 11 5) (w.extractLsb' 8 3) (w.extractLsb' 6 2)) (.error .field)
  | 0xF => pick w 0xFC00003F#32 0x9000000F#32 (.vorVv (w.extractLsb' 21 5) (w.extractLsb' 16 5) (w.extractLsb' 11 5) (w.extractLsb' 8 3) (w.extractLsb' 6 2)) (.error .field)
  | 0x10 => pick w 0xFC00003F#32 0x90000010#32 (.vxorVv (w.extractLsb' 21 5) (w.extractLsb' 16 5) (w.extractLsb' 11 5) (w.extractLsb' 8 3) (w.extractLsb' 6 2)) (.error .field)
  | 0x11 => pick w 0xFC00003F#32 0x90000011#32 (.vsllVv (w.extractLsb' 21 5) (w.extractLsb' 16 5) (w.extractLsb' 11 5) (w.extractLsb' 8 3) (w.extractLsb' 6 2)) (.error .field)
  | 0x12 => pick w 0xFC00003F#32 0x90000012#32 (.vsrlVv (w.extractLsb' 21 5) (w.extractLsb' 16 5) (w.extractLsb' 11 5) (w.extractLsb' 8 3) (w.extractLsb' 6 2)) (.error .field)
  | 0x13 => pick w 0xFC00003F#32 0x90000013#32 (.vsraVv (w.extractLsb' 21 5) (w.extractLsb' 16 5) (w.extractLsb' 11 5) (w.extractLsb' 8 3) (w.extractLsb' 6 2)) (.error .field)
  | 0x14 => pick w 0xFC00003F#32 0x90000014#32 (.vsaddVv (w.extractLsb' 21 5) (w.extractLsb' 16 5) (w.extractLsb' 11 5) (w.extractLsb' 8 3) (w.extractLsb' 6 2)) (.error .field)
  | 0x15 => pick w 0xFC00003F#32 0x90000015#32 (.vsadduVv (w.extractLsb' 21 5) (w.extractLsb' 16 5) (w.extractLsb' 11 5) (w.extractLsb' 8 3) (w.extractLsb' 6 2)) (.error .field)
  | 0x16 => pick w 0xFC00003F#32 0x90000016#32 (.vssubVv (w.extractLsb' 21 5) (w.extractLsb' 16 5) (w.extractLsb' 11 5) (w.extractLsb' 8 3) (w.extractLsb' 6 2)) (.error .field)
  | 0x17 => pick w 0xFC00003F#32 0x90000017#32 (.vssubuVv (w.extractLsb' 21 5) (w.extractLsb' 16 5) (w.extractLsb' 11 5) (w.extractLsb' 8 3) (w.extractLsb' 6 2)) (.error .field)
  | 0x18 => pick w 0xFC00F8FF#32 0x90000018#32 (.vabs (w.extractLsb' 21 5) (w.extractLsb' 16 5) (w.extractLsb' 8 3)) (.error .field)
  | 0x19 => pick w 0xFC00003F#32 0x90000019#32 (.vmaccVv (w.extractLsb' 21 5) (w.extractLsb' 16 5) (w.extractLsb' 11 5) (w.extractLsb' 8 3) (w.extractLsb' 6 2)) (.error .field)
  | 0x1A => pick w 0xFC00003F#32 0x9000001A#32 (.vselVv (w.extractLsb' 21 5) (w.extractLsb' 16 5) (w.extractLsb' 11 5) (w.extractLsb' 8 3) (w.extractLsb' 6 2)) (.error .field)
  | 0x1B => pick w 0xFC00F8FF#32 0x9000001B#32 (.vmvVv (w.extractLsb' 21 5) (w.extractLsb' 16 5) (w.extractLsb' 8 3)) (.error .field)
  | 0x1C => pick w 0xFC00F8FF#32 0x9000001C#32 (.vpopc (w.extractLsb' 21 5) (w.extractLsb' 16 5) (w.extractLsb' 8 3)) (.error .field)
  | 0x1D => pick w 0xFC00F8FF#32 0x9000001D#32 (.vclz (w.extractLsb' 21 5) (w.extractLsb' 16 5) (w.extractLsb' 8 3)) (.error .field)
  | 0x1E => pick w 0xFC00F8FF#32 0x9000001E#32 (.vpcp (w.extractLsb' 21 5) (w.extractLsb' 16 5) (w.extractLsb' 8 3)) (.error .field)
  | 0x1F => pick w 0xFC1FF8FF#32 0x9000001F#32 (.vid (w.extractLsb' 21 5) (w.extractLsb' 8 3)) (.error .field)
  | 0x20 => pick w 0xFC00003F#32 0x90000020#32 (.vextVv (w.extractLsb' 21 5) (w.extractLsb' 16 5) (w.extractLsb' 11 5) (w.extractLsb' 8 3) (w.extractLsb' 6 2)) (.error .field)
  | 0x21 => pick w 0xFC00003F#32 0x90000021#32 (.vinsVv (w.extractLsb' 21 5) (w.extractLsb' 16 5) (w.extractLsb' 11 5) (w.extractLsb' 8 3) (w.extractLsb' 6 2)) (.error .field)
  | 0x22 => pick w 0xFC00003F#32 0x90000022#32 (.vabsdVv (w.extractLsb' 21 5) (w.extractLsb' 16 5) (w.extractLsb' 11 5) (w.extractLsb' 8 3) (w.extractLsb' 6 2)) (.error .field)
  | 0x3C => pick w 0xFC0000FF#32 0x9000003C#32 (.vaaddVv (w.extractLsb' 21 5) (w.extractLsb' 16 5) (w.extractLsb' 11 5) (w.extractLsb' 8 3)) (.error .field)
  | 0x3D => pick w 0xFC0000FF#32 0x9000003D#32 (.vaadduVv (w.extractLsb' 21 5) (w.extractLsb' 16 5) (w.extractLsb' 11 5) (w.extractLsb' 8 3)) (.error .field)
  | 0x3E => pick w 0xFC0000FF#32 0x9000003E#32 (.vasubVv (w.extractLsb' 21 5) (w.extractLsb' 16 5) (w.extractLsb' 11 5) (w.extractLsb' 8 3)) (.error .field)
  | 0x3F => pick w 0xFC0000FF#32 0x9000003F#32 (.vasubuVv (w.extractLsb' 21 5) (w.extractLsb' 16 5) (w.extractLsb' 11 5) (w.extractLsb' 8 3)) (.error .field)
  | _ => .error .function

/-- Major 0x25 (R439). -/
def decMajor25 (w : IWord) : Except Reserved Instr :=
  match (w.extractLsb' 0 6).toNat with
  | 0x0 => pick w 0xFC0000FF#32 0x94000000#32 (.vaddVx (w.extractLsb' 21 5) (w.extractLsb' 16 5) (w.extractLsb' 11 5) (w.extractLsb' 8 3)) (.error .field)
  | 0x1 => pick w 0xFC0000FF#32 0x94000001#32 (.vsubVx (w.extractLsb' 21 5) (w.extractLsb' 16 5) (w.extractLsb' 11 5) (w.extractLsb' 8 3)) (.error .field)
  | 0x2 => pick w 0xFC0000FF#32 0x94000002#32 (.vrsubVx (w.extractLsb' 21 5) (w.extractLsb' 16 5) (w.extractLsb' 11 5) (w.extractLsb' 8 3)) (.error .field)
  | 0x3 => pick w 0xFC0000FF#32 0x94000003#32 (.vmulVx (w.extractLsb' 21 5) (w.extractLsb' 16 5) (w.extractLsb' 11 5) (w.extractLsb' 8 3)) (.error .field)
  | 0x4 => pick w 0xFC0000FF#32 0x94000004#32 (.vmulhVx (w.extractLsb' 21 5) (w.extractLsb' 16 5) (w.extractLsb' 11 5) (w.extractLsb' 8 3)) (.error .field)
  | 0x5 => pick w 0xFC0000FF#32 0x94000005#32 (.vmulhuVx (w.extractLsb' 21 5) (w.extractLsb' 16 5) (w.extractLsb' 11 5) (w.extractLsb' 8 3)) (.error .field)
  | 0x6 => pick w 0xFC0000FF#32 0x94000006#32 (.vdivVx (w.extractLsb' 21 5) (w.extractLsb' 16 5) (w.extractLsb' 11 5) (w.extractLsb' 8 3)) (.error .field)
  | 0x7 => pick w 0xFC0000FF#32 0x94000007#32 (.vdivuVx (w.extractLsb' 21 5) (w.extractLsb' 16 5) (w.extractLsb' 11 5) (w.extractLsb' 8 3)) (.error .field)
  | 0x8 => pick w 0xFC0000FF#32 0x94000008#32 (.vremVx (w.extractLsb' 21 5) (w.extractLsb' 16 5) (w.extractLsb' 11 5) (w.extractLsb' 8 3)) (.error .field)
  | 0x9 => pick w 0xFC0000FF#32 0x94000009#32 (.vremuVx (w.extractLsb' 21 5) (w.extractLsb' 16 5) (w.extractLsb' 11 5) (w.extractLsb' 8 3)) (.error .field)
  | 0xA => pick w 0xFC0000FF#32 0x9400000A#32 (.vminVx (w.extractLsb' 21 5) (w.extractLsb' 16 5) (w.extractLsb' 11 5) (w.extractLsb' 8 3)) (.error .field)
  | 0xB => pick w 0xFC0000FF#32 0x9400000B#32 (.vmaxVx (w.extractLsb' 21 5) (w.extractLsb' 16 5) (w.extractLsb' 11 5) (w.extractLsb' 8 3)) (.error .field)
  | 0xC => pick w 0xFC0000FF#32 0x9400000C#32 (.vminuVx (w.extractLsb' 21 5) (w.extractLsb' 16 5) (w.extractLsb' 11 5) (w.extractLsb' 8 3)) (.error .field)
  | 0xD => pick w 0xFC0000FF#32 0x9400000D#32 (.vmaxuVx (w.extractLsb' 21 5) (w.extractLsb' 16 5) (w.extractLsb' 11 5) (w.extractLsb' 8 3)) (.error .field)
  | 0xE => pick w 0xFC0000FF#32 0x9400000E#32 (.vandVx (w.extractLsb' 21 5) (w.extractLsb' 16 5) (w.extractLsb' 11 5) (w.extractLsb' 8 3)) (.error .field)
  | 0xF => pick w 0xFC0000FF#32 0x9400000F#32 (.vorVx (w.extractLsb' 21 5) (w.extractLsb' 16 5) (w.extractLsb' 11 5) (w.extractLsb' 8 3)) (.error .field)
  | 0x10 => pick w 0xFC0000FF#32 0x94000010#32 (.vxorVx (w.extractLsb' 21 5) (w.extractLsb' 16 5) (w.extractLsb' 11 5) (w.extractLsb' 8 3)) (.error .field)
  | 0x11 => pick w 0xFC0000FF#32 0x94000011#32 (.vsllVx (w.extractLsb' 21 5) (w.extractLsb' 16 5) (w.extractLsb' 11 5) (w.extractLsb' 8 3)) (.error .field)
  | 0x12 => pick w 0xFC0000FF#32 0x94000012#32 (.vsrlVx (w.extractLsb' 21 5) (w.extractLsb' 16 5) (w.extractLsb' 11 5) (w.extractLsb' 8 3)) (.error .field)
  | 0x13 => pick w 0xFC0000FF#32 0x94000013#32 (.vsraVx (w.extractLsb' 21 5) (w.extractLsb' 16 5) (w.extractLsb' 11 5) (w.extractLsb' 8 3)) (.error .field)
  | 0x14 => pick w 0xFC0000FF#32 0x94000014#32 (.vsaddVx (w.extractLsb' 21 5) (w.extractLsb' 16 5) (w.extractLsb' 11 5) (w.extractLsb' 8 3)) (.error .field)
  | 0x15 => pick w 0xFC0000FF#32 0x94000015#32 (.vsadduVx (w.extractLsb' 21 5) (w.extractLsb' 16 5) (w.extractLsb' 11 5) (w.extractLsb' 8 3)) (.error .field)
  | 0x16 => pick w 0xFC0000FF#32 0x94000016#32 (.vssubVx (w.extractLsb' 21 5) (w.extractLsb' 16 5) (w.extractLsb' 11 5) (w.extractLsb' 8 3)) (.error .field)
  | 0x17 => pick w 0xFC0000FF#32 0x94000017#32 (.vssubuVx (w.extractLsb' 21 5) (w.extractLsb' 16 5) (w.extractLsb' 11 5) (w.extractLsb' 8 3)) (.error .field)
  | 0x19 => pick w 0xFC0000FF#32 0x94000019#32 (.vmaccVx (w.extractLsb' 21 5) (w.extractLsb' 16 5) (w.extractLsb' 11 5) (w.extractLsb' 8 3)) (.error .field)
  | 0x1A => pick w 0xFC0000FF#32 0x9400001A#32 (.vselVx (w.extractLsb' 21 5) (w.extractLsb' 16 5) (w.extractLsb' 11 5) (w.extractLsb' 8 3)) (.error .field)
  | 0x1B => pick w 0xFC1F00FF#32 0x9400001B#32 (.vmvVx (w.extractLsb' 21 5) (w.extractLsb' 11 5) (w.extractLsb' 8 3)) (.error .field)
  | 0x20 => pick w 0xFC0000FF#32 0x94000020#32 (.vextVx (w.extractLsb' 21 5) (w.extractLsb' 16 5) (w.extractLsb' 11 5) (w.extractLsb' 8 3)) (.error .field)
  | 0x21 => pick w 0xFC0000FF#32 0x94000021#32 (.vinsVx (w.extractLsb' 21 5) (w.extractLsb' 16 5) (w.extractLsb' 11 5) (w.extractLsb' 8 3)) (.error .field)
  | 0x22 => pick w 0xFC0000FF#32 0x94000022#32 (.vabsdVx (w.extractLsb' 21 5) (w.extractLsb' 16 5) (w.extractLsb' 11 5) (w.extractLsb' 8 3)) (.error .field)
  | 0x3C => pick w 0xFC0000FF#32 0x9400003C#32 (.vaaddVx (w.extractLsb' 21 5) (w.extractLsb' 16 5) (w.extractLsb' 11 5) (w.extractLsb' 8 3)) (.error .field)
  | 0x3D => pick w 0xFC0000FF#32 0x9400003D#32 (.vaadduVx (w.extractLsb' 21 5) (w.extractLsb' 16 5) (w.extractLsb' 11 5) (w.extractLsb' 8 3)) (.error .field)
  | 0x3E => pick w 0xFC0000FF#32 0x9400003E#32 (.vasubVx (w.extractLsb' 21 5) (w.extractLsb' 16 5) (w.extractLsb' 11 5) (w.extractLsb' 8 3)) (.error .field)
  | 0x3F => pick w 0xFC0000FF#32 0x9400003F#32 (.vasubuVx (w.extractLsb' 21 5) (w.extractLsb' 16 5) (w.extractLsb' 11 5) (w.extractLsb' 8 3)) (.error .field)
  | _ => .error .function

/-- Major 0x26 (R439). -/
def decMajor26 (w : IWord) : Except Reserved Instr :=
  match (w.extractLsb' 0 6).toNat with
  | 0x0 => pick w 0xFC00003F#32 0x98000000#32 (.vfaddVv (w.extractLsb' 21 5) (w.extractLsb' 16 5) (w.extractLsb' 11 5) (w.extractLsb' 8 3) (w.extractLsb' 6 2)) (.error .field)
  | 0x1 => pick w 0xFC00003F#32 0x98000001#32 (.vfsubVv (w.extractLsb' 21 5) (w.extractLsb' 16 5) (w.extractLsb' 11 5) (w.extractLsb' 8 3) (w.extractLsb' 6 2)) (.error .field)
  | 0x3 => pick w 0xFC00003F#32 0x98000003#32 (.vfmulVv (w.extractLsb' 21 5) (w.extractLsb' 16 5) (w.extractLsb' 11 5) (w.extractLsb' 8 3) (w.extractLsb' 6 2)) (.error .field)
  | 0x4 => pick w 0xFC00003F#32 0x98000004#32 (.vfdivVv (w.extractLsb' 21 5) (w.extractLsb' 16 5) (w.extractLsb' 11 5) (w.extractLsb' 8 3) (w.extractLsb' 6 2)) (.error .field)
  | 0x6 => pick w 0xFC00F8FF#32 0x98000006#32 (.vfsqrt (w.extractLsb' 21 5) (w.extractLsb' 16 5) (w.extractLsb' 8 3)) (.error .field)
  | 0x7 => pick w 0xFC00003F#32 0x98000007#32 (.vfmaVv (w.extractLsb' 21 5) (w.extractLsb' 16 5) (w.extractLsb' 11 5) (w.extractLsb' 8 3) (w.extractLsb' 6 2)) (.error .field)
  | 0x8 => pick w 0xFC00003F#32 0x98000008#32 (.vfmsVv (w.extractLsb' 21 5) (w.extractLsb' 16 5) (w.extractLsb' 11 5) (w.extractLsb' 8 3) (w.extractLsb' 6 2)) (.error .field)
  | 0x9 => pick w 0xFC00003F#32 0x98000009#32 (.vfnmaVv (w.extractLsb' 21 5) (w.extractLsb' 16 5) (w.extractLsb' 11 5) (w.extractLsb' 8 3) (w.extractLsb' 6 2)) (.error .field)
  | 0xA => pick w 0xFC00003F#32 0x9800000A#32 (.vfminVv (w.extractLsb' 21 5) (w.extractLsb' 16 5) (w.extractLsb' 11 5) (w.extractLsb' 8 3) (w.extractLsb' 6 2)) (.error .field)
  | 0xB => pick w 0xFC00003F#32 0x9800000B#32 (.vfmaxVv (w.extractLsb' 21 5) (w.extractLsb' 16 5) (w.extractLsb' 11 5) (w.extractLsb' 8 3) (w.extractLsb' 6 2)) (.error .field)
  | 0xC => pick w 0xFC00F8FF#32 0x9800000C#32 (.vfabs (w.extractLsb' 21 5) (w.extractLsb' 16 5) (w.extractLsb' 8 3)) (.error .field)
  | 0xD => pick w 0xFC00F8FF#32 0x9800000D#32 (.vfneg (w.extractLsb' 21 5) (w.extractLsb' 16 5) (w.extractLsb' 8 3)) (.error .field)
  | 0xE => pick w 0xFC00F8FF#32 0x9800000E#32 (.vfrcp (w.extractLsb' 21 5) (w.extractLsb' 16 5) (w.extractLsb' 8 3)) (.error .field)
  | 0xF => pick w 0xFC00F8FF#32 0x9800000F#32 (.vfrsqrt (w.extractLsb' 21 5) (w.extractLsb' 16 5) (w.extractLsb' 8 3)) (.error .field)
  | 0x10 => pick w 0xFC00003F#32 0x98000010#32 (.vfsgnVv (w.extractLsb' 21 5) (w.extractLsb' 16 5) (w.extractLsb' 11 5) (w.extractLsb' 8 3) (w.extractLsb' 6 2)) (.error .field)
  | 0x11 => pick w 0xFC00F8FF#32 0x98000011#32 (.vfclass (w.extractLsb' 21 5) (w.extractLsb' 16 5) (w.extractLsb' 8 3)) (.error .field)
  | 0x12 => pick w 0xFC00F8FF#32 0x98000012#32 (.vfexp2 (w.extractLsb' 21 5) (w.extractLsb' 16 5) (w.extractLsb' 8 3)) (.error .field)
  | 0x13 => pick w 0xFC00F8FF#32 0x98000013#32 (.vflog2 (w.extractLsb' 21 5) (w.extractLsb' 16 5) (w.extractLsb' 8 3)) (.error .field)
  | 0x14 => pick w 0xFC00F8FF#32 0x98000014#32 (.vfsat (w.extractLsb' 21 5) (w.extractLsb' 16 5) (w.extractLsb' 8 3)) (.error .field)
  | _ => .error .function

/-- Major 0x27 (R439). -/
def decMajor27 (w : IWord) : Except Reserved Instr :=
  match (w.extractLsb' 0 6).toNat with
  | 0x0 => pick w 0xFC0000FF#32 0x9C000000#32 (.vfaddVx (w.extractLsb' 21 5) (w.extractLsb' 16 5) (w.extractLsb' 11 5) (w.extractLsb' 8 3)) (.error .field)
  | 0x1 => pick w 0xFC0000FF#32 0x9C000001#32 (.vfsubVx (w.extractLsb' 21 5) (w.extractLsb' 16 5) (w.extractLsb' 11 5) (w.extractLsb' 8 3)) (.error .field)
  | 0x2 => pick w 0xFC0000FF#32 0x9C000002#32 (.vfrsubVx (w.extractLsb' 21 5) (w.extractLsb' 16 5) (w.extractLsb' 11 5) (w.extractLsb' 8 3)) (.error .field)
  | 0x3 => pick w 0xFC0000FF#32 0x9C000003#32 (.vfmulVx (w.extractLsb' 21 5) (w.extractLsb' 16 5) (w.extractLsb' 11 5) (w.extractLsb' 8 3)) (.error .field)
  | 0x4 => pick w 0xFC0000FF#32 0x9C000004#32 (.vfdivVx (w.extractLsb' 21 5) (w.extractLsb' 16 5) (w.extractLsb' 11 5) (w.extractLsb' 8 3)) (.error .field)
  | 0x5 => pick w 0xFC0000FF#32 0x9C000005#32 (.vfrdivVx (w.extractLsb' 21 5) (w.extractLsb' 16 5) (w.extractLsb' 11 5) (w.extractLsb' 8 3)) (.error .field)
  | 0x7 => pick w 0xFC0000FF#32 0x9C000007#32 (.vfmaVx (w.extractLsb' 21 5) (w.extractLsb' 16 5) (w.extractLsb' 11 5) (w.extractLsb' 8 3)) (.error .field)
  | 0x8 => pick w 0xFC0000FF#32 0x9C000008#32 (.vfmsVx (w.extractLsb' 21 5) (w.extractLsb' 16 5) (w.extractLsb' 11 5) (w.extractLsb' 8 3)) (.error .field)
  | 0x9 => pick w 0xFC0000FF#32 0x9C000009#32 (.vfnmaVx (w.extractLsb' 21 5) (w.extractLsb' 16 5) (w.extractLsb' 11 5) (w.extractLsb' 8 3)) (.error .field)
  | 0xA => pick w 0xFC0000FF#32 0x9C00000A#32 (.vfminVx (w.extractLsb' 21 5) (w.extractLsb' 16 5) (w.extractLsb' 11 5) (w.extractLsb' 8 3)) (.error .field)
  | 0xB => pick w 0xFC0000FF#32 0x9C00000B#32 (.vfmaxVx (w.extractLsb' 21 5) (w.extractLsb' 16 5) (w.extractLsb' 11 5) (w.extractLsb' 8 3)) (.error .field)
  | 0x10 => pick w 0xFC0000FF#32 0x9C000010#32 (.vfsgnVx (w.extractLsb' 21 5) (w.extractLsb' 16 5) (w.extractLsb' 11 5) (w.extractLsb' 8 3)) (.error .field)
  | _ => .error .function

/-- Major 0x28 (R439). -/
def decMajor28 (w : IWord) : Except Reserved Instr :=
  match (w.extractLsb' 0 1).toNat with
  | 0x0 => pick w 0xFF000001#32 0xA0000000#32 (.vcmpVv (w.extractLsb' 21 3) (w.extractLsb' 16 5) (w.extractLsb' 11 5) (w.extractLsb' 8 3) (w.extractLsb' 6 2) (w.extractLsb' 3 3) (w.extractLsb' 1 2)) (.error .field)
  | 0x1 => pick w 0xFF0000C1#32 0xA0000001#32 (.vcmpVx (w.extractLsb' 21 3) (w.extractLsb' 16 5) (w.extractLsb' 11 5) (w.extractLsb' 8 3) (w.extractLsb' 3 3) (w.extractLsb' 1 2)) (.error .field)
  | _ => .error .function

/-- Major 0x29 (R439). -/
noncomputable def decMajor29 (w : IWord) : Except Reserved Instr :=
  match (w.extractLsb' 0 6).toNat with
  | 0x0 => pick w 0xFF18C0FF#32 0xA4000000#32 (.mand (w.extractLsb' 21 3) (w.extractLsb' 16 3) (w.extractLsb' 11 3) (w.extractLsb' 8 3)) (.error .field)
  | 0x1 => pick w 0xFF18C0FF#32 0xA4000001#32 (.mor (w.extractLsb' 21 3) (w.extractLsb' 16 3) (w.extractLsb' 11 3) (w.extractLsb' 8 3)) (.error .field)
  | 0x2 => pick w 0xFF18C0FF#32 0xA4000002#32 (.mxor (w.extractLsb' 21 3) (w.extractLsb' 16 3) (w.extractLsb' 11 3) (w.extractLsb' 8 3)) (.error .field)
  | 0x3 => pick w 0xFF18C0FF#32 0xA4000003#32 (.mandn (w.extractLsb' 21 3) (w.extractLsb' 16 3) (w.extractLsb' 11 3) (w.extractLsb' 8 3)) (.error .field)
  | 0x4 => pick w 0xFF18F8FF#32 0xA4000004#32 (.mnot (w.extractLsb' 21 3) (w.extractLsb' 16 3) (w.extractLsb' 8 3)) (.error .field)
  | 0x5 => pick w 0xFF18F8FF#32 0xA4000005#32 (.mmv (w.extractLsb' 21 3) (w.extractLsb' 16 3) (w.extractLsb' 8 3)) (.error .field)
  | 0x6 => pick w 0xFF1FF8FF#32 0xA4000006#32 (.mset (w.extractLsb' 21 3) (w.extractLsb' 8 3)) (.error .field)
  | 0x7 => pick w 0xFF1FF8FF#32 0xA4000007#32 (.mclr (w.extractLsb' 21 3) (w.extractLsb' 8 3)) (.error .field)
  | 0x8 => pick w 0xFC18F8FF#32 0xA4000008#32 (.mpop (w.extractLsb' 21 5) (w.extractLsb' 16 3) (w.extractLsb' 8 3)) (.error .field)
  | 0x9 => pick w 0xFC18F8FF#32 0xA4000009#32 (.mfirst (w.extractLsb' 21 5) (w.extractLsb' 16 3) (w.extractLsb' 8 3)) (.error .field)
  | 0xA => pick w 0xFC18F8FF#32 0xA400000A#32 (.mlast (w.extractLsb' 21 5) (w.extractLsb' 16 3) (w.extractLsb' 8 3)) (.error .field)
  | 0xB => pick w 0xFF18F8FF#32 0xA400000B#32 (.mbefore (w.extractLsb' 21 3) (w.extractLsb' 16 3) (w.extractLsb' 8 3)) (.error .field)
  | 0xC => pick w 0xFF18F8FF#32 0xA400000C#32 (.mincl (w.extractLsb' 21 3) (w.extractLsb' 16 3) (w.extractLsb' 8 3)) (.error .field)
  | 0xD => pick w 0xFF18F8FF#32 0xA400000D#32 (.monly (w.extractLsb' 21 3) (w.extractLsb' 16 3) (w.extractLsb' 8 3)) (.error .field)
  | 0xE => pick w 0xFC18F8FF#32 0xA400000E#32 (.mtov (w.extractLsb' 21 5) (w.extractLsb' 16 3) (w.extractLsb' 8 3)) (.error .field)
  | 0xF => pick w 0xFF00F8FF#32 0xA400000F#32 (.vtom (w.extractLsb' 21 3) (w.extractLsb' 16 5) (w.extractLsb' 8 3)) (.error .field)
  | _ => .error .function

/-- Major 0x2A (R439). -/
noncomputable def decMajor2A (w : IWord) : Except Reserved Instr :=
  match (w.extractLsb' 0 6).toNat with
  | 0x0 => pick w 0xFC00F8FF#32 0xA8000000#32 (.vcompress (w.extractLsb' 21 5) (w.extractLsb' 16 5) (w.extractLsb' 8 3)) (.error .field)
  | 0x1 => pick w 0xFC00F8FF#32 0xA8000001#32 (.vexpand (w.extractLsb' 21 5) (w.extractLsb' 16 5) (w.extractLsb' 8 3)) (.error .field)
  | 0x2 => pick w 0xFC0000FF#32 0xA8000002#32 (.vslideup (w.extractLsb' 21 5) (w.extractLsb' 16 5) (w.extractLsb' 11 5) (w.extractLsb' 8 3)) (.error .field)
  | 0x3 => pick w 0xFC0000FF#32 0xA8000003#32 (.vslidedn (w.extractLsb' 21 5) (w.extractLsb' 16 5) (w.extractLsb' 11 5) (w.extractLsb' 8 3)) (.error .field)
  | 0x4 => pick w 0xFC0000FF#32 0xA8000004#32 (.vgath (w.extractLsb' 21 5) (w.extractLsb' 16 5) (w.extractLsb' 11 5) (w.extractLsb' 8 3)) (.error .field)
  | 0x5 => pick w 0xFC00F8FF#32 0xA8000005#32 (.vrev (w.extractLsb' 21 5) (w.extractLsb' 16 5) (w.extractLsb' 8 3)) (.error .field)
  | 0x6 => pick w 0xFC00F8FF#32 0xA8000006#32 (.vtr (w.extractLsb' 21 5) (w.extractLsb' 16 5) (w.extractLsb' 8 3)) (.error .field)
  | 0x7 => pick w 0xFC1FFFFF#32 0xA8000007#32 (.vrelay (w.extractLsb' 21 5)) (.error .field)
  | 0x8 => pick w 0xFC0000FF#32 0xA8000008#32 (.vzip (w.extractLsb' 21 5) (w.extractLsb' 16 5) (w.extractLsb' 11 5) (w.extractLsb' 8 3)) (.error .field)
  | 0x9 => pick w 0xFC00F8FF#32 0xA8000009#32 (.vunzip (w.extractLsb' 21 5) (w.extractLsb' 16 5) (w.extractLsb' 8 3)) (.error .field)
  | 0xA => pick w 0xFC0000FF#32 0xA800000A#32 (.vrowmv (w.extractLsb' 21 5) (w.extractLsb' 16 5) (w.extractLsb' 11 5) (w.extractLsb' 8 3)) (.error .field)
  | _ => .error .function

/-- Major 0x2B (R439). -/
noncomputable def decMajor2B (w : IWord) : Except Reserved Instr :=
  match (w.extractLsb' 0 6).toNat with
  | 0x0 => pick w 0xFC0000FF#32 0xAC000000#32 (.vredsum (w.extractLsb' 21 5) (w.extractLsb' 16 5) (w.extractLsb' 11 5) (w.extractLsb' 8 3)) (.error .field)
  | 0x1 => pick w 0xFC0000FF#32 0xAC000001#32 (.vredsumt (w.extractLsb' 21 5) (w.extractLsb' 16 5) (w.extractLsb' 11 5) (w.extractLsb' 8 3)) (.error .field)
  | 0x2 => pick w 0xFC0000FF#32 0xAC000002#32 (.vredmin (w.extractLsb' 21 5) (w.extractLsb' 16 5) (w.extractLsb' 11 5) (w.extractLsb' 8 3)) (.error .field)
  | 0x3 => pick w 0xFC0000FF#32 0xAC000003#32 (.vredmax (w.extractLsb' 21 5) (w.extractLsb' 16 5) (w.extractLsb' 11 5) (w.extractLsb' 8 3)) (.error .field)
  | 0x4 => pick w 0xFC0000FF#32 0xAC000004#32 (.vredand (w.extractLsb' 21 5) (w.extractLsb' 16 5) (w.extractLsb' 11 5) (w.extractLsb' 8 3)) (.error .field)
  | 0x5 => pick w 0xFC0000FF#32 0xAC000005#32 (.vredor (w.extractLsb' 21 5) (w.extractLsb' 16 5) (w.extractLsb' 11 5) (w.extractLsb' 8 3)) (.error .field)
  | 0x6 => pick w 0xFC0000FF#32 0xAC000006#32 (.vredxor (w.extractLsb' 21 5) (w.extractLsb' 16 5) (w.extractLsb' 11 5) (w.extractLsb' 8 3)) (.error .field)
  | 0x7 => pick w 0xFC0000FF#32 0xAC000007#32 (.vredminu (w.extractLsb' 21 5) (w.extractLsb' 16 5) (w.extractLsb' 11 5) (w.extractLsb' 8 3)) (.error .field)
  | 0x8 => pick w 0xFC0000FF#32 0xAC000008#32 (.vredmaxu (w.extractLsb' 21 5) (w.extractLsb' 16 5) (w.extractLsb' 11 5) (w.extractLsb' 8 3)) (.error .field)
  | 0x9 => pick w 0xFC0000FF#32 0xAC000009#32 (.vfredsum (w.extractLsb' 21 5) (w.extractLsb' 16 5) (w.extractLsb' 11 5) (w.extractLsb' 8 3)) (.error .field)
  | 0xA => pick w 0xFC0000FF#32 0xAC00000A#32 (.vfredsumt (w.extractLsb' 21 5) (w.extractLsb' 16 5) (w.extractLsb' 11 5) (w.extractLsb' 8 3)) (.error .field)
  | 0xB => pick w 0xFC0000FF#32 0xAC00000B#32 (.vfredmax (w.extractLsb' 21 5) (w.extractLsb' 16 5) (w.extractLsb' 11 5) (w.extractLsb' 8 3)) (.error .field)
  | 0xC => pick w 0xFC0000FF#32 0xAC00000C#32 (.vfredmin (w.extractLsb' 21 5) (w.extractLsb' 16 5) (w.extractLsb' 11 5) (w.extractLsb' 8 3)) (.error .field)
  | 0x10 => pick w 0xFC0000FF#32 0xAC000010#32 (.vscan (w.extractLsb' 21 5) (w.extractLsb' 16 5) (w.extractLsb' 11 5) (w.extractLsb' 8 3)) (.error .field)
  | 0x11 => pick w 0xFC0000FF#32 0xAC000011#32 (.vscanx (w.extractLsb' 21 5) (w.extractLsb' 16 5) (w.extractLsb' 11 5) (w.extractLsb' 8 3)) (.error .field)
  | 0x12 => pick w 0xFC0000FF#32 0xAC000012#32 (.vfscan (w.extractLsb' 21 5) (w.extractLsb' 16 5) (w.extractLsb' 11 5) (w.extractLsb' 8 3)) (.error .field)
  | 0x18 => pick w 0xFC0000FF#32 0xAC000018#32 (.vkswap (w.extractLsb' 21 5) (w.extractLsb' 16 5) (w.extractLsb' 11 5) (w.extractLsb' 8 3)) (.error .field)
  | 0x19 => pick w 0xFC0000FF#32 0xAC000019#32 (.vkswapi (w.extractLsb' 21 5) (w.extractLsb' 16 5) (w.extractLsb' 11 5) (w.extractLsb' 8 3)) (.error .field)
  | _ => .error .function

/-- Major 0x2C (R439). -/
noncomputable def decMajor2C (w : IWord) : Except Reserved Instr :=
  match (w.extractLsb' 0 6).toNat with
  | 0x0 => pick w 0xFC00F8FF#32 0xB0000000#32 (.vcvt (w.extractLsb' 21 5) (w.extractLsb' 16 5) (w.extractLsb' 8 3)) (.error .field)
  | 0x1 => pick w 0xFC00C0FF#32 0xB0000001#32 (.vcvtr (w.extractLsb' 21 5) (w.extractLsb' 16 5) (w.extractLsb' 11 3) (w.extractLsb' 8 3)) (.error .field)
  | 0x2 => pick w 0xFC0000FF#32 0xB0000002#32 (.vqbs (w.extractLsb' 21 5) (w.extractLsb' 16 5) (w.extractLsb' 11 5) (w.extractLsb' 8 3)) (.error .field)
  | 0x3 => pick w 0xFC0000FF#32 0xB0000003#32 (.vdqbs (w.extractLsb' 21 5) (w.extractLsb' 16 5) (w.extractLsb' 11 5) (w.extractLsb' 8 3)) (.error .field)
  | _ => .error .function

/-- Major 0x2D (R439). -/
noncomputable def decMajor2D (w : IWord) : Except Reserved Instr :=
  match (w.extractLsb' 0 6).toNat with
  | 0x0 => pick w 0xFC00383F#32 0xB4000000#32 (.fisect (w.extractLsb' 22 4) (w.extractLsb' 18 4) (w.extractLsb' 14 4) (w.extractLsb' 6 5)) (pick w 0xFC003FFF#32 0xB4000800#32 (.fisectb (w.extractLsb' 22 4) (w.extractLsb' 18 4) (w.extractLsb' 14 4)) (.error .field))
  | 0x1 => pick w 0xFC00383F#32 0xB4000001#32 (.funion (w.extractLsb' 22 4) (w.extractLsb' 18 4) (w.extractLsb' 14 4) (w.extractLsb' 6 5)) (.error .field)
  | 0x2 => pick w 0xFC00383F#32 0xB4000002#32 (.fmerge (w.extractLsb' 22 4) (w.extractLsb' 18 4) (w.extractLsb' 14 4) (w.extractLsb' 6 5)) (.error .field)
  | 0x3 => pick w 0xFC03FFFF#32 0xB4000003#32 (.fsort (w.extractLsb' 22 4) (w.extractLsb' 18 4)) (.error .field)
  | 0x4 => pick w 0xFC03C7FF#32 0xB4000004#32 (.fcompact (w.extractLsb' 22 4) (w.extractLsb' 18 4) (w.extractLsb' 11 3)) (.error .field)
  | 0x5 => pick w 0xFC003FFF#32 0xB4000005#32 (.fdiff (w.extractLsb' 22 4) (w.extractLsb' 18 4) (w.extractLsb' 14 4)) (.error .field)
  | 0x6 => pick w 0xFC03F83F#32 0xB4000006#32 (.fdedup (w.extractLsb' 22 4) (w.extractLsb' 18 4) (w.extractLsb' 6 5)) (.error .field)
  | _ => .error .function

/-- Major 0x2E (R439). -/
noncomputable def decMajor2E (w : IWord) : Except Reserved Instr :=
  match (w.extractLsb' 0 6).toNat with
  | 0x0 => pick w 0xFC3FF87F#32 0xB8000000#32 (.fld (w.extractLsb' 22 4) (w.extractLsb' 7 4)) (.error .field)
  | 0x1 => pick w 0xFFC3F87F#32 0xB8000001#32 (.fst (w.extractLsb' 18 4) (w.extractLsb' 7 4)) (.error .field)
  | 0x2 => pick w 0xFC3FF83F#32 0xB8000002#32 (.fbm (w.extractLsb' 22 4) (w.extractLsb' 6 5)) (.error .field)
  | 0x3 => pick w 0xFC03F87F#32 0xB8000003#32 (.fwalk (w.extractLsb' 22 4) (w.extractLsb' 18 4) (w.extractLsb' 7 4)) (.error .field)
  | 0x4 => pick w 0xFFC3F83F#32 0xB8000004#32 (.fexpand (w.extractLsb' 18 4) (w.extractLsb' 6 5)) (.error .field)
  | 0x5 => pick w 0xFC3FC03F#32 0xB8000005#32 (.fpack (w.extractLsb' 22 4) (w.extractLsb' 11 3) (w.extractLsb' 6 5)) (.error .field)
  | 0x6 => pick w 0xFFC3C03F#32 0xB8000006#32 (.fsetl (w.extractLsb' 18 4) (w.extractLsb' 11 3) (w.extractLsb' 6 5)) (.error .field)
  | 0x7 => pick w 0xFFC3F83F#32 0xB8000007#32 (.focc (w.extractLsb' 18 4) (w.extractLsb' 6 5)) (.error .field)
  | 0x8 => pick w 0xFFC3F83F#32 0xB8000008#32 (.fcoord (w.extractLsb' 18 4) (w.extractLsb' 6 5)) (.error .field)
  | 0x9 => pick w 0xFFC3F83F#32 0xB8000009#32 (.fval (w.extractLsb' 18 4) (w.extractLsb' 6 5)) (.error .field)
  | 0xA => pick w 0xFC03FFFF#32 0xB800000A#32 (.fmv (w.extractLsb' 22 4) (w.extractLsb' 18 4)) (.error .field)
  | 0xB => pick w 0xFC3FFFFF#32 0xB800000B#32 (.fclr (w.extractLsb' 22 4)) (.error .field)
  | _ => .error .function

/-- Major 0x2F (R439). -/
noncomputable def decMajor2F (w : IWord) : Except Reserved Instr :=
  match (w.extractLsb' 0 4).toNat with
  | 0x0 => pick w 0xFCFFFFFF#32 0xBC000000#32 (.mzero (w.extractLsb' 24 2)) (.error .field)
  | 0x1 => pick w 0xFC00001F#32 0xBC000001#32 (.mopo (w.extractLsb' 24 2) (w.extractLsb' 19 5) (w.extractLsb' 14 5) (w.extractLsb' 11 3) (w.extractLsb' 8 3) (w.extractLsb' 5 3)) (pick w 0xFC00001F#32 0xBC000011#32 (.mopob (w.extractLsb' 24 2) (w.extractLsb' 19 5) (w.extractLsb' 14 5) (w.extractLsb' 11 3) (w.extractLsb' 8 3) (w.extractLsb' 5 3)) (.error .field))
  | 0x2 => pick w 0xFC00001F#32 0xBC000002#32 (.mopr (w.extractLsb' 24 2) (w.extractLsb' 19 5) (w.extractLsb' 14 5) (w.extractLsb' 11 3) (w.extractLsb' 8 3) (w.extractLsb' 5 3)) (pick w 0xFC00001F#32 0xBC000012#32 (.moprb (w.extractLsb' 24 2) (w.extractLsb' 19 5) (w.extractLsb' 14 5) (w.extractLsb' 11 3) (w.extractLsb' 8 3) (w.extractLsb' 5 3)) (.error .field))
  | 0x3 => pick w 0xFC0000DF#32 0xBC0000C3#32 (.mopi (w.extractLsb' 24 2) (w.extractLsb' 19 5) (w.extractLsb' 14 5) (w.extractLsb' 11 3) (w.extractLsb' 8 3) (w.extractLsb' 5 1)) (.error .field)
  | 0x4 => pick w 0xFC00001F#32 0xBC000004#32 (.mops (w.extractLsb' 24 2) (w.extractLsb' 19 5) (w.extractLsb' 14 5) (w.extractLsb' 11 3) (w.extractLsb' 8 3) (w.extractLsb' 5 3)) (pick w 0xFC00001F#32 0xBC000014#32 (.mopsb (w.extractLsb' 24 2) (w.extractLsb' 19 5) (w.extractLsb' 14 5) (w.extractLsb' 11 3) (w.extractLsb' 8 3) (w.extractLsb' 5 3)) (.error .field))
  | 0x5 => pick w 0xFC003FFF#32 0xBC000005#32 (.mtv (w.extractLsb' 24 2) (w.extractLsb' 19 5) (w.extractLsb' 14 5)) (pick w 0xFC003FFF#32 0xBC000025#32 (.mtvc (w.extractLsb' 24 2) (w.extractLsb' 19 5) (w.extractLsb' 14 5)) (.error .field))
  | 0x6 => pick w 0xFC003FFF#32 0xBC000006#32 (.mvt (w.extractLsb' 24 2) (w.extractLsb' 19 5) (w.extractLsb' 14 5)) (pick w 0xFC003FFF#32 0xBC000026#32 (.mvtc (w.extractLsb' 24 2) (w.extractLsb' 19 5) (w.extractLsb' 14 5)) (.error .field))
  | 0x7 => pick w 0xFC003FFF#32 0xBC000007#32 (.mld (w.extractLsb' 24 2) (w.extractLsb' 19 5) (w.extractLsb' 14 5)) (.error .field)
  | 0x8 => pick w 0xFC003FFF#32 0xBC000008#32 (.mst (w.extractLsb' 24 2) (w.extractLsb' 19 5) (w.extractLsb' 14 5)) (.error .field)
  | 0x9 => pick w 0xFFFFFFFF#32 0xBC000009#32 .mgang (.error .field)
  | 0xA => pick w 0xFFFFFFFF#32 0xBC00000A#32 .mgsync (.error .field)
  | _ => .error .function

/-- Major 0x30 (R439). -/
noncomputable def decMajor30 (w : IWord) : Except Reserved Instr :=
  match (w.extractLsb' 0 8).toNat with
  | 0x0 => pick w 0xFFFF1FFF#32 0xC0000000#32 (.fence (w.extractLsb' 13 3)) (.error .field)
  | 0x1 => pick w 0xFFFFFFFF#32 0xC0000001#32 .fsc (.error .field)
  | 0x2 => pick w 0xFFFFFFFF#32 0xC0000002#32 .lsync (.error .field)
  | 0x3 => pick w 0xFFFF1FFF#32 0xC0000003#32 (.gbar (w.extractLsb' 13 3)) (.error .field)
  | 0x4 => pick w 0xFC00E0FF#32 0xC0000004#32 (.wfp (w.extractLsb' 21 5) (w.extractLsb' 16 5) (w.extractLsb' 8 5)) (.error .field)
  | 0x5 => pick w 0xFC1FE0FF#32 0xC0000005#32 (.eqpop (w.extractLsb' 21 5) (w.extractLsb' 8 5)) (.error .field)
  | 0x6 => pick w 0xFF1FFFFF#32 0xC0000006#32 (.acqm (w.extractLsb' 21 3)) (.error .field)
  | 0x7 => pick w 0xFFFFE0FF#32 0xC0000007#32 (.drainw (w.extractLsb' 8 5)) (.error .field)
  | _ => .error .function

/-- Major 0x31 (R439). -/
noncomputable def decMajor31 (w : IWord) : Except Reserved Instr :=
  match (w.extractLsb' 0 6).toNat with
  | 0x0 => pick w 0xFC0000FF#32 0xC4000000#32 (.vamoadd (w.extractLsb' 21 5) (w.extractLsb' 16 5) (w.extractLsb' 11 5) (w.extractLsb' 8 3)) (.error .field)
  | 0x1 => pick w 0xFC0000FF#32 0xC4000001#32 (.vamoand (w.extractLsb' 21 5) (w.extractLsb' 16 5) (w.extractLsb' 11 5) (w.extractLsb' 8 3)) (.error .field)
  | 0x2 => pick w 0xFC0000FF#32 0xC4000002#32 (.vamoor (w.extractLsb' 21 5) (w.extractLsb' 16 5) (w.extractLsb' 11 5) (w.extractLsb' 8 3)) (.error .field)
  | 0x3 => pick w 0xFC0000FF#32 0xC4000003#32 (.vamoxor (w.extractLsb' 21 5) (w.extractLsb' 16 5) (w.extractLsb' 11 5) (w.extractLsb' 8 3)) (.error .field)
  | 0x4 => pick w 0xFC0000FF#32 0xC4000004#32 (.vamomin (w.extractLsb' 21 5) (w.extractLsb' 16 5) (w.extractLsb' 11 5) (w.extractLsb' 8 3)) (.error .field)
  | 0x5 => pick w 0xFC0000FF#32 0xC4000005#32 (.vamomax (w.extractLsb' 21 5) (w.extractLsb' 16 5) (w.extractLsb' 11 5) (w.extractLsb' 8 3)) (.error .field)
  | 0x6 => pick w 0xFC0000FF#32 0xC4000006#32 (.vamominu (w.extractLsb' 21 5) (w.extractLsb' 16 5) (w.extractLsb' 11 5) (w.extractLsb' 8 3)) (.error .field)
  | 0x7 => pick w 0xFC0000FF#32 0xC4000007#32 (.vamomaxu (w.extractLsb' 21 5) (w.extractLsb' 16 5) (w.extractLsb' 11 5) (w.extractLsb' 8 3)) (.error .field)
  | 0x8 => pick w 0xFC0000FF#32 0xC4000008#32 (.vamoswap (w.extractLsb' 21 5) (w.extractLsb' 16 5) (w.extractLsb' 11 5) (w.extractLsb' 8 3)) (.error .field)
  | 0x9 => pick w 0xFC0000FF#32 0xC4000009#32 (.vamofadd (w.extractLsb' 21 5) (w.extractLsb' 16 5) (w.extractLsb' 11 5) (w.extractLsb' 8 3)) (.error .field)
  | 0x10 => pick w 0xFC0000FF#32 0xC4000010#32 (.vsca (w.extractLsb' 21 5) (w.extractLsb' 16 5) (w.extractLsb' 11 5) (w.extractLsb' 8 3)) (.error .field)
  | 0x11 => pick w 0xFC0000FF#32 0xC4000011#32 (.vscamax (w.extractLsb' 21 5) (w.extractLsb' 16 5) (w.extractLsb' 11 5) (w.extractLsb' 8 3)) (.error .field)
  | 0x12 => pick w 0xFC0000FF#32 0xC4000012#32 (.vscamin (w.extractLsb' 21 5) (w.extractLsb' 16 5) (w.extractLsb' 11 5) (w.extractLsb' 8 3)) (.error .field)
  | 0x13 => pick w 0xFC0000FF#32 0xC4000013#32 (.vscao (w.extractLsb' 21 5) (w.extractLsb' 16 5) (w.extractLsb' 11 5) (w.extractLsb' 8 3)) (.error .field)
  | _ => .error .function

/-- Major 0x32 (R439). -/
noncomputable def decMajor32 (w : IWord) : Except Reserved Instr :=
  match (w.extractLsb' 0 8).toNat with
  | 0x0 => pick w 0xFC00E0FF#32 0xC8000000#32 (.tsk (w.extractLsb' 21 5) (w.extractLsb' 16 5) (w.extractLsb' 8 5)) (.error .field)
  | 0x1 => pick w 0xFC1FE0FF#32 0xC8000001#32 (.tqget (w.extractLsb' 21 5) (w.extractLsb' 8 5)) (.error .field)
  | 0x2 => pick w 0xFFFFE0FF#32 0xC8000002#32 (.gtime (w.extractLsb' 8 5)) (.error .field)
  | 0x3 => pick w 0xFC1FE0FF#32 0xC8000003#32 (.gwait (w.extractLsb' 21 5) (w.extractLsb' 8 5)) (.error .field)
  | 0x4 => pick w 0xFC1FE0FF#32 0xC8000004#32 (.hbeat (w.extractLsb' 21 5) (w.extractLsb' 8 5)) (.error .field)
  | 0x5 => pick w 0xFFFFFFFF#32 0xC8000005#32 .tdone (.error .field)
  | _ => .error .function

/-- Major 0x3E (R439). -/
noncomputable def decMajor3E (w : IWord) : Except Reserved Instr :=
  pick w 0xFC003FFF#32 0xF8000000#32 (.tmop (w.extractLsb' 24 2) (w.extractLsb' 19 5) (w.extractLsb' 14 5)) (.error .field)

/-- Major 0x3F (R439). -/
noncomputable def decMajor3F (w : IWord) : Except Reserved Instr :=
  pick w 0xFCFFFFFF#32 0xFC000000#32 (.tmzero (w.extractLsb' 24 2)) (.error .field)

/-- The decoder (R436): the word's instruction, or why it is reserved. Retired forms (R440) decode to their own constructors. -/
noncomputable def decodeWord (w : IWord) : Except Reserved Instr :=
  match (w.extractLsb' 26 6).toNat with
  | 0x01 => decMajor01 w
  | 0x02 => decMajor02 w
  | 0x03 => decMajor03 w
  | 0x04 => decMajor04 w
  | 0x05 => decMajor05 w
  | 0x06 => decMajor06 w
  | 0x07 => decMajor07 w
  | 0x08 => decMajor08 w
  | 0x09 => decMajor09 w
  | 0x0A => decMajor0A w
  | 0x0B => decMajor0B w
  | 0x0C => decMajor0C w
  | 0x0D => decMajor0D w
  | 0x0E => decMajor0E w
  | 0x0F => decMajor0F w
  | 0x10 => decMajor10 w
  | 0x11 => decMajor11 w
  | 0x12 => decMajor12 w
  | 0x13 => decMajor13 w
  | 0x14 => decMajor14 w
  | 0x15 => decMajor15 w
  | 0x16 => decMajor16 w
  | 0x17 => decMajor17 w
  | 0x18 => decMajor18 w
  | 0x19 => decMajor19 w
  | 0x1A => decMajor1A w
  | 0x1B => decMajor1B w
  | 0x1C => decMajor1C w
  | 0x20 => decMajor20 w
  | 0x21 => decMajor21 w
  | 0x22 => decMajor22 w
  | 0x23 => decMajor23 w
  | 0x24 => decMajor24 w
  | 0x25 => decMajor25 w
  | 0x26 => decMajor26 w
  | 0x27 => decMajor27 w
  | 0x28 => decMajor28 w
  | 0x29 => decMajor29 w
  | 0x2A => decMajor2A w
  | 0x2B => decMajor2B w
  | 0x2C => decMajor2C w
  | 0x2D => decMajor2D w
  | 0x2E => decMajor2E w
  | 0x2F => decMajor2F w
  | 0x30 => decMajor30 w
  | 0x31 => decMajor31 w
  | 0x32 => decMajor32 w
  | 0x3E => decMajor3E w
  | 0x3F => decMajor3F w
  | _ => .error .major

/-- The instruction that `nbits` bits `w` hold, numbered as spec/opcode_table.json numbers them: every instruction is one
32-bit word (R401), stored little-endian. -/
noncomputable def decodeTableWord (nbits w : Nat) : Option Instr :=
  if nbits = 32 then
    match decodeWord (BitVec.ofNat 32 w) with
    | .ok i => some i
    | .error _ => none
  else none


/-- The word of `pfx` (R406). -/
def wPfx (p : BitVec 3) (n c : BitVec 1) (v : BitVec 5) (g : BitVec 1) (f : BitVec 3) (t : BitVec 1) (e : BitVec 3) (z : BitVec 8) : IWord := 0x1#6 ++ p ++ n ++ c ++ v ++ g ++ f ++ t ++ e ++ z
/-- The word of `add` (R443). -/
def wAdd (d a b : BitVec 5) : IWord := 0x2#6 ++ d ++ a ++ b ++ 0x0#11
/-- The word of `sub` (R443). -/
def wSub (d a b : BitVec 5) : IWord := 0x2#6 ++ d ++ a ++ b ++ 0x1#11
/-- The word of `and` (R443). -/
def wAnd (d a b : BitVec 5) : IWord := 0x2#6 ++ d ++ a ++ b ++ 0x2#11
/-- The word of `or` (R443). -/
def wOr (d a b : BitVec 5) : IWord := 0x2#6 ++ d ++ a ++ b ++ 0x3#11
/-- The word of `xor` (R443). -/
def wXor (d a b : BitVec 5) : IWord := 0x2#6 ++ d ++ a ++ b ++ 0x4#11
/-- The word of `sll` (R443). -/
def wSll (d a b : BitVec 5) : IWord := 0x2#6 ++ d ++ a ++ b ++ 0x5#11
/-- The word of `srl` (R443). -/
def wSrl (d a b : BitVec 5) : IWord := 0x2#6 ++ d ++ a ++ b ++ 0x6#11
/-- The word of `sra` (R443). -/
def wSra (d a b : BitVec 5) : IWord := 0x2#6 ++ d ++ a ++ b ++ 0x7#11
/-- The word of `slt` (R443). -/
def wSlt (d a b : BitVec 5) : IWord := 0x2#6 ++ d ++ a ++ b ++ 0x8#11
/-- The word of `sltu` (R443). -/
def wSltu (d a b : BitVec 5) : IWord := 0x2#6 ++ d ++ a ++ b ++ 0x9#11
/-- The word of `min` (R443). -/
def wMin (d a b : BitVec 5) : IWord := 0x2#6 ++ d ++ a ++ b ++ 0xA#11
/-- The word of `max` (R443). -/
def wMax (d a b : BitVec 5) : IWord := 0x2#6 ++ d ++ a ++ b ++ 0xB#11
/-- The word of `minu` (R443). -/
def wMinu (d a b : BitVec 5) : IWord := 0x2#6 ++ d ++ a ++ b ++ 0xC#11
/-- The word of `maxu` (R443). -/
def wMaxu (d a b : BitVec 5) : IWord := 0x2#6 ++ d ++ a ++ b ++ 0xD#11
/-- The word of `mul` (R443). -/
def wMul (d a b : BitVec 5) : IWord := 0x2#6 ++ d ++ a ++ b ++ 0x10#11
/-- The word of `mulh` (R443). -/
def wMulh (d a b : BitVec 5) : IWord := 0x2#6 ++ d ++ a ++ b ++ 0x11#11
/-- The word of `mulhu` (R443). -/
def wMulhu (d a b : BitVec 5) : IWord := 0x2#6 ++ d ++ a ++ b ++ 0x12#11
/-- The word of `div` (R264). -/
def wDiv (d a b : BitVec 5) : IWord := 0x2#6 ++ d ++ a ++ b ++ 0x13#11
/-- The word of `divu` (R264). -/
def wDivu (d a b : BitVec 5) : IWord := 0x2#6 ++ d ++ a ++ b ++ 0x14#11
/-- The word of `rem` (R264). -/
def wRem (d a b : BitVec 5) : IWord := 0x2#6 ++ d ++ a ++ b ++ 0x15#11
/-- The word of `remu` (R264). -/
def wRemu (d a b : BitVec 5) : IWord := 0x2#6 ++ d ++ a ++ b ++ 0x16#11
/-- The word of `clz` (R443). -/
def wClz (d a : BitVec 5) : IWord := 0x2#6 ++ d ++ a ++ 0x18#16
/-- The word of `ctz` (R443). -/
def wCtz (d a : BitVec 5) : IWord := 0x2#6 ++ d ++ a ++ 0x19#16
/-- The word of `popc` (R443). -/
def wPopc (d a : BitVec 5) : IWord := 0x2#6 ++ d ++ a ++ 0x1A#16
/-- The word of `sext` (R443). -/
def wSext (d a b : BitVec 5) : IWord := 0x2#6 ++ d ++ a ++ b ++ 0x1B#11
/-- The word of `zext` (R443). -/
def wZext (d a b : BitVec 5) : IWord := 0x2#6 ++ d ++ a ++ b ++ 0x1C#11
/-- The word of `brev` (R443). -/
def wBrev (d a : BitVec 5) : IWord := 0x2#6 ++ d ++ a ++ 0x1D#16
/-- The word of `addi` (R444). -/
def wAddi (d a : BitVec 5) (i : BitVec 16) : IWord := 0x3#6 ++ d ++ a ++ i
/-- The word of `andi` (R444). -/
def wAndi (d a : BitVec 5) (i : BitVec 16) : IWord := 0x4#6 ++ d ++ a ++ i
/-- The word of `ori` (R444). -/
def wOri (d a : BitVec 5) (i : BitVec 16) : IWord := 0x5#6 ++ d ++ a ++ i
/-- The word of `xori` (R444). -/
def wXori (d a : BitVec 5) (i : BitVec 16) : IWord := 0x6#6 ++ d ++ a ++ i
/-- The word of `slti` (R444). -/
def wSlti (d a : BitVec 5) (i : BitVec 16) : IWord := 0x7#6 ++ d ++ a ++ i
/-- The word of `sltiu` (R444). -/
def wSltiu (d a : BitVec 5) (i : BitVec 16) : IWord := 0x8#6 ++ d ++ a ++ i
/-- The word of `lhi` (R444). -/
def wLhi (d : BitVec 5) (i : BitVec 16) : IWord := 0x9#6 ++ d ++ 0x0#5 ++ i
/-- The word of `adpc` (R445). -/
def wAdpc (d : BitVec 5) (i : BitVec 16) : IWord := 0xA#6 ++ d ++ 0x0#5 ++ i
/-- The word of `slli` (R446). -/
def wSlli (d a : BitVec 5) (s : BitVec 6) : IWord := 0xB#6 ++ d ++ a ++ 0x0#2 ++ s ++ 0x0#8
/-- The word of `srli` (R446). -/
def wSrli (d a : BitVec 5) (s : BitVec 6) : IWord := 0xB#6 ++ d ++ a ++ 0x1#2 ++ s ++ 0x0#8
/-- The word of `srai` (R446). -/
def wSrai (d a : BitVec 5) (s : BitVec 6) : IWord := 0xB#6 ++ d ++ a ++ 0x2#2 ++ s ++ 0x0#8
/-- The word of `roli` (R446). -/
def wRoli (d a : BitVec 5) (s : BitVec 6) : IWord := 0xB#6 ++ d ++ a ++ 0x3#2 ++ s ++ 0x0#8
/-- The word of `fadd` (R447). -/
def wFadd (d a b : BitVec 5) (t : BitVec 2) (r : BitVec 3) : IWord := 0xC#6 ++ d ++ a ++ b ++ t ++ r ++ 0x0#6
/-- The word of `fsub` (R447). -/
def wFsub (d a b : BitVec 5) (t : BitVec 2) (r : BitVec 3) : IWord := 0xC#6 ++ d ++ a ++ b ++ t ++ r ++ 0x1#6
/-- The word of `fmul` (R447). -/
def wFmul (d a b : BitVec 5) (t : BitVec 2) (r : BitVec 3) : IWord := 0xC#6 ++ d ++ a ++ b ++ t ++ r ++ 0x2#6
/-- The word of `fdiv` (R447). -/
def wFdiv (d a b : BitVec 5) (t : BitVec 2) (r : BitVec 3) : IWord := 0xC#6 ++ d ++ a ++ b ++ t ++ r ++ 0x3#6
/-- The word of `fsqrt` (R447). -/
def wFsqrt (d a : BitVec 5) (t : BitVec 2) (r : BitVec 3) : IWord := 0xC#6 ++ d ++ a ++ 0x0#5 ++ t ++ r ++ 0x4#6
/-- The word of `fmin` (R280). -/
def wFmin (d a b : BitVec 5) (t : BitVec 2) : IWord := 0xC#6 ++ d ++ a ++ b ++ t ++ 0x5#9
/-- The word of `fmax` (R280). -/
def wFmax (d a b : BitVec 5) (t : BitVec 2) : IWord := 0xC#6 ++ d ++ a ++ b ++ t ++ 0x6#9
/-- The word of `fmadd` (R447). -/
def wFmadd (d a b : BitVec 5) (t : BitVec 2) (r : BitVec 3) : IWord := 0xC#6 ++ d ++ a ++ b ++ t ++ r ++ 0x7#6
/-- The word of `feq` (R447). -/
def wFeq (d a b : BitVec 5) (t : BitVec 2) : IWord := 0xC#6 ++ d ++ a ++ b ++ t ++ 0x8#9
/-- The word of `flt` (R447). -/
def wFlt (d a b : BitVec 5) (t : BitVec 2) : IWord := 0xC#6 ++ d ++ a ++ b ++ t ++ 0x9#9
/-- The word of `fle` (R447). -/
def wFle (d a b : BitVec 5) (t : BitVec 2) : IWord := 0xC#6 ++ d ++ a ++ b ++ t ++ 0xA#9
/-- The word of `fclass` (R447). -/
def wFclass (d a : BitVec 5) (t : BitVec 2) : IWord := 0xC#6 ++ d ++ a ++ 0x0#5 ++ t ++ 0xB#9
/-- The word of `fcvif` (R447). -/
def wFcvif (d a : BitVec 5) (i : BitVec 4) (t : BitVec 2) (r : BitVec 3) : IWord := 0xC#6 ++ d ++ a ++ 0x0#1 ++ i ++ t ++ r ++ 0x10#6
/-- The word of `fcvfi` (R277). -/
def wFcvfi (d a : BitVec 5) (i : BitVec 4) (t : BitVec 2) (r : BitVec 3) : IWord := 0xC#6 ++ d ++ a ++ 0x0#1 ++ i ++ t ++ r ++ 0x11#6
/-- The word of `fcvff` (R276). -/
def wFcvff (d a : BitVec 5) (s t : BitVec 2) (r : BitVec 3) : IWord := 0xC#6 ++ d ++ a ++ 0x0#3 ++ s ++ t ++ r ++ 0x12#6
/-- The word of `ld` (R448). -/
def wLd (d b : BitVec 5) (w : BitVec 3) (o : BitVec 13) : IWord := 0xD#6 ++ d ++ b ++ w ++ o
/-- The word of `st` (R448). -/
def wSt (s b : BitVec 5) (w : BitVec 2) (o : BitVec 13) : IWord := 0xE#6 ++ s ++ b ++ 0x0#1 ++ w ++ o
/-- The word of `amoadd` (R454). -/
def wAmoadd (d a b : BitVec 5) (z q l : BitVec 1) (c : BitVec 3) : IWord := 0xF#6 ++ d ++ a ++ b ++ z ++ q ++ l ++ c ++ 0x0#5
/-- The word of `amoand` (R454). -/
def wAmoand (d a b : BitVec 5) (z q l : BitVec 1) (c : BitVec 3) : IWord := 0xF#6 ++ d ++ a ++ b ++ z ++ q ++ l ++ c ++ 0x1#5
/-- The word of `amoor` (R454). -/
def wAmoor (d a b : BitVec 5) (z q l : BitVec 1) (c : BitVec 3) : IWord := 0xF#6 ++ d ++ a ++ b ++ z ++ q ++ l ++ c ++ 0x2#5
/-- The word of `amoxor` (R454). -/
def wAmoxor (d a b : BitVec 5) (z q l : BitVec 1) (c : BitVec 3) : IWord := 0xF#6 ++ d ++ a ++ b ++ z ++ q ++ l ++ c ++ 0x3#5
/-- The word of `amomin` (R454). -/
def wAmomin (d a b : BitVec 5) (z q l : BitVec 1) (c : BitVec 3) : IWord := 0xF#6 ++ d ++ a ++ b ++ z ++ q ++ l ++ c ++ 0x4#5
/-- The word of `amomax` (R454). -/
def wAmomax (d a b : BitVec 5) (z q l : BitVec 1) (c : BitVec 3) : IWord := 0xF#6 ++ d ++ a ++ b ++ z ++ q ++ l ++ c ++ 0x5#5
/-- The word of `amominu` (R454). -/
def wAmominu (d a b : BitVec 5) (z q l : BitVec 1) (c : BitVec 3) : IWord := 0xF#6 ++ d ++ a ++ b ++ z ++ q ++ l ++ c ++ 0x6#5
/-- The word of `amomaxu` (R454). -/
def wAmomaxu (d a b : BitVec 5) (z q l : BitVec 1) (c : BitVec 3) : IWord := 0xF#6 ++ d ++ a ++ b ++ z ++ q ++ l ++ c ++ 0x7#5
/-- The word of `amoswap` (R454). -/
def wAmoswap (d a b : BitVec 5) (z q l : BitVec 1) (c : BitVec 3) : IWord := 0xF#6 ++ d ++ a ++ b ++ z ++ q ++ l ++ c ++ 0x8#5
/-- The word of `amocas` (R454). -/
def wAmocas (d a b : BitVec 5) (z q l : BitVec 1) (c : BitVec 3) : IWord := 0xF#6 ++ d ++ a ++ b ++ z ++ q ++ l ++ c ++ 0x9#5
/-- The word of `amofadd` (R454). -/
def wAmofadd (d a b : BitVec 5) (z q l : BitVec 1) (c : BitVec 3) : IWord := 0xF#6 ++ d ++ a ++ b ++ z ++ q ++ l ++ c ++ 0xA#5
/-- The word of `ldr` (R455). -/
def wLdr (d a : BitVec 5) (z : BitVec 1) : IWord := 0xF#6 ++ d ++ a ++ 0x0#5 ++ z ++ 0xC#10
/-- The word of `stc` (R455). -/
def wStc (d a b : BitVec 5) (z : BitVec 1) : IWord := 0xF#6 ++ d ++ a ++ b ++ z ++ 0xD#10
/-- The word of `beq` (R457). -/
def wBeq (a b : BitVec 5) (i : BitVec 16) : IWord := 0x10#6 ++ a ++ b ++ i
/-- The word of `bne` (R457). -/
def wBne (a b : BitVec 5) (i : BitVec 16) : IWord := 0x11#6 ++ a ++ b ++ i
/-- The word of `blt` (R457). -/
def wBlt (a b : BitVec 5) (i : BitVec 16) : IWord := 0x12#6 ++ a ++ b ++ i
/-- The word of `bge` (R457). -/
def wBge (a b : BitVec 5) (i : BitVec 16) : IWord := 0x13#6 ++ a ++ b ++ i
/-- The word of `bltu` (R457). -/
def wBltu (a b : BitVec 5) (i : BitVec 16) : IWord := 0x14#6 ++ a ++ b ++ i
/-- The word of `bgeu` (R457). -/
def wBgeu (a b : BitVec 5) (i : BitVec 16) : IWord := 0x15#6 ++ a ++ b ++ i
/-- The word of `jmp` (R458). -/
def wJmp (i : BitVec 26) : IWord := 0x16#6 ++ i
/-- The word of `call` (R458). -/
def wCall (i : BitVec 26) : IWord := 0x17#6 ++ i
/-- The word of `jalr` (R458). -/
def wJalr (d a : BitVec 5) : IWord := 0x18#6 ++ d ++ a ++ 0x0#16
/-- The word of `ret` (R458). -/
def wRet : IWord := 0x60000001#32
/-- The word of `callr` (R458). -/
def wCallr (a : BitVec 5) : IWord := 0x300#11 ++ a ++ 0x2#16
/-- The word of `loop` (R461). -/
def wLoop (l : BitVec 1) (c : BitVec 5) (n : BitVec 20) : IWord := 0x19#6 ++ l ++ c ++ n
/-- The word of `svc` (R466). -/
def wSvc (i : BitVec 8) : IWord := 0x6800#16 ++ i ++ 0x1#8
/-- The word of `brk` (R466). -/
def wBrk (i : BitVec 8) : IWord := 0x6800#16 ++ i ++ 0x2#8
/-- The word of `eret` (R368). -/
def wEret : IWord := 0x68000003#32
/-- The word of `wfe` (R467). -/
def wWfe : IWord := 0x68000004#32
/-- The word of `ifence` (R469). -/
def wIfence : IWord := 0x68000005#32
/-- The word of `tinv` (R470). -/
def wTinv (a : BitVec 5) : IWord := 0x340#11 ++ a ++ 0x6#16
/-- The word of `tinva` (R470). -/
def wTinva : IWord := 0x68000007#32
/-- The word of `emuret` (R378). -/
def wEmuret : IWord := 0x68000008#32
/-- The word of `evsig` (R468). -/
def wEvsig (a : BitVec 5) : IWord := 0x340#11 ++ a ++ 0x9#16
/-- The word of `yield` (R471). -/
def wYield : IWord := 0x6800000A#32
/-- The word of `crr` (R464). -/
def wCrr (d : BitVec 5) (c : BitVec 12) : IWord := 0x1B#6 ++ d ++ 0x0#9 ++ c
/-- The word of `crw` (R464). -/
def wCrw (d a : BitVec 5) (c : BitVec 12) : IWord := 0x1B#6 ++ d ++ a ++ 0x4#4 ++ c
/-- The word of `crs` (R464). -/
def wCrs (d a : BitVec 5) (c : BitVec 12) : IWord := 0x1B#6 ++ d ++ a ++ 0x8#4 ++ c
/-- The word of `crc` (R464). -/
def wCrc (d a : BitVec 5) (c : BitVec 12) : IWord := 0x1B#6 ++ d ++ a ++ 0xC#4 ++ c
/-- The word of `smac` (R441). -/
def wSmac (d a b : BitVec 5) : IWord := 0x1C#6 ++ d ++ a ++ b ++ 0x0#11
/-- The word of `smacz` (R441). -/
def wSmacz (d a b : BitVec 5) : IWord := 0x1C#6 ++ d ++ a ++ b ++ 0x1#11
/-- The word of `setvl` (R474). -/
def wSetvl (d a : BitVec 5) (e : BitVec 4) (g : BitVec 2) (t : BitVec 1) : IWord := 0x20#6 ++ d ++ a ++ 0x0#5 ++ e ++ g ++ t ++ 0x0#4
/-- The word of `setlens` (R474). -/
def wSetlens (d a b : BitVec 5) (e : BitVec 4) (g : BitVec 2) (t : BitVec 1) : IWord := 0x20#6 ++ d ++ a ++ b ++ e ++ g ++ t ++ 0x1#4
/-- The word of `setvlp` (R475). -/
def wSetvlp (d a b : BitVec 5) : IWord := 0x20#6 ++ d ++ a ++ b ++ 0x2#11
/-- The word of `mstart` (R477). -/
def wMstart : IWord := 0x80000003#32
/-- The word of `mstop` (R477). -/
def wMstop (t : BitVec 1) : IWord := 0x4000000#27 ++ t ++ 0x4#4
/-- The word of `mcfg` (R477). -/
def wMcfg (a : BitVec 5) (t : BitVec 1) : IWord := 0x400#11 ++ a ++ 0x0#11 ++ t ++ 0x5#4
/-- The word of `vrelease` (R476). -/
def wVrelease (d : BitVec 5) (t : BitVec 1) : IWord := 0x20#6 ++ d ++ 0x0#16 ++ t ++ 0x6#4
/-- The word of `vld` (R482). -/
def wVld (d b : BitVec 5) (m : BitVec 3) (c : BitVec 1) (w : BitVec 2) (x : BitVec 1) : IWord := 0x21#6 ++ d ++ b ++ 0x0#5 ++ m ++ 0x0#2 ++ c ++ 0x0#1 ++ w ++ x ++ 0x0#1
/-- The word of `vlds` (R482). -/
def wVlds (d b r : BitVec 5) (m : BitVec 3) (w : BitVec 2) (x : BitVec 1) : IWord := 0x21#6 ++ d ++ b ++ r ++ m ++ 0x4#4 ++ w ++ x ++ 0x0#1
/-- The word of `vldx` (R482). -/
def wVldx (d b i : BitVec 5) (m : BitVec 3) (w : BitVec 2) (x : BitVec 1) : IWord := 0x21#6 ++ d ++ b ++ i ++ m ++ 0x8#4 ++ w ++ x ++ 0x0#1
/-- The word of `vldxo` (R482). -/
def wVldxo (d b i : BitVec 5) (m : BitVec 3) (c : BitVec 1) (w : BitVec 2) (x : BitVec 1) : IWord := 0x21#6 ++ d ++ b ++ i ++ m ++ 0x3#2 ++ c ++ 0x0#1 ++ w ++ x ++ 0x0#1
/-- The word of `vst` (R482). -/
def wVst (s b : BitVec 5) (m : BitVec 3) (c n : BitVec 1) (w : BitVec 2) : IWord := 0x22#6 ++ s ++ b ++ 0x0#5 ++ m ++ 0x0#2 ++ c ++ n ++ w ++ 0x0#2
/-- The word of `vsts` (R482). -/
def wVsts (s b r : BitVec 5) (m : BitVec 3) (n : BitVec 1) (w : BitVec 2) : IWord := 0x22#6 ++ s ++ b ++ r ++ m ++ 0x2#3 ++ n ++ w ++ 0x0#2
/-- The word of `vstx` (R482). -/
def wVstx (s b i : BitVec 5) (m : BitVec 3) (n : BitVec 1) (w : BitVec 2) : IWord := 0x22#6 ++ s ++ b ++ i ++ m ++ 0x4#3 ++ n ++ w ++ 0x0#2
/-- The word of `vstxo` (R482). -/
def wVstxo (s b i : BitVec 5) (m : BitVec 3) (c n : BitVec 1) (w : BitVec 2) : IWord := 0x22#6 ++ s ++ b ++ i ++ m ++ 0x3#2 ++ c ++ n ++ w ++ 0x0#2
/-- The word of `sbind` (R490). -/
def wSbind (n a : BitVec 5) : IWord := 0x23#6 ++ n ++ a ++ 0x0#16
/-- The word of `sunbind` (R490). -/
def wSunbind (n : BitVec 5) : IWord := 0x23#6 ++ n ++ 0x1#21
/-- The word of `spos` (R490). -/
def wSpos (n a : BitVec 5) : IWord := 0x23#6 ++ n ++ a ++ 0x2#16
/-- The word of `gsp` (R495). -/
def wGsp (d s i : BitVec 5) (m : BitVec 3) : IWord := 0x23#6 ++ d ++ s ++ i ++ m ++ 0x4#8
/-- The word of `ssp` (R495). -/
def wSsp (d s i : BitVec 5) (m : BitVec 3) : IWord := 0x23#6 ++ d ++ s ++ i ++ m ++ 0x5#8
/-- The word of `cpy` (R494). -/
def wCpy (a : BitVec 5) (m : BitVec 3) : IWord := 0x460#11 ++ a ++ 0x0#5 ++ m ++ 0x6#8
/-- The word of `cpyr` (R494). -/
def wCpyr (a : BitVec 5) (m : BitVec 3) : IWord := 0x460#11 ++ a ++ 0x0#5 ++ m ++ 0x7#8
/-- The word of `capp` (R504). -/
def wCapp (d a b : BitVec 5) (m : BitVec 3) : IWord := 0x23#6 ++ d ++ a ++ b ++ m ++ 0x8#8
/-- The word of `vlm` (R488). -/
def wVlm (r : BitVec 3) (a : BitVec 5) : IWord := 0x8C#8 ++ r ++ a ++ 0xA#16
/-- The word of `vsm` (R488). -/
def wVsm (r : BitVec 3) (a : BitVec 5) : IWord := 0x8C#8 ++ r ++ a ++ 0xB#16
/-- The word of `cwait` (R501). -/
def wCwait (d : BitVec 5) : IWord := 0x23#6 ++ d ++ 0xC#21
/-- The word of `vadd_vv` (R512). -/
def wVaddVv (d a b : BitVec 5) (m : BitVec 3) (p : BitVec 2) : IWord := 0x24#6 ++ d ++ a ++ b ++ m ++ p ++ 0x0#6
/-- The word of `vadd_vx` (R512). -/
def wVaddVx (d a x : BitVec 5) (m : BitVec 3) : IWord := 0x25#6 ++ d ++ a ++ x ++ m ++ 0x0#8
/-- The word of `vsub_vv` (R512). -/
def wVsubVv (d a b : BitVec 5) (m : BitVec 3) (p : BitVec 2) : IWord := 0x24#6 ++ d ++ a ++ b ++ m ++ p ++ 0x1#6
/-- The word of `vsub_vx` (R512). -/
def wVsubVx (d a x : BitVec 5) (m : BitVec 3) : IWord := 0x25#6 ++ d ++ a ++ x ++ m ++ 0x1#8
/-- The word of `vrsub_vx` (R512). -/
def wVrsubVx (d a x : BitVec 5) (m : BitVec 3) : IWord := 0x25#6 ++ d ++ a ++ x ++ m ++ 0x2#8
/-- The word of `vmul_vv` (R512). -/
def wVmulVv (d a b : BitVec 5) (m : BitVec 3) (p : BitVec 2) : IWord := 0x24#6 ++ d ++ a ++ b ++ m ++ p ++ 0x3#6
/-- The word of `vmul_vx` (R512). -/
def wVmulVx (d a x : BitVec 5) (m : BitVec 3) : IWord := 0x25#6 ++ d ++ a ++ x ++ m ++ 0x3#8
/-- The word of `vmulh_vv` (R512). -/
def wVmulhVv (d a b : BitVec 5) (m : BitVec 3) (p : BitVec 2) : IWord := 0x24#6 ++ d ++ a ++ b ++ m ++ p ++ 0x4#6
/-- The word of `vmulh_vx` (R512). -/
def wVmulhVx (d a x : BitVec 5) (m : BitVec 3) : IWord := 0x25#6 ++ d ++ a ++ x ++ m ++ 0x4#8
/-- The word of `vmulhu_vv` (R512). -/
def wVmulhuVv (d a b : BitVec 5) (m : BitVec 3) (p : BitVec 2) : IWord := 0x24#6 ++ d ++ a ++ b ++ m ++ p ++ 0x5#6
/-- The word of `vmulhu_vx` (R512). -/
def wVmulhuVx (d a x : BitVec 5) (m : BitVec 3) : IWord := 0x25#6 ++ d ++ a ++ x ++ m ++ 0x5#8
/-- The word of `vdiv_vv` (R264). -/
def wVdivVv (d a b : BitVec 5) (m : BitVec 3) (p : BitVec 2) : IWord := 0x24#6 ++ d ++ a ++ b ++ m ++ p ++ 0x6#6
/-- The word of `vdiv_vx` (R264). -/
def wVdivVx (d a x : BitVec 5) (m : BitVec 3) : IWord := 0x25#6 ++ d ++ a ++ x ++ m ++ 0x6#8
/-- The word of `vdivu_vv` (R264). -/
def wVdivuVv (d a b : BitVec 5) (m : BitVec 3) (p : BitVec 2) : IWord := 0x24#6 ++ d ++ a ++ b ++ m ++ p ++ 0x7#6
/-- The word of `vdivu_vx` (R264). -/
def wVdivuVx (d a x : BitVec 5) (m : BitVec 3) : IWord := 0x25#6 ++ d ++ a ++ x ++ m ++ 0x7#8
/-- The word of `vrem_vv` (R264). -/
def wVremVv (d a b : BitVec 5) (m : BitVec 3) (p : BitVec 2) : IWord := 0x24#6 ++ d ++ a ++ b ++ m ++ p ++ 0x8#6
/-- The word of `vrem_vx` (R264). -/
def wVremVx (d a x : BitVec 5) (m : BitVec 3) : IWord := 0x25#6 ++ d ++ a ++ x ++ m ++ 0x8#8
/-- The word of `vremu_vv` (R264). -/
def wVremuVv (d a b : BitVec 5) (m : BitVec 3) (p : BitVec 2) : IWord := 0x24#6 ++ d ++ a ++ b ++ m ++ p ++ 0x9#6
/-- The word of `vremu_vx` (R264). -/
def wVremuVx (d a x : BitVec 5) (m : BitVec 3) : IWord := 0x25#6 ++ d ++ a ++ x ++ m ++ 0x9#8
/-- The word of `vmin_vv` (R512). -/
def wVminVv (d a b : BitVec 5) (m : BitVec 3) (p : BitVec 2) : IWord := 0x24#6 ++ d ++ a ++ b ++ m ++ p ++ 0xA#6
/-- The word of `vmin_vx` (R512). -/
def wVminVx (d a x : BitVec 5) (m : BitVec 3) : IWord := 0x25#6 ++ d ++ a ++ x ++ m ++ 0xA#8
/-- The word of `vmax_vv` (R512). -/
def wVmaxVv (d a b : BitVec 5) (m : BitVec 3) (p : BitVec 2) : IWord := 0x24#6 ++ d ++ a ++ b ++ m ++ p ++ 0xB#6
/-- The word of `vmax_vx` (R512). -/
def wVmaxVx (d a x : BitVec 5) (m : BitVec 3) : IWord := 0x25#6 ++ d ++ a ++ x ++ m ++ 0xB#8
/-- The word of `vminu_vv` (R512). -/
def wVminuVv (d a b : BitVec 5) (m : BitVec 3) (p : BitVec 2) : IWord := 0x24#6 ++ d ++ a ++ b ++ m ++ p ++ 0xC#6
/-- The word of `vminu_vx` (R512). -/
def wVminuVx (d a x : BitVec 5) (m : BitVec 3) : IWord := 0x25#6 ++ d ++ a ++ x ++ m ++ 0xC#8
/-- The word of `vmaxu_vv` (R512). -/
def wVmaxuVv (d a b : BitVec 5) (m : BitVec 3) (p : BitVec 2) : IWord := 0x24#6 ++ d ++ a ++ b ++ m ++ p ++ 0xD#6
/-- The word of `vmaxu_vx` (R512). -/
def wVmaxuVx (d a x : BitVec 5) (m : BitVec 3) : IWord := 0x25#6 ++ d ++ a ++ x ++ m ++ 0xD#8
/-- The word of `vand_vv` (R512). -/
def wVandVv (d a b : BitVec 5) (m : BitVec 3) (p : BitVec 2) : IWord := 0x24#6 ++ d ++ a ++ b ++ m ++ p ++ 0xE#6
/-- The word of `vand_vx` (R512). -/
def wVandVx (d a x : BitVec 5) (m : BitVec 3) : IWord := 0x25#6 ++ d ++ a ++ x ++ m ++ 0xE#8
/-- The word of `vor_vv` (R512). -/
def wVorVv (d a b : BitVec 5) (m : BitVec 3) (p : BitVec 2) : IWord := 0x24#6 ++ d ++ a ++ b ++ m ++ p ++ 0xF#6
/-- The word of `vor_vx` (R512). -/
def wVorVx (d a x : BitVec 5) (m : BitVec 3) : IWord := 0x25#6 ++ d ++ a ++ x ++ m ++ 0xF#8
/-- The word of `vxor_vv` (R512). -/
def wVxorVv (d a b : BitVec 5) (m : BitVec 3) (p : BitVec 2) : IWord := 0x24#6 ++ d ++ a ++ b ++ m ++ p ++ 0x10#6
/-- The word of `vxor_vx` (R512). -/
def wVxorVx (d a x : BitVec 5) (m : BitVec 3) : IWord := 0x25#6 ++ d ++ a ++ x ++ m ++ 0x10#8
/-- The word of `vsll_vv` (R512). -/
def wVsllVv (d a b : BitVec 5) (m : BitVec 3) (p : BitVec 2) : IWord := 0x24#6 ++ d ++ a ++ b ++ m ++ p ++ 0x11#6
/-- The word of `vsll_vx` (R512). -/
def wVsllVx (d a x : BitVec 5) (m : BitVec 3) : IWord := 0x25#6 ++ d ++ a ++ x ++ m ++ 0x11#8
/-- The word of `vsrl_vv` (R512). -/
def wVsrlVv (d a b : BitVec 5) (m : BitVec 3) (p : BitVec 2) : IWord := 0x24#6 ++ d ++ a ++ b ++ m ++ p ++ 0x12#6
/-- The word of `vsrl_vx` (R512). -/
def wVsrlVx (d a x : BitVec 5) (m : BitVec 3) : IWord := 0x25#6 ++ d ++ a ++ x ++ m ++ 0x12#8
/-- The word of `vsra_vv` (R512). -/
def wVsraVv (d a b : BitVec 5) (m : BitVec 3) (p : BitVec 2) : IWord := 0x24#6 ++ d ++ a ++ b ++ m ++ p ++ 0x13#6
/-- The word of `vsra_vx` (R512). -/
def wVsraVx (d a x : BitVec 5) (m : BitVec 3) : IWord := 0x25#6 ++ d ++ a ++ x ++ m ++ 0x13#8
/-- The word of `vsadd_vv` (R512). -/
def wVsaddVv (d a b : BitVec 5) (m : BitVec 3) (p : BitVec 2) : IWord := 0x24#6 ++ d ++ a ++ b ++ m ++ p ++ 0x14#6
/-- The word of `vsadd_vx` (R512). -/
def wVsaddVx (d a x : BitVec 5) (m : BitVec 3) : IWord := 0x25#6 ++ d ++ a ++ x ++ m ++ 0x14#8
/-- The word of `vsaddu_vv` (R512). -/
def wVsadduVv (d a b : BitVec 5) (m : BitVec 3) (p : BitVec 2) : IWord := 0x24#6 ++ d ++ a ++ b ++ m ++ p ++ 0x15#6
/-- The word of `vsaddu_vx` (R512). -/
def wVsadduVx (d a x : BitVec 5) (m : BitVec 3) : IWord := 0x25#6 ++ d ++ a ++ x ++ m ++ 0x15#8
/-- The word of `vssub_vv` (R512). -/
def wVssubVv (d a b : BitVec 5) (m : BitVec 3) (p : BitVec 2) : IWord := 0x24#6 ++ d ++ a ++ b ++ m ++ p ++ 0x16#6
/-- The word of `vssub_vx` (R512). -/
def wVssubVx (d a x : BitVec 5) (m : BitVec 3) : IWord := 0x25#6 ++ d ++ a ++ x ++ m ++ 0x16#8
/-- The word of `vssubu_vv` (R512). -/
def wVssubuVv (d a b : BitVec 5) (m : BitVec 3) (p : BitVec 2) : IWord := 0x24#6 ++ d ++ a ++ b ++ m ++ p ++ 0x17#6
/-- The word of `vssubu_vx` (R512). -/
def wVssubuVx (d a x : BitVec 5) (m : BitVec 3) : IWord := 0x25#6 ++ d ++ a ++ x ++ m ++ 0x17#8
/-- The word of `vabs` (R512). -/
def wVabs (d a : BitVec 5) (m : BitVec 3) : IWord := 0x24#6 ++ d ++ a ++ 0x0#5 ++ m ++ 0x18#8
/-- The word of `vmacc_vv` (R512). -/
def wVmaccVv (d a b : BitVec 5) (m : BitVec 3) (p : BitVec 2) : IWord := 0x24#6 ++ d ++ a ++ b ++ m ++ p ++ 0x19#6
/-- The word of `vmacc_vx` (R512). -/
def wVmaccVx (d a x : BitVec 5) (m : BitVec 3) : IWord := 0x25#6 ++ d ++ a ++ x ++ m ++ 0x19#8
/-- The word of `vsel_vv` (R515). -/
def wVselVv (d a b : BitVec 5) (m : BitVec 3) (p : BitVec 2) : IWord := 0x24#6 ++ d ++ a ++ b ++ m ++ p ++ 0x1A#6
/-- The word of `vsel_vx` (R515). -/
def wVselVx (d a x : BitVec 5) (m : BitVec 3) : IWord := 0x25#6 ++ d ++ a ++ x ++ m ++ 0x1A#8
/-- The word of `vmv_vv` (R512). -/
def wVmvVv (d a : BitVec 5) (m : BitVec 3) : IWord := 0x24#6 ++ d ++ a ++ 0x0#5 ++ m ++ 0x1B#8
/-- The word of `vmv_vx` (R512). -/
def wVmvVx (d x : BitVec 5) (m : BitVec 3) : IWord := 0x25#6 ++ d ++ 0x0#5 ++ x ++ m ++ 0x1B#8
/-- The word of `vpopc` (R512). -/
def wVpopc (d a : BitVec 5) (m : BitVec 3) : IWord := 0x24#6 ++ d ++ a ++ 0x0#5 ++ m ++ 0x1C#8
/-- The word of `vclz` (R512). -/
def wVclz (d a : BitVec 5) (m : BitVec 3) : IWord := 0x24#6 ++ d ++ a ++ 0x0#5 ++ m ++ 0x1D#8
/-- The word of `vpcp` (R513). -/
def wVpcp (d a : BitVec 5) (m : BitVec 3) : IWord := 0x24#6 ++ d ++ a ++ 0x0#5 ++ m ++ 0x1E#8
/-- The word of `vid` (R512). -/
def wVid (d : BitVec 5) (m : BitVec 3) : IWord := 0x24#6 ++ d ++ 0x0#10 ++ m ++ 0x1F#8
/-- The word of `vext_vv` (R514). -/
def wVextVv (d a b : BitVec 5) (m : BitVec 3) (p : BitVec 2) : IWord := 0x24#6 ++ d ++ a ++ b ++ m ++ p ++ 0x20#6
/-- The word of `vext_vx` (R514). -/
def wVextVx (d a x : BitVec 5) (m : BitVec 3) : IWord := 0x25#6 ++ d ++ a ++ x ++ m ++ 0x20#8
/-- The word of `vins_vv` (R514). -/
def wVinsVv (d a b : BitVec 5) (m : BitVec 3) (p : BitVec 2) : IWord := 0x24#6 ++ d ++ a ++ b ++ m ++ p ++ 0x21#6
/-- The word of `vins_vx` (R514). -/
def wVinsVx (d a x : BitVec 5) (m : BitVec 3) : IWord := 0x25#6 ++ d ++ a ++ x ++ m ++ 0x21#8
/-- The word of `vabsd_vv` (R512). -/
def wVabsdVv (d a b : BitVec 5) (m : BitVec 3) (p : BitVec 2) : IWord := 0x24#6 ++ d ++ a ++ b ++ m ++ p ++ 0x22#6
/-- The word of `vabsd_vx` (R512). -/
def wVabsdVx (d a x : BitVec 5) (m : BitVec 3) : IWord := 0x25#6 ++ d ++ a ++ x ++ m ++ 0x22#8
/-- The word of `vaadd_vv` (R441). -/
def wVaaddVv (d a b : BitVec 5) (m : BitVec 3) : IWord := 0x24#6 ++ d ++ a ++ b ++ m ++ 0x3C#8
/-- The word of `vaadd_vx` (R441). -/
def wVaaddVx (d a x : BitVec 5) (m : BitVec 3) : IWord := 0x25#6 ++ d ++ a ++ x ++ m ++ 0x3C#8
/-- The word of `vaaddu_vv` (R441). -/
def wVaadduVv (d a b : BitVec 5) (m : BitVec 3) : IWord := 0x24#6 ++ d ++ a ++ b ++ m ++ 0x3D#8
/-- The word of `vaaddu_vx` (R441). -/
def wVaadduVx (d a x : BitVec 5) (m : BitVec 3) : IWord := 0x25#6 ++ d ++ a ++ x ++ m ++ 0x3D#8
/-- The word of `vasub_vv` (R441). -/
def wVasubVv (d a b : BitVec 5) (m : BitVec 3) : IWord := 0x24#6 ++ d ++ a ++ b ++ m ++ 0x3E#8
/-- The word of `vasub_vx` (R441). -/
def wVasubVx (d a x : BitVec 5) (m : BitVec 3) : IWord := 0x25#6 ++ d ++ a ++ x ++ m ++ 0x3E#8
/-- The word of `vasubu_vv` (R441). -/
def wVasubuVv (d a b : BitVec 5) (m : BitVec 3) : IWord := 0x24#6 ++ d ++ a ++ b ++ m ++ 0x3F#8
/-- The word of `vasubu_vx` (R441). -/
def wVasubuVx (d a x : BitVec 5) (m : BitVec 3) : IWord := 0x25#6 ++ d ++ a ++ x ++ m ++ 0x3F#8
/-- The word of `vfadd_vv` (R517). -/
def wVfaddVv (d a b : BitVec 5) (m : BitVec 3) (p : BitVec 2) : IWord := 0x26#6 ++ d ++ a ++ b ++ m ++ p ++ 0x0#6
/-- The word of `vfadd_vx` (R517). -/
def wVfaddVx (d a x : BitVec 5) (m : BitVec 3) : IWord := 0x27#6 ++ d ++ a ++ x ++ m ++ 0x0#8
/-- The word of `vfsub_vv` (R517). -/
def wVfsubVv (d a b : BitVec 5) (m : BitVec 3) (p : BitVec 2) : IWord := 0x26#6 ++ d ++ a ++ b ++ m ++ p ++ 0x1#6
/-- The word of `vfsub_vx` (R517). -/
def wVfsubVx (d a x : BitVec 5) (m : BitVec 3) : IWord := 0x27#6 ++ d ++ a ++ x ++ m ++ 0x1#8
/-- The word of `vfrsub_vx` (R517). -/
def wVfrsubVx (d a x : BitVec 5) (m : BitVec 3) : IWord := 0x27#6 ++ d ++ a ++ x ++ m ++ 0x2#8
/-- The word of `vfmul_vv` (R517). -/
def wVfmulVv (d a b : BitVec 5) (m : BitVec 3) (p : BitVec 2) : IWord := 0x26#6 ++ d ++ a ++ b ++ m ++ p ++ 0x3#6
/-- The word of `vfmul_vx` (R517). -/
def wVfmulVx (d a x : BitVec 5) (m : BitVec 3) : IWord := 0x27#6 ++ d ++ a ++ x ++ m ++ 0x3#8
/-- The word of `vfdiv_vv` (R517). -/
def wVfdivVv (d a b : BitVec 5) (m : BitVec 3) (p : BitVec 2) : IWord := 0x26#6 ++ d ++ a ++ b ++ m ++ p ++ 0x4#6
/-- The word of `vfdiv_vx` (R517). -/
def wVfdivVx (d a x : BitVec 5) (m : BitVec 3) : IWord := 0x27#6 ++ d ++ a ++ x ++ m ++ 0x4#8
/-- The word of `vfrdiv_vx` (R517). -/
def wVfrdivVx (d a x : BitVec 5) (m : BitVec 3) : IWord := 0x27#6 ++ d ++ a ++ x ++ m ++ 0x5#8
/-- The word of `vfsqrt` (R517). -/
def wVfsqrt (d a : BitVec 5) (m : BitVec 3) : IWord := 0x26#6 ++ d ++ a ++ 0x0#5 ++ m ++ 0x6#8
/-- The word of `vfma_vv` (R517). -/
def wVfmaVv (d a b : BitVec 5) (m : BitVec 3) (p : BitVec 2) : IWord := 0x26#6 ++ d ++ a ++ b ++ m ++ p ++ 0x7#6
/-- The word of `vfma_vx` (R517). -/
def wVfmaVx (d a x : BitVec 5) (m : BitVec 3) : IWord := 0x27#6 ++ d ++ a ++ x ++ m ++ 0x7#8
/-- The word of `vfms_vv` (R517). -/
def wVfmsVv (d a b : BitVec 5) (m : BitVec 3) (p : BitVec 2) : IWord := 0x26#6 ++ d ++ a ++ b ++ m ++ p ++ 0x8#6
/-- The word of `vfms_vx` (R517). -/
def wVfmsVx (d a x : BitVec 5) (m : BitVec 3) : IWord := 0x27#6 ++ d ++ a ++ x ++ m ++ 0x8#8
/-- The word of `vfnma_vv` (R517). -/
def wVfnmaVv (d a b : BitVec 5) (m : BitVec 3) (p : BitVec 2) : IWord := 0x26#6 ++ d ++ a ++ b ++ m ++ p ++ 0x9#6
/-- The word of `vfnma_vx` (R517). -/
def wVfnmaVx (d a x : BitVec 5) (m : BitVec 3) : IWord := 0x27#6 ++ d ++ a ++ x ++ m ++ 0x9#8
/-- The word of `vfmin_vv` (R280). -/
def wVfminVv (d a b : BitVec 5) (m : BitVec 3) (p : BitVec 2) : IWord := 0x26#6 ++ d ++ a ++ b ++ m ++ p ++ 0xA#6
/-- The word of `vfmin_vx` (R280). -/
def wVfminVx (d a x : BitVec 5) (m : BitVec 3) : IWord := 0x27#6 ++ d ++ a ++ x ++ m ++ 0xA#8
/-- The word of `vfmax_vv` (R280). -/
def wVfmaxVv (d a b : BitVec 5) (m : BitVec 3) (p : BitVec 2) : IWord := 0x26#6 ++ d ++ a ++ b ++ m ++ p ++ 0xB#6
/-- The word of `vfmax_vx` (R280). -/
def wVfmaxVx (d a x : BitVec 5) (m : BitVec 3) : IWord := 0x27#6 ++ d ++ a ++ x ++ m ++ 0xB#8
/-- The word of `vfabs` (R519). -/
def wVfabs (d a : BitVec 5) (m : BitVec 3) : IWord := 0x26#6 ++ d ++ a ++ 0x0#5 ++ m ++ 0xC#8
/-- The word of `vfneg` (R519). -/
def wVfneg (d a : BitVec 5) (m : BitVec 3) : IWord := 0x26#6 ++ d ++ a ++ 0x0#5 ++ m ++ 0xD#8
/-- The word of `vfrcp` (R518). -/
def wVfrcp (d a : BitVec 5) (m : BitVec 3) : IWord := 0x26#6 ++ d ++ a ++ 0x0#5 ++ m ++ 0xE#8
/-- The word of `vfrsqrt` (R518). -/
def wVfrsqrt (d a : BitVec 5) (m : BitVec 3) : IWord := 0x26#6 ++ d ++ a ++ 0x0#5 ++ m ++ 0xF#8
/-- The word of `vfsgn_vv` (R519). -/
def wVfsgnVv (d a b : BitVec 5) (m : BitVec 3) (p : BitVec 2) : IWord := 0x26#6 ++ d ++ a ++ b ++ m ++ p ++ 0x10#6
/-- The word of `vfsgn_vx` (R519). -/
def wVfsgnVx (d a x : BitVec 5) (m : BitVec 3) : IWord := 0x27#6 ++ d ++ a ++ x ++ m ++ 0x10#8
/-- The word of `vfclass` (R519). -/
def wVfclass (d a : BitVec 5) (m : BitVec 3) : IWord := 0x26#6 ++ d ++ a ++ 0x0#5 ++ m ++ 0x11#8
/-- The word of `vfexp2` (R284). -/
def wVfexp2 (d a : BitVec 5) (m : BitVec 3) : IWord := 0x26#6 ++ d ++ a ++ 0x0#5 ++ m ++ 0x12#8
/-- The word of `vflog2` (R284). -/
def wVflog2 (d a : BitVec 5) (m : BitVec 3) : IWord := 0x26#6 ++ d ++ a ++ 0x0#5 ++ m ++ 0x13#8
/-- The word of `vfsat` (R283). -/
def wVfsat (d a : BitVec 5) (m : BitVec 3) : IWord := 0x26#6 ++ d ++ a ++ 0x0#5 ++ m ++ 0x14#8
/-- The word of `vcmp_vv` (R531). -/
def wVcmpVv (d : BitVec 3) (a b : BitVec 5) (m : BitVec 3) (p : BitVec 2) (c : BitVec 3) (t : BitVec 2) : IWord := 0xA0#8 ++ d ++ a ++ b ++ m ++ p ++ c ++ t ++ 0x0#1
/-- The word of `vcmp_vx` (R531). -/
def wVcmpVx (d : BitVec 3) (a x : BitVec 5) (m c : BitVec 3) (t : BitVec 2) : IWord := 0xA0#8 ++ d ++ a ++ x ++ m ++ 0x0#2 ++ c ++ t ++ 0x1#1
/-- The word of `mand` (R532). -/
def wMand (d a b m : BitVec 3) : IWord := 0xA4#8 ++ d ++ 0x0#2 ++ a ++ 0x0#2 ++ b ++ m ++ 0x0#8
/-- The word of `mor` (R532). -/
def wMor (d a b m : BitVec 3) : IWord := 0xA4#8 ++ d ++ 0x0#2 ++ a ++ 0x0#2 ++ b ++ m ++ 0x1#8
/-- The word of `mxor` (R532). -/
def wMxor (d a b m : BitVec 3) : IWord := 0xA4#8 ++ d ++ 0x0#2 ++ a ++ 0x0#2 ++ b ++ m ++ 0x2#8
/-- The word of `mandn` (R532). -/
def wMandn (d a b m : BitVec 3) : IWord := 0xA4#8 ++ d ++ 0x0#2 ++ a ++ 0x0#2 ++ b ++ m ++ 0x3#8
/-- The word of `mnot` (R532). -/
def wMnot (d a m : BitVec 3) : IWord := 0xA4#8 ++ d ++ 0x0#2 ++ a ++ 0x0#5 ++ m ++ 0x4#8
/-- The word of `mmv` (R532). -/
def wMmv (d a m : BitVec 3) : IWord := 0xA4#8 ++ d ++ 0x0#2 ++ a ++ 0x0#5 ++ m ++ 0x5#8
/-- The word of `mset` (R532). -/
def wMset (d m : BitVec 3) : IWord := 0xA4#8 ++ d ++ 0x0#10 ++ m ++ 0x6#8
/-- The word of `mclr` (R532). -/
def wMclr (d m : BitVec 3) : IWord := 0xA4#8 ++ d ++ 0x0#10 ++ m ++ 0x7#8
/-- The word of `mpop` (R532). -/
def wMpop (d : BitVec 5) (a m : BitVec 3) : IWord := 0x29#6 ++ d ++ 0x0#2 ++ a ++ 0x0#5 ++ m ++ 0x8#8
/-- The word of `mfirst` (R532). -/
def wMfirst (d : BitVec 5) (a m : BitVec 3) : IWord := 0x29#6 ++ d ++ 0x0#2 ++ a ++ 0x0#5 ++ m ++ 0x9#8
/-- The word of `mlast` (R532). -/
def wMlast (d : BitVec 5) (a m : BitVec 3) : IWord := 0x29#6 ++ d ++ 0x0#2 ++ a ++ 0x0#5 ++ m ++ 0xA#8
/-- The word of `mbefore` (R532). -/
def wMbefore (d a m : BitVec 3) : IWord := 0xA4#8 ++ d ++ 0x0#2 ++ a ++ 0x0#5 ++ m ++ 0xB#8
/-- The word of `mincl` (R532). -/
def wMincl (d a m : BitVec 3) : IWord := 0xA4#8 ++ d ++ 0x0#2 ++ a ++ 0x0#5 ++ m ++ 0xC#8
/-- The word of `monly` (R532). -/
def wMonly (d a m : BitVec 3) : IWord := 0xA4#8 ++ d ++ 0x0#2 ++ a ++ 0x0#5 ++ m ++ 0xD#8
/-- The word of `mtov` (R532). -/
def wMtov (d : BitVec 5) (a m : BitVec 3) : IWord := 0x29#6 ++ d ++ 0x0#2 ++ a ++ 0x0#5 ++ m ++ 0xE#8
/-- The word of `vtom` (R532). -/
def wVtom (d : BitVec 3) (a : BitVec 5) (m : BitVec 3) : IWord := 0xA4#8 ++ d ++ a ++ 0x0#5 ++ m ++ 0xF#8
/-- The word of `vcompress` (R534). -/
def wVcompress (d a : BitVec 5) (m : BitVec 3) : IWord := 0x2A#6 ++ d ++ a ++ 0x0#5 ++ m ++ 0x0#8
/-- The word of `vexpand` (R534). -/
def wVexpand (d a : BitVec 5) (m : BitVec 3) : IWord := 0x2A#6 ++ d ++ a ++ 0x0#5 ++ m ++ 0x1#8
/-- The word of `vslideup` (R534). -/
def wVslideup (d a x : BitVec 5) (m : BitVec 3) : IWord := 0x2A#6 ++ d ++ a ++ x ++ m ++ 0x2#8
/-- The word of `vslidedn` (R534). -/
def wVslidedn (d a x : BitVec 5) (m : BitVec 3) : IWord := 0x2A#6 ++ d ++ a ++ x ++ m ++ 0x3#8
/-- The word of `vgath` (R535). -/
def wVgath (d a b : BitVec 5) (m : BitVec 3) : IWord := 0x2A#6 ++ d ++ a ++ b ++ m ++ 0x4#8
/-- The word of `vrev` (R534). -/
def wVrev (d a : BitVec 5) (m : BitVec 3) : IWord := 0x2A#6 ++ d ++ a ++ 0x0#5 ++ m ++ 0x5#8
/-- The word of `vtr` (R535). -/
def wVtr (d a : BitVec 5) (m : BitVec 3) : IWord := 0x2A#6 ++ d ++ a ++ 0x0#5 ++ m ++ 0x6#8
/-- The word of `vrelay` (R536). -/
def wVrelay (d : BitVec 5) : IWord := 0x2A#6 ++ d ++ 0x7#21
/-- The word of `vzip` (R534). -/
def wVzip (d a b : BitVec 5) (m : BitVec 3) : IWord := 0x2A#6 ++ d ++ a ++ b ++ m ++ 0x8#8
/-- The word of `vunzip` (R534). -/
def wVunzip (d a : BitVec 5) (m : BitVec 3) : IWord := 0x2A#6 ++ d ++ a ++ 0x0#5 ++ m ++ 0x9#8
/-- The word of `vrowmv` (R534). -/
def wVrowmv (d a x : BitVec 5) (m : BitVec 3) : IWord := 0x2A#6 ++ d ++ a ++ x ++ m ++ 0xA#8
/-- The word of `vredsum` (R539). -/
def wVredsum (d a b : BitVec 5) (m : BitVec 3) : IWord := 0x2B#6 ++ d ++ a ++ b ++ m ++ 0x0#8
/-- The word of `vredsumt` (R539). -/
def wVredsumt (d a b : BitVec 5) (m : BitVec 3) : IWord := 0x2B#6 ++ d ++ a ++ b ++ m ++ 0x1#8
/-- The word of `vredmin` (R539). -/
def wVredmin (d a b : BitVec 5) (m : BitVec 3) : IWord := 0x2B#6 ++ d ++ a ++ b ++ m ++ 0x2#8
/-- The word of `vredmax` (R539). -/
def wVredmax (d a b : BitVec 5) (m : BitVec 3) : IWord := 0x2B#6 ++ d ++ a ++ b ++ m ++ 0x3#8
/-- The word of `vredand` (R539). -/
def wVredand (d a b : BitVec 5) (m : BitVec 3) : IWord := 0x2B#6 ++ d ++ a ++ b ++ m ++ 0x4#8
/-- The word of `vredor` (R539). -/
def wVredor (d a b : BitVec 5) (m : BitVec 3) : IWord := 0x2B#6 ++ d ++ a ++ b ++ m ++ 0x5#8
/-- The word of `vredxor` (R539). -/
def wVredxor (d a b : BitVec 5) (m : BitVec 3) : IWord := 0x2B#6 ++ d ++ a ++ b ++ m ++ 0x6#8
/-- The word of `vredminu` (R539). -/
def wVredminu (d a b : BitVec 5) (m : BitVec 3) : IWord := 0x2B#6 ++ d ++ a ++ b ++ m ++ 0x7#8
/-- The word of `vredmaxu` (R539). -/
def wVredmaxu (d a b : BitVec 5) (m : BitVec 3) : IWord := 0x2B#6 ++ d ++ a ++ b ++ m ++ 0x8#8
/-- The word of `vfredsum` (R539). -/
def wVfredsum (d a b : BitVec 5) (m : BitVec 3) : IWord := 0x2B#6 ++ d ++ a ++ b ++ m ++ 0x9#8
/-- The word of `vfredsumt` (R539). -/
def wVfredsumt (d a b : BitVec 5) (m : BitVec 3) : IWord := 0x2B#6 ++ d ++ a ++ b ++ m ++ 0xA#8
/-- The word of `vfredmax` (R539). -/
def wVfredmax (d a b : BitVec 5) (m : BitVec 3) : IWord := 0x2B#6 ++ d ++ a ++ b ++ m ++ 0xB#8
/-- The word of `vfredmin` (R539). -/
def wVfredmin (d a b : BitVec 5) (m : BitVec 3) : IWord := 0x2B#6 ++ d ++ a ++ b ++ m ++ 0xC#8
/-- The word of `vscan` (R540). -/
def wVscan (d a b : BitVec 5) (m : BitVec 3) : IWord := 0x2B#6 ++ d ++ a ++ b ++ m ++ 0x10#8
/-- The word of `vscanx` (R540). -/
def wVscanx (d a b : BitVec 5) (m : BitVec 3) : IWord := 0x2B#6 ++ d ++ a ++ b ++ m ++ 0x11#8
/-- The word of `vfscan` (R540). -/
def wVfscan (d a b : BitVec 5) (m : BitVec 3) : IWord := 0x2B#6 ++ d ++ a ++ b ++ m ++ 0x12#8
/-- The word of `vkswap` (R541). -/
def wVkswap (d a b : BitVec 5) (m : BitVec 3) : IWord := 0x2B#6 ++ d ++ a ++ b ++ m ++ 0x18#8
/-- The word of `vkswapi` (R542). -/
def wVkswapi (d a x : BitVec 5) (m : BitVec 3) : IWord := 0x2B#6 ++ d ++ a ++ x ++ m ++ 0x19#8
/-- The word of `vcvt` (R521). -/
def wVcvt (d a : BitVec 5) (m : BitVec 3) : IWord := 0x2C#6 ++ d ++ a ++ 0x0#5 ++ m ++ 0x0#8
/-- The word of `vcvtr` (R521). -/
def wVcvtr (d a : BitVec 5) (r m : BitVec 3) : IWord := 0x2C#6 ++ d ++ a ++ 0x0#2 ++ r ++ m ++ 0x1#8
/-- The word of `vqbs` (R522). -/
def wVqbs (d a b : BitVec 5) (m : BitVec 3) : IWord := 0x2C#6 ++ d ++ a ++ b ++ m ++ 0x2#8
/-- The word of `vdqbs` (R523). -/
def wVdqbs (d a b : BitVec 5) (m : BitVec 3) : IWord := 0x2C#6 ++ d ++ a ++ b ++ m ++ 0x3#8
/-- The word of `fisect` (R553). -/
def wFisect (d a b : BitVec 4) (c : BitVec 5) : IWord := 0x2D#6 ++ d ++ a ++ b ++ 0x0#3 ++ c ++ 0x0#6
/-- The word of `fisectb` (R555). -/
def wFisectb (d a b : BitVec 4) : IWord := 0x2D#6 ++ d ++ a ++ b ++ 0x800#14
/-- The word of `funion` (R553). -/
def wFunion (d a b : BitVec 4) (c : BitVec 5) : IWord := 0x2D#6 ++ d ++ a ++ b ++ 0x0#3 ++ c ++ 0x1#6
/-- The word of `fmerge` (R553). -/
def wFmerge (d a b : BitVec 4) (c : BitVec 5) : IWord := 0x2D#6 ++ d ++ a ++ b ++ 0x0#3 ++ c ++ 0x2#6
/-- The word of `fsort` (R554). -/
def wFsort (d a : BitVec 4) : IWord := 0x2D#6 ++ d ++ a ++ 0x3#18
/-- The word of `fcompact` (R554). -/
def wFcompact (d a : BitVec 4) (m : BitVec 3) : IWord := 0x2D#6 ++ d ++ a ++ 0x0#4 ++ m ++ 0x4#11
/-- The word of `fdiff` (R553). -/
def wFdiff (d a b : BitVec 4) : IWord := 0x2D#6 ++ d ++ a ++ b ++ 0x5#14
/-- The word of `fdedup` (R554). -/
def wFdedup (d a : BitVec 4) (c : BitVec 5) : IWord := 0x2D#6 ++ d ++ a ++ 0x0#7 ++ c ++ 0x6#6
/-- The word of `fld` (R560). -/
def wFld (d a : BitVec 4) : IWord := 0x2E#6 ++ d ++ 0x0#11 ++ a ++ 0x0#7
/-- The word of `fst` (R561). -/
def wFst (f a : BitVec 4) : IWord := 0x2E0#10 ++ f ++ 0x0#7 ++ a ++ 0x1#7
/-- The word of `fbm` (R557). -/
def wFbm (d : BitVec 4) (v : BitVec 5) : IWord := 0x2E#6 ++ d ++ 0x0#11 ++ v ++ 0x2#6
/-- The word of `fwalk` (R562). -/
def wFwalk (d f a : BitVec 4) : IWord := 0x2E#6 ++ d ++ f ++ 0x0#7 ++ a ++ 0x3#7
/-- The word of `fexpand` (R557). -/
def wFexpand (f : BitVec 4) (v : BitVec 5) : IWord := 0x2E0#10 ++ f ++ 0x0#7 ++ v ++ 0x4#6
/-- The word of `fpack` (R557). -/
def wFpack (d : BitVec 4) (m : BitVec 3) (v : BitVec 5) : IWord := 0x2E#6 ++ d ++ 0x0#8 ++ m ++ v ++ 0x5#6
/-- The word of `fsetl` (R565). -/
def wFsetl (f : BitVec 4) (s : BitVec 3) (x : BitVec 5) : IWord := 0x2E0#10 ++ f ++ 0x0#4 ++ s ++ x ++ 0x6#6
/-- The word of `focc` (R557). -/
def wFocc (f : BitVec 4) (x : BitVec 5) : IWord := 0x2E0#10 ++ f ++ 0x0#7 ++ x ++ 0x7#6
/-- The word of `fcoord` (R557). -/
def wFcoord (f : BitVec 4) (v : BitVec 5) : IWord := 0x2E0#10 ++ f ++ 0x0#7 ++ v ++ 0x8#6
/-- The word of `fval` (R557). -/
def wFval (f : BitVec 4) (v : BitVec 5) : IWord := 0x2E0#10 ++ f ++ 0x0#7 ++ v ++ 0x9#6
/-- The word of `fmv` (R557). -/
def wFmv (d f : BitVec 4) : IWord := 0x2E#6 ++ d ++ f ++ 0xA#18
/-- The word of `fclr` (R557). -/
def wFclr (d : BitVec 4) : IWord := 0x2E#6 ++ d ++ 0xB#22
/-- The word of `mzero` (R575). -/
def wMzero (n : BitVec 2) : IWord := 0x2F#6 ++ n ++ 0x0#24
/-- The word of `mopo` (R572). -/
def wMopo (n : BitVec 2) (a b : BitVec 5) (r c f : BitVec 3) : IWord := 0x2F#6 ++ n ++ a ++ b ++ r ++ c ++ f ++ 0x1#5
/-- The word of `mopob` (R572). -/
def wMopob (n : BitVec 2) (a b : BitVec 5) (r c f : BitVec 3) : IWord := 0x2F#6 ++ n ++ a ++ b ++ r ++ c ++ f ++ 0x11#5
/-- The word of `mopr` (R572). -/
def wMopr (n : BitVec 2) (a b : BitVec 5) (r c f : BitVec 3) : IWord := 0x2F#6 ++ n ++ a ++ b ++ r ++ c ++ f ++ 0x2#5
/-- The word of `moprb` (R572). -/
def wMoprb (n : BitVec 2) (a b : BitVec 5) (r c f : BitVec 3) : IWord := 0x2F#6 ++ n ++ a ++ b ++ r ++ c ++ f ++ 0x12#5
/-- The word of `mopi` (R572). -/
def wMopi (n : BitVec 2) (a b : BitVec 5) (r c : BitVec 3) (f : BitVec 1) : IWord := 0x2F#6 ++ n ++ a ++ b ++ r ++ c ++ 0x3#2 ++ f ++ 0x3#5
/-- The word of `mops` (R573). -/
def wMops (n : BitVec 2) (a b : BitVec 5) (r c f : BitVec 3) : IWord := 0x2F#6 ++ n ++ a ++ b ++ r ++ c ++ f ++ 0x4#5
/-- The word of `mopsb` (R573). -/
def wMopsb (n : BitVec 2) (a b : BitVec 5) (r c f : BitVec 3) : IWord := 0x2F#6 ++ n ++ a ++ b ++ r ++ c ++ f ++ 0x14#5
/-- The word of `mtv` (R576). -/
def wMtv (n : BitVec 2) (d x : BitVec 5) : IWord := 0x2F#6 ++ n ++ d ++ x ++ 0x5#14
/-- The word of `mtvc` (R576). -/
def wMtvc (n : BitVec 2) (d x : BitVec 5) : IWord := 0x2F#6 ++ n ++ d ++ x ++ 0x25#14
/-- The word of `mvt` (R576). -/
def wMvt (n : BitVec 2) (a x : BitVec 5) : IWord := 0x2F#6 ++ n ++ a ++ x ++ 0x6#14
/-- The word of `mvtc` (R576). -/
def wMvtc (n : BitVec 2) (a x : BitVec 5) : IWord := 0x2F#6 ++ n ++ a ++ x ++ 0x26#14
/-- The word of `mld` (R577). -/
def wMld (n : BitVec 2) (a b : BitVec 5) : IWord := 0x2F#6 ++ n ++ a ++ b ++ 0x7#14
/-- The word of `mst` (R577). -/
def wMst (n : BitVec 2) (a b : BitVec 5) : IWord := 0x2F#6 ++ n ++ a ++ b ++ 0x8#14
/-- The word of `mgang` (R579). -/
def wMgang : IWord := 0xBC000009#32
/-- The word of `mgsync` (R581). -/
def wMgsync : IWord := 0xBC00000A#32
/-- The word of `fence` (R336). -/
def wFence (s : BitVec 3) : IWord := 0xC000#16 ++ s ++ 0x0#13
/-- The word of `fsc` (R344). -/
def wFsc : IWord := 0xC0000001#32
/-- The word of `lsync` (R338). -/
def wLsync : IWord := 0xC0000002#32
/-- The word of `gbar` (R589). -/
def wGbar (s : BitVec 3) : IWord := 0xC000#16 ++ s ++ 0x3#13
/-- The word of `wfp` (R593). -/
def wWfp (a b d : BitVec 5) : IWord := 0x30#6 ++ a ++ b ++ 0x0#3 ++ d ++ 0x4#8
/-- The word of `eqpop` (R594). -/
def wEqpop (a d : BitVec 5) : IWord := 0x30#6 ++ a ++ 0x0#8 ++ d ++ 0x5#8
/-- The word of `acqm` (R348). -/
def wAcqm (n : BitVec 3) : IWord := 0xC0#8 ++ n ++ 0x6#21
/-- The word of `drainw` (R595). -/
def wDrainw (d : BitVec 5) : IWord := 0x60000#19 ++ d ++ 0x7#8
/-- The word of `vamoadd` (R598). -/
def wVamoadd (d a x : BitVec 5) (m : BitVec 3) : IWord := 0x31#6 ++ d ++ a ++ x ++ m ++ 0x0#8
/-- The word of `vamoand` (R598). -/
def wVamoand (d a x : BitVec 5) (m : BitVec 3) : IWord := 0x31#6 ++ d ++ a ++ x ++ m ++ 0x1#8
/-- The word of `vamoor` (R598). -/
def wVamoor (d a x : BitVec 5) (m : BitVec 3) : IWord := 0x31#6 ++ d ++ a ++ x ++ m ++ 0x2#8
/-- The word of `vamoxor` (R598). -/
def wVamoxor (d a x : BitVec 5) (m : BitVec 3) : IWord := 0x31#6 ++ d ++ a ++ x ++ m ++ 0x3#8
/-- The word of `vamomin` (R598). -/
def wVamomin (d a x : BitVec 5) (m : BitVec 3) : IWord := 0x31#6 ++ d ++ a ++ x ++ m ++ 0x4#8
/-- The word of `vamomax` (R598). -/
def wVamomax (d a x : BitVec 5) (m : BitVec 3) : IWord := 0x31#6 ++ d ++ a ++ x ++ m ++ 0x5#8
/-- The word of `vamominu` (R598). -/
def wVamominu (d a x : BitVec 5) (m : BitVec 3) : IWord := 0x31#6 ++ d ++ a ++ x ++ m ++ 0x6#8
/-- The word of `vamomaxu` (R598). -/
def wVamomaxu (d a x : BitVec 5) (m : BitVec 3) : IWord := 0x31#6 ++ d ++ a ++ x ++ m ++ 0x7#8
/-- The word of `vamoswap` (R598). -/
def wVamoswap (d a x : BitVec 5) (m : BitVec 3) : IWord := 0x31#6 ++ d ++ a ++ x ++ m ++ 0x8#8
/-- The word of `vamofadd` (R598). -/
def wVamofadd (d a x : BitVec 5) (m : BitVec 3) : IWord := 0x31#6 ++ d ++ a ++ x ++ m ++ 0x9#8
/-- The word of `vsca` (R601). -/
def wVsca (d a x : BitVec 5) (m : BitVec 3) : IWord := 0x31#6 ++ d ++ a ++ x ++ m ++ 0x10#8
/-- The word of `vscamax` (R601). -/
def wVscamax (d a x : BitVec 5) (m : BitVec 3) : IWord := 0x31#6 ++ d ++ a ++ x ++ m ++ 0x11#8
/-- The word of `vscamin` (R601). -/
def wVscamin (d a x : BitVec 5) (m : BitVec 3) : IWord := 0x31#6 ++ d ++ a ++ x ++ m ++ 0x12#8
/-- The word of `vscao` (R603). -/
def wVscao (d a x : BitVec 5) (m : BitVec 3) : IWord := 0x31#6 ++ d ++ a ++ x ++ m ++ 0x13#8
/-- The word of `tsk` (R604). -/
def wTsk (a b d : BitVec 5) : IWord := 0x32#6 ++ a ++ b ++ 0x0#3 ++ d ++ 0x0#8
/-- The word of `tqget` (R605). -/
def wTqget (c s : BitVec 5) : IWord := 0x32#6 ++ c ++ 0x0#8 ++ s ++ 0x1#8
/-- The word of `gtime` (R606). -/
def wGtime (d : BitVec 5) : IWord := 0x64000#19 ++ d ++ 0x2#8
/-- The word of `gwait` (R607). -/
def wGwait (a d : BitVec 5) : IWord := 0x32#6 ++ a ++ 0x0#8 ++ d ++ 0x3#8
/-- The word of `hbeat` (R608). -/
def wHbeat (a d : BitVec 5) : IWord := 0x32#6 ++ a ++ 0x0#8 ++ d ++ 0x4#8
/-- The word of `tdone` (R609). -/
def wTdone : IWord := 0xC8000005#32
/-- The word of `tmop` (R441). -/
def wTmop (n : BitVec 2) (a b : BitVec 5) : IWord := 0x3E#6 ++ n ++ a ++ b ++ 0x0#14
/-- The word of `tmzero` (R441). -/
def wTmzero (n : BitVec 2) : IWord := 0x3F#6 ++ n ++ 0x0#24

/-- The word of an instruction (R402); an event has none. -/
def encode : Instr → Option IWord
  | .pfx p n c v g f t e z => some (wPfx p n c v g f t e z)
  | .add d a b => some (wAdd d a b)
  | .sub d a b => some (wSub d a b)
  | .and d a b => some (wAnd d a b)
  | .or d a b => some (wOr d a b)
  | .xor d a b => some (wXor d a b)
  | .sll d a b => some (wSll d a b)
  | .srl d a b => some (wSrl d a b)
  | .sra d a b => some (wSra d a b)
  | .slt d a b => some (wSlt d a b)
  | .sltu d a b => some (wSltu d a b)
  | .min d a b => some (wMin d a b)
  | .max d a b => some (wMax d a b)
  | .minu d a b => some (wMinu d a b)
  | .maxu d a b => some (wMaxu d a b)
  | .mul d a b => some (wMul d a b)
  | .mulh d a b => some (wMulh d a b)
  | .mulhu d a b => some (wMulhu d a b)
  | .div d a b => some (wDiv d a b)
  | .divu d a b => some (wDivu d a b)
  | .rem d a b => some (wRem d a b)
  | .remu d a b => some (wRemu d a b)
  | .clz d a => some (wClz d a)
  | .ctz d a => some (wCtz d a)
  | .popc d a => some (wPopc d a)
  | .sext d a b => some (wSext d a b)
  | .zext d a b => some (wZext d a b)
  | .brev d a => some (wBrev d a)
  | .addi d a i => some (wAddi d a i)
  | .andi d a i => some (wAndi d a i)
  | .ori d a i => some (wOri d a i)
  | .xori d a i => some (wXori d a i)
  | .slti d a i => some (wSlti d a i)
  | .sltiu d a i => some (wSltiu d a i)
  | .lhi d i => some (wLhi d i)
  | .adpc d i => some (wAdpc d i)
  | .slli d a s => some (wSlli d a s)
  | .srli d a s => some (wSrli d a s)
  | .srai d a s => some (wSrai d a s)
  | .roli d a s => some (wRoli d a s)
  | .fadd d a b t r => some (wFadd d a b t r)
  | .fsub d a b t r => some (wFsub d a b t r)
  | .fmul d a b t r => some (wFmul d a b t r)
  | .fdiv d a b t r => some (wFdiv d a b t r)
  | .fsqrt d a t r => some (wFsqrt d a t r)
  | .fmin d a b t => some (wFmin d a b t)
  | .fmax d a b t => some (wFmax d a b t)
  | .fmadd d a b t r => some (wFmadd d a b t r)
  | .feq d a b t => some (wFeq d a b t)
  | .flt d a b t => some (wFlt d a b t)
  | .fle d a b t => some (wFle d a b t)
  | .fclass d a t => some (wFclass d a t)
  | .fcvif d a i t r => some (wFcvif d a i t r)
  | .fcvfi d a i t r => some (wFcvfi d a i t r)
  | .fcvff d a s t r => some (wFcvff d a s t r)
  | .ld d b w o => some (wLd d b w o)
  | .st s b w o => some (wSt s b w o)
  | .amoadd d a b z q l c => some (wAmoadd d a b z q l c)
  | .amoand d a b z q l c => some (wAmoand d a b z q l c)
  | .amoor d a b z q l c => some (wAmoor d a b z q l c)
  | .amoxor d a b z q l c => some (wAmoxor d a b z q l c)
  | .amomin d a b z q l c => some (wAmomin d a b z q l c)
  | .amomax d a b z q l c => some (wAmomax d a b z q l c)
  | .amominu d a b z q l c => some (wAmominu d a b z q l c)
  | .amomaxu d a b z q l c => some (wAmomaxu d a b z q l c)
  | .amoswap d a b z q l c => some (wAmoswap d a b z q l c)
  | .amocas d a b z q l c => some (wAmocas d a b z q l c)
  | .amofadd d a b z q l c => some (wAmofadd d a b z q l c)
  | .ldr d a z => some (wLdr d a z)
  | .stc d a b z => some (wStc d a b z)
  | .beq a b i => some (wBeq a b i)
  | .bne a b i => some (wBne a b i)
  | .blt a b i => some (wBlt a b i)
  | .bge a b i => some (wBge a b i)
  | .bltu a b i => some (wBltu a b i)
  | .bgeu a b i => some (wBgeu a b i)
  | .jmp i => some (wJmp i)
  | .call i => some (wCall i)
  | .jalr d a => some (wJalr d a)
  | .ret => some (wRet)
  | .callr a => some (wCallr a)
  | .loop l c n => some (wLoop l c n)
  | .svc i => some (wSvc i)
  | .brk i => some (wBrk i)
  | .eret => some (wEret)
  | .wfe => some (wWfe)
  | .ifence => some (wIfence)
  | .tinv a => some (wTinv a)
  | .tinva => some (wTinva)
  | .emuret => some (wEmuret)
  | .evsig a => some (wEvsig a)
  | .yield => some (wYield)
  | .crr d c => some (wCrr d c)
  | .crw d a c => some (wCrw d a c)
  | .crs d a c => some (wCrs d a c)
  | .crc d a c => some (wCrc d a c)
  | .smac d a b => some (wSmac d a b)
  | .smacz d a b => some (wSmacz d a b)
  | .setvl d a e g t => some (wSetvl d a e g t)
  | .setlens d a b e g t => some (wSetlens d a b e g t)
  | .setvlp d a b => some (wSetvlp d a b)
  | .mstart => some (wMstart)
  | .mstop t => some (wMstop t)
  | .mcfg a t => some (wMcfg a t)
  | .vrelease d t => some (wVrelease d t)
  | .vld d b m c w x => some (wVld d b m c w x)
  | .vlds d b r m w x => some (wVlds d b r m w x)
  | .vldx d b i m w x => some (wVldx d b i m w x)
  | .vldxo d b i m c w x => some (wVldxo d b i m c w x)
  | .vst s b m c n w => some (wVst s b m c n w)
  | .vsts s b r m n w => some (wVsts s b r m n w)
  | .vstx s b i m n w => some (wVstx s b i m n w)
  | .vstxo s b i m c n w => some (wVstxo s b i m c n w)
  | .sbind n a => some (wSbind n a)
  | .sunbind n => some (wSunbind n)
  | .spos n a => some (wSpos n a)
  | .gsp d s i m => some (wGsp d s i m)
  | .ssp d s i m => some (wSsp d s i m)
  | .cpy a m => some (wCpy a m)
  | .cpyr a m => some (wCpyr a m)
  | .capp d a b m => some (wCapp d a b m)
  | .vlm r a => some (wVlm r a)
  | .vsm r a => some (wVsm r a)
  | .cwait d => some (wCwait d)
  | .vaddVv d a b m p => some (wVaddVv d a b m p)
  | .vaddVx d a x m => some (wVaddVx d a x m)
  | .vsubVv d a b m p => some (wVsubVv d a b m p)
  | .vsubVx d a x m => some (wVsubVx d a x m)
  | .vrsubVx d a x m => some (wVrsubVx d a x m)
  | .vmulVv d a b m p => some (wVmulVv d a b m p)
  | .vmulVx d a x m => some (wVmulVx d a x m)
  | .vmulhVv d a b m p => some (wVmulhVv d a b m p)
  | .vmulhVx d a x m => some (wVmulhVx d a x m)
  | .vmulhuVv d a b m p => some (wVmulhuVv d a b m p)
  | .vmulhuVx d a x m => some (wVmulhuVx d a x m)
  | .vdivVv d a b m p => some (wVdivVv d a b m p)
  | .vdivVx d a x m => some (wVdivVx d a x m)
  | .vdivuVv d a b m p => some (wVdivuVv d a b m p)
  | .vdivuVx d a x m => some (wVdivuVx d a x m)
  | .vremVv d a b m p => some (wVremVv d a b m p)
  | .vremVx d a x m => some (wVremVx d a x m)
  | .vremuVv d a b m p => some (wVremuVv d a b m p)
  | .vremuVx d a x m => some (wVremuVx d a x m)
  | .vminVv d a b m p => some (wVminVv d a b m p)
  | .vminVx d a x m => some (wVminVx d a x m)
  | .vmaxVv d a b m p => some (wVmaxVv d a b m p)
  | .vmaxVx d a x m => some (wVmaxVx d a x m)
  | .vminuVv d a b m p => some (wVminuVv d a b m p)
  | .vminuVx d a x m => some (wVminuVx d a x m)
  | .vmaxuVv d a b m p => some (wVmaxuVv d a b m p)
  | .vmaxuVx d a x m => some (wVmaxuVx d a x m)
  | .vandVv d a b m p => some (wVandVv d a b m p)
  | .vandVx d a x m => some (wVandVx d a x m)
  | .vorVv d a b m p => some (wVorVv d a b m p)
  | .vorVx d a x m => some (wVorVx d a x m)
  | .vxorVv d a b m p => some (wVxorVv d a b m p)
  | .vxorVx d a x m => some (wVxorVx d a x m)
  | .vsllVv d a b m p => some (wVsllVv d a b m p)
  | .vsllVx d a x m => some (wVsllVx d a x m)
  | .vsrlVv d a b m p => some (wVsrlVv d a b m p)
  | .vsrlVx d a x m => some (wVsrlVx d a x m)
  | .vsraVv d a b m p => some (wVsraVv d a b m p)
  | .vsraVx d a x m => some (wVsraVx d a x m)
  | .vsaddVv d a b m p => some (wVsaddVv d a b m p)
  | .vsaddVx d a x m => some (wVsaddVx d a x m)
  | .vsadduVv d a b m p => some (wVsadduVv d a b m p)
  | .vsadduVx d a x m => some (wVsadduVx d a x m)
  | .vssubVv d a b m p => some (wVssubVv d a b m p)
  | .vssubVx d a x m => some (wVssubVx d a x m)
  | .vssubuVv d a b m p => some (wVssubuVv d a b m p)
  | .vssubuVx d a x m => some (wVssubuVx d a x m)
  | .vabs d a m => some (wVabs d a m)
  | .vmaccVv d a b m p => some (wVmaccVv d a b m p)
  | .vmaccVx d a x m => some (wVmaccVx d a x m)
  | .vselVv d a b m p => some (wVselVv d a b m p)
  | .vselVx d a x m => some (wVselVx d a x m)
  | .vmvVv d a m => some (wVmvVv d a m)
  | .vmvVx d x m => some (wVmvVx d x m)
  | .vpopc d a m => some (wVpopc d a m)
  | .vclz d a m => some (wVclz d a m)
  | .vpcp d a m => some (wVpcp d a m)
  | .vid d m => some (wVid d m)
  | .vextVv d a b m p => some (wVextVv d a b m p)
  | .vextVx d a x m => some (wVextVx d a x m)
  | .vinsVv d a b m p => some (wVinsVv d a b m p)
  | .vinsVx d a x m => some (wVinsVx d a x m)
  | .vabsdVv d a b m p => some (wVabsdVv d a b m p)
  | .vabsdVx d a x m => some (wVabsdVx d a x m)
  | .vaaddVv d a b m => some (wVaaddVv d a b m)
  | .vaaddVx d a x m => some (wVaaddVx d a x m)
  | .vaadduVv d a b m => some (wVaadduVv d a b m)
  | .vaadduVx d a x m => some (wVaadduVx d a x m)
  | .vasubVv d a b m => some (wVasubVv d a b m)
  | .vasubVx d a x m => some (wVasubVx d a x m)
  | .vasubuVv d a b m => some (wVasubuVv d a b m)
  | .vasubuVx d a x m => some (wVasubuVx d a x m)
  | .vfaddVv d a b m p => some (wVfaddVv d a b m p)
  | .vfaddVx d a x m => some (wVfaddVx d a x m)
  | .vfsubVv d a b m p => some (wVfsubVv d a b m p)
  | .vfsubVx d a x m => some (wVfsubVx d a x m)
  | .vfrsubVx d a x m => some (wVfrsubVx d a x m)
  | .vfmulVv d a b m p => some (wVfmulVv d a b m p)
  | .vfmulVx d a x m => some (wVfmulVx d a x m)
  | .vfdivVv d a b m p => some (wVfdivVv d a b m p)
  | .vfdivVx d a x m => some (wVfdivVx d a x m)
  | .vfrdivVx d a x m => some (wVfrdivVx d a x m)
  | .vfsqrt d a m => some (wVfsqrt d a m)
  | .vfmaVv d a b m p => some (wVfmaVv d a b m p)
  | .vfmaVx d a x m => some (wVfmaVx d a x m)
  | .vfmsVv d a b m p => some (wVfmsVv d a b m p)
  | .vfmsVx d a x m => some (wVfmsVx d a x m)
  | .vfnmaVv d a b m p => some (wVfnmaVv d a b m p)
  | .vfnmaVx d a x m => some (wVfnmaVx d a x m)
  | .vfminVv d a b m p => some (wVfminVv d a b m p)
  | .vfminVx d a x m => some (wVfminVx d a x m)
  | .vfmaxVv d a b m p => some (wVfmaxVv d a b m p)
  | .vfmaxVx d a x m => some (wVfmaxVx d a x m)
  | .vfabs d a m => some (wVfabs d a m)
  | .vfneg d a m => some (wVfneg d a m)
  | .vfrcp d a m => some (wVfrcp d a m)
  | .vfrsqrt d a m => some (wVfrsqrt d a m)
  | .vfsgnVv d a b m p => some (wVfsgnVv d a b m p)
  | .vfsgnVx d a x m => some (wVfsgnVx d a x m)
  | .vfclass d a m => some (wVfclass d a m)
  | .vfexp2 d a m => some (wVfexp2 d a m)
  | .vflog2 d a m => some (wVflog2 d a m)
  | .vfsat d a m => some (wVfsat d a m)
  | .vcmpVv d a b m p c t => some (wVcmpVv d a b m p c t)
  | .vcmpVx d a x m c t => some (wVcmpVx d a x m c t)
  | .mand d a b m => some (wMand d a b m)
  | .mor d a b m => some (wMor d a b m)
  | .mxor d a b m => some (wMxor d a b m)
  | .mandn d a b m => some (wMandn d a b m)
  | .mnot d a m => some (wMnot d a m)
  | .mmv d a m => some (wMmv d a m)
  | .mset d m => some (wMset d m)
  | .mclr d m => some (wMclr d m)
  | .mpop d a m => some (wMpop d a m)
  | .mfirst d a m => some (wMfirst d a m)
  | .mlast d a m => some (wMlast d a m)
  | .mbefore d a m => some (wMbefore d a m)
  | .mincl d a m => some (wMincl d a m)
  | .monly d a m => some (wMonly d a m)
  | .mtov d a m => some (wMtov d a m)
  | .vtom d a m => some (wVtom d a m)
  | .vcompress d a m => some (wVcompress d a m)
  | .vexpand d a m => some (wVexpand d a m)
  | .vslideup d a x m => some (wVslideup d a x m)
  | .vslidedn d a x m => some (wVslidedn d a x m)
  | .vgath d a b m => some (wVgath d a b m)
  | .vrev d a m => some (wVrev d a m)
  | .vtr d a m => some (wVtr d a m)
  | .vrelay d => some (wVrelay d)
  | .vzip d a b m => some (wVzip d a b m)
  | .vunzip d a m => some (wVunzip d a m)
  | .vrowmv d a x m => some (wVrowmv d a x m)
  | .vredsum d a b m => some (wVredsum d a b m)
  | .vredsumt d a b m => some (wVredsumt d a b m)
  | .vredmin d a b m => some (wVredmin d a b m)
  | .vredmax d a b m => some (wVredmax d a b m)
  | .vredand d a b m => some (wVredand d a b m)
  | .vredor d a b m => some (wVredor d a b m)
  | .vredxor d a b m => some (wVredxor d a b m)
  | .vredminu d a b m => some (wVredminu d a b m)
  | .vredmaxu d a b m => some (wVredmaxu d a b m)
  | .vfredsum d a b m => some (wVfredsum d a b m)
  | .vfredsumt d a b m => some (wVfredsumt d a b m)
  | .vfredmax d a b m => some (wVfredmax d a b m)
  | .vfredmin d a b m => some (wVfredmin d a b m)
  | .vscan d a b m => some (wVscan d a b m)
  | .vscanx d a b m => some (wVscanx d a b m)
  | .vfscan d a b m => some (wVfscan d a b m)
  | .vkswap d a b m => some (wVkswap d a b m)
  | .vkswapi d a x m => some (wVkswapi d a x m)
  | .vcvt d a m => some (wVcvt d a m)
  | .vcvtr d a r m => some (wVcvtr d a r m)
  | .vqbs d a b m => some (wVqbs d a b m)
  | .vdqbs d a b m => some (wVdqbs d a b m)
  | .fisect d a b c => some (wFisect d a b c)
  | .fisectb d a b => some (wFisectb d a b)
  | .funion d a b c => some (wFunion d a b c)
  | .fmerge d a b c => some (wFmerge d a b c)
  | .fsort d a => some (wFsort d a)
  | .fcompact d a m => some (wFcompact d a m)
  | .fdiff d a b => some (wFdiff d a b)
  | .fdedup d a c => some (wFdedup d a c)
  | .fld d a => some (wFld d a)
  | .fst f a => some (wFst f a)
  | .fbm d v => some (wFbm d v)
  | .fwalk d f a => some (wFwalk d f a)
  | .fexpand f v => some (wFexpand f v)
  | .fpack d m v => some (wFpack d m v)
  | .fsetl f s x => some (wFsetl f s x)
  | .focc f x => some (wFocc f x)
  | .fcoord f v => some (wFcoord f v)
  | .fval f v => some (wFval f v)
  | .fmv d f => some (wFmv d f)
  | .fclr d => some (wFclr d)
  | .mzero n => some (wMzero n)
  | .mopo n a b r c f => some (wMopo n a b r c f)
  | .mopob n a b r c f => some (wMopob n a b r c f)
  | .mopr n a b r c f => some (wMopr n a b r c f)
  | .moprb n a b r c f => some (wMoprb n a b r c f)
  | .mopi n a b r c f => some (wMopi n a b r c f)
  | .mops n a b r c f => some (wMops n a b r c f)
  | .mopsb n a b r c f => some (wMopsb n a b r c f)
  | .mtv n d x => some (wMtv n d x)
  | .mtvc n d x => some (wMtvc n d x)
  | .mvt n a x => some (wMvt n a x)
  | .mvtc n a x => some (wMvtc n a x)
  | .mld n a b => some (wMld n a b)
  | .mst n a b => some (wMst n a b)
  | .mgang => some (wMgang)
  | .mgsync => some (wMgsync)
  | .fence s => some (wFence s)
  | .fsc => some (wFsc)
  | .lsync => some (wLsync)
  | .gbar s => some (wGbar s)
  | .wfp a b d => some (wWfp a b d)
  | .eqpop a d => some (wEqpop a d)
  | .acqm n => some (wAcqm n)
  | .drainw d => some (wDrainw d)
  | .vamoadd d a x m => some (wVamoadd d a x m)
  | .vamoand d a x m => some (wVamoand d a x m)
  | .vamoor d a x m => some (wVamoor d a x m)
  | .vamoxor d a x m => some (wVamoxor d a x m)
  | .vamomin d a x m => some (wVamomin d a x m)
  | .vamomax d a x m => some (wVamomax d a x m)
  | .vamominu d a x m => some (wVamominu d a x m)
  | .vamomaxu d a x m => some (wVamomaxu d a x m)
  | .vamoswap d a x m => some (wVamoswap d a x m)
  | .vamofadd d a x m => some (wVamofadd d a x m)
  | .vsca d a x m => some (wVsca d a x m)
  | .vscamax d a x m => some (wVscamax d a x m)
  | .vscamin d a x m => some (wVscamin d a x m)
  | .vscao d a x m => some (wVscao d a x m)
  | .tsk a b d => some (wTsk a b d)
  | .tqget c s => some (wTqget c s)
  | .gtime d => some (wGtime d)
  | .gwait a d => some (wGwait a d)
  | .hbeat a d => some (wHbeat a d)
  | .tdone => some (wTdone)
  | .tmop n a b => some (wTmop n a b)
  | .tmzero n => some (wTmzero n)
  | _ => none

/-- The word of an instruction as ETVAL shows it (R361); 0 for an event, which has none. -/
def wordOf (i : Instr) : IWord := (encode i).getD 0#32

/-- Whether a word of major 0x01 is an instruction (R436). -/
def okMajor01 (w : IWord) : Bool :=
  (w &&& 0xFC000000#32 == 0x04000000#32)

/-- Whether a word of major 0x02 is an instruction (R436). -/
def okMajor02 (w : IWord) : Bool :=
  (w &&& 0xFC0007FF#32 == 0x08000000#32)
  || (w &&& 0xFC0007FF#32 == 0x08000001#32)
  || (w &&& 0xFC0007FF#32 == 0x08000002#32)
  || (w &&& 0xFC0007FF#32 == 0x08000003#32)
  || (w &&& 0xFC0007FF#32 == 0x08000004#32)
  || (w &&& 0xFC0007FF#32 == 0x08000005#32)
  || (w &&& 0xFC0007FF#32 == 0x08000006#32)
  || (w &&& 0xFC0007FF#32 == 0x08000007#32)
  || (w &&& 0xFC0007FF#32 == 0x08000008#32)
  || (w &&& 0xFC0007FF#32 == 0x08000009#32)
  || (w &&& 0xFC0007FF#32 == 0x0800000A#32)
  || (w &&& 0xFC0007FF#32 == 0x0800000B#32)
  || (w &&& 0xFC0007FF#32 == 0x0800000C#32)
  || (w &&& 0xFC0007FF#32 == 0x0800000D#32)
  || (w &&& 0xFC0007FF#32 == 0x08000010#32)
  || (w &&& 0xFC0007FF#32 == 0x08000011#32)
  || (w &&& 0xFC0007FF#32 == 0x08000012#32)
  || (w &&& 0xFC0007FF#32 == 0x08000013#32)
  || (w &&& 0xFC0007FF#32 == 0x08000014#32)
  || (w &&& 0xFC0007FF#32 == 0x08000015#32)
  || (w &&& 0xFC0007FF#32 == 0x08000016#32)
  || (w &&& 0xFC00FFFF#32 == 0x08000018#32)
  || (w &&& 0xFC00FFFF#32 == 0x08000019#32)
  || (w &&& 0xFC00FFFF#32 == 0x0800001A#32)
  || (w &&& 0xFC0007FF#32 == 0x0800001B#32)
  || (w &&& 0xFC0007FF#32 == 0x0800001C#32)
  || (w &&& 0xFC00FFFF#32 == 0x0800001D#32)

/-- Whether a word of major 0x03 is an instruction (R436). -/
def okMajor03 (w : IWord) : Bool :=
  (w &&& 0xFC000000#32 == 0x0C000000#32)

/-- Whether a word of major 0x04 is an instruction (R436). -/
def okMajor04 (w : IWord) : Bool :=
  (w &&& 0xFC000000#32 == 0x10000000#32)

/-- Whether a word of major 0x05 is an instruction (R436). -/
def okMajor05 (w : IWord) : Bool :=
  (w &&& 0xFC000000#32 == 0x14000000#32)

/-- Whether a word of major 0x06 is an instruction (R436). -/
def okMajor06 (w : IWord) : Bool :=
  (w &&& 0xFC000000#32 == 0x18000000#32)

/-- Whether a word of major 0x07 is an instruction (R436). -/
def okMajor07 (w : IWord) : Bool :=
  (w &&& 0xFC000000#32 == 0x1C000000#32)

/-- Whether a word of major 0x08 is an instruction (R436). -/
def okMajor08 (w : IWord) : Bool :=
  (w &&& 0xFC000000#32 == 0x20000000#32)

/-- Whether a word of major 0x09 is an instruction (R436). -/
def okMajor09 (w : IWord) : Bool :=
  (w &&& 0xFC1F0000#32 == 0x24000000#32)

/-- Whether a word of major 0x0A is an instruction (R436). -/
def okMajor0A (w : IWord) : Bool :=
  (w &&& 0xFC1F0000#32 == 0x28000000#32)

/-- Whether a word of major 0x0B is an instruction (R436). -/
def okMajor0B (w : IWord) : Bool :=
  (w &&& 0xFC00C0FF#32 == 0x2C000000#32)
  || (w &&& 0xFC00C0FF#32 == 0x2C004000#32)
  || (w &&& 0xFC00C0FF#32 == 0x2C008000#32)
  || (w &&& 0xFC00C0FF#32 == 0x2C00C000#32)

/-- Whether a word of major 0x0C is an instruction (R436). -/
def okMajor0C (w : IWord) : Bool :=
  (w &&& 0xFC00003F#32 == 0x30000000#32 && (rmOk (w.extractLsb' 6 3)))
  || (w &&& 0xFC00003F#32 == 0x30000001#32 && (rmOk (w.extractLsb' 6 3)))
  || (w &&& 0xFC00003F#32 == 0x30000002#32 && (rmOk (w.extractLsb' 6 3)))
  || (w &&& 0xFC00003F#32 == 0x30000003#32 && (rmOk (w.extractLsb' 6 3)))
  || (w &&& 0xFC00F83F#32 == 0x30000004#32 && (rmOk (w.extractLsb' 6 3)))
  || (w &&& 0xFC0001FF#32 == 0x30000005#32)
  || (w &&& 0xFC0001FF#32 == 0x30000006#32)
  || (w &&& 0xFC00003F#32 == 0x30000007#32 && (rmOk (w.extractLsb' 6 3)))
  || (w &&& 0xFC0001FF#32 == 0x30000008#32)
  || (w &&& 0xFC0001FF#32 == 0x30000009#32)
  || (w &&& 0xFC0001FF#32 == 0x3000000A#32)
  || (w &&& 0xFC00F9FF#32 == 0x3000000B#32)
  || (w &&& 0xFC00803F#32 == 0x30000010#32 && (itOk (w.extractLsb' 11 4) && rmOk (w.extractLsb' 6 3)))
  || (w &&& 0xFC00803F#32 == 0x30000011#32 && (itOk (w.extractLsb' 11 4) && rmOk (w.extractLsb' 6 3)))
  || (w &&& 0xFC00E03F#32 == 0x30000012#32 && ((w.extractLsb' 11 2) != (w.extractLsb' 9 2) && rmOk (w.extractLsb' 6 3)))

/-- Whether a word of major 0x0D is an instruction (R436). -/
def okMajor0D (w : IWord) : Bool :=
  (w &&& 0xFC000000#32 == 0x34000000#32 && ((w.extractLsb' 13 3) != 7#3))

/-- Whether a word of major 0x0E is an instruction (R436). -/
def okMajor0E (w : IWord) : Bool :=
  (w &&& 0xFC008000#32 == 0x38000000#32)

/-- Whether a word of major 0x0F is an instruction (R436). -/
def okMajor0F (w : IWord) : Bool :=
  (w &&& 0xFC00001F#32 == 0x3C000000#32)
  || (w &&& 0xFC00001F#32 == 0x3C000001#32)
  || (w &&& 0xFC00001F#32 == 0x3C000002#32)
  || (w &&& 0xFC00001F#32 == 0x3C000003#32)
  || (w &&& 0xFC00001F#32 == 0x3C000004#32)
  || (w &&& 0xFC00001F#32 == 0x3C000005#32)
  || (w &&& 0xFC00001F#32 == 0x3C000006#32)
  || (w &&& 0xFC00001F#32 == 0x3C000007#32)
  || (w &&& 0xFC00001F#32 == 0x3C000008#32)
  || (w &&& 0xFC00001F#32 == 0x3C000009#32)
  || (w &&& 0xFC00001F#32 == 0x3C00000A#32)
  || (w &&& 0xFC00FBFF#32 == 0x3C00000C#32)
  || (w &&& 0xFC0003FF#32 == 0x3C00000D#32)

/-- Whether a word of major 0x10 is an instruction (R436). -/
def okMajor10 (w : IWord) : Bool :=
  (w &&& 0xFC000000#32 == 0x40000000#32)

/-- Whether a word of major 0x11 is an instruction (R436). -/
def okMajor11 (w : IWord) : Bool :=
  (w &&& 0xFC000000#32 == 0x44000000#32)

/-- Whether a word of major 0x12 is an instruction (R436). -/
def okMajor12 (w : IWord) : Bool :=
  (w &&& 0xFC000000#32 == 0x48000000#32)

/-- Whether a word of major 0x13 is an instruction (R436). -/
def okMajor13 (w : IWord) : Bool :=
  (w &&& 0xFC000000#32 == 0x4C000000#32)

/-- Whether a word of major 0x14 is an instruction (R436). -/
def okMajor14 (w : IWord) : Bool :=
  (w &&& 0xFC000000#32 == 0x50000000#32)

/-- Whether a word of major 0x15 is an instruction (R436). -/
def okMajor15 (w : IWord) : Bool :=
  (w &&& 0xFC000000#32 == 0x54000000#32)

/-- Whether a word of major 0x16 is an instruction (R436). -/
def okMajor16 (w : IWord) : Bool :=
  (w &&& 0xFC000000#32 == 0x58000000#32)

/-- Whether a word of major 0x17 is an instruction (R436). -/
def okMajor17 (w : IWord) : Bool :=
  (w &&& 0xFC000000#32 == 0x5C000000#32)

/-- Whether a word of major 0x18 is an instruction (R436). -/
def okMajor18 (w : IWord) : Bool :=
  (w &&& 0xFC00FFFF#32 == 0x60000000#32)
  || (w &&& 0xFFFFFFFF#32 == 0x60000001#32)
  || (w &&& 0xFFE0FFFF#32 == 0x60000002#32)

/-- Whether a word of major 0x19 is an instruction (R436). -/
def okMajor19 (w : IWord) : Bool :=
  (w &&& 0xFC000000#32 == 0x64000000#32 && ((w.extractLsb' 0 20) != 0#20))

/-- Whether a word of major 0x1A is an instruction (R436). -/
def okMajor1A (w : IWord) : Bool :=
  (w &&& 0xFFFF00FF#32 == 0x68000001#32)
  || (w &&& 0xFFFF00FF#32 == 0x68000002#32)
  || (w &&& 0xFFFFFFFF#32 == 0x68000003#32)
  || (w &&& 0xFFFFFFFF#32 == 0x68000004#32)
  || (w &&& 0xFFFFFFFF#32 == 0x68000005#32)
  || (w &&& 0xFFE0FFFF#32 == 0x68000006#32)
  || (w &&& 0xFFFFFFFF#32 == 0x68000007#32)
  || (w &&& 0xFFFFFFFF#32 == 0x68000008#32)
  || (w &&& 0xFFE0FFFF#32 == 0x68000009#32)
  || (w &&& 0xFFFFFFFF#32 == 0x6800000A#32)

/-- Whether a word of major 0x1B is an instruction (R436). -/
def okMajor1B (w : IWord) : Bool :=
  (w &&& 0xFC1FF000#32 == 0x6C000000#32 && (crListed (w.extractLsb' 0 12)))
  || (w &&& 0xFC00F000#32 == 0x6C004000#32 && (crListed (w.extractLsb' 0 12)))
  || (w &&& 0xFC00F000#32 == 0x6C008000#32 && (crListed (w.extractLsb' 0 12)))
  || (w &&& 0xFC00F000#32 == 0x6C00C000#32 && (crListed (w.extractLsb' 0 12)))

/-- Whether a word of major 0x1C is an instruction (R436). -/
def okMajor1C (w : IWord) : Bool :=
  (w &&& 0xFC0007FF#32 == 0x70000000#32)
  || (w &&& 0xFC0007FF#32 == 0x70000001#32)

/-- Whether a word of major 0x20 is an instruction (R436). -/
def okMajor20 (w : IWord) : Bool :=
  (w &&& 0xFC00F80F#32 == 0x80000000#32)
  || (w &&& 0xFC00000F#32 == 0x80000001#32)
  || (w &&& 0xFC0007FF#32 == 0x80000002#32)
  || (w &&& 0xFFFFFFFF#32 == 0x80000003#32)
  || (w &&& 0xFFFFFFEF#32 == 0x80000004#32)
  || (w &&& 0xFFE0FFEF#32 == 0x80000005#32)
  || (w &&& 0xFC1FFFEF#32 == 0x80000006#32)

/-- Whether a word of major 0x21 is an instruction (R436). -/
def okMajor21 (w : IWord) : Bool :=
  (w &&& 0xFC00F8D1#32 == 0x84000000#32 && (!((w.extractLsb' 1 1) == 1#1 && (w.extractLsb' 2 2) == 3#2)))
  || (w &&& 0xFC0000F1#32 == 0x84000040#32 && (!((w.extractLsb' 1 1) == 1#1 && (w.extractLsb' 2 2) == 3#2)))
  || (w &&& 0xFC0000F1#32 == 0x84000080#32 && (!((w.extractLsb' 1 1) == 1#1 && (w.extractLsb' 2 2) == 3#2)))
  || (w &&& 0xFC0000D1#32 == 0x840000C0#32 && (!((w.extractLsb' 1 1) == 1#1 && (w.extractLsb' 2 2) == 3#2)))

/-- Whether a word of major 0x22 is an instruction (R436). -/
def okMajor22 (w : IWord) : Bool :=
  (w &&& 0xFC00F8C3#32 == 0x88000000#32)
  || (w &&& 0xFC0000E3#32 == 0x88000040#32)
  || (w &&& 0xFC0000E3#32 == 0x88000080#32)
  || (w &&& 0xFC0000C3#32 == 0x880000C0#32)

/-- Whether a word of major 0x23 is an instruction (R436). -/
def okMajor23 (w : IWord) : Bool :=
  (w &&& 0xFC00FFFF#32 == 0x8C000000#32)
  || (w &&& 0xFC1FFFFF#32 == 0x8C000001#32)
  || (w &&& 0xFC00FFFF#32 == 0x8C000002#32)
  || (w &&& 0xFC0000FF#32 == 0x8C000004#32)
  || (w &&& 0xFC0000FF#32 == 0x8C000005#32)
  || (w &&& 0xFFE0F8FF#32 == 0x8C000006#32)
  || (w &&& 0xFFE0F8FF#32 == 0x8C000007#32)
  || (w &&& 0xFC0000FF#32 == 0x8C000008#32)
  || (w &&& 0xFF00FFFF#32 == 0x8C00000A#32)
  || (w &&& 0xFF00FFFF#32 == 0x8C00000B#32)
  || (w &&& 0xFC1FFFFF#32 == 0x8C00000C#32)

/-- Whether a word of major 0x24 is an instruction (R436). -/
def okMajor24 (w : IWord) : Bool :=
  (w &&& 0xFC00003F#32 == 0x90000000#32)
  || (w &&& 0xFC00003F#32 == 0x90000001#32)
  || (w &&& 0xFC00003F#32 == 0x90000003#32)
  || (w &&& 0xFC00003F#32 == 0x90000004#32)
  || (w &&& 0xFC00003F#32 == 0x90000005#32)
  || (w &&& 0xFC00003F#32 == 0x90000006#32)
  || (w &&& 0xFC00003F#32 == 0x90000007#32)
  || (w &&& 0xFC00003F#32 == 0x90000008#32)
  || (w &&& 0xFC00003F#32 == 0x90000009#32)
  || (w &&& 0xFC00003F#32 == 0x9000000A#32)
  || (w &&& 0xFC00003F#32 == 0x9000000B#32)
  || (w &&& 0xFC00003F#32 == 0x9000000C#32)
  || (w &&& 0xFC00003F#32 == 0x9000000D#32)
  || (w &&& 0xFC00003F#32 == 0x9000000E#32)
  || (w &&& 0xFC00003F#32 == 0x9000000F#32)
  || (w &&& 0xFC00003F#32 == 0x90000010#32)
  || (w &&& 0xFC00003F#32 == 0x90000011#32)
  || (w &&& 0xFC00003F#32 == 0x90000012#32)
  || (w &&& 0xFC00003F#32 == 0x90000013#32)
  || (w &&& 0xFC00003F#32 == 0x90000014#32)
  || (w &&& 0xFC00003F#32 == 0x90000015#32)
  || (w &&& 0xFC00003F#32 == 0x90000016#32)
  || (w &&& 0xFC00003F#32 == 0x90000017#32)
  || (w &&& 0xFC00F8FF#32 == 0x90000018#32)
  || (w &&& 0xFC00003F#32 == 0x90000019#32)
  || (w &&& 0xFC00003F#32 == 0x9000001A#32)
  || (w &&& 0xFC00F8FF#32 == 0x9000001B#32)
  || (w &&& 0xFC00F8FF#32 == 0x9000001C#32)
  || (w &&& 0xFC00F8FF#32 == 0x9000001D#32)
  || (w &&& 0xFC00F8FF#32 == 0x9000001E#32)
  || (w &&& 0xFC1FF8FF#32 == 0x9000001F#32)
  || (w &&& 0xFC00003F#32 == 0x90000020#32)
  || (w &&& 0xFC00003F#32 == 0x90000021#32)
  || (w &&& 0xFC00003F#32 == 0x90000022#32)
  || (w &&& 0xFC0000FF#32 == 0x9000003C#32)
  || (w &&& 0xFC0000FF#32 == 0x9000003D#32)
  || (w &&& 0xFC0000FF#32 == 0x9000003E#32)
  || (w &&& 0xFC0000FF#32 == 0x9000003F#32)

/-- Whether a word of major 0x25 is an instruction (R436). -/
def okMajor25 (w : IWord) : Bool :=
  (w &&& 0xFC0000FF#32 == 0x94000000#32)
  || (w &&& 0xFC0000FF#32 == 0x94000001#32)
  || (w &&& 0xFC0000FF#32 == 0x94000002#32)
  || (w &&& 0xFC0000FF#32 == 0x94000003#32)
  || (w &&& 0xFC0000FF#32 == 0x94000004#32)
  || (w &&& 0xFC0000FF#32 == 0x94000005#32)
  || (w &&& 0xFC0000FF#32 == 0x94000006#32)
  || (w &&& 0xFC0000FF#32 == 0x94000007#32)
  || (w &&& 0xFC0000FF#32 == 0x94000008#32)
  || (w &&& 0xFC0000FF#32 == 0x94000009#32)
  || (w &&& 0xFC0000FF#32 == 0x9400000A#32)
  || (w &&& 0xFC0000FF#32 == 0x9400000B#32)
  || (w &&& 0xFC0000FF#32 == 0x9400000C#32)
  || (w &&& 0xFC0000FF#32 == 0x9400000D#32)
  || (w &&& 0xFC0000FF#32 == 0x9400000E#32)
  || (w &&& 0xFC0000FF#32 == 0x9400000F#32)
  || (w &&& 0xFC0000FF#32 == 0x94000010#32)
  || (w &&& 0xFC0000FF#32 == 0x94000011#32)
  || (w &&& 0xFC0000FF#32 == 0x94000012#32)
  || (w &&& 0xFC0000FF#32 == 0x94000013#32)
  || (w &&& 0xFC0000FF#32 == 0x94000014#32)
  || (w &&& 0xFC0000FF#32 == 0x94000015#32)
  || (w &&& 0xFC0000FF#32 == 0x94000016#32)
  || (w &&& 0xFC0000FF#32 == 0x94000017#32)
  || (w &&& 0xFC0000FF#32 == 0x94000019#32)
  || (w &&& 0xFC0000FF#32 == 0x9400001A#32)
  || (w &&& 0xFC1F00FF#32 == 0x9400001B#32)
  || (w &&& 0xFC0000FF#32 == 0x94000020#32)
  || (w &&& 0xFC0000FF#32 == 0x94000021#32)
  || (w &&& 0xFC0000FF#32 == 0x94000022#32)
  || (w &&& 0xFC0000FF#32 == 0x9400003C#32)
  || (w &&& 0xFC0000FF#32 == 0x9400003D#32)
  || (w &&& 0xFC0000FF#32 == 0x9400003E#32)
  || (w &&& 0xFC0000FF#32 == 0x9400003F#32)

/-- Whether a word of major 0x26 is an instruction (R436). -/
def okMajor26 (w : IWord) : Bool :=
  (w &&& 0xFC00003F#32 == 0x98000000#32)
  || (w &&& 0xFC00003F#32 == 0x98000001#32)
  || (w &&& 0xFC00003F#32 == 0x98000003#32)
  || (w &&& 0xFC00003F#32 == 0x98000004#32)
  || (w &&& 0xFC00F8FF#32 == 0x98000006#32)
  || (w &&& 0xFC00003F#32 == 0x98000007#32)
  || (w &&& 0xFC00003F#32 == 0x98000008#32)
  || (w &&& 0xFC00003F#32 == 0x98000009#32)
  || (w &&& 0xFC00003F#32 == 0x9800000A#32)
  || (w &&& 0xFC00003F#32 == 0x9800000B#32)
  || (w &&& 0xFC00F8FF#32 == 0x9800000C#32)
  || (w &&& 0xFC00F8FF#32 == 0x9800000D#32)
  || (w &&& 0xFC00F8FF#32 == 0x9800000E#32)
  || (w &&& 0xFC00F8FF#32 == 0x9800000F#32)
  || (w &&& 0xFC00003F#32 == 0x98000010#32)
  || (w &&& 0xFC00F8FF#32 == 0x98000011#32)
  || (w &&& 0xFC00F8FF#32 == 0x98000012#32)
  || (w &&& 0xFC00F8FF#32 == 0x98000013#32)
  || (w &&& 0xFC00F8FF#32 == 0x98000014#32)

/-- Whether a word of major 0x27 is an instruction (R436). -/
def okMajor27 (w : IWord) : Bool :=
  (w &&& 0xFC0000FF#32 == 0x9C000000#32)
  || (w &&& 0xFC0000FF#32 == 0x9C000001#32)
  || (w &&& 0xFC0000FF#32 == 0x9C000002#32)
  || (w &&& 0xFC0000FF#32 == 0x9C000003#32)
  || (w &&& 0xFC0000FF#32 == 0x9C000004#32)
  || (w &&& 0xFC0000FF#32 == 0x9C000005#32)
  || (w &&& 0xFC0000FF#32 == 0x9C000007#32)
  || (w &&& 0xFC0000FF#32 == 0x9C000008#32)
  || (w &&& 0xFC0000FF#32 == 0x9C000009#32)
  || (w &&& 0xFC0000FF#32 == 0x9C00000A#32)
  || (w &&& 0xFC0000FF#32 == 0x9C00000B#32)
  || (w &&& 0xFC0000FF#32 == 0x9C000010#32)

/-- Whether a word of major 0x28 is an instruction (R436). -/
def okMajor28 (w : IWord) : Bool :=
  (w &&& 0xFF000001#32 == 0xA0000000#32 && ((w.extractLsb' 21 3) != 0#3 && !(6 ≤ (w.extractLsb' 3 3).toNat && (w.extractLsb' 1 2).toNat < 2)))
  || (w &&& 0xFF0000C1#32 == 0xA0000001#32 && ((w.extractLsb' 21 3) != 0#3 && !(6 ≤ (w.extractLsb' 3 3).toNat && (w.extractLsb' 1 2).toNat < 2)))

/-- Whether a word of major 0x29 is an instruction (R436). -/
def okMajor29 (w : IWord) : Bool :=
  (w &&& 0xFF18C0FF#32 == 0xA4000000#32)
  || (w &&& 0xFF18C0FF#32 == 0xA4000001#32)
  || (w &&& 0xFF18C0FF#32 == 0xA4000002#32)
  || (w &&& 0xFF18C0FF#32 == 0xA4000003#32)
  || (w &&& 0xFF18F8FF#32 == 0xA4000004#32)
  || (w &&& 0xFF18F8FF#32 == 0xA4000005#32)
  || (w &&& 0xFF1FF8FF#32 == 0xA4000006#32)
  || (w &&& 0xFF1FF8FF#32 == 0xA4000007#32)
  || (w &&& 0xFC18F8FF#32 == 0xA4000008#32)
  || (w &&& 0xFC18F8FF#32 == 0xA4000009#32)
  || (w &&& 0xFC18F8FF#32 == 0xA400000A#32)
  || (w &&& 0xFF18F8FF#32 == 0xA400000B#32)
  || (w &&& 0xFF18F8FF#32 == 0xA400000C#32)
  || (w &&& 0xFF18F8FF#32 == 0xA400000D#32)
  || (w &&& 0xFC18F8FF#32 == 0xA400000E#32)
  || (w &&& 0xFF00F8FF#32 == 0xA400000F#32)

/-- Whether a word of major 0x2A is an instruction (R436). -/
def okMajor2A (w : IWord) : Bool :=
  (w &&& 0xFC00F8FF#32 == 0xA8000000#32)
  || (w &&& 0xFC00F8FF#32 == 0xA8000001#32)
  || (w &&& 0xFC0000FF#32 == 0xA8000002#32)
  || (w &&& 0xFC0000FF#32 == 0xA8000003#32)
  || (w &&& 0xFC0000FF#32 == 0xA8000004#32)
  || (w &&& 0xFC00F8FF#32 == 0xA8000005#32)
  || (w &&& 0xFC00F8FF#32 == 0xA8000006#32)
  || (w &&& 0xFC1FFFFF#32 == 0xA8000007#32)
  || (w &&& 0xFC0000FF#32 == 0xA8000008#32)
  || (w &&& 0xFC00F8FF#32 == 0xA8000009#32)
  || (w &&& 0xFC0000FF#32 == 0xA800000A#32)

/-- Whether a word of major 0x2B is an instruction (R436). -/
def okMajor2B (w : IWord) : Bool :=
  (w &&& 0xFC0000FF#32 == 0xAC000000#32)
  || (w &&& 0xFC0000FF#32 == 0xAC000001#32)
  || (w &&& 0xFC0000FF#32 == 0xAC000002#32)
  || (w &&& 0xFC0000FF#32 == 0xAC000003#32)
  || (w &&& 0xFC0000FF#32 == 0xAC000004#32)
  || (w &&& 0xFC0000FF#32 == 0xAC000005#32)
  || (w &&& 0xFC0000FF#32 == 0xAC000006#32)
  || (w &&& 0xFC0000FF#32 == 0xAC000007#32)
  || (w &&& 0xFC0000FF#32 == 0xAC000008#32)
  || (w &&& 0xFC0000FF#32 == 0xAC000009#32)
  || (w &&& 0xFC0000FF#32 == 0xAC00000A#32)
  || (w &&& 0xFC0000FF#32 == 0xAC00000B#32)
  || (w &&& 0xFC0000FF#32 == 0xAC00000C#32)
  || (w &&& 0xFC0000FF#32 == 0xAC000010#32)
  || (w &&& 0xFC0000FF#32 == 0xAC000011#32)
  || (w &&& 0xFC0000FF#32 == 0xAC000012#32)
  || (w &&& 0xFC0000FF#32 == 0xAC000018#32)
  || (w &&& 0xFC0000FF#32 == 0xAC000019#32)

/-- Whether a word of major 0x2C is an instruction (R436). -/
def okMajor2C (w : IWord) : Bool :=
  (w &&& 0xFC00F8FF#32 == 0xB0000000#32)
  || (w &&& 0xFC00C0FF#32 == 0xB0000001#32 && (decide ((w.extractLsb' 11 3).toNat ≤ 4)))
  || (w &&& 0xFC0000FF#32 == 0xB0000002#32)
  || (w &&& 0xFC0000FF#32 == 0xB0000003#32)

/-- Whether a word of major 0x2D is an instruction (R436). -/
def okMajor2D (w : IWord) : Bool :=
  (w &&& 0xFC00383F#32 == 0xB4000000#32 && (decide ((w.extractLsb' 6 5).toNat ≤ 5)))
  || (w &&& 0xFC003FFF#32 == 0xB4000800#32)
  || (w &&& 0xFC00383F#32 == 0xB4000001#32 && (decide ((w.extractLsb' 6 5).toNat ≤ 5)))
  || (w &&& 0xFC00383F#32 == 0xB4000002#32 && (decide ((w.extractLsb' 6 5).toNat ≤ 5)))
  || (w &&& 0xFC03FFFF#32 == 0xB4000003#32)
  || (w &&& 0xFC03C7FF#32 == 0xB4000004#32)
  || (w &&& 0xFC003FFF#32 == 0xB4000005#32)
  || (w &&& 0xFC03F83F#32 == 0xB4000006#32 && (decide ((w.extractLsb' 6 5).toNat ≤ 5)))

/-- Whether a word of major 0x2E is an instruction (R436). -/
def okMajor2E (w : IWord) : Bool :=
  (w &&& 0xFC3FF87F#32 == 0xB8000000#32)
  || (w &&& 0xFFC3F87F#32 == 0xB8000001#32)
  || (w &&& 0xFC3FF83F#32 == 0xB8000002#32)
  || (w &&& 0xFC03F87F#32 == 0xB8000003#32)
  || (w &&& 0xFFC3F83F#32 == 0xB8000004#32)
  || (w &&& 0xFC3FC03F#32 == 0xB8000005#32)
  || (w &&& 0xFFC3C03F#32 == 0xB8000006#32)
  || (w &&& 0xFFC3F83F#32 == 0xB8000007#32)
  || (w &&& 0xFFC3F83F#32 == 0xB8000008#32)
  || (w &&& 0xFFC3F83F#32 == 0xB8000009#32)
  || (w &&& 0xFC03FFFF#32 == 0xB800000A#32)
  || (w &&& 0xFC3FFFFF#32 == 0xB800000B#32)

/-- Whether a word of major 0x2F is an instruction (R436). -/
def okMajor2F (w : IWord) : Bool :=
  (w &&& 0xFCFFFFFF#32 == 0xBC000000#32)
  || (w &&& 0xFC00001F#32 == 0xBC000001#32 && (decide ((w.extractLsb' 5 3).toNat ≤ 5)))
  || (w &&& 0xFC00001F#32 == 0xBC000011#32 && (decide (2 ≤ (w.extractLsb' 5 3).toNat) && decide ((w.extractLsb' 5 3).toNat ≤ 4)))
  || (w &&& 0xFC00001F#32 == 0xBC000002#32 && (decide ((w.extractLsb' 5 3).toNat ≤ 5)))
  || (w &&& 0xFC00001F#32 == 0xBC000012#32 && (decide (2 ≤ (w.extractLsb' 5 3).toNat) && decide ((w.extractLsb' 5 3).toNat ≤ 4)))
  || (w &&& 0xFC0000DF#32 == 0xBC0000C3#32)
  || (w &&& 0xFC00001F#32 == 0xBC000004#32)
  || (w &&& 0xFC00001F#32 == 0xBC000014#32 && (decide (2 ≤ (w.extractLsb' 5 3).toNat) && decide ((w.extractLsb' 5 3).toNat ≤ 4)))
  || (w &&& 0xFC003FFF#32 == 0xBC000005#32)
  || (w &&& 0xFC003FFF#32 == 0xBC000025#32)
  || (w &&& 0xFC003FFF#32 == 0xBC000006#32)
  || (w &&& 0xFC003FFF#32 == 0xBC000026#32)
  || (w &&& 0xFC003FFF#32 == 0xBC000007#32)
  || (w &&& 0xFC003FFF#32 == 0xBC000008#32)
  || (w &&& 0xFFFFFFFF#32 == 0xBC000009#32)
  || (w &&& 0xFFFFFFFF#32 == 0xBC00000A#32)

/-- Whether a word of major 0x30 is an instruction (R436). -/
def okMajor30 (w : IWord) : Bool :=
  (w &&& 0xFFFF1FFF#32 == 0xC0000000#32)
  || (w &&& 0xFFFFFFFF#32 == 0xC0000001#32)
  || (w &&& 0xFFFFFFFF#32 == 0xC0000002#32)
  || (w &&& 0xFFFF1FFF#32 == 0xC0000003#32)
  || (w &&& 0xFC00E0FF#32 == 0xC0000004#32)
  || (w &&& 0xFC1FE0FF#32 == 0xC0000005#32)
  || (w &&& 0xFF1FFFFF#32 == 0xC0000006#32)
  || (w &&& 0xFFFFE0FF#32 == 0xC0000007#32)

/-- Whether a word of major 0x31 is an instruction (R436). -/
def okMajor31 (w : IWord) : Bool :=
  (w &&& 0xFC0000FF#32 == 0xC4000000#32)
  || (w &&& 0xFC0000FF#32 == 0xC4000001#32)
  || (w &&& 0xFC0000FF#32 == 0xC4000002#32)
  || (w &&& 0xFC0000FF#32 == 0xC4000003#32)
  || (w &&& 0xFC0000FF#32 == 0xC4000004#32)
  || (w &&& 0xFC0000FF#32 == 0xC4000005#32)
  || (w &&& 0xFC0000FF#32 == 0xC4000006#32)
  || (w &&& 0xFC0000FF#32 == 0xC4000007#32)
  || (w &&& 0xFC0000FF#32 == 0xC4000008#32)
  || (w &&& 0xFC0000FF#32 == 0xC4000009#32)
  || (w &&& 0xFC0000FF#32 == 0xC4000010#32)
  || (w &&& 0xFC0000FF#32 == 0xC4000011#32)
  || (w &&& 0xFC0000FF#32 == 0xC4000012#32)
  || (w &&& 0xFC0000FF#32 == 0xC4000013#32)

/-- Whether a word of major 0x32 is an instruction (R436). -/
def okMajor32 (w : IWord) : Bool :=
  (w &&& 0xFC00E0FF#32 == 0xC8000000#32)
  || (w &&& 0xFC1FE0FF#32 == 0xC8000001#32)
  || (w &&& 0xFFFFE0FF#32 == 0xC8000002#32)
  || (w &&& 0xFC1FE0FF#32 == 0xC8000003#32)
  || (w &&& 0xFC1FE0FF#32 == 0xC8000004#32)
  || (w &&& 0xFFFFFFFF#32 == 0xC8000005#32)

/-- Whether a word of major 0x3E is an instruction (R436). -/
def okMajor3E (w : IWord) : Bool :=
  (w &&& 0xFC003FFF#32 == 0xF8000000#32)

/-- Whether a word of major 0x3F is an instruction (R436). -/
def okMajor3F (w : IWord) : Bool :=
  (w &&& 0xFCFFFFFF#32 == 0xFC000000#32)

/-- Whether a word is reserved (R436): no instruction has it, or it breaks a field rule. -/
def isReserved (w : IWord) : Bool :=
  match (w.extractLsb' 26 6).toNat with
  | 0x01 => !okMajor01 w
  | 0x02 => !okMajor02 w
  | 0x03 => !okMajor03 w
  | 0x04 => !okMajor04 w
  | 0x05 => !okMajor05 w
  | 0x06 => !okMajor06 w
  | 0x07 => !okMajor07 w
  | 0x08 => !okMajor08 w
  | 0x09 => !okMajor09 w
  | 0x0A => !okMajor0A w
  | 0x0B => !okMajor0B w
  | 0x0C => !okMajor0C w
  | 0x0D => !okMajor0D w
  | 0x0E => !okMajor0E w
  | 0x0F => !okMajor0F w
  | 0x10 => !okMajor10 w
  | 0x11 => !okMajor11 w
  | 0x12 => !okMajor12 w
  | 0x13 => !okMajor13 w
  | 0x14 => !okMajor14 w
  | 0x15 => !okMajor15 w
  | 0x16 => !okMajor16 w
  | 0x17 => !okMajor17 w
  | 0x18 => !okMajor18 w
  | 0x19 => !okMajor19 w
  | 0x1A => !okMajor1A w
  | 0x1B => !okMajor1B w
  | 0x1C => !okMajor1C w
  | 0x20 => !okMajor20 w
  | 0x21 => !okMajor21 w
  | 0x22 => !okMajor22 w
  | 0x23 => !okMajor23 w
  | 0x24 => !okMajor24 w
  | 0x25 => !okMajor25 w
  | 0x26 => !okMajor26 w
  | 0x27 => !okMajor27 w
  | 0x28 => !okMajor28 w
  | 0x29 => !okMajor29 w
  | 0x2A => !okMajor2A w
  | 0x2B => !okMajor2B w
  | 0x2C => !okMajor2C w
  | 0x2D => !okMajor2D w
  | 0x2E => !okMajor2E w
  | 0x2F => !okMajor2F w
  | 0x30 => !okMajor30 w
  | 0x31 => !okMajor31 w
  | 0x32 => !okMajor32 w
  | 0x3E => !okMajor3E w
  | 0x3F => !okMajor3F w
  | _ => true

end Sys2Proof
end

