-- ==== Sys2Proof/Machine/State.lean ====
section
/-! DEFINITION. The machine's state as plain data: the four harts of one core and what they share, the memory of the
device, and the device's units, each field with the rule of spec/ that names it; and the state after module reset. -/

namespace Sys2Proof.Machine

/-! ### A hart -/

/-- The levels of R359. -/
inductive Level where
  | u | s | e
  deriving DecidableEq, Repr

/-- The five engines, numbered as ENG of R195. -/
inductive Engine where
  | vector | matrix | intersect | stream | copy
  deriving DecidableEq, Repr

/-- A vector register and its tag (R231, R235). Bits of a row at or above LEN elements, and rows at or above ROWS, are
kept zero (R236). -/
structure VReg where
  valid : Bool
  et : ETCode
  lmap : BitVec 4
  len : Nat
  nrows : Nat
  rows : Vector Row 16
  deriving DecidableEq, Repr

/-- A fibre register and its tag (R235, R248): coordinates as 32-bit slots and values as slots of the tagged type. -/
structure FReg where
  valid : Bool
  et : ETCode
  lmap : BitVec 4
  occ : Nat
  coords : Row
  vals : Row
  deriving DecidableEq, Repr

/-- A mask register (R246). -/
abbrev MReg := Vector MaskRow 16

/-- A stream binding (R193 SB, R490), with the control block that `sbind` read (R489). -/
structure Binding where
  valid : Bool
  reg : VNum
  cb : Word
  pos : Nat
  strip : Nat
  base : Word
  index : Word
  count : Nat
  stride : Word
  et : ETCode
  pointer : Bool
  wrap : Bool
  event : Bool
  deriving DecidableEq, Repr

/-- A trap: its ECAUSE code (R361) and ETVAL. -/
structure Trap where
  cause : BitVec 8
  tval : Word
  deriving DecidableEq, Repr

/-- A strip popped at post by a queue entry (R491): its source register, its elements' first position and number, and those
fetched so far, with the fault that its fetch has met (R364). -/
structure Strip where
  reg : VNum
  bind : Binding
  first : Nat
  count : Nat
  got : List Nat
  trap : Option Trap
  deriving DecidableEq, Repr

/-- A strip that a stream engine has fetched ahead of its pop (R219): its first position and length, the values fetched so far, and the
trap that ended its fetch. -/
structure StripData where
  first : Nat
  count : Nat
  got : List Nat
  trap : Option Trap
  deriving DecidableEq, Repr

/-- What an engine entry waits for from the fabric: the tag of its request, or the answer that came. -/
inductive ERemote where
  | none
  | waiting (tag : Nat)
  | answered (st : Nat) (data : List Byte)
  deriving DecidableEq, Repr

/-- A copy's chunks that are done, those with writes outstanding (once for each write), and those with a write that failed (R220,
R497). -/
structure ChunkState where
  done : List Nat
  inFlight : List Nat
  failed : List Nat
  deriving DecidableEq, Repr

/-! ### Posted instructions -/

/-- The integer operations of R512. -/
inductive IntOp where
  | add | sub | rsub | mul | mulh | mulhu | div | divu | rem | remu | min | max | minu | maxu | and | or | xor
  | sll | srl | sra | sadd | saddu | ssub | ssubu | abs | macc | sel | mv | popc | clz | pcp | id | ext | ins | absd
  deriving DecidableEq, Repr

/-- The floating-point operations of R517. -/
inductive FpOp where
  | add | sub | rsub | mul | div | rdiv | sqrt | fma | fms | fnma | min | max | abs | neg | rcp | rsqrt | sgn
  | class | exp2 | log2 | sat
  deriving DecidableEq, Repr

/-- The mask operations of major 0x29. -/
inductive MaskOp where
  | and | or | xor | andn | not | mv | set | clr | pop | first | last | before | incl | only | tov | vtom
  deriving DecidableEq, Repr

/-- The permutes of major 0x2A. -/
inductive PermOp where
  | compress | expand | slideup | slidedn | gath | rev | tr | relay | zip | unzip | rowmv
  deriving DecidableEq, Repr

/-- The reductions and scans of major 0x2B. -/
inductive RedOp where
  | sum | sumt | min | max | and | or | xor | minu | maxu | fsum | fsumt | fmax | fmin | scan | scanx | fscan
  deriving DecidableEq, Repr

/-- The fibre functions of majors 0x2D and 0x2E. -/
inductive FibOp where
  | isect | isectb | union | merge | sort | compact | diff | dedup
  | ld | st | bm | walk | expand | pack | setl | occ | coord | val | mv | clr
  deriving DecidableEq, Repr

/-- The matrix functions of major 0x2F. -/
inductive MatOp where
  | zero | opo | opr | opi | ops | tv | tvc | vt | vtc | ld | st | gang | gsync
  deriving DecidableEq, Repr

/-- The atomic operations of R453. -/
inductive AmoOp where
  | add | and | or | xor | min | max | minu | maxu | swap | cas | fadd
  deriving DecidableEq, Repr

/-- The scatter-accumulate combines of major 0x31. -/
inductive ScaOp where
  | add | max | min | ordered
  deriving DecidableEq, Repr

/-- The addressing modes of the vector memory instructions. -/
inductive VMode where
  | unit | strided | indexed | ordered
  deriving DecidableEq, Repr

/-- What a posted instruction does. -/
inductive Body where
  | int (op : IntOp)
  | fp (op : FpOp)
  | cvt (rm : Option (BitVec 3))
  | qbs
  | dqbs
  | cmp (cond : BitVec 3) (ty : BitVec 2)
  | mask (op : MaskOp)
  | perm (op : PermOp)
  | red (op : RedOp)
  | kswap (imm : Bool)
  | load (mode : VMode) (mw : BitVec 2) (sx sc : Bool)
  | store (mode : VMode) (mw : BitVec 2) (notify sc : Bool)
  | vlm
  | vsm
  | capp
  | fib (op : FibOp) (c : BitVec 5)
  | mat (op : MatOp) (mrow mcol fmt : BitVec 3) (bs : Bool)
  | amo (op : AmoOp)
  | sca (op : ScaOp)
  | sbind
  | sunbind
  | spos
  | gsp
  | ssp
  | cpy
  | cpyr
  | cwait
  deriving DecidableEq, Repr

/-- A posted instruction: its word, its engine, what it does, its register fields, and the classes of R407. -/
structure Posted where
  word : IWord
  eng : Engine
  body : Body
  d : BitVec 5
  a : BitVec 5
  b : BitVec 5
  m : BitVec 3
  rp : BitVec 2
  useX : Bool
  predicable : Bool
  copyable : Bool
  opa : Option XNum
  opb : Option XNum
  xd : Option XNum
  vsrc : List VNum
  vdst : List VNum
  feats : List Nat
  deriving DecidableEq, Repr

/-- Where a lane group stands in an instruction (R207): the end, as a tile index, of the last of its passes that has entered, and of the
last that is written. -/
structure LanePos where
  entered : Nat
  wrote : Nat
  deriving DecidableEq, Repr

/-- What a pass written above the progress index has replaced (R185): its tile indices, and the rows of the vector registers and
of the mask register that it wrote, as they stood before. A pass that is discarded puts them back. Its flags are set when the progress
index passes it. -/
structure Ahead where
  lo : Nat
  hi : Nat
  row : Nat
  bits : Nat
  vregs : List (VNum × Row)
  masks : List (MNum × MaskRow)
  fcsr : BitVec 9
  gatef : Bool
  deriving DecidableEq, Repr

/-- A slot of a lane group's staging buffer that a load's pass holds (R213): its tile indices, and its data once complete, the
values by tile index and the trap of its lowest failing element. -/
structure StageSlot where
  lane : Fin 4
  lo : Nat
  hi : Nat
  data : Option (List (Nat × Nat) × Option (Nat × Trap))
  deriving DecidableEq, Repr

/-- A queue entry (R195, R202): the instruction, what it captured at post, and its progress. `first` is VSTART as captured; `lanes`,
`ahead` and `slots` are where the lane groups stand in it (R207, R213) while its passes are events of their own. `part` holds the bytes of a remote
read so far, `aux` what the instruction keeps between its steps, `memo` what a fibre instruction has read for its next entry,
and `ents` the entries it has produced (R552). `sentAll` says that what it has still to access are requests that have been made. `pend` is the fault that it has met and has still to take (R184, R363). -/
structure QEntry where
  eid : Nat
  post : Posted
  pc : Word
  pfx : Option IWord
  opa : Word
  opb : Word
  vl : Nat
  vrows : Nat
  vtype : BitVec 9
  vseg : BitVec 4
  rm : BitVec 3
  cprow : Nat
  level : Level
  first : Nat
  prog : Nat
  lanes : Vector LanePos 4
  ahead : List Ahead
  slots : List StageSlot
  started : Bool
  taken : Bool
  entered : Nat
  pend : Option Trap
  strips : List Strip
  remote : ERemote
  chunks : ChunkState
  part : List Byte
  aux : Nat
  memo : List Nat
  ents : List (Nat × Nat)
  sentAll : Bool
  deriving DecidableEq, Repr

/-- What a stopped hart waits for. `retry` and its like test their condition again; `remote` and `barrier` are ended by
an event only. -/
inductive WaitKind where
  | retry
  | lanes (asked : Nat)
  | matrixMode
  | wfe
  | wfp
  | gwait
  | fence
  | acqm
  | cwait
  | fifo
  | tick (since : Nat)
  | remote
  | barrier (scope : Nat)
  | taskq
  deriving DecidableEq, Repr

/-- What a hart does (R142, R164). `waiting` holds the word that waits. -/
inductive HartStatus where
  | idle
  | running
  | waiting (k : WaitKind) (w : IWord)
  | done
  deriving DecidableEq, Repr

/-- A scalar access that waits for the fabric: the tags of its parts and the bytes that have come (R448, R451). -/
structure ScalarRemote where
  tags : List Nat
  parts : List (Nat × List Byte)
  fault : Option Trap
  deriving DecidableEq, Repr

/-- The bank modes of R305. -/
inductive BankMode where
  | off | cacheV | cacheP | spad | fifo
  deriving DecidableEq, Repr

/-- A store in the scalar store buffer (R450), with the mode of its bank when it was checked (R639). -/
structure BufferedStore where
  va : Word
  size : Nat
  data : Word
  pc : Word
  level : Level
  mode : Option BankMode
  deriving DecidableEq, Repr

/-- A store on its way to its storage point: in a lane group's store queue (R213), or a copy chunk write that its bank holds up (R310,
R639). `lane` is the lane group, `tile` the instruction's entry and the tile index that it is for, `chunk` a copy's entry and
chunk, and `mode` the mode of its bank when it was checked. -/
structure LateStore where
  va : Word
  bytes : List Byte
  pc : Word
  level : Level
  lane : Option (Fin 4)
  tile : Nat × Nat
  chunk : Option (Nat × Nat)
  mode : Option BankMode
  deriving DecidableEq, Repr

/-- A release of tail rows that older instructions of the hart still hold back (R242): the number of the next entry when it was asked
for, the threshold and VL of R241, and the rows that it releases. -/
structure RowRelease where
  eid : Nat
  thr : Nat
  vl : Nat
  rows : Nat
  deriving DecidableEq, Repr

/-- A hart (chapter 9). `pfxNext` says that the next instruction follows a prefix directly, or an `eret` with PFXS.valid
(R368, R406, R412). `quotaHeld` is the row quota before its last fall, counted until the entries below `quotaEid` that write
vectors or fibres have retired (R242). `frozen` says that a pre-emption has stopped the hart where it stands (R182), and `eccBad` that its register storage,
accumulators, queue entries or return stack hold an uncorrectable word (R369). `releases` are the releases of rows that older entries hold back (R242). `fetched` are the strips that the stream engines
hold unpopped for each binding (R219). -/
structure Hart where
  x : Vector Word 32
  v : Vector VReg 32
  m : Vector MReg 8
  f : Vector FReg 16
  pc : Word
  level : Level
  status : HartStatus
  fcsr : BitVec 9
  gatef : Bool
  pfx : IWord
  pfxValid : Bool
  pfxNext : Bool
  vl : Nat
  vrows : Nat
  vtype : BitVec 9
  vstart : BitVec 32
  vseg : BitVec 4
  cmpthr : BitVec 12
  vnota : Word
  cprow : BitVec 32
  mvl : BitVec 16
  mstat : BitVec 10
  vpi : Vector (BitVec 16) 32
  lc0 : Word
  ls0 : Word
  le0 : Word
  lc1 : Word
  ls1 : Word
  le1 : Word
  epc : Word
  ecause : BitVec 8
  etval : Word
  etvec : Word
  estatus : BitVec 3
  emuf : Word
  eqbase : Word
  eqhead : BitVec 32
  eqtail : BitVec 32
  eqWait : List (List Byte)
  ctxid : BitVec 32
  gangid : BitVec 32
  grank : BitVec 32
  rs : List Word
  ev : Bool
  resv : Option Nat
  ncnt : Word
  queue : List QEntry
  nextEid : Nat
  tok : Vector Nat 20
  sb : Vector Binding 4
  held : Bool
  emulating : Bool
  inHandler : Bool
  asyncs : List Trap
  cfails : Nat
  prio : Nat
  quota : Nat
  quotaHeld : Nat
  quotaEid : Nat
  releases : List RowRelease
  frozen : Bool
  laneServed : Bool
  matrixServed : Bool
  scalarRemote : ScalarRemote
  stbuf : List BufferedStore
  late : List LateStore
  task : Nat
  fetched : Vector (List StripData) 4
  eccBad : Bool
  deriving DecidableEq, Repr

/-! ### The core's shared units -/

/-- A line of a scalar data or instruction cache (R312): its physical line number, its bytes, and whether it holds an uncorrectable
word (R369). -/
structure CLine where
  line : Nat
  data : List Byte
  bad : Bool
  deriving DecidableEq, Repr

/-- An accumulator tile (R250). -/
abbrev Tile := Vector TileRow 128

/-- Kept tiles of a hart that left matrix mode with keep (R251). -/
structure Kept where
  hart : Fin 4
  tiu : BitVec 4
  deriving DecidableEq, Repr

/-- An entry of the lane allocation table (R159): free, held by a hart, or released by it and not free before its last
instruction on it retires (R161). -/
inductive LaneOwner where
  | free
  | held (h : Fin 4)
  | releasing (h : Fin 4)
  deriving DecidableEq, Repr

/-- A translation held in a TLB (R303): address space, page base and size, and the page's physical base and attributes. -/
structure TlbEntry where
  asid : BitVec 16
  va : Nat
  size : Nat
  pa : Nat
  r : Bool
  w : Bool
  x : Bool
  u : Bool
  p : Bool
  enc : Bool
  pgrp : BitVec 8
  deriving DecidableEq, Repr

/-- A section of the core TLB: 64 entries, replaced round-robin from `next` on (R303). -/
structure TlbSection where
  slots : Vector (Option TlbEntry) 64
  next : Fin 64
  deriving DecidableEq, Repr

/-- The shared units of the core (R200). `tlb` are the four sections of the core TLB (R303). `laneResv` and `matrixResv` are what prepared resumes have reserved (R196),
`copyLast` and `fibLast` the harts that the copy engine and the intersect unit served last (R167). -/
structure Core where
  num : Nat
  last : Fin 4
  lanes : Vector LaneOwner 4
  matrix : Option (Fin 4)
  matrixWaiters : List (Fin 4)
  tiles : Vector Tile 4
  kept : Option Kept
  laneResv : Nat
  matrixResv : Bool
  boundEngines : List (Fin 4 × VNum)
  streamWaiters : List (Fin 4 × Nat)
  copyLast : Fin 4
  fibLast : Fin 4
  fifoWaiters : List (Fin 4 × Nat × Bool)
  dcache : List CLine
  icache : List CLine
  tlb : Vector TlbSection 4
  deriving DecidableEq, Repr

/-! ### Memory -/

/-- An entry of a FIFO bank (R311), and whether it is uncorrectable (R316). -/
structure FifoWord where
  data : Word
  bad : Bool
  deriving DecidableEq, Repr

/-- A cluster SRAM bank (R306, R311). `target` is the mode that the running change leads to, and `again` says that a further sequence
follows it (R309, R310). -/
structure Bank where
  mode : BankMode
  cur : BankMode
  target : BankMode
  busy : Bool
  again : Bool
  wdrawn : Bool
  fifo : List FifoWord
  spares : Nat
  remapped : List Nat
  deriving DecidableEq, Repr

/-- A line that a cache way holds (R307, R308): the die and the bank that is its way, its physical line number (which gives its set),
whether it is dirty, and its uncorrectable words (R316). Its bytes stand in `Memory.cells`: a line stands in at most one way, so
each of its bytes has one current value. -/
structure WayLine where
  die : Nat
  bank : Nat
  line : Nat
  dirty : Bool
  bad : List Nat
  deriving DecidableEq, Repr

/-- An encrypted unit of 256 bytes (R319): its number, the key that sealed it and its write count. -/
structure Sealed where
  unit : Nat
  key : Nat
  count : Nat
  deriving DecidableEq, Repr

/-- A context-table entry (R299), which stays when its context is killed, and the context's JOB number (R76), key and mode: `compat` is none until the first launch or resume fixes it (R173). -/
structure Context where
  ctxid : Nat
  live : Bool
  asid : BitVec 16
  root : Nat
  valid : Bool
  job : BitVec 16
  key : Nat
  compat : Option Bool
  drain : Nat
  preempted : Bool
  deriving DecidableEq, Repr

/-- The states of a JOB entry (R76, R77). -/
inductive JobState where
  | active | frozen | quarantine
  deriving DecidableEq, Repr

/-- A JOB entry (R76, R77): generation, state and quarantine stamp in units of 2^-16 ns. -/
structure JobEntry where
  job : BitVec 16
  gen : BitVec 16
  state : JobState
  ctxid : Nat
  stamp : Nat
  deriving DecidableEq, Repr

/-- A protection-group entry (R320, R325). `got` are the pieces read of the units of the stripe at work, by member and number;
`writing` says that its rebuilt unit is on its way. -/
structure PGroup where
  n : Nat
  m : Nat
  state : BitVec 8
  self : Nat
  ctxid : BitVec 32
  gbase : Word
  glen : Word
  lost : BitVec 16
  member : Vector Epid 16
  ndone : BitVec 32
  fail : Bool
  done : Bool
  busy : Bool
  slot : BitVec 4
  newep : Epid
  got : List (Nat × Nat × List Byte)
  writing : Bool
  deriving DecidableEq, Repr

/-- A scatter-accumulate entry that waits for its application (R603): key of its bytes, value, type, combine, sender rank
and element index. -/
structure ScaPending where
  key : Nat
  et : ETCode
  value : Nat
  grank : BitVec 32
  index : Nat
  enc : Bool
  p : Bool
  pgrp : Nat
  va : Nat
  ctxid : Nat
  deriving DecidableEq, Repr

/-- The memory of the device. `ways` are the lines that the cache ways hold, the most recently used first; `eccBad` are the
uncorrectable words of the stacks and of the scratchpad; `dieTlb` is the TLB of the core's die, the most recently used first
(R303). `cells` holds HBM bytes under their physical address and scratchpad bytes under
2^44 + die * 2^25 + offset; a byte that is not listed reads zero. -/
structure Memory where
  cells : List Host.Cell
  eccBad : List Nat
  ways : List WayLine
  sealed : List Sealed
  banks : Vector (Vector Bank 128) 12
  dieTlb : List TlbEntry
  sca : List ScaPending
  deriving DecidableEq, Repr

/-! ### The fabric -/

/-- What a request was for, so that its answer can be used (R72). -/
inductive Purpose where
  | scalar (h : Fin 4) (part : Nat) (va : Word)
  | store (h : Fin 4) (va : Word) (size : Nat)
  | elem (h : Fin 4) (eid : Nat)
  | chunk (h : Fin 4) (eid : Nat) (c : Nat) (va : Word)
  | sca (h : Fin 4) (size : Nat) (entries : List (Nat × Word))
  | pdelta (group : Nat) (share : Nat) (holder : Epid) (off : Word) (h : Option (Fin 4))
  | tlrec (h : Fin 4) (eid : Nat)
  | rebuildRead (group stripe member piece : Nat)
  | rebuild (group : Nat) (stripe : Nat)
  | orphan
  deriving DecidableEq, Repr

/-- An outstanding request (R642): its tag, context, destination, purpose, and the error-queue fields of R372. `counted` says that its
context's drain counter counts it (R80). -/
structure Outstanding where
  counted : Bool
  rid : Nat
  tag : Nat
  ctxid : Nat
  dst : Epid
  flow : BitVec 16
  purpose : Purpose
  itag : BitVec 32
  attr : Byte
  data : List Byte
  deriving DecidableEq, Repr

/-- A remote store to a protected page whose answer waits for its parity deltas (R354). -/
structure HeldReply where
  reply : Packet
  tags : List Nat
  deriving DecidableEq, Repr

/-- A fabric port (R50 to R53). `rxseq` is the sequence number expected next, `beats` what has come of a packet. `service` is 0 in use, 1 while it pauses and drains, 3 while it retrains and 4 in its configuration
exchange; `deferred` says that a service waits under R44. -/
structure Port where
  enabled : Bool
  step : Nat
  attempt : Nat
  retries : Nat
  laneErrors : Vector Nat 8
  errors : Nat
  service : Nat
  deferred : Bool
  rxseq : BitVec 12
  acked : BitVec 12
  credits : Vector Nat 4
  beats : List Byte
  deriving DecidableEq, Repr

/-- A module of a die-to-die link (R31 to R38). `service` is the step of R38 it stands at: 0 in use, 1 pause and drain, 2 remap,
3 retrain, 4 configuration exchange; `deferred` says that a service waits under R44. `laneErrors` are the lane counts of the end with the
lower die number, `farErrors` those of the other (R46). -/
structure LinkModule where
  enabled : Bool
  step : Nat
  attempt : Nat
  lmap : BitVec 32
  retries : Nat
  laneErrors : Vector Nat 64
  farErrors : Vector Nat 64
  service : Nat
  deferred : Bool
  deriving DecidableEq, Repr

/-- The planes flows are pinned to (R69, R71). -/
structure FlowPin where
  flow : BitVec 16
  dst : Epid
  port : Nat
  deriving DecidableEq, Repr

/-- The fabric side of the device (chapter 3). `peers` are the ports that are usable at their other end, and `down` the planes on which
an endpoint cannot be reached (R69, R71). `turned` are the packets on their way back to this endpoint (R294). -/
structure Fabric where
  epid : Epid
  planes : Nat
  ports : Vector Port 24
  peers : BitVec 24
  sent : List Packet
  outstanding : List Outstanding
  waiting : List (Outstanding × Packet)
  nextReq : Nat
  heldTags : List Nat
  heldReplies : List HeldReply
  pins : List FlowPin
  down : List (Epid × BitVec 24)
  turned : List Packet
  links : Vector (Vector LinkModule 8) 30
  deriving DecidableEq, Repr

/-! ### Time, trust and reductions -/

/-- The states of device time (R87). -/
inductive TimeState where
  | free | locked | holdover | uncertain
  deriving DecidableEq, Repr

/-- One Bellwether (R84, R85, R87): its state, the offset magnitudes of its last 16 Sync intervals, its counts of good intervals and of those
without a valid Sync, the ports with a valid one in the last, what each port has last announced, and the delay of each port's link in ns. -/
structure Bellwether where
  tstate : TimeState
  good : Nat
  missed : Nat
  offsets : List Nat
  synced : BitVec 12
  masters : List (Fin 12 × PtpAnnounce)
  delays : Vector Int 12
  deriving DecidableEq, Repr

/-- Device time (R84 to R91): GTIME in units of 2^-16 ns. `unc` is UNC while the source is LOCKED, `uncEntry` and `entryTime` its value and
the time at the loss of the lock, `slew` the offset magnitude at the last Sync and `slewTime` the time of it. -/
structure Clock where
  gtime : Nat
  bell : Vector Bellwether 2
  src : Fin 2
  unc : Nat
  uncEntry : Nat
  entryTime : Nat
  slew : Nat
  slewTime : Nat
  hbeat : Word
  deriving DecidableEq, Repr

/-- A hart about to start in a slot (R157, R197): its state, and for a resumed one the lane groups and the matrix mode it needs
and its tiles. -/
structure Start where
  slot : Fin 4
  hart : Hart
  groups : Nat
  matrix : Bool
  tiles : List (Nat × Tile)
  deriving DecidableEq, Repr

/-- A pending or acted TLREC record at a member (R93 to R97, R175). `told` says that an arm came that was not acknowledged;
`starts` are the harts that a prepared launch or resume will start on this core, and `queue` the work queue that a resume
restores: NEXT, REM, MINCHUNK, MAXCHUNK, P. `refused` says that UNC kept it from acknowledging the arm (R96), and `passed` that its switch
instant has come. -/
structure GangRec where
  raw : List Byte
  gangid : BitVec 32
  ctxid : BitVec 32
  job : BitVec 16
  kind : Nat
  harts : Nat
  coord : Epid
  t : Nat
  hold : Bool
  prepared : Bool
  told : Bool
  refused : Bool
  passed : Bool
  armed : Bool
  wave : Bool
  acted : Bool
  finished : Bool
  startTime : Nat
  compat : Bool
  starts : List Start
  queue : List Nat
  deriving DecidableEq, Repr

/-- An offer at its coordinator (R96, R175 to R179). -/
structure Offer where
  raw : List Byte
  gangid : BitVec 32
  ctxid : BitVec 32
  kind : Nat
  t : Nat
  members : List Epid
  acks : List (Epid × Nat)
  armAcks : List Epid
  cancelAcks : List Epid
  mode : Nat
  round : Nat
  deriving DecidableEq, Repr

/-- A job's session key (R103, R105), with the counter of each port's sender tag (R104). -/
structure JobKey where
  job : BitVec 16
  kepoch : BitVec 32
  stag : BitVec 32
  key : List Byte
  expiry : Nat
  counters : Vector Nat 24
  deriving DecidableEq, Repr

/-- A job's policy list (R102, R127). -/
structure Policy where
  job : BitVec 16
  count : Nat
  entries : List (Nat × List Byte)
  deriving DecidableEq, Repr

/-- A chunk of a reduction tree's node at this member (R107, R109). -/
structure RedNode where
  level : Nat
  node : Nat
  chunk : Nat
  data : List Byte
  deriving DecidableEq, Repr

/-- A reduction accepted at this member (R108, R640): `sent` counts the chunks of node (0, RANK) that it has sent, `down` names the result
chunks written, `pend` holds those that a bank holds up, and `word` is the status word that is still to be written. -/
structure Reduction where
  h : Fin 4
  level : Level
  pc : Word
  ctxid : Nat
  job : BitVec 16
  rid : BitVec 32
  opet : BitVec 8
  plane : Nat
  enc : Bool
  n : Nat
  rank : Nat
  count : Nat
  dstva : Word
  status : Word
  members : List Epid
  up : List RedNode
  down : List Nat
  src : Nat
  sent : Nat
  pend : List (Nat × List Byte)
  word : Option Nat
  deriving DecidableEq, Repr

/-- A REDUCE or REDRES packet held for a reduction not yet accepted (R641). -/
structure HeldReduce where
  pkt : Packet
  deriving DecidableEq, Repr

/-- An SPDM message being put together (R100). -/
structure SpdmPart where
  src : Epid
  mseq : BitVec 16
  nfrag : Nat
  len : Nat
  kinds : Byte
  frags : List (Nat × List Byte)
  deriving DecidableEq, Repr

/-- The step of an SPDM exchange that comes next (R101, R102); in `session` keys may be delivered. -/
inductive SpdmStage where
  | version | capabilities | algorithms | certificate | challenge | measurements | exchange | finish | session
  deriving DecidableEq, Repr

/-- An endpoint with which the Crozier exchanges SPDM messages, and the job it is a member of (0 where the other side has begun). -/
structure SpdmPeer where
  ep : Epid
  job : BitVec 16
  stage : SpdmStage
  deriving DecidableEq, Repr

/-- Attestation and reductions (R100 to R111): `epochs` is the last key epoch of each job, `peers` are the endpoints in an SPDM exchange, `mseq`
the next message number. -/
structure Trust where
  keys : List JobKey
  epochs : List (BitVec 16 × BitVec 32)
  policies : List Policy
  peers : List SpdmPeer
  spdm : List SpdmPart
  mseq : Nat
  reductions : List Reduction
  held : List HeldReduce
  retiredRids : List (BitVec 16 × BitVec 32)
  deriving DecidableEq, Repr

/-! ### Scheduling -/

/-- A record pending in the central task queue (R134, R138). -/
structure TaskRec where
  serial : Nat
  raw : List Byte
  prio : Nat
  enq : Nat
  head : Bool
  deriving DecidableEq, Repr

/-- A running task of the device (R142, R148): its work queue, its harts on this core and elsewhere, and whether its launch has been sampled
on this core's die (R171). `arrived` counts the harts elsewhere that a resume has found arrived at the pending barrier (R186). -/
structure Task where
  id : Nat
  ctxid : BitVec 32
  gangid : BitVec 32
  prio : Nat
  harts : Nat
  cmask : BitVec 384
  here : List (Fin 4)
  others : Nat
  hasQueue : Bool
  next : Nat
  rem : Nat
  p : Nat
  minchunk : Nat
  maxchunk : Nat
  nmem : Nat
  map : Word
  coord : Epid
  sampled : Bool
  arrived : Nat
  deriving DecidableEq, Repr

/-- A report that is still to be written (R98): its record, and what it says; `task` names the task whose harts start, and `freeze` says
that the harts of the context freeze. -/
structure Report where
  raw : List Byte
  gangid : BitVec 32
  start : Nat
  unc : Nat
  tstate : TimeState
  flags : Nat
  task : Nat
  freeze : Bool
  deriving DecidableEq, Repr

/-- A bound object (R388). -/
structure Bound where
  hash : List Byte
  base : Nat
  len : Nat
  text : Nat
  target : Nat
  deriving DecidableEq, Repr

/-- The dispatch unit (chapter 6): the queue, the running tasks, the dispatch serial, the device's ticket counter, the harts
that wait for their slots (R157), and the asynchronous traps kept for context 0 (R181). `now` counts cycles by heartbeats. -/
structure Sched where
  bindings : List (Nat × Bound)
  queue : List TaskRec
  tasks : List Task
  serial : Nat
  nextTask : Nat
  now : Nat
  ticket : Nat
  starts : List Start
  pendingAsync : List Trap
  gangs : List GangRec
  offers : List Offer
  reports : List Report
  deviceErrors : List (Nat × List Byte)
  signals : List (BitVec 11 × BitVec 32)
  deriving DecidableEq, Repr

/-! ### The host interface, power and monitors -/

/-- DEVSTAT.STATE (R119, R121). -/
inductive DevState where
  | reset | powerup | featwait | ready | failed
  deriving DecidableEq, Repr

/-- A monitor (R25, R26). -/
structure Monitor where
  ctl : BitVec 32
  mn : Nat
  mx : Nat
  cnt : Nat
  bins : Vector Nat 16
  deriving DecidableEq, Repr

/-- The host interface (chapter 5). `diePower` and `dieUp` name the dies powered and up, compute dies 0 to 11 and link dies 12 and 13
(R19, R20); `bootHeld` says that the completion held is that of the FEATACK that leaves FEATWAIT. -/
structure HostIf where
  state : DevState
  cause : BitVec 8
  die : BitVec 4
  ringerr : Bool
  svn : BitVec 8
  slot : Bool
  fuseSvn : BitVec 32
  flashA : List Byte
  flashB : List Byte
  staging : List (Nat × Byte)
  accept : Vector (BitVec 32) 4
  featAcked : Bool
  crqtail : BitVec 8
  crqhead : BitVec 8
  cqprod : BitVec 8
  cqcons : BitVec 8
  evprod : BitVec 16
  evcons : BitVec 16
  evdropped : Nat
  crq : List (Nat × List Byte)
  cq : List (Nat × List Byte)
  evq : List (Nat × List Byte)
  msixTable : List (Nat × Byte)
  msix : List Nat
  linkUp : Bool
  diePower : BitVec 14
  dieUp : BitVec 14
  fwDone : Bool
  heldCompletion : Option (List Byte)
  bootHeld : Bool
  monitors : Vector (Vector Monitor 8) 14
  deriving DecidableEq, Repr

/-! ### The whole machine -/

/-- The state of the machine: the modelled core's harts and shared units, and the device around them. `cur` names the hart
that issues; `eager`, `arrivals` and `free` are the model's own (assumptions 1, 2 and 3). -/
structure State where
  harts : Vector Hart 4
  cur : Fin 4
  core : Core
  mem : Memory
  ctxs : List Context
  jobs : List JobEntry
  groups : List (Nat × PGroup)
  fab : Fabric
  clock : Clock
  trust : Trust
  sched : Sched
  host : HostIf
  arrivals : List Instr
  eager : Bool
  free : Nat
  deriving DecidableEq, Repr

/-! ### The machine right after module reset -/

/-- A vector register that holds no rows (R146). -/
def VReg.none : VReg := { valid := false, et := 0#4, lmap := 0#4, len := 0, nrows := 0, rows := Vector.replicate 16 0#8192 }

/-- A fibre of occupancy 0 (R146). -/
def FReg.none : FReg := { valid := false, et := 0#4, lmap := 0#4, occ := 0, coords := 0#8192, vals := 0#8192 }

/-- A stream binding that is not bound. -/
def Binding.none : Binding :=
  { valid := false, reg := 0#5, cb := 0#64, pos := 0, strip := 0, base := 0#64, index := 0#64, count := 0, stride := 0#64,
    et := 0#4, pointer := false, wrap := false, event := false }

/-- A hart slot that runs nothing (R146 for the values a dispatch gives; assumption 5). -/
def Hart.reset : Hart :=
  { x := Vector.replicate 32 0#64, v := Vector.replicate 32 VReg.none,
    m := Vector.replicate 8 (Vector.replicate 16 0#2048), f := Vector.replicate 16 FReg.none,
    pc := 0#64, level := .u, status := .idle, fcsr := 0#9, gatef := false, pfx := 0#32, pfxValid := false, pfxNext := false,
    vl := 0, vrows := 0, vtype := 0#9, vstart := 0#32, vseg := 0#4, cmpthr := 0#12, vnota := 0#64, cprow := 0#32,
    mvl := 0#16, mstat := 0#10, vpi := Vector.replicate 32 0#16, lc0 := 0#64, ls0 := 0#64, le0 := 0#64, lc1 := 0#64,
    ls1 := 0#64, le1 := 0#64, epc := 0#64, ecause := 0#8, etval := 0#64, etvec := 0#64, estatus := 0#3, emuf := 0#64,
    eqbase := 0#64, eqhead := 0#32, eqtail := 0#32, eqWait := [], ctxid := 0#32, gangid := 0#32, grank := 0#32, rs := [], ev := false,
    resv := .none, ncnt := 0#64, queue := [], nextEid := 0, tok := Vector.replicate 20 0,
    sb := Vector.replicate 4 Binding.none, held := false, emulating := false, inHandler := false, asyncs := [], cfails := 0,
    prio := 0, quota := 0, quotaHeld := 0, quotaEid := 0, releases := [], frozen := false, laneServed := false, matrixServed := false, scalarRemote := ⟨[], [], .none⟩, stbuf := [],
    late := [], task := 0, fetched := Vector.replicate 4 [], eccBad := false }

/-- A section of the core TLB with no entry. -/
def TlbSection.none : TlbSection := { slots := Vector.replicate 64 .none, next := 0 }

/-- The core's units after reset: no lane group held (R159), matrix mode free, caches and TLBs empty (assumption 5). -/
def Core.reset : Core :=
  { num := 0, last := 3, lanes := Vector.replicate 4 .free, matrix := .none, matrixWaiters := [],
    tiles := Vector.replicate 4 (Vector.replicate 128 0#4096), kept := .none, laneResv := 0, matrixResv := false, boundEngines := [], streamWaiters := [], copyLast := 3, fibLast := 3, fifoWaiters := [],
    dcache := [], icache := [], tlb := Vector.replicate 4 TlbSection.none }

/-- A bank after bring-up: CACHE.V, with 16 spare lines (R305, R315). -/
def Bank.reset : Bank :=
  { mode := .cacheV, cur := .cacheV, target := .cacheV, busy := false, again := false, wdrawn := false, fifo := [], spares := 16, remapped := [] }

/-- Memory after reset: nothing listed. -/
def Memory.reset : Memory :=
  { cells := [], eccBad := [], ways := [], sealed := [], banks := Vector.replicate 12 (Vector.replicate 128 Bank.reset),
    dieTlb := [], sca := [] }

/-- A port before its training (R50). -/
def Port.reset : Port :=
  { enabled := false, step := 0, attempt := 0, retries := 0, laneErrors := Vector.replicate 8 0, errors := 0,
    service := 3, deferred := false, rxseq := 0#12, acked := 0#12, credits := Vector.replicate 4 0, beats := [] }

/-- A link module before its training (R31). -/
def LinkModule.reset : LinkModule :=
  { enabled := false, step := 0, attempt := 0, lmap := 0xFFFFFFFF#32, retries := 0, laneErrors := Vector.replicate 64 0,
    farErrors := Vector.replicate 64 0, service := 3,
    deferred := false }

/-- The fabric side after reset (assumption 5: the endpoint number and the planes). -/
def Fabric.reset : Fabric :=
  { epid := 0#19, planes := 24, ports := Vector.replicate 24 Port.reset, peers := 0#24, sent := [], outstanding := [],
    waiting := [], nextReq := 0, heldTags := [], heldReplies := [], pins := [], down := [], turned := [],
    links := Vector.replicate 30 (Vector.replicate 8 LinkModule.reset) }

/-- A Bellwether after reset (R87). -/
def Bellwether.reset : Bellwether := { tstate := .free, good := 0, missed := 0, offsets := [], synced := 0#12, masters := [], delays := Vector.replicate 12 0 }

/-- Device time after reset: FREE, GTIME 0, UNC 0xF_FFFF, source link die 0 (R85 to R89). -/
def Clock.reset : Clock :=
  { gtime := 0, bell := Vector.replicate 2 Bellwether.reset, src := 0, unc := 0xFFFFF, uncEntry := 0, entryTime := 0,
    slew := 0, slewTime := 0, hbeat := 0#64 }

/-- Keys, policies and reductions after reset: none. -/
def Trust.reset : Trust :=
  { keys := [], epochs := [], policies := [], peers := [], spdm := [], mseq := 0, reductions := [], held := [], retiredRids := [] }

/-- The dispatch unit after reset. -/
def Sched.reset : Sched :=
  { bindings := [], queue := [], tasks := [], serial := 0, nextTask := 1, now := 0, ticket := 0, starts := [], pendingAsync := [],
    gangs := [], offers := [], reports := [], deviceErrors := [], signals := [] }

/-- A monitor after reset: MONCTL 0 (R25). MONMIN is 0xFFFF_FFFF, which R26 gives after a clear: that is the model's choice (assumption 5). -/
def Monitor.reset : Monitor :=
  { ctl := 0#32, mn := 0xFFFFFFFF, mx := 0, cnt := 0, bins := Vector.replicate 16 0 }

/-- The host interface after reset: STATE 0, every ring count 0 (R118, R119). -/
def HostIf.reset : HostIf :=
  { state := .reset, cause := 0#8, die := 0#4, ringerr := false, svn := 0#8, slot := false, fuseSvn := 0#32, flashA := [],
    flashB := [], staging := [], accept := Vector.replicate 4 0#32, featAcked := false, crqtail := 0#8, crqhead := 0#8,
    cqprod := 0#8, cqcons := 0#8, evprod := 0#16, evcons := 0#16, evdropped := 0, crq := [], cq := [], evq := [],
    msixTable := [], msix := [], linkUp := true, diePower := 0x1000#14, dieUp := 0x1000#14, fwDone := false, heldCompletion := .none,
    bootHeld := false,
    monitors := Vector.replicate 14 (Vector.replicate 8 Monitor.reset) }

/-- The machine right after module reset (R119, R121): no hart runs, no context is live, nothing is queued. -/
def State.reset : State :=
  { harts := Vector.replicate 4 Hart.reset, cur := 0, core := Core.reset, mem := Memory.reset, ctxs := [], jobs := [],
    groups := [], fab := Fabric.reset, clock := Clock.reset, trust := Trust.reset, sched := Sched.reset,
    host := HostIf.reset, arrivals := [], eager := true, free := 0 }

/-- Why the machine stops. The spec gives every instruction and event an effect, so nothing raises a fault: the type is empty. -/
inductive Fault where
  deriving DecidableEq, Repr

/-- Why the model gives an instruction no meaning. -/
inductive Refusal where
  /-- An instruction whose arm has no meaning yet. Safe: the machine stops. -/
  | notModelled (mnemonic : String)
  deriving DecidableEq, Repr

end Sys2Proof.Machine
end

