-- ==== Sys2Proof/Machine/Bytes.lean ====
section
/-! DEFINITION. Bytes: little-endian values (R401), the canonical memory of cells, and its reads and writes. -/

namespace Sys2Proof.Machine

/-! ### Little-endian values -/

/-- The value of bytes, lowest address first. -/
def leNat : List Byte → Nat
  | [] => 0
  | b :: bs => b.toNat + 256 * leNat bs

/-- `n` bytes of a value, lowest address first. -/
def natLe : Nat → Nat → List Byte
  | 0, _ => []
  | n + 1, v => BitVec.ofNat 8 v :: natLe n (v / 256)

/-- The bytes of a 64-bit word. -/
def wordLe (w : Word) : List Byte := natLe 8 w.toNat

/-- Bytes `off` to `off + n - 1` of a list, zero where it ends. -/
def slice (bs : List Byte) (off n : Nat) : List Byte :=
  let t := (bs.drop off).take n
  t ++ List.replicate (n - t.length) 0#8

/-- The value of bytes `off` to `off + n - 1` of a list. -/
def sliceNat (bs : List Byte) (off n : Nat) : Nat := leNat (slice bs off n)

/-- A list with bytes written over it at an offset. -/
def splice (bs : List Byte) (off : Nat) (new : List Byte) : List Byte :=
  bs.take off ++ new ++ bs.drop (off + new.length)

/-! ### Cells: rising addresses, no listed zero -/

/-- The byte at an address; an unlisted address reads zero (R310, R253; assumption 4). -/
def cellGet : List Host.Cell → Nat → Byte
  | [], _ => 0#8
  | (a, b) :: cs, k => if a = k then b else if k < a then 0#8 else cellGet cs k

/-- Write a byte and keep the form: the entry goes when the byte is zero. -/
def cellPut : List Host.Cell → Nat → Byte → List Host.Cell
  | [], k, v => if v = 0#8 then [] else [(k, v)]
  | (a, b) :: cs, k, v =>
    if a = k then (if v = 0#8 then cs else (k, v) :: cs)
    else if k < a then (if v = 0#8 then (a, b) :: cs else (k, v) :: (a, b) :: cs)
    else (a, b) :: cellPut cs k v

/-- The bytes from an address on. -/
def cellRead (cs : List Host.Cell) (k : Nat) : Nat → List Byte
  | 0 => []
  | n + 1 => cellGet cs k :: cellRead cs (k + 1) n

/-- Write bytes from an address on. -/
def cellWrite (cs : List Host.Cell) (k : Nat) : List Byte → List Host.Cell
  | [] => cs
  | b :: bs => cellWrite (cellPut cs k b) (k + 1) bs

/-- Every listed address lies above `lo`, addresses rise, and no listed byte is zero. -/
def cellsAbove : Option Nat → List Host.Cell → Bool
  | _, [] => true
  | lo, (a, b) :: cs => (match lo with | none => true | some l => decide (l < a)) && (b != 0#8) && cellsAbove (some a) cs

/-- The canonical form of the memory. -/
def Memory.wf (m : Memory) : Bool := cellsAbove none m.cells

/-! ### Sets of word numbers -/

/-- A word number added to a rising list. -/
def natInsert : List Nat → Nat → List Nat
  | [], k => [k]
  | a :: as, k => if a = k then a :: as else if k < a then k :: a :: as else a :: natInsert as k

/-- First address of HBM that does not exist (R296). -/
def hbmEnd : Nat := 0xC000000000

/-- The key of scratchpad byte `off` of a die's window (R295). -/
def spadKey (die off : Nat) : Nat := 2 ^ 44 + die * 2 ^ 25 + off

/-- Words of 8 bytes that `n` bytes at `k` touch. -/
def wordsOf (k n : Nat) : List Nat :=
  if n = 0 then [] else (List.range ((k + n - 1) / 8 - k / 8 + 1)).map (k / 8 + ·)

/-- Whether a word is uncorrectable where it stands (R316, R317): in the way that holds its line, else in the stack or the
scratchpad. A clean line with such a word is refilled, so the stack decides. -/
def Memory.wordBad (m : Memory) (w : Nat) : Bool :=
  match m.ways.find? (·.line = w / 8) with
  | some l => l.bad.contains w && (l.dirty || m.eccBad.contains w)
  | none => m.eccBad.contains w

/-- Whether one of the words that bytes touch is uncorrectable (R317); the first such word. -/
def eccHit (m : Memory) (k n : Nat) : Option Nat := (wordsOf k n).find? m.wordBad

/-- Whether bytes at `k` cover word `w` whole. -/
def coversWord (k n w : Nat) : Bool := decide (k ≤ 8 * w) && decide (8 * w + 8 ≤ k + n)

/-- Raw bytes of the storage, with no check. -/
def Memory.peek (m : Memory) (k n : Nat) : List Byte := cellRead m.cells k n

/-- Write the storage: a covered word's error is cleared, a partial store leaves its word as it stands (R316, R317). -/
def Memory.poke (m : Memory) (k : Nat) (bs : List Byte) : Memory :=
  let stays (w : Nat) : Bool := !coversWord k bs.length w
  { m with cells := cellWrite m.cells k bs, eccBad := m.eccBad.filter stays,
           ways := m.ways.map fun l => { l with bad := l.bad.filter stays } }

/-! ### HBM placement and cache ways (R307, R308, R313) -/

/-- The stack of a physical address, which is also its home die (R313). -/
def stackOf (pa : Nat) : Nat := pa / 65536 % 12

/-- The offset of a physical address in its stack (R313). -/
def stackOff (pa : Nat) : Nat := pa / 65536 / 12 * 65536 + pa % 65536

/-- The cache set of a physical line: bits [17:6] of the stack offset (R307). -/
def lineSet (line : Nat) : Nat := stackOff (64 * line) / 64 % 4096

/-- The banks of a die that are open in a mode, lowest first (R307, R309). -/
def Memory.waysOf (m : Memory) (die : Nat) (md : BankMode) : List Nat :=
  match m.banks[die]? with
  | some bs => (bs.toList.zipIdx.filter fun x => x.1.cur == md && !x.1.busy).map (·.2)
  | none => []

/-- The uncorrectable words of a line as its stack holds them. -/
def Memory.badOf (m : Memory) (line : Nat) : List Nat := m.eccBad.filter fun w => w / 8 = line

/-- A line leaves its way: a dirty one is written back, its uncorrectable words with it (R307, R316). -/
def Memory.evict (m : Memory) (l : WayLine) : Memory :=
  let m1 := { m with ways := m.ways.filter fun x => x.line != l.line }
  if l.dirty then { m1 with eccBad := l.bad.foldl natInsert (m1.eccBad.filter fun w => w / 8 ≠ l.line) } else m1

/-- A line filled into a way of one of the given banks: an invalid way, the lowest bank first, else the least recently used of its set
(R307). -/
def Memory.fillWay (m : Memory) (banks : List Nat) (line : Nat) (dirty : Bool) (bad : List Nat) : Memory :=
  let die := stackOf (64 * line)
  let inSet := m.ways.filter fun l => l.die = die && lineSet l.line = lineSet line && banks.contains l.bank
  match banks.find? fun b => !(inSet.any (·.bank = b)) with
  | some b => { m with ways := ⟨die, b, line, dirty, bad⟩ :: m.ways }
  | none =>
    match inSet.getLast? with
    | some l => let m1 := m.evict l; { m1 with ways := ⟨die, l.bank, line, dirty, bad⟩ :: m1.ways }
    | none => m

/-- A read of a line at the ways of its home die (R307, R308): a hit is served where it stands, a clean line with an uncorrectable word
being refilled (R316); a pointer read fills a CACHE.P way where the die has one, any other miss a CACHE.V way. -/
def Memory.readWay (m : Memory) (pointer : Bool) (line : Nat) : Memory :=
  match m.ways.find? (·.line = line) with
  | some l =>
    let l1 := if l.dirty || l.bad.isEmpty then l else { l with bad := m.badOf line }
    { m with ways := l1 :: m.ways.filter (·.line != line) }
  | none =>
    let ps := if pointer then m.waysOf (stackOf (64 * line)) .cacheP else []
    let banks := if ps.isEmpty then m.waysOf (stackOf (64 * line)) .cacheV else ps
    if banks.isEmpty then m else m.fillWay banks line false (m.badOf line)

/-- A write of a line at the ways of its home die (R307, R308): a CACHE.P copy is invalidated; then the line is dirty in a CACHE.V way,
which a miss fills, a store that covers the line without reading it. -/
def Memory.writeWay (m : Memory) (whole : Bool) (line : Nat) : Memory :=
  let banks := m.waysOf (stackOf (64 * line)) .cacheV
  match m.ways.find? (·.line = line) with
  | some l =>
    let m1 := { m with ways := m.ways.filter (·.line != line) }
    if banks.contains l.bank then { m1 with ways := { l with dirty := true } :: m1.ways }
    else if banks.isEmpty then m1
    else m1.fillWay banks line true (m1.badOf line)
  | none => if banks.isEmpty then m else m.fillWay banks line true (if whole then [] else m.badOf line)

/-- Lines of 64 bytes that bytes touch. -/
def linesOf (k n : Nat) : List Nat :=
  if n = 0 then [] else (List.range ((k + n - 1) / 64 - k / 64 + 1)).map (k / 64 + ·)

/-- A read of bytes of HBM looks up the ways (R307, R308); scratchpad bytes have their bank. -/
def Memory.touchRead (m : Memory) (pointer : Bool) (k n : Nat) : Memory :=
  if k < hbmEnd then (linesOf k n).foldl (fun m l => m.readWay pointer l) m else m

/-- A write of bytes of HBM looks up the ways (R307, R308). -/
def Memory.touchWrite (m : Memory) (k n : Nat) : Memory :=
  if k < hbmEnd then (linesOf k n).foldl (fun m l => m.writeWay (decide (k ≤ 64 * l) && decide (64 * l + 64 ≤ k + n)) l) m else m

end Sys2Proof.Machine
end

