-- ==== Sys2Proof/Machine/Crypto.lean ====
section
/-! DEFINITION. AES-256-GCM (R101, R104, R319): the block cipher, the counter stream, and the tag. Nonces, counters and the numbers of the
tag are byte strings with the most significant byte first (assumption 61). -/

namespace Sys2Proof.Machine

/-- `n` bytes of a value, the most significant first. -/
def natBe (n v : Nat) : List Byte := (natLe n v).reverse

/-- The exclusive or of two byte strings. -/
def xorBytes (a b : List Byte) : List Byte := List.zipWith (· ^^^ ·) a b

/-! ### The block cipher -/

/-- The substitution box: the byte for x at bits 8 x on. -/
def aesBox : Nat :=
  0x16BB54B00F2D99416842E6BF0D89A18CDF2855CEE9871E9B948ED9691198F8E19E1DC186B95735610EF6034866B53E708A8BBD4B1F74DDE8C6B4A61C2E2578BA08AE7A65EAF4566CA94ED58D6D37C8E779E4959162ACD3C25C2406490A3A32E0DB0B5EDE14B8EE4688902A22DC4F816073195D643D7EA7C41744975FEC130CCDD2F3FF1021DAB6BCF5389D928F40A351A89F3C507F02F94585334D43FBAAEFD0CF584C4A39BECB6A5BB1FC20ED00D153842FE329B3D63B52A05A6E1B1A2C830975B227EBE28012079A059618C323C7041531D871F1E5A534CCF73F362693FDB7C072A49CAFA2D4ADF04759FA7DC982CA76ABD7FE2B670130C56F6BF27B777C63

/-- The substitution of a byte. -/
def aesSub (b : Byte) : Byte := BitVec.ofNat 8 (aesBox / 2 ^ (8 * b.toNat))

/-- Twice a byte in the cipher's field. -/
def aesTwice (b : Byte) : Byte := (b <<< 1) ^^^ (if b.getLsbD 7 then 0x1B#8 else 0#8)

/-- What the `i`-th word of the key schedule adds to the word eight before it, from the word before it. -/
def aesStir (i : Nat) (w : List Byte) : List Byte :=
  let s := w.map aesSub
  if i % 8 = 0 then xorBytes (s.drop 1 ++ s.take 1) [(List.range (i / 8 - 1)).foldl (fun b _ => aesTwice b) 1#8, 0#8, 0#8, 0#8]
  else if i % 8 = 4 then s
  else w

/-- The key schedule: words `i` to `i + n - 1` put before the words before them, the youngest first. -/
def aesWords : Nat → Nat → List (List Byte) → List (List Byte)
  | 0, _, ws => ws
  | n + 1, i, ws => aesWords n (i + 1) (xorBytes (ws.getD 7 []) (aesStir i (ws.headD [])) :: ws)

/-- The fifteen round keys of a 256-bit key. -/
def aesKeys (key : List Byte) : List (List Byte) :=
  let first := ((List.range 8).map fun i => slice key (4 * i) 4).reverse
  let ws := (aesWords 52 8 first).reverse.flatten
  (List.range 15).map fun r => slice ws (16 * r) 16

/-- The rows of a block turn: byte i comes from byte 5 i. -/
def aesRows (b : List Byte) : List Byte := (List.range 16).map fun i => b.getD (5 * i % 16) 0#8

/-- A column of a block is mixed: byte i from the bytes of its column. -/
def aesMix (b : List Byte) : List Byte :=
  (List.range 16).map fun i =>
    let c (k : Nat) : Byte := b.getD (i / 4 * 4 + (i + k) % 4) 0#8
    aesTwice (c 0 ^^^ c 1) ^^^ c 1 ^^^ c 2 ^^^ c 3

/-- One block under round keys. -/
def aesBlock (keys : List (List Byte)) (block : List Byte) : List Byte :=
  let start := xorBytes block (keys.headD [])
  let body := ((keys.drop 1).take 13).foldl (fun b k => xorBytes (aesMix (aesRows (b.map aesSub))) k) start
  xorBytes (aesRows (body.map aesSub)) (keys.getD 14 [])

/-! ### Counter mode and the tag -/

/-- Counter block `n` of a nonce. -/
def gcmBlock (keys : List (List Byte)) (nonce : BitVec 96) (n : Nat) : List Byte := aesBlock keys (natBe 12 nonce.toNat ++ natBe 4 n)

/-- The stream that data of `n` bytes is sealed with. -/
def gcmStream (keys : List (List Byte)) (nonce : BitVec 96) (n : Nat) : List Byte :=
  ((List.range ((n + 15) / 16)).flatMap fun i => gcmBlock keys nonce (i + 2)).take n

/-- A product in the tag's field, whose first bit is the most significant. -/
def gcmMul (a b : BitVec 128) : BitVec 128 :=
  ((List.range 128).foldl (fun (r : BitVec 128 × BitVec 128) i =>
    (if a.getMsbD i then r.1 ^^^ r.2 else r.1, (r.2 >>> 1) ^^^ (if r.2.getLsbD 0 then 0xE1#128 <<< 120 else 0#128))) (0#128, b)).1

/-- Bytes up to a whole block. -/
def gcmPad (d : List Byte) : List Byte := d ++ List.replicate ((16 - d.length % 16) % 16) 0#8

/-- The hash of whole blocks under a hash key. -/
def gcmHash (h : BitVec 128) : Nat → List Byte → BitVec 128 → BitVec 128
  | 0, _, y => y
  | n + 1, d, y => gcmHash h n (d.drop 16) (gcmMul (y ^^^ BitVec.ofNat 128 (leNat (slice d 0 16).reverse)) h)

/-- The tag of sealed data with its additional data. -/
def gcmTag (keys : List (List Byte)) (nonce : BitVec 96) (extra data : List Byte) : List Byte :=
  let h : BitVec 128 := BitVec.ofNat 128 (leNat (aesBlock keys (List.replicate 16 0#8)).reverse)
  let d := gcmPad extra ++ gcmPad data ++ natBe 8 (8 * extra.length) ++ natBe 8 (8 * data.length)
  xorBytes (natBe 16 (gcmHash h (d.length / 16) d 0#128).toNat) (gcmBlock keys nonce 1)

/-- Data sealed under a key: as long as it was, and its tag of 16 bytes. -/
def gcmSeal (key : List Byte) (nonce : BitVec 96) (extra data : List Byte) : List Byte :=
  let keys := aesKeys key
  let c := xorBytes data (gcmStream keys nonce data.length)
  c ++ gcmTag keys nonce extra c

/-- Sealed data opened: none when its tag does not verify. -/
def gcmOpen (key : List Byte) (nonce : BitVec 96) (extra sealed_ : List Byte) : Option (List Byte) :=
  let keys := aesKeys key
  let c := sealed_.take (sealed_.length - 16)
  if 16 ≤ sealed_.length && gcmTag keys nonce extra c == sealed_.drop (sealed_.length - 16) then
    some (xorBytes c (gcmStream keys nonce c.length))
  else none

end Sys2Proof.Machine
end

