-- ==== Sys2Proof/Machine/Numbers.lean ====
section
/-! DEFINITION. Number formats and arithmetic (spec chapter 10): exact integer and floating-point operations, rounded
once. An element or operand is a bit pattern held as a natural number below 2^w; every function here is pure. -/

namespace Sys2Proof.Machine

/-! ### Integers (R262 to R264) -/

/-- The signed value of a `w`-bit pattern (R262). -/
def sval (w n : Nat) : Int :=
  if n % 2 ^ w < 2 ^ (w - 1) then Int.ofNat (n % 2 ^ w) else Int.ofNat (n % 2 ^ w) - 2 ^ w

/-- The `w`-bit pattern of an integer, modulo 2^w (R263). -/
def wrap (w : Nat) (i : Int) : Nat := (i % 2 ^ w).toNat

/-- Clamp an integer to a closed range (R263). -/
def clampInt (lo hi i : Int) : Int := if i < lo then lo else if hi < i then hi else i

/-- The pattern of an integer clamped to the signed `w`-bit range (R263). -/
def satS (w : Nat) (i : Int) : Nat := wrap w (clampInt (-(2 ^ (w - 1))) (2 ^ (w - 1) - 1) i)

/-- The pattern of an integer clamped to the unsigned `w`-bit range (R263). -/
def satU (w : Nat) (i : Int) : Nat := wrap w (clampInt 0 (2 ^ w - 1) i)

/-- Signed division of `w`-bit patterns (R264): truncating, saturating at the corners. -/
def divS (w a b : Nat) : Nat :=
  if sval w b = 0 then
    (if sval w a < 0 then wrap w (-(2 ^ (w - 1))) else wrap w (2 ^ (w - 1) - 1))
  else satS w (Int.tdiv (sval w a) (sval w b))

/-- Unsigned division of `w`-bit patterns (R264). -/
def divU (w a b : Nat) : Nat := if b % 2 ^ w = 0 then 2 ^ w - 1 else (a % 2 ^ w) / (b % 2 ^ w)

/-- Signed remainder (R264): the sign of the dividend; 0 for a divisor of 0. -/
def remS (w a b : Nat) : Nat :=
  if sval w b = 0 then 0 else wrap w (Int.tmod (sval w a) (sval w b))

/-- Unsigned remainder (R264); 0 for a divisor of 0. -/
def remU (w a b : Nat) : Nat := if b % 2 ^ w = 0 then 0 else (a % 2 ^ w) % (b % 2 ^ w)

/-- Bits [2w-1:w] of the exact signed product (R264). -/
def mulhS (w a b : Nat) : Nat := wrap w ((sval w a * sval w b) / 2 ^ w)

/-- Bits [2w-1:w] of the exact unsigned product (R264). -/
def mulhU (w a b : Nat) : Nat := ((a % 2 ^ w) * (b % 2 ^ w)) / 2 ^ w

/-- Number of set bits among the low `w` bits. -/
def popc : Nat → Nat → Nat
  | 0, _ => 0
  | w + 1, n => n % 2 + popc w (n / 2)

/-- Leading zero bits of the low `w` bits; `w` for zero. -/
def clz : Nat → Nat → Nat
  | 0, _ => 0
  | w + 1, n => if n.testBit w then 0 else clz w n + 1

/-- Trailing zero bits of the low `w` bits; `w` for zero. -/
def ctz : Nat → Nat → Nat
  | 0, _ => 0
  | w + 1, n => if n % 2 = 1 then 0 else ctz w (n / 2) + 1

/-- The low `w` bits in reverse order. -/
def brev : Nat → Nat → Nat
  | 0, _ => 0
  | w + 1, n => (n % 2) * 2 ^ w + brev w (n / 2)

/-- Arithmetic shift right of a `w`-bit pattern by `k` below `w`. -/
def sraPat (w a k : Nat) : Nat := wrap w (sval w a / 2 ^ k)

/-- Bits [pos+len-1:pos] of `a`. -/
def bitsAt (a pos len : Nat) : Nat := (a / 2 ^ pos) % 2 ^ len

/-! ### Floating-point formats (R265 to R268) -/

/-- The floating-point formats of R265. -/
inductive Fmt where
  | f64 | f32 | f16 | bf16 | e5m2 | e4m3 | e2m1
  deriving DecidableEq, Repr

/-- Exponent bits of a format (R265). -/
def fmtE : Fmt → Nat
  | .f64 => 11 | .f32 => 8 | .f16 => 5 | .bf16 => 8 | .e5m2 => 5 | .e4m3 => 4 | .e2m1 => 2

/-- Fraction bits of a format (R265). -/
def fmtF : Fmt → Nat
  | .f64 => 52 | .f32 => 23 | .f16 => 10 | .bf16 => 7 | .e5m2 => 2 | .e4m3 => 3 | .e2m1 => 1

/-- Exponent bias of a format (R265). -/
def fmtBias : Fmt → Nat
  | .f64 => 1023 | .f32 => 127 | .f16 => 15 | .bf16 => 127 | .e5m2 => 15 | .e4m3 => 7 | .e2m1 => 1

/-- Width of a format in bits (R265). -/
def fmtBits (f : Fmt) : Nat := 1 + fmtE f + fmtF f

/-- Magnitude pattern of the largest finite value (R265). -/
def fmtMax : Fmt → Nat
  | .f64 => 0x7FEFFFFFFFFFFFFF | .f32 => 0x7F7FFFFF | .f16 => 0x7BFF | .bf16 => 0x7F7F
  | .e5m2 => 0x7B | .e4m3 => 0x7E | .e2m1 => 0x7

/-- Whether the format has infinities (R265, R266). -/
def fmtHasInf : Fmt → Bool
  | .e4m3 => false | .e2m1 => false | _ => true

/-- The canonical NaN of a format (R268); e2m1 has none, and a NaN converted to it gives +0 (R276). -/
def canonNaN : Fmt → Nat
  | .f64 => 0x7FF8000000000000 | .f32 => 0x7FC00000 | .f16 => 0x7E00 | .bf16 => 0x7FC0
  | .e5m2 => 0x7E | .e4m3 => 0x7F | .e2m1 => 0

/-- A decoded floating-point value: a NaN, an infinity, or the exact value (-1)^neg * man * 2^exp. -/
inductive FpVal where
  | nan (signalling : Bool)
  | inf (neg : Bool)
  | num (neg : Bool) (man : Nat) (exp : Int)
  deriving DecidableEq, Repr

/-- Sign bit of a pattern. -/
def fpSign (f : Fmt) (n : Nat) : Bool := n.testBit (fmtBits f - 1)

/-- Exponent field of a pattern. -/
def fpExpField (f : Fmt) (n : Nat) : Nat := bitsAt n (fmtF f) (fmtE f)

/-- Fraction field of a pattern. -/
def fpFrac (f : Fmt) (n : Nat) : Nat := n % 2 ^ fmtF f

/-- The value of a pattern (R265 to R267). -/
def fpDecode (f : Fmt) (n : Nat) : FpVal :=
  let e := fpExpField f n
  let fr := fpFrac f n
  let normal := FpVal.num (fpSign f n) (2 ^ fmtF f + fr) (Int.ofNat e - fmtBias f - fmtF f)
  if e = 0 then .num (fpSign f n) fr (1 - (fmtBias f : Int) - fmtF f)
  else if e = 2 ^ fmtE f - 1 then
    match f with
    | .e2m1 => normal
    | .e4m3 => if fr = 7 then .nan false else normal
    | _ => if fr = 0 then .inf (fpSign f n) else .nan (!fr.testBit (fmtF f - 1))
  else normal

/-- Whether a decoded value is a NaN. -/
def FpVal.isNaN : FpVal → Bool
  | .nan _ => true
  | _ => false

/-- Whether a decoded value is a signalling NaN (R267). -/
def FpVal.isSNaN : FpVal → Bool
  | .nan s => s
  | _ => false

/-- Whether a decoded value is a zero. -/
def FpVal.isZero : FpVal → Bool
  | .num _ m _ => m == 0
  | _ => false

/-- The sign of a decoded value; a NaN's sign carries no meaning (R267). -/
def FpVal.neg : FpVal → Bool
  | .nan _ => false
  | .inf s => s
  | .num s _ _ => s

/-- Negation of a decoded value. -/
def FpVal.negate : FpVal → FpVal
  | .nan s => .nan s
  | .inf s => .inf (!s)
  | .num s m e => .num (!s) m e

/-! ### Flags and rounding (R272 to R275) -/

/-- FCSR[8:4]: NV, DZ, OF, UF, NX from bit 4 down to bit 0 (R256). -/
abbrev Flags := BitVec 5

/-- Invalid operation. -/
def flNV : Flags := 0b10000#5
/-- Division by zero. -/
def flDZ : Flags := 0b01000#5
/-- Overflow. -/
def flOF : Flags := 0b00100#5
/-- Underflow. -/
def flUF : Flags := 0b00010#5
/-- Inexact. -/
def flNX : Flags := 0b00001#5

/-- A flag when a condition holds. -/
def flIf (c : Bool) (f : Flags) : Flags := if c then f else 0#5

/-- The rounding modes of R272, by code. -/
inductive RMode where
  | rne | rmm | rup | rdn | rtz
  deriving DecidableEq, Repr

/-- The rounding mode of a code of 0 to 4 (R272); 5 to 7 are no mode (R273). -/
def rmodeOf : Nat → Option RMode
  | 0 => some .rne | 1 => some .rmm | 2 => some .rup | 3 => some .rdn | 4 => some .rtz
  | _ => none

/-- An exact result before rounding. `num neg man exp sticky` stands for a magnitude of
(man + θ) * 2^exp, with θ = 0 when `sticky` is false and 0 < θ < 1 otherwise. -/
inductive Exact where
  | nan
  | inf (neg : Bool)
  | num (neg : Bool) (man : Nat) (exp : Int) (sticky : Bool)
  deriving DecidableEq, Repr

/-- Whether a discarded part rounds the magnitude up (R272): `odd` is the kept fraction's last bit,
`rem` of `2 ^ sh` the discarded part. -/
def roundsUp (mode : RMode) (neg odd : Bool) (rem sh : Nat) : Bool :=
  match mode with
  | .rne => decide (2 ^ sh < 2 * rem) || (decide (2 * rem = 2 ^ sh) && odd)
  | .rmm => decide (2 ^ sh ≤ 2 * rem)
  | .rup => decide (rem ≠ 0) && !neg
  | .rdn => decide (rem ≠ 0) && neg
  | .rtz => false

/-- The magnitude `m * 2^e` rounded to a multiple of `2^lsb`: the multiple, and whether it is inexact. -/
def roundTo (mode : RMode) (neg : Bool) (m : Nat) (e lsb : Int) : Nat × Bool :=
  if lsb ≤ e then (m * 2 ^ (e - lsb).toNat, false)
  else
    let sh := (lsb - e).toNat
    let q := m / 2 ^ sh
    let rem := m % 2 ^ sh
    (q + (if roundsUp mode neg (q.testBit 0) rem sh then 1 else 0), decide (rem ≠ 0))

/-- Compare `a * 2^ea` with `b * 2^eb`: whether the first is smaller. -/
def dyLt (a : Nat) (ea : Int) (b : Nat) (eb : Int) : Bool :=
  let e := min ea eb
  decide (a * 2 ^ (ea - e).toNat < b * 2 ^ (eb - e).toNat)

/-- A sign bit placed at the top of a format. -/
def withSign (f : Fmt) (neg : Bool) (mag : Nat) : Nat :=
  if neg then mag + 2 ^ (fmtBits f - 1) else mag

/-- The result of an overflow (R275); `sat` is the saturation of a conversion. -/
def overflowResult (f : Fmt) (mode : RMode) (neg sat : Bool) : Nat :=
  let infp := (2 ^ fmtE f - 1) * 2 ^ fmtF f
  let big : Bool :=
    match mode with
    | .rne => true
    | .rmm => true
    | .rtz => false
    | .rdn => neg
    | .rup => !neg
  withSign f neg (if sat || !fmtHasInf f || !big then fmtMax f else infp)

/-- Round a non-zero exact magnitude to a format: the pattern and the flags OF, UF and NX (R272, R274, R275). -/
def roundNum (f : Fmt) (mode : RMode) (sat neg : Bool) (man : Nat) (exp : Int) (sticky : Bool) : Nat × Flags :=
  let m := 4 * man + (if sticky then 1 else 0)
  let e := exp - 2
  if m = 0 then (withSign f neg 0, 0#5)
  else
    let top : Int := e + Int.ofNat (Nat.log2 m)
    let emin : Int := 1 - (fmtBias f : Int)
    let lsb : Int := max top emin - fmtF f
    let (sig, inexact) := roundTo mode neg m e lsb
    let (usig, _) := roundTo mode neg m e (top - fmtF f)
    let biased : Nat := (lsb + fmtF f + fmtBias f).toNat
    let mag := sig + (biased - 1) * 2 ^ fmtF f
    if fmtMax f < mag then (overflowResult f mode neg sat, flOF ||| flNX)
    else
      let tiny := dyLt usig (top - fmtF f) 1 emin
      (withSign f neg mag, flIf inexact flNX ||| flIf (tiny && inexact) flUF)

/-- Round an exact result to a format (R272, R275); a NaN becomes canonical (R268). -/
def roundExact (f : Fmt) (mode : RMode) (sat : Bool) : Exact → Nat × Flags
  | .nan => (canonNaN f, 0#5)
  | .inf neg => (withSign f neg ((2 ^ fmtE f - 1) * 2 ^ fmtF f), 0#5)
  | .num neg man exp sticky => roundNum f mode sat neg man exp sticky

/-! ### Exact operations -/

/-- The exact value of a decoded operand, as a result. -/
def exactOf : FpVal → Exact
  | .nan _ => .nan
  | .inf s => .inf s
  | .num s m e => .num s m e false

/-- A signed dyadic as an integer over 2^e. -/
def dyInt (neg : Bool) (man : Nat) (exp e : Int) : Int :=
  let v : Int := Int.ofNat (man * 2 ^ (exp - e).toNat)
  if neg then -v else v

/-- The exact sum of two finite values; an exact zero has the sign of R510. -/
def addNum (mode : RMode) (sa : Bool) (ma : Nat) (ea : Int) (sb : Bool) (mb : Nat) (eb : Int) : Exact :=
  let e := min ea eb
  let t := dyInt sa ma ea e + dyInt sb mb eb e
  if t = 0 then .num (if sa == sb then sa else mode == .rdn) 0 e false
  else .num (decide (t < 0)) t.natAbs e false

/-- The exact sum, with NV for inf - inf and for a signalling NaN (R274). -/
def addExact (mode : RMode) (a b : FpVal) : Exact × Flags :=
  match a, b with
  | .num sa ma ea, .num sb mb eb => (addNum mode sa ma ea sb mb eb, 0#5)
  | .inf sa, .inf sb => if sa == sb then (.inf sa, 0#5) else (.nan, flNV)
  | .inf sa, .num _ _ _ => (.inf sa, 0#5)
  | .num _ _ _, .inf sb => (.inf sb, 0#5)
  | _, _ => (.nan, flIf (a.isSNaN || b.isSNaN) flNV)

/-- The exact product of two values, as a value; 0 times an infinity is a NaN with NV (R274). -/
def mulVal (a b : FpVal) : FpVal × Flags :=
  match a, b with
  | .num sa ma ea, .num sb mb eb => (.num (sa != sb) (ma * mb) (ea + eb), 0#5)
  | .inf sa, .inf sb => (.inf (sa != sb), 0#5)
  | .inf sa, .num sb mb _ => if mb = 0 then (.nan false, flNV) else (.inf (sa != sb), 0#5)
  | .num sa ma _, .inf sb => if ma = 0 then (.nan false, flNV) else (.inf (sa != sb), 0#5)
  | _, _ => (.nan false, flIf (a.isSNaN || b.isSNaN) flNV)

/-- The exact quotient to enough bits for any format of R265, with its remainder as sticky. -/
def divNum (neg : Bool) (ma : Nat) (ea : Int) (mb : Nat) (eb : Int) : Exact :=
  let k := Nat.log2 mb + 130
  let n := ma * 2 ^ k
  .num neg (n / mb) (ea - eb - k) (decide (n % mb ≠ 0))

/-- The exact quotient, with NV for 0/0 and inf/inf and DZ for a finite non-zero number over zero (R274). -/
def divExact (a b : FpVal) : Exact × Flags :=
  match a, b with
  | .num sa ma ea, .num sb mb eb =>
    if mb = 0 then (if ma = 0 then (.nan, flNV) else (.inf (sa != sb), flDZ))
    else (divNum (sa != sb) ma ea mb eb, 0#5)
  | .inf _, .inf _ => (.nan, flNV)
  | .inf sa, .num sb _ _ => (.inf (sa != sb), 0#5)
  | .num sa _ _, .inf sb => (.num (sa != sb) 0 0 false, 0#5)
  | _, _ => (.nan, flIf (a.isSNaN || b.isSNaN) flNV)

/-- Integer square root by bits: the largest r with r*r at most n, `r` having at most `k` bits. -/
def isqrtBits : Nat → Nat → Nat → Nat
  | 0, _, r => r
  | k + 1, n, r => if (r + 2 ^ k) * (r + 2 ^ k) ≤ n then isqrtBits k n (r + 2 ^ k) else isqrtBits k n r

/-- The largest r with r*r at most n. -/
def isqrt (n : Nat) : Nat := isqrtBits (Nat.log2 n / 2 + 1) n 0

/-- The exact square root of a non-negative finite magnitude, to enough bits, with sticky. -/
def sqrtNum (m : Nat) (e : Int) : Exact :=
  let k : Nat := 140 + (if (e % 2 = 0) then 0 else 1)
  let n := m * 2 ^ k
  let r := isqrt n
  .num false r ((e - k) / 2) (decide (r * r ≠ n))

/-- The exact square root (R274): NV below -0; the root of -0 is -0 (R517). -/
def sqrtExact (a : FpVal) : Exact × Flags :=
  match a with
  | .nan s => (.nan, flIf s flNV)
  | .inf s => if s then (.nan, flNV) else (.inf false, 0#5)
  | .num s m e =>
    if m = 0 then (.num s 0 0 false, 0#5)
    else if s then (.nan, flNV) else (sqrtNum m e, 0#5)

/-- Round an exact result and add the flags of its computation. -/
def finish (f : Fmt) (mode : RMode) (r : Exact × Flags) : Nat × Flags :=
  let (n, fl) := roundExact f mode false r.1
  (n, r.2 ||| fl)

/-- a + b, rounded once (R272). -/
def fpAdd (f : Fmt) (mode : RMode) (a b : Nat) : Nat × Flags :=
  finish f mode (addExact mode (fpDecode f a) (fpDecode f b))

/-- a - b, rounded once (R272). -/
def fpSub (f : Fmt) (mode : RMode) (a b : Nat) : Nat × Flags :=
  finish f mode (addExact mode (fpDecode f a) (fpDecode f b).negate)

/-- a * b, rounded once (R272). -/
def fpMul (f : Fmt) (mode : RMode) (a b : Nat) : Nat × Flags :=
  let (p, fl) := mulVal (fpDecode f a) (fpDecode f b)
  finish f mode (exactOf p, fl)

/-- a / b, rounded once (R272). -/
def fpDiv (f : Fmt) (mode : RMode) (a b : Nat) : Nat × Flags :=
  finish f mode (divExact (fpDecode f a) (fpDecode f b))

/-- The square root of a, rounded once (R272). -/
def fpSqrt (f : Fmt) (mode : RMode) (a : Nat) : Nat × Flags :=
  finish f mode (sqrtExact (fpDecode f a))

/-- (±a * b) + (±c), rounded once (R272, R517): `np` negates the product, `nc` the addend. -/
def fpFma (f : Fmt) (mode : RMode) (np nc : Bool) (a b c : Nat) : Nat × Flags :=
  let (p, fl) := mulVal (fpDecode f a) (fpDecode f b)
  let cv := fpDecode f c
  let r := addExact mode (if np then p.negate else p) (if nc then cv.negate else cv)
  finish f mode (r.1, r.2 ||| fl)

/-! ### Comparison, minimum and maximum (R280, R281) -/

/-- The order of two values that are not NaN: -1, 0 or 1 (−0 equal to +0). -/
def cmpVal (a b : FpVal) : Int :=
  match a, b with
  | .inf sa, .inf sb => if sa == sb then 0 else if sa then -1 else 1
  | .inf sa, _ => if sa then -1 else 1
  | _, .inf sb => if sb then 1 else -1
  | .num sa ma ea, .num sb mb eb =>
    let e := min ea eb
    let x := dyInt sa ma ea e
    let y := dyInt sb mb eb e
    if x < y then -1 else if y < x then 1 else 0
  | _, _ => 0

/-- The order in which −0 lies below +0 (R280). -/
def cmpValZ (a b : FpVal) : Int :=
  if a.isZero && b.isZero then (if a.neg == b.neg then 0 else if a.neg then -1 else 1) else cmpVal a b

/-- Minimum (`mx` false) or maximum (R280). -/
def fpMinMax (f : Fmt) (mx : Bool) (a b : Nat) : Nat × Flags :=
  let va := fpDecode f a
  let vb := fpDecode f b
  let fl := flIf (va.isSNaN || vb.isSNaN) flNV
  if va.isNaN then (if vb.isNaN then canonNaN f else b, fl)
  else if vb.isNaN then (a, fl)
  else if (cmpValZ va vb < 0) == mx then (b, fl)
  else (a, fl)

/-- The relations of scalar and vector comparison (R280). -/
inductive FpRel where
  | eq | ne | lt | le | gt | ge | uno | ord
  deriving DecidableEq, Repr

/-- A floating-point comparison and its flags (R280). -/
def fpCompare (f : Fmt) (rel : FpRel) (a b : Nat) : Bool × Flags :=
  let va := fpDecode f a
  let vb := fpDecode f b
  let isn := va.isNaN || vb.isNaN
  let quiet := flIf (va.isSNaN || vb.isSNaN) flNV
  let loud := flIf isn flNV
  let c := cmpVal va vb
  match rel with
  | .eq => (!isn && decide (c = 0), quiet)
  | .ne => (isn || decide (c ≠ 0), quiet)
  | .lt => (!isn && decide (c < 0), loud)
  | .le => (!isn && decide (c ≤ 0), loud)
  | .gt => (!isn && decide (0 < c), loud)
  | .ge => (!isn && decide (0 ≤ c), loud)
  | .uno => (isn, quiet)
  | .ord => (!isn, quiet)

/-- The NaN-low order (R281): -1, 0 or 1, every NaN below −∞. -/
def nanLowCmp (f : Fmt) (a b : Nat) : Int :=
  let va := fpDecode f a
  let vb := fpDecode f b
  if va.isNaN then (if vb.isNaN then 0 else -1) else if vb.isNaN then 1 else cmpVal va vb

/-- The 4-bit class code of `fclass` (R447). -/
def fpClass (f : Fmt) (n : Nat) : Nat :=
  (if fpSign f n then 8 else 0) +
  match fpDecode f n with
  | .nan true => 5
  | .nan false => 4
  | .inf _ => 3
  | .num _ m _ => if m = 0 then 0 else if fpExpField f n = 0 then 1 else 2

/-! ### Conversions (R276 to R279) -/

/-- Floating point to floating point from an exact source value (R276). -/
def cvtVal (d : Fmt) (mode : RMode) (sat : Bool) (v : FpVal) : Nat × Flags :=
  match v with
  | .nan s => (canonNaN d, flIf (s || d == .e2m1) flNV)
  | .inf neg =>
    if fmtHasInf d then (withSign d neg ((2 ^ fmtE d - 1) * 2 ^ fmtF d), 0#5)
    else (withSign d neg (fmtMax d), flOF ||| flNX)
  | .num neg m e => roundNum d mode sat neg m e false

/-- Floating point to floating point (R276). -/
def fpToFp (s d : Fmt) (mode : RMode) (sat : Bool) (n : Nat) : Nat × Flags := cvtVal d mode sat (fpDecode s n)

/-- The integer a finite value rounds to, and whether that is inexact. -/
def roundToInt (mode : RMode) (neg : Bool) (m : Nat) (e : Int) : Int × Bool :=
  let (q, ix) := roundTo mode neg m e 0
  (if neg then -Int.ofNat q else Int.ofNat q, ix)

/-- Floating point to a `w`-bit integer (R277); always saturates. -/
def fpToInt (s : Fmt) (signed : Bool) (w : Nat) (mode : RMode) (n : Nat) : Nat × Flags :=
  let lo : Int := if signed then -(2 ^ (w - 1)) else 0
  let hi : Int := if signed then 2 ^ (w - 1) - 1 else 2 ^ w - 1
  match fpDecode s n with
  | .nan _ => (0, flNV)
  | .inf neg => (wrap w (if neg then lo else hi), flNV)
  | .num neg m e =>
    let (i, ix) := roundToInt mode neg m e
    if hi < i then (wrap w hi, flNV)
    else if i < lo then (wrap w lo, flNV)
    else (wrap w i, flIf ix flNX)

/-- An integer to floating point (R278). -/
def intToFp (d : Fmt) (mode : RMode) (sat : Bool) (i : Int) : Nat × Flags :=
  roundNum d mode sat (decide (i < 0)) i.natAbs 0 false

/-- Integer type to integer type (R279). -/
def intToInt (ss : Bool) (ws : Nat) (ds : Bool) (wd : Nat) (sat : Bool) (n : Nat) : Nat :=
  let i : Int := if ss then sval ws n else Int.ofNat (n % 2 ^ ws)
  if wd ≤ ws && sat then (if ds then satS wd i else satU wd i) else wrap wd i

/-! ### Sign operations and saturation (R519, R283) -/

/-- |a| (R519). -/
def fpAbs (f : Fmt) (a : Nat) : Nat :=
  if (fpDecode f a).isNaN then canonNaN f else a % 2 ^ (fmtBits f - 1)

/-- −a (R519). -/
def fpNeg (f : Fmt) (a : Nat) : Nat :=
  if (fpDecode f a).isNaN then canonNaN f else withSign f (!fpSign f a) (a % 2 ^ (fmtBits f - 1))

/-- |a| with the sign of b (R519). -/
def fpSgn (f : Fmt) (a b : Nat) : Nat :=
  if (fpDecode f a).isNaN then canonNaN f else withSign f (fpSign f b) (a % 2 ^ (fmtBits f - 1))

/-- The saturation of `vfsat` (R283). -/
def fpSat (f : Fmt) (a : Nat) : Nat :=
  match fpDecode f a with
  | .nan _ => canonNaN f
  | .inf s => withSign f s (fmtMax f)
  | .num _ _ _ => a

/-! ### Reciprocal tables (R518) -/

/-- Round `n / d` to the nearest integer, ties to even. -/
def rneDiv (n d : Nat) : Nat :=
  let q := n / d
  let r := n % d
  if d < 2 * r || (2 * r = d && q % 2 = 1) then q + 1 else q

/-- The first `k` fraction bits of the normalised mantissa of `m`, missing bits 0 (R518). -/
def mantTop (m k : Nat) : Nat :=
  let l := Nat.log2 m
  bitsAt (m * 2 ^ k) l k

/-- `vfrcp` (R518). -/
def fpRcp (f : Fmt) (a : Nat) : Nat × Flags :=
  match fpDecode f a with
  | .nan s => (canonNaN f, flIf s flNV)
  | .inf s => (withSign f s 0, 0#5)
  | .num s m e =>
    if m = 0 then (withSign f s ((2 ^ fmtE f - 1) * 2 ^ fmtF f), flDZ)
    else
      let ee : Int := e + Int.ofNat (Nat.log2 m)
      let i := mantTop m 10
      let t := rneDiv (2 ^ 24) (2049 + 2 * i) - 4096
      roundNum f .rne false s (4096 + t) (-ee - 1 - 12) false

/-- `vfrsqrt` (R518): T + 4096 is the integer nearest to the root of 2^36 / N, with c = N / 1024. -/
def fpRsqrt (f : Fmt) (a : Nat) : Nat × Flags :=
  match fpDecode f a with
  | .nan s => (canonNaN f, flIf s flNV)
  | .inf s => if s then (canonNaN f, flNV) else (0, 0#5)
  | .num s m e =>
    if m = 0 then (withSign f s ((2 ^ fmtE f - 1) * 2 ^ fmtF f), flDZ)
    else if s then (canonNaN f, flNV)
    else
      let ee : Int := e + Int.ofNat (Nat.log2 m)
      let p : Nat := (ee % 2).toNat
      let j := mantTop m 9
      let n := 2 ^ p * (1025 + 2 * j)
      let t := (isqrt (2 ^ 38 / n) + 1) / 2 - 4096
      roundNum f .rne false false (4096 + t) (-((ee - p) / 2) - 1 - 12) false

/-! ### Exponential and logarithm (R284) -/

/-- Working fraction bits of the two transcendental functions: enough that the rounding of every operand of R265 is
decided by the truncated value and a sticky bit (assumption 12). -/
def transBits : Nat := 1400

/-- Σ 1 / (k 2^k) over `transBits` fraction bits: ln 2, truncated. -/
def ln2Aux : Nat → Nat → Nat
  | 0, acc => acc
  | k + 1, acc => ln2Aux k (acc + 2 ^ transBits / ((k + 1) * 2 ^ (k + 1)))

/-- ln 2 over `transBits` fraction bits. -/
def ln2Fix : Nat := ln2Aux transBits 0

/-- The Taylor series of exp z over `transBits` fraction bits. -/
def expAux : Nat → Nat → Nat → Nat → Nat → Nat
  | 0, _, _, _, acc => acc
  | n + 1, k, z, term, acc =>
    let term' := term * z / 2 ^ transBits / (k + 1)
    expAux n (k + 1) z term' (acc + term')

/-- 2^f over `transBits` fraction bits, for f = `fr` / 2^transBits in [0, 1). -/
def exp2Frac (fr : Nat) : Nat :=
  let z := fr * ln2Fix / 2 ^ transBits
  expAux 320 0 z (2 ^ transBits) (2 ^ transBits)

/-- 2^x for a finite x that is not an integer: the value is irrational, so the sticky bit is set; the low 100 working
bits are dropped. An exponent outside every format's range is clamped to ±20,000. -/
def exp2Num (neg : Bool) (m : Nat) (e : Int) : Exact :=
  let x : Int := dyInt neg m e (-(transBits : Int))
  let x := if e < -(transBits : Int) then x - (if neg then 1 else 0) else x
  let n : Int := x / 2 ^ transBits
  let fr : Nat := (x % 2 ^ transBits).toNat
  .num false (exp2Frac fr / 2 ^ 100) (clampInt (-20000) 20000 n - transBits + 100) true

/-- Whether a finite value is an integer, and which. -/
def asInteger (neg : Bool) (m : Nat) (e : Int) : Option Int :=
  if 0 ≤ e then some (clampInt (-20000) 20000 (dyInt neg m e 0))
  else if m % 2 ^ (-e).toNat = 0 then
    let q : Int := Int.ofNat (m / 2 ^ (-e).toNat)
    some (clampInt (-20000) 20000 (if neg then -q else q))
  else none

/-- `vfexp2` (R284). -/
def fpExp2 (f : Fmt) (mode : RMode) (a : Nat) : Nat × Flags :=
  match fpDecode f a with
  | .nan s => (canonNaN f, flIf s flNV)
  | .inf s => if s then (0, 0#5) else (withSign f false ((2 ^ fmtE f - 1) * 2 ^ fmtF f), 0#5)
  | .num s m e =>
    match asInteger s m e with
    | some n => roundNum f mode false false 1 n false
    | none => roundExact f mode false (exp2Num s m e)

/-- Binary digits of log2 y for y = `y` / 2^transBits in [1, 2): `n` digits, most significant first. -/
def log2Bits : Nat → Nat → Nat → Nat
  | 0, _, acc => acc
  | n + 1, y, acc =>
    let y2 := y * y / 2 ^ transBits
    if 2 ^ (transBits + 1) ≤ y2 then log2Bits n (y2 / 2) (2 * acc + 1) else log2Bits n y2 (2 * acc)

/-- `vflog2` (R284). -/
def fpLog2 (f : Fmt) (mode : RMode) (a : Nat) : Nat × Flags :=
  match fpDecode f a with
  | .nan s => (canonNaN f, flIf s flNV)
  | .inf s => if s then (canonNaN f, flNV) else (withSign f false ((2 ^ fmtE f - 1) * 2 ^ fmtF f), 0#5)
  | .num s m e =>
    if m = 0 then (withSign f true ((2 ^ fmtE f - 1) * 2 ^ fmtF f), flDZ)
    else if s then (canonNaN f, flNV)
    else
      let l := Nat.log2 m
      let n : Int := e + Int.ofNat l
      if m = 2 ^ l then intToFp f mode false n
      else
        let frac := log2Bits 260 (m * 2 ^ (transBits - l)) 0
        let t : Int := n * 2 ^ 260 + Int.ofNat frac
        if t < 0 then roundExact f mode false (.num true (t.natAbs - 1) (-260) true)
        else roundExact f mode false (.num false t.natAbs (-260) true)

/-! ### Exact sums of products (R285, R286) -/

/-- A list of values summed exactly and rounded once to f32 under RNE (R285, R286): a NaN, or infinities of both signs,
give the canonical NaN; an infinity gives that infinity. -/
def sumF32 (vs : List FpVal) : Nat :=
  if vs.any FpVal.isNaN then canonNaN .f32
  else if vs.contains (.inf false) then (if vs.contains (.inf true) then canonNaN .f32 else 0x7F800000)
  else if vs.contains (.inf true) then 0xFF800000
  else
    let e := vs.foldl (fun (acc : Int) v => match v with | .num _ _ x => min acc x | _ => acc) 0
    let t := vs.foldl (fun (acc : Int) v => match v with | .num s m x => acc + dyInt s m x e | _ => acc) 0
    if t = 0 then withSign .f32 (vs.all FpVal.neg) 0
    else (roundNum .f32 .rne false (decide (t < 0)) t.natAbs e false).1

/-- One `mopo` step: round the product to f32, add it to the accumulator, round (R285). -/
def mopoStep (a : Nat) (x y : FpVal) : Nat :=
  let p := (roundExact .f32 .rne false (exactOf (mulVal x y).1)).1
  (fpAdd .f32 .rne a p).1

end Sys2Proof.Machine
end

