-- ==== Sys2Proof/Config.lean ====
section
/-! DEFINITION. What the implementation fixes, and the free values: constants with no body, so that no proof can know
a value of one. Each is applied to what it depends on, most often to the counter `State.free` that a step advances. -/

namespace Sys2Proof.Config

/-- Whether the oldest arrival lands before the next instruction (assumption 2). -/
opaque landsNow : Nat → Bool

/-- A choice the spec leaves open, made afresh at each count of `State.free`. -/
opaque freeChoice : Nat → Nat

/-- A value the spec leaves undefined, taken afresh at each count of `State.free`. -/
opaque freeWord : Nat → Word

/-- An undefined byte, by count and by position within what is undefined. -/
opaque freeByte : Nat → Nat → Byte

/-- How far GTIME moves, in units of 2^-16 ns (R86), before a read of it. -/
opaque timeStep : Nat → Nat

/-- The memory key that the Crozier makes for a context, by the number of the key (R319). -/
opaque memoryKey : Nat → BitVec 256

/-- Whether an ML-DSA-87 signature over a SHA3-512 digest verifies under the vendor key (R122). -/
opaque mldsaOk : List Byte → List Byte → Bool

/-- The device's silicon revision, DEVID[15:0] (R118). -/
opaque siliconRev : BitVec 16

/-- The runtime code object that a firmware body carries, if it carries one (R123). -/
opaque firmwareObject : List Byte → Option (List Byte)

/-- The message that the Crozier sends next in an SPDM exchange (R101), by count and the message that it has received; empty for none. -/
opaque spdmAnswer : Nat → List Byte → List Byte

/-- Whether an SPDM message passes the checks of its step: signatures, certificates and algorithms (R101, R102). -/
opaque spdmOk : Nat → List Byte → Bool

/-- The measurement digests that an SPDM message reports (R102). -/
opaque spdmDigests : List Byte → List (List Byte)

/-- The plain SPDM message in a secured one, where it verifies under its session (R101). -/
opaque spdmOpen : List Byte → Option (List Byte)

/-- The JOBKEY payload of a vendor message, if it is one (R102, R103). -/
opaque spdmKey : List Byte → Option (List Byte)

/-- The member devices of a job that its Crozier attests (R102), by count and job. -/
opaque spdmMembers : Nat → BitVec 16 → List (BitVec 19)

end Sys2Proof.Config
end

