-- ==== Sys2Proof/Machine/Ops.lean ====
section
/-! DEFINITION. The named operations on registers, harts and the device that every meaning uses: register access, features,
events to the host, killing a context, taking a trap and returning from one. -/

namespace Sys2Proof.Machine

/-- The outcome of a meaning. -/
abbrev Result := Host.Outcome State Fault Refusal

/-! ### Harts and registers -/

/-- The hart that issues. -/
def State.h (s : State) : Hart := s.harts[s.cur]

/-- Change one hart. -/
def State.modHart (s : State) (i : Fin 4) (f : Hart → Hart) : State :=
  { s with harts := s.harts.set i (f s.harts[i]) }

/-- Change the hart that issues. -/
def State.mod (s : State) (f : Hart → Hart) : State := s.modHart s.cur f

/-- Run an operation as another hart, and come back. -/
def State.asHart (s : State) (i : Fin 4) (f : State → State) : State := { f { s with cur := i } with cur := s.cur }

/-- The next count of the free-value counter. -/
def State.tick (s : State) : State := { s with free := s.free + 1 }

/-- Scalar register `n` of a file; x0 reads zero (R229). -/
def xGet (x : Vector Word 32) (n : XNum) : Word :=
  if n = 0#5 then 0#64 else x[n.toNat]'(n.isLt)

/-- A file with register `n` written; a write to x0 is discarded (R229). -/
def xPut (x : Vector Word 32) (n : XNum) (v : Word) : Vector Word 32 :=
  if n = 0#5 then x else x.set n.toNat v n.isLt

/-- Read a scalar register of the hart. -/
def State.x (s : State) (n : XNum) : Word := xGet s.h.x n

/-- Write a scalar register of the hart. -/
def State.setX (s : State) (n : XNum) (v : Word) : State := s.mod fun h => { h with x := xPut h.x n v }

/-- Write the program counter. -/
def State.setPc (s : State) (pc : Word) : State := s.mod fun h => { h with pc := pc }

/-- A vector register. -/
def Hart.vreg (h : Hart) (n : VNum) : VReg := h.v[n.toNat]'(n.isLt)

/-- Write a vector register whole. -/
def Hart.setVreg (h : Hart) (n : VNum) (r : VReg) : Hart := { h with v := h.v.set n.toNat r n.isLt }

/-- A fibre register. -/
def Hart.freg (h : Hart) (n : FNum) : FReg := h.f[n.toNat]'(n.isLt)

/-- Write a fibre register whole. -/
def Hart.setFreg (h : Hart) (n : FNum) (r : FReg) : Hart := { h with f := h.f.set n.toNat r n.isLt }

/-- A mask register; m0 reads all ones (R246). -/
def Hart.mask (h : Hart) (n : MNum) : MReg :=
  if n = 0#3 then Vector.replicate 16 (BitVec.allOnes 2048) else h.m[n.toNat]'(n.isLt)

/-- Write a mask register; a write to m0 is discarded (R246). -/
def Hart.setMask (h : Hart) (n : MNum) (r : MReg) : Hart :=
  if n = 0#3 then h else { h with m := h.m.set n.toNat r n.isLt }

/-- The lane groups held: VTYPE[7:4] (R257). -/
def vtGroups (vt : BitVec 9) : BitVec 4 := vt.extractLsb' 4 4

/-- VTYPE.ET (R257). -/
def vtEt (vt : BitVec 9) : ETCode := vt.extractLsb' 0 4

/-- How many groups a bitmap names. -/
def groupCount (g : BitVec 4) : Nat := popc 4 g.toNat
where
  popc : Nat → Nat → Nat
  | 0, _ => 0
  | w + 1, n => n % 2 + popc w (n / 2)

/-- Bits of an element type (R233). -/
def etBits (et : ETCode) : Nat :=
  match et.toNat with
  | 0 | 4 | 8 | 9 => 8
  | 1 | 5 | 11 | 12 => 16
  | 2 | 6 | 13 => 32
  | 3 | 7 | 14 => 64
  | _ => 4

/-- VLMAX (R233) for a count of groups and an element type. -/
def vlmaxOf (g : Nat) (et : ETCode) : Nat := 2048 * g / etBits et

/-- The level as ESTATUS.PPL codes it (R260). -/
def levelCode : Level → BitVec 2
  | .u => 0#2
  | .s => 1#2
  | .e => 2#2

/-- Whether FEAT0 bit `k` is accepted (R261). -/
def State.feat (s : State) (k : Nat) : Bool := s.host.accept[0].getLsbD k

/-- GTIME in nanoseconds (R86). -/
def State.gtimeNs (s : State) : Nat := (s.clock.gtime / 65536) % 2 ^ 64

/-- TIMESTAT.STATE as coded in R89. -/
def timeCode : TimeState → Nat
  | .free => 0 | .locked => 1 | .holdover => 2 | .uncertain => 3

/-- UNC without a lock, in ns, rounded up (R88): it grows by 5 ns for each ms since the lock was lost, and is at least what is left of the
slew, which goes on at 100 ppm (assumption 70). -/
def Clock.grown (c : Clock) : Nat :=
  max (c.uncEntry + (5 * (c.gtime - c.entryTime) + 65535999999) / 65536000000)
    (c.slew - (c.gtime - c.slewTime) / 655360000)

/-- The state of device time: that of the source Bellwether, which passes from HOLDOVER to UNCERTAIN when UNC comes above 1,000 ns (R87). -/
def State.timeState (s : State) : TimeState :=
  match (s.clock.bell[s.clock.src]).tstate with
  | .holdover => if 1000 < s.clock.grown then .uncertain else .holdover
  | t => t

/-- UNC in ns (R88). -/
def State.uncFull (s : State) : Nat :=
  match s.timeState with | .free => 0xFFFFF | .locked => s.clock.unc | _ => s.clock.grown

/-- UNC as TIMESTAT shows it (R89). -/
def State.uncNow (s : State) : Nat := min 0xFFFFF s.uncFull

/-- TIMESTAT (R89). -/
def State.timestat (s : State) : BitVec 32 :=
  BitVec.ofNat 32 (timeCode s.timeState + (if s.clock.src = 1 then 4 else 0) +
    64 * groupCount.popc 12 (s.clock.bell[s.clock.src]).synced.toNat + 4096 * s.uncNow)

/-- Device time moves on to a count, but not past the last one before a pending record's switch instant: the instant falls on the first
cycle that reaches it, and its record then acts (R91). -/
def State.timeTo (s : State) (goal : Nat) : State :=
  let stop := s.sched.gangs.foldl (fun n g =>
    if g.passed || g.t * 65536 ≤ s.clock.gtime then n else min n (g.t * 65536 - 1)) goal
  { s with clock := { s.clock with gtime := max s.clock.gtime stop } }

/-- GTIME has come to an instant in ns. -/
def State.reach (s : State) (ns : Nat) : State := s.timeTo (ns * 65536)

/-- HARTID of hart `i` of the modelled core (R15). -/
def State.hartId (s : State) (i : Fin 4) : Nat := 4 * s.core.num + i.val

/-- The compute die of the modelled core. -/
def State.die (s : State) : Nat := s.core.num / 32

/-! ### Contexts -/

/-- The live context with a number. -/
def State.ctx (s : State) (n : Nat) : Option Context := s.ctxs.find? (fun c => c.ctxid = n && c.live)

/-- The context of the hart that issues. -/
def State.myCtx (s : State) : Option Context := s.ctx s.h.ctxid.toNat

/-- Change one context. -/
def State.modCtx (s : State) (n : Nat) (f : Context → Context) : State :=
  { s with ctxs := s.ctxs.map fun c => if c.ctxid = n && c.live then f c else c }

/-- The JOB entry of a job (R76). -/
def State.jobEntry (s : State) (j : BitVec 16) : Option JobEntry := s.jobs.find? (fun e => e.job = j)

/-- Change the JOB entry of a job. -/
def State.modJob (s : State) (j : BitVec 16) (f : JobEntry → JobEntry) : State :=
  { s with jobs := s.jobs.map fun e => if e.job = j then f e else e }

/-! ### The event ring of the host interface (R132) -/

/-- A message to an MSI-X vector; while the link is down it waits at the endpoint (R115). -/
def State.raiseMsix (s : State) (v : Nat) : State := { s with host := { s.host with msix := s.host.msix ++ [v] } }

/-- Write one event entry at EVPROD mod 256. -/
def State.putEvent (s : State) (code : Nat) (args : List Byte) : State :=
  let e := natLe 8 s.gtimeNs ++ natLe 2 code ++ List.replicate 6 0#8 ++ slice args 0 16
  let slot := s.host.evprod.toNat % 256
  { s with host := { s.host with evq := (slot, e) :: s.host.evq.filter (fun x => x.1 != slot),
                                 evprod := s.host.evprod + 1#16 } }.raiseMsix 1

/-- Report an event: dropped and counted while the ring is full, after an OVERFLOW entry where some were dropped. -/
def State.postEvent (s : State) (code : Nat) (args : List Byte) : State :=
  let full (t : State) : Bool := t.host.evprod - t.host.evcons = 256#16
  let s1 :=
    if s.host.evdropped ≠ 0 && !full s then
      let t := s.putEvent 1 (natLe 4 s.host.evdropped)
      { t with host := { t.host with evdropped := 0 } }
    else s
  if full s1 then { s1 with host := { s1.host with evdropped := s1.host.evdropped + 1 } }
  else s1.putEvent code args

/-! ### Lane groups, matrix mode and engines given up -/

/-- Whether an entry of the hart's queue still runs on a lane group (R161). -/
def laneBusy (h : Hart) (g : Nat) : Bool :=
  h.queue.any fun e => e.post.eng == .vector && (vtGroups e.vtype).getLsbD g

/-- Groups released become free once no instruction of their hart uses them (R161). -/
def State.settleLanes (s : State) : State :=
  { s with core := { s.core with lanes := Vector.ofFn fun (g : Fin 4) =>
      match s.core.lanes[g] with
      | .releasing h => if laneBusy s.harts[h] g.val then .releasing h else .free
      | o => o } }

/-- Groups of a hart that a bitmap names are released. -/
def State.releaseLanes (s : State) (i : Fin 4) (gs : BitVec 4) : State :=
  State.settleLanes { s with core := { s.core with lanes := Vector.ofFn fun (g : Fin 4) =>
    match s.core.lanes[g] with
    | .held h => if h = i && gs.getLsbD g.val then .releasing h else .held h
    | o => o } }

/-- The bitmap of groups a hart holds. -/
def Core.heldBy (c : Core) (i : Fin 4) : BitVec 4 :=
  let b (g : Fin 4) : Nat := match c.lanes[g] with | .held h => if h = i then 2 ^ g.val else 0 | _ => 0
  BitVec.ofNat 4 (b 0 + b 1 + b 2 + b 3)

/-- How many lane groups are free. -/
def Core.freeCount (c : Core) : Nat := (c.lanes.toList.filter (· == .free)).length

/-- The lowest free groups, at most `n` of them, given to a hart (R160, R162), but for `keep` that a resume has reserved (R196). -/
def Core.grantLanes (c : Core) (keep : Nat) (i : Fin 4) : List (Fin 4) → Nat → Core
  | [], _ => c
  | _, 0 => c
  | g :: gs, n + 1 =>
    match c.lanes[g] with
    | .free =>
      if c.freeCount ≤ keep then c else Core.grantLanes { c with lanes := c.lanes.set g (.held i) } keep i gs n
    | _ => Core.grantLanes c keep i gs (n + 1)

/-- Whether any lane group is free and not reserved. -/
def Core.anyFree (c : Core) : Bool := decide (c.laneResv < c.freeCount)

/-- The number of groups a waiting hart asks for. -/
def laneAsk (h : Hart) : Option Nat :=
  match h.status with
  | .waiting (.lanes n) _ => if h.laneServed then none else some n
  | _ => none

/-- The waiter served first: the highest task priority, ties to the lower hart number (R162). -/
def State.firstLaneWaiter (s : State) : Option (Fin 4 × Nat) :=
  [(0 : Fin 4), 1, 2, 3].foldl (fun best i =>
    match laneAsk s.harts[i] with
    | none => best
    | some n =>
      match best with
      | none => some (i, n)
      | some (j, _) => if s.harts[j].prio < s.harts[i].prio then some (i, n) else best) none

/-- One grant of R162: the first waiter takes what it asks of the free groups, and VTYPE names them. -/
def State.grantOnce (s : State) : State :=
  match s.firstLaneWaiter with
  | none => s
  | some (i, n) =>
    if s.core.anyFree then
      let c := s.core.grantLanes s.core.laneResv i [0, 1, 2, 3] n
      State.modHart { s with core := c } i fun h =>
        { h with laneServed := true, vtype := (h.vtype &&& 0x10F#9) ||| ((0#1 ++ c.heldBy i ++ 0#4 : BitVec 9)) }
    else s

/-- Freed groups go to the waiters in order (R162); at most four harts wait. -/
def State.serveLanes (s : State) : State := s.settleLanes.grantOnce.grantOnce.grantOnce.grantOnce

/-- A zero accumulator tile. -/
def zeroTile : Tile := Vector.replicate 128 0#4096

/-- MSTAT with some bits cleared and others set. -/
def mstatWith (m clr set_ : BitVec 10) : BitVec 10 := (m &&& ~~~clr) ||| set_

/-- Matrix mode goes to the oldest waiting hart when nobody holds it (R168); kept tiles of another hart are zeroed (R251). -/
def State.grantMatrix (s : State) : State :=
  match s.core.matrix, (if s.core.matrixResv then [] else s.core.matrixWaiters) with
  | none, i :: rest =>
    let own : Bool := match s.core.kept with | some k => k.hart = i | none => false
    let s1 : State :=
      match s.core.kept with
      | some k => if k.hart = i then s else s.modHart k.hart fun h => { h with mstat := mstatWith h.mstat 0x01E#10 0#10 }
      | none => s
    let c := { s1.core with matrix := some i, matrixWaiters := rest, kept := none,
                            tiles := if own then s1.core.tiles else Vector.replicate 4 zeroTile }
    State.modHart { s1 with core := c } i fun h =>
      { h with mstat := mstatWith (if own then h.mstat else mstatWith h.mstat 0x01E#10 0#10) 0#10 1#10,
               matrixServed := true }
  | _, _ => s

/-- A hart leaves matrix mode, its tiles zeroed or kept (R251); a waiting `mstart` is then served. -/
def State.leaveMatrix (s : State) (i : Fin 4) (keep : Bool) : State :=
  if s.core.matrix = some i then
    let ms := s.harts[i].mstat
    let c :=
      if keep then { s.core with matrix := none, kept := some ⟨i, ms.extractLsb' 1 4⟩ }
      else { s.core with matrix := none, kept := none, tiles := Vector.replicate 4 zeroTile }
    let s1 := State.modHart { s with core := c } i fun h =>
      { h with mstat := mstatWith h.mstat (if keep then 0x021#10 else 0x3FF#10) 0#10 }
    s1.grantMatrix
  else s

/-- Everything a stopping hart gives up: lane groups, stream engines, reservation, matrix mode (R145, R609). -/
def State.giveUp (s : State) (i : Fin 4) : State :=
  let s := s.modHart i fun h =>
    { h with queue := [], resv := none, eqWait := [], quota := 0, quotaHeld := 0, releases := [], late := [], stbuf := [],
             scalarRemote := ⟨[], [], none⟩, vtype := h.vtype &&& 0x10F#9, fetched := Vector.replicate 4 [],
             sb := h.sb.map fun b => { b with valid := false } }
  let s := { s with core := { s.core with
    boundEngines := s.core.boundEngines.filter (fun b => b.1 != i),
    streamWaiters := s.core.streamWaiters.filter (fun b => b.1 != i),
    fifoWaiters := s.core.fifoWaiters.filter (fun b => b.1 != i),
    matrixWaiters := s.core.matrixWaiters.filter (· != i),
    kept := match s.core.kept with | some k => if k.hart = i then none else some k | none => none } }
  let s := s.releaseLanes i 15#4
  (s.leaveMatrix i false).serveLanes

/-! ### Killing a context (R145) -/

/-- A stopped slot. -/
def Hart.stop (h : Hart) : Hart := { h with status := .idle, frozen := false, asyncs := [], held := false, emulating := false, inHandler := false }

/-- Stop hart `i` when it runs context `n`. -/
def State.stopIf (s : State) (n : Nat) (i : Fin 4) : State :=
  if s.harts[i].ctxid.toNat = n && s.harts[i].status != .idle then (s.giveUp i).modHart i Hart.stop else s

/-- What prepared resumes reserve on this core (R196): their lane groups, and matrix mode. -/
def State.recount (s : State) : State :=
  let all := (s.sched.gangs.filter fun g => !g.acted).flatMap (·.starts) ++ s.sched.starts
  { s with core := { s.core with laneResv := all.foldl (fun n x => n + x.groups) 0, matrixResv := all.any (·.matrix) } }

/-- Whether a purpose belongs to a hart. -/
def Purpose.ofHart : Purpose → Bool
  | .pdelta _ _ _ _ _ => false
  | .rebuildRead _ _ _ _ => false
  | .rebuild _ _ => false
  | _ => true

/-- Requests made for the harts of a killed context: those not sent yet go, and the answers of the others serve nobody. No drain counter counts
its requests any more (R80). -/
def State.orphanRequests (s : State) (n : Nat) : State :=
  { s with fab := { s.fab with
    waiting := s.fab.waiting.filter fun x => !(x.1.ctxid = n && x.1.purpose.ofHart),
    outstanding := s.fab.outstanding.map fun o =>
      if o.ctxid = n then { o with counted := false, purpose := if o.purpose.ofHart then .orphan else o.purpose } else o } }

/-- The CTXID of a record in the R93 layout. -/
def recCtx (raw : List Byte) : Nat := sliceNat raw 4 4

/-- Kill a context (R145, R127): its records go, its harts stop and free what they hold, its JOB entry enters QUARANTINE, and
the host is told (R132). -/
def State.killContext (s : State) (n : Nat) (cause : BitVec 8) : State :=
  match s.ctx n with
  | none => s
  | some c =>
    let s := ([(0 : Fin 4), 1, 2, 3].foldl (fun s i => s.stopIf n i) s).orphanRequests n
    let s := { s with sched := { s.sched with
      queue := s.sched.queue.filter (fun r => recCtx r.raw != n),
      tasks := s.sched.tasks.filter (fun t => t.ctxid.toNat != n),
      starts := s.sched.starts.filter (fun x => x.hart.ctxid.toNat != n),
      gangs := s.sched.gangs.filter (fun g => g.ctxid.toNat != n),
      offers := s.sched.offers.filter (fun o => o.ctxid.toNat != n) } }
    let s := s.modJob c.job fun e => { e with state := .quarantine, stamp := s.clock.gtime }
    let s := State.recount (s.modCtx n fun x => { x with live := false, preempted := false })
    s.postEvent 0x31 (natLe 4 n ++ [cause])

/-- First VA of a context's binding table (R388). -/
def bindBase : Nat := 0x0000FFF000000000

/-! ### Traps (R359 to R368) -/

/-- Cause codes of R361. -/
def cILL : BitVec 8 := 0x01
/-- EMU (R361). -/
def cEMU : BitVec 8 := 0x02
/-- PF_FETCH (R361). -/
def cPFFETCH : BitVec 8 := 0x03
/-- PF_LOAD (R361). -/
def cPFLOAD : BitVec 8 := 0x04
/-- PF_STORE (R361). -/
def cPFSTORE : BitVec 8 := 0x05
/-- PROT (R361). -/
def cPROT : BitVec 8 := 0x06
/-- ALIGN (R361). -/
def cALIGN : BitVec 8 := 0x07
/-- TILE (R361). -/
def cTILE : BitVec 8 := 0x08
/-- TILECFG (R361). -/
def cTILECFG : BitVec 8 := 0x09
/-- FABRIC_LOAD (R361). -/
def cFLOAD : BitVec 8 := 0x0A
/-- FABRIC_DOMAIN (R361). -/
def cFDOMAIN : BitVec 8 := 0x0B
/-- EQ_OVF (R361). -/
def cEQOVF : BitVec 8 := 0x0C
/-- ECC_LOAD (R361). -/
def cECC : BitVec 8 := 0x0D
/-- BRK (R361). -/
def cBRK : BitVec 8 := 0x0E
/-- SVC (R361). -/
def cSVC : BitVec 8 := 0x0F
/-- PREEMPT (R361). -/
def cPREEMPT : BitVec 8 := 0x10
/-- WDOG (R361). -/
def cWDOG : BitVec 8 := 0x11
/-- STRAGGLER (R361). -/
def cSTRAGGLER : BitVec 8 := 0x12
/-- CLOCK (R361). -/
def cCLOCK : BitVec 8 := 0x13
/-- EMU_NEST (R361). -/
def cEMUNEST : BitVec 8 := 0x20
/-- KILLED (R361). -/
def cKILLED : BitVec 8 := 0x21
/-- ECC_STATE (R361). -/
def cECCSTATE : BitVec 8 := 0x22

/-- Whether a cause may be taken at E (R379). -/
def takenAtE (c : BitVec 8) : Bool := c == cPFFETCH || c == cPFLOAD || c == cPFSTORE

/-- The registers of a trap to S (R367): PPL, EPC, ECAUSE, ETVAL, the level and the program counter. The reservation is lost
(R341), and asynchronous traps are held until the next `eret` (R365). -/
def Hart.enterS (h : Hart) (t : Trap) (epc : Word) : Hart :=
  { h with estatus := h.estatus.extractLsb' 2 1 ++ levelCode h.level, epc := epc, ecause := t.cause, etval := t.tval,
           level := .s, pc := h.etvec, resv := none, inHandler := true, status := .running, laneServed := false,
           matrixServed := false, scalarRemote := ⟨[], [], none⟩, pfxNext := false }

/-- Take a trap to S with EPC as given (R367), or kill the context: with ETVEC zero, or at E for a cause that is not a page
fault (R379). -/
def State.takeTrap (s : State) (t : Trap) (epc : Word) : State :=
  if s.h.level = .e && !takenAtE t.cause then s.killContext s.h.ctxid.toNat cEMUNEST
  else if s.h.etvec = 0#64 then s.killContext s.h.ctxid.toNat t.cause
  else
    State.mod { s with core := { s.core with fifoWaiters := s.core.fifoWaiters.filter (fun b => b.1 != s.cur),
                                             matrixWaiters := s.core.matrixWaiters.filter (· != s.cur) } }
      fun h => h.enterS t epc

/-- A precise trap at issue: EPC names the instruction (R362). -/
def State.trapHere (s : State) (cause : BitVec 8) (tval : Word) : State := s.takeTrap ⟨cause, tval⟩ s.h.pc

/-- ILL at issue: ETVAL holds the word (R361). -/
def State.ill (s : State) (w : IWord) : State := s.trapHere cILL (w.setWidth 64)

/-- The level an ESTATUS.PPL of 0, 1 or 2 names. -/
def levelOf (p : BitVec 2) : Level := if p = 0#2 then .u else if p = 1#2 then .s else .e

/-- The return of `eret` (R368), without the release of held queues: level and program counter. -/
def Hart.leaveS (h : Hart) : Hart :=
  { h with level := levelOf (h.estatus.extractLsb' 0 2), pc := h.epc, inHandler := h.emulating, pfxNext := h.pfxValid,
           status := .running, laneServed := false, matrixServed := false }

/-! ### The end of a scalar instruction -/

/-- The loop-end step after an instruction at `a` that would continue at `a + 4` (R462). -/
def Hart.loopStep (h : Hart) (a : Word) : Hart :=
  let h1 := { h with pc := a + 4#64 }
  if h.lc1 ≠ 0#64 && a = h.le1 then
    if h.lc1 - 1#64 ≠ 0#64 then { h1 with lc1 := h.lc1 - 1#64, pc := h.ls1 }
    else
      let h2 := { h1 with lc1 := 0#64 }
      if h.lc0 ≠ 0#64 && a = h.le0 then
        (if h.lc0 - 1#64 ≠ 0#64 then { h2 with lc0 := h.lc0 - 1#64, pc := h.ls0 } else { h2 with lc0 := 0#64 })
      else h2
  else if h.lc0 ≠ 0#64 && a = h.le0 then
    (if h.lc0 - 1#64 ≠ 0#64 then { h1 with lc0 := h.lc0 - 1#64, pc := h.ls0 } else { h1 with lc0 := 0#64 })
  else h1

/-- The instruction completes and the hart continues after it (R442). -/
def State.retire (s : State) : State :=
  s.mod fun h => { h.loopStep h.pc with status := .running, laneServed := false, matrixServed := false }

/-- The instruction completes and the hart continues at an address of its own choice: no loop-end step (R463). -/
def State.goTo (s : State) (t : Word) : State :=
  s.mod fun h => { h with pc := t, status := .running, laneServed := false, matrixServed := false }

/-- The hart waits: it is not ready, and tries the word again or is woken (R164). -/
def State.wait (s : State) (k : WaitKind) (w : IWord) : State := s.mod fun h => { h with status := .waiting k w }

/-- Whether a context runs in compatibility mode (R173). -/
def Context.isCompat (c : Context) : Bool := c.compat.getD false

/-- Whether a pre-emption stops the hart at the boundary it has come to (R187, R188): `compat` tells the boundaries of the two modes
apart. -/
def State.stopsHere (s : State) (compat : Bool) : Bool :=
  match s.myCtx with
  | some c => c.preempted && c.isCompat == compat
  | none => false

/-- A hart stops for a pre-emption, and its held asynchronous traps are discarded (R365). -/
def Hart.freeze (h : Hart) : Hart := { h with frozen := true, asyncs := [] }

/-- A dispatch boundary (R188): in a compatibility context that is pre-empted, the instruction waits until every queue is empty,
completes, and the hart stops. -/
def State.atBoundary (s : State) (w : IWord) (k : State → State) : State :=
  if s.stopsHere true then
    if s.h.queue.isEmpty then (k s).mod Hart.freeze else s.wait .retry w
  else k s

/-- The address of the next scalar instruction, once the one at the program counter has completed (R463). -/
def Hart.afterPc (h : Hart) : Word := (h.loopStep h.pc).pc

/-- Scalar registers that an engine has still to write (R204). -/
def Hart.pendingX (h : Hart) : List XNum := h.queue.filterMap fun e => e.post.xd

/-- Whether one of the registers that an instruction reads is pending (R204). -/
def Hart.anyPending (h : Hart) (rs : List XNum) : Bool :=
  rs.any fun r => r != 0#5 && h.pendingX.contains r

/-- Whether every engine queue of the hart is empty. -/
def Hart.idleQueues (h : Hart) : Bool := h.queue.isEmpty

/-- The frame of every scalar instruction: ILL when a prefix stands before it (R406), a wait while a register it reads is
pending (R204), else its effect. -/
def scalarInstr (w : IWord) (regs : List XNum) (s : State) (k : State → State) : Result :=
  if s.h.pfxNext then .next (s.ill w)
  else if s.h.anyPending regs then .next (s.wait .retry w)
  else .next (k s)

end Sys2Proof.Machine
end

