-- ==== Sys2Proof/Machine/Fabric.lean ====
section
/-! DEFINITION. Sending on the fabric: packet headers (R62, R63), tags (R642), drain counters (R80) and the planes flows are
pinned to (R69, R71). -/

namespace Sys2Proof.Machine

/-- Who makes an access: the hart, its context and level, the instruction's address, and the flow's class and lane
group (R62). -/
structure Who where
  h : Fin 4
  ctxid : Nat
  level : Level
  pc : Word
  cls : Nat
  lg : Nat
  deriving DecidableEq, Repr

/-- The scalar path of the hart that issues. -/
def State.whoScalar (s : State) : Who := ⟨s.cur, s.h.ctxid.toNat, s.h.level, s.h.pc, 1, 0⟩

/-- FLOW of R62: hart, lane group and source class; classes 4 to 6 carry no hart. -/
def flowOf (s : State) (w : Who) : BitVec 16 :=
  if 4 ≤ w.cls then BitVec.ofNat 16 (w.cls * 8192)
  else BitVec.ofNat 16 (w.cls * 8192 + (if w.cls = 0 then w.lg * 2048 else 0) + s.hartId w.h)

/-- ITAG: bits [33:2] of the originating instruction's VA (R372). -/
def itagOf (pc : Word) : BitVec 32 := pc.extractLsb' 2 32

/-- The domain of an endpoint (R59). -/
def domainOf (e : Epid) : BitVec 6 := e.extractLsb' 13 6

/-- Whether a tag is in use or held (R642). -/
def Fabric.tagBusy (f : Fabric) (t : Nat) : Bool :=
  f.outstanding.any (·.tag == t) || f.heldTags.contains t

/-- The lowest free tag at or above `t`, among `n` tags (assumption 14). -/
def Fabric.findTag (f : Fabric) : Nat → Nat → Option Nat
  | 0, _ => none
  | n + 1, t => if f.tagBusy t then f.findTag n (t + 1) else some t

/-- Data beats of `n` bytes. -/
def beatsOf (n : Nat) : Nat := (n + 15) / 16

/-- Data padded to whole beats. -/
def padBeats (d : List Byte) : List Byte := d ++ List.replicate (16 * beatsOf d.length - d.length) 0#8

/-- The virtual channel of a packet type (R55). -/
def vcOf (t : Nat) : BitVec 2 :=
  if t = 0x02 || t = 0x04 || t = 0x06 || t = 0x08 || t = 0x0A || t = 0x11 || t = 0x13 then 1#2
  else if t = 0x0B || t = 0x0C then 3#2
  else if t = 0x0D || t = 0x0E || t = 0x0F || t = 0x20 then 2#2
  else 0#2

/-- The key of a job (R103). -/
def State.jobKey (s : State) (j : BitVec 16) : Option JobKey := s.trust.keys.find? (·.job = j)

/-- A packet of a job in clear; AGE is stamped 0 (R78). -/
def State.plainPacket (s : State) (ptype : Nat) (dst : Epid) (job gen : BitVec 16) (flow : BitVec 16) (itag : BitVec 32)
    (spec16 : BitVec 16) (spec64 : BitVec 64) (data : List Byte) : Packet :=
  { ptype := BitVec.ofNat 8 ptype, dbeats := BitVec.ofNat 5 (beatsOf data.length), dst := dst, src := s.fab.epid,
    vc := vcOf ptype, age := 0#8, job := job, gen := gen, tag := 0#12, enc := false, flow := flow, itag := itag,
    spec16 := spec16, spec64 := spec64, zerosOk := true, data := padBeats data, nonce := 0#96, resided := 0 }

/-- A packet that asks to be sealed: one more beat for its tag (R62). -/
def toSeal (p : Packet) : Packet := { p with enc := true, dbeats := p.dbeats + 1#5 }

/-- A packet of a job, which asks to be sealed when the job has a session key (R104), but for records and SPDM messages, whose beats
R93 and R100 fix. -/
def State.mkPacket (s : State) (ptype : Nat) (dst : Epid) (job gen : BitVec 16) (flow : BitVec 16) (itag : BitVec 32)
    (spec16 : BitVec 16) (spec64 : BitVec 64) (data : List Byte) : Packet :=
  let p := s.plainPacket ptype dst job gen flow itag spec16 spec64 data
  if (s.jobKey job).isSome && !data.isEmpty && ptype != 0x0D && ptype != 0x20 then toSeal p else p

/-- The header of R62 as bytes, with AGE zero: the additional data of a packet's tag (R66, R104). -/
def packetExtra (p : Packet) : List Byte :=
  natLe 32 (p.ptype.toNat + p.dbeats.toNat * 2 ^ 8 + p.dst.toNat * 2 ^ 16 + p.src.toNat * 2 ^ 35 + p.vc.toNat * 2 ^ 54 +
    p.job.toNat * 2 ^ 64 + p.gen.toNat * 2 ^ 80 + p.tag.toNat * 2 ^ 96 + (if p.enc then 2 ^ 108 else 0) + p.flow.toNat * 2 ^ 112 +
    p.itag.toNat * 2 ^ 128 + p.spec16.toNat * 2 ^ 160 + p.spec64.toNat * 2 ^ 192)

/-- The sender tag of a port of an endpoint (R104). -/
def senderTag (q : Nat) (e : Epid) : BitVec 32 := BitVec.ofNat 32 (q % 128 * 2 ^ 24 + e.toNat)

/-- A packet as it leaves on a port: sealed under its job's key, with the next count of the port (R104). A job without a key seals
nothing. -/
def State.sealOut (s : State) (q : Nat) (p : Packet) : Packet :=
  if p.enc then
    match s.jobKey p.job with
    | some k =>
      let nonce : BitVec 96 := senderTag q p.src ++ BitVec.ofNat 64 (k.counters.toList.getD q 0)
      { p with nonce := nonce, data := gcmSeal k.key nonce (packetExtra p) p.data }
    | none => { p with enc := false, dbeats := p.dbeats - 1#5 }
  else p

/-- Advance the counter that sealed a packet (R104). -/
def State.bumpKey (s : State) (q : Nat) (p : Packet) : State :=
  if p.enc then { s with trust := { s.trust with keys := s.trust.keys.map fun k =>
    if k.job = p.job then
      { k with counters := Vector.ofFn fun (i : Fin 24) => if i.val = q then k.counters[i] + 1 else k.counters[i] }
    else k } } else s

/-- Whether a plane does not reach an endpoint (R71). -/
def Fabric.planeDown (f : Fabric) (dst : Epid) (p : Nat) : Bool :=
  match f.down.lookup dst with | some m => m.getLsbD p | none => false

/-- The lowest-numbered usable port of a plane (R69). -/
def Fabric.planePort (f : Fabric) (p : Nat) : Option Nat :=
  (List.range 24).find? fun q =>
    q % f.planes = p && f.peers.getLsbD q && (match f.ports[q]? with | some x => x.enabled | none => false)

/-- The planes with a usable port at both ends, in increasing order, each with its lowest-numbered usable port (R69). -/
def Fabric.usable (f : Fabric) (dst : Epid) : List (Nat × Nat) :=
  (List.range f.planes).filterMap fun p => if f.planeDown dst p then none else (f.planePort p).map (p, ·)

/-- The port that R69 gives a flow. With no usable plane the spec gives no path: the model takes port 0 (assumption 62). -/
def Fabric.portFor (f : Fabric) (flow : BitVec 16) (dst : Epid) : Nat :=
  let us := f.usable dst
  let q := ((3 * flow.toNat) % 8192 ^^^ dst.toNat % 8192) % (if us.length = 0 then 1 else us.length)
  match us[q]? with
  | some (_, p) => p
  | none => 0

/-- Whether a port is usable at both ends of the path to an endpoint. -/
def Fabric.portUsable (f : Fabric) (q : Nat) (dst : Epid) : Bool := (f.usable dst).any fun x => x.2 = q

/-- Whether a request of a flow is outstanding. -/
def Fabric.flowOut (f : Fabric) (flow : BitVec 16) (dst : Epid) : Bool := f.outstanding.any fun o => o.flow = flow && o.dst = dst

/-- Whether a flow stalls (R71): the port that it is pinned to has failed, and a request of it is outstanding. -/
def Fabric.stalled (f : Fabric) (flow : BitVec 16) (dst : Epid) : Bool :=
  f.flowOut flow dst && f.pins.any fun p => p.flow = flow && p.dst = dst && !f.portUsable p.port dst

/-- Pin a flow: a new one, or one whose port has failed and that has nothing outstanding (R69, R71). -/
def State.pinFlow (s : State) (flow : BitVec 16) (dst : Epid) : State :=
  let f := s.fab
  if f.pins.any (fun p => p.flow = flow && p.dst = dst && (f.portUsable p.port dst || f.flowOut flow dst)) then s
  else
    { s with fab := { f with pins := ⟨flow, dst, f.portFor flow dst⟩ :: f.pins.filter fun p => !(p.flow = flow && p.dst = dst) } }

/-- Put a packet on the fabric at a port. One for the device itself is turned back there (R294). -/
def State.emit (s : State) (q : Nat) (p : Packet) : State :=
  let p1 := s.sealOut q p
  State.bumpKey
    { s with fab :=
      if p1.dst = s.fab.epid then { s.fab with turned := s.fab.turned ++ [p1] } else { s.fab with sent := s.fab.sent ++ [p1] } } q p1

/-- The port that a flow is pinned to. -/
def Fabric.pinned (f : Fabric) (flow : BitVec 16) (dst : Epid) : Nat :=
  match f.pins.find? fun p => p.flow = flow && p.dst = dst with | some p => p.port | none => f.portFor flow dst

/-- Whether a request must wait: no tag is free (R642), its flow stalls (R71), or an earlier request of its flow waits (R70). -/
def Fabric.mustWait (f : Fabric) (flow : BitVec 16) (dst : Epid) : Bool :=
  (f.findTag 4096 0).isNone || f.stalled flow dst || f.waiting.any fun x => x.2.flow = flow && x.2.dst = dst

/-- Send one request under the lowest free tag. -/
def State.sendTagged (s : State) (o : Outstanding) (p : Packet) : State :=
  match s.fab.findTag 4096 0 with
  | some t =>
    let s := s.pinFlow p.flow p.dst
    State.emit { s with fab := { s.fab with outstanding := s.fab.outstanding ++ [{ o with tag := t }] } }
      (s.fab.pinned p.flow p.dst) { p with tag := BitVec.ofNat 12 t }
  | none => s

/-- Send one request, or let it wait in the order in which it arose (R642). -/
def State.sendNow (s : State) (o : Outstanding) (p : Packet) : State :=
  if s.fab.mustWait p.flow p.dst then { s with fab := { s.fab with waiting := s.fab.waiting ++ [(o, p)] } } else s.sendTagged o p

/-- Send a request on behalf of a context: its drain counter goes up (R80). The number returned names the request. -/
def State.sendReq (s : State) (w : Who) (ptype : Nat) (dst : Epid) (spec16 : BitVec 16) (spec64 : BitVec 64)
    (data : List Byte) (purpose : Purpose) (attr : Byte) : State × Nat :=
  let job : BitVec 16 := match s.ctx w.ctxid with | some c => c.job | none => 0#16
  let gen : BitVec 16 := match s.jobEntry job with | some e => e.gen | none => 0#16
  let flow := flowOf s w
  let p := s.mkPacket ptype dst job gen flow (itagOf w.pc) spec16 spec64 data
  let rid := s.fab.nextReq
  let o : Outstanding := { counted := true, rid := rid, tag := 0, ctxid := w.ctxid, dst := dst, flow := flow, purpose := purpose,
                           itag := itagOf w.pc, attr := attr, data := data.take 8 }
  let s := State.modCtx { s with fab := { s.fab with nextReq := rid + 1 } } w.ctxid fun c => { c with drain := c.drain + 1 }
  (s.sendNow o p, rid)

/-- Send the requests that wait, in their order, as far as tags and flows allow. -/
def State.sendWaiting (s : State) : State :=
  let ws := s.fab.waiting
  ws.foldl (fun s x => s.sendNow x.1 x.2) { s with fab := { s.fab with waiting := [] } }

/-- Whether a request of hart `h` is outstanding or waits to be sent, by purpose. -/
def purposeHart : Purpose → Option (Fin 4)
  | .scalar h _ _ => some h
  | .store h _ _ => some h
  | .elem h _ => some h
  | .chunk h _ _ _ => some h
  | .sca h _ _ => some h
  | .tlrec h _ => some h
  | .pdelta _ _ _ _ _ => none
  | .rebuildRead _ _ _ _ => none
  | .rebuild _ _ => none
  | .orphan => none

/-- Whether some request made for a hart has no answer yet (R336, R595). -/
def State.hartRemote (s : State) (h : Fin 4) : Bool :=
  s.fab.outstanding.any (fun o => purposeHart o.purpose == some h) ||
  s.fab.waiting.any (fun o => purposeHart o.1.purpose == some h)

/-- Whether some request of a hart has not left the device yet (R336). -/
def State.hartUnsent (s : State) (h : Fin 4) : Bool :=
  s.fab.waiting.any (fun o => purposeHart o.1.purpose == some h)

/-- Whether a parity delta of a store of a hart has no answer yet (R355). -/
def State.deltasOut (s : State) (h : Fin 4) : Bool :=
  let isDelta : Purpose → Bool := fun p => match p with | .pdelta _ _ _ _ x => x == some h | _ => false
  s.fab.outstanding.any (fun o => isDelta o.purpose) || s.fab.waiting.any (fun o => isDelta o.1.purpose)

/-- Answer a packet (R62, R63): TAG, JOB and GEN are returned, and FLOW and ITAG, of which the spec says nothing in a response
(assumption 62). -/
def State.reply (s : State) (p : Packet) (ptype : Nat) (st : Nat) (spec64 : BitVec 64) (data : List Byte) : State :=
  let r := s.mkPacket ptype p.src p.job p.gen p.flow p.itag (BitVec.ofNat 16 st) spec64 data
  s.emit (s.fab.portFor p.flow p.src) { r with tag := p.tag }

/-- The plain data of a received packet, or none when its tag does not verify under the job's key or its sender tag names another
endpoint (R66, R104). -/
def State.openPacket (s : State) (p : Packet) : Option (List Byte) :=
  if p.enc then
    match s.jobKey p.job with
    | some k => if p.nonce.getLsbD 95 || p.nonce.extractLsb' 64 19 == p.src then gcmOpen k.key p.nonce (packetExtra p) p.data else none
    | none => none
  else some p.data

/-- Whether a received packet is too old: its age with its stay here and one more would reach 256 (R78). -/
def tooOld (p : Packet) : Bool := decide (256 ≤ p.age.toNat + p.resided + 1)

end Sys2Proof.Machine
end

