-- ==== Sys2Proof/Machine/Memory.lean ====
section
/-! DEFINITION. Memory: the address map (R293 to R297), translation (R298 to R304), what a load or store does at its storage
point (R307 to R322, R327), and the error queue (R370 to R373). -/

namespace Sys2Proof.Machine

/-! ### Encrypted units (R319) -/

/-- The sealing of a unit. -/
def Memory.sealOf (m : Memory) (u : Nat) : Option Sealed := m.sealed.find? (·.unit = u)

/-- The stream that a unit is sealed with: AES-256-GCM under its memory key, with PA[39:8] and the write count as nonce. -/
def Sealed.stream (x : Sealed) : List Byte :=
  gcmStream (aesKeys (natBe 32 (Config.memoryKey x.key).toNat)) (BitVec.ofNat 32 x.unit ++ BitVec.ofNat 64 x.count) 256

/-- What stands in the storage for a reader without ENC: ciphertext where a unit is sealed. -/
def Memory.rawUnit (m : Memory) (k n : Nat) : List Byte :=
  let r := cellRead m.cells k n
  if m.sealed.isEmpty then r
  else
    let us := (List.range ((k + n) / 256 + 1 - k / 256)).map fun j => (m.sealOf (k / 256 + j)).map Sealed.stream
    r.zipIdx.map fun x =>
      match us.getD ((k + x.2) / 256 - k / 256) none with
      | some st => x.1 ^^^ st.getD ((k + x.2) % 256) 0#8
      | none => x.1

/-- Open one unit for an access (R319): an access with ENC to a unit that this key has not sealed finds a wrong tag, which
makes every word uncorrectable; a write without ENC leaves ciphertext and breaks the tag. -/
def Memory.openUnit (m : Memory) (enc write : Bool) (key u : Nat) : Memory :=
  match m.sealOf u with
  | some x =>
    if enc && x.key = key then
      if write then { m with sealed := ⟨u, key, x.count + 1⟩ :: m.sealed.filter (·.unit != u) } else m
    else if enc then
      { m with sealed := ⟨u, key, 0⟩ :: m.sealed.filter (·.unit != u),
               eccBad := (List.range 32).foldl (fun l i => natInsert l (u * 32 + i)) m.eccBad }
    else if write then
      { m with cells := cellWrite m.cells (u * 256) (m.rawUnit (u * 256) 256), sealed := m.sealed.filter (·.unit != u) }
    else m
  | none =>
    if enc then
      { m with sealed := ⟨u, key, 0⟩ :: m.sealed,
               eccBad := (List.range 32).foldl (fun l i => natInsert l (u * 32 + i)) m.eccBad }
    else m

/-- Open every unit that bytes touch. -/
def Memory.openUnits (m : Memory) (enc write : Bool) (key k n : Nat) : Memory :=
  if n = 0 || k ≥ hbmEnd || (!enc && m.sealed.isEmpty) then m
  else (List.range ((k + n - 1) / 256 - k / 256 + 1)).foldl (fun m i => m.openUnit enc write key (k / 256 + i)) m

/-! ### Translation -/

/-- The kinds of access of R298 and R302. -/
inductive AccKind where
  | fetch | load | store | atomic
  deriving DecidableEq, Repr

/-- The paths that R295, R297, R308 and R311 tell apart: `ld` and `st`, the scalar unit's other accesses (return-stack frames, control
blocks, progress words), vector elements, atomics, engines, and the engines' pointer accesses. -/
inductive AccPath where
  | scalar | aux | vector | atomic | engine | pointer
  deriving DecidableEq, Repr

/-- The page-fault cause of a kind (R298). -/
def pfCause : AccKind → BitVec 8
  | .fetch => cPFFETCH
  | .load => cPFLOAD
  | .store => cPFSTORE
  | .atomic => cPFSTORE

/-- Whether a physical address is one of control space's pages (R296). -/
def ctrlPage (pa : Nat) : Bool :=
  let page := pa / 4096 * 4096
  (List.range 12).any (fun d => page = 0x10000000000 + 0x100000 * d || page = 0x10000001000 + 0x100000 * d) ||
  (decide (0x10001000000 ≤ page) && decide (page < 0x10001100000)) ||
  (decide (0x10002000000 ≤ page) && decide (page < 0x10002008000))

/-- Whether a physical address exists (R296). -/
def paPresent (pa : Nat) : Bool := decide (pa < hbmEnd) || ctrlPage pa

/-- The outcome of a table walk. -/
inductive WalkResult where
  | page (e : TlbEntry)
  | fault
  | ecc
  deriving DecidableEq, Repr

/-- The malformed entries of R298, for a raw entry at a level. -/
def pteMalformed (enc surv : Bool) (pte : BitVec 64) (lvl : Nat) : Bool :=
  let b (i : Nat) := pte.getLsbD i
  let leaf := b 1 || b 3
  let ppn := (pte.extractLsb' 12 40).toNat * 4096
  pte.extractLsb' 52 4 != 0#4 || pte.extractLsb' 10 2 != 0#2 || pte.extractLsb' 5 2 != 0#2 ||
  (b 2 && !b 1) ||
  (b 7 && !(leaf && lvl = 0)) ||
  (!leaf && (b 4 || b 8 || b 9 || b 7 || pte.extractLsb' 56 8 != 0#8)) ||
  (b 9 && !enc) || (b 8 && !surv) ||
  (leaf && !paPresent ppn) ||
  (!leaf && !decide (ppn < hbmEnd))

/-- The page size of a leaf (R298). -/
def pageSize (lvl : Nat) (c : Bool) : Nat :=
  if lvl = 2 then 2 ^ 30 else if lvl = 1 then 2 ^ 21 else if c then 65536 else 4096

/-- The walk from a table at a level (R298), and the entries that it read. A table is read without ENC (R319). -/
def walkFrom (m : Memory) (enc surv : Bool) (asid : BitVec 16) (va : Nat) : Nat → Nat → WalkResult × List Nat
  | lvl, pa =>
    let k := pa + 8 * (va / 2 ^ (12 + 9 * lvl) % 512)
    if (eccHit m k 8).isSome then (.ecc, [k])
    else
      let pte : BitVec 64 := BitVec.ofNat 64 (leNat (m.rawUnit k 8))
      let ppn := (pte.extractLsb' 12 40).toNat * 4096
      if !pte.getLsbD 0 || pteMalformed enc surv pte lvl then (.fault, [k])
      else if !pte.getLsbD 1 && !pte.getLsbD 3 then
        match lvl with
        | 0 => (.fault, [k])
        | l + 1 => let r := walkFrom m enc surv asid va l ppn; (r.1, k :: r.2)
      else if lvl = 3 then (.fault, [k])
      else
        let c := pte.getLsbD 7
        let size := pageSize lvl c
        let back := if c then (va / 4096 % 16) * 4096 else 0
        if ppn < back || (ppn - back) % size ≠ 0 then (.fault, [k])
        else
          (.page { asid := asid, va := va / size * size, size := size, pa := ppn - back,
                   r := pte.getLsbD 1, w := pte.getLsbD 2, x := pte.getLsbD 3, u := pte.getLsbD 4,
                   p := pte.getLsbD 8, enc := pte.getLsbD 9, pgrp := pte.extractLsb' 56 8 }, [k])

/-- The walk of a context's tables (R298, R299), with what it reads. -/
def State.walkAll (s : State) (ctxid : Nat) (va : Nat) : WalkResult × List Nat :=
  match s.ctx ctxid with
  | none => (.fault, [])
  | some c => if c.valid then walkFrom s.mem (s.feat 9) (s.feat 8) c.asid va 3 (c.root * 4096) else (.fault, [])

/-- The outcome of a walk. -/
def State.walk (s : State) (ctxid : Nat) (va : Nat) : WalkResult := (s.walkAll ctxid va).1

/-- Whether a TLB entry translates an address of an address space (R303). -/
def TlbEntry.hits (e : TlbEntry) (asid : BitVec 16) (va : Nat) : Bool :=
  e.asid = asid && decide (e.va ≤ va) && decide (va < e.va + e.size)

/-- Whether two entries are the same translation. -/
def TlbEntry.same (a b : TlbEntry) : Bool :=
  a.asid == b.asid && a.va == b.va && a.size == b.size && a.pa == b.pa && a.r == b.r && a.w == b.w && a.x == b.x && a.u == b.u && a.p == b.p &&
  a.enc == b.enc && a.pgrp == b.pgrp

/-- The entries of a section. -/
def TlbSection.entries (t : TlbSection) : List TlbEntry := t.slots.toList.filterMap id

/-- The core-TLB entries that translate an address: a lookup hits in any section (R303). -/
def Core.tlbHits (c : Core) (asid : BitVec 16) (va : Nat) : List TlbEntry :=
  (c.tlb.toList.flatMap TlbSection.entries).filter fun e => e.hits asid va

/-- The entries that translate an address for an address space: of the core TLB, and of the die TLB (R303). -/
def State.tlbHits (s : State) (asid : BitVec 16) (va : Nat) : List TlbEntry :=
  s.core.tlbHits asid va ++ s.mem.dieTlb.filter fun e => e.hits asid va

/-- The translation an access uses: the tables as they stand, or an entry a TLB still holds (R303). Where they differ the
spec leaves the choice open. -/
def State.lookup (s : State) (ctxid : Nat) (va : Nat) : WalkResult :=
  let w := s.walk ctxid va
  match s.ctx ctxid with
  | none => w
  | some c =>
    match (s.tlbHits c.asid va).filter (fun e => match w with | .page f => !e.same f | _ => true) with
    | [] => w
    | e :: es => (w :: (e :: es).map WalkResult.page).getD (Config.freeChoice s.free % (es.length + 2)) w

/-- The section of the core TLB that an access fills (R303): the lane group's for vector elements, the hart's for the other accesses of
its core, none for the accesses of a home. -/
def Who.section (w : Who) (path : AccPath) : Option (Fin 4) :=
  if w.cls = 0 && path != .engine && path != .pointer then some (Fin.ofNat 4 w.lg) else if w.cls ≤ 3 then some w.h else none

/-- Put an entry into a section, round-robin (R303). -/
def TlbSection.put (t : TlbSection) (e : TlbEntry) : TlbSection := { slots := t.slots.set t.next (some e), next := t.next + 1 }

/-- Keep a translation in the TLBs (R303): an entry that the core TLB holds stays where it is; any other goes to the front of the die
TLB, of 8,192 entries, and into the section that the access fills. The walk of one that the die TLB does not hold reads the ways. -/
def State.fillTlb (s : State) (w : Who) (path : AccPath) (e : TlbEntry) : State :=
  if (s.core.tlbHits e.asid e.va).any e.same then s
  else
    let reads := if s.mem.dieTlb.any e.same then [] else (s.walkAll w.ctxid e.va).2
    let mem := reads.foldl (fun m k => m.touchRead false k 8) s.mem
    let s1 := { s with mem := { mem with dieTlb := (e :: s.mem.dieTlb.filter fun f => !e.same f).take 8192 } }
    match w.section path with
    | some i => { s1 with core := { s1.core with tlb := s1.core.tlb.set i (s1.core.tlb[i].put e) } }
    | none => s1

/-- Drop every translation that meets a condition (R303, R470). -/
def State.dropTlb (s : State) (p : TlbEntry → Bool) : State :=
  { s with mem := { s.mem with dieTlb := s.mem.dieTlb.filter fun e => !p e },
           core := { s.core with tlb := s.core.tlb.map fun t =>
             { t with slots := t.slots.map fun x => x.bind fun e => if p e then none else some e } } }

/-! ### Protection groups (R320, R321) -/

/-- The group entry of a number. -/
def State.group (s : State) (g : Nat) : Option PGroup := (s.groups.find? (·.1 = g)).map (·.2)

/-- Whether an address lies in a group's range (R321). -/
def PGroup.inRange (g : PGroup) (va : Nat) : Bool :=
  decide (g.gbase.toNat ≤ va) && decide (va < g.gbase.toNat + g.glen.toNat)

/-- The stripe of an address (R321). -/
def PGroup.stripe (g : PGroup) (va : Nat) : Nat := (va - g.gbase.toNat) / 4096

/-- The parity share that this member holds in a stripe, if it holds one (R321). -/
def PGroup.share (g : PGroup) (member s : Nat) : Option Nat :=
  if g.n = 0 then none
  else
    let j := ((member + g.n * (s + 1)) - s) % g.n
    if j < g.m then some j else none

/-- Whether a store may reach a protected page of the group: ACTIVE or DEGRADED, and in range (R302). -/
def PGroup.storable (g : PGroup) (va : Nat) : Bool := (g.state == 1#8 || g.state == 2#8) && g.inRange va

/-- The protection conditions of R302 on a page, for an access by other than the parity engine or a rebuild. -/
def State.pageAllows (s : State) (e : TlbEntry) (level : Level) (kind : AccKind) (path : AccPath) (va n : Nat) : Bool :=
  let rights :=
    match kind with
    | .fetch => e.x
    | .load => e.r
    | .store => e.w
    | .atomic => e.r && e.w
  let parity :=
    if e.p then
      match s.group e.pgrp.toNat with
      | some g =>
        (match kind with | .load => true | .fetch => true | _ => g.storable va) &&
        !(g.inRange va && (g.share g.self (g.stripe va)).isSome)
      | none => (match kind with | .load => true | .fetch => true | _ => false)
    else true
  let pa := e.pa + (va - e.va)
  let ctrl :=
    if pa < hbmEnd then true
    else
      let capacity := decide (0x10000000000 ≤ pa) && decide (pa < 0x10000C00000) && pa / 4096 % 256 = 1
      path == .scalar && n == 8 && va % 8 == 0 && !e.enc && !e.p && kind != .fetch && kind != .atomic &&
      (level != .u || (kind == .load && capacity))
  rights && (level != .u || e.u) && parity && ctrl

/-- Whether a write of bytes of one page would send a parity delta to another domain: the requester sends none, and the instruction faults
(R74). -/
def State.crossDelta (s : State) (e : TlbEntry) (kind : AccKind) (va : Nat) : Bool :=
  e.p && (kind == .store || kind == .atomic) &&
  match s.group e.pgrp.toNat with
  | some g =>
    (List.range g.m).any fun j =>
      let holder := (g.stripe va + j) % (if g.n = 0 then 1 else g.n)
      !g.lost.getLsbD holder && domainOf (g.member[holder]?.getD 0#19) != domainOf s.fab.epid
  | none => false

/-! ### Where an access goes -/

/-- The place of bytes within one 4 KiB page. -/
inductive Loc where
  | hbm (key : Nat) (enc p : Bool) (pgrp : Nat)
  | spad (key : Nat)
  | fifo (die bank : Nat)
  | ctrl (pa : Nat)
  | fabric (ep : Epid) (off : Nat)
  | busy (die bank : Nat)
  deriving DecidableEq, Repr

/-- First byte of the scratchpad window (R293). -/
def spadBase : Nat := 0x7E00000000000000

/-- A bank of a die (R305). -/
def State.bank (s : State) (die bank : Nat) : Option Bank := (s.mem.banks[die]?).bind (·[bank]?)

/-- The scratchpad window (R295, R310, R311): the bank's mode decides. -/
def State.spadLoc (s : State) (va n : Nat) (kind : AccKind) (path : AccPath) : Except Trap Loc :=
  let o := va - spadBase
  let bank := o / 2 ^ 18
  match s.bank s.die bank with
  | none => .error ⟨cPROT, BitVec.ofNat 64 va⟩
  | some b =>
    if b.busy then .ok (.busy s.die bank)
    else if b.cur = .spad && kind != .fetch then .ok (.spad (spadKey s.die o))
    else if b.cur = .fifo && path == .scalar && kind != .fetch && kind != .atomic && n == 8 && va % 8 == 0 then
      .ok (.fifo s.die bank)
    else .error ⟨cPROT, BitVec.ofNat 64 va⟩

/-- Decode and translate the bytes `va` to `va + n - 1`, which lie in one page (R293 to R302). -/
def State.locate (s : State) (w : Who) (va n : Nat) (kind : AccKind) (path : AccPath) : Except Trap (Loc × State) :=
  if 2 ^ 63 ≤ va then
    if kind = .fetch then .error ⟨cPFFETCH, BitVec.ofNat 64 va⟩
    else
      let ep : Epid := BitVec.ofNat 19 (va / 2 ^ 44)
      if domainOf ep ≠ domainOf s.fab.epid && w.cls ≠ 2 then .error ⟨cFDOMAIN, BitVec.ofNat 64 va⟩
      else .ok (.fabric ep (va % 2 ^ 44), s)
  else if spadBase ≤ va && va < spadBase + 2 ^ 25 then (s.spadLoc va n kind path).map (·, s)
  else if va < 2 ^ 48 then
    match s.lookup w.ctxid va with
    | .fault => .error ⟨pfCause kind, BitVec.ofNat 64 va⟩
    | .ecc => .error ⟨cECC, BitVec.ofNat 64 va⟩
    | .page e =>
      let s := s.fillTlb w path e
      if s.crossDelta e kind va && s.pageAllows e w.level kind path va n then .error ⟨cFDOMAIN, BitVec.ofNat 64 va⟩
      else if s.pageAllows e w.level kind path va n then
        let pa := e.pa + (va - e.va)
        .ok (if pa < hbmEnd then .hbm pa e.enc e.p e.pgrp.toNat else .ctrl pa, s)
      else .error ⟨cPROT, BitVec.ofNat 64 va⟩
  else .error ⟨pfCause kind, BitVec.ofNat 64 va⟩

/-! ### Control space (R296, R297) -/

/-- BANKMODE as it reads (R306). -/
def modeCode : BankMode → Nat
  | .off => 0 | .cacheV => 1 | .cacheP => 2 | .spad => 3 | .fifo => 4

/-- The mode of a code of 0 to 4 (R305). -/
def modeOf (n : Nat) : Option BankMode :=
  match n with
  | 0 => some .off | 1 => some .cacheV | 2 => some .cacheP | 3 => some .spad | 4 => some .fifo
  | _ => none

/-- BANKMODE of R306. -/
def Bank.word (b : Bank) : Word :=
  BitVec.ofNat 64 (modeCode b.mode + modeCode b.cur * 2 ^ 8 + (if b.wdrawn then 2 ^ 14 else 0) +
    (if b.busy then 2 ^ 15 else 0) + (if b.cur = .fifo then b.fifo.length * 2 ^ 32 else 0))

/-- The context-table words of R299. -/
def Context.word0 (c : Context) : Word := BitVec.ofNat 64 (c.root * 4096 + (if c.valid then 1 else 0))
/-- ASID and LIVE (R299). -/
def Context.word1 (c : Context) : Word := BitVec.ofNat 64 (c.asid.toNat + (if c.live then 65536 else 0))

/-- The context-table entry of a number, live or not (R299). -/
def State.ctxEntry (s : State) (n : Nat) : Option Context := s.ctxs.find? (·.ctxid = n)

/-- The entry of a context that nobody has created. -/
def emptyContext (n : Nat) : Context :=
  { ctxid := n, live := false, asid := 0#16, root := 0, valid := false, job := 0#16, key := 0, compat := none, drain := 0,
    preempted := false }

/-- Replace a context-table entry. -/
def State.setCtxEntry (s : State) (c : Context) : State := { s with ctxs := c :: s.ctxs.filter (·.ctxid ≠ c.ctxid) }

/-- A protection-group entry as 128 bytes (R320, R325). -/
def PGroup.bytes (g : PGroup) : List Byte :=
  natLe 1 g.n ++ natLe 1 g.m ++ natLe 1 g.state.toNat ++ natLe 1 g.self ++ natLe 4 g.ctxid.toNat ++ wordLe g.gbase ++
  wordLe g.glen ++ natLe 2 g.lost.toNat ++ List.replicate 6 0#8 ++
  (g.member.toList.flatMap fun e => natLe 4 e.toNat) ++
  natLe 8 (g.newep.toNat + g.slot.toNat * 2 ^ 24 + (if g.busy then 2 ^ 29 else 0) + (if g.done then 2 ^ 30 else 0) +
    (if g.fail then 2 ^ 31 else 0) + g.ndone.toNat * 2 ^ 32) ++ List.replicate 24 0#8

/-- The banks of a die that are present, as PMAP bits from bank `b0` (R318). -/
def State.pmap (s : State) (die b0 : Nat) : Nat :=
  ((List.range 64).map fun i =>
    match s.bank die (b0 + i) with
    | some b => if b.wdrawn && !b.busy then 0 else 2 ^ i
    | none => 0).sum

/-- A read of control space; an address R296 does not list reads zero (R297). -/
def State.ctrlRead (s : State) (pa : Nat) : Word :=
  let o := pa - 0x10000000000
  if o < 0x1000000 then
    let die := o / 0x100000
    let r := o % 0x100000
    if r < 0x400 then (match s.bank die (r / 8) with | some b => b.word | none => 0#64)
    else if r = 0x1000 then BitVec.ofNat 64 (popc 64 (s.pmap die 0) + popc 64 (s.pmap die 64))
    else if r = 0x1008 then BitVec.ofNat 64 (s.pmap die 0)
    else if r = 0x1010 then BitVec.ofNat 64 (s.pmap die 64)
    else 0#64
  else if 0x1000000 ≤ o && o < 0x1100000 then
    match s.ctxEntry ((o - 0x1000000) / 16) with
    | some c => if o % 16 = 0 then c.word0 else c.word1
    | none => 0#64
  else if 0x2000000 ≤ o && o < 0x2008000 then
    match s.group ((o - 0x2000000) / 128) with
    | some g => BitVec.ofNat 64 (sliceNat g.bytes (o % 128) 8)
    | none => 0#64
  else 0#64

/-- Change a bank. -/
def State.modBank (s : State) (die bank : Nat) (f : Bank → Bank) : State :=
  { s with mem := { s.mem with banks := Vector.ofFn fun (d : Fin 12) =>
      if d.val = die then Vector.ofFn fun (b : Fin 128) => if b.val = bank then f s.mem.banks[d][b] else s.mem.banks[d][b]
      else s.mem.banks[d] } }

/-- The lines of a bank leave it, dirty ones written back (R309, steps 1 to 4). -/
def Memory.closeBank (m : Memory) (die bank : Nat) : Memory :=
  (m.ways.filter fun l => l.die = die && l.bank = bank).foldl Memory.evict m

/-- A sequence to a mode starts (R309). -/
def State.startMode (s : State) (die bank : Nat) (md : BankMode) : State :=
  State.modBank { s with mem := s.mem.closeBank die bank } die bank fun b => { b with busy := true, target := md, again := false }

/-- A write of BANKMODE (R305, R306, R309, R310): a reserved mode, or any to a withdrawn bank, is ignored; while BUSY it is recorded for
a further sequence; else a mode other than CUR starts the sequence. -/
def State.writeBankMode (s : State) (die bank : Nat) (v : Word) : State :=
  match s.bank die bank, modeOf (v.extractLsb' 0 3).toNat with
  | some b, some md =>
    if b.wdrawn then s
    else if b.busy then s.modBank die bank fun b => { b with mode := md, again := true }
    else
      let s1 := s.modBank die bank fun b => { b with mode := md }
      if md = b.cur then s1 else s1.startMode die bank md
  | _, _ => s

/-- A group entry from its 128 bytes; RBCTL's RW fields follow the write, its RO fields stay (R320, R325). -/
def PGroup.ofBytes (old : PGroup) (bs : List Byte) : PGroup :=
  let rb := sliceNat bs 96 8
  { old with n := sliceNat bs 0 1, m := sliceNat bs 1 1, state := BitVec.ofNat 8 (sliceNat bs 2 1), self := sliceNat bs 3 1,
             ctxid := BitVec.ofNat 32 (sliceNat bs 4 4), gbase := BitVec.ofNat 64 (sliceNat bs 8 8),
             glen := BitVec.ofNat 64 (sliceNat bs 16 8), lost := BitVec.ofNat 16 (sliceNat bs 24 2),
             member := Vector.ofFn fun (i : Fin 16) => BitVec.ofNat 19 (sliceNat bs (32 + 4 * i.val) 4),
             newep := BitVec.ofNat 19 rb, slot := BitVec.ofNat 4 (rb / 2 ^ 24) }

/-- An empty group entry. -/
def emptyGroup : PGroup :=
  { n := 0, m := 0, state := 0#8, self := 0, ctxid := 0#32, gbase := 0#64, glen := 0#64, lost := 0#16,
    member := Vector.replicate 16 0#19, ndone := 0#32, fail := false, done := false, busy := false, slot := 0#4, newep := 0#19,
    got := [], writing := false }

/-- Replace a group entry. -/
def State.setGroup (s : State) (n : Nat) (g : PGroup) : State :=
  { s with groups := (n, g) :: s.groups.filter (·.1 != n) }

/-- How many bits of LOST are set. -/
def PGroup.lostCount (g : PGroup) : Nat := popc 16 g.lost.toNat

/-- Whether a member of a group is not lost. -/
def PGroup.alive (g : PGroup) (i : Nat) : Bool := decide (i < g.n) && !g.lost.getLsbD i

/-- Survivors of a group below an index. -/
def PGroup.aliveBelow (g : PGroup) (n : Nat) : Nat := ((List.range n).filter g.alive).length

/-- Stripes that this member rebuilds (R325). -/
def PGroup.myStripes (g : PGroup) : Nat :=
  let s := g.aliveBelow g.n
  let r := g.aliveBelow g.self
  if s = 0 then 0 else (g.glen.toNat / 4096 + s - 1 - r) / s

/-- GO of RBCTL (R325): ignored while BUSY; more than M lost members fail at once, and with no stripe to rebuild it is done. -/
def PGroup.go (g : PGroup) : PGroup :=
  if g.busy then g
  else if g.m < g.lostCount then { g with fail := true, done := false, ndone := 0#32, busy := false }
  else { g with busy := g.myStripes ≠ 0, done := g.myStripes = 0, fail := false, ndone := 0#32, got := [], writing := false }

/-- A write of one word of a group entry (R320, R325). -/
def State.writeGroup (s : State) (n off : Nat) (v : Word) : State :=
  let old := (s.group n).getD emptyGroup
  let g := PGroup.ofBytes old (splice old.bytes off (wordLe v))
  s.setGroup n (if off = 96 && v.getLsbD 28 then g.go else g)

/-- A store to control space takes effect when it performs (R297, R299, R309, R320). -/
def State.ctrlWrite (s : State) (pa : Nat) (v : Word) : State :=
  let o := pa - 0x10000000000
  if o < 0x1000000 then
    if o % 0x100000 < 0x400 then s.writeBankMode (o / 0x100000) (o % 0x100000 / 8) v else s
  else if 0x1000000 ≤ o && o < 0x1100000 then
    if o % 16 = 0 then
      let n := (o - 0x1000000) / 16
      s.setCtxEntry { (s.ctxEntry n).getD (emptyContext n) with root := (v.extractLsb' 12 40).toNat, valid := v.getLsbD 0 }
    else s
  else if 0x2000000 ≤ o && o < 0x2008000 then s.writeGroup ((o - 0x2000000) / 128) (o % 128) v
  else s

/-! ### The error queue (R370 to R373) -/

/-- The fields of an error-queue entry (R372). -/
structure ErrEntry where
  va : Word
  peer : Epid
  itag : BitVec 32
  kind : Nat
  st : Nat
  attr : Byte
  hart : Option (Fin 4)
  job : BitVec 16
  aux : Nat
  data : List Byte
  deriving DecidableEq, Repr

/-- The 64 bytes of an entry (R372). -/
def ErrEntry.bytes (e : ErrEntry) (s : State) : List Byte :=
  natLe 8 s.gtimeNs ++ wordLe e.va ++ natLe 4 e.peer.toNat ++ natLe 4 e.itag.toNat ++ natLe 1 e.kind ++ natLe 1 e.st ++
  [e.attr] ++ [0#8] ++ natLe 2 (match e.hart with | some h => s.hartId h | none => 0x7FF) ++ natLe 2 e.job.toNat ++
  natLe 8 e.aux ++ slice e.data 0 8 ++ List.replicate 16 0#8

/-! ### The combining store (R603) -/

/-- Order of keys: sender rank, then element index (R603). -/
def scaLt (a b : ScaPending) : Bool :=
  decide (a.grank.toNat < b.grank.toNat) || (a.grank = b.grank && decide (a.index < b.index))

/-- Insert by key. -/
def scaInsert (e : ScaPending) : List ScaPending → List ScaPending
  | [] => [e]
  | x :: xs => if scaLt e x then e :: x :: xs else x :: scaInsert e xs

/-- The floating-point format of an element type, where it is one. -/
def etFmt (et : ETCode) : Option Fmt :=
  match et.toNat with
  | 8 => some .e4m3 | 9 => some .e5m2 | 10 => some .e2m1 | 11 => some .bf16 | 12 => some .f16 | 13 => some .f32
  | 14 => some .f64
  | _ => none

/-- The old value with the pending additions of one element applied in key order, each rounded (R603). -/
def scaFold (et : ETCode) (old : Nat) (es : List ScaPending) : Nat :=
  let f := (etFmt et).getD .f32
  (es.foldl (fun l e => scaInsert e l) []).foldl (fun v e => (fpAdd f .rne v e.value).1) old

/-! ### Loads and stores at the storage point -/

/-- What an access came to: a value, a trap, a trip over the fabric, a wait for a bank's mode change, or a wait for a FIFO. -/
inductive Acc (α : Type) where
  | ok (v : α) (s : State)
  | trap (t : Trap)
  | fabric (ep : Epid) (off : Nat)
  | busy
  | fifo (bank : Nat)
  deriving Repr

/-- The address-space key of a context's encryption (R319). -/
def State.encKey (s : State) (ctxid : Nat) : Nat := match s.ctx ctxid with | some c => c.key | none => 0

/-- Multiply by 2 in GF(2^8) under 0x11D (R322). -/
def gfDouble (b : Byte) : Byte := (b <<< 1) ^^^ (if b.getLsbD 7 then 0x1D#8 else 0#8)

/-- 2^n times a byte in GF(2^8) (R322). -/
def gfShift : Nat → Byte → Byte
  | 0, b => b
  | n + 1, b => gfShift n (gfDouble b)

/-- The parity deltas of a write to a protected page: for each 16-byte unit touched and each share, c(j, t) times the
difference, to the share's holder unless it is lost (R322, R323). -/
def State.sendDeltas (s : State) (w : Who) (gi : Nat) (g : PGroup) (va : Nat) (old new : List Byte) : State :=
  let st := g.stripe va
  let t := ((g.self + g.n * (st + 1 + g.m)) - st - g.m) % (if g.n = 0 then 1 else g.n)
  let first := va / 16
  let cnt := if old.isEmpty then 0 else (va + old.length - 1) / 16 - first + 1
  (List.range cnt).foldl (fun s u =>
    let base := (first + u) * 16
    let delta : List Byte := (List.range 16).map fun i =>
      let a := base + i
      if va ≤ a && a < va + old.length then old.getD (a - va) 0#8 ^^^ new.getD (a - va) 0#8 else 0#8
    (List.range g.m).foldl (fun s j =>
      let holder := (st + j) % (if g.n = 0 then 1 else g.n)
      if g.lost.getLsbD holder then s
      else
        let ep : Epid := g.member[holder]?.getD 0#19
        let by_ : Option (Fin 4) := if w.cls ≤ 3 then some w.h else none
        (s.sendReq { w with cls := 4 } 0x09 ep (BitVec.ofNat 16 (gi + j * 256)) (BitVec.ofNat 64 base)
          (delta.map (gfShift (j * t))) (.pdelta gi j ep (BitVec.ofNat 64 base) by_) 0#8).1) s) s

/-- Every reservation on a line that bytes touch is lost, but for the hart's own `stc` (R341). -/
def State.loseReservations (s : State) (k n : Nat) : State :=
  { s with harts := s.harts.map fun h =>
    match h.resv with
    | some l => if (linesOf k n).contains l then { h with resv := none } else h
    | none => h }

/-- A store performed by the core itself updates or invalidates the matching line of its scalar data cache (R312): which
of the two is open. -/
def State.touchDcache (s : State) (k : Nat) (bs : List Byte) : State :=
  if s.core.dcache.any (fun l => (linesOf k bs.length).contains l.line) then
    let upd (l : CLine) : CLine :=
      { l with data := (List.range 64).map fun i =>
          let a := l.line * 64 + i
          if decide (k ≤ a) && decide (a < k + bs.length) then bs.getD (a - k) 0#8 else l.data.getD i 0#8 }
    let update := Config.freeChoice s.free % 2 = 0
    let lines :=
      if update then s.core.dcache.map fun l => if (linesOf k bs.length).contains l.line then upd l else l
      else s.core.dcache.filter fun l => !(linesOf k bs.length).contains l.line
    { s with core := { s.core with dcache := lines } }
  else s

/-- The storage takes bytes: the ways of the home die look them up (R307), reservations are lost, and the lines that the core's own
agents have cached follow (R312, R327, R341). -/
def State.pokeKey (s : State) (ownCore : Bool) (k : Nat) (bs : List Byte) : State :=
  let s := State.loseReservations { s with mem := (s.mem.touchWrite k bs.length).poke k bs } k bs.length
  if ownCore then s.touchDcache k bs else s

/-- Whether an access is made by an agent of the modelled core (R312). -/
def Who.ownCore (w : Who) : Bool := decide (w.cls ≤ 3)

/-- An entry the device keeps for a context's collector, up to 64 of them (R370). -/
def State.keepError (s : State) (ctxid : Nat) (e : ErrEntry) : State :=
  if (s.sched.deviceErrors.filter (·.1 = ctxid)).length < 64 then
    { s with sched := { s.sched with deviceErrors := s.sched.deviceErrors ++ [(ctxid, e.bytes s)] } }
  else s

/-- Write bytes of HBM at the storage point once no pending addition stands there, with the parity deltas of a protected page (R322):
none, and no byte, when the old bytes there are uncorrectable. -/
def State.writeNow (s : State) (w : Who) (enc p : Bool) (pgrp : Nat) (va k : Nat) (bs : List Byte) : Option State :=
  let s := { s with mem := s.mem.openUnits enc true (s.encKey w.ctxid) k bs.length }
  let plain := s.pokeKey w.ownCore k bs
  match (if p then s.group pgrp else none) with
  | none => some plain
  | some g =>
    if g.state == 1#8 || g.state == 2#8 then
      if (eccHit s.mem k bs.length).isSome then none
      else some (plain.sendDeltas w pgrp g va (s.mem.peek k bs.length) bs)
    else some plain

/-- The job of a context. -/
def State.jobOf (s : State) (ctxid : Nat) : BitVec 16 := match s.ctx ctxid with | some c => c.job | none => 0#16

/-- Apply the pending entries of one element (R603): each addition in key order, and the parity deltas of a protected page.
With an uncorrectable old value they are discarded and reported to the collector. -/
def State.applyElement (s : State) (w : Who) (e : ScaPending) (es : List ScaPending) : State :=
  let nb := etBits e.et / 8
  let lost (s : State) : State := s.keepError e.ctxid
    { va := BitVec.ofNat 64 e.va, peer := s.fab.epid, itag := 0#32, kind := 2, st := 3, attr := 0#8, hart := none,
      job := s.jobOf e.ctxid, aux := e.index, data := [] }
  let s := { s with mem := (s.mem.touchRead false e.key nb).openUnits e.enc false (s.encKey e.ctxid) e.key nb }
  if (eccHit s.mem e.key nb).isSome then lost s
  else
    match s.writeNow { w with ctxid := e.ctxid } e.enc e.p e.pgrp e.va e.key (natLe nb (scaFold e.et (leNat (s.mem.peek e.key nb)) es)) with
    | some s => s
    | none => lost s

/-- Pending combining-store entries on the lines that bytes touch are applied before the access (R603). -/
def State.applySca (s : State) (w : Who) (k n : Nat) : State :=
  let mine := s.mem.sca.filter (fun e => (linesOf k n).contains (e.key / 64))
  if mine.isEmpty then s
  else
    let s := { s with mem := { s.mem with sca := s.mem.sca.filter (fun e => !(linesOf k n).contains (e.key / 64)) } }
    let keys := mine.foldl (fun l e => natInsert l e.key) []
    keys.foldl (fun s key =>
      match mine.filter (·.key = key) with
      | [] => s
      | e :: es => s.applyElement w e (e :: es)) s

/-- Read bytes of HBM or scratchpad at the storage point: ECC_LOAD at an uncorrectable word (R316, R317). -/
def State.readKey (s : State) (w : Who) (enc : Bool) (k n : Nat) (pointer : Bool := false) : Option (List Byte) × State :=
  let s := s.applySca w k n
  let s := { s with mem := (s.mem.touchRead pointer k n).openUnits enc false (s.encKey w.ctxid) k n }
  if (eccHit s.mem k n).isSome then (none, s)
  else (some (if enc then s.mem.peek k n else s.mem.rawUnit k n), s)

/-- Write bytes of HBM at the storage point (R322, R603). -/
def State.writeKey (s : State) (w : Who) (enc p : Bool) (pgrp : Nat) (va k : Nat) (bs : List Byte) : Option State :=
  (s.applySca w k bs.length).writeNow w enc p pgrp va k bs

/-- A scalar load of HBM through the scalar data cache (R312, R329): a hit returns the line as cached; a miss reads the
storage point and fills, least recently used out of four. An uncorrectable word in the cache invalidates it (R369). -/
def State.dcacheRead (s : State) (w : Who) (enc : Bool) (k n : Nat) : Option (List Byte) × State :=
  let line := k / 64
  let s := if s.core.dcache.any (fun l => l.line = line && l.bad) then { s with core := { s.core with dcache := [] } } else s
  match s.core.dcache.find? (·.line = line) with
  | some l =>
    let rest := s.core.dcache.filter (fun x => x.line != line)
    (some (slice l.data (k % 64) n), { s with core := { s.core with dcache := l :: rest } })
  | none =>
    let (r, s) := s.readKey w enc k n
    match r with
    | none => (none, s)
    | some bs =>
      let (full, s) := s.readKey w enc (line * 64) 64
      match full with
      | none => (some bs, s)
      | some d =>
        let inSet (x : CLine) : Bool := x.line % 128 = line % 128
        let keep := ((s.core.dcache.filter inSet).take 3)
        (some bs, { s with core := { s.core with
          dcache := ⟨line, d, false⟩ :: (keep ++ s.core.dcache.filter (fun x => !inSet x)) } })

/-- The parts of an access that lie in one page, and within `unit` bytes of alignment. -/
def pieces (unit : Nat) : Nat → Nat → Nat → List (Nat × Nat)
  | 0, _, _ => []
  | fuel + 1, va, n =>
    if n = 0 then []
    else
      let room := unit - va % unit
      if n ≤ room then [(va, n)] else (va, room) :: pieces unit fuel (va + room) (n - room)

/-- Parts by page. -/
def pagePieces (va n : Nat) : List (Nat × Nat) := pieces 4096 (n / 4096 + 2) va n

/-- Check every part of an access: the lowest faulting VA traps (R448). The places come back in order. -/
def State.locateAll (s : State) (w : Who) (kind : AccKind) (path : AccPath) (n : Nat) :
    List (Nat × Nat) → Except Trap (List (Loc × Nat × Nat) × State)
  | [] => .ok ([], s)
  | (va, k) :: rest =>
    match s.locate w va (if path = .scalar then n else k) kind path with
    | .error t => .error t
    | .ok (l, s) =>
      match State.locateAll s w kind path n rest with
      | .error t => .error t
      | .ok (ls, s) => .ok ((l, va, k) :: ls, s)

/-- Whether a place waits for its bank. -/
def Loc.isBusy : Loc → Bool
  | .busy _ _ => true
  | _ => false

/-- Read the bytes of places, in order. -/
def State.readLocs (s : State) (w : Who) (path : AccPath) : List (Loc × Nat × Nat) → Acc (List Byte)
  | [] => .ok [] s
  | (l, va, n) :: rest =>
    let one : Option (List Byte) × State :=
      match l with
      | .hbm k enc _ _ =>
        if path = .scalar && n ≤ 64 - k % 64 then s.dcacheRead w enc k n else s.readKey w enc k n (path = .pointer)
      | .spad k => s.readKey w true k n
      | .ctrl pa => (some (wordLe (s.ctrlRead pa)), s)
      | _ => (some [], s)
    match one with
    | (none, _) => .trap ⟨cECC, BitVec.ofNat 64 va⟩
    | (some bs, s) =>
      match State.readLocs s w path rest with
      | .ok v s => .ok (bs ++ v) s
      | .trap t => .trap t
      | .fabric e o => .fabric e o
      | .busy => .busy
      | .fifo b => .fifo b

/-- Whether a hart's push or pop is the next of a FIFO's pushes or pops: those that wait are served in arrival order (R311). -/
def State.fifoTurn (s : State) (h : Fin 4) (bank : Nat) (push : Bool) : Bool :=
  match s.core.fifoWaiters.find? (fun x => x.2 = (bank, push)) with
  | none => true
  | some x => x.1 = h

/-- A hart's access to a FIFO has performed, or is abandoned. -/
def State.leaveFifo (s : State) (h : Fin 4) : State :=
  { s with core := { s.core with fifoWaiters := s.core.fifoWaiters.filter (fun b => b.1 != h) } }

/-- A hart's access waits at a FIFO. -/
def State.joinFifo (s : State) (h : Fin 4) (bank : Nat) (push : Bool) : State :=
  if s.core.fifoWaiters.contains (h, bank, push) then s
  else { s with core := { s.core with fifoWaiters := s.core.fifoWaiters ++ [(h, bank, push)] } }

/-- A load of `n` bytes (R448, R326 to R330). A FIFO pop and a fabric load are the caller's. -/
def State.load (s : State) (w : Who) (va n : Nat) (path : AccPath) : Acc (List Byte) :=
  match s.locateAll w .load path n (if 2 ^ 63 ≤ va then [(va, n)] else pagePieces va n) with
  | .error t => .trap t
  | .ok (ls, s) =>
    if ls.any (fun l => l.1.isBusy) then .busy
    else
      match ls with
      | [(.fabric e o, _, _)] => .fabric e o
      | [(.fifo d b, _, _)] =>
        match s.bank d b with
        | some bk =>
          (match bk.fifo with
          | [] => .fifo (d * 128 + b)
          | x :: xs =>
            if !s.fifoTurn w.h (d * 128 + b) false then .fifo (d * 128 + b)
            else if x.bad then .trap ⟨cECC, BitVec.ofNat 64 va⟩
            else .ok (wordLe x.data) ((s.modBank d b fun k => { k with fifo := xs }).leaveFifo w.h))
        | none => .busy
      | _ =>
        let split := if path = .scalar then
            ls.flatMap (fun l => match l with
              | (.hbm k e p g, va, n) => (pieces 64 (n / 64 + 2) k n).map (fun q => (Loc.hbm q.1 e p g, va + (q.1 - k), q.2))
              | x => [x]) else ls
        s.readLocs w path split

/-! ### Writing the error queue (R370, R371) -/

/-- LOG2N of EQBASE (R253). -/
def Hart.eqLog (h : Hart) : Nat := (h.eqbase.extractLsb' 0 5).toNat

/-- Whether a hart's error queue is full (R371). -/
def Hart.eqFull (h : Hart) : Bool := decide (2 ^ h.eqLog ≤ (h.eqtail - h.eqhead).toNat)

/-- The address of an error-queue slot (R371). -/
def Hart.eqSlot (h : Hart) (n : BitVec 32) : Nat :=
  (h.eqbase.extractLsb' 12 52).toNat * 4096 + 64 * (n.toNat % 2 ^ h.eqLog)

/-- A dropped entry raises EQ_OVF, or adds to the count of the one that is held (R371). -/
def Hart.dropEntry (h : Hart) : Hart :=
  if h.asyncs.any (·.cause = cEQOVF) then
    { h with asyncs := h.asyncs.map fun t => if t.cause = cEQOVF then { t with tval := t.tval + 1#64 } else t }
  else { h with asyncs := h.asyncs ++ [⟨cEQOVF, 1#64⟩] }

/-- The places of a write whose old bytes make a protected write fail (R322). -/
def State.badWrite (s : State) (w : Who) (ls : List (Loc × Nat × Nat)) : Option Nat :=
  ls.findSome? fun l =>
    match l with
    | (.hbm k e true g, _, n) =>
      (match s.group g with
      | some x => if (x.state == 1#8 || x.state == 2#8) &&
          (eccHit (s.mem.openUnits e true (s.encKey w.ctxid) k n) k n).isSome then some g else none
      | none => none)
    | _ => none

/-- Write the bytes of places, in order. -/
def State.writePlaces (s : State) (w : Who) : List (Loc × Nat × Nat) → List Byte → State
  | [], _ => s
  | (l, va, n) :: rest, bs =>
    let part := bs.take n
    let s1 : State :=
      match l with
      | .hbm k e p g => (s.writeKey w e p g va k part).getD s
      | .spad k => (s.applySca w k n).pokeKey w.ownCore k part
      | .ctrl pa => s.ctrlWrite pa (BitVec.ofNat 64 (leNat part))
      | _ => s
    State.writePlaces s1 w rest (bs.drop n)

/-- A write of local bytes by the device, with the permissions of a level, all or nothing: for entries, reports, results and status
words, and at a home. A bank that changes its mode makes it wait (R310). -/
def State.deviceStore (s : State) (w : Who) (va : Nat) (bs : List Byte) : Acc Unit :=
  if 2 ^ 63 ≤ va then .trap ⟨cPFSTORE, BitVec.ofNat 64 va⟩
  else
    match s.locateAll w .store .engine bs.length (pagePieces va bs.length) with
    | .error t => .trap t
    | .ok (ls, s) =>
      if ls.any (fun l => l.1.isBusy) then .busy
      else
        match s.badWrite w ls with
        | some _ => .trap ⟨cECC, BitVec.ofNat 64 va⟩
        | none => .ok () (s.writePlaces w ls bs)

/-- Such a write, or none when it does not perform. -/
def State.deviceWrite (s : State) (w : Who) (va : Nat) (bs : List Byte) : Option State :=
  match s.deviceStore w va bs with
  | .ok _ s => some s
  | _ => none

/-- A read of local bytes by the device, with the permissions of a level. A bank that changes its mode makes it wait (R310). -/
def State.deviceLoad (s : State) (w : Who) (va n : Nat) : Acc (List Byte) :=
  if 2 ^ 63 ≤ va then .trap ⟨cPFLOAD, BitVec.ofNat 64 va⟩ else s.load w va n .engine

/-- Such a read, or none when it does not perform. -/
def State.deviceRead (s : State) (w : Who) (va n : Nat) : Option (List Byte) :=
  match s.deviceLoad w va n with
  | .ok v _ => some v
  | _ => none

/-- Whether a slot runs a hart. -/
def Hart.isRunning (h : Hart) : Bool :=
  !h.frozen &&
  (match h.status with
  | .running => true
  | .waiting _ _ => true
  | _ => false)

/-- The collector of a context (R370): its running hart of lowest HARTID whose LOG2N is not zero. -/
def State.collector (s : State) (ctxid : Nat) : Option (Fin 4) :=
  [(0 : Fin 4), 1, 2, 3].find? fun i => s.harts[i].isRunning && s.harts[i].ctxid.toNat = ctxid && s.harts[i].eqLog ≠ 0

/-- Put the bytes of an entry into a hart's queue (R371). One whose bank changes its mode waits (R310), and those behind it with it. -/
def State.errorBytes (s : State) (i : Fin 4) (bs : List Byte) : State :=
  let h := s.harts[i]
  let waits : State := s.modHart i fun h => { h with eqWait := h.eqWait ++ [bs] }
  if !h.eqWait.isEmpty then waits
  else if h.eqLog = 0 || h.eqFull then s.modHart i Hart.dropEntry
  else
    let w : Who := ⟨i, h.ctxid.toNat, .s, h.pc, 1, 0⟩
    match s.deviceStore w (h.eqSlot h.eqtail) bs with
    | .ok _ s => s.modHart i fun h => { h with eqtail := h.eqtail + 1#32 }
    | .busy => waits
    | _ => s.modHart i Hart.dropEntry

/-- The entries of a hart that waited for a bank are tried again, in their order (R310, R371). -/
def State.retryErrors (s : State) (i : Fin 4) : State :=
  s.harts[i].eqWait.foldl (fun s bs => s.errorBytes i bs) (s.modHart i fun h => { h with eqWait := [] })

/-- Entries kept for collectors go to those that exist now (R370). -/
def State.flushErrors (s : State) : State :=
  let es := s.sched.deviceErrors
  es.foldl (fun s e =>
    match s.collector e.1 with
    | some i => s.errorBytes i e.2
    | none => { s with sched := { s.sched with deviceErrors := s.sched.deviceErrors ++ [e] } })
    { s with sched := { s.sched with deviceErrors := [] } }

/-- An entry without an originating instruction goes to the collector; the device holds up to 64 while there is none
(R370). -/
def State.errorToCollector (s : State) (ctxid : Nat) (e : ErrEntry) : State := (s.keepError ctxid e).flushErrors

/-- An entry goes to its hart's queue, or is dropped and counted (R370, R371). -/
def State.errorTo (s : State) (i : Fin 4) (e : ErrEntry) : State := s.errorBytes i (e.bytes s)

/-- The error entry of a local store that performs nothing (R322, R639). -/
def State.storeError (s : State) (w : Who) (kind st : Nat) (va : Nat) (aux : Nat) (bs : List Byte) : State :=
  s.errorTo w.h { va := BitVec.ofNat 64 va, peer := s.fab.epid, itag := itagOf w.pc, kind := kind, st := st, attr := 0#8,
                  hart := some w.h, job := s.jobOf w.ctxid, aux := aux, data := bs.take 8 }

/-! ### Stores -/

/-- Write the bytes of places, all or none: a protected write with uncorrectable old bytes performs nothing and is reported with KIND 9
(R322, R373). -/
def State.writeLocs (s : State) (w : Who) (ls : List (Loc × Nat × Nat)) (bs : List Byte) : State :=
  match s.badWrite w ls with
  | some g => s.storeError w 9 3 (match ls with | l :: _ => l.2.1 | [] => 0) g bs
  | none => s.writePlaces w ls bs

/-- A store of bytes (R448, R326 to R330). A push to a full FIFO and a bank that changes its mode make it wait; a fabric
store is the caller's. -/
def State.store (s : State) (w : Who) (va : Nat) (bs : List Byte) (path : AccPath) : Acc Unit :=
  match s.locateAll w .store path bs.length (if 2 ^ 63 ≤ va then [(va, bs.length)] else pagePieces va bs.length) with
  | .error t => .trap t
  | .ok (ls, s) =>
    if ls.any (fun l => l.1.isBusy) then .busy
    else
      match ls with
      | [(.fabric e o, _, _)] => .fabric e o
      | [(.fifo d b, _, _)] =>
        match s.bank d b with
        | some bk =>
          if 32768 ≤ bk.fifo.length || !s.fifoTurn w.h (d * 128 + b) true then .fifo (d * 128 + b)
          else .ok () ((s.modBank d b fun k => { k with fifo := k.fifo ++ [⟨BitVec.ofNat 64 (leNat bs), false⟩] }).leaveFifo w.h)
        | none => .busy
      | _ => .ok () (s.writeLocs w ls bs)

/-! ### Atomic accesses -/

/-- The new value of an atomic of `n` bytes (R454). -/
def amoNew (op : AmoOp) (n old b cmp : Nat) : Option Nat :=
  let w := 8 * n
  match op with
  | .add => some ((old + b) % 2 ^ w)
  | .and => some (old &&& b)
  | .or => some (old ||| b)
  | .xor => some (old ^^^ b)
  | .min => some (if sval w b < sval w old then b else old)
  | .max => some (if sval w old < sval w b then b else old)
  | .minu => some (if b < old then b else old)
  | .maxu => some (if old < b then b else old)
  | .swap => some b
  | .cas => if old = cmp then some b else none
  | .fadd => some (fpAdd (if n = 4 then .f32 else .f64) .rne old b).1

/-- An indivisible read and write of `n` aligned bytes at the storage point (R327, R454): the old value. -/
def State.atomicAt (s : State) (w : Who) (va n : Nat) (f : Nat → Option Nat) : Acc Nat :=
  match s.locate w va n .atomic .atomic with
  | .error t => .trap t
  | .ok (l, s) =>
    match l with
    | .fabric e o => .fabric e o
    | .busy _ _ => .busy
    | .hbm k enc p g =>
      (match s.readKey w enc k n with
      | (none, _) => .trap ⟨cECC, BitVec.ofNat 64 va⟩
      | (some bs, s) =>
        match f (leNat bs) with
        | none => .ok (leNat bs) s
        | some v =>
          match s.writeKey w enc p g va k (natLe n v) with
          | some s => .ok (leNat bs) s
          | none => .trap ⟨cECC, BitVec.ofNat 64 va⟩)
    | .spad k =>
      (match s.readKey w true k n with
      | (none, _) => .trap ⟨cECC, BitVec.ofNat 64 va⟩
      | (some bs, s) =>
        match f (leNat bs) with
        | none => .ok (leNat bs) s
        | some v => .ok (leNat bs) (s.pokeKey w.ownCore k (natLe n v)))
    | _ => .trap ⟨cPROT, BitVec.ofNat 64 va⟩

/-! ### Fences -/

/-- Strips that the stream engines hold unpopped for a hart are discarded, to be fetched again (R336). -/
def Hart.dropStrips (h : Hart) : Hart := { h with fetched := Vector.replicate 4 [] }

/-- The effect at completion of a fence of scope `clu` or wider of the issuing hart (R336): the scalar data cache is invalidated, and
the hart's fetched, unpopped strips are discarded. -/
def State.fenceEffect (s : State) (scope : Nat) : State :=
  if 3 ≤ scope then State.mod { s with core := { s.core with dcache := [] } } Hart.dropStrips else s

/-- Whether an instruction of the vector queue accesses memory. -/
def Body.accesses : Body → Bool
  | .load _ _ _ _ | .store _ _ _ _ | .vlm | .vsm | .capp | .amo _ | .sca _ => true
  | .fib .ld _ | .fib .st _ | .fib .bm _ => true
  | _ => false

/-- Whether an entry has memory still to access: by its own effect, or for a strip that it popped and that is not all fetched. -/
def QEntry.reaches (e : QEntry) : Bool :=
  e.post.body.accesses || (e.strips.any fun x => decide (x.got.length < x.count)) ||
  (match e.post.body with
  | .fib .walk _ | .mat .ld _ _ _ _ | .mat .st _ _ _ _ | .sbind | .gsp | .ssp | .cpy | .cpyr => true
  | _ => false)

/-- Whether an instruction is a sequentially consistent access (R342). -/
def Body.isSc : Body → Bool
  | .load _ _ _ sc => sc
  | .store _ _ _ sc => sc
  | _ => false

/-- The hart and the queue entry that a request was made for. -/
def Purpose.entry : Purpose → Option (Fin 4 × Nat)
  | .elem h e => some (h, e)
  | .chunk h e _ _ => some (h, e)
  | _ => none

/-- The requests that have no answer yet, those that wait to be sent among them. -/
def Fabric.open (f : Fabric) : List Outstanding := f.outstanding ++ f.waiting.map (·.1)

/-- Whether the accesses that an entry has still to make, if any, have all performed at a scope (R336): up to `dev` they are requests that have
been sent; at `dom` and `sv` what is left are chunks on their way to other domains (R352). -/
def State.entryPerformed (s : State) (i : Fin 4) (e : QEntry) (scope : Nat) : Bool :=
  !e.reaches || e.sentAll && !(s.harts[i].late.any fun b => match b.chunk with | some c => c.1 == e.eid | none => false) &&
  (if scope ≤ 4 then true
   else decide (scope ≤ 6) && !(s.fab.open.any fun o =>
     o.purpose.entry == some (i, e.eid) && domainOf o.dst == domainOf s.fab.epid))

/-- Whether every earlier access of a hart has performed at a scope (R336, R352, R355). The accesses of held queues are not before a
fence of their handler. -/
def State.performed (s : State) (i : Fin 4) (scope : Nat) : Bool :=
  let h := s.harts[i]
  let mine (o : Outstanding) : Bool := purposeHart o.purpose == some i
  let near (o : Outstanding) : Bool := decide (scope = 7) || domainOf o.dst == domainOf s.fab.epid
  if scope = 0 then
    (h.held || h.queue.all fun e => e.post.eng != .vector || s.entryPerformed i e 0) &&
    h.late.all (·.lane.isNone) && !(s.fab.waiting.any fun o => mine o.1 && o.1.flow.toNat < 8192)
  else
    (h.held || h.queue.all fun e => s.entryPerformed i e scope) && h.stbuf.isEmpty && h.late.isEmpty &&
    (if scope ≤ 4 then !s.hartUnsent i else !(s.fab.open.any fun o => mine o && near o)) &&
    (decide (scope < 6) || !s.deltasOut i)

end Sys2Proof.Machine
end

