-- ==== Sys2Proof/Machine/Rebuild.lean ====
section
/-! DEFINITION. The parity engine and rebuilds (R294, R321 to R325): accesses to units that are exempt from the permissions of level U, the
linear systems of R324, and the copy engine's work on the stripes that this member rebuilds. -/

namespace Sys2Proof.Machine

/-! ### Units (R294) -/

/-- The accesses of a home: the context of the JOB entry, with the permissions of level U (R294). -/
def whoHome (ctxid : Nat) : Who := ⟨0, ctxid, .u, 0#64, 5, 0⟩

/-- The storage key of bytes of a unit for the parity engine or a rebuild, or a status: they must lie in a P page of the group, in the group's
range, under the group's context (R294). -/
def State.unitPlace (s : State) (c gi off n : Nat) : Except Nat (Nat × Bool × State) :=
  match s.group gi, s.lookup c off with
  | none, _ => .error 2
  | some _, .fault => .error 1
  | some _, .ecc => .error 3
  | some g, .page e =>
    let k := e.pa + (off - e.va)
    if !e.p || e.pgrp.toNat ≠ gi || g.ctxid.toNat ≠ c || !g.inRange off || !g.inRange (off + n - 1) || e.va + e.size < off + n ||
        hbmEnd ≤ k then .error 2
    else .ok (k, e.enc, s.fillTlb (whoHome c) .engine e)

/-- Read bytes of a unit, or a status. -/
def State.unitRead (s : State) (c gi off n : Nat) : Except Nat (List Byte × State) :=
  match s.unitPlace c gi off n with
  | .error st => .error st
  | .ok (k, enc, s) => match s.readKey (whoHome c) enc k n with | (some bs, s) => .ok (bs, s) | (none, _) => .error 3

/-- Write bytes of a unit, with no delta, or a status. -/
def State.unitWrite (s : State) (c gi off : Nat) (bs : List Byte) : Except Nat State :=
  match s.unitPlace c gi off bs.length with
  | .error st => .error st
  | .ok (k, enc, s) =>
    let s := s.applySca (whoHome c) k bs.length
    .ok (State.pokeKey { s with mem := s.mem.openUnits enc true (s.encKey c) k bs.length } false k bs)

/-- The group whose rebuild a copy access of a home serves: one in REBUILDING whose P page and range hold the bytes, under its context. The
packets do not name a rebuild (assumption 63). -/
def State.rebuildGroup (s : State) (c off n : Nat) : Option Nat :=
  match s.lookup c off with
  | .page e =>
    if e.p then
      match s.group e.pgrp.toNat with
      | some g => if g.state = 3#8 && g.ctxid.toNat = c && g.inRange off && g.inRange (off + n - 1) then some e.pgrp.toNat else none
      | none => none
    else none
  | _ => none

/-! ### GF(2^8) (R322, R324) -/

/-- A product under 0x11D. -/
def gfMul (a b : Byte) : Byte := (List.range 8).foldl (fun r i => if b.getLsbD i then r ^^^ gfShift i a else r) 0#8

/-- The inverse: the 254th power. -/
def gfInv (a : Byte) : Byte := (List.range 253).foldl (fun r _ => gfMul r a) a

/-- A sum of units. -/
def gfAddUnit (a b : List Byte) : List Byte := List.zipWith (· ^^^ ·) a b

/-- A multiple of a unit. -/
def gfScale (c : Byte) (a : List Byte) : List Byte := a.map (gfMul c)

/-- A unit of zeros. -/
def zeroUnit : List Byte := List.replicate 4096 0#8

/-- An equation: coefficients of the unknown units, and the unit they sum to. -/
abbrev GfRow := List Byte × List Byte

/-- A row without its first unknown, given the row that was chosen for it. -/
def gfEliminate (pivot row : GfRow) : GfRow :=
  let c := gfMul (row.1.headD 0#8) (gfInv (pivot.1.headD 0#8))
  ((List.zipWith (fun x y => x ^^^ gfMul c y) row.1 pivot.1).drop 1, gfAddUnit row.2 (gfScale c pivot.2))

/-- Solve for `n` unknown units. The systems of R324 have one solution. -/
def gfSolve : Nat → List GfRow → List (List Byte)
  | 0, _ => []
  | n + 1, rows =>
    match rows.find? fun r => r.1.headD 0#8 ≠ 0#8 with
    | none => List.replicate (n + 1) zeroUnit
    | some p =>
      let rest := ((rows.erase p).map (gfEliminate p))
      let sol := gfSolve n rest
      let known := (List.zipWith (fun c x => gfScale c x) (p.1.drop 1) sol).foldl gfAddUnit p.2
      gfScale (gfInv (p.1.headD 0#8)) known :: sol

/-! ### Rebuild (R321, R324, R325) -/

/-- The data position of a member in a stripe (R321). -/
def PGroup.dataPos (g : PGroup) (member s : Nat) : Nat := (member + g.n * (s + 1 + g.m) - s - g.m) % (if g.n = 0 then 1 else g.n)

/-- The member that holds data position `t` of a stripe. -/
def PGroup.dataHolder (g : PGroup) (s t : Nat) : Nat := (t + s + g.m) % (if g.n = 0 then 1 else g.n)

/-- The member that holds parity share `j` of a stripe. -/
def PGroup.shareHolder (g : PGroup) (s j : Nat) : Nat := (s + j) % (if g.n = 0 then 1 else g.n)

/-- The sum of the data units with the coefficients of share `j` (R322). -/
def gfParity (j : Nat) (ds : List (Nat × List Byte)) : List Byte := ds.foldl (fun u d => gfAddUnit u (d.2.map (gfShift (j * d.1)))) zeroUnit

/-- Every data unit of a stripe by its position, from the surviving units by member: the lost ones are solved from the lowest-numbered
surviving shares, one for each (R324). -/
def PGroup.dataUnits (g : PGroup) (s : Nat) (units : Nat → List Byte) : List (Nat × List Byte) :=
  let ts := List.range (g.n - g.m)
  let lost := ts.filter fun t => !g.alive (g.dataHolder s t)
  let good := (ts.filter fun t => g.alive (g.dataHolder s t)).map fun t => (t, units (g.dataHolder s t))
  let shares := ((List.range g.m).filter fun j => g.alive (g.shareHolder s j)).take lost.length
  let rows : List GfRow := shares.map fun j =>
    (lost.map fun t => gfShift (j * t) 1#8, gfAddUnit (units (g.shareHolder s j)) (gfParity j good))
  good ++ lost.zip (gfSolve lost.length rows)

/-- The unit of the lost member SLOT in a stripe (R324). -/
def PGroup.rebuilt (g : PGroup) (s : Nat) (units : Nat → List Byte) : List Byte :=
  let ds := g.dataUnits s units
  match g.share g.slot.toNat s with
  | some j => gfParity j ds
  | none => match ds.find? (·.1 = g.dataPos g.slot.toNat s) with | some d => d.2 | none => zeroUnit

/-- The stripe that this member rebuilds next (R325). -/
def PGroup.nextStripe (g : PGroup) : Nat := g.aliveBelow g.self + g.ndone.toNat * g.aliveBelow g.n

/-- The members whose units a stripe's rebuild reads: the holders of the surviving data units, and of one surviving share for each lost one
(R324). -/
def PGroup.needed (g : PGroup) (s : Nat) : List Nat :=
  let hs := (List.range (g.n - g.m)).map (g.dataHolder s)
  let shares := ((List.range g.m).map (g.shareHolder s)).filter g.alive
  hs.filter g.alive ++ shares.take (hs.filter fun i => !g.alive i).length

/-- A unit rebuilt by this member is at NEWEP, or has failed (R325). -/
def PGroup.unitDone (g : PGroup) (ok : Bool) : PGroup :=
  if !g.busy then g
  else
    let g := { g with got := [], writing := false }
    if !ok then { g with fail := true, busy := false, done := false }
    else
      let n := g.ndone + 1#32
      if g.myStripes ≤ n.toNat then { g with ndone := n, done := true, busy := false } else { g with ndone := n }

/-- Who makes the accesses of a rebuild: this member's copy engine, under the group's context. -/
def PGroup.who (g : PGroup) : Who := ⟨0, g.ctxid.toNat, .s, 0#64, 2, 0⟩

/-- The VA of a stripe's units. -/
def PGroup.unitVa (g : PGroup) (stripe : Nat) : Nat := (g.gbase.toNat + 4096 * stripe) % 2 ^ 44

/-- The reads of one member's unit: 16 of the copy engine, or its own unit's at once (R325). -/
def State.askUnit (gi stripe : Nat) (s : State) (member : Nat) : State :=
  match s.group gi with
  | none => s
  | some g =>
    if !g.busy then s
    else if member = g.self then
      match s.unitRead g.ctxid.toNat gi (g.unitVa stripe) 4096 with
      | .ok (bs, s) => s.setGroup gi { g with got := g.got ++ (List.range 16).map fun k => (member, k, slice bs (256 * k) 256) }
      | .error _ => s.setGroup gi (g.unitDone false)
    else
      (List.range 16).foldl (fun s k =>
        (s.sendReq g.who 0x10 (g.member[member]?.getD 0#19) 255#16 (BitVec.ofNat 64 (g.unitVa stripe + 256 * k)) []
          (.rebuildRead gi stripe member k) 0#8).1) s

/-- The unit that a member's pieces make. -/
def PGroup.unitOf (g : PGroup) (member : Nat) : List Byte :=
  (List.range 16).flatMap fun k =>
    match g.got.find? fun x => x.1 = member && x.2.1 = k with
    | some x => x.2.2
    | none => List.replicate 256 0#8

/-- The rebuilt unit goes to NEWEP at the same VA, in 16 writes of the copy engine (R325). -/
def State.writeUnit (s : State) (gi : Nat) (g : PGroup) (stripe : Nat) (unit : List Byte) : State :=
  (List.range 16).foldl (fun s k =>
    (s.sendReq g.who 0x12 g.newep 255#16 (BitVec.ofNat 64 (g.unitVa stripe + 256 * k)) (slice unit (256 * k) 256)
      (.rebuild gi stripe) 0#8).1) s

/-- Whether a request of a group's rebuild has no answer yet. -/
def State.rebuildOut (s : State) (gi : Nat) : Bool :=
  s.fab.open.any fun o => match o.purpose with | .rebuildRead g _ _ _ => g = gi | .rebuild g _ => g = gi | _ => false

/-- What a group's rebuild does next (R325): it asks for the units of its next stripe; once it has them, it solves and writes the lost one. -/
def State.rebuildStep (s : State) (gi : Nat) : State :=
  match s.group gi with
  | none => s
  | some g =>
    if !g.busy || g.writing || s.rebuildOut gi then s
    else
      let k := g.nextStripe
      let ms := g.needed k
      if g.got.isEmpty then ms.foldl (State.askUnit gi k) s
      else if ms.all fun i => 16 ≤ (g.got.filter fun x => x.1 = i).length then
        (s.setGroup gi { g with writing := true }).writeUnit gi g k (g.rebuilt k g.unitOf)
      else s

/-- Every rebuild of this member goes on. -/
def State.rebuildAll (s : State) : State := s.groups.foldl (fun s g => if g.2.busy then s.rebuildStep g.1 else s) s

end Sys2Proof.Machine
end

