-- ==== Sys2Proof/Machine/Operands.lean ====
section
/-! DEFINITION. Vector operands: elements of rows (R232, R236), relayout (R243), the tag update of a destination (R237),
masks and lent predicates (R246, R408), replicated operands (R414), and what an instruction captured at post (R202). -/

namespace Sys2Proof.Machine

/-! ### Rows -/

/-- Element `e` of `b` bits of a row (R232). -/
def rowGet (r : Row) (b e : Nat) : Nat := (r.extractLsb' (e * b) b).toNat

/-- A row with element `e` of `b` bits replaced. -/
def rowPut (r : Row) (b e v : Nat) : Row :=
  (r &&& ~~~((BitVec.allOnes b).setWidth 8192 <<< (e * b))) ||| ((BitVec.ofNat b v).setWidth 8192 <<< (e * b))

/-- A row with each of its first `n` elements replaced by a function of its index and old value. -/
def mapRow (b : Nat) (g : Nat → Nat → Nat) : Nat → Row → Row
  | 0, r => r
  | n + 1, r => rowPut (mapRow b g n r) b n (g n (rowGet r b n))

/-- The first `n` bits of a row; the rest zero. -/
def rowKeep (r : Row) (n : Nat) : Row := r &&& (BitVec.allOnes n).setWidth 8192

/-! ### Vector registers -/

/-- A register that holds no rows (R146). -/
def emptyVReg : VReg := VReg.none

/-- Row `k` of a register. -/
def VReg.row (r : VReg) (k : Nat) : Row := r.rows[k]?.getD 0#8192

/-- Element (k, e) at `b` bits: zero when the register is not VALID, or at or above LEN or ROWS (R236). -/
def VReg.elem (r : VReg) (b k e : Nat) : Nat :=
  if r.valid && decide (e < r.len) && decide (k < r.nrows) then rowGet (r.row k) b e else 0

/-- The relayout of R243 to a type and lane map. -/
def VReg.relaid (r : VReg) (et : ETCode) (l : BitVec 4) : VReg :=
  if r.valid && (r.et != et || r.lmap != l) then
    let len := min ((r.len * etBits r.et + etBits et - 1) / etBits et) (vlmaxOf (groupCount l) et)
    { r with et := et, lmap := l, len := len, rows := r.rows.map fun row => rowKeep row (len * etBits et) }
  else r

/-- The destination as R237 leaves it before its elements are written: relaid unless the write covers it, and the tag
updated. -/
def VReg.dest (r : VReg) (et : ETCode) (l : BitVec 4) (vl vrows : Nat) (covers : Bool) : VReg :=
  let r := if r.valid then r else emptyVReg
  if covers && decide (r.len ≤ vl) && decide (r.nrows ≤ vrows) then
    { valid := true, et := et, lmap := l, len := vl, nrows := vrows,
      rows := Vector.ofFn fun (k : Fin 16) => if k.val < r.nrows then rowKeep r.rows[k] (min (r.len * etBits r.et) (vl * etBits et)) else 0#8192 }
  else
    let r1 := r.relaid et l
    { valid := true, et := et, lmap := l, len := max r1.len vl, nrows := max r1.nrows vrows,
      rows := Vector.ofFn fun (k : Fin 16) => if k.val < r1.nrows then rowKeep r1.rows[k] (r1.len * etBits et) else 0#8192 }

/-- Write the elements of `vrows` rows that a function names: `some v` writes v. -/
def VReg.write (r : VReg) (b vl vrows : Nat) (f : Nat → Nat → Option Nat) : VReg :=
  { r with rows := Vector.ofFn fun (k : Fin 16) =>
      if k.val < vrows then mapRow b (fun e old => (f k.val e).getD old) vl r.rows[k] else r.rows[k] }

/-- Physical rows a register holds in each lane group of its map (R238). -/
def VReg.rowsHeld (r : VReg) : Nat := if r.valid then r.nrows else 0

/-- The release of tail rows (R241). -/
def VReg.releaseTail (r : VReg) (thr vl : Nat) : VReg :=
  if r.valid then
    let nr := min r.nrows thr
    let len := min r.len vl
    if nr = 0 then emptyVReg
    else { r with nrows := nr, len := len, rows := Vector.ofFn fun (k : Fin 16) =>
             if k.val < nr then rowKeep r.rows[k] (len * etBits r.et) else 0#8192 }
  else r

/-! ### Fibre registers -/

/-- A fibre of occupancy 0 that holds no rows (R146). -/
def emptyFReg : FReg := FReg.none

/-- FMAX for a value type and a lane map (R248). -/
def fmaxOf (et : ETCode) (l : BitVec 4) : Nat := if etBits et = 64 then 32 * groupCount l else 64 * groupCount l

/-- Coordinate of entry `i`; 0 at or above OCC (R248). -/
def FReg.coord (f : FReg) (i : Nat) : Nat := if i < f.occ then rowGet f.coords 32 i else 0

/-- Value pattern of entry `i`; 0 at or above OCC (R248). -/
def FReg.val (f : FReg) (i : Nat) : Nat := if i < f.occ then rowGet f.vals (etBits f.et) i else 0

/-- The entries of a fibre. -/
def FReg.entries (f : FReg) : List (Nat × Nat) := (List.range f.occ).map fun i => (f.coord i, f.val i)

/-- A fibre of given entries. -/
def fregOf (et : ETCode) (l : BitVec 4) (es : List (Nat × Nat)) : FReg :=
  { valid := true, et := et, lmap := l, occ := es.length,
    coords := es.zipIdx.foldl (fun r x => rowPut r 32 x.2 x.1.1) 0#8192,
    vals := es.zipIdx.foldl (fun r x => rowPut r (etBits et) x.2 x.1.2) 0#8192 }

/-- The relayout of a fibre to a lane map; whether entries were discarded (R249). -/
def FReg.relaid (f : FReg) (l : BitVec 4) : FReg × Bool :=
  if f.valid && f.lmap != l then
    let mx := fmaxOf f.et l
    if mx < f.occ then (fregOf f.et l (f.entries.take mx), true) else ({ f with lmap := l }, false)
  else (f, false)

/-! ### What an instruction captured -/

/-- VL, VROWS, element type, lane map and VSEG as captured (R202), with the governing mask of the entry. -/
structure Cap where
  vl : Nat
  vrows : Nat
  et : ETCode
  lmap : BitVec 4
  vseg : BitVec 4
  m : MNum
  neg : Bool
  deriving DecidableEq, Repr

/-- Fields of a prefix word (R405). -/
def pfxPm (p : IWord) : BitVec 3 := p.extractLsb' 23 3
/-- pn of R405. -/
def pfxPn (p : IWord) : Bool := p.getLsbD 22
/-- dc of R405. -/
def pfxDc (p : IWord) : Bool := p.getLsbD 21
/-- vc of R405. -/
def pfxVc (p : IWord) : VNum := p.extractLsb' 16 5
/-- ge of R405. -/
def pfxGe (p : IWord) : Bool := p.getLsbD 15
/-- gf of R405. -/
def pfxGf (p : IWord) : Nat := (p.extractLsb' 12 3).toNat
/-- te of R405. -/
def pfxTe (p : IWord) : Bool := p.getLsbD 11
/-- tf of R405. -/
def pfxTf (p : IWord) : Nat := (p.extractLsb' 8 3).toNat
/-- Whether a prefix lends a predicate (R405). -/
def pfxLent (p : IWord) : Bool := pfxPm p != 0#3 || pfxPn p

/-- What a queue entry captured, with its governing mask: the lent predicate of its prefix, or its own m (R408). -/
def QEntry.cap (e : QEntry) : Cap :=
  let base : Cap := { vl := e.vl, vrows := e.vrows, et := vtEt e.vtype, lmap := vtGroups e.vtype, vseg := e.vseg,
                      m := e.post.m, neg := false }
  match e.pfx with
  | some p => if pfxLent p then { base with m := pfxPm p, neg := pfxPn p } else base
  | none => base

/-- The copy register of an entry (R409). -/
def QEntry.copy (e : QEntry) : Option VNum :=
  match e.pfx with
  | some p => if pfxDc p then some (pfxVc p) else none
  | none => none

/-- Bits of the captured element type. -/
def Cap.bits (c : Cap) : Nat := etBits c.et

/-- The number of tile indices (R231). -/
def Cap.tiles (c : Cap) : Nat := c.vl * c.vrows

/-- Bit e of row k of a mask (R246). -/
def MReg.bit (m : MReg) (k e : Nat) : Bool := (m[k]?.getD 0#2048).getLsbD e

/-- Whether element (k, e) is active under the governing mask (R408, R418). -/
def Cap.active (c : Cap) (h : Hart) (k e : Nat) : Bool := (h.mask c.m).bit k e != c.neg

/-- Whether every element is governed active: no mask and no predicate. -/
def Cap.unmasked (c : Cap) : Bool := c.m == 0#3 && !c.neg

/-- A register with element (k, e) of `b` bits replaced. -/
def VReg.setElem (r : VReg) (b k e v : Nat) : VReg :=
  if h : k < 16 then { r with rows := r.rows.set k (rowPut r.rows[k] b e v) h } else r

/-- Whether tile index t = k * VL + e lies in the part of the instruction that runs. -/
def Cap.inPart (c : Cap) (lo hi k e : Nat) : Bool := decide (lo ≤ k * c.vl + e) && decide (k * c.vl + e < hi)

/-- The column that a replicated vb supplies (R414). -/
def repIndex (rp : BitVec 2) (e : Nat) : Nat :=
  if rp = 0#2 then e else if rp = 1#2 then 0 else if rp = 2#2 then e % 16 else e % 64

/-- Read a register at the captured type: relaid where it differs (R243). -/
def Hart.readAs (h : Hart) (n : VNum) (et : ETCode) (l : BitVec 4) : VReg := (h.vreg n).relaid et l

/-- The register file after the relayouts that reading some registers makes (R243). -/
def Hart.relayAll (h : Hart) (et : ETCode) (l : BitVec 4) (ns : List VNum) : Hart :=
  ns.foldl (fun h n => h.setVreg n (h.readAs n et l)) h

/-- Write elements of vd, and of vc under a destination copy, with the same values (R237, R409). -/
def Hart.writeVec (h : Hart) (vd : VNum) (vc : Option VNum) (et : ETCode) (c : Cap) (covers : Bool)
    (f : Nat → Nat → Option Nat) : Hart :=
  let put (h : Hart) (n : VNum) : Hart :=
    h.setVreg n (((h.vreg n).dest et c.lmap c.vl c.vrows covers).write (etBits et) c.vl c.vrows f)
  match vc with
  | none => put h vd
  | some n => put (put h vd) n

/-- Progress index of a destination (R211). -/
def Hart.setVpi (h : Hart) (n : VNum) (t : Nat) : Hart := { h with vpi := h.vpi.set n.toNat (BitVec.ofNat 16 t) n.isLt }

/-- Progress indices of vd and vc. -/
def Hart.setVpis (h : Hart) (vd : VNum) (vc : Option VNum) (t : Nat) : Hart :=
  match vc with
  | none => h.setVpi vd t
  | some n => (h.setVpi vd t).setVpi n t

/-! ### Segments (VSEG) -/

/-- Whether a new segment begins at element e > 0 of row k: bit e of VSEG's mask, when enabled (R253). -/
def Cap.segStart (c : Cap) (h : Hart) (k e : Nat) : Bool :=
  c.vseg.getLsbD 3 && (h.mask (c.vseg.extractLsb' 0 3)).bit k e

end Sys2Proof.Machine
end

