-- ==== Sys2Proof/Machine/Flags.lean ====
section
/-! DEFINITION. FCSR flags (R256, R274), rounding modes (R273), and the control registers as they read and take writes
(R253 to R261, R464). -/

namespace Sys2Proof.Machine

/-- raise(fl) of R418: FCSR[8:4] takes the flags. -/
def Hart.raise (h : Hart) (fl : Flags) : Hart := { h with fcsr := h.fcsr ||| (fl ++ 0#4) }

/-- FCSR.RM (R256). -/
def Hart.rm (h : Hart) : BitVec 3 := h.fcsr.extractLsb' 0 3

/-- FCSR.SAT (R256). -/
def Hart.sat (h : Hart) : Bool := h.fcsr.getLsbD 3

/-- rmode(f) of R418: the encoded mode, or FCSR.RM for 7; none where it traps ILL (R273). -/
def rmode (f rm : BitVec 3) : Option RMode := if f = 7#3 then rmodeOf rm.toNat else rmodeOf f.toNat

/-- MSTAT.EN (R259). -/
def Hart.matrixOn (h : Hart) : Bool := h.mstat.getLsbD 0

/-- Whether a control-register number is in a range. -/
def crIn (n lo hi : Nat) : Bool := decide (lo ≤ n) && decide (n ≤ hi)

/-- Whether a control register is reached at S and E only (R253). -/
def crPriv (n : Nat) : Bool := n = 0x008 || (crIn n 0x100 0x108 && n ≠ 0x104)

/-- Whether a control register is read-only at S (R253). -/
def crRo (n : Nat) : Bool :=
  crIn n 0x010 0x012 || n = 0x019 || crIn n 0x020 0x03F || n = 0x108 || crIn n 0xC00 0xC0B

/-- Whether an access waits for the queues to empty (R255). -/
def crWaits (n : Nat) : Bool := n = 0x001 || n = 0x002 || n = 0x104 || crIn n 0x015 0x018

/-- A control register as it reads (R253). GTIME moves on by a free step before it is read (R86). -/
def State.crRead (s : State) (n : Nat) : Word :=
  let h := s.h
  match n with
  | 0x001 => h.fcsr.setWidth 64
  | 0x002 => if h.gatef then 1#64 else 0#64
  | 0x008 => (0#31 ++ (if h.pfxValid then 1#1 else 0#1) ++ h.pfx : BitVec 64)
  | 0x010 => BitVec.ofNat 64 h.vl
  | 0x011 => BitVec.ofNat 64 h.vrows
  | 0x012 => h.vtype.setWidth 64
  | 0x013 => h.vstart.setWidth 64
  | 0x014 => h.vseg.setWidth 64
  | 0x015 => if s.feat 7 then h.cmpthr.setWidth 64 else 0#64
  | 0x016 => h.vnota
  | 0x017 => h.cprow.setWidth 64
  | 0x018 => if s.feat 3 then h.mvl.setWidth 64 else 0#64
  | 0x019 => if s.feat 3 then h.mstat.setWidth 64 else 0#64
  | 0x040 => h.lc0
  | 0x041 => h.ls0
  | 0x042 => h.le0
  | 0x043 => h.lc1
  | 0x044 => h.ls1
  | 0x045 => h.le1
  | 0x100 => h.epc
  | 0x101 => h.ecause.setWidth 64
  | 0x102 => h.etval
  | 0x103 => h.etvec
  | 0x104 => ((if s.feat 2 then h.estatus else h.estatus &&& 3#3).setWidth 64)
  | 0x105 => h.emuf
  | 0x106 => h.eqbase
  | 0x107 => h.eqhead.setWidth 64
  | 0x108 => h.eqtail.setWidth 64
  | 0xC00 => BitVec.ofNat 64 (s.hartId s.cur)
  | 0xC01 => h.ctxid.setWidth 64
  | 0xC02 => h.gangid.setWidth 64
  | 0xC03 => h.grank.setWidth 64
  | 0xC04 => BitVec.ofNat 64 s.gtimeNs
  | 0xC05 => s.clock.hbeat
  | 0xC06 => s.fab.epid.setWidth 64
  | 0xC08 => (s.host.accept[0]).setWidth 64
  | 0xC09 => (s.host.accept[1]).setWidth 64
  | 0xC0A => (s.host.accept[2]).setWidth 64
  | 0xC0B => (s.host.accept[3]).setWidth 64
  | _ => if h' : 0x020 ≤ n ∧ n ≤ 0x03F then (h.vpi[n - 0x020]'(by omega)).setWidth 64 else 0#64

/-- An MVL field above 128 stores 128 (R259). -/
def mvlField (v : BitVec 8) : BitVec 8 := if 128 < v.toNat then 128#8 else v

/-- A control register with its writable fields written (R253, R464); RO and zero fields keep their values. -/
def State.crWrite (s : State) (n : Nat) (v : Word) : State :=
  match n with
  | 0x001 => s.mod fun h => { h with fcsr := v.setWidth 9 }
  | 0x002 => s.mod fun h => { h with gatef := v.getLsbD 0 }
  | 0x008 => s.mod fun h => { h with pfx := v.setWidth 32, pfxValid := v.getLsbD 32 }
  | 0x013 => s.mod fun h => { h with vstart := v.setWidth 32 }
  | 0x014 => s.mod fun h => { h with vseg := v.setWidth 4 }
  | 0x015 => if s.feat 7 then s.mod fun h => { h with cmpthr := v.setWidth 12 } else s
  | 0x016 => s.mod fun h => { h with vnota := v.extractLsb' 3 61 ++ 0#3, ncnt := 0#64 }
  | 0x017 => s.mod fun h => { h with cprow := v.setWidth 32 }
  | 0x018 =>
    if s.feat 3 then
      s.mod fun h => { h with mvl := mvlField (v.extractLsb' 8 8) ++ mvlField (v.extractLsb' 0 8) }
    else s
  | 0x040 => s.mod fun h => { h with lc0 := v }
  | 0x041 => s.mod fun h => { h with ls0 := v }
  | 0x042 => s.mod fun h => { h with le0 := v }
  | 0x043 => s.mod fun h => { h with lc1 := v }
  | 0x044 => s.mod fun h => { h with ls1 := v }
  | 0x045 => s.mod fun h => { h with le1 := v }
  | 0x100 => s.mod fun h => { h with epc := v }
  | 0x101 => s.mod fun h => { h with ecause := v.setWidth 8 }
  | 0x102 => s.mod fun h => { h with etval := v }
  | 0x103 => s.mod fun h => { h with etvec := v.extractLsb' 8 56 ++ 0#8 }
  | 0x104 =>
    s.mod fun h => { h with estatus :=
      (if s.feat 2 then v.extractLsb' 2 1 else h.estatus.extractLsb' 2 1) ++
      (if h.level = .u then h.estatus.extractLsb' 0 2 else v.extractLsb' 0 2) }
  | 0x105 => s.mod fun h => { h with emuf := v.extractLsb' 6 58 ++ 0#6 }
  | 0x106 => s.mod fun h => { h with eqbase := v.extractLsb' 12 52 ++ 0#7 ++ v.extractLsb' 0 5 }
  | 0x107 => s.mod fun h => { h with eqhead := v.setWidth 32 }
  | _ => s

/-- Whether an access to a control register traps ILL (R254). -/
def crIllegal (n : Nat) (write : Bool) (level : Level) : Bool :=
  !crListed (BitVec.ofNat 12 n) || (level = .u && crPriv n) || (write && crRo n)

end Sys2Proof.Machine
end

