-- ==== Sys2Proof/Machine/ScalarMem.lean ====
section
/-! DEFINITION. Scalar loads and stores (R448 to R451), the store buffer (R450, R639), atomics (R452 to R456), and the
accesses that a scalar instruction makes over the fabric. -/

namespace Sys2Proof.Machine

/-! ### Remote accesses of a scalar instruction -/

/-- The bytes of the parts `k` to `k + n - 1` of a scalar access, when all have come. -/
def ScalarRemote.bytes (r : ScalarRemote) (k : Nat) : Nat → Option (List Byte)
  | 0 => some []
  | n + 1 =>
    match r.parts.find? (·.1 = k) with
    | none => none
    | some p =>
      match r.bytes (k + 1) n with
      | none => none
      | some bs => some (p.2 ++ bs)

/-- Send one request of the scalar path and note that the hart waits for its answer. -/
def State.askScalar (s : State) (ptype : Nat) (va : Nat) (spec16 : BitVec 16) (data : List Byte) (k : Nat) (attr : Byte) : State :=
  let r := s.sendReq s.whoScalar ptype (BitVec.ofNat 19 (va / 2 ^ 44)) spec16 (BitVec.ofNat 64 (va % 2 ^ 44)) data
    (.scalar s.cur k (BitVec.ofNat 64 va)) attr
  r.1.mod fun h => { h with scalarRemote := { h.scalarRemote with tags := h.scalarRemote.tags ++ [r.2] } }

/-- A remote load's parts, one per aligned 256-byte block (R68, R448). -/
def blockParts (va n : Nat) : List (Nat × Nat) := pieces 256 3 va n

/-- A remote load of a scalar instruction: its data once every part has been answered; the trap of a part that failed (R72);
else the requests go out and the hart waits (R451). -/
def State.remoteLoad (s : State) (iw : IWord) (k va n : Nat) : Except State (List Byte) :=
  let ps := blockParts va n
  match s.h.scalarRemote.fault with
  | some t => .error (s.takeTrap t s.h.pc)
  | none =>
    match s.h.scalarRemote.bytes k ps.length with
    | some bs => .ok bs
    | none =>
      let s := ps.zipIdx.foldl (fun s p => s.askScalar 0x01 p.1.1 (BitVec.ofNat 16 (p.1.2 - 1)) [] (k + p.2) 0#8) s
      .error (s.wait .remote iw)

/-- A scalar instruction's remote accesses are over. -/
def State.endRemote (s : State) : State := s.mod fun h => { h with scalarRemote := ⟨[], [], none⟩ }

/-- The stores of a hart that are still in its buffer and touch some bytes (R450). -/
def Hart.buffered (h : Hart) (va n : Nat) : Bool :=
  h.stbuf.any fun b => decide (b.va.toNat < va + n) && decide (va < b.va.toNat + b.size)

/-! ### Accesses of one hart to the same bytes (R333) -/

/-- The place of an address: a fabric address of the device itself names the same bytes as its offset (R294). -/
def State.placeOf (s : State) (va : Nat) : Nat :=
  if 2 ^ 63 ≤ va && BitVec.ofNat 19 (va / 2 ^ 44) == s.fab.epid then va % 2 ^ 44 else va

/-- Whether two runs of bytes have one in common. -/
def State.overlap (s : State) (a n b m : Nat) : Bool :=
  decide (s.placeOf a < s.placeOf b + m) && decide (s.placeOf b < s.placeOf a + n)

/-- The bytes within which a vector memory instruction stays, first and length; none where its index register decides. -/
def QEntry.reach (e : QEntry) : Option (Nat × Nat) :=
  let n := e.vl * e.vrows
  let a := e.opa.toNat
  match e.post.body with
  | .load .unit mw _ _ | .store .unit mw _ _ => some (a, n * 2 ^ mw.toNat)
  | .load .strided mw _ _ | .store .strided mw _ _ =>
    let span := (n - 1) * e.opb.toInt.natAbs
    some (if e.opb.toInt < 0 then a - span else a, span + 2 ^ mw.toNat)
  | .vlm | .vsm => some (a, 256 * e.vrows)
  | _ => none

/-- Whether an instruction of the lane groups writes memory. -/
def Body.writesMem : Body → Bool
  | .store _ _ _ _ | .vsm | .capp | .amo _ => true
  | _ => false

/-- Whether an instruction of the lane groups reads or writes memory under R333. -/
def Body.usesMem : Body → Bool
  | .load _ _ _ _ | .vlm => true
  | b => b.writesMem

/-- Whether an entry may access some bytes. -/
def State.mayTouch (s : State) (e : QEntry) (va n : Nat) : Bool :=
  match e.reach with
  | some (a, m) => s.overlap a m va n
  | none => true

/-- Whether a store of a hart has still to perform on some bytes: one that waits in a lane group's queue, or a remote one of another
flow than `flow` that has no answer (R70, R333). -/
def State.storeAhead (s : State) (i : Fin 4) (flow : BitVec 16) (va n : Nat) : Bool :=
  (s.harts[i].late.any fun b => b.chunk.isNone && s.overlap b.va.toNat b.bytes.length va n) ||
  s.fab.open.any fun o => o.flow != flow &&
    match o.purpose with
    | .store h a m => h == i && s.overlap a.toNat m va n
    | _ => false

/-- Whether a scalar access of a hart waits for its earlier accesses: to the same bytes (R333), where stores have still to perform, or
instructions of its vector queue, for a load only those that store; and for a sequentially consistent one wherever it is (R342). -/
def State.sameBytes (s : State) (write : Bool) (va n : Nat) : Bool :=
  s.storeAhead s.cur (flowOf s s.whoScalar) va n ||
  (!s.h.held && s.h.queue.any fun e => e.post.body.isSc || (if write then e.post.body.usesMem else e.post.body.writesMem) && s.mayTouch e va n)

/-- Send a remote store (R448, R68). -/
def State.sendStore (s : State) (w : Who) (va : Nat) (bs : List Byte) : State :=
  (blockParts va bs.length).foldl (fun s p =>
    (s.sendReq w 0x03 (BitVec.ofNat 19 (p.1 / 2 ^ 44)) (BitVec.ofNat 16 (p.2 - 1)) (BitVec.ofNat 64 (p.1 % 2 ^ 44))
      ((bs.drop (p.1 - va)).take p.2) (.store w.h (BitVec.ofNat 64 p.1) p.2) 0#8).1) s

/-- A load for a scalar instruction at a level: its bytes, or the state in which the instruction traps or waits. -/
def State.scalarLoad (s : State) (iw : IWord) (lvl : Level) (k va n : Nat) (path : AccPath := .scalar) :
    Except State (List Byte × State) :=
  if s.h.buffered va n || s.sameBytes false va n then .error (s.wait .retry iw)
  else
    match s.load { s.whoScalar with level := lvl } va n path with
    | .ok bs s => .ok (bs, s)
    | .trap t => .error (s.takeTrap t s.h.pc)
    | .busy => .error (s.wait .retry iw)
    | .fifo b => .error ((s.joinFifo s.cur b false).wait .fifo iw)
    | .fabric _ _ =>
      match s.remoteLoad iw k va n with
      | .ok bs => .ok (bs, s)
      | .error s => .error s

/-- The mode of the bank of a scratchpad address on the core's die (R295). -/
def State.bankMode (s : State) (va : Nat) : Option BankMode :=
  if spadBase ≤ va && va < spadBase + 2 ^ 25 then (s.bank s.die ((va - spadBase) / 2 ^ 18)).map (·.cur) else none

/-- Put a store into the buffer, where it waits behind others or for its bank (R450). -/
def State.bufferStore (s : State) (lvl : Level) (va : Nat) (bs : List Byte) : State :=
  s.mod fun h => { h with stbuf := h.stbuf ++ [⟨BitVec.ofNat 64 va, bs.length, BitVec.ofNat 64 (leNat bs), h.pc, lvl, s.bankMode va⟩] }

/-- A store for a scalar instruction at a level (R448, R450): it performs, goes into the buffer, or is sent; else the state in
which the instruction traps or waits. A bank that changes its mode takes it into the buffer only when it is checked as scratchpad
(R310, R639). -/
def State.scalarStore (s : State) (iw : IWord) (lvl : Level) (va : Nat) (bs : List Byte) (path : AccPath := .scalar) :
    Except State State :=
  let w : Who := { s.whoScalar with level := lvl }
  let whenBusy (s : State) : Except State State :=
    if s.bankMode va == some .spad && s.h.stbuf.length < 8 then .ok (s.bufferStore lvl va bs) else .error (s.wait .retry iw)
  if s.sameBytes true va bs.length then .error (s.wait .retry iw)
  else if s.eager && s.h.stbuf.isEmpty then
    match s.store w va bs path with
    | .ok _ s => .ok s
    | .trap t => .error (s.takeTrap t s.h.pc)
    | .fabric _ _ => .ok (s.sendStore w va bs)
    | .busy => whenBusy s
    | .fifo b => .error ((s.joinFifo s.cur b true).wait .fifo iw)
  else if 8 ≤ s.h.stbuf.length then .error (s.wait .retry iw)
  else
    match s.locateAll w .store path bs.length (if 2 ^ 63 ≤ va then [(va, bs.length)] else pagePieces va bs.length) with
    | .error t => .error (s.takeTrap t s.h.pc)
    | .ok (ls, s) =>
      match ls with
      | [(.fifo d b, _, _)] =>
        if s.h.stbuf.isEmpty then
          (match s.store w va bs path with
          | .ok _ s => .ok s
          | _ => .error ((s.joinFifo s.cur (d * 128 + b) true).wait .fifo iw))
        else .error (s.wait .retry iw)
      | _ => if ls.any (fun l => l.1.isBusy) then whenBusy s else .ok (s.bufferStore lvl va bs)

/-- The oldest buffered stores of a hart perform, in program order, until one must wait (R332, R450). A store whose bank is no longer in
the mode it was checked against, or that no longer may perform, performs nothing and is reported (R639). -/
def State.drainStores (i : Fin 4) : Nat → State → State
  | 0, s => s
  | n + 1, s =>
    match s.harts[i].stbuf with
    | [] => s
    | b :: rest =>
      let w : Who := ⟨i, s.harts[i].ctxid.toNat, b.level, b.pc, 1, 0⟩
      let bs := natLe b.size b.data.toNat
      let done (s : State) : State := s.modHart i fun h => { h with stbuf := rest }
      let drop : State := State.drainStores i n (done (s.storeError w 1 2 b.va.toNat (b.size - 1) bs))
      match s.store w b.va.toNat bs .scalar with
      | .busy => s
      | .trap _ => drop
      | .fifo _ => drop
      | .fabric _ _ => State.drainStores i n (done (s.sendStore w b.va.toNat bs))
      | .ok _ t => if s.bankMode b.va.toNat == b.mode then State.drainStores i n (done t) else drop

/-! ### `ld` and `st` -/

/-- Bytes of a load's width code: b, h, w, d, bz, hz, wz (R448). -/
def ldBytes (w : BitVec 3) : Nat := 2 ^ (w.toNat % 4)

/-- The register value of a load: sign-extended for b, h and w, zero-extended for bz, hz and wz (R448). -/
def ldValue (w : BitVec 3) (bs : List Byte) : Word :=
  let v := leNat bs
  if w.toNat < 3 then BitVec.ofInt 64 (sval (8 * ldBytes w) v) else BitVec.ofNat 64 v

/-- The address of a load or store (R448). -/
def State.memVa (s : State) (b : XNum) (o : BitVec 13) : Word := s.x b + o.signExtend 64

/-- `ld` (R448, R449, R451). -/
def execLd (d b : BitVec 5) (w : BitVec 3) (o : BitVec 13) (s : State) : Result :=
  scalarInstr (wLd d b w o) [b] s fun s =>
    match s.scalarLoad (wLd d b w o) s.h.level 0 (s.memVa b o).toNat (ldBytes w) with
    | .error s => s
    | .ok (bs, s) => (s.endRemote.setX d (ldValue w bs)).retire

/-- `st` (R448 to R450). -/
def execSt (r b : BitVec 5) (w : BitVec 2) (o : BitVec 13) (s : State) : Result :=
  scalarInstr (wSt r b w o) [r, b] s fun s =>
    match s.scalarStore (wSt r b w o) s.h.level (s.memVa b o).toNat (natLe (2 ^ w.toNat) (s.x r).toNat) with
    | .error s => s
    | .ok s => s.retire

/-! ### Atomics -/

/-- The scope at which an atomic acts: `lg` acts at `hart` (R335). -/
def atomicScope (c : BitVec 3) : Nat := if c.toNat = 0 then 1 else c.toNat

/-- The code of an atomic operation (R453). -/
def amoCode : AmoOp → Nat
  | .add => 0 | .and => 1 | .or => 2 | .xor => 3 | .min => 4 | .max => 5 | .minu => 6 | .maxu => 7 | .swap => 8
  | .cas => 9 | .fadd => 10

/-- The value that an atomic returns (R454). -/
def amoResult (op : AmoOp) (n old : Nat) : Word :=
  if n = 8 || op = .fadd then BitVec.ofNat 64 old else BitVec.ofInt 64 (sval 32 old)

/-- SPEC16 of an AMOREQ (R63). -/
def amoSpec (op : AmoOp) (z q l : BitVec 1) (c : BitVec 3) : BitVec 16 :=
  BitVec.ofNat 16 (amoCode op + 32 * z.toNat + 64 * q.toNat + 128 * l.toNat + 256 * c.toNat)

/-- ATTR of an error-queue entry for an atomic (R372). -/
def amoAttr (q l : BitVec 1) (c : BitVec 3) : Byte := BitVec.ofNat 8 (c.toNat + 8 * q.toNat + 16 * l.toNat)

/-- The end of an atomic: its register, and the acquire effect (R339, R454). -/
def State.amoDone (s : State) (d : XNum) (v : Word) (q : BitVec 1) (c : BitVec 3) : State :=
  let s := s.endRemote.setX d v
  (if q = 1#1 then s.fenceEffect (atomicScope c) else s).retire

/-- An AMO (R454): ALIGN first, then the wait of a release (R339), then one indivisible read and write, at the home for a
fabric address. -/
def amoStep (op : AmoOp) (iw : IWord) (d a b : XNum) (z q l : BitVec 1) (c : BitVec 3) (s : State) : Result :=
  scalarInstr iw (if op = .cas then [a, b, d] else [a, b]) s fun s =>
    let n := if z = 1#1 then 8 else 4
    let va := (s.x a).toNat
    let opnd := (s.x b).toNat % 2 ^ (8 * n)
    let cmp := (s.x d).toNat % 2 ^ (8 * n)
    if va % n ≠ 0 then s.trapHere cALIGN (BitVec.ofNat 64 va)
    else if l = 1#1 && !s.performed s.cur (atomicScope c) then s.wait .retry iw
    else if !s.h.stbuf.isEmpty || s.sameBytes true va n then s.wait .retry iw
    else
      match s.atomicAt s.whoScalar va n (fun old => amoNew op n old opnd cmp) with
      | .ok old s => s.amoDone d (amoResult op n old) q c
      | .trap t => s.takeTrap t s.h.pc
      | .busy => s.wait .retry iw
      | .fifo _ => s.wait .retry iw
      | .fabric _ _ =>
        match s.h.scalarRemote.fault, s.h.scalarRemote.bytes 0 1 with
        | some t, _ => s.takeTrap t s.h.pc
        | none, some bs => s.amoDone d (amoResult op n (leNat (bs.take n))) q c
        | none, none =>
          (s.askScalar 0x05 va (amoSpec op z q l c) (natLe 8 opnd ++ natLe 8 (if op = .cas then cmp else 0)) 0
            (amoAttr q l c)).wait .remote iw

/-- `amoadd` (R453, R454). -/
def execAmoadd (d a b : BitVec 5) (z q l : BitVec 1) (c : BitVec 3) (s : State) : Result :=
  amoStep .add (wAmoadd d a b z q l c) d a b z q l c s

/-- `amoand` (R453, R454). -/
def execAmoand (d a b : BitVec 5) (z q l : BitVec 1) (c : BitVec 3) (s : State) : Result :=
  amoStep .and (wAmoand d a b z q l c) d a b z q l c s

/-- `amoor` (R453, R454). -/
def execAmoor (d a b : BitVec 5) (z q l : BitVec 1) (c : BitVec 3) (s : State) : Result :=
  amoStep .or (wAmoor d a b z q l c) d a b z q l c s

/-- `amoxor` (R453, R454). -/
def execAmoxor (d a b : BitVec 5) (z q l : BitVec 1) (c : BitVec 3) (s : State) : Result :=
  amoStep .xor (wAmoxor d a b z q l c) d a b z q l c s

/-- `amomin` (R453, R454: signed). -/
def execAmomin (d a b : BitVec 5) (z q l : BitVec 1) (c : BitVec 3) (s : State) : Result :=
  amoStep .min (wAmomin d a b z q l c) d a b z q l c s

/-- `amomax` (R453, R454: signed). -/
def execAmomax (d a b : BitVec 5) (z q l : BitVec 1) (c : BitVec 3) (s : State) : Result :=
  amoStep .max (wAmomax d a b z q l c) d a b z q l c s

/-- `amominu` (R453, R454: unsigned). -/
def execAmominu (d a b : BitVec 5) (z q l : BitVec 1) (c : BitVec 3) (s : State) : Result :=
  amoStep .minu (wAmominu d a b z q l c) d a b z q l c s

/-- `amomaxu` (R453, R454: unsigned). -/
def execAmomaxu (d a b : BitVec 5) (z q l : BitVec 1) (c : BitVec 3) (s : State) : Result :=
  amoStep .maxu (wAmomaxu d a b z q l c) d a b z q l c s

/-- `amoswap` (R453, R454). -/
def execAmoswap (d a b : BitVec 5) (z q l : BitVec 1) (c : BitVec 3) (s : State) : Result :=
  amoStep .swap (wAmoswap d a b z q l c) d a b z q l c s

/-- `amocas` (R453, R454: x(rb) when the old value equals the old x(rd); otherwise a load only). -/
def execAmocas (d a b : BitVec 5) (z q l : BitVec 1) (c : BitVec 3) (s : State) : Result :=
  amoStep .cas (wAmocas d a b z q l c) d a b z q l c s

/-- `amofadd` (R453, R454: f32 or f64 under RNE; no flag). -/
def execAmofadd (d a b : BitVec 5) (z q l : BitVec 1) (c : BitVec 3) (s : State) : Result :=
  amoStep .fadd (wAmofadd d a b z q l c) d a b z q l c s

/-- The place of an aligned access of `ldr` or `stc`: its storage key, or the state in which the instruction traps or waits; a
fabric address traps PROT (R341, R455). -/
def State.resvPlace (s : State) (iw : IWord) (kind : AccKind) (va n : Nat) : Except State (Loc × Nat × State) :=
  if va % n ≠ 0 then .error (s.trapHere cALIGN (BitVec.ofNat 64 va))
  else if !s.h.stbuf.isEmpty || s.sameBytes true va n then .error (s.wait .retry iw)
  else
    match s.locate s.whoScalar va n kind .atomic with
    | .error t => .error (s.takeTrap t s.h.pc)
    | .ok (l, s) =>
      match l with
      | .hbm k _ _ _ => .ok (l, k, s)
      | .spad k => .ok (l, k, s)
      | .busy _ _ => .error (s.wait .retry iw)
      | _ => .error (s.trapHere cPROT (BitVec.ofNat 64 va))

/-- `ldr` (R341, R455): a read at the storage point that sets the reservation. -/
def execLdr (d a : BitVec 5) (z : BitVec 1) (s : State) : Result :=
  scalarInstr (wLdr d a z) [a] s fun s =>
    let n := if z = 1#1 then 8 else 4
    let va := (s.x a).toNat
    match s.resvPlace (wLdr d a z) .load va n with
    | .error s => s
    | .ok (l, k, s) =>
      let enc := match l with | .hbm _ e _ _ => e | _ => true
      match s.readKey s.whoScalar enc k n with
      | (none, s) => s.trapHere cECC (BitVec.ofNat 64 va)
      | (some bs, s) =>
        ((s.setX d (BitVec.ofInt 64 (sval (8 * n) (leNat bs)))).mod fun h => { h with resv := some (k / 64) }).retire

/-- `stc` (R341, R455): writes, and answers 0, while the reservation covers the line; otherwise writes nothing and answers 1.
Either way the reservation is gone. -/
def execStc (d a b : BitVec 5) (z : BitVec 1) (s : State) : Result :=
  scalarInstr (wStc d a b z) [a, b] s fun s =>
    let n := if z = 1#1 then 8 else 4
    let va := (s.x a).toNat
    match s.resvPlace (wStc d a b z) .atomic va n with
    | .error s => s
    | .ok (l, k, s) =>
      let held := s.h.resv == some (k / 64)
      let s1 := s.mod fun h => { h with resv := none }
      if held then ((s1.writeLocs s.whoScalar [(l, va, n)] (natLe n (s.x b).toNat)).setX d 0#64).retire
      else (s1.setX d 1#64).retire

end Sys2Proof.Machine
end

