-- ==== Sys2Proof/Machine/Engine.lean ====
section
/-! DEFINITION. What every queue entry shares: its place in the hart's queue, the tokens it takes and gives (R221 to R225), the
wait for completion-mask bits (R220), and reads of memory that may cross the fabric. -/

namespace Sys2Proof.Machine

/-- What running a queue entry came to: it is done; it has run as far as it was let; it waits; or it traps in queue with a
progress index (R363). The entry as it stands comes with the state. -/
inductive Ran where
  | done (s : State) (e : QEntry)
  | part (s : State) (e : QEntry)
  | block (s : State) (e : QEntry)
  | fault (s : State) (e : QEntry) (t : Trap)
  deriving Repr

/-! ### Entries -/

/-- Replace an entry in a hart's queue. -/
def Hart.putEntry (h : Hart) (e : QEntry) : Hart := { h with queue := h.queue.map fun x => if x.eid = e.eid then e else x }

/-- Replace an entry in a hart's queue. -/
def State.putEntry (s : State) (i : Fin 4) (e : QEntry) : State := s.modHart i fun h => h.putEntry e

/-- The entry of a number. -/
def Hart.entry (h : Hart) (eid : Nat) : Option QEntry := h.queue.find? (·.eid = eid)

/-- The engine's number, as ENG of R195. -/
def engineNo : Engine → Nat
  | .vector => 0 | .matrix => 1 | .intersect => 2 | .stream => 3 | .copy => 4

/-- The cap of an engine's queue (R203). -/
def queueCap : Engine → Nat
  | .vector => 64 | .matrix => 32 | _ => 16

/-- Whether a queue has a free entry (R203). -/
def Hart.queueRoom (h : Hart) (eng : Engine) : Bool :=
  decide (h.queue.length < 64) && decide ((h.queue.filter (·.post.eng = eng)).length < queueCap eng)

/-- The head of each engine's queue, oldest first. -/
def Hart.heads (h : Hart) : List QEntry :=
  h.queue.filter fun e => (h.queue.find? (·.post.eng = e.post.eng)).map (·.eid) == some e.eid

/-- Elements an entry covers. -/
def QEntry.total (e : QEntry) : Nat := e.vl * e.vrows

/-- Who makes an entry's accesses: its hart, its context, the level it was posted at, and the flow of its engine. -/
def QEntry.who (e : QEntry) (s : State) (i : Fin 4) (cls lg : Nat) : Who := ⟨i, s.harts[i].ctxid.toNat, e.level, e.pc, cls, lg⟩

/-- The lane groups that a lane map names, lowest first. -/
def lanesOf (l : BitVec 4) : List Nat := [0, 1, 2, 3].filter fun g => l.getLsbD g

/-- The lane group of pass or element group `j`: the k-th held one, with k = j mod g (R206). -/
def laneAt (l : BitVec 4) (j : Nat) : Nat :=
  (lanesOf l).getD (j % (if (lanesOf l).length = 0 then 1 else (lanesOf l).length)) 0

/-- The lane group that processes element e of `b` bits under a lane map (R206). -/
def laneOf (l : BitVec 4) (b e : Nat) : Nat := laneAt l (e * b / 512)

/-! ### Tokens -/

/-- The index of FIFO (p, c) in TOK (R221). -/
def tokIndex (p c : Nat) : Nat := if c < p then 4 * p + c else 4 * p + c - 1

/-- Tokens in a FIFO. -/
def Hart.tokens (h : Hart) (p c : Nat) : Nat := h.tok[tokIndex p c]?.getD 0

/-- Set a FIFO's tokens. -/
def Hart.setTokens (h : Hart) (p c n : Nat) : Hart :=
  if hlt : tokIndex p c < 20 then { h with tok := h.tok.set (tokIndex p c) n hlt } else h

/-- Places reserved in FIFO (p, c): gives of instructions that have begun and not retired (R222). -/
def Hart.reserved (h : Hart) (p c : Nat) : Nat :=
  (h.queue.filter fun e => e.started && decide (engineNo e.post.eng = p) &&
    (match e.pfx with | some w => pfxGe w && decide (pfxGf w = c) | none => false)).length

/-- Whether the take of an entry is satisfied, or was before (R222, R224). -/
def Hart.takeReady (h : Hart) (e : QEntry) : Bool :=
  match e.pfx with
  | some w => !pfxTe w || e.taken || decide (0 < h.tokens (pfxTf w) (engineNo e.post.eng))
  | none => true

/-- Whether the give of an entry finds a place (R222). -/
def Hart.giveReady (h : Hart) (e : QEntry) : Bool :=
  match e.pfx with
  | some w =>
    let p := engineNo e.post.eng
    !pfxGe w || e.started || decide (h.reserved p (pfxGf w) + h.tokens p (pfxGf w) < 15)
  | none => true

/-- An entry begins: it pops its token and reserves its place (R222). -/
def Hart.beginEntry (h : Hart) (e : QEntry) : Hart × QEntry :=
  let takes := match e.pfx with | some w => pfxTe w && !e.taken | none => false
  let e1 := { e with started := true, taken := e.taken || takes }
  let h1 :=
    match e.pfx with
    | some w => if takes then h.setTokens (pfxTf w) (engineNo e.post.eng) (h.tokens (pfxTf w) (engineNo e.post.eng) - 1) else h
    | none => h
  (h1.putEntry e1, e1)

/-- An entry retires: it leaves the queue, pushes its token, and writes its scalar register (R204, R208, R222). -/
def Hart.retireEntry (h : Hart) (e : QEntry) (x : Option Word) : Hart :=
  let h1 := { h with queue := h.queue.filter (·.eid != e.eid) }
  let h2 :=
    match e.pfx with
    | some w =>
      if pfxGe w then h1.setTokens (engineNo e.post.eng) (pfxGf w) (min 15 (h1.tokens (engineNo e.post.eng) (pfxGf w) + 1)) else h1
    | none => h1
  match e.post.xd, x with
  | some d, some v => { h2 with x := xPut h2.x d v }
  | _, _ => h2

/-- Whether an instruction of the matrix unit completes whole although a pre-emption has stopped its hart (R183): one that has begun. -/
def QEntry.runsOut (e : QEntry) : Bool :=
  e.started && e.pend.isNone && (match e.post.body with | .mat op _ _ _ _ => op != .gang && op != .gsync | _ => false)

/-! ### Completion masks -/

/-- Whether an instruction is a copy. -/
def Body.isCopy : Body → Bool
  | .gsp => true | .ssp => true | .cpy => true | .cpyr => true
  | _ => false

/-- Whether chunk `c` of a copy is still to complete; one whose descriptor is not read yet may have any chunk. -/
def QEntry.chunkOut (e : QEntry) (c : Nat) : Bool := (e.aux = 0 || decide (c + 1 < e.aux)) && !e.chunks.done.contains c

/-- Whether a mask governs an entry; that of `vsel` only selects (R506, R515). -/
def QEntry.governed (e : QEntry) : Bool := e.cap.m != 0#3 && e.post.body != .int .sel

/-- Whether an element of an entry waits for a chunk of an older copy with its governing mask (R220). -/
def Hart.maskWait (h : Hart) (e : QEntry) (k x : Nat) : Bool :=
  e.governed &&
  h.queue.any fun c => decide (c.eid < e.eid) && c.post.body.isCopy && c.post.m == e.cap.m && c.chunkOut (2048 * k + x)

/-- The first tile index at or above `lo` and below `hi` whose pass waits for a chunk; `hi` when none does. -/
def Hart.maskStop (h : Hart) (e : QEntry) (lo : Nat) : Nat → Nat
  | 0 => lo
  | n + 1 =>
    if e.vl = 0 then lo + n + 1
    else if h.maskWait e (lo / e.vl) (lo % e.vl) then lo
    else h.maskStop e (lo + 1) n

/-- Whether an older copy of the hart uses a mask at all. -/
def Hart.maskBusy (h : Hart) (e : QEntry) : Bool :=
  e.governed && h.queue.any fun c => decide (c.eid < e.eid) && c.post.body.isCopy && c.post.m == e.cap.m

/-- How far an entry may run now: to `hi`, or to the first position that waits for a chunk. -/
def Hart.runLimit (h : Hart) (e : QEntry) (hi : Nat) : Nat :=
  if h.maskBusy e then h.maskStop e e.prog (hi - e.prog) else hi

/-! ### Reads that may cross the fabric -/

/-- The trap of a failed remote access at a VA (R72). -/
def remoteTrap (st : Nat) (va : Word) : Trap :=
  ⟨if st = 3 then cECC else if st = 5 then cFDOMAIN else if st = 6 then cALIGN else cFLOAD, va⟩

/-- What an engine's read came to. -/
inductive Got where
  | ok (bs : List Byte) (s : State) (e : QEntry)
  | trap (t : Trap)
  | block (s : State) (e : QEntry)
  deriving Repr

/-- Ask for the next part of a remote read: at most up to the next 256-byte block (R68). -/
def askPart (i : Fin 4) (w : Who) (ptype va n : Nat) (s : State) (e : QEntry) : Got :=
  let a := va + e.part.length
  let m := min (n - e.part.length) (256 - a % 256)
  let r := s.sendReq w ptype (BitVec.ofNat 19 (a / 2 ^ 44)) (BitVec.ofNat 16 (m - 1)) (BitVec.ofNat 64 (a % 2 ^ 44)) []
    (.elem i e.eid) 0#8
  .block r.1 { e with remote := .waiting r.2 }

/-- The bytes of the store queue entries of a lane group: one for each pass of a store that it holds (R213). -/
def State.queuedPasses (s : State) (lane : Fin 4) : Nat :=
  ((s.harts.toList.flatMap (·.late)).filter (·.lane == some lane)).map (·.tile) |>.eraseDups.length

/-- Whether the accesses of a lane group to some bytes wait for earlier accesses of its hart (R333): stores in its buffer, in another
lane group's queue, or remote ones of another flow. Those of its own lane group perform in order (R332). -/
def State.laneWaits (s : State) (w : Who) (va n : Nat) : Bool :=
  (s.harts[w.h].stbuf.any fun b => s.overlap b.va.toNat b.size va n) || s.storeAhead w.h (flowOf s w) va n

/-- Whether an access of an entry is made by a lane group: those of the matrix and intersect units are not (R334). -/
def QEntry.onLane (e : QEntry) (w : Who) : Bool := w.cls = 0 && e.post.eng == .vector

/-- Read `n` bytes for an entry. A remote read goes part by part; its bytes stand in `part` meanwhile (R451, R484). -/
def engineRead (i : Fin 4) (w : Who) (path : AccPath) (ptype va n : Nat) (s : State) (e : QEntry) : Got :=
  match e.remote with
  | .waiting _ => .block s e
  | .answered st data =>
    if st ≠ 0 then .trap (remoteTrap st (BitVec.ofNat 64 va))
    else
      let a := va + e.part.length
      let m := min (n - e.part.length) (256 - a % 256)
      let e1 := { e with remote := .none, part := e.part ++ slice data 0 m }
      if n ≤ e1.part.length then .ok e1.part s { e1 with part := [] } else askPart i w ptype va n s e1
  | .none =>
    if e.onLane w && s.laneWaits w va n then .block s e
    else
      match s.load w va n path with
      | .ok bs s => .ok bs s e
      | .trap t => .trap t
      | .busy => .block s e
      | .fifo _ => .trap ⟨cPROT, BitVec.ofNat 64 va⟩
      | .fabric _ _ => askPart i w ptype va n s e

/-- An entry with its pending remote read forgotten, as after a trap in queue. -/
def QEntry.dropRead (e : QEntry) : QEntry := { e with remote := .none, part := [], sentAll := false }

/-- A store that stays on its way to its storage point. -/
def lateOf (s : State) (w : Who) (va : Nat) (bs : List Byte) (lane : Bool) (tile : Nat × Nat) (chunk : Option (Nat × Nat)) : LateStore :=
  { va := BitVec.ofNat 64 va, bytes := bs, pc := w.pc, level := w.level, lane := if lane then some (Fin.ofNat 4 w.lg) else none,
    tile := tile, chunk := chunk, mode := s.bankMode va }

/-- Put a store behind those of its hart that are on their way. -/
def State.addLate (s : State) (i : Fin 4) (b : LateStore) : State := s.modHart i fun h => { h with late := h.late ++ [b] }

/-- Write `n` bytes for an entry: performed, sent, or a trap; or placed in its lane group's store queue, behind an earlier store of the
lane group that has still to perform, or while its bank changes its mode (R213, R310, R332). `tile` names the pass. -/
def engineWrite (w : Who) (path : AccPath) (ptype va : Nat) (bs : List Byte) (purpose : Nat → Purpose) (tile : Nat)
    (s : State) (e : QEntry) : Got :=
  let late := lateOf s w va bs (e.onLane w) (e.eid, tile) none
  if e.onLane w && s.laneWaits w va bs.length then .block s e
  else
    match s.store w va bs path with
    | .trap t => .trap t
    | .fifo _ => .trap ⟨cPROT, BitVec.ofNat 64 va⟩
    | .busy => if late.mode == some .spad then .ok [] (s.addLate w.h late) e else .block s e
    | .ok _ t =>
      if e.onLane w && (!s.eager || s.harts[w.h].late.any fun b => b.lane == late.lane) then .ok [] (s.addLate w.h late) e
      else .ok [] t e
    | .fabric _ _ =>
      .ok [] ((pieces 256 (bs.length / 256 + 2) va bs.length).foldl (fun s p =>
        (s.sendReq w ptype (BitVec.ofNat 19 (p.1 / 2 ^ 44)) (BitVec.ofNat 16 (p.2 - 1)) (BitVec.ofNat 64 (p.1 % 2 ^ 44))
          ((bs.drop (p.1 - va)).take p.2) (purpose p.1) 0#8).1) s) e

/-! ### Work discarded (R185, R363) -/

/-- Put back what a pass above the progress index has written. -/
def Ahead.undo (a : Ahead) (vl : Nat) (h : Hart) : Hart :=
  let lo := a.lo % (if vl = 0 then 1 else vl)
  let n := a.hi - a.lo
  let rows := a.vregs.foldl (fun (h : Hart) x =>
    let keep : Row := ((BitVec.allOnes (n * a.bits)).setWidth 8192) <<< (lo * a.bits)
    let r := h.vreg x.1
    if hk : a.row < 16 then h.setVreg x.1 { r with rows := r.rows.set a.row ((r.rows[a.row] &&& ~~~keep) ||| (x.2 &&& keep)) hk } else h) h
  a.masks.foldl (fun h x =>
    let keep : MaskRow := ((BitVec.allOnes n).setWidth 2048) <<< lo
    let m := h.mask x.1
    if hk : a.row < 16 then h.setMask x.1 (m.set a.row ((m[a.row] &&& ~~~keep) ||| (x.2 &&& keep)) hk) else h) rows

/-- The work of lanes that ran ahead is discarded, the youngest first, with the stores that it placed, and every instruction stands at its
progress index (R185). -/
def Hart.rewind (h : Hart) : Hart :=
  let h1 := h.queue.reverse.foldl (fun h e => e.ahead.reverse.foldl (fun h a => a.undo e.vl h) h) h
  { h1 with
    late := h1.late.filter fun b => b.lane.isNone || h1.queue.all fun e => e.eid != b.tile.1 || decide (b.tile.2 < e.prog),
    queue := h1.queue.map fun e => { e with lanes := Vector.replicate 4 ⟨0, 0⟩, ahead := [], slots := [] } }

end Sys2Proof.Machine
end

