-- ==== Sys2Proof/Machine/VecArith.lean ====
section
/-! DEFINITION. What the elementwise vector instructions do to the registers (chapter 19, and the comparisons of R530): each is
R419 with the body of its table row, over the positions `lo` to `hi - 1`. -/

namespace Sys2Proof.Machine

/-! ### Types -/

/-- Whether an element type is signed: i types, floating-point types as patterns, and i4 (R508). -/
def etSigned (et : ETCode) : Bool := decide (et.toNat < 4) || decide (8 ≤ et.toNat)

/-- Whether an element type is one of f64, f32, f16 and bf16 (R509). -/
def etArith (et : ETCode) : Bool := decide (11 ≤ et.toNat) && decide (et.toNat ≤ 14)

/-- Whether an element type is a floating-point type. -/
def etFloat (et : ETCode) : Bool := decide (8 ≤ et.toNat) && decide (et.toNat ≤ 14)

/-- Whether an element type has 4 bits. -/
def etNibble (et : ETCode) : Bool := et == 10#4 || et == 15#4

/-- The z type of a width. -/
def zType (b : Nat) : ETCode := if b = 8 then 4#4 else if b = 16 then 5#4 else if b = 32 then 6#4 else 7#4

/-- The format of an element type, f32 where it has none. -/
def fmtEt (et : ETCode) : Fmt := (etFmt et).getD .f32

/-! ### Operands -/

/-- The second operand b of R506 at (k, e): an element of vb, replicated under R414, or the scalar of R507. -/
def QEntry.operandB (p : QEntry) (h : Hart) (b k e : Nat) : Nat :=
  if p.post.useX then p.opb.toNat % 2 ^ b else (h.vreg p.post.b).elem b k (repIndex p.post.rp e)

/-- Whether position (k, e) of a part is executed: it lies in the part and is active (R419). -/
def Cap.runs (c : Cap) (h : Hart) (lo hi k e : Nat) : Bool := c.inPart lo hi k e && c.active h k e

/-- The OR of flags over a part (R274). -/
def Cap.flagsOver (c : Cap) (lo hi : Nat) (f : Nat → Nat → Flags) : Flags :=
  (List.range (hi - lo)).foldl (fun fl j => fl ||| f ((lo + j) / c.vl) ((lo + j) % c.vl)) 0#5

/-- Whether some position of a part satisfies a condition. -/
def Cap.anyOver (c : Cap) (lo hi : Nat) (f : Nat → Nat → Bool) : Bool :=
  (List.range (hi - lo)).any fun j => f ((lo + j) / c.vl) ((lo + j) % c.vl)

/-- Whether a write covers its destination as R237 asks: unmasked, from position 0. -/
def Cap.covers (c : Cap) (lo : Nat) : Bool := c.unmasked && lo == 0

/-! ### Integers (R512 to R515) -/

/-- pos and len of `vext` and `vins` (R514). -/
def fieldOf (w c : Nat) : Nat × Nat := (c % w, min (c / w) (w - c % w))

/-- The new element of an integer operation of width `w` (R512, R514); `sg` is the signedness of R508. -/
def intElem (op : IntOp) (sg : Bool) (w a b d e : Nat) : Nat :=
  let m := 2 ^ w
  match op with
  | .add => (a + b) % m
  | .sub => (a + m - b) % m
  | .rsub => (b + m - a) % m
  | .mul => (a * b) % m
  | .mulh => mulhS w a b
  | .mulhu => mulhU w a b
  | .div => divS w a b
  | .divu => divU w a b
  | .rem => remS w a b
  | .remu => remU w a b
  | .min => if sval w b < sval w a then b else a
  | .max => if sval w a < sval w b then b else a
  | .minu => if b < a then b else a
  | .maxu => if a < b then b else a
  | .and => a &&& b
  | .or => a ||| b
  | .xor => a ^^^ b
  | .sll => (a * 2 ^ (b % w)) % m
  | .srl => a / 2 ^ (b % w)
  | .sra => sraPat w a (b % w)
  | .sadd => satS w (sval w a + sval w b)
  | .saddu => satU w (Int.ofNat a + Int.ofNat b)
  | .ssub => satS w (sval w a - sval w b)
  | .ssubu => satU w (Int.ofNat a - Int.ofNat b)
  | .abs => wrap w (Int.ofNat (sval w a).natAbs)
  | .macc => (d + a * b) % m
  | .sel => a
  | .mv => a
  | .popc => popc w a
  | .clz => clz w a
  | .pcp => a
  | .id => e % m
  | .ext =>
    let (pos, len) := fieldOf w b
    if len = 0 then 0 else if sg then wrap w (sval len (bitsAt a pos len)) else bitsAt a pos len
  | .ins =>
    let (pos, len) := fieldOf w b
    d - bitsAt d pos len * 2 ^ pos + a % 2 ^ len * 2 ^ pos
  | .absd => if sg then wrap w (Int.ofNat (sval w a - sval w b).natAbs) else (if a < b then b - a else a - b)

/-- The sum of set bits of elements 0 to e - 1 of a row (R513). -/
def rowPopc (r : VReg) (b k : Nat) : Nat → Nat
  | 0 => 0
  | e + 1 => rowPopc r b k e + popc b (r.elem b k e)

/-- An integer instruction over a part (R419, R512): its sources are read before any element is written (R511). -/
def runInt (op : IntOp) (p : QEntry) (lo hi : Nat) (h : Hart) : Hart :=
  let c := p.cap
  let b := c.bits
  let h1 := h.relayAll c.et c.lmap p.post.vsrc
  let va := h1.vreg p.post.a
  let vd := h1.vreg p.post.d
  let elemAt (k e : Nat) : Nat :=
    match op with
    | .sel => if (h1.mask p.post.m).bit k e then va.elem b k e else p.operandB h1 b k e
    | .pcp => rowPopc va b k e % 2 ^ b
    | .mv => if p.post.useX then p.opb.toNat % 2 ^ b else va.elem b k e
    | o => intElem o (etSigned c.et) b (va.elem b k e) (p.operandB h1 b k e) (vd.elem b k e) e
  let runs (k e : Nat) : Bool := if op = .sel then c.inPart lo hi k e else c.runs h1 lo hi k e
  let cov := if op = .sel then p.first == 0 else c.covers p.first
  (h1.writeVec p.post.d p.copy c.et c cov (fun k e => if runs k e then some (elemAt k e) else none)).setVpis p.post.d p.copy hi

/-! ### Floating point (R516 to R519) -/

/-- The new element of a floating-point operation and its flags (R517). -/
def fpElem (op : FpOp) (f : Fmt) (m : RMode) (a b d : Nat) : Nat × Flags :=
  match op with
  | .add => fpAdd f m a b
  | .sub => fpSub f m a b
  | .rsub => fpSub f m b a
  | .mul => fpMul f m a b
  | .div => fpDiv f m a b
  | .rdiv => fpDiv f m b a
  | .sqrt => fpSqrt f m a
  | .fma => fpFma f m false false a b d
  | .fms => fpFma f m false true a b d
  | .fnma => fpFma f m true false a b d
  | .min => fpMinMax f false a b
  | .max => fpMinMax f true a b
  | .abs => (fpAbs f a, 0#5)
  | .neg => (fpNeg f a, 0#5)
  | .rcp => fpRcp f a
  | .rsqrt => fpRsqrt f a
  | .sgn => (fpSgn f a b, 0#5)
  | .class => (fpClass f a, 0#5)
  | .exp2 => fpExp2 f m a
  | .log2 => fpLog2 f m a
  | .sat => (fpSat f a, 0#5)

/-- Whether a floating-point operation rounds by FCSR.RM (R517). -/
def FpOp.modal : FpOp → Bool
  | .add => true | .sub => true | .rsub => true | .mul => true | .div => true | .rdiv => true | .sqrt => true
  | .fma => true | .fms => true | .fnma => true | .exp2 => true | .log2 => true
  | _ => false

/-- The rounding mode that an entry captured, RNE where the code names none. -/
def QEntry.mode (p : QEntry) : RMode := (rmodeOf p.rm.toNat).getD .rne

/-- A floating-point instruction over a part: elements and the OR of their flags (R516, R525). -/
def runFp (op : FpOp) (p : QEntry) (lo hi : Nat) (h : Hart) : Hart :=
  let c := p.cap
  let b := c.bits
  let h1 := h.relayAll c.et c.lmap p.post.vsrc
  let va := h1.vreg p.post.a
  let vd := h1.vreg p.post.d
  let res (k e : Nat) : Nat × Flags :=
    fpElem op (fmtEt c.et) p.mode (va.elem b k e) (p.operandB h1 b k e) (vd.elem b k e)
  let fl := c.flagsOver lo hi fun k e => if c.runs h1 lo hi k e then (res k e).2 else 0#5
  ((h1.writeVec p.post.d p.copy c.et c (c.covers p.first)
    (fun k e => if c.runs h1 lo hi k e then some (res k e).1 else none)).raise fl).setVpis p.post.d p.copy hi

/-! ### Conversions (R520 to R523) -/

/-- convert(v, from, to, mode) of R418 on a pattern: R276 to R279. -/
def convertPat (src dst : ETCode) (m : RMode) (sat : Bool) (n : Nat) : Nat × Flags :=
  match etFmt src, etFmt dst with
  | some f, some g => fpToFp f g m sat n
  | some f, none => fpToInt f (etSigned dst) (etBits dst) m n
  | none, some g => intToFp g m sat (if etSigned src then sval (etBits src) n else Int.ofNat n)
  | none, none =>
    if src = dst then (n, 0#5) else (intToInt (etSigned src) (etBits src) (etSigned dst) (etBits dst) sat n, 0#5)

/-- The target type of `vcvt` and `vcvtr` (R520): the tag of vd, or S when it is not VALID. -/
def cvtTarget (h : Hart) (p : QEntry) : ETCode := if (h.vreg p.post.d).valid then (h.vreg p.post.d).et else vtEt p.vtype

/-- The target type of `vqbs` (R520). -/
def qbsTarget (h : Hart) (p : QEntry) : ETCode :=
  let r := h.vreg p.post.d
  if r.valid && (r.et == 10#4 || r.et == 8#4 || r.et == 9#4) then r.et else 8#4

/-- The target type of `vdqbs` (R520). -/
def dqbsTarget (h : Hart) (p : QEntry) : ETCode :=
  let r := h.vreg p.post.d
  if r.valid && etArith r.et then r.et else 13#4

/-- A conversion over a part: no element at or above the VLMAX of D is converted (R520, R521). -/
def runCvt (m : RMode) (p : QEntry) (lo hi : Nat) (h : Hart) : Hart :=
  let c := p.cap
  let dt := cvtTarget h p
  let h1 := h.relayAll c.et c.lmap p.post.vsrc
  let va := h1.vreg p.post.a
  let runs (k e : Nat) : Bool := c.runs h1 lo hi k e && decide (e < vlmaxOf (groupCount c.lmap) dt)
  let res (k e : Nat) : Nat × Flags := convertPat c.et dt m h1.sat (va.elem c.bits k e)
  let fl := c.flagsOver lo hi fun k e => if runs k e then (res k e).2 else 0#5
  ((h1.writeVec p.post.d p.copy dt c (c.covers p.first) (fun k e => if runs k e then some (res k e).1 else none)).raise fl).setVpis
    p.post.d p.copy hi

/-- Multiply a decoded value by a power of two. -/
def scaleVal (v : FpVal) (n : Int) : FpVal :=
  match v with
  | .num s m e => .num s m (e + n)
  | v => v

/-- floor(log2) of a non-zero finite value. -/
def floorLog2 (m : Nat) (e : Int) : Int := e + Int.ofNat (Nat.log2 m)

/-- `vdqbs` over a part (R523). -/
def runDqbs (p : QEntry) (lo hi : Nat) (h : Hart) : Hart :=
  let c := p.cap
  let dt := dqbsTarget h p
  let h1 := h.relayAll c.et c.lmap [p.post.a]
  let h2 := h1.relayAll 4#4 c.lmap [p.post.b]
  let va := h1.vreg p.post.a
  let vb := h2.vreg p.post.b
  let runs (k e : Nat) : Bool := c.runs h2 lo hi k e && decide (e < vlmaxOf (groupCount c.lmap) dt)
  let res (k e : Nat) : Nat × Flags :=
    let x := vb.elem 8 k (e / 256)
    if x = 0xFF then (canonNaN (fmtEt dt), 0#5)
    else cvtVal (fmtEt dt) .rne h2.sat (scaleVal (fpDecode (fmtEt c.et) (va.elem c.bits k e)) (Int.ofNat x - 127))
  let fl := c.flagsOver lo hi fun k e => if runs k e then (res k e).2 else 0#5
  ((h2.writeVec p.post.d p.copy dt c (c.covers p.first) (fun k e => if runs k e then some (res k e).1 else none)).raise fl).setVpis
    p.post.d p.copy hi

/-- The largest exponent Q of a quantised format (R271). -/
def qbsQ (dt : ETCode) : Int := if dt = 10#4 then 2 else if dt = 8#4 then 8 else 15

/-- The scale of a block (R271): 0xFF with a NaN or an infinity, 127 for all zeros, else from the largest magnitude. -/
def qbsScale (dt : ETCode) (vs : List FpVal) : Nat :=
  let bad (v : FpVal) : Bool := match v with | .num _ _ _ => false | _ => true
  if vs.any bad then 0xFF
  else
    let logs := vs.filterMap fun v => match v with | .num _ m e => if m = 0 then none else some (floorLog2 m e) | _ => none
    match logs with
    | [] => 127
    | l :: ls => (clampInt (-127) 127 (ls.foldl max l - qbsQ dt) + 127).toNat

/-- A quantised element and its flags (R271). -/
def qbsElem (dt : ETCode) (x : Nat) (v : FpVal) : Nat × Flags :=
  if x = 0xFF then (0, flNV)
  else cvtVal (fmtEt dt) .rne true (scaleVal v (127 - Int.ofNat x))

/-- The active elements of a block, with their values. -/
def qbsBlock (c : Cap) (h : Hart) (va : VReg) (k j : Nat) : List (Nat × FpVal) :=
  ((List.range (min (256 * j + 256) c.vl - 256 * j)).map (256 * j + ·)).filterMap fun e =>
    if c.active h k e then some (e, fpDecode (fmtEt c.et) (va.elem c.bits k e)) else none

/-- `vqbs` over the blocks that begin in a part, VSTART's block whole (R522). -/
def runQbs (p : QEntry) (lo hi : Nat) (h : Hart) : Hart :=
  let c := p.cap
  let dt := qbsTarget h p
  let h1 := h.relayAll c.et c.lmap [p.post.a]
  let va := h1.vreg p.post.a
  let t0 := lo - lo % c.vl % 256
  let blocks := (List.range c.vrows).flatMap fun k => ((List.range ((c.vl + 255) / 256)).filter fun j =>
    decide (t0 ≤ k * c.vl + 256 * j) && decide (k * c.vl + 256 * j < hi)).map (k, ·)
  let mk (kj : Nat × Nat) : Nat × Nat × Nat × List (Nat × FpVal) :=
    let es := qbsBlock c h1 va kj.1 kj.2
    (kj.1, kj.2, qbsScale dt (es.map (·.2)), es)
  let bs := (blocks.map mk).filter fun x => !x.2.2.2.isEmpty
  let top := vlmaxOf (groupCount c.lmap) dt
  let keep (x : Nat × FpVal) : Bool := decide (x.1 < top)
  let put (h : Hart) (n : VNum) : Hart :=
    let r := (h.vreg n).dest dt c.lmap c.vl c.vrows (c.covers p.first)
    h.setVreg n (bs.foldl (fun r x => (x.2.2.2.filter keep).foldl (fun r ev =>
      r.setElem (etBits dt) x.1 ev.1 (qbsElem dt x.2.2.1 ev.2).1) r) r)
  let h2 := match p.copy with | none => put h1 p.post.d | some n => put (put h1 p.post.d) n
  let sc := (h2.vreg p.post.b).dest 4#4 c.lmap c.vl c.vrows false
  let h3 := h2.setVreg p.post.b (bs.foldl (fun r x => r.setElem 8 x.1 x.2.1 x.2.2.1) sc)
  let fl := bs.foldl (fun fl x => (x.2.2.2.filter keep).foldl (fun fl ev => fl ||| (qbsElem dt x.2.2.1 ev.2).2) fl) 0#5
  ((h3.raise fl).setVpis p.post.d p.copy hi).setVpi p.post.b hi

/-! ### Comparisons (R530, R531) -/

/-- The relation of a condition code. -/
def relOf (cond : BitVec 3) : FpRel :=
  match cond.toNat with
  | 0 => .eq | 1 => .ne | 2 => .lt | 3 => .le | 4 => .gt | 5 => .ge | 6 => .uno | _ => .ord

/-- A relation on integers. -/
def intRel (r : FpRel) (a b : Int) : Bool :=
  match r with
  | .eq => decide (a = b) | .ne => decide (a ≠ b) | .lt => decide (a < b) | .le => decide (a ≤ b)
  | .gt => decide (b < a) | .ge => decide (b ≤ a) | .uno => false | .ord => true

/-- A comparison of two elements and its flags, by type (R531). -/
def cmpElem (cond : BitVec 3) (ty : BitVec 2) (et : ETCode) (a b : Nat) : Bool × Flags :=
  let w := etBits et
  let r := relOf cond
  if ty = 0#2 then (intRel r (sval w a) (sval w b), 0#5)
  else if ty = 1#2 then (intRel r a b, 0#5)
  else if ty = 2#2 then fpCompare (fmtEt et) r a b
  else
    let isn := (fpDecode (fmtEt et) a).isNaN || (fpDecode (fmtEt et) b).isNaN
    match r with
    | .uno => (isn, 0#5)
    | .ord => (!isn, 0#5)
    | r => (intRel r (nanLowCmp (fmtEt et) a b) 0, 0#5)

/-- A mask with each bit of a part that a function names replaced; other bits keep their values. -/
def MReg.write (m : MReg) (vl vrows : Nat) (f : Nat → Nat → Option Bool) : MReg :=
  Vector.ofFn fun (k : Fin 16) =>
    if k.val < vrows then
      let bit (e : Nat) : Nat := match f k.val e with | some true => 2 ^ e | some false => 0 | none => if m[k].getLsbD e then 2 ^ e else 0
      let low := (List.range vl).foldl (fun n e => n + bit e) 0
      BitVec.ofNat 2048 (m[k].toNat / 2 ^ vl * 2 ^ vl + low)
    else m[k]

/-- A comparison over a part (R531): bits of inactive elements keep their values; type 3 sets GATEF for a NaN operand. -/
def runCmp (cond : BitVec 3) (ty : BitVec 2) (p : QEntry) (lo hi : Nat) (h : Hart) : Hart :=
  let c := p.cap
  let b := c.bits
  let h1 := h.relayAll c.et c.lmap p.post.vsrc
  let va := h1.vreg p.post.a
  let md : MNum := p.post.d.setWidth 3
  let opA (k e : Nat) : Nat := va.elem b k e
  let opB (k e : Nat) : Nat := p.operandB h1 b k e
  let isn (n : Nat) : Bool := (fpDecode (fmtEt c.et) n).isNaN
  let fl := c.flagsOver lo hi fun k e => if c.runs h1 lo hi k e then (cmpElem cond ty c.et (opA k e) (opB k e)).2 else 0#5
  let gate := ty == 3#2 && c.anyOver lo hi fun k e => c.runs h1 lo hi k e && (isn (opA k e) || isn (opB k e))
  let m := (h1.mask md).write c.vl c.vrows fun k e =>
    if c.runs h1 lo hi k e then some (cmpElem cond ty c.et (opA k e) (opB k e)).1 else none
  let h2 := (h1.setMask md m).raise fl
  { h2 with gatef := h2.gatef || gate }

end Sys2Proof.Machine
end

