-- ==== Sys2Proof/Machine/VecPerm.lean ====
section
/-! DEFINITION. What mask instructions, permutes, reductions, scans and the compare-and-swap instructions do (chapter 20, with
the trees of R289 and the segments of R538). -/

namespace Sys2Proof.Machine

/-! ### Mask instructions (R532, R533) -/

/-- The lowest tile index that satisfies a condition, from `lo` over `n` positions. -/
def lowestTile (f : Nat → Bool) (lo : Nat) : Nat → Option Nat
  | 0 => none
  | n + 1 => if f lo then some lo else lowestTile f (lo + 1) n

/-- The highest tile index below `n` that satisfies a condition. -/
def highestTile (f : Nat → Bool) : Nat → Option Nat
  | 0 => none
  | n + 1 => if f n then some n else highestTile f n

/-- Whether an element counts as non-zero for `vtom` (R533). -/
def elemNonzero (et : ETCode) (n : Nat) : Bool :=
  match etFmt et with
  | some f => !(fpDecode f n).isZero
  | none => n != 0

/-- 1 of an element type: the integer 1, or 1.0 (R533). -/
def oneOf (et : ETCode) : Nat :=
  match etFmt et with
  | some f => fmtBias f * 2 ^ fmtF f
  | none => 1

/-- A mask instruction, register-whole (R527, R533): the hart after it, and its scalar result. -/
def runMask (op : MaskOp) (p : QEntry) (h : Hart) : Hart × Option Word :=
  let c := p.cap
  let n := p.total
  let tile (t : Nat) : Nat × Nat := (t / c.vl, t % c.vl)
  let act (t : Nat) : Bool := c.active h (tile t).1 (tile t).2
  let ma := h.mask (p.post.a.setWidth 3)
  let mb := h.mask (p.post.b.setWidth 3)
  let hit (t : Nat) : Bool := act t && ma.bit (tile t).1 (tile t).2
  let f := (lowestTile hit 0 n).getD n
  let md : MNum := p.post.d.setWidth 3
  let setm (g : Nat → Nat → Bool) : Hart × Option Word :=
    (h.setMask md ((h.mask md).write c.vl c.vrows fun k e => if c.active h k e then some (g k e) else none), none)
  match op with
  | .and => setm fun k e => ma.bit k e && mb.bit k e
  | .or => setm fun k e => ma.bit k e || mb.bit k e
  | .xor => setm fun k e => ma.bit k e != mb.bit k e
  | .andn => setm fun k e => ma.bit k e && !mb.bit k e
  | .not => setm fun k e => !ma.bit k e
  | .mv => setm fun k e => ma.bit k e
  | .set => setm fun _ _ => true
  | .clr => setm fun _ _ => false
  | .pop => (h, some (BitVec.ofNat 64 ((List.range n).filter hit).length))
  | .first => (h, some (match lowestTile hit 0 n with | some t => BitVec.ofNat 64 t | none => BitVec.allOnes 64))
  | .last => (h, some (match highestTile hit n with | some t => BitVec.ofNat 64 t | none => BitVec.allOnes 64))
  | .before => setm fun k e => decide (k * c.vl + e < f)
  | .incl => setm fun k e => decide (k * c.vl + e ≤ f)
  | .only => setm fun k e => decide (k * c.vl + e = f)
  | .tov =>
    ((h.writeVec p.post.d p.copy c.et c (c.covers 0)
      (fun k e => if c.active h k e then some (if ma.bit k e then oneOf c.et else 0) else none)).setVpis p.post.d p.copy n, none)
  | .vtom =>
    let h1 := h.relayAll c.et c.lmap p.post.vsrc
    let va := h1.vreg p.post.a
    (h1.setMask md ((h1.mask md).write c.vl c.vrows fun k e =>
      if c.active h1 k e then some (elemNonzero c.et (va.elem c.bits k e)) else none), none)

/-! ### Permutes (R534, R535) -/

/-- The active elements of a row, in increasing index. -/
def activeList (c : Cap) (h : Hart) (k : Nat) : List Nat := (List.range c.vl).filter fun e => c.active h k e

/-- The type at which `vgath` reads its index (R535). -/
def gathType (vb : VReg) (et : ETCode) : ETCode :=
  if !vb.valid then zType (etBits et)
  else if !etFloat vb.et then vb.et
  else if etBits et = 4 then 15#4 else zType (etBits et)

/-- The new element (k, e) of a permute, or none where it writes nothing (R534). -/
def permElem (op : PermOp) (c : Cap) (h : Hart) (va vb vi : VReg) (gb : Nat) (s k e : Nat) : Option Nat :=
  let b := c.bits
  let a (i : Nat) : Nat := if i < c.vl then va.elem b k i else 0
  let act := c.active h k e
  match op with
  | .compress => ((activeList c h k)[e]?).map fun i => va.elem b k i
  | .expand => if act then some (a ((activeList c h k).filter (· < e)).length) else none
  | .slideup => if act && decide (s ≤ e) then some (a (e - s)) else none
  | .slidedn => if act then some (a (e + s)) else none
  | .gath => if act then some (a (vi.elem gb k e)) else none
  | .rev => if act then some (a (c.vl - 1 - e)) else none
  | .tr => if act then some (va.elem b e k) else none
  | .zip => if act then some (if e % 2 = 0 then a (e / 2) else vb.elem b k (e / 2)) else none
  | .unzip =>
    let hh := (c.vl + 1) / 2
    if act then some (if e < hh then a (2 * e) else a (2 * (e - hh) + 1)) else none
  | .rowmv => if act then some (va.elem b ((k + s % 16) % 16) e) else none
  | .relay => none

/-- A permute over whole rows `k0` on, up to `k1` (R527). -/
def runPerm (op : PermOp) (p : QEntry) (k0 k1 : Nat) (h : Hart) : Hart :=
  let c := p.cap
  match op with
  | .relay => h.relayAll c.et c.lmap [p.post.d]
  | op =>
    let h1 := h.relayAll c.et c.lmap (p.post.vsrc.filter fun n => !(op = .gath && n = p.post.b && n ≠ p.post.a))
    let gt := gathType (h1.vreg p.post.b) c.et
    let vi := (h1.vreg p.post.b).relaid gt c.lmap
    let h2 := if op = .gath && p.post.b ≠ p.post.a then h1.setVreg p.post.b vi else h1
    let va := h2.vreg p.post.a
    let vb := h2.vreg p.post.b
    (h2.writeVec p.post.d none c.et c (c.covers p.first) fun k e =>
      if k0 ≤ k && k < k1 then permElem op c h2 va vb vi (etBits gt) p.opb.toNat k e else none).setVpi p.post.d (k1 * c.vl)

/-! ### Reductions and scans (R537 to R540) -/

/-- A value and the flags it has gathered. -/
abbrev Flagged := Nat × Flags

/-- One level of the fixed tree: neighbours combine, an absent node leaves the other unchanged (R289). -/
def treeLevel (f : Nat → Nat → Flagged) : List (Option Flagged) → List (Option Flagged)
  | x :: y :: r =>
    (match x, y with
    | some a, some b => let z := f a.1 b.1; some (z.1, a.2 ||| b.2 ||| z.2)
    | some a, none => some a
    | none, y => y) :: treeLevel f r
  | l => l

/-- The fixed tree of R107 over positions, `n` levels at most. -/
def treeOf (f : Nat → Nat → Flagged) : Nat → List (Option Flagged) → Option Flagged
  | 0, l => l.headD none
  | n + 1, l =>
    match l with
    | [] => none
    | [x] => x
    | l => treeOf f n (treeLevel f l)

/-- Combine in index order, from an initial value where there is one (R288). -/
def seqOf (f : Nat → Nat → Flagged) (init : Option Nat) (xs : List Nat) : Option Flagged :=
  xs.foldl (fun acc x =>
    match acc with
    | none => some (x, 0#5)
    | some a => let z := f a.1 x; some (z.1, a.2 ||| z.2)) (init.map fun v => (v, 0#5))

/-- A reduction's combine (R539). -/
def redCombine (op : RedOp) (et : ETCode) (m : RMode) (a b : Nat) : Flagged :=
  let w := etBits et
  let f := fmtEt et
  match op with
  | .min => (if sval w b < sval w a then b else a, 0#5)
  | .max => (if sval w a < sval w b then b else a, 0#5)
  | .and => (a &&& b, 0#5)
  | .or => (a ||| b, 0#5)
  | .xor => (a ^^^ b, 0#5)
  | .minu => (min a b, 0#5)
  | .maxu => (max a b, 0#5)
  | .fsum => fpAdd f m a b
  | .fsumt => fpAdd f m a b
  | .fscan => fpAdd f m a b
  | .fmax => fpMinMax f true a b
  | .fmin => fpMinMax f false a b
  | _ => ((a + b) % 2 ^ w, 0#5)

/-- The identity of a reduction (R539). -/
def redIdentity (op : RedOp) (et : ETCode) : Nat :=
  let w := etBits et
  let f := fmtEt et
  let infp := (2 ^ fmtE f - 1) * 2 ^ fmtF f
  match op with
  | .min => 2 ^ (w - 1) - 1
  | .max => 2 ^ (w - 1)
  | .and => 2 ^ w - 1
  | .minu => 2 ^ w - 1
  | .fmax => withSign f true infp
  | .fmin => infp
  | _ => 0

/-- Whether a reduction or scan is a float instruction. -/
def RedOp.isFloat : RedOp → Bool
  | .fsum => true | .fsumt => true | .fmax => true | .fmin => true | .fscan => true
  | _ => false

/-- Whether a reduction combines in index order. -/
def RedOp.isSeq : RedOp → Bool
  | .fsum => true
  | _ => false

/-- Whether an operation is a scan. -/
def RedOp.isScan : RedOp → Bool
  | .scan => true | .scanx => true | .fscan => true
  | _ => false

/-- Whether a float operation rounds by FCSR.RM (R539, R540). -/
def RedOp.modal : RedOp → Bool
  | .fsum => true | .fsumt => true | .fscan => true
  | _ => false

/-- A NaN becomes canonical (R268). -/
def canonPat (et : ETCode) (n : Nat) : Nat := match etFmt et with | some f => if (fpDecode f n).isNaN then canonNaN f else n | none => n

/-- The segments of a row, each with its first element and its length (R538). -/
def segments (c : Cap) (h : Hart) (k : Nat) : List (Nat × Nat) :=
  let starts := (List.range c.vl).filter fun e => e == 0 || c.segStart h k e
  starts.zipIdx.map fun x => (x.1, (starts.getD (x.2 + 1) c.vl) - x.1)

/-- The result of one segment (R537, R539). -/
def redSegment (op : RedOp) (c : Cap) (h : Hart) (m : RMode) (va : VReg) (init : Option Nat) (k start len : Nat) : Flagged :=
  let node (i : Nat) : Option Nat :=
    if c.active h k (start + i) then some (va.elem c.bits k (start + i)) else none
  let f := redCombine op c.et m
  let r : Option Flagged :=
    if op.isSeq then seqOf f init ((List.range len).filterMap node)
    else
      let root := treeOf f (len + 1) ((List.range len).map fun i => (node i).map fun v => (v, 0#5))
      match init, root with
      | some v, some x => let z := f v x.1; some (z.1, x.2 ||| z.2)
      | some v, none => some (v, 0#5)
      | none, x => x
  match r with
  | some x => (if op.isFloat then canonPat c.et x.1 else x.1, x.2)
  | none => (redIdentity op c.et, 0#5)

/-- The prefix results of a segment: for each element, none where it is inactive (R540). -/
def scanSegment (op : RedOp) (c : Cap) (h : Hart) (m : RMode) (va : VReg) (init : Option Nat) (k start len : Nat) :
    List (Option Flagged) :=
  let f := redCombine op c.et m
  ((List.range len).foldl (fun (acc : Option Nat × List (Option Flagged)) i =>
    if c.active h k (start + i) then
      let x := va.elem c.bits k (start + i)
      let z : Flagged := match acc.1 with | none => (x, 0#5) | some v => f v x
      let out : Nat := if op = .scanx then acc.1.getD 0 else if op.isFloat then canonPat c.et z.1 else z.1
      (some z.1, acc.2 ++ [some (out, z.2)])
    else (acc.1, acc.2 ++ [none])) (init, [])).2

/-- A reduction or scan over whole rows (R527, R537). -/
def runRed (op : RedOp) (p : QEntry) (k0 k1 : Nat) (h : Hart) : Hart :=
  let c := p.cap
  let b := c.bits
  let h1 := h.relayAll c.et c.lmap p.post.vsrc
  let va := h1.vreg p.post.a
  let vb := h1.vreg p.post.b
  let init (k s : Nat) : Option Nat := if p.post.b = 0#5 then none else some (vb.elem b k s)
  let rowRes (k : Nat) : List (Option Flagged) :=
    let segs := segments c h1 k
    if op.isScan then
      segs.zipIdx.flatMap fun x => scanSegment op c h1 p.mode va (init k x.2) k x.1.1 x.1.2
    else segs.zipIdx.map fun x => some (redSegment op c h1 p.mode va (init k x.2) k x.1.1 x.1.2)
  let rows := (List.range c.vrows).map fun k => if k0 ≤ k && k < k1 then rowRes k else []
  let fl := rows.foldl (fun fl r => r.foldl (fun fl x => match x with | some y => fl ||| y.2 | none => fl) fl) 0#5
  ((h1.writeVec p.post.d none c.et c (c.covers p.first) fun k e =>
    (((rows.getD k []).getD e none).map (·.1))).raise fl).setVpi p.post.d (k1 * c.vl)

/-! ### `vkswap` and `vkswapi` (R541, R542) -/

/-- above(a, i, b, j) of R418: NaN-low for floats, else the order of the type; the lower index wins a tie. -/
def aboveElem (et : ETCode) (a i b j : Nat) : Bool :=
  let o : Int :=
    if etFloat et then nanLowCmp (fmtEt et) a b
    else
      let x : Int := if etSigned et then sval (etBits et) a else Int.ofNat a
      let y : Int := if etSigned et then sval (etBits et) b else Int.ofNat b
      if x < y then -1 else if y < x then 1 else 0
  decide (0 < o) || (decide (o = 0) && decide (i < j))

/-- `vkswap`, and `vkswapi` with its index from OPB, over a part. -/
def runKswap (imm : Bool) (p : QEntry) (lo hi : Nat) (h : Hart) : Hart :=
  let c := p.cap
  let b := c.bits
  let zt := zType b
  let d1 : VNum := p.post.d + 1#5
  let ib : VNum := if imm then p.post.a + 1#5 else p.post.b
  let h1 := h.relayAll c.et c.lmap [p.post.d, p.post.a]
  let h2 := h1.relayAll zt c.lmap (if imm then [d1] else [d1, ib])
  let hv := h2.vreg p.post.d
  let hi_ := h2.vreg d1
  let cv := h2.vreg p.post.a
  let ci (k e : Nat) : Nat := if imm then p.opb.toNat % 2 ^ b else (h2.vreg ib).elem b k e
  let up (k e : Nat) : Bool := aboveElem c.et (cv.elem b k e) (ci k e) (hv.elem b k e) (hi_.elem b k e)
  let runs (k e : Nat) : Bool := c.runs h2 lo hi k e
  let sw (x : Nat → Nat → Nat) (k e : Nat) : Option Nat := if runs k e && up k e then some (x k e) else none
  let isn (n : Nat) : Bool := (fpDecode (fmtEt c.et) n).isNaN
  let gate := etFloat c.et && c.anyOver lo hi fun k e => runs k e && (isn (hv.elem b k e) || isn (cv.elem b k e))
  let cov := c.covers p.first
  let h3 := h2.writeVec p.post.d none c.et c cov (sw fun k e => cv.elem b k e)
  let h4 := h3.writeVec d1 none zt c cov (sw ci)
  let h5 := h4.writeVec p.post.a none c.et c cov (sw fun k e => hv.elem b k e)
  let h6 := h5.writeVec ib none zt c cov fun k e =>
    if imm then (if runs k e then some (if up k e then hi_.elem b k e else ci k e) else none) else sw (fun k e => hi_.elem b k e) k e
  let h7 := (((h6.setVpi p.post.d hi).setVpi d1 hi).setVpi p.post.a hi).setVpi ib hi
  { h7 with gatef := h7.gatef || gate }

end Sys2Proof.Machine
end

