-- ==== Sys2Proof/Machine/VecMem.lean ====
section
/-! DEFINITION. Vector loads and stores (R479 to R488), the strips of streams (R489 to R491), vector atomics (R596 to R599)
and scatter-accumulate (R600 to R603). -/

namespace Sys2Proof.Machine

/-! ### Addresses (R480, R481) -/

/-- Memory bits of an element: the width mw, or 4 under a 4-bit type (R480). -/
def memBits (et : ETCode) (mw : BitVec 2) : Nat := if etNibble et then 4 else 8 * 2 ^ mw.toNat

/-- The type at which index registers are read (R481). -/
def idxType (et : ETCode) : ETCode := if etBits et = 64 then 3#4 else 2#4

/-- The index of element (k, e): signed, 0 at or above VLMAX of its type (R481). -/
def idxAt (vi : VReg) (et : ETCode) (l : BitVec 4) (k e : Nat) : Int :=
  let it := idxType et
  if e < vlmaxOf (groupCount l) it then sval (etBits it) (vi.elem (etBits it) k e) else 0

/-- The address of element t = k * VL + e (R481). -/
def elemAddr (mode : VMode) (p : QEntry) (vi : VReg) (w t : Nat) : Nat :=
  let c := p.cap
  match mode with
  | .unit => (p.opa.toNat + t * w / 8) % 2 ^ 64
  | .strided => ((Int.ofNat p.opa.toNat + Int.ofNat t * p.opb.toInt) % 2 ^ 64).toNat
  | _ => ((Int.ofNat p.opa.toNat + idxAt vi c.et c.lmap (t / c.vl) (t % c.vl)) % 2 ^ 64).toNat

/-- Whether a mode reads an index register. -/
def VMode.isIndexed : VMode → Bool
  | .indexed => true | .ordered => true | _ => false

/-- How many elements of `w` bits from `t` on travel in one request beside it: consecutive active elements that continue the run within
one aligned 256-byte block (R68, R484). -/
def runLength (addr : Nat → Nat) (go : Nat → Bool) (w block : Nat) (t : Nat) : Nat → Nat
  | 0 => 0
  | m + 1 =>
    let next := if w = 4 then addr t + t % 2 else addr t + w / 8
    if go (t + 1) && addr (t + 1) = next && decide (next + (w + 7) / 8 ≤ block) then
      runLength addr go w block (t + 1) m + 1
    else 0

/-- Whether no element of an instruction at or above `t` is active. -/
def lastActive (c : Cap) (h : Hart) (t n : Nat) : Bool :=
  (List.range (n - t)).all fun j => !c.active h ((t + j) / c.vl) ((t + j) % c.vl)

/-- Whether an entry waits for the answer of a request. -/
def ERemote.isWaiting : ERemote → Bool
  | .waiting _ => true
  | _ => false

/-- Whether the request that an entry waits for is the last of its read of `n` bytes. -/
def QEntry.allAsked (e : QEntry) (va n : Nat) : Bool :=
  decide (n ≤ e.part.length + (256 - (va + e.part.length) % 256))

/-! ### Loads (R482, R483) -/

/-- Whether every earlier access of the hart has performed at scope `dev`: the wait of a `.sc` form (R342). -/
def State.scReady (s : State) (i : Fin 4) (e : QEntry) : Bool :=
  let h := s.harts[i]
  (h.queue.all fun x => !decide (x.eid < e.eid) || s.entryPerformed i x 4) && h.stbuf.isEmpty && h.late.isEmpty && !s.hartUnsent i

/-- Draw and release one ticket (R342). -/
def State.drawTicket (s : State) : State := { s with sched := { s.sched with ticket := s.sched.ticket + 1 } }

/-- How a run over elements ended. -/
inductive Stop where
  | finished
  | blocked
  | trap (t : Trap)
  deriving DecidableEq, Repr

/-- The elements of a load, from the entry's progress index up to `hi`: the values that arrived, and how it ended. -/
def loadLoop (i : Fin 4) (mode : VMode) (w : Nat) (sc : Bool) (vi : VReg) (hi : Nat) :
    Nat → State → QEntry → List (Nat × Nat) → State × QEntry × List (Nat × Nat) × Stop
  | 0, s, e, acc => (s, e, acc, .finished)
  | fuel + 1, s, e, acc =>
    let t := e.prog
    let c := e.cap
    let h := s.harts[i]
    if hi ≤ t then (s, e, acc, .finished)
    else if !c.active h (t / c.vl) (t % c.vl) then
      if h.maskWait e (t / c.vl) (t % c.vl) then (s, e, acc, .blocked)
      else loadLoop i mode w sc vi hi fuel s { e with prog := t + 1 } acc
    else if h.maskWait e (t / c.vl) (t % c.vl) then (s, e, acc, .blocked)
    else
      let addr := elemAddr mode e vi w
      let va := addr t
      let n := (w + 7) / 8
      let go (x : Nat) : Bool := decide (x < hi) && c.active h (x / c.vl) (x % c.vl) && !h.maskWait e (x / c.vl) (x % c.vl)
      let m : Nat :=
        if 2 ^ 63 ≤ va && !mode.isIndexed && !sc then runLength addr go w (va / 256 * 256 + 256) t (hi - t) + 1 else 1
      let len := if w = 4 then addr (t + m - 1) - va + 1 else m * n
      let wh := e.who s i 0 (laneOf c.lmap c.bits (t % c.vl))
      match engineRead i wh .vector 0x01 va len s e with
      | .trap tr => (s, e.dropRead, acc, .trap ⟨tr.cause, BitVec.ofNat 64 va⟩)
      | .block s e => (s, { e with sentAll := e.remote.isWaiting && e.allAsked va len && lastActive c h (t + m) e.total }, acc, .blocked)
      | .ok bs s e =>
        let one (j : Nat) : Nat × Nat :=
          if w = 4 then (t + j, sliceNat bs (addr (t + j) - va) 1 / (if (t + j) % 2 = 0 then 1 else 16) % 16)
          else (t + j, sliceNat bs (j * n) n)
        let s := if sc then s.drawTicket else s
        loadLoop i mode w sc vi hi fuel s { e with prog := t + m } (acc ++ (List.range m).map one)

/-- Loaded elements in a register. -/
def putLoaded (r : VReg) (b vl : Nat) (f : Nat → Nat) (vals : List (Nat × Nat)) : VReg :=
  vals.foldl (fun r x => r.setElem b (x.1 / vl) (x.1 % vl) (f x.2)) r

/-- A vector load up to `hi`: every active element below a failing one is committed, none at or above it (R482, R483). -/
def runLoad (i : Fin 4) (mode : VMode) (mw : BitVec 2) (sx sc : Bool) (p : QEntry) (hi : Nat) (s : State) : Ran :=
  if sc && !s.scReady i p then .block s p
  else
    let c := p.cap
    let w := memBits c.et mw
    let s := s.modHart i fun h => if mode.isIndexed then h.relayAll (idxType c.et) c.lmap [p.post.b] else h
    let vi := s.harts[i].readAs p.post.b (idxType c.et) c.lmap
    let (s, e, vals, stop) := loadLoop i mode w sc vi hi (hi + 1) s p []
    let ext (v : Nat) : Nat := if sx && w < c.bits then wrap c.bits (sval w v) else v
    let put (h : Hart) (n : VNum) : Hart :=
      h.setVreg n (putLoaded ((h.vreg n).dest c.et c.lmap c.vl c.vrows (c.covers p.first)) c.bits c.vl ext vals)
    let s := s.modHart i fun h =>
      (match p.copy with | none => put h p.post.d | some n => put (put h p.post.d) n).setVpis p.post.d p.copy e.prog
    match stop with
    | .finished => if p.total ≤ e.prog then .done s e else .part s e
    | .blocked => .block s e
    | .trap t => .fault s e t

/-! ### Stores (R482 to R485) -/

/-- The bytes of element t as a store writes them. -/
def storeBytes (vs : VReg) (c : Cap) (w t : Nat) : List Byte :=
  natLe ((w + 7) / 8) (vs.elem c.bits (t / c.vl) (t % c.vl) % 2 ^ w)

/-- The bytes of a run of 4-bit elements of which only one nibble is stored, as offsets from its first byte: its first and its last. -/
def edgeBytes (t m : Nat) : List Nat :=
  let first := if t % 2 = 1 then [0] else []
  let last := (t + m - 1) / 2 - t / 2
  if (t + m) % 2 = 1 && !(first.contains last) then first ++ [last] else first

/-- The bytes at the edges of a run of 4-bit elements as they stand, one after another; those read so far stand in `ents` (R480). -/
def nibbleEdges (i : Fin 4) (wh : Who) (va t m : Nat) : Nat → State → QEntry → Got
  | 0, s, e => .ok (e.ents.map fun x => BitVec.ofNat 8 x.2) s e
  | fuel + 1, s, e =>
    match (edgeBytes t m)[e.ents.length]? with
    | none => .ok (e.ents.map fun x => BitVec.ofNat 8 x.2) s e
    | some o =>
      match engineRead i wh .vector 0x01 (va + o) 1 s e with
      | .ok bs s e => nibbleEdges i wh va t m fuel s { e with ents := e.ents ++ [(o, leNat bs)] }
      | r => r

/-- The bytes of a run of 4-bit elements, with the other nibble of its edges as it stands (R480). -/
def nibbleBytes (t : Nat) (vs : List Nat) (old : List Byte) : List Byte :=
  let edges := edgeBytes t vs.length
  (List.range ((t + vs.length - 1) / 2 - t / 2 + 1)).map fun j =>
    let o := match edges.findIdx? (· = j) with | some k => (old.getD k 0#8).toNat | none => 0
    let nib (x keep : Nat) : Nat := if t ≤ x && x < t + vs.length then vs.getD (x - t) 0 else keep
    BitVec.ofNat 8 (nib (2 * (t / 2 + j)) (o % 16) + 16 * nib (2 * (t / 2 + j) + 1) (o / 16))

/-- One element or run of a store. A 4-bit element at an edge of its run reads and rewrites its byte (R68, R480). -/
def storeOne (i : Fin 4) (w : Nat) (va t : Nat) (bs : List Byte) (s : State) (e : QEntry) : Got :=
  let wh := e.who s i 0 (laneOf e.cap.lmap e.cap.bits (t % e.cap.vl))
  let put (bs : List Byte) (s : State) (e : QEntry) : Got :=
    engineWrite wh .vector 0x03 va bs (fun a => .store i (BitVec.ofNat 64 a) bs.length) t s e
  if w = 4 then
    match nibbleEdges i wh va t bs.length 2 s e with
    | .ok old s e => put (nibbleBytes t (bs.map fun b => b.toNat % 16) old) s { e with ents := [] }
    | .trap tr => .trap ⟨if tr.cause == cPFLOAD then cPFSTORE else tr.cause, tr.tval⟩
    | .block s e => .block s e
  else put bs s e

/-- A remote `.sc` store element waits for its answer; a failure is reported, not trapped (R72, R343). -/
def storeSc (i : Fin 4) (va t : Nat) (bs : List Byte) (s : State) (e : QEntry) : Got :=
  let wh := e.who s i 0 (laneOf e.cap.lmap e.cap.bits (t % e.cap.vl))
  match e.remote with
  | .waiting _ => .block s e
  | .answered st _ =>
    let s := if st = 0 then s else
      s.errorTo i { va := BitVec.ofNat 64 va, peer := BitVec.ofNat 19 (va / 2 ^ 44), itag := itagOf e.pc, kind := 1, st := st,
                    attr := 0#8, hart := some i, job := s.jobOf wh.ctxid, aux := bs.length - 1, data := bs.take 8 }
    .ok [] s { e with remote := .none }
  | .none =>
    match s.locate wh va bs.length .store .vector with
    | .error t => .trap t
    | .ok (_, s) =>
      let r := s.sendReq wh 0x03 (BitVec.ofNat 19 (va / 2 ^ 44)) (BitVec.ofNat 16 (bs.length - 1)) (BitVec.ofNat 64 (va % 2 ^ 44))
        bs (.elem i e.eid) 0#8
      .block r.1 { e with remote := .waiting r.2 }

/-- The elements of a store, in increasing index. -/
def storeLoop (i : Fin 4) (mode : VMode) (w : Nat) (sc : Bool) (vi vs : VReg) (hi : Nat) :
    Nat → State → QEntry → State × QEntry × Stop
  | 0, s, e => (s, e, .finished)
  | fuel + 1, s, e =>
    let t := e.prog
    let c := e.cap
    let h := s.harts[i]
    if hi ≤ t then (s, e, .finished)
    else if h.maskWait e (t / c.vl) (t % c.vl) then (s, e, .blocked)
    else if !c.active h (t / c.vl) (t % c.vl) then storeLoop i mode w sc vi vs hi fuel s { e with prog := t + 1 }
    else
      let addr := elemAddr mode e vi w
      let va := addr t
      let n := (w + 7) / 8
      let go (x : Nat) : Bool := decide (x < hi) && c.active h (x / c.vl) (x % c.vl) && !h.maskWait e (x / c.vl) (x % c.vl)
      let m : Nat :=
        if 2 ^ 63 ≤ va && !mode.isIndexed && !sc then runLength addr go w (va / 256 * 256 + 256) t (hi - t) + 1 else 1
      let bs := (List.range m).flatMap fun j => storeBytes vs c w (t + j)
      match (if sc && 2 ^ 63 ≤ va then storeSc i va t bs s e else storeOne i w va t bs s e) with
      | .trap tr => (s, e.dropRead, .trap ⟨tr.cause, BitVec.ofNat 64 va⟩)
      | .block s e => (s, e, .blocked)
      | .ok _ s e =>
        let s := if sc then s.drawTicket else s
        storeLoop i mode w sc vi vs hi fuel s { e with prog := t + m }

/-- A list in an order that the spec leaves open. -/
def pickOrder (seed : Nat) : Nat → List Nat → List Nat
  | 0, l => l
  | n + 1, l =>
    match l with
    | [] => []
    | x :: xs =>
      let j := Config.freeChoice (seed + n) % (xs.length + 1)
      (x :: xs).getD j x :: pickOrder seed n ((x :: xs).eraseIdx j)

/-- Whether two elements of a list write a common byte. -/
def anyOverlap (addr : Nat → Nat) (n : Nat) : List Nat → Bool
  | [] => false
  | t :: ts => ts.any (fun u => decide (addr t < addr u + n) && decide (addr u < addr t + n)) || anyOverlap addr n ts

/-- Elements that write common bytes under `vst`, `vsts` or `vstx`: those below the lowest failing one perform in an order that
the spec leaves open (R331). -/
def storeAny (i : Fin 4) (mode : VMode) (w : Nat) (vi vs : VReg) (ts : List Nat) (s : State) (e : QEntry) : State × Option (Nat × Trap) :=
  let addr := elemAddr mode e vi w
  let n := (w + 7) / 8
  let wh (t : Nat) : Who := e.who s i 0 (laneOf e.cap.lmap e.cap.bits (t % e.cap.vl))
  let bad (t : Nat) : Option (Nat × Trap) :=
    match s.locateAll (wh t) .store .vector n (if 2 ^ 63 ≤ addr t then [(addr t, n)] else pagePieces (addr t) n) with
    | .error tr => some (t, ⟨tr.cause, BitVec.ofNat 64 (addr t)⟩)
    | .ok _ => none
  let f := ts.findSome? bad
  let below := match f with | some x => ts.filter (· < x.1) | none => ts
  (((pickOrder s.free below.length below).foldl (fun s t =>
    match storeOne i w (addr t) t (storeBytes vs e.cap w t) s e with
    | .ok _ s _ => s
    | _ => s) s).tick, f)

/-- The notify step of a `.n` store (R485): NCNT grows once; the word is stored when VNOTA is not zero. -/
def notifyStep (i : Fin 4) (s : State) (e : QEntry) : Ran :=
  let waits := s.fab.outstanding.any (fun o => match o.purpose with | .store h _ _ => h = i | _ => false) ||
    s.fab.waiting.any (fun o => match o.1.purpose with | .store h _ _ => h = i | _ => false) || !s.harts[i].late.isEmpty
  if waits then .block s e
  else
    let s := if e.aux = 0 then s.modHart i fun h => { h with ncnt := h.ncnt + BitVec.ofNat 64 e.total } else s
    let e := { e with aux := 1 }
    let h := s.harts[i]
    if h.vnota = 0#64 then .done s e
    else
      match engineWrite (e.who s i 1 0) .aux 0x03 h.vnota.toNat (wordLe h.ncnt) (fun a => .store i (BitVec.ofNat 64 a) 8) e.total s e with
      | .ok _ s e => .done s e
      | .block s e => .block s e
      | .trap t => .fault s e ⟨t.cause, h.vnota⟩

/-- A vector store up to `hi` (R482 to R485). -/
def runStore (i : Fin 4) (mode : VMode) (mw : BitVec 2) (notify sc : Bool) (p : QEntry) (hi : Nat) (s : State) : Ran :=
  if sc && !s.scReady i p then .block s p
  else
    let c := p.cap
    let w := memBits c.et mw
    let s := s.modHart i fun h =>
      (if mode.isIndexed && c.vl ≠ 0 then h.relayAll (idxType c.et) c.lmap [p.post.b] else h)
    let vi := s.harts[i].readAs p.post.b (idxType c.et) c.lmap
    let s := s.modHart i fun h => if p.total = 0 then h else h.relayAll c.et c.lmap [p.post.d]
    let vs := s.harts[i].readAs p.post.d c.et c.lmap
    let h := s.harts[i]
    let ts := ((List.range (hi - p.prog)).map (p.prog + ·)).filter fun t => c.active h (t / c.vl) (t % c.vl)
    let loose := mode ≠ .ordered && !sc && w ≠ 4 && !h.maskBusy p && anyOverlap (elemAddr mode p vi w) ((w + 7) / 8) ts
    let (s, e, stop) :=
      if loose then
        let r := storeAny i mode w vi vs ts s p
        match r.2 with
        | some x => (r.1, { p with prog := x.1 }, Stop.trap x.2)
        | none => (r.1, { p with prog := max p.prog hi }, Stop.finished)
      else storeLoop i mode w sc vi vs hi (hi + 1) s p
    match stop with
    | .finished => if p.total ≤ e.prog then (if notify then notifyStep i s e else .done s e) else .part s e
    | .blocked => .block s e
    | .trap t => .fault s e t

/-! ### Mask loads and stores (R488) -/

/-- Bytes of a mask row that an instruction of VL elements touches. -/
def maskBytes (vl : Nat) : Nat := (vl + 7) / 8

/-- Where the byte that holds bit t of a mask stands: its VA, and the bytes from it to the end of its row or 256-byte block. -/
def maskSpan (p : QEntry) (t : Nat) : Nat × Nat :=
  let k := t / p.vl
  let j := t % p.vl / 8
  let va := (p.opa.toNat + 256 * k + j) % 2 ^ 64
  (va, if 2 ^ 63 ≤ va then min (maskBytes p.vl - j) (256 - va % 256) else 1)

/-- Bits of a mask row from bit `e0` on replaced by those of bytes, below VL. -/
def MReg.putBytes (m : MReg) (vl k e0 : Nat) (bs : List Byte) : MReg :=
  m.write vl 16 fun k' e =>
    if k' = k && decide (e0 ≤ e) && decide (e / 8 - e0 / 8 < bs.length) then
      some ((bs.getD (e / 8 - e0 / 8) 0#8).getLsbD (e % 8))
    else none

/-- Bytes of a mask row, bits at and above VL zero. -/
def MReg.getBytes (m : MReg) (vl k j n : Nat) : List Byte :=
  let row := ((m[k]?.getD 0#2048).toNat % 2 ^ vl)
  natLe n (row / 2 ^ (8 * j))

/-- The first bit after a span that begins at bit t. -/
def maskNext (p : QEntry) (t n : Nat) : Nat :=
  let k := t / p.vl
  min (k * p.vl + (t % p.vl / 8 + n) * 8) ((k + 1) * p.vl)

/-- Who makes the accesses of a span of `vlm` or `vsm`: pass j of a row lies in held lane group j mod g (R488). -/
def QEntry.maskWho (e : QEntry) (s : State) (i : Fin 4) : Who := e.who s i 0 (laneOf e.cap.lmap 1 (e.prog % e.vl))

/-- The spans of `vlm`. -/
def vlmLoop (i : Fin 4) (hi : Nat) : Nat → State → QEntry → State × QEntry × Stop
  | 0, s, e => (s, e, .finished)
  | fuel + 1, s, e =>
    if hi ≤ e.prog then (s, e, .finished)
    else
      let sp := maskSpan e e.prog
      match engineRead i (e.maskWho s i) .vector 0x01 sp.1 sp.2 s e with
      | .trap t => (s, e.dropRead, .trap ⟨t.cause, BitVec.ofNat 64 sp.1⟩)
      | .block s e => (s, e, .blocked)
      | .ok bs s e =>
        let md : MNum := e.post.d.setWidth 3
        let s := s.modHart i fun h => h.setMask md ((h.mask md).putBytes e.vl (e.prog / e.vl) (e.prog % e.vl) bs)
        vlmLoop i hi fuel s { e with prog := maskNext e e.prog sp.2 }

/-- The spans of `vsm`. -/
def vsmLoop (i : Fin 4) (hi : Nat) : Nat → State → QEntry → State × QEntry × Stop
  | 0, s, e => (s, e, .finished)
  | fuel + 1, s, e =>
    if hi ≤ e.prog then (s, e, .finished)
    else
      let sp := maskSpan e e.prog
      let bs := (s.harts[i].mask (e.post.d.setWidth 3)).getBytes e.vl (e.prog / e.vl) (e.prog % e.vl / 8) sp.2
      match engineWrite (e.maskWho s i) .vector 0x03 sp.1 bs (fun a => .store i (BitVec.ofNat 64 a) bs.length) e.prog s e with
      | .trap t => (s, e, .trap ⟨t.cause, BitVec.ofNat 64 sp.1⟩)
      | .block s e => (s, e, .blocked)
      | .ok _ s e => vsmLoop i hi fuel s { e with prog := maskNext e e.prog sp.2 }

/-- `vlm` or `vsm` up to bit `hi`. -/
def runMaskMem (store : Bool) (i : Fin 4) (p : QEntry) (hi : Nat) (s : State) : Ran :=
  let (s, e, stop) := if store then vsmLoop i hi (hi + 1) s p else vlmLoop i hi (hi + 1) s p
  match stop with
  | .finished => if p.total ≤ e.prog then .done s e else .part s e
  | .blocked => .block s e
  | .trap t => .fault s e t

/-! ### Strips (R489 to R491) -/

/-- The address of element n of a stream, and whether it is a high nibble: n is the element's number or its index (R489). -/
def streamAddr (b : Binding) (n : Nat) : Nat × Bool :=
  let d := Int.ofNat n * b.stride.toInt
  if etNibble b.et then (((Int.ofNat b.base.toNat + d / 2) % 2 ^ 64).toNat, d % 2 = 1)
  else (((Int.ofNat b.base.toNat + d) % 2 ^ 64).toNat, false)

/-- Fetch the elements of one strip: those fetched so far stand in `got`; an index waits in `aux` (R489, R491). -/
def stripLoop (i : Fin 4) : Nat → State → QEntry → Strip → State × QEntry × Strip × Stop
  | 0, s, e, x => (s, e, x, .finished)
  | fuel + 1, s, e, x =>
    if x.count ≤ x.got.length then (s, e, x, .finished)
    else if let some t := x.trap then (s, e.dropRead, { x with trap := none }, .trap t)
    else
      let b := x.bind
      let el := x.first + x.got.length
      let wh := e.who s i 3 0
      let data (n : Nat) (s : State) (e : QEntry) : State × QEntry × Strip × Stop :=
        let (va, high) := streamAddr b n
        match engineRead i wh (if b.pointer then .pointer else .engine) 0x01 va ((etBits b.et + 7) / 8) s e with
        | .trap t => (s, { e.dropRead with aux := 0 }, x, .trap ⟨t.cause, BitVec.ofNat 64 va⟩)
        | .block s e => (s, e, x, .blocked)
        | .ok bs s e =>
          let v := leNat bs
          let v := if etNibble b.et then (if high then v / 16 else v % 16) else v
          stripLoop i fuel s { e with aux := 0 } { x with got := x.got ++ [v] }
      if b.index = 0#64 then data el s e
      else if e.aux ≠ 0 then data (e.aux - 1) s e
      else
        let va := (b.index.toNat + 4 * el) % 2 ^ 64
        match engineRead i wh (if b.pointer then .pointer else .engine) 0x01 va 4 s e with
        | .trap t => (s, e.dropRead, x, .trap ⟨t.cause, BitVec.ofNat 64 va⟩)
        | .block s e => (s, { e with aux := 0 }, x, .blocked)
        | .ok bs s e => data (leNat bs) s { e with aux := leNat bs + 1 }

/-- Fetch every strip of an entry, oldest first. -/
def stripsLoop (i : Fin 4) : List Strip → State → QEntry → List Strip → State × QEntry × List Strip × Stop
  | [], s, e, acc => (s, e, acc, .finished)
  | x :: xs, s, e, acc =>
    match stripLoop i (x.count + 1) s e x with
    | (s, e, x, .finished) => stripsLoop i xs s e (acc ++ [x])
    | (s, e, x, st) => (s, e, acc ++ x :: xs, st)

/-- The strips of a popping instruction come into their registers, tagged as a load would tag them, before its first pass; a
fault is delivered at the instruction, and no pass of it enters (R364, R491). -/
def fetchStrips (i : Fin 4) (s : State) (e : QEntry) : Ran :=
  match stripsLoop i e.strips s e [] with
  | (s, e, xs, .finished) =>
    let l := vtGroups e.vtype
    let put (h : Hart) (x : Strip) : Hart :=
      h.setVreg x.reg ((x.got.zipIdx).foldl (fun r v => r.setElem (etBits x.bind.et) 0 v.2 v.1)
        ((h.vreg x.reg).dest x.bind.et l x.count 1 true))
    .done (s.modHart i fun h => xs.foldl put h) { e with strips := [] }
  | (s, e, xs, .blocked) => .block s { e with strips := xs }
  | (s, e, xs, .trap t) => .fault (s.modHart i Hart.dropStrips) { e with strips := xs } t

/-! ### Vector atomics (R596 to R599) -/

/-- One element of a vector atomic: the old value. -/
def amoElem (op : AmoOp) (i : Fin 4) (va n b : Nat) (wh : Who) (s : State) (e : QEntry) : Got :=
  match e.remote with
  | .waiting _ => .block s e
  | .answered st data =>
    if st ≠ 0 then .trap (remoteTrap st (BitVec.ofNat 64 va)) else .ok (slice data 0 n) s { e with remote := .none }
  | .none =>
    match s.atomicAt wh va n (fun old => amoNew op n old b 0) with
    | .ok old s => .ok (natLe n old) s e
    | .trap t => .trap t
    | .busy => .block s e
    | .fifo _ => .trap ⟨cPROT, BitVec.ofNat 64 va⟩
    | .fabric _ _ =>
      let r := s.sendReq wh 0x05 (BitVec.ofNat 19 (va / 2 ^ 44)) (amoSpec op (if n = 8 then 1#1 else 0#1) 0#1 0#1 0#3)
        (BitVec.ofNat 64 (va % 2 ^ 44)) (natLe 8 b ++ natLe 8 0) (.elem i e.eid) 0#8
      .block r.1 { e with remote := .waiting r.2 }

/-- The elements of a vector atomic, one after another (R598). -/
def amoLoop (op : AmoOp) (i : Fin 4) (vi : VReg) (opnd : Nat → Nat) (hi : Nat) :
    Nat → State → QEntry → List (Nat × Nat) → State × QEntry × List (Nat × Nat) × Stop
  | 0, s, e, acc => (s, e, acc, .finished)
  | fuel + 1, s, e, acc =>
    let t := e.prog
    let c := e.cap
    let h := s.harts[i]
    if hi ≤ t then (s, e, acc, .finished)
    else if h.maskWait e (t / c.vl) (t % c.vl) then (s, e, acc, .blocked)
    else if !c.active h (t / c.vl) (t % c.vl) then amoLoop op i vi opnd hi fuel s { e with prog := t + 1 } acc
    else
      let va := elemAddr .indexed e vi c.bits t
      let n := c.bits / 8
      if va % n ≠ 0 then (s, e, acc, .trap ⟨cALIGN, BitVec.ofNat 64 va⟩)
      else
        match amoElem op i va n (opnd t) (e.who s i 0 (laneOf c.lmap c.bits (t % c.vl))) s e with
        | .trap tr => (s, e.dropRead, acc, .trap ⟨tr.cause, BitVec.ofNat 64 va⟩)
        | .block s e => (s, e, acc, .blocked)
        | .ok bs s e => amoLoop op i vi opnd hi fuel s { e with prog := t + 1 } (acc ++ [(t, leNat bs)])

/-- A vector atomic up to `hi`: vd gives the operands and takes the old values. -/
def runAmo (op : AmoOp) (i : Fin 4) (p : QEntry) (hi : Nat) (s : State) : Ran :=
  let c := p.cap
  let s := s.modHart i fun h => (h.relayAll (idxType c.et) c.lmap [p.post.b]).relayAll c.et c.lmap [p.post.d]
  let vi := s.harts[i].readAs p.post.b (idxType c.et) c.lmap
  let vd := s.harts[i].readAs p.post.d c.et c.lmap
  let (s, e, vals, stop) := amoLoop op i vi (fun t => vd.elem c.bits (t / c.vl) (t % c.vl)) hi (hi + 1) s p []
  let s := s.modHart i fun h =>
    (h.setVreg p.post.d (putLoaded ((h.vreg p.post.d).dest c.et c.lmap c.vl c.vrows (c.covers p.first)) c.bits c.vl id vals)).setVpi
      p.post.d e.prog
  match stop with
  | .finished => if p.total ≤ e.prog then .done s e else .part s e
  | .blocked => .block s e
  | .trap t => .fault s e t

/-! ### Scatter-accumulate (R600 to R603) -/

/-- The combine of two values of an entry's type (R600). -/
def scaCombine (op : ScaOp) (et : ETCode) (a b : Nat) : Nat :=
  let w := etBits et
  match etFmt et, op with
  | some f, .max => (fpMinMax f true a b).1
  | some f, .min => (fpMinMax f false a b).1
  | some f, _ => (fpAdd f .rne a b).1
  | none, .max => if etSigned et then (if sval w a < sval w b then b else a) else max a b
  | none, .min => if etSigned et then (if sval w b < sval w a then b else a) else min a b
  | none, _ => (a + b) % 2 ^ w

/-- The SCAREQ combine code (R64). -/
def scaCode : ScaOp → Nat
  | .add => 0 | .max => 1 | .min => 2 | .ordered => 3

/-- An entry on its way: element index, address and value. -/
structure ScaEntry where
  index : Nat
  va : Nat
  value : Nat
  deriving DecidableEq, Repr

/-- Pre-combine an element into the entries of its instruction (R601). -/
def scaMerge (op : ScaOp) (et : ETCode) (es : List ScaEntry) (x : ScaEntry) : List ScaEntry :=
  if op ≠ .ordered && es.any (·.va = x.va) then
    es.map fun y => if y.va = x.va then { y with value := scaCombine op et y.value x.value } else y
  else es ++ [x]

/-- The home die of a place (R13, R313): that of its stack, or of its scratchpad. -/
def homeDie (k : Nat) : Nat := if 2 ^ 44 ≤ k then (k - 2 ^ 44) / 2 ^ 25 else stackOf k

/-- The pending entries of a die's combining store, the latest first (R603). -/
def State.scaOf (s : State) (die : Nat) : List ScaPending := s.mem.sca.filter fun e => homeDie e.key = die

/-- Apply the pending entries of the element that has waited longest in the combining store of a die (R603). -/
def State.applyOldest (s : State) (w : Who) (die : Nat) : State :=
  match (s.scaOf die).getLast? with
  | none => s
  | some x =>
    let mine := s.mem.sca.filter (·.key = x.key)
    State.applyElement { s with mem := { s.mem with sca := s.mem.sca.filter (·.key ≠ x.key) } } w x mine

/-- The error entry of a scatter-accumulate entry (R372, R373). -/
def scaError (s : State) (ctxid st index : Nat) (va : Nat) (h : Option (Fin 4)) (pc : Word) (value : List Byte) : ErrEntry :=
  { va := BitVec.ofNat 64 va, peer := s.fab.epid, itag := itagOf pc, kind := 2, st := st, attr := 0#8, hart := h,
    job := s.jobOf ctxid, aux := index, data := value }

/-- Insert an ordered entry into the combining store of its home die; a full store first applies its oldest element and says so (R603). -/
def State.insertSca (s : State) (w : Who) (x : ScaPending) : State :=
  let s1 :=
    if 32768 ≤ (s.scaOf (homeDie x.key)).length then
      (s.applyOldest w (homeDie x.key)).errorToCollector x.ctxid (scaError s x.ctxid 0 x.index x.va none 0#64 [])
    else s
  { s1 with mem := { s1.mem with sca := x :: s1.mem.sca } }

/-- One entry at its home (R602, R603): the status of R72, 0 when it has performed. -/
def State.scaHome (s : State) (w : Who) (op : ScaOp) (et : ETCode) (grank : BitVec 32) (x : ScaEntry) : Nat × State :=
  let n := etBits et / 8
  match s.locate w x.va n .atomic .atomic with
  | .error t => ((if t.cause == cPROT then 2 else if t.cause == cECC then 3 else 1), s)
  | .ok (l, s) =>
    let place : Option (Nat × Bool × Bool × Nat) :=
      match l with | .hbm k enc p g => some (k, enc, p, g) | .spad k => some (k, true, false, 0) | _ => none
    match place with
    | none => (2, s)
    | some (k, enc, p, g) =>
      if op = .ordered then
        (0, s.insertSca w ⟨k, et, x.value, grank, x.index, enc, p, g, x.va, w.ctxid⟩)
      else
        match s.readKey w enc k n with
        | (none, s) => (3, s)
        | (some bs, s) =>
          match s.writeKey w enc p g x.va k (natLe n (scaCombine op et (leNat bs) x.value)) with
          | some s => (0, s)
          | none => (3, s)

/-- The active elements from the progress index up to the lowest failing one, as entries; the failure where there is one
(R601). -/
def scaGather (op : ScaOp) (i : Fin 4) (vi vs : VReg) (hi : Nat) :
    Nat → State → QEntry → List ScaEntry → State × QEntry × List ScaEntry × Stop
  | 0, s, e, acc => (s, e, acc, .finished)
  | fuel + 1, s, e, acc =>
    let t := e.prog
    let c := e.cap
    let h := s.harts[i]
    if hi ≤ t then (s, e, acc, .finished)
    else if h.maskWait e (t / c.vl) (t % c.vl) then (s, e, acc, .blocked)
    else if !c.active h (t / c.vl) (t % c.vl) then scaGather op i vi vs hi fuel s { e with prog := t + 1 } acc
    else
      let va := elemAddr .indexed e vi c.bits t
      let n := c.bits / 8
      if va % n ≠ 0 then (s, e, acc, .trap ⟨cALIGN, BitVec.ofNat 64 va⟩)
      else
        match s.locate (e.who s i 0 0) va n .atomic .atomic with
        | .error tr => (s, e, acc, .trap ⟨tr.cause, BitVec.ofNat 64 va⟩)
        | .ok (l, s) =>
          if l.isBusy then (s, e, acc, .blocked)
          else
            scaGather op i vi vs hi fuel s { e with prog := t + 1 }
              (scaMerge op c.et acc ⟨t, va, vs.elem c.bits (t / c.vl) (t % c.vl)⟩)

/-- One SCAREQ of at most 16 entries to one home (R64, R601). -/
def sendSca (i : Fin 4) (op : ScaOp) (e : QEntry) (s : State) (es : List ScaEntry) : State :=
  match es with
  | [] => s
  | x :: _ =>
    let beat (y : ScaEntry) : List Byte := natLe 8 (y.va % 2 ^ 44 + y.index * 2 ^ 44) ++ natLe 8 y.value
    (s.sendReq (e.who s i 0 (laneOf e.cap.lmap e.cap.bits (x.index % e.cap.vl))) 0x07 (BitVec.ofNat 19 (x.va / 2 ^ 44))
      (BitVec.ofNat 16 (scaCode op + 16 * e.cap.et.toNat)) (s.harts[i].grank.setWidth 64) (es.flatMap beat)
      (.sca i (etBits (vtEt e.vtype) / 8) (es.map fun y => (y.index, BitVec.ofNat 64 y.va))) 0#8).1

/-- A list in pieces of at most 16. -/
def chunks16 {α : Type} : Nat → List α → List (List α)
  | 0, _ => []
  | n + 1, l => if l.isEmpty then [] else l.take 16 :: chunks16 n (l.drop 16)

/-- What a scatter-accumulate instruction sends at last (R601): remote entries go out in SCAREQs, local ones perform. -/
def sendEntries (op : ScaOp) (i : Fin 4) (s : State) (e : QEntry) (es : List ScaEntry) : State :=
  let homes := (es.filter fun x => 2 ^ 63 ≤ x.va).foldl (fun l x => if l.contains (x.va / 2 ^ 44) then l else l ++ [x.va / 2 ^ 44]) []
  let s := homes.foldl (fun s ep =>
    (chunks16 (es.length + 1) (es.filter fun x => x.va / 2 ^ 44 = ep)).foldl (sendSca i op e) s) s
  (es.filter fun x => x.va < 2 ^ 63).foldl (fun s x =>
    let r : Nat × State := s.scaHome (e.who s i 0 0) op e.cap.et s.harts[i].grank x
    if r.1 = 0 then r.2
    else r.2.errorTo i (scaError r.2 s.harts[i].ctxid.toNat r.1 x.index x.va (some i) e.pc (natLe 8 x.value))) s

/-- A scatter-accumulate instruction up to `hi` (R601). It sends nothing while an element of it still waits. -/
def runSca (op : ScaOp) (i : Fin 4) (p : QEntry) (hi : Nat) (s : State) : Ran :=
  let c := p.cap
  let s := s.modHart i fun h => (h.relayAll (idxType c.et) c.lmap [p.post.b]).relayAll c.et c.lmap [p.post.d]
  let vi := s.harts[i].readAs p.post.b (idxType c.et) c.lmap
  let vs := s.harts[i].readAs p.post.d c.et c.lmap
  let (s, e, es, stop) := scaGather op i vi vs hi (hi + 1) s p []
  match stop with
  | .finished => if p.total ≤ e.prog then .done (sendEntries op i s e es) e else .part (sendEntries op i s e es) e
  | .blocked => .block s p
  | .trap t => .fault (sendEntries op i s e es) e t

end Sys2Proof.Machine
end

