-- ==== Sys2Proof/Machine/Fibre.lean ====
section
/-! DEFINITION. What the fibre instructions do (chapter 21): set operations over coordinate-value pairs, moves between vectors
and fibres, and the reads and writes of compressed levels. -/

namespace Sys2Proof.Machine

/-! ### Fibres as operands and results (R548, R551) -/

/-- The entries of a fibre; one that is not VALID reads as OCC 0 (R548). -/
def FReg.read (f : FReg) : List (Nat × Nat) := if f.valid then f.entries else []

/-- Set ESTATUS.FOVF (R260). -/
def Hart.setFovf (h : Hart) : Hart := { h with estatus := h.estatus ||| 4#3 }

/-- The relayout of a fibre input; FOVF when entries are discarded (R249). -/
def Hart.relayF (h : Hart) (n : FNum) (l : BitVec 4) : Hart :=
  let r := (h.freg n).relaid l
  let h1 := h.setFreg n r.1
  if r.2 then h1.setFovf else h1

/-- What a set operation came to: its entries, its flags, and the cursors of an overflow (R551). -/
structure FibOut where
  ents : List (Nat × Nat)
  flags : Flags
  ovf : Option Nat
  deriving DecidableEq, Repr

/-- The fibre register numbers of a posted instruction. -/
def QEntry.fd (p : QEntry) : FNum := p.post.d.setWidth 4
/-- The first fibre input. -/
def QEntry.fa (p : QEntry) : FNum := p.post.a.setWidth 4
/-- The second fibre input. -/
def QEntry.fb (p : QEntry) : FNum := p.post.b.setWidth 4

/-- The overflow of R551: FOVF, and VSTART takes the cursors. -/
def Hart.overflow (h : Hart) (ovf : Option Nat) : Hart :=
  match ovf with
  | none => h
  | some c => { h.setFovf with vstart := BitVec.ofNat 32 c }

/-- A result fibre written, with its flags and its overflow (R547, R548, R551). -/
def Hart.putFib (h : Hart) (n : FNum) (et : ETCode) (l : BitVec 4) (o : FibOut) : Hart :=
  ((h.setFreg n (fregOf et l o.ents)).raise o.flags).overflow o.ovf

/-! ### Combine codes (R547) -/

/-- The combine of two values of a type, with its flags. -/
def fibCombine (c : Nat) (et : ETCode) (a b : Nat) : Flagged :=
  let w := etBits et
  let f := fmtEt et
  let less (x y : Nat) : Bool := if etSigned et then decide (sval w x < sval w y) else decide (x < y)
  match c with
  | 0 => if etArith et then fpMul f .rne a b else ((a * b) % 2 ^ w, 0#5)
  | 1 => if etArith et then fpAdd f .rne a b else ((a + b) % 2 ^ w, 0#5)
  | 2 => (a, 0#5)
  | 3 => (b, 0#5)
  | 4 => if etArith et then fpMinMax f false a b else (if less b a then b else a, 0#5)
  | _ => if etArith et then fpMinMax f true a b else (if less a b then b else a, 0#5)

/-- The ranking of `fmerge` (R553): NaN-low for the types that R547 treats as floating point, else as integers. -/
def fibRank (et : ETCode) (a b : Nat) : Int :=
  if etArith et then nanLowCmp (fmtEt et) a b
  else
    let x : Int := if etSigned et then sval (etBits et) a else Int.ofNat a
    let y : Int := if etSigned et then sval (etBits et) b else Int.ofNat b
    if x < y then -1 else if y < x then 1 else 0

/-- tie(c) of R553: whether fb's entry comes first. -/
def tieB (c : Nat) (et : ETCode) (va vb : Nat) : Bool :=
  decide (c = 3) || (decide (c = 4) && decide (fibRank et vb va < 0)) || (decide (c = 5) && decide (0 < fibRank et vb va))

/-! ### Set operations (R553 to R555) -/

/-- The sides of R553. -/
inductive Side where
  | a | b | e
  deriving DecidableEq, Repr

/-- The side of two cursors (R553). -/
def sideOf (op : FibOp) (c : Nat) (et : ETCode) (as bs : List (Nat × Nat)) (i j : Nat) : Side :=
  let x := as.getD i (0, 0)
  let y := bs.getD j (0, 0)
  if j = bs.length then .a
  else if i = as.length then .b
  else if x.1 < y.1 then .a
  else if y.1 < x.1 then .b
  else if op = .merge then (if tieB c et x.2 y.2 then .b else .a)
  else .e

/-- The entry that the table of R553 gives a side, with its flags. -/
def sideEntry (op : FibOp) (c : Nat) (et : ETCode) (x y : Nat × Nat) : Side → Option ((Nat × Nat) × Flags)
  | .a => if op = .isect then none else some (x, 0#5)
  | .b => if op = .union || op = .merge then some (y, 0#5) else none
  | .e => if op = .diff then none else let z := fibCombine c et x.2 y.2; some ((x.1, z.1), z.2)

/-- The cursors of two inputs in the layout of R550. -/
def cursors (i j : Nat) : Nat := i + 65536 * j

/-- The merge of R553. -/
def mergeLoop (op : FibOp) (c : Nat) (et : ETCode) (fmax : Nat) (as bs : List (Nat × Nat)) :
    Nat → Nat → Nat → FibOut → FibOut
  | 0, _, _, o => o
  | fuel + 1, i, j, o =>
    if as.length ≤ i && bs.length ≤ j then o
    else if op = .isect && (as.length ≤ i || bs.length ≤ j) then o
    else if op = .diff && as.length ≤ i then o
    else
      let sd := if bs.length ≤ j then Side.a else if as.length ≤ i then Side.b else sideOf op c et as bs i j
      let i' := if sd = .b then i else i + 1
      let j' := if sd = .a then j else j + 1
      match sideEntry op c et (as.getD i (0, 0)) (bs.getD j (0, 0)) sd with
      | none => mergeLoop op c et fmax as bs fuel i' j' o
      | some (x, fl) =>
        if fmax ≤ o.ents.length then { o with ovf := some (cursors i j) }
        else mergeLoop op c et fmax as bs fuel i' j' { o with ents := o.ents ++ [x], flags := o.flags ||| fl }

/-- Insert an entry behind those of equal or smaller coordinate. -/
def insertEntry (x : Nat × Nat) : List (Nat × Nat) → List (Nat × Nat)
  | [] => [x]
  | y :: ys => if y.1 ≤ x.1 then y :: insertEntry x ys else x :: y :: ys

/-- The entries in increasing coordinate; equal coordinates keep their order (R554). -/
def sortEntries (es : List (Nat × Nat)) : List (Nat × Nat) := es.foldl (fun l x => insertEntry x l) []

/-- Whether a value is zero for `fcompact` (R554). -/
def fibZero (et : ETCode) (v : Nat) : Bool := !elemNonzero et v

/-- `fcompact` from a cursor (R554). -/
def compactLoop (et : ETCode) (act : Nat → Bool) (fmax : Nat) : List (Nat × Nat) → Nat → FibOut → FibOut
  | [], _, o => o
  | x :: xs, j, o =>
    if act j && !fibZero et x.2 then
      if fmax ≤ o.ents.length then { o with ovf := some j }
      else compactLoop et act fmax xs (j + 1) { o with ents := o.ents ++ [x] }
    else compactLoop et act fmax xs (j + 1) o

/-- The runs of equal coordinates from a cursor, folded in entry order: first cursor, entry, flags (R554). -/
def dedupRuns (c : Nat) (et : ETCode) (es : List (Nat × Nat)) (j : Nat) : List (Nat × (Nat × Nat) × Flags) :=
  es.zipIdx.foldl (fun (acc : List (Nat × (Nat × Nat) × Flags)) y =>
    match acc.getLast? with
    | some (k, (cd, v), fl) =>
      if cd = y.1.1 then
        let z := fibCombine c et v y.1.2
        acc.dropLast ++ [(k, (cd, z.1), fl ||| z.2)]
      else acc ++ [(j + y.2, y.1, 0#5)]
    | none => [(j + y.2, y.1, 0#5)]) []

/-- `fdedup` (R554). -/
def dedupOut (fmax : Nat) (base : List (Nat × Nat)) (runs : List (Nat × (Nat × Nat) × Flags)) : FibOut :=
  runs.foldl (fun o r =>
    if o.ovf.isSome then o
    else if fmax ≤ o.ents.length then { o with ovf := some r.1 }
    else { o with ents := o.ents ++ [r.2.1], flags := o.flags ||| r.2.2 }) ⟨base, 0#5, none⟩

/-- The entries of one word pair of `fisectb` (R555). -/
def wordPair (ca a b : Nat) : List (Nat × Nat) :=
  let x := a &&& b
  (((List.range 64).filter x.testBit).zipIdx).map fun t =>
    ((64 * ca + t.1) % 2 ^ 32, popc 64 (a % 2 ^ t.1) + 64 * popc 64 (b % 2 ^ t.1) + (if t.2 = 0 then 4096 else 0))

/-- `fisectb` (R555). -/
def isectbLoop (fmax : Nat) (as bs : List (Nat × Nat)) : Nat → Nat → Nat → FibOut → FibOut
  | 0, _, _, o => o
  | fuel + 1, i, j, o =>
    if as.length ≤ i || bs.length ≤ j then o
    else
      let x := as.getD i (0, 0)
      let y := bs.getD j (0, 0)
      if x.1 < y.1 then isectbLoop fmax as bs fuel (i + 1) j o
      else if y.1 < x.1 then isectbLoop fmax as bs fuel i (j + 1) o
      else
        let w := wordPair x.1 x.2 y.2
        if fmax < o.ents.length + w.length then { o with ovf := some (cursors i j) }
        else isectbLoop fmax as bs fuel (i + 1) (j + 1) { o with ents := o.ents ++ w }

/-- Whether an instruction of major 0x2D has a second fibre input. -/
def FibOp.twoIn (op : FibOp) : Bool := op == .isect || op == .isectb || op == .union || op == .merge || op == .diff

/-- The inputs of an instruction of major 0x2D, relaid (R548). -/
def Hart.relayIn (h : Hart) (op : FibOp) (p : QEntry) : Hart :=
  let h1 := h.relayF p.fa (vtGroups p.vtype)
  if op.twoIn then h1.relayF p.fb (vtGroups p.vtype) else h1

/-- The type of the result of an instruction of major 0x2D (R553 to R555). -/
def Hart.fbaType (h : Hart) (op : FibOp) (p : QEntry) : ETCode := if op = .isectb then 6#4 else (h.freg p.fa).et

/-- What an instruction of major 0x2D comes to with relaid inputs, where its result holds `mx` entries (R553 to R555). -/
def Hart.fbaOut (h : Hart) (op : FibOp) (mx : Nat) (p : QEntry) : FibOut :=
  let et := (h.freg p.fa).et
  let as := (h.freg p.fa).read
  let bs := (h.freg p.fb).read.map fun y => (y.1, y.2 % 2 ^ etBits et)
  let c := (p.post.word.extractLsb' 6 5).toNat
  let i := p.prog % 65536
  let j := p.prog / 65536 % 65536
  let fuel := as.length + bs.length + 2
  let o : FibOut := ⟨p.ents, 0#5, none⟩
  match op with
  | .sort => ⟨sortEntries as, 0#5, none⟩
  | .compact => compactLoop et (fun j => p.cap.active h 0 j) mx (as.drop i) i o
  | .dedup => dedupOut mx p.ents (dedupRuns c et (as.drop i) i)
  | .isectb => isectbLoop mx as bs fuel i j o
  | op => mergeLoop op c et mx as bs fuel i j o

/-- An instruction of major 0x2D (R553 to R555): it reads its inputs, relaid (R548), and writes fd. -/
def runFba (op : FibOp) (p : QEntry) (h : Hart) : Hart :=
  let l := vtGroups p.vtype
  let h1 := h.relayIn op p
  let et := h1.fbaType op p
  h1.putFib p.fd et l (h1.fbaOut op (fmaxOf et l) p)

/-- Whether the intersect unit may stop an instruction of major 0x2D before its end (R552). -/
def QEntry.stoppable (op : FibOp) (p : QEntry) : Bool :=
  (op.twoIn || op == .compact || op == .dedup) && p.fd != p.fa && !(op.twoIn && p.fd == p.fb)

/-- An instruction of major 0x2D stopped before the entry that would follow `n` entries: those stand in fd, and its progress is the first input
position not consumed (R552). None where it ends before. -/
def Hart.stopFba (h : Hart) (op : FibOp) (n : Nat) (p : QEntry) : Option (Hart × QEntry) :=
  let l := vtGroups p.vtype
  let h1 := h.relayIn op p
  let et := h1.fbaType op p
  let o := h1.fbaOut op n p
  match o.ovf with
  | some c => if n < fmaxOf et l then some ((h1.setFreg p.fd (fregOf et l o.ents)).raise o.flags, { p with prog := c, ents := o.ents }) else none
  | none => none

/-- Whether the governing mask of `fcompact` or `fpack` still waits for a chunk of an older copy below element `n` (R220). -/
def Hart.fibMaskWait (h : Hart) (p : QEntry) (n : Nat) : Bool := h.maskBusy p && (List.range n).any fun e => h.maskWait p 0 e

/-! ### Between vectors and fibres (R557, R565) -/

/-- Append entries to a fibre up to FMAX, each with the cursor of its input position (R551). -/
def appendUpTo (fmax : Nat) (base : List (Nat × Nat)) (es : List (Nat × (Nat × Nat))) : FibOut :=
  { ents := base ++ ((es.take (fmax - base.length)).map (·.2)), flags := 0#5,
    ovf := (es[fmax - base.length]?).map (·.1) }

/-- The entries of `fbm` over the words of a row: each set bit with the number of set bits below it (R557). -/
def bitEntries (words : List Nat) : List (Nat × Nat) :=
  ((words.zipIdx.flatMap fun x => ((List.range 64).filter x.1.testBit).map fun i => 64 * x.2 + i).zipIdx)

/-- The highest-indexed entry with coordinate `e`, or 0 (R557). -/
def expandAt (es : List (Nat × Nat)) (e : Nat) : Nat := es.foldl (fun v x => if x.1 = e then x.2 else v) 0

/-- The row that a lane instruction writes into vd, at a type, and the element function (R557). -/
def Hart.putRow (h : Hart) (n : VNum) (et : ETCode) (l : BitVec 4) (vl : Nat) (covers : Bool) (f : Nat → Option Nat) : Hart :=
  let v := min vl (vlmaxOf (groupCount l) et)
  if v = 0 then h
  else (h.setVreg n (((h.vreg n).dest et l vl 1 covers).write (etBits et) v 1 fun _ e => f e)).setVpi n vl

/-- What a strip of `fsetl` came to (R565). -/
structure StripOut where
  j : Nat
  off : Nat
  n : Nat
  done : Nat
  tail : Bool
  starts : List Nat
  deriving DecidableEq, Repr

/-- The loop of `fsetl` over the lengths (R565). -/
def setlLoop (lens : List Nat) (vlmax : Nat) : Nat → StripOut → StripOut
  | 0, o => o
  | fuel + 1, o =>
    if lens.length ≤ o.j || vlmax ≤ o.n then o
    else
      let n := min (lens.getD o.j 0) 65535 - o.off
      if n = 0 then setlLoop lens vlmax fuel { o with j := o.j + 1, off := 0, done := o.done + 1 }
      else if vlmax - o.n < n then
        if 0 < o.n then o
        else { o with starts := [0], n := vlmax, off := o.off + vlmax, tail := true }
      else
        setlLoop lens vlmax fuel
          { o with starts := o.starts ++ [o.n], n := o.n + n, j := o.j + 1, off := 0, done := o.done + 1 }

/-- `fsetl` (R565): VL, VSEG, row 0 of mS, and its scalar result. -/
def runSetl (p : QEntry) (h : Hart) : Hart × Option Word :=
  let l := vtGroups p.vtype
  let h1 := h.relayF p.fa l
  let lens := (h1.freg p.fa).read.map (·.2)
  let vlmax := vlmaxOf (groupCount l) p.cap.et
  let off := p.prog / 65536 % 65536
  let o := setlLoop lens vlmax (lens.length + 1) ⟨p.prog % 65536, off, 0, 0, false, []⟩
  let m := h1.mask p.post.m
  let row := (List.range vlmax).foldl (fun (r : MaskRow) e =>
    let bit : MaskRow := 1#2048 <<< e
    if o.starts.contains e then r ||| bit else r &&& ~~~bit) m[0]
  let h2 := h1.setMask p.post.m (m.set 0 row)
  let x := o.j + o.off * 65536 + o.done * 2 ^ 32 + (if o.tail then 2 ^ 62 else 0) + (if 0 < off then 2 ^ 63 else 0)
  ({ h2 with vl := o.n, vseg := 1#1 ++ p.post.m }, some (BitVec.ofNat 64 x))

/-- A lane instruction of major 0x2E other than `fld` and `fst` (R557): the hart after it, and its scalar result. -/
def runFbl (op : FibOp) (p : QEntry) (h : Hart) : Hart × Option Word :=
  let c := p.cap
  let l := c.lmap
  let cur := p.prog % 65536
  let hf := h.relayF p.fa l
  let fa := hf.freg p.fa
  let es := fa.read
  match op with
  | .pack =>
    let h1 := h.relayAll c.et l p.post.vsrc
    let va := h1.vreg p.post.a
    let items := ((List.range c.vl).filter fun e => decide (cur ≤ e) && c.active h1 0 e).map fun e => (e, (e, va.elem c.bits 0 e))
    (h1.putFib p.fd c.et l (appendUpTo (fmaxOf c.et l) [] items), none)
  | .bm =>
    let h1 := h.relayAll c.et l p.post.vsrc
    let va := h1.vreg p.post.a
    let items := (bitEntries ((List.range c.vl).map fun e => va.elem 64 0 e)).filter fun x => decide (cur ≤ x.1)
    (h1.putFib p.fd 6#4 l (appendUpTo (fmaxOf 6#4 l) [] (items.map fun x => (x.1, x))), none)
  | .expand => (hf.putRow p.post.d fa.et l c.vl (c.covers 0) fun e => some (expandAt es e), none)
  | .coord => (hf.putRow p.post.d 6#4 l c.vl (c.covers 0) fun e => (es[e]?).map (·.1), none)
  | .val => (hf.putRow p.post.d fa.et l c.vl (c.covers 0) fun e => (es[e]?).map (·.2), none)
  | .occ => (hf, some (BitVec.ofNat 64 es.length))
  | .mv => (hf.setFreg p.fd (fregOf fa.et l es), none)
  | .clr => (h.setFreg p.fd (fregOf c.et l []), none)
  | .setl => runSetl p h
  | _ => (h, none)

/-! ### Compressed levels (R559 to R563) -/

/-- The fields of a level descriptor (R559). -/
structure LevelDesc where
  pos : Nat
  crd : Nat
  val : Nat
  npos : Nat
  et : ETCode
  deriving DecidableEq, Repr

/-- A descriptor from its 64 bytes as one number; none where it breaks R559. -/
def descOf (n : Nat) : Option LevelDesc :=
  let d : LevelDesc := ⟨bitsAt n 0 64, bitsAt n 64 64, bitsAt n 128 64, bitsAt n 192 64, BitVec.ofNat 4 (bitsAt n 256 4)⟩
  let bytes := (etBits d.et + 7) / 8
  if n / 2 ^ 260 ≠ 0 || 2 ^ 40 < d.npos || d.pos % 8 ≠ 0 || d.crd % 4 ≠ 0 || d.val % bytes ≠ 0 then none else some d

/-- The type of the values that `fld` and `fwalk` append (R548). -/
def LevelDesc.type (d : LevelDesc) : ETCode := if d.val = 0 then 6#4 else d.et

/-- One read of a fibre instruction. -/
inductive FRead where
  | ok (v : Nat) (s : State) (e : QEntry)
  | trap (s : State) (e : QEntry) (t : Trap)
  | block (s : State) (e : QEntry)
  deriving Repr

/-- The k-th read of the entry at work: from the memo when it has been made, else made now. -/
def memoRead (i : Fin 4) (w : Who) (path : AccPath) (k va n : Nat) (s : State) (e : QEntry) : FRead :=
  match e.memo[k]? with
  | some v => .ok v s e
  | none =>
    match engineRead i w path 0x01 (va % 2 ^ 64) n s e with
    | .ok bs s e => .ok (leNat bs) s { e with memo := e.memo ++ [leNat bs] }
    | .trap t => .trap s { e.dropRead with memo := [] } t
    | .block s e => .block s e

/-- The descriptor read, first of an instruction's reads (R559). -/
def readDesc (i : Fin 4) (w : Who) (path : AccPath) (s : State) (e : QEntry) : FRead :=
  if e.opa.toNat % 8 ≠ 0 then .trap s e ⟨cPROT, e.opa⟩
  else
    match memoRead i w path 0 e.opa.toNat 64 s e with
    | .ok v s e => if (descOf v).isNone then .trap s { e with memo := [] } ⟨cPROT, e.opa⟩ else .ok v s e
    | r => r

/-- Where value `n` of a level stands, and its bytes (R559, R232). -/
def LevelDesc.valAt (d : LevelDesc) (n : Nat) : Nat × Nat := (d.val + n * etBits d.et / 8, (etBits d.et + 7) / 8)

/-- A value from the bytes read for it. -/
def LevelDesc.pick (d : LevelDesc) (n v : Nat) : Nat :=
  if etNibble d.et then (if n % 2 = 0 then v % 16 else v / 16) else v

/-- The two reads of an entry of a level, the lower address first, so that a failure names the lowest (R563): its coordinate and
its value. -/
def readEntry (i : Fin 4) (w : Who) (path : AccPath) (k : Nat) (d : LevelDesc) (n : Nat) (s : State) (e : QEntry) :
    FRead × Nat × Nat :=
  let ca := (d.crd + 4 * n) % 2 ^ 64
  let va := (d.valAt n).1 % 2 ^ 64
  let vb := (d.valAt n).2
  if d.val = 0 then
    match memoRead i w path k ca 4 s e with
    | .ok c s e => (.ok 0 s e, c, n % 2 ^ 32)
    | r => (r, 0, 0)
  else
    let crdFirst := decide (ca < va)
    match memoRead i w path k (if crdFirst then ca else va) (if crdFirst then 4 else vb) s e with
    | .ok x s e =>
      (match memoRead i w path (k + 1) (if crdFirst then va else ca) (if crdFirst then vb else 4) s e with
      | .ok y s e => (.ok 0 s e, if crdFirst then (x, d.pick n y) else (y, d.pick n x))
      | r => (r, 0, 0))
    | r => (r, 0, 0)

/-- A stop of `fld` or `fwalk` at a trap: the entries so far stand in the result (R552). -/
def fibStop (i : Fin 4) (s : State) (e : QEntry) (d : Option LevelDesc) (t : Trap) : Ran :=
  let l := vtGroups e.vtype
  let s := s.modHart i fun h =>
    match d with
    | some d => h.setFreg e.fd (fregOf d.type l e.ents)
    | none => if e.ents.isEmpty then h.setFreg e.fd (fregOf 6#4 l []) else h
  .fault s { e with memo := [] } t

/-- The entries of `fld` (R560). -/
def fldLoop (i : Fin 4) (w : Who) (d : LevelDesc) (st n : Nat) : Nat → State → QEntry → Ran
  | 0, s, e => .block s e
  | fuel + 1, s, e =>
    let l := vtGroups e.vtype
    let finish (ovf : Option Nat) : Ran :=
      .done (s.modHart i fun h => h.putFib e.fd d.type l ⟨e.ents, 0#5, ovf⟩) e
    if n ≤ e.prog then finish none
    else if fmaxOf d.type l ≤ e.ents.length then finish (some e.prog)
    else
      match readEntry i w .vector 3 d (st + e.prog) s e with
      | (.ok _ s e, x) =>
        fldLoop i w d st n fuel s { e with ents := e.ents ++ [x], prog := e.prog + 1, memo := e.memo.take 3 }
      | (.trap s e t, _) => fibStop i s e (some d) t
      | (.block s e, _) => .block s e

/-- `fld` (R560). -/
def runFld (i : Fin 4) (p : QEntry) (s : State) : Ran :=
  let w := p.who s i 0 (laneOf (vtGroups p.vtype) 32 0)
  match readDesc i w .vector s p with
  | .trap s e t => fibStop i s e none t
  | .block s e => .block s e
  | .ok dn s e =>
    match descOf dn with
    | none => .block s e
    | some d =>
      let at_ := d.pos + 8 * e.opb.toNat
      if e.opb.toNat < d.npos then
        match memoRead i w .pointer 1 at_ 8 s e with
        | .trap s e t => fibStop i s e (some d) t
        | .block s e => .block s e
        | .ok a s e =>
          match memoRead i w .pointer 2 (at_ + 8) 8 s e with
          | .trap s e t => fibStop i s e (some d) t
          | .block s e => .block s e
          | .ok b s e => fldLoop i w d a (b - a) 400 s e
      else fldLoop i w d 0 0 1 s e

/-- The store of one array element of `fst`; a 4-bit value rewrites its byte (R480, R563). -/
def fstPut (i : Fin 4) (bits va n : Nat) (v : Nat) (s : State) (e : QEntry) : Got :=
  storeOne i bits (va % 2 ^ 64) n (natLe ((bits + 7) / 8) (v % 2 ^ bits)) s e

/-- The trap of a store's check, when it fails at all. -/
def storeTrap (s : State) (w : Who) (va n : Nat) : Option Trap :=
  match s.locateAll w .store .vector n (if 2 ^ 63 ≤ va then [(va, n)] else pagePieces va n) with
  | .error t => some t
  | .ok _ => none

/-- The entries of `fst` (R561); the cursors are its progress (R550). The value's address is checked before the coordinate is
stored only to name the lowest failing VA. -/
def fstLoop (i : Fin 4) (w : Who) (d : LevelDesc) (st room : Nat) (es : List (Nat × Nat)) : Nat → State → QEntry → Ran
  | 0, s, e => .done s e
  | fuel + 1, s, e =>
    let j := e.prog % 65536
    let k := e.prog / 65536 % 65536
    if es.length ≤ j then .done s e
    else if room ≤ k then .done (s.modHart i Hart.setFovf) e
    else
      let x := es.getD j (0, 0)
      let n := st + k
      let next (s : State) (e : QEntry) : Ran :=
        fstLoop i w d st room es fuel s { e with prog := cursors (j + 1) (k + 1), aux := 0 }
      let value (s : State) (e : QEntry) : Ran :=
        if d.val = 0 then next s e
        else
          match fstPut i (etBits d.et) (d.valAt n).1 n x.2 s e with
          | .ok _ s e => next s e
          | .trap t => .fault s { e.dropRead with memo := [], aux := 0 } t
          | .block s e => .block s { e with aux := 1 }
      if e.aux ≠ 0 then value s e
      else
        match fstPut i 32 (d.crd + 4 * n) n x.1 s e with
        | .ok _ s e => value s e
        | .block s e => .block s e
        | .trap t =>
          let lower : Option Trap :=
            if d.val = 0 then none else storeTrap s w ((d.valAt n).1 % 2 ^ 64) (d.valAt n).2
          match lower with
          | some t2 => .fault s { e.dropRead with memo := [] } (if t2.tval.toNat < t.tval.toNat then t2 else t)
          | none => .fault s { e.dropRead with memo := [] } t

/-- `fst` (R561). -/
def runFst (i : Fin 4) (p : QEntry) (s : State) : Ran :=
  let l := vtGroups p.vtype
  let w := p.who s i 0 (laneOf l 32 0)
  let s := s.modHart i fun h => h.relayF p.fa l
  let es := (s.harts[i].freg p.fa).read
  let fail (s : State) (e : QEntry) (t : Trap) : Ran := .fault s { e with memo := [] } t
  match readDesc i w .vector s p with
  | .trap s e t => fail s e t
  | .block s e => .block s e
  | .ok dn s e =>
    match descOf dn with
    | none => .block s e
    | some d =>
      if e.opb.toNat < d.npos then
        let at_ := d.pos + 8 * e.opb.toNat
        match memoRead i w .pointer 1 at_ 8 s e with
        | .trap s e t => fail s e t
        | .block s e => .block s e
        | .ok a s e =>
          match memoRead i w .pointer 2 (at_ + 8) 8 s e with
          | .trap s e t => fail s e t
          | .block s e => .block s e
          | .ok b s e => fstLoop i w d a (b - a) es (es.length + 1) s e
      else .done s e

/-- The binary search of a lookup (R562): `lo` and `hi` as the reads from memo place `k` on leave them. -/
def searchLoop (i : Fin 4) (w : Who) (d : LevelDesc) (key : Nat) : Nat → Nat → Nat → Nat → State → QEntry → FRead × Nat
  | 0, k, lo, _, s, e => (.ok lo s e, k)
  | fuel + 1, k, lo, hi, s, e =>
    if hi ≤ lo then (.ok lo s e, k)
    else
      let mid := lo + (hi - lo) / 2
      match memoRead i w .pointer k (d.crd + 4 * mid) 4 s e with
      | .ok c s e =>
        if c < key then searchLoop i w d key fuel (k + 1) (mid + 1) hi s e else searchLoop i w d key fuel (k + 1) lo mid s e
      | r => (r, k)

/-- One lookup of `fwalk` (R562): the value found, if any. -/
def lookupOne (i : Fin 4) (w : Who) (d : LevelDesc) (key p : Nat) (full : Bool) (s : State) (e : QEntry) : FRead × Option Nat :=
  if d.npos ≤ p then (.ok 0 s e, none)
  else
    match memoRead i w .pointer 1 (d.pos + 8 * p) 8 s e with
    | .ok b s e =>
      (match memoRead i w .pointer 2 (d.pos + 8 * p + 8) 8 s e with
      | .ok en s e =>
        (match searchLoop i w d key 65 3 b en s e with
        | (.ok lo s e, k) =>
          if lo < en then
            match memoRead i w .pointer k (d.crd + 4 * lo) 4 s e with
            | .ok c s e =>
              if c ≠ key then (.ok 0 s e, none)
              else if full || d.val = 0 then (.ok 0 s e, some (lo % 2 ^ 32))
              else
                (match memoRead i w .engine (k + 1) (d.valAt lo).1 (d.valAt lo).2 s e with
                | .ok v s e => (.ok 0 s e, some (d.pick lo v))
                | r => (r, none))
            | r => (r, none)
          else (.ok 0 s e, none)
        | (r, _) => (r, none))
      | r => (r, none))
    | r => (r, none)

/-- The lookups of `fwalk` (R562). A lookup that finds its coordinate when no room is left ends with a cursor and reads no value. -/
def walkLoop (i : Fin 4) (w : Who) (d : LevelDesc) (es : List (Nat × Nat)) : Nat → State → QEntry → Ran
  | 0, s, e => .block s e
  | fuel + 1, s, e =>
    let l := vtGroups e.vtype
    let finish (s : State) (e : QEntry) (ovf : Option Nat) : Ran :=
      .done (s.modHart i fun h => h.putFib e.fd d.type l ⟨e.ents, 0#5, ovf⟩) e
    match es[e.prog]? with
    | none => finish s e none
    | some x =>
      match lookupOne i w d (e.opb.toNat % 2 ^ 32) x.2 (decide (fmaxOf d.type l ≤ e.ents.length)) s e with
      | (.trap s e t, _) => fibStop i s e (some d) t
      | (.block s e, _) => .block s e
      | (.ok _ s e, found) =>
        let e1 := { e with prog := e.prog + 1, memo := e.memo.take 1 }
        match found with
        | none => walkLoop i w d es fuel s e1
        | some v =>
          if fmaxOf d.type l ≤ e.ents.length then finish s e (some e.prog)
          else walkLoop i w d es fuel s { e1 with ents := e.ents ++ [(x.1, v)] }

/-- `fwalk` (R562), for no more than `n` lookups. Its cursor is VSTART[15:0] (R550). -/
def runWalk (n : Nat) (i : Fin 4) (p : QEntry) (s : State) : Ran :=
  let l := vtGroups p.vtype
  let w := p.who s i 0 0
  let s := s.modHart i fun h => h.relayF p.fa l
  let es := (s.harts[i].freg p.fa).read
  match readDesc i w .engine s { p with prog := p.prog % 65536 } with
  | .trap s e t => fibStop i s e none t
  | .block s e => .block s e
  | .ok dn s e =>
    match descOf dn with
    | none => .block s e
    | some d => walkLoop i w d es (min n (es.length + 1)) s e

/-- A fibre instruction at its start or where it stopped: what it came to, and its scalar result. -/
def runFib (op : FibOp) (i : Fin 4) (p : QEntry) (s : State) : Ran × Option Word :=
  match op with
  | .ld => (runFld i p s, none)
  | .st => (runFst i p s, none)
  | .walk => (runWalk 65536 i p s, none)
  | .isect | .isectb | .union | .merge | .sort | .diff | .dedup =>
    (.done (s.modHart i fun h => runFba op p h) p, none)
  | .compact =>
    let n := (s.harts[i].freg p.fa).occ
    if s.harts[i].fibMaskWait p n then (.block s p, none) else (.done (s.modHart i fun h => runFba op p h) p, none)
  | op =>
    if op = .pack && s.harts[i].fibMaskWait p p.vl then (.block s p, none)
    else
      let r := runFbl op p s.harts[i]
      (.done (s.modHart i fun _ => r.1) p, r.2)

end Sys2Proof.Machine
end

