-- ==== Sys2Proof/Machine/Matrix.lean ====
section
/-! DEFINITION. What the matrix instructions do (chapter 22, with the orders of R285 to R287): outer products into accumulator
tiles, slice moves, tile loads and stores, and the binding of a co-tile. -/

namespace Sys2Proof.Machine

/-! ### Formats and tiles (R250, R568) -/

/-- An operand format: its element type, its K, and whether it is a floating-point format (R568). -/
structure MatFmt where
  et : ETCode
  k : Nat
  fp : Bool
  deriving DecidableEq, Repr

/-- The format of an fmt code (R568). -/
def matFmt (f : BitVec 3) : MatFmt :=
  match f.toNat with
  | 0 => ⟨11#4, 1, true⟩
  | 1 => ⟨12#4, 1, true⟩
  | 2 => ⟨8#4, 2, true⟩
  | 3 => ⟨9#4, 2, true⟩
  | 4 => ⟨10#4, 4, true⟩
  | 5 => ⟨13#4, 1, true⟩
  | 6 => ⟨0#4, 2, false⟩
  | _ => ⟨15#4, 4, false⟩

/-- Element `j` of a tile row. -/
def tileRowGet (r : TileRow) (j : Nat) : Nat := (r.extractLsb' (32 * j) 32).toNat

/-- A tile row with element `j` replaced. -/
def tileRowPut (r : TileRow) (j v : Nat) : TileRow :=
  (r &&& ~~~((BitVec.allOnes 32).setWidth 4096 <<< (32 * j))) ||| ((BitVec.ofNat 32 v).setWidth 4096 <<< (32 * j))

/-- The first `n` elements of a tile row replaced by a function of the index and the old value. -/
def mapTileRow (g : Nat → Nat → Nat) : Nat → TileRow → TileRow
  | 0, r => r
  | n + 1, r => tileRowPut (mapTileRow g n r) n (g n (tileRowGet r n))

/-- Element (i, j) of a tile. -/
def Tile.get (t : Tile) (i j : Nat) : Nat := tileRowGet (t[i]?.getD 0#4096) j

/-- A tile with element (i, j) replaced. -/
def Tile.put (t : Tile) (i j v : Nat) : Tile :=
  if h : i < 128 then t.set i (tileRowPut t[i] j v) h else t

/-- A tile of the core. -/
def Core.tile (c : Core) (n : ANum) : Tile := c.tiles[n.toNat]'(n.isLt)

/-- Replace a tile. -/
def State.setTile (s : State) (n : ANum) (t : Tile) : State :=
  { s with core := { s.core with tiles := s.core.tiles.set n.toNat t n.isLt } }

/-- The tile of a posted matrix instruction. -/
def QEntry.acc (p : QEntry) : ANum := p.post.d.setWidth 2

/-- MR of MVL, 0 standing for 128 (R259, R572). -/
def Hart.mr (h : Hart) : Nat := let n := (h.mvl.extractLsb' 0 8).toNat; if n = 0 then 128 else n

/-- MC of MVL, 0 standing for 128 (R259, R572). -/
def Hart.mc (h : Hart) : Nat := let n := (h.mvl.extractLsb' 8 8).toNat; if n = 0 then 128 else n

/-- MSTAT.TIU of a tile set (R250). -/
def Hart.setTiu (h : Hart) (n : ANum) : Hart := { h with mstat := h.mstat ||| (1#10 <<< (1 + n.toNat)) }

/-- MSTAT.TIU of a tile cleared (R575). -/
def Hart.clearTiu (h : Hart) (n : ANum) : Hart := { h with mstat := h.mstat &&& ~~~(1#10 <<< (1 + n.toNat)) }

/-- MSTAT.ACCT of a tile: whether it holds INT32 (R259). -/
def Hart.acct (h : Hart) (n : ANum) : Bool := h.mstat.getLsbD (6 + n.toNat)

/-- MSTAT.GB (R259). -/
def Hart.gangBound (h : Hart) : Bool := h.mstat.getLsbD 5

/-- The type of a tile's elements in a slice move (R576). -/
def Hart.tileType (h : Hart) (n : ANum) : ETCode := if h.acct n then 2#4 else 13#4

/-! ### Co-tiles (R579, R580) -/

/-- The cores of this die on which hart `i`'s number runs a hart of its task (R579). -/
def State.gangMembers (s : State) (i : Fin 4) : List Nat :=
  match s.sched.tasks.find? (·.id = s.harts[i].task) with
  | none => [s.core.num % 32]
  | some t => if i.val < t.harts then (List.range 32).filter fun c => t.cmask.getLsbD (32 * s.die + c) else [s.core.num % 32]

/-- Whether a set of cores is the rectangle of rows below R and columns below C (R14, R579). -/
def isRectangle (ms : List Nat) : Bool :=
  (List.range 4).any fun r => (List.range 8).any fun c =>
    ms == (List.range 32).filter fun x => decide (x / 8 ≤ r) && decide (x % 8 ≤ c)

/-- Whether a gang instruction takes its A rows from another core (R580). -/
def State.aElsewhere (s : State) (i : Fin 4) : Bool := s.harts[i].gangBound && decide (s.core.num % 8 ≠ 0)

/-- Whether a gang instruction takes its B rows from another core (R580). -/
def State.bElsewhere (s : State) (i : Fin 4) : Bool := s.harts[i].gangBound && decide (s.core.num % 32 / 8 ≠ 0)

/-- A row of another core's registers, which this model of one core does not hold: a free value. -/
def freeRow (n part : Nat) : Row := BitVec.ofNat 8192 (leNat ((List.range 1024).map fun p => Config.freeByte n (1024 * part + p)))

/-! ### Outer products (R570 to R573, R285 to R287) -/

/-- What one step reads: the rows of A and B, their scales, and for `mops` the indices and the metadata. -/
structure StepRows where
  a : Row
  b : Row
  sa : Row
  sb : Row
  idx : Row
  meta_ : MaskRow
  deriving DecidableEq, Repr

/-- Row `k` of a register read at a type: zero at and above LEN and ROWS (R236). -/
def VReg.readRow (r : VReg) (k : Nat) : Row :=
  if r.valid && decide (k < r.nrows) then rowKeep (r.row k) (r.len * etBits r.et) else 0#8192

/-- The value of an operand element, scaled by 2^(X - 127) under bs; a scale of 0xFF gives a NaN (R270, R286). -/
def scaled (f : Fmt) (bs : Bool) (pat x : Nat) : FpVal :=
  let v := fpDecode f pat
  if !bs then v
  else if x = 255 then .nan false
  else
    match v with
    | .num s m e => .num s m (e + Int.ofNat x - 127)
    | v => v

/-- The offset of the (q + 1)-th set bit of `w` bits, counted from the low end (R573). -/
def nthBit (n w q : Nat) : Option Nat := ((List.range w).filter n.testBit)[q]?

/-- Insert a pair by its first number, then its second. -/
def insertPair (x : Nat × Nat) : List (Nat × Nat) → List (Nat × Nat)
  | [] => [x]
  | y :: ys => if y.1 < x.1 || (y.1 = x.1 && y.2 ≤ x.2) then y :: insertPair x ys else x :: y :: ys

/-- The positions of an accumulator row's products in their order: the offset in B's group and the index in A's group (R285,
R572, R573). -/
def productsOf (op : MatOp) (indexMode : Bool) (k : Nat) (r : StepRows) (i : Nat) : List (Nat × Nat) :=
  match op with
  | .ops =>
    ((List.range k).filterMap fun q =>
      let p : Option Nat :=
        if indexMode then
          let x := rowGet r.idx 8 (i * k + q)
          if 2 * k ≤ x then none else some x
        else nthBit (bitsAt r.meta_.toNat (i * 2 * k) (2 * k)) (2 * k) q
      p.map fun p => (p, q)).foldl (fun l x => insertPair x l) []
  | _ => (List.range k).map fun q => (q, q)

/-- The new accumulator element of one step (R285 to R287). -/
def outerElem (op : MatOp) (mf : MatFmt) (bs : Bool) (r : StepRows) (ps : List (Nat × Nat)) (i j old : Nat) : Nat :=
  let b := etBits mf.et
  let group := if op = .ops then 2 * mf.k else mf.k
  let ax (q : Nat) : Nat := i * mf.k + q
  let bx (p : Nat) : Nat := j * group + p
  if mf.fp then
    let f := fmtEt mf.et
    let xs := ps.map fun p =>
      (scaled f bs (rowGet r.a b (ax p.2)) (rowGet r.sa 8 (ax p.2 / 256)), scaled f bs (rowGet r.b b (bx p.1)) (rowGet r.sb 8 (bx p.1 / 256)))
    match op with
    | .opr => sumF32 (fpDecode .f32 old :: xs.map fun x => (mulVal x.1 x.2).1)
    | _ => xs.foldl (fun a x => mopoStep a x.1 x.2) old
  else
    wrap 32 (ps.foldl (fun (t : Int) p => t + sval b (rowGet r.a b (ax p.2)) * sval b (rowGet r.b b (bx p.1))) (Int.ofNat old))

/-- One step of an outer product over a tile. -/
def outerStep (op : MatOp) (mf : MatFmt) (bs indexMode : Bool) (r : StepRows) (rowp colp : Nat → Bool) (mr mc : Nat) (t : Tile) : Tile :=
  Vector.ofFn fun (i : Fin 128) =>
    if i.val < mr && rowp i.val then
      let ps := productsOf op indexMode mf.k r i.val
      mapTileRow (fun j old => if colp j then outerElem op mf bs r ps i.val j old else old) mc t[i]
    else t[i]

/-- The registers that an outer product reads here, brought to the types it reads them at (R243, R570): not those whose rows another core
supplies (R580). -/
def Hart.relayOuter (h : Hart) (mf : MatFmt) (bs indexMode aOut bOut : Bool) (op : MatOp) (p : QEntry) : Hart :=
  let l := vtGroups p.vtype
  let own (n : VNum) : List VNum := (if aOut then [] else [p.post.a + n]) ++ (if bOut then [] else [p.post.b + n])
  let h1 := h.relayAll mf.et l (own 0#5)
  let h2 := if bs then h1.relayAll 4#4 l (own 1#5) else h1
  if op = .ops && indexMode && !aOut then h2.relayAll 4#4 l [p.post.a + 2#5] else h2

/-- The rows of step `k`: from this core's registers, or free where another core supplies them (R580). -/
def State.stepRows (s : State) (i : Fin 4) (mf : MatFmt) (mcol : BitVec 3) (p : QEntry) (k : Nat) : StepRows :=
  let h := s.harts[i]
  let l := vtGroups p.vtype
  let own (n : VNum) (et : ETCode) : Row := (h.readAs n et l).readRow k
  let aOut := s.aElsewhere i
  let bOut := s.bElsewhere i
  { a := if aOut then freeRow s.free 0 else own p.post.a mf.et,
    b := if bOut then freeRow s.free 1 else own p.post.b mf.et,
    sa := if aOut then freeRow s.free 2 else own (p.post.a + 1#5) 4#4,
    sb := if bOut then freeRow s.free 3 else own (p.post.b + 1#5) 4#4,
    idx := if aOut then freeRow s.free 4 else own (p.post.a + 2#5) 4#4,
    meta_ := if aOut then (freeRow s.free 5).setWidth 2048 else (h.mask mcol)[k]?.getD 0#2048 }

/-- The steps of an outer product from its progress index on (R572). -/
def outerLoop (i : Fin 4) (op : MatOp) (mrow mcol : BitVec 3) (mf : MatFmt) (bs : Bool) : Nat → State → QEntry → State × QEntry
  | 0, s, e => (s, e)
  | fuel + 1, s, e =>
    if e.vrows ≤ e.prog then (s, e)
    else
      let h := s.harts[i]
      let indexMode : Bool :=
        if op = .ops && s.aElsewhere i then decide (Config.freeChoice s.free % 2 = 0) else mcol == 0#3
      let rows := s.stepRows i mf mcol e e.prog
      let rowp (x : Nat) : Bool := (h.mask mrow).bit 0 x
      let colp (x : Nat) : Bool := if op = .ops then true else (h.mask mcol).bit 0 x
      let t := outerStep op mf bs indexMode rows rowp colp h.mr h.mc (s.core.tile e.acc)
      let s1 := (s.setTile e.acc t).modHart i fun h => h.setTiu e.acc
      let s2 := if s.aElsewhere i || s.bElsewhere i then s1.tick else s1
      outerLoop i op mrow mcol mf bs fuel s2 { e with prog := e.prog + 1 }

/-- An outer product (R572, R573). -/
def runOuter (i : Fin 4) (op : MatOp) (mrow mcol fmt : BitVec 3) (bs : Bool) (p : QEntry) (s : State) : Ran :=
  let mf := matFmt fmt
  let s := s.modHart i fun h => h.relayOuter mf bs (mcol == 0#3) (s.aElsewhere i) (s.bElsewhere i) op p
  let r := outerLoop i op mrow mcol mf bs (p.vrows + 1) s p
  .done r.1 r.2

/-! ### Slice moves (R575, R576) -/

/-- The slice of step `s` (R576). -/
def sliceOf (p : QEntry) (k : Nat) : Nat := (p.opb.toNat + k) % 128

/-- `mtv` and `mtvc`. -/
def runMtv (col : Bool) (i : Fin 4) (p : QEntry) (s : State) : State :=
  if p.vrows = 0 then s
  else
    let t := s.core.tile p.acc
    s.modHart i fun h =>
      let et := h.tileType p.acc
      let r := (h.vreg p.post.a).dest et (vtGroups p.vtype) 128 p.vrows false
      (h.setVreg p.post.a (r.write 32 128 p.vrows fun k e =>
        some (if col then t.get e (sliceOf p k) else t.get (sliceOf p k) e))).setVpi p.post.a p.total

/-- The slices of `mvt` and `mvtc`, in increasing s. -/
def mvtLoop (col : Bool) (p : QEntry) (va : VReg) : Nat → Tile → Tile
  | 0, t => t
  | n + 1, t =>
    let t1 := mvtLoop col p va n t
    let x := sliceOf p n
    if col then Vector.ofFn fun (r : Fin 128) => tileRowPut t1[r] x (va.elem 32 n r.val)
    else
      if h : x < 128 then t1.set x (mapTileRow (fun e _ => va.elem 32 n e) 128 t1[x]) h else t1

/-- `mvt` and `mvtc`. -/
def runMvt (col : Bool) (i : Fin 4) (p : QEntry) (s : State) : State :=
  let et := s.harts[i].tileType p.acc
  let s := s.modHart i fun h => h.relayAll et (vtGroups p.vtype) [p.post.a]
  let va := s.harts[i].readAs p.post.a et (vtGroups p.vtype)
  if p.vrows = 0 then s
  else (s.setTile p.acc (mvtLoop col p va p.vrows (s.core.tile p.acc))).modHart i fun h => h.setTiu p.acc

/-! ### `mld` and `mst` (R577) -/

/-- The address of element (r, j) of a tile's region. -/
def tileAddr (p : QEntry) (r j : Nat) : Nat := ((Int.ofNat p.opa.toNat + Int.ofNat r * p.opb.toInt + 4 * Int.ofNat j) % 2 ^ 64).toNat

/-- How many elements of a row travel together: those of one 64-byte line for a remote access, one otherwise. -/
def tileRun (va mc j : Nat) : Nat := if 2 ^ 63 ≤ va then max 1 (min (mc - j) ((64 - va % 64) / 4)) else 1

/-- The next index with a column below MC after `n` elements from index `t`. -/
def tileNext (mc t n : Nat) : Nat := if mc ≤ t % 128 + n then (t / 128 + 1) * 128 else t + n

/-- `mld` or `mst` from its progress index on. -/
def tileLoop (store : Bool) (i : Fin 4) : Nat → State → QEntry → Ran
  | 0, s, e => .block s e
  | fuel + 1, s, e =>
    let h := s.harts[i]
    let t := e.prog
    if 128 * h.mr ≤ t then .done s e
    else if h.mc ≤ t % 128 then tileLoop store i fuel s { e with prog := (t / 128 + 1) * 128 }
    else
      let r := t / 128
      let j := t % 128
      let va := tileAddr e r j
      let n := tileRun va h.mc j
      let w := e.who s i 0 0
      let e1 := { e with prog := tileNext h.mc t n }
      if store then
        let bs := (List.range n).flatMap fun x => natLe 4 ((s.core.tile e.acc).get r (j + x))
        match engineWrite w .engine 0x03 va bs (fun a => .store i (BitVec.ofNat 64 a) bs.length) t s e with
        | .ok _ s e => tileLoop store i fuel s { e with prog := e1.prog }
        | .block s e => .block s e
        | .trap tr => .fault s e ⟨tr.cause, BitVec.ofNat 64 va⟩
      else
        match engineRead i w .engine 0x01 va (4 * n) s e with
        | .ok bs s e =>
          let tile := (List.range n).foldl (fun tl x => Tile.put tl r (j + x) (sliceNat bs (4 * x) 4)) (s.core.tile e.acc)
          tileLoop store i fuel ((s.setTile e.acc tile).modHart i fun h => h.setTiu e.acc) { e with prog := e1.prog }
        | .trap tr => .fault s e.dropRead ⟨tr.cause, BitVec.ofNat 64 va⟩
        | .block s e => .block s e

/-! ### All matrix instructions -/

/-- `mgang` at its queue's head: done at once when bound already or alone; else it waits for the other members, whose arrival
an event tells in `aux` (R579). -/
def runGang (i : Fin 4) (p : QEntry) (s : State) : Ran :=
  if s.harts[i].gangBound then .done s p
  else if p.aux ≠ 0 || (s.gangMembers i).length ≤ 1 then
    .done (s.modHart i fun h => { h with mstat := h.mstat ||| 0x020#10 }) p
  else .block s p

/-- `mgsync` at its queue's head (R581). -/
def runGsync (i : Fin 4) (p : QEntry) (s : State) : Ran :=
  if !s.harts[i].gangBound || p.aux ≠ 0 || (s.gangMembers i).length ≤ 1 then .done s p else .block s p

/-- A matrix instruction at the head of its queue. -/
def runMat (op : MatOp) (mrow mcol fmt : BitVec 3) (bs : Bool) (i : Fin 4) (p : QEntry) (s : State) : Ran :=
  match op with
  | .zero => .done ((s.setTile p.acc zeroTile).modHart i fun h => h.clearTiu p.acc) p
  | .opo => runOuter i .opo mrow mcol fmt bs p s
  | .opr => runOuter i .opr mrow mcol fmt bs p s
  | .opi => runOuter i .opi mrow mcol fmt bs p s
  | .ops => runOuter i .ops mrow mcol fmt bs p s
  | .tv => .done (runMtv false i p s) p
  | .tvc => .done (runMtv true i p s) p
  | .vt => .done (runMvt false i p s) p
  | .vtc => .done (runMvt true i p s) p
  | .ld => tileLoop false i 33000 s p
  | .st => tileLoop true i 33000 s p
  | .gang => runGang i p s
  | .gsync => runGsync i p s

/-- The lane groups that an instruction of R570 needs. -/
def matGroups (op : MatOp) (fmt : BitVec 3) : Nat :=
  match op with
  | .opo => if fmt = 5#3 then 2 else 1
  | .opr => if fmt = 5#3 then 2 else 1
  | .opi => 1
  | .ops => if fmt = 5#3 then 4 else 2
  | .tv => 2
  | .tvc => 2
  | .vt => 2
  | .vtc => 2
  | _ => 0

/-- Whether an operation is an outer product. -/
def MatOp.isOuter : MatOp → Bool
  | .opo => true | .opr => true | .opi => true | .ops => true
  | _ => false

/-- Whether an operation is `mtv` or `mtvc`. -/
def MatOp.isMtv : MatOp → Bool
  | .tv => true | .tvc => true
  | _ => false

/-- The checks of R569 at issue, in order, with the gang check of R579: the cause of the trap. -/
def State.matCheck (s : State) (i : Fin 4) (op : MatOp) (mcol fmt : BitVec 3) (bs : Bool) (p : Posted) : Option (BitVec 8) :=
  let h := s.harts[i]
  let acc : ANum := p.d.setWidth 2
  let bound (n : VNum) : Bool := h.sb.toList.any fun b => b.valid && b.reg = n
  if !h.matrixOn then some cTILE
  else if bs && (p.a = 31#5 || p.b = 31#5) then some cILL
  else if op = .ops && mcol = 0#3 && decide (29 < p.a.toNat) then some cILL
  else if op.isMtv && bound p.a then some cILL
  else if groupCount (vtGroups h.vtype) < matGroups op fmt then some cILL
  else if op.isOuter && ((matFmt fmt).fp == h.acct acc) then some cTILECFG
  else if op = .gang && !h.gangBound && !isRectangle (s.gangMembers i) then some cTILECFG
  else none

end Sys2Proof.Machine
end

