-- ==== Sys2Proof/Machine/Monitors.lean ====
section
/-! DEFINITION. The monitors of the dies (R24 to R27), and the samples that the machine takes of its own launches (R171). -/

namespace Sys2Proof.Machine

/-- Change a monitor. -/
def State.modMonitor (s : State) (die k : Nat) (f : Monitor → Monitor) : State :=
  { s with host := { s.host with monitors := Vector.ofFn fun (d : Fin 14) =>
      if d.val = die then Vector.ofFn fun (j : Fin 8) => if j.val = k then f s.host.monitors[d][j] else s.host.monitors[d][j]
      else s.host.monitors[d] } }

/-- The statistics after a clear (R26). -/
def Monitor.clear (m : Monitor) : Monitor := { m with mn := 0xFFFFFFFF, mx := 0, cnt := 0, bins := Vector.replicate 16 0 }

/-- Whether a source is present on a die (R24): 0 to 11 compute dies, 12 and 13 link dies. -/
def sourcePresent (sel die : Nat) : Bool :=
  if sel = 1 || sel = 2 || sel = 3 || sel = 0x12 then decide (die < 12)
  else if sel = 4 || sel = 0x10 || sel = 0x11 then true
  else decide (sel = 0x13) && decide (die = 12)

/-- Whether a monitor of a die records (R24, R25). -/
def Monitor.records (m : Monitor) (die : Nat) : Bool :=
  m.ctl.getLsbD 0 && !m.ctl.getLsbD 1 && sourcePresent (m.ctl.extractLsb' 24 8).toNat die

/-- The histogram bin of a sample (R26). -/
def Monitor.bin (m : Monitor) (v : Nat) : Nat :=
  let base := (m.ctl.extractLsb' 4 16).toNat
  if v < base then 0 else min 15 ((v - base) / 2 ^ (m.ctl.extractLsb' 20 4).toNat)

/-- A count that saturates (R26). -/
def satInc (n : Nat) : Nat := min 0xFFFFFFFF (n + 1)

/-- A sample (R26). -/
def Monitor.sample (m : Monitor) (v : Nat) : Monitor :=
  let i := m.bin v
  { m with mn := min m.mn v, mx := max m.mx (min v 0xFFFFFFFF), cnt := satInc m.cnt,
           bins := Vector.ofFn fun (j : Fin 16) => if j.val = i then satInc m.bins[j] else m.bins[j] }

/-- A write of MONCTL (R25, R27): a change of SEL, SHIFT or BASE, or CLR, clears the statistics. -/
def Monitor.write (m : Monitor) (v : BitVec 32) : Monitor :=
  let m1 := { m with ctl := v &&& ~~~0xC#32 }
  if v.getLsbD 2 || v.extractLsb' 4 28 ≠ m.ctl.extractLsb' 4 28 then m1.clear else m1

/-- SEL of a monitor (R25). -/
def Monitor.sel (m : Monitor) : Nat := (m.ctl.extractLsb' 24 8).toNat

/-- Every monitor of a die that watches a source takes a sample. -/
def State.sampleDie (s : State) (die sel v : Nat) : State :=
  { s with host := { s.host with monitors := Vector.ofFn fun (d : Fin 14) =>
      if d.val = die then s.host.monitors[d].map fun m => if m.sel = sel && m.records die then m.sample v else m
      else s.host.monitors[d] } }

/-- The launch of a task is sampled on a die (R171): the cycles to the first issue are timing, so their number is a free value. -/
def State.sampleLaunch (s : State) (die : Nat) : State := (s.sampleDie die 3 (Config.freeWord s.free).toNat).tick

end Sys2Proof.Machine
end

