-- ==== Sys2Proof/Machine/Sched.lean ====
section
/-! DEFINITION. The dispatch unit: task records and their admission (R133 to R136), order and eligibility (R137 to R139), dispatch
and the state of a hart at its first instruction (R140 to R147), work queues (R148, R149), bindings (R388 to R390), and reports
(R98). -/

namespace Sys2Proof.Machine

/-! ### Records in the R93 layout -/

/-- GANGID of a record. -/
def recGang (raw : List Byte) : BitVec 32 := BitVec.ofNat 32 (sliceNat raw 0 4)
/-- KIND of a record. -/
def recKind (raw : List Byte) : Nat := sliceNat raw 8 4 % 4
/-- HARTS of a record, 1 to 4. -/
def recHarts (raw : List Byte) : Nat := sliceNat raw 8 4 / 4 % 4 + 1
/-- COORD of a record. -/
def recCoord (raw : List Byte) : Epid := BitVec.ofNat 19 (sliceNat raw 12 4)
/-- NMEM of a record. -/
def recNmem (raw : List Byte) : Nat := sliceNat raw 16 4
/-- MIDX of a record. -/
def recMidx (raw : List Byte) : Nat := sliceNat raw 20 4
/-- RBASE of a record. -/
def recRbase (raw : List Byte) : Nat := sliceNat raw 24 4
/-- T of a record. -/
def recT (raw : List Byte) : Nat := sliceNat raw 32 8
/-- ARGS of a record. -/
def recArgs (raw : List Byte) : Word := BitVec.ofNat 64 (sliceNat raw 40 8)
/-- MAP of a record. -/
def recMap (raw : List Byte) : Word := BitVec.ofNat 64 (sliceNat raw 48 8)
/-- REPORT of a record. -/
def recReport (raw : List Byte) : Nat := sliceNat raw 56 8
/-- ENTRYOFF of a record. -/
def recOff (raw : List Byte) : Nat := sliceNat raw 64 8
/-- ENTRYHASH of a record. -/
def recHash (raw : List Byte) : List Byte := slice raw 72 64
/-- CMASK of a record. -/
def recMask (raw : List Byte) : BitVec 384 := BitVec.ofNat 384 (sliceNat raw 136 48)

/-- Whether every field that R93 shows as zero, or as zero for the record's KIND, is zero. -/
def recZeros (raw : List Byte) : Bool :=
  decide (sliceNat raw 8 4 / 16 = 0) && decide (sliceNat raw 12 4 / 2 ^ 19 = 0) && decide (sliceNat raw 28 4 = 0) &&
  decide (sliceNat raw 184 8 = 0) &&
  (decide (recKind raw = 0) || (decide (recOff raw = 0) && decide (leNat (recHash raw) = 0)))

/-- Bits set in a core mask below bit `n`. -/
def maskBelow (m : BitVec 384) (n : Nat) : Nat := ((List.range n).filter fun c => m.getLsbD c).length

/-- Cores in a core mask. -/
def maskCores (m : BitVec 384) : Nat := maskBelow m 384

/-! ### Admission (R134, R135) -/

/-- Whether a task record breaks R134 (BADREC of R135), the priority operand apart. -/
def taskBad (raw : List Byte) : Bool :=
  let begin_ := sliceNat raw 192 8
  let count := sliceNat raw 200 8
  let minc := sliceNat raw 208 4
  let maxc := sliceNat raw 212 4
  !recZeros raw || decide (recKind raw ≠ 0) || decide (recT raw ≠ 0) || decide (recNmem raw ≠ 1) || decide (recMidx raw ≠ 0) ||
  decide (recMask raw = 0#384) || decide (sliceNat raw 216 40 ≠ 0) || decide (2 ^ 64 ≤ begin_ + count) ||
  (if count = 0 then decide (minc ≠ 0) || decide (maxc ≠ 0) else decide (minc = 0) || decide (maxc < minc))

/-- Offer a record to the central task queue: the code of R135. `user` is the CTXID of an issuer at level U. -/
def State.admitRecord (s : State) (raw : List Byte) (prio : Nat) (user : Option Nat) : Nat × State :=
  if (s.ctx (recCtx raw)).isNone then (1, s)
  else if user.isSome && user != some (recCtx raw) then (2, s)
  else if taskBad raw || decide (7 < prio) then (3, s)
  else if 4096 ≤ s.sched.queue.length || 1024 ≤ (s.sched.queue.filter fun r => recCtx r.raw = recCtx raw).length then (4, s)
  else
    let r : TaskRec := { serial := (match s.sched.queue.getLast? with | some x => x.serial + 1 | none => 0), raw := raw,
                         prio := prio, enq := s.sched.now, head := false }
    (0, { s with sched := { s.sched with queue := s.sched.queue ++ [r] } })

/-! ### Order and eligibility (R137 to R139) -/

/-- The effective priority of a record (R137). -/
def TaskRec.effective (r : TaskRec) (now : Nat) : Nat := min 7 (r.prio + (now - r.enq) / 65536)

/-- Whether `a` stands ahead of `b`, given that `a` was admitted first (R138). -/
def TaskRec.aheadOf (now : Nat) (a b : TaskRec) : Bool :=
  decide (b.effective now < a.effective now) || (a.effective now = b.effective now && decide (a.enq ≤ b.enq))

/-- Insert a record behind those that stand ahead of it. -/
def insertRec (now : Nat) (r : TaskRec) : List TaskRec → List TaskRec
  | [] => [r]
  | x :: xs => if x.aheadOf now r then x :: insertRec now r xs else r :: x :: xs

/-- The pending records in the order of R138. -/
def Sched.ordered (c : Sched) : List TaskRec := c.queue.foldl (fun l r => insertRec c.now r l) []

/-- Whether a record is eligible (R139). -/
def State.eligible (s : State) (r : TaskRec) : Bool :=
  match s.ctx (recCtx r.raw) with
  | none => false
  | some c =>
    !c.preempted &&
    (match s.jobEntry c.job with | some j => j.state == .active | none => false)

/-! ### Slots (R140, R141, R157) -/

/-- Whether two sets of slots, each of harts 0 to HARTS - 1 on the cores of a mask, meet. -/
def slotsMeet (m : BitVec 384) (h : Nat) (m' : BitVec 384) (h' : Nat) : Bool := (m &&& m') != 0#384 && decide (0 < min h h')

/-- Whether a pending timed record holds its slots (R157). -/
def GangRec.reserves (g : GangRec) : Bool := !g.acted && (g.kind == 0 || g.kind == 2)

/-- Whether every slot that a record asks for is free of harts and of timed reservations. -/
def State.slotsFree (s : State) (m : BitVec 384) (h : Nat) : Bool :=
  !(s.sched.tasks.any fun t => slotsMeet m h t.cmask t.harts) &&
  !(s.sched.gangs.any fun g => g.reserves && slotsMeet m h (recMask g.raw) g.harts)

/-- The record that the decision of a cycle dispatches (R141): the head, or the first record behind it that leaves alone the
slots reserved for the head. -/
def State.decision (s : State) : Option TaskRec :=
  match s.sched.ordered.filter s.eligible with
  | [] => none
  | hd :: rest =>
    if s.slotsFree (recMask hd.raw) (recHarts hd.raw) then some hd
    else rest.find? fun r =>
      s.slotsFree (recMask r.raw) (recHarts r.raw) && !slotsMeet (recMask r.raw) (recHarts r.raw) (recMask hd.raw) (recHarts hd.raw)

/-! ### Bindings (R388 to R390) -/

/-- The accesses that the dispatch unit makes for a context, with the permissions of S. -/
def whoDevice (ctxid : Nat) : Who := ⟨0, ctxid, .s, 0#64, 5, 0⟩

/-- The binding of a hash as the context's binding table gives it now (R389); none where it fails. -/
def State.tableBinding (s : State) (ctxid : Nat) (hash : List Byte) : Option Bound :=
  let slot := sliceNat hash 0 2 % 4096
  match s.deviceRead (whoDevice ctxid) (bindBase + 128 * slot) 128 with
  | none => none
  | some e =>
    if sliceNat e 88 1 = 1 && slice e 0 64 = hash then
      some ⟨hash, sliceNat e 64 8, sliceNat e 72 8, sliceNat e 80 8, sliceNat e 89 1⟩
    else none

/-- The binding that the dispatch unit has cached (R391). -/
def State.cachedBinding (s : State) (ctxid : Nat) (hash : List Byte) : Option Bound :=
  (s.sched.bindings.find? fun x => x.1 = ctxid && x.2.hash = hash).map (·.2)

/-- Whether a cached binding differs from the table's. -/
def State.bindingStale (s : State) (ctxid : Nat) (hash : List Byte) : Bool :=
  match s.cachedBinding ctxid hash with
  | some b => !(s.tableBinding ctxid hash == some b)
  | none => false

/-- The binding of a hash in a context (R389); none where it fails. Where the cached one differs from the table's, R391 lets either be
used. -/
def State.binding (s : State) (ctxid : Nat) (hash : List Byte) : Option Bound :=
  if s.bindingStale ctxid hash && Config.freeChoice s.free % 2 ≠ 0 then s.cachedBinding ctxid hash else s.tableBinding ctxid hash

/-- The dispatch unit's binding cache holds what a binding gave (R391). -/
def State.putBinding (s : State) (ctxid : Nat) (hash : List Byte) (r : Option Bound) : State :=
  let rest := s.sched.bindings.filter fun x => !(x.1 = ctxid && x.2.hash = hash)
  { s with sched := { s.sched with bindings := match r with | some b => (ctxid, b) :: rest | none => rest } }

/-- The binding of a hash is cached; a choice between the cached and the table's one has used a free value. -/
def State.noteBinding (s : State) (ctxid : Nat) (hash : List Byte) : State :=
  let t := s.putBinding ctxid hash (s.binding ctxid hash)
  if s.bindingStale ctxid hash then t.tick else t

/-- Bind an entry point (R389): its VA, and whether its object has TARGET 1. -/
def State.bindEntry (s : State) (ctxid : Nat) (hash : List Byte) (off : Nat) : Option (Word × Bool) :=
  match s.binding ctxid hash with
  | none => none
  | some b => if off < b.len && off < b.text && off % 4 = 0 then some (BitVec.ofNat 64 (b.base + off), b.target == 1) else none

/-- Record an entry of KIND 7, or another kind, with AUX = GANGID in a context (R373, R390). -/
def State.gangError (s : State) (ctxid kind : Nat) (gangid : BitVec 32) (va : Nat) : State :=
  s.errorToCollector ctxid { va := BitVec.ofNat 64 va, peer := s.fab.epid, itag := 0#32, kind := kind, st := 0, attr := 0#8,
                             hart := none, job := s.jobOf ctxid, aux := gangid.toNat, data := [] }

/-! ### Reports (R98) -/

/-- A report taken on this cycle (R98), to be written once the harts of a task have started, or those of the context are frozen. -/
def State.queueReport (s : State) (raw : List Byte) (gangid : BitVec 32) (flags task : Nat) (freeze : Bool) : State :=
  if recReport raw = 0 then s
  else
    let r : Report := { raw := raw, gangid := gangid, start := s.gtimeNs, unc := min 0xFFFFFFFF s.uncFull, tstate := s.timeState,
                        flags := flags, task := task, freeze := freeze }
    { s with sched := { s.sched with reports := s.sched.reports ++ [r] } }

/-- The 16 bytes of a report (R98). -/
def Report.bytes (r : Report) : List Byte :=
  natLe 8 r.start ++ natLe 4 r.unc ++ natLe 1 (timeCode r.tstate) ++ natLe 1 r.flags ++ [0#8, 0#8]

/-- The harts of a context on this core. -/
def State.hartsOf (s : State) (ctxid : BitVec 32) : List (Fin 4) :=
  [(0 : Fin 4), 1, 2, 3].filter fun i => s.harts[i].ctxid = ctxid && s.harts[i].status != .idle

/-- Whether a hart has stopped for a pre-emption: no matrix instruction of it is still running out (R183). -/
def Hart.stopped (h : Hart) : Bool := h.status = .done || (h.frozen && !h.queue.any QEntry.runsOut)

/-- Whether every hart of a context on this core has stopped (R182, R188). -/
def State.allStopped (s : State) (ctxid : BitVec 32) : Bool := (s.hartsOf ctxid).all fun i => s.harts[i].stopped

/-- The JOB entry of a pre-empted compatibility context is FROZEN once its harts have stopped (R182, R188). -/
def State.settleFreeze (s : State) : State :=
  { s with jobs := s.jobs.map fun e =>
      if e.state = .active && s.ctxs.any (fun c => c.live && c.preempted && c.job = e.job && s.allStopped (BitVec.ofNat 32 c.ctxid))
      then { e with state := .frozen } else e }

/-- Whether every hart that a report speaks of has started or frozen (R98), as far as this core goes. -/
def State.reportDue (s : State) (r : Report) : Bool :=
  if r.freeze then s.allStopped (BitVec.ofNat 32 (recCtx r.raw)) else !s.sched.starts.any fun x => x.hart.task = r.task

/-- Write a report that is due, or drop it and record it where the write faults; it waits while its bank changes its mode (R98, R310). -/
def State.writeReport (s : State) (r : Report) : State :=
  let keep (s : State) : State := { s with sched := { s.sched with reports := s.sched.reports ++ [r] } }
  let va := (recReport r.raw + 16 * recMidx r.raw) % 2 ^ 64
  if !s.reportDue r then keep s
  else
    match s.deviceStore (whoDevice (recCtx r.raw)) va r.bytes with
    | .ok _ s => s
    | .busy => keep s
    | _ => s.gangError (recCtx r.raw) 5 r.gangid va

/-- Write every report that is due. -/
def State.writeReports (s : State) : State :=
  s.sched.reports.foldl State.writeReport { s with sched := { s.sched with reports := [] } }

/-! ### Starting a task (R146, R148) -/

/-- A hart at its first instruction (R146), at level S in context 0 and at U elsewhere (R359). -/
def startedHart (raw : List Byte) (gangid : BitVec 32) (task prio : Nat) (pc : Word) (core h : Nat) : Hart :=
  let m := recMask raw
  let n := recHarts raw
  { Hart.reset with
    x := (Hart.reset.x.set 10 (recArgs raw)).set 11 (BitVec.ofNat 64 (n * maskCores m)),
    pc := pc, level := if recCtx raw = 0 then .s else .u, ctxid := BitVec.ofNat 32 (recCtx raw), gangid := gangid,
    grank := BitVec.ofNat 32 (recRbase raw + maskBelow m core * n + h), prio := prio, task := task, status := .running }

/-- The lowest-numbered `n` groups of a bitmap. -/
def lowestGroups (g : BitVec 4) (n : Nat) : BitVec 4 :=
  BitVec.ofNat 4 ((([0, 1, 2, 3].filter fun i => g.getLsbD i).take n).foldl (fun v i => v + 2 ^ i) 0)

/-- A resumed hart with the lane groups it now holds (R197, R492): VTYPE, the captured types of its queue, and the strips of its
bindings. -/
def Hart.withGroups (h : Hart) (g : BitVec 4) : Hart :=
  let fix (vt : BitVec 9) : BitVec 9 := (vt &&& 0x10F#9) ||| (0#1 ++ lowestGroups g (groupCount (vtGroups vt)) ++ 0#4 : BitVec 9)
  { h with vtype := (h.vtype &&& 0x10F#9) ||| (0#1 ++ g ++ 0#4 : BitVec 9),
           queue := h.queue.map fun e => { e with vtype := fix e.vtype },
           sb := h.sb.map fun b => { b with strip := min b.strip (vlmaxOf (groupCount g) b.et) } }

/-- The tiles of a start in the core's arrays. -/
def Core.putTiles (c : Core) (ts : List (Nat × Tile)) : Core :=
  { c with tiles := Vector.ofFn fun (k : Fin 4) => match ts.find? (·.1 = k.val) with | some t => t.2 | none => zeroTile }

/-- Matrix mode and tiles of a start (R252): held again, kept while the core's mode is free, or lost. Tiles that the core kept for another
hart make room for them, and are zero there from then on (assumption 65). -/
def State.placeTiles (s : State) (x : Start) : State :=
  let tiu := x.hart.mstat.extractLsb' 1 4
  let lost (s : State) : State :=
    match s.core.kept with
    | some k => if k.hart = x.slot then s else s.modHart k.hart fun h => { h with mstat := mstatWith h.mstat 0x01E#10 0#10 }
    | none => s
  if x.matrix then
    let s := lost s
    { s with core := { s.core.putTiles x.tiles with matrix := some x.slot, kept := none } }
  else if tiu = 0#4 then s
  else if s.core.matrix.isNone then
    let s := lost s
    { s with core := { s.core.putTiles x.tiles with kept := some ⟨x.slot, tiu⟩ } }
  else s.modHart x.slot fun h => { h with mstat := mstatWith h.mstat 0x01E#10 0#10 }

/-- Whether a start's context is stopped for a pre-emption (R182). -/
def State.startStopped (s : State) (x : Start) : Bool :=
  match s.ctx x.hart.ctxid.toNat with | some c => c.preempted | none => false

/-- The first hart of a task to start on this core's die is sampled (R171). -/
def State.sampleStart (s : State) (id : Nat) : State :=
  if s.sched.tasks.any fun t => t.id = id && !t.sampled then
    State.sampleLaunch { s with sched := { s.sched with tasks := s.sched.tasks.map fun t =>
      if t.id = id then { t with sampled := true } else t } } s.die
  else s

/-- Put a started hart into its slot, with the asynchronous traps kept for context 0 (R181), its lane groups, matrix mode and
stream engines; or keep it until the slot and they free (R157, R198). -/
def State.placeStart (s : State) (x : Start) : State :=
  if s.harts[x.slot].status == .idle && x.groups ≤ s.core.freeCount && (!x.matrix || s.core.matrix.isNone) && !s.startStopped x then
    let mine := x.hart.ctxid = 0#32
    let h := if mine then { x.hart with asyncs := x.hart.asyncs ++ s.sched.pendingAsync } else x.hart
    let s := if mine then { s with sched := { s.sched with pendingAsync := [] } } else s
    let c := s.core.grantLanes 0 x.slot [0, 1, 2, 3] x.groups
    let c := { c with boundEngines := c.boundEngines ++ ((h.sb.toList.filter (·.valid)).map fun b => (x.slot, b.reg)) }
    let s := State.modHart { s with core := c } x.slot fun _ => h.withGroups (c.heldBy x.slot)
    ((s.placeTiles x).sampleStart x.hart.task).recount
  else State.recount { s with sched := { s.sched with starts := s.sched.starts ++ [x] } }

/-- Put a freshly started hart into its slot (R146). -/
def State.placeHart (s : State) (i : Fin 4) (h : Hart) : State := s.placeStart ⟨i, h, 0, false, []⟩

/-- The harts of this core that a record names. -/
def State.hartsHere (s : State) (m : BitVec 384) (n : Nat) : List (Fin 4) :=
  if m.getLsbD s.core.num then [(0 : Fin 4), 1, 2, 3].filter fun i => decide (i.val < n) else []

/-- A task is among the running tasks: its launch is sampled on the dies it runs on (R171), on this core's die when its first hart starts
here; and the asynchronous traps kept for context 0 go to its lowest core (R181). -/
def State.addTask (s : State) (t : Task) : State :=
  let mine := t.cmask.getLsbD s.core.num
  let dies := (List.range 12).filter fun d => (List.range 32).any fun c => t.cmask.getLsbD (32 * d + c)
  let s := { s with sched := { s.sched with
    nextTask := t.id + 1, tasks := s.sched.tasks ++ [{ t with sampled := !mine }],
    pendingAsync := if t.ctxid = 0#32 && (!mine || maskBelow t.cmask s.core.num ≠ 0) then [] else s.sched.pendingAsync } }
  dies.foldl (fun s d => if mine && d = s.die then s else s.sampleLaunch d) s

/-- Start a task at an address: its work queue, its entry among the running tasks, and its harts on this core. -/
def State.startTask (s : State) (raw : List Byte) (gangid : BitVec 32) (prio : Nat) (pc : Word) : State :=
  let m := recMask raw
  let n := recHarts raw
  let here := s.hartsHere m n
  let id := s.sched.nextTask
  let count := sliceNat raw 200 8
  let t : Task := { id := id, ctxid := BitVec.ofNat 32 (recCtx raw), gangid := gangid, prio := prio, harts := n, cmask := m,
                    here := here, others := n * maskCores m - here.length, hasQueue := decide (count ≠ 0),
                    next := sliceNat raw 192 8, rem := count, p := n * maskCores m, minchunk := sliceNat raw 208 4,
                    maxchunk := sliceNat raw 212 4, nmem := recNmem raw, map := recMap raw,
                    coord := recCoord raw, sampled := false, arrived := 0 }
  let s := s.addTask t
  here.foldl (fun s i => s.placeHart i (startedHart raw gangid id prio pc s.core.num i.val)) s

/-- Dispatch a queued record (R141, R146 to R148, R390). -/
def State.dispatchRec (s : State) (r : TaskRec) : State :=
  let gangid : BitVec 32 := BitVec.ofNat 32 (2 ^ 31 + s.sched.serial % 2 ^ 31)
  let s := { s with sched := { s.sched with queue := s.sched.queue.filter (·.serial != r.serial), serial := s.sched.serial + 1 } }
  match s.bindEntry (recCtx r.raw) (recHash r.raw) (recOff r.raw) with
  | none => (s.noteBinding (recCtx r.raw) (recHash r.raw)).gangError (recCtx r.raw) 7 gangid 0
  | some (pc, compat) =>
    let s := (s.noteBinding (recCtx r.raw) (recHash r.raw)).modCtx (recCtx r.raw) fun c =>
      { c with compat := some (c.compat.getD (compat && s.feat 12)) }
    ((s.startTask r.raw gangid (r.effective s.sched.now) pc).queueReport r.raw gangid 0 s.sched.nextTask false).writeReports

/-! ### The end of a task (R142, R144) -/

/-- Whether every hart of a task has executed `tdone`. -/
def State.taskOver (s : State) (t : Task) : Bool :=
  decide (t.others = 0) && t.here.all fun i => decide (s.harts[i].task = t.id) && s.harts[i].status == .done

/-- Free the slots of a task that is over. -/
def State.endTask (s : State) (t : Task) : State :=
  if s.taskOver t then
    let s := t.here.foldl (fun s i => s.modHart i Hart.stop) s
    { s with sched := { s.sched with tasks := s.sched.tasks.filter (·.id != t.id) } }
  else s

/-- Harts that waited for a slot, lane groups or matrix mode take them once they are free (R157, R198). -/
def State.fillStarts (s : State) : State :=
  if s.sched.starts.isEmpty then s
  else s.sched.starts.foldl (fun s x => s.placeStart x) { s with sched := { s.sched with starts := [] } }

/-- End every task that is over, and fill the slots that free. -/
def State.settleTasks (s : State) : State := (s.sched.tasks.foldl State.endTask s).fillStarts

/-- Harts of a task on other cores, which this model does not run, finish when they will: how many have done so by now is a free
choice. -/
def State.settleOthers (s : State) : State :=
  let go (t : Task) : Task := { t with others := t.others - Config.freeChoice (s.free + t.id) % (t.others + 1) }
  if s.sched.tasks.any (fun t => t.others ≠ 0) then
    State.tick { s with sched := { s.sched with tasks := s.sched.tasks.map go } }
  else s

/-- One decision of the dispatch unit (R141). -/
def State.dispatchOnce (s : State) : State :=
  let s := s.settleOthers.settleTasks
  match s.decision with
  | some r => s.dispatchRec r
  | none => s

/-! ### Work queues (R149) -/

/-- The chunk of a pull (R149). -/
def Task.chunk (t : Task) : Nat :=
  min t.rem (min t.maxchunk (max t.minchunk ((t.rem + 2 * t.p - 1) / (2 * t.p))))

/-- A work queue after `n` pulls (R149). -/
def Task.pulled (t : Task) : Nat → Task
  | 0 => t
  | n + 1 => Task.pulled { t with next := t.next + t.chunk, rem := t.rem - t.chunk } n

/-- The pulls of a task's harts on other cores that come before the next one of this core: how many is a free choice (R150). -/
def State.otherPulls (s : State) (t : Task) : State :=
  let go (x : Task) : Task := if x.id = t.id then x.pulled (Config.freeChoice s.free) else x
  if t.hasQueue && t.others ≠ 0 then State.tick { s with sched := { s.sched with tasks := s.sched.tasks.map go } } else s

/-- The task of a hart. -/
def State.taskOf (s : State) (i : Fin 4) : Option Task := s.sched.tasks.find? (·.id = s.harts[i].task)

/-- Answer a pull of a hart: start and count (R149, R150). -/
def State.pull (s : State) (i : Fin 4) : Nat × Nat × State :=
  let s := match s.taskOf i with | some t => s.otherPulls t | none => s
  match s.taskOf i with
  | none => (0, 0, s)
  | some t =>
    if t.hasQueue then
      let c := t.chunk
      (t.next, c, { s with sched := { s.sched with tasks := s.sched.tasks.map fun x =>
        if x.id = t.id then { x with next := x.next + c, rem := x.rem - c } else x } })
    else (0, 0, s)

end Sys2Proof.Machine
end

