-- ==== Sys2Proof/Machine/Reduce.lean ====
section
/-! DEFINITION. In-network reductions (R106 to R112, R640, R641): descriptors, the combination tree over ranks, and the packets that
carry its nodes. -/

namespace Sys2Proof.Machine

/-! ### The operations of R106 -/

/-- Whether an operation and an element type stand together in R106. -/
def redAllowed (op : Nat) (et : ETCode) : Bool :=
  if op = 0 || op = 6 || op = 7 || op = 8 then decide (et.toNat < 8)
  else if op = 1 || op = 4 || op = 5 then etArith et
  else if op = 2 || op = 3 then decide (et.toNat < 4)
  else false

/-- The combine of two elements, the lower rank first (R106, R107, R292). -/
def redOp (op : Nat) (et : ETCode) (a b : Nat) : Nat :=
  let w := etBits et
  let f := fmtEt et
  match op with
  | 0 => (a + b) % 2 ^ w
  | 1 => (fpAdd f .rne a b).1
  | 2 => if sval w b < sval w a then b else a
  | 3 => if sval w a < sval w b then b else a
  | 4 => (fpMinMax f false a b).1
  | 5 => (fpMinMax f true a b).1
  | 6 => a &&& b
  | 7 => a ||| b
  | _ => a ^^^ b

/-- The combine of two chunks, element by element. -/
def redBytes (op : Nat) (et : ETCode) (a b : List Byte) : List Byte :=
  let n := etBits et / 8
  (List.range (a.length / n)).flatMap fun i => natLe n (redOp op et (sliceNat a (i * n) n) (sliceNat b (i * n) n))

/-! ### The tree of R107 -/

/-- Nodes of a level over `n` ranks. -/
def nodesAt (n l : Nat) : Nat := (n + 2 ^ l - 1) / 2 ^ l

/-- The rank of a node's endpoint site. -/
def siteRank (l i : Nat) : Nat := i * 2 ^ l

/-- OP of a reduction. -/
def Reduction.op (r : Reduction) : Nat := r.opet.toNat % 16
/-- ET of a reduction. -/
def Reduction.et (r : Reduction) : ETCode := r.opet.extractLsb' 4 4
/-- Bytes per member. -/
def Reduction.bytes (r : Reduction) : Nat := r.count * etBits r.et / 8
/-- Chunks per member (R109). -/
def Reduction.chunks (r : Reduction) : Nat := (r.bytes + 255) / 256
/-- Bytes of a chunk. -/
def Reduction.chunkLen (r : Reduction) (k : Nat) : Nat := min 256 (r.bytes - 256 * k)
/-- The endpoint of a rank. -/
def Reduction.member (r : Reduction) (rank : Nat) : Epid := r.members.getD rank 0#19

/-- Who accesses memory for a reduction: its hart's permissions, the flow of the reduction logic (R62, R640). -/
def Reduction.who (r : Reduction) : Who := ⟨r.h, r.ctxid, r.level, r.pc, 6, 0⟩

/-! ### Packets (R63, R106, R109) -/

/-- Which reductions stand: replace one by its job and RID. -/
def State.setReduction (s : State) (r : Reduction) : State :=
  { s with trust := { s.trust with reductions := s.trust.reductions.map fun x => if x.job = r.job && x.rid = r.rid then r else x } }

/-- The outstanding reduction of a job's RID. -/
def State.reduction (s : State) (job : BitVec 16) (rid : BitVec 32) : Option Reduction :=
  s.trust.reductions.find? fun r => r.job = job && r.rid = rid

/-- An entry of KIND 6: to the submitting hart while it runs the context, else to the collector (R370, R373). -/
def State.reductionError (s : State) (r : Reduction) : State :=
  let e : ErrEntry := { va := 0#64, peer := s.fab.epid, itag := itagOf r.pc, kind := 6, st := 0, attr := 0#8, hart := some r.h,
                        job := r.job, aux := r.rid.toNat, data := [] }
  if s.harts[r.h].isRunning && s.harts[r.h].ctxid.toNat = r.ctxid then s.errorTo r.h e
  else s.errorToCollector r.ctxid { e with hart := none, itag := 0#32 }

/-- Write the status word and end the reduction; it waits while its bank changes its mode (R111, R310). -/
def State.writeStatus (s : State) (r : Reduction) (word : Nat) : State :=
  let ended (s : State) : State :=
    { s with trust := { s.trust with reductions := s.trust.reductions.filter (fun x => !(x.job = r.job && x.rid = r.rid)),
                                     retiredRids := (r.job, r.rid) :: s.trust.retiredRids } }
  match s.deviceStore r.who r.status.toNat (natLe 8 word) with
  | .ok _ s => ended s
  | .busy => s
  | _ => ended s

/-- The reduction is over at this member but for its status word: 1 is DONE, 2 is FAIL (R111). -/
def State.endReduction (s : State) (r : Reduction) (word : Nat) : State :=
  let r1 := { r with word := some word, pend := [], sent := r.chunks }
  (s.setReduction r1).writeStatus r1 word

/-- A reduction fails at this member, once (R111, R640). What DSTVA then holds is undefined: the chunks written so far stay (assumption 62). -/
def State.failReduction (s : State) (r : Reduction) : State :=
  if r.word.isSome then s else (s.endReduction r 2).reductionError r

/-- A REDUCE or REDRES packet with the data of a node's chunk, on the lowest-numbered port of PLANE; sealed when the descriptor's ENC is set
(R109). Without the job's key it cannot be sealed, and the reduction fails; without a port nothing is sent. -/
def State.sendNode (s : State) (r : Reduction) (ptype l i k : Nat) (site : Nat) (data : List Byte) : State :=
  let gen : BitVec 16 := match s.jobEntry r.job with | some e => e.gen | none => 0#16
  let spec16 := BitVec.ofNat 16 (r.opet.toNat + 256 * l)
  let spec64 := BitVec.ofNat 64 (r.rid.toNat + i * 2 ^ 32 + k * 2 ^ 48)
  let p := s.plainPacket ptype (r.member site) r.job gen 0xC000#16 (itagOf r.pc) spec16 spec64 data
  if r.enc && (s.jobKey r.job).isNone then s.failReduction r
  else match s.fab.planePort r.plane with | some q => s.emit q (if r.enc then toSeal p else p) | none => s

/-- Write a chunk of the result to DSTVA: the last one ends the reduction, and one that a bank holds up waits (R111, R310, R640). -/
def State.writeChunk (s : State) (r : Reduction) (k : Nat) (data : List Byte) : State :=
  match s.deviceStore r.who (r.dstva.toNat + 256 * k) (data.take (r.chunkLen k)) with
  | .ok _ s =>
    let r := { r with down := natInsert r.down k, pend := r.pend.filter (·.1 ≠ k) }
    if r.chunks ≤ r.down.length then (s.setReduction r).endReduction r 1 else s.setReduction r
  | .busy => s.setReduction { r with pend := r.pend.filter (·.1 ≠ k) ++ [(k, data)] }
  | _ => s.failReduction r

/-- A chunk of the result reaches rank r. -/
def State.resultChunk (s : State) (r : Reduction) (k : Nat) (data : List Byte) : State :=
  let r := (s.reduction r.job r.rid).getD r
  if r.word.isSome || r.down.contains k then s else s.writeChunk r k data

/-- Send a node's result towards the endpoint sites of its children; at level 0 the result has arrived (R109). -/
def State.sendDown (s : State) (r : Reduction) (l i k : Nat) (data : List Byte) : State :=
  match l with
  | 0 => s.resultChunk r k data
  | l + 1 =>
    let s := s.sendNode r 0x0C l (2 * i) k (siteRank l (2 * i)) data
    if 2 * i + 1 < nodesAt r.n l then s.sendNode r 0x0C l (2 * i + 1) k (siteRank l (2 * i + 1)) data else s

/-- A node formed at its site goes on to its parent's site, or starts the way down at the root (R109). -/
def State.sendUp (s : State) (r : Reduction) (l i k : Nat) (data : List Byte) : State :=
  if nodesAt r.n l ≤ 1 then s.sendDown r l i k data
  else s.sendNode r 0x0B l i k (siteRank (l + 1) (i / 2)) data

/-- A REDUCE packet at this member's site: the node (l, i) of a chunk waits for its sibling, or forms its parent (R109). -/
def State.takeNode (s : State) (r : Reduction) (l i k : Nat) (data : List Byte) : State :=
  let sib := if i % 2 = 0 then i + 1 else i - 1
  if nodesAt r.n l ≤ sib then s.sendUp r (l + 1) (i / 2) k data
  else
    match r.up.find? fun x => x.level = l && x.node = sib && x.chunk = k with
    | none => s.setReduction { r with up := r.up ++ [⟨l, i, k, data⟩] }
    | some x =>
      let r := { r with up := r.up.filter fun y => !(y.level = l && y.node = sib && y.chunk = k) }
      let d := if i % 2 = 0 then redBytes r.op r.et data x.data else redBytes r.op r.et x.data data
      (s.setReduction r).sendUp r (l + 1) (i / 2) k d

/-- A REDUCE or REDRES packet for an accepted reduction. -/
def State.reducePacket (s : State) (r : Reduction) (p : Packet) (data : List Byte) : State :=
  let l := p.spec16.toNat / 256 % 32
  let i := p.spec64.toNat / 2 ^ 32 % 2 ^ 16
  let k := p.spec64.toNat / 2 ^ 48
  if p.ptype = 0x0B#8 then s.takeNode r l i k data else s.sendDown r l i k data

/-- Space that a held packet takes: its header of 32 bytes and its data beats, a tag among them, since the spec does not say what counts
towards the 64 KiB (R641, assumption 62). -/
def heldSize (p : Packet) : Nat := 32 + p.data.length

/-- A REDUCE or REDRES packet arrives (R76, R104, R109, R641). One for a RID that has ended here is dropped, also where the job will use the
RID again (assumption 62). -/
def State.reduceArrive (s : State) (p : Packet) : State :=
  let rid := p.spec64.extractLsb' 0 32
  let live := match s.jobEntry p.job with | some e => e.gen == p.gen && e.state != .quarantine | none => false
  if !live then s
  else
    match s.openPacket p with
    | none => s
    | some data =>
      match s.reduction p.job rid with
      | some r => if r.word.isSome then s else s.reducePacket r p data
      | none =>
        if s.trust.retiredRids.contains (p.job, rid) then s
        else if 65536 < (s.trust.held.map fun x => heldSize x.pkt).sum + heldSize p then s
        else { s with trust := { s.trust with held := s.trust.held ++ [⟨p⟩] } }

/-! ### Submitting a descriptor (R108, R640) -/

/-- Whether every byte of a range translates with a permission. -/
def State.rangeOk (s : State) (w : Who) (kind : AccKind) (va n : Nat) : Bool :=
  decide (va + n ≤ 2 ^ 63) &&
  (match s.locateAll w kind .engine n (pagePieces va n) with | .ok _ => true | .error _ => false)

/-- The endpoints of a member table (R94). -/
def State.memberTable (s : State) (w : Who) (map n : Nat) : Option (List Epid) :=
  (s.deviceRead w map (8 * n)).map fun bs => (List.range n).map fun i => BitVec.ofNat 19 (sliceNat bs (8 * i) 4)

/-- The current key epoch of a job; 0 while it has no key. -/
def State.kepochOf (s : State) (job : BitVec 16) : Nat := match s.jobKey job with | some k => k.kepoch.toNat | none => 0

/-- The reduction that a descriptor describes. -/
def reductionOf (w : Who) (job : BitVec 16) (d : List Byte) : Reduction :=
  { h := w.h, level := w.level, pc := w.pc, ctxid := w.ctxid, job := job, rid := BitVec.ofNat 32 (sliceNat d 0 4),
    opet := BitVec.ofNat 8 (sliceNat d 4 1), plane := sliceNat d 6 1 % 32, enc := decide (sliceNat d 7 1 % 2 = 1),
    n := sliceNat d 8 4, rank := sliceNat d 12 4, count := sliceNat d 16 8, dstva := BitVec.ofNat 64 (sliceNat d 32 8),
    status := BitVec.ofNat 64 (sliceNat d 48 8), members := [], up := [], down := [], src := sliceNat d 24 8, sent := 0, pend := [],
    word := none }

/-- The endpoints of an accepted descriptor's members, or none where R640 refuses it. -/
def State.checkReduction (s : State) (w : Who) (r : Reduction) (d : List Byte) : Option (List Epid) :=
  let src := r.src
  let bits := decide (sliceNat d 5 1 = 0) && decide (sliceNat d 6 1 < 32) && decide (sliceNat d 7 1 < 2) && decide (sliceNat d 60 4 = 0)
  let plane := (s.fab.planePort r.plane).isSome
  if !bits || !redAllowed r.op r.et || !s.feat 11 || sliceNat d 56 4 ≠ s.kepochOf r.job || r.n = 0 || 65536 < r.n ||
      r.n ≤ r.rank || 65536 < r.chunks || !plane || (s.reduction r.job r.rid).isSome then none
  else
    match s.memberTable w (sliceNat d 40 8) r.n with
    | none => none
    | some ms =>
      if ms.getD r.rank 0#19 = s.fab.epid && s.rangeOk w .load src r.bytes && s.rangeOk w .store r.dstva.toNat r.bytes &&
          s.rangeOk w .store r.status.toNat 8 then some ms
      else none

/-- Send the next chunk of node (0, RANK) up the tree; a failing read ends the reduction, and a bank makes it wait (R109, R310, R640). -/
def State.sendLeaf (s : State) (r : Reduction) : State :=
  let k := r.sent
  match s.deviceLoad r.who (r.src + 256 * k) (r.chunkLen k) with
  | .ok bs s => let r1 := { r with sent := k + 1 }; (s.setReduction r1).sendUp r1 0 r.rank k bs
  | .busy => s
  | _ => s.failReduction r

/-- What a reduction does next at this member: its status word, a result chunk that was held up, or a further chunk of its data. -/
def State.reduceStep (s : State) (r : Reduction) : State :=
  match r.word, r.pend with
  | some w, _ => s.writeStatus r w
  | none, x :: _ => s.writeChunk r x.1 x.2
  | none, [] => if r.sent < r.chunks then s.sendLeaf r else s

/-- A reduction goes on as far as it can. -/
def State.reduceRun (job : BitVec 16) (rid : BitVec 32) : Nat → State → State
  | 0, s => s
  | n + 1, s =>
    match s.reduction job rid with
    | none => s
    | some r =>
      let s1 := s.reduceStep r
      if s1.reduction job rid = some r then s1 else State.reduceRun job rid n s1

/-- Every reduction of the device goes on. -/
def State.reduceAll (s : State) : State :=
  s.trust.reductions.foldl (fun s r => State.reduceRun r.job r.rid (r.chunks + r.pend.length + 2) s) s

/-- Packets held for a reduction are used once it is accepted (R641). -/
def State.useHeld (s : State) (r : Reduction) : State :=
  let mine := s.trust.held.filter fun x => x.pkt.job = r.job && x.pkt.spec64.extractLsb' 0 32 = r.rid
  let s := { s with trust := { s.trust with held := s.trust.held.filter fun x =>
    !(x.pkt.job = r.job && x.pkt.spec64.extractLsb' 0 32 = r.rid) } }
  mine.foldl (fun s x => s.reduceArrive x.pkt) s

/-- A refused descriptor: its status word, where it can be written, and an entry of KIND 6 (R499, R640). -/
def State.refuseReduction (s : State) (r : Reduction) : State :=
  ((s.deviceWrite r.who r.status.toNat (natLe 8 2)).getD s).reductionError r

/-- Submit a descriptor to the reduction logic (R108, R499, R640). -/
def State.submitReduction (s : State) (w : Who) (d : List Byte) : State :=
  let r := reductionOf w (s.jobOf w.ctxid) d
  match s.checkReduction w r d with
  | none => s.refuseReduction r
  | some ms =>
    let r := { r with members := ms }
    let s := { s with trust := { s.trust with
      reductions := s.trust.reductions ++ [r],
      retiredRids := s.trust.retiredRids.filter fun x => x ≠ (r.job, r.rid) } }
    if r.count = 0 then s.endReduction r 1
    else (State.reduceRun r.job r.rid (r.chunks + 2) s).useHeld r

/-- A missing chunk fails a reduction (R111). -/
def State.timeoutReduction (s : State) (job : BitVec 16) (rid : BitVec 32) : State :=
  match s.reduction job rid with
  | some r => s.failReduction r
  | none => s

end Sys2Proof.Machine
end

