-- ==== Sys2Proof/Machine/Control.lean ====
section
/-! DEFINITION. Branches, jumps, calls, returns and hardware loops (R457 to R463), with the spill and refill of the return
stack (R374, R375). -/

namespace Sys2Proof.Machine

/-! ### Branches and jumps -/

/-- The target of a branch (R403, R457). -/
def branchTarget (pc : Word) (i : BitVec 16) : Word := pc + (i.signExtend 64 <<< 2)

/-- The target of a format-J jump (R458). -/
def jumpTarget (pc : Word) (i : BitVec 26) : Word := pc + (i.signExtend 64 <<< 2)

/-- A branch (R457): taken, it goes to its target without a loop-end step (R463). -/
def branch (iw : IWord) (a b : XNum) (i : BitVec 16) (c : Word → Word → Bool) (s : State) : Result :=
  scalarInstr iw [a, b] s fun s => if c (s.x a) (s.x b) then s.goTo (branchTarget s.h.pc i) else s.retire

/-- `beq` (R457). -/
def execBeq (a b : BitVec 5) (i : BitVec 16) (s : State) : Result := branch (wBeq a b i) a b i (fun x y => x == y) s

/-- `bne` (R457). -/
def execBne (a b : BitVec 5) (i : BitVec 16) (s : State) : Result := branch (wBne a b i) a b i (fun x y => x != y) s

/-- `blt` (R457: signed). -/
def execBlt (a b : BitVec 5) (i : BitVec 16) (s : State) : Result := branch (wBlt a b i) a b i (fun x y => x.slt y) s

/-- `bge` (R457: signed). -/
def execBge (a b : BitVec 5) (i : BitVec 16) (s : State) : Result := branch (wBge a b i) a b i (fun x y => !x.slt y) s

/-- `bltu` (R457: unsigned). -/
def execBltu (a b : BitVec 5) (i : BitVec 16) (s : State) : Result := branch (wBltu a b i) a b i (fun x y => x.ult y) s

/-- `bgeu` (R457: unsigned). -/
def execBgeu (a b : BitVec 5) (i : BitVec 16) (s : State) : Result := branch (wBgeu a b i) a b i (fun x y => !x.ult y) s

/-- `jmp` (R458). -/
def execJmp (i : BitVec 26) (s : State) : Result :=
  scalarInstr (wJmp i) [] s fun s => s.goTo (jumpTarget s.h.pc i)

/-- `jalr` (R458): the target is read before the register is written; the return stack is not touched. -/
def execJalr (d a : BitVec 5) (s : State) : Result :=
  scalarInstr (wJalr d a) [a] s fun s =>
    let t := s.x a
    (s.setX d (s.h.pc + 4#64)).goTo t

/-! ### The return stack (R374, R375) -/

/-- One word of the frame at EMUF, read with S permissions. -/
def State.frameWord (s : State) (iw : IWord) (k off : Nat) : Except State (Word × State) :=
  match s.scalarLoad iw .s k (s.h.emuf.toNat + off) 8 .aux with
  | .error s => .error s
  | .ok (bs, s) => .ok (BitVec.ofNat 64 (leNat bs), s)

/-- Whether a store with S permissions would fault: its trap. -/
def State.storeFault (s : State) (va n : Nat) : Option Trap :=
  match s.locateAll { s.whoScalar with level := .s } .store .aux n (if 2 ^ 63 ≤ va then [(va, n)] else pagePieces va n) with
  | .error t => some t
  | .ok _ => none

/-- The spill of the oldest on-chip entry (R374, R375): nothing changes when any of its accesses traps or must wait. -/
def State.spill (s : State) (iw : IWord) (oldest : Word) : Except State State :=
  if s.h.emuf = 0#64 then .error (s.trapHere cPROT 0#64)
  else if 7 ≤ s.h.stbuf.length then .error (s.wait .retry iw)
  else
    match s.frameWord iw 0 0 with
    | .error s => .error s
    | .ok (ptr, s) =>
      match s.frameWord iw 1 8 with
      | .error s => .error s
      | .ok (lim, s) =>
        if lim.toNat < ptr.toNat + 8 then .error (s.trapHere cPROT ptr)
        else
          match s.storeFault ptr.toNat 8 with
          | some t => .error (s.takeTrap t s.h.pc)
          | none =>
            match s.storeFault s.h.emuf.toNat 8 with
            | some t => .error (s.takeTrap t s.h.pc)
            | none =>
              match s.scalarStore iw .s ptr.toNat (wordLe oldest) .aux with
              | .error s => .error s
              | .ok s => s.scalarStore iw .s s.h.emuf.toNat (wordLe (ptr + 8#64)) .aux

/-- The refill of an empty on-chip stack (R374, R375): the entry that the pop will take. -/
def State.refill (s : State) (iw : IWord) : Except State (Word × State) :=
  if s.h.emuf = 0#64 then .error (s.trapHere cPROT 0#64)
  else if 8 ≤ s.h.stbuf.length then .error (s.wait .retry iw)
  else
    match s.frameWord iw 0 0 with
    | .error s => .error s
    | .ok (ptr, s) =>
      match s.frameWord iw 1 16 with
      | .error s => .error s
      | .ok (base, s) =>
        if ptr.toNat ≤ base.toNat then .error (s.ill iw)
        else
          match s.scalarLoad iw .s 2 (ptr - 8#64).toNat 8 .aux with
          | .error s => .error s
          | .ok (bs, s) =>
            match s.scalarStore iw .s s.h.emuf.toNat (wordLe (ptr - 8#64)) .aux with
            | .error s => .error s
            | .ok s => .ok (BitVec.ofNat 64 (leNat bs), s)

/-- A call (R458): the return stack, whose newest entry stands first, takes PC + 4; x1 takes it too. -/
def State.callTo (s : State) (iw : IWord) (t : Word) : State :=
  let push (s : State) (rs : List Word) : State :=
    ((s.endRemote.mod fun h => { h with rs := (h.pc + 4#64) :: rs }).setX 1#5 (s.h.pc + 4#64)).goTo t
  if s.h.rs.length < 16 then push s s.h.rs
  else
    match s.spill iw (s.h.rs.getLastD 0#64) with
    | .error s => s
    | .ok s => push s s.h.rs.dropLast

/-- `call` (R458). -/
def execCall (i : BitVec 26) (s : State) : Result :=
  scalarInstr (wCall i) [] s fun s => s.callTo (wCall i) (jumpTarget s.h.pc i)

/-- `callr` (R458): the target is read before any write. -/
def execCallr (a : BitVec 5) (s : State) : Result :=
  scalarInstr (wCallr a) [a] s fun s => s.callTo (wCallr a) (s.x a)

/-- `ret` (R458): the target comes from the return stack alone. -/
def execRet (s : State) : Result :=
  scalarInstr wRet [] s fun s =>
    match s.h.rs with
    | t :: rest => (s.mod fun h => { h with rs := rest }).goTo t
    | [] =>
      match s.refill wRet with
      | .error s => s
      | .ok (t, s) => s.endRemote.goTo t

/-! ### Hardware loops -/

/-- `loop` (R461): ILL at an active loop end; a count of 0 skips the body. -/
def execLoop (l : BitVec 1) (c : BitVec 5) (n : BitVec 20) (s : State) : Result :=
  if (s.h.pc = s.h.le0 && s.h.lc0 ≠ 0#64) || (s.h.pc = s.h.le1 && s.h.lc1 ≠ 0#64) then .next (s.ill (wLoop l c n))
  else
    scalarInstr (wLoop l c n) [c] s fun s =>
      let h := s.h
      let cnt := s.x c
      let le := h.pc + (n.setWidth 64 <<< 2)
      let s1 := s.mod fun h =>
        if l = 0#1 then { h with ls0 := h.pc + 4#64, le0 := le, lc0 := cnt }
        else { h with ls1 := h.pc + 4#64, le1 := le, lc1 := cnt }
      s1.goTo (if cnt = 0#64 then le + 4#64 else h.pc + 4#64)

end Sys2Proof.Machine
end

