-- ==== Sys2Proof/Machine/Hash.lean ====
section
/-! DEFINITION. SHA3-512 (R122, R380, R386): the Keccak permutation on a state of 1,600 bits, with a rate of 72 bytes. -/

namespace Sys2Proof.Machine

/-- The 1,600 bits of the sponge: lane (x, y) stands at bits 64 (x + 5 y) on. -/
abbrev Sponge := BitVec 1600

/-- A lane, its coordinates taken modulo 5. -/
def Sponge.at (a : Sponge) (x y : Nat) : Word := a.extractLsb' (64 * (x % 5 + 5 * (y % 5))) 64

/-- The sponge whose lanes a function gives. -/
def Sponge.of (f : Nat → Nat → Word) : Sponge :=
  (List.range 25).foldl (fun (a : Sponge) i => a ||| ((f (i % 5) (i / 5)).setWidth 1600 <<< (64 * i))) 0#1600

/-- The place that follows (x, y) on the walk of the rho and pi steps. -/
def spongeNext (p : Nat × Nat) : Nat × Nat := (p.2, (2 * p.1 + 3 * p.2) % 5)

/-- How far the lanes turn that the walk meets from its `t`-th place on: the `t`-th one by the triangular number of t + 1. -/
def spongeTurns : Nat → Nat → Nat × Nat → List ((Nat × Nat) × Nat)
  | 0, _, _ => []
  | n + 1, t, p => (p, (t + 1) * (t + 2) / 2 % 64) :: spongeTurns n (t + 1) (spongeNext p)

/-- The turn of every lane but (0, 0), which does not turn. -/
def spongeTurn (p : Nat × Nat) : Nat := ((spongeTurns 24 0 (1, 0)).lookup p).getD 0

/-- The exclusive or of a column. -/
def Sponge.column (a : Sponge) (x : Nat) : Word := (List.range 5).foldl (fun w y => w ^^^ a.at x y) 0#64

/-- The linear half of a round: each lane takes up its two neighbouring columns, turns, and moves to the place after it. -/
def Sponge.spread (a : Sponge) : Sponge :=
  let c := (List.range 5).map a.column
  let mix (x : Nat) : Word := c.getD ((x + 4) % 5) 0#64 ^^^ (c.getD ((x + 1) % 5) 0#64).rotateLeft 1
  Sponge.of fun x y =>
    let from_ := ((x + 3 * y) % 5, x)
    (a.at from_.1 from_.2 ^^^ mix from_.1).rotateLeft (spongeTurn from_)

/-- One step of the register of eight bits that the round constants come from. -/
def spongeClock (r : Nat) : Nat := if r < 128 then 2 * r else (2 * r) ^^^ 0x171

/-- The register after `n` steps. -/
def spongeReg : Nat → Nat
  | 0 => 1
  | n + 1 => spongeClock (spongeReg n)

/-- The constant of round `k`: seven steps of the register give its bits 0, 1, 3, 7, 15, 31 and 63. -/
def spongeConst (k : Nat) : Word :=
  (List.range 7).foldl (fun (w : Word) j => if spongeReg (7 * k + j) % 2 = 1 then w ||| (1#64 <<< (2 ^ j - 1)) else w) 0#64

/-- Round `k`: the linear half, then each lane takes up the next two of its row, and lane (0, 0) the constant. -/
def Sponge.round (a : Sponge) (k : Nat) : Sponge :=
  let b := a.spread
  (Sponge.of fun x y => b.at x y ^^^ (b.at (x + 2) y &&& ~~~(b.at (x + 1) y))) ^^^ (spongeConst k).setWidth 1600

/-- The permutation of 24 rounds. -/
def Sponge.permute (a : Sponge) : Sponge := (List.range 24).foldl Sponge.round a

/-- A message in blocks of 72 bytes, into a sponge. -/
def Sponge.soak : Nat → Sponge → List Byte → Sponge
  | 0, a, _ => a
  | n + 1, a, bs => Sponge.soak n (a ^^^ BitVec.ofNat 1600 (sliceNat bs 0 72)).permute (bs.drop 72)

/-- What follows a message of `n` bytes up to a whole block: 0x06, zeros, and the top bit of the last byte. -/
def spongePad (n : Nat) : List Byte :=
  let room := 72 - n % 72
  natLe room (0x06 + 0x80 * 256 ^ (room - 1))

/-- The SHA3-512 digest of bytes. -/
def sha3 (bs : List Byte) : List Byte :=
  natLe 64 (Sponge.soak (bs.length / 72 + 1) 0#1600 (bs ++ spongePad bs.length)).toNat

end Sys2Proof.Machine
end

