-- ==== Sys2Proof/Machine/Copy.lean ====
section
/-! DEFINITION. The copy engine (R493 to R502) with verified units, reductions, launch records and gang control, and the
compress-and-append instruction (R503, R504). -/

namespace Sys2Proof.Machine

/-! ### Where the bytes of a copy stand (R493, R495, R496) -/

/-- A bulk copy as rows: how many, how long, and where each is read and written. -/
structure CopyPlan where
  rows : Nat
  len : Nat
  src : Nat → Nat
  dst : Nat → Nat

/-- Bytes of a copy. -/
def CopyPlan.total (p : CopyPlan) : Nat := p.rows * p.len

/-- Chunks of a copy (R496). -/
def CopyPlan.chunks (p : CopyPlan) : Nat := (p.total + 511) / 512

/-- A VA and a signed offset, modulo 2^64. -/
def vaPlus (base : Nat) (off : Int) : Nat := ((Int.ofNat base + off) % 2 ^ 64).toNat

/-- The pieces of `n` bytes of copy order from offset `off` on, each within one row: row, offset in the row, length. -/
def copyPieces (len : Nat) : Nat → Nat → Nat → List (Nat × Nat × Nat)
  | 0, _, _ => []
  | fuel + 1, off, n =>
    if n = 0 || len = 0 then []
    else
      let m := min n (len - off % len)
      (off / len, off % len, m) :: copyPieces len fuel (off + m) (n - m)

/-- The pieces of a chunk. -/
def CopyPlan.pieces (p : CopyPlan) (c : Nat) : List (Nat × Nat × Nat) :=
  let n := min 512 (p.total - 512 * c)
  copyPieces p.len (n + 1) (512 * c) n

/-- The rows of `gsp` or `ssp`: CPROW bytes at a signed multiple of CPROW on one side, in increasing t on the other (R495). -/
def gatherPlan (scatter : Bool) (h : Hart) (e : QEntry) : CopyPlan :=
  let c := e.cap
  let vi := h.readAs e.post.b c.et c.lmap
  let n := h.cprow.toNat
  let idx (t : Nat) : Int := sval c.bits (vi.elem c.bits (t / c.vl) (t % c.vl))
  let side (base t : Nat) : Nat := (base + t * n) % 2 ^ 64
  let far (base t : Nat) : Nat := vaPlus base (idx t * Int.ofNat n)
  if scatter then ⟨e.total, n, side e.opb.toNat, far e.opa.toNat⟩ else ⟨e.total, n, far e.opb.toNat, side e.opa.toNat⟩

/-- The rows of a bulk copy (R493, R496). -/
def bulkPlan (d : Nat) : CopyPlan :=
  let stride (at_ : Nat) : Int := sval 64 (bitsAt d at_ 64)
  ⟨bitsAt d 256 32, bitsAt d 192 64, fun j => vaPlus (bitsAt d 64 64) (Int.ofNat j * stride 320),
    fun j => vaPlus (bitsAt d 128 64) (Int.ofNat j * stride 384)⟩

/-! ### Descriptors (R493, R494) -/

/-- KIND of a descriptor. -/
def copyKind (d : Nat) : Nat := bitsAt d 0 8

/-- Whether a descriptor breaks R493, the alignment of R498, or the KIND column and the other conditions of R494 and R496. -/
def copyBad (remote user masked : Bool) (d : Nat) : Bool :=
  let kind := copyKind d
  let len := bitsAt d 192 64
  let rows := bitsAt d 256 32
  let strides := decide (bitsAt d 320 128 = 0)
  let aux := bitsAt d 448 64
  let src := bitsAt d 64 64
  let dst := bitsAt d 128 64
  let g := bitsAt aux 32 4
  let common := decide (bitsAt d 8 56 = 0) && decide (bitsAt d 288 32 = 0)
  let fields : Bool :=
    match kind with
    | 0 => decide (1 ≤ len) && decide (len ≤ 2 ^ 24) && decide (1 ≤ rows) && decide (rows ≤ 65536) && decide (aux = 0) &&
        !(masked && decide (2 ^ 24 < len * rows)) && !(remote && decide (2 ^ 63 ≤ src) && decide (2 ^ 63 ≤ dst))
    | 1 => !remote && decide (len = 4096) && decide (rows = 1) && strides && decide (src % 4096 = 0) && decide (dst % 4096 = 0) &&
        decide (aux % 64 = 0)
    | 2 => remote && decide (len = 0) && decide (rows = 0) && strides && decide (dst = 0) && decide (aux = 0)
    | 3 => remote && !user && decide (len = 0) && decide (rows = 0) && strides && decide (aux < 2 ^ 19)
    | 4 => remote && !user && decide (len = 0) && strides && decide (bitsAt aux 19 13 = 0) && decide (aux < 2 ^ 37) &&
        (decide (g = 0) || ((decide (g = 2) || decide (g = 3)) && decide (aux < 2 ^ 36)))
    | _ => false
  !(common && fields)

/-! ### Chunks -/

/-- Whether an address is one that `cpy`, `gsp` or `ssp` may not reach: a fabric address of another domain (R496). -/
def State.foreign (s : State) (va : Nat) : Bool :=
  decide (2 ^ 63 ≤ va) && domainOf (BitVec.ofNat 19 (va / 2 ^ 44)) != domainOf s.fab.epid

/-- The first failing VA of a local read of bytes, and its trap: word by word where a word is uncorrectable (R317, R497). -/
def State.readTrap (s : State) (w : Who) (va n : Nat) : Option Trap :=
  if 2 ^ 63 ≤ va then none
  else
    match s.load w va n .engine with
    | .trap t =>
      if t.cause == cECC then
        (pieces 8 (n / 8 + 2) va n).findSome? fun p => match s.load w p.1 p.2 .engine with | .trap t => some t | _ => none
      else some t
    | _ => none

/-- The failure of a write of bytes at its check. -/
def State.writeTrap (s : State) (w : Who) (va n : Nat) : Option Trap :=
  if 2 ^ 63 ≤ va then none
  else
    match s.store w va (List.replicate n 0#8) .engine with
    | .trap t => some t
    | .fifo _ => some ⟨cPROT, BitVec.ofNat 64 va⟩
    | _ => none

/-- Whether a write of bytes waits for a bank whose change began in another mode than scratchpad, so that it is checked only once the
change is over (R310). -/
def State.bankWait (s : State) (w : Who) (va n : Nat) : Bool :=
  match s.store w va (List.replicate n 0#8) .engine with
  | .busy => s.bankMode va != some .spad
  | _ => false

/-- The trap with the lowest VA. -/
def lowestTrap (ts : List (Option Trap)) : Option Trap :=
  ts.foldl (fun best t =>
    match best, t with
    | none, t => t
    | some b, none => some b
    | some b, some t => if t.tval.toNat < b.tval.toNat then some t else some b) none

/-- The lowest failing VA of a chunk at translation, protection, domain or a local read (R497). -/
def State.chunkTrap (s : State) (w : Who) (p : CopyPlan) (far : Bool) (c : Nat) : Option Trap :=
  lowestTrap ((p.pieces c).flatMap fun x =>
    let a := (p.src x.1 + x.2.1) % 2 ^ 64
    let b := (p.dst x.1 + x.2.1) % 2 ^ 64
    let dom (v : Nat) : Option Trap := if !far && s.foreign v then some ⟨cFDOMAIN, BitVec.ofNat 64 v⟩ else none
    [dom a, dom b, s.readTrap w a x.2.2, s.writeTrap w b x.2.2])

/-- Whether a chunk waits for the bank of a byte that it writes (R310). -/
def State.chunkWait (s : State) (w : Who) (p : CopyPlan) (c : Nat) : Bool :=
  (p.pieces c).any fun x => s.bankWait w ((p.dst x.1 + x.2.1) % 2 ^ 64) x.2.2

/-- Chunks of the core's copies that are requested and not complete, those of one entry as it stands now (R220). -/
def State.chunksOut (s : State) (i : Fin 4) (e : QEntry) : Nat :=
  let open_ (x : QEntry) : Nat := x.chunks.inFlight.eraseDups.length
  ([(0 : Fin 4), 1, 2, 3].map fun j =>
    ((s.harts[j].queue.filter fun x => x.post.body.isCopy && !(decide (j = i) && x.eid == e.eid)).map open_).sum).sum + open_ e

/-- Whether byte `a` lies in some row of a set of rows. -/
def inRows (f : Nat → Nat) (len n a : Nat) : Bool := (List.range n).any fun j => decide (vaPlus a (-Int.ofNat (f j)) < len)

/-- A byte as a copy writes it: undefined where the destination overlaps the source of a bulk copy (R496); where rows of the
destination overlap, it ends with the value of one of them (R495). None keeps what stands there. -/
def copyByte (p : CopyPlan) (bulk : Bool) (free row at_ : Nat) (b : Byte) : Option Byte :=
  if bulk && inRows p.src p.len p.rows at_ then some (Config.freeByte free at_)
  else if inRows p.dst p.len row at_ then (if Config.freeChoice (free + at_) % 2 = 0 then none else some b)
  else some b

/-- Runs of bytes to write, with their addresses. -/
def copyRuns : Nat → List (Option Byte) → List (Nat × List Byte)
  | _, [] => []
  | a, none :: bs => copyRuns (a + 1) bs
  | a, some b :: bs =>
    match copyRuns (a + 1) bs with
    | (x, r) :: rest => if x = a + 1 then (a, b :: r) :: rest else (a, [b]) :: (x, r) :: rest
    | [] => [(a, [b])]

/-- Set bit `c` of the completion mask (R247). -/
def Hart.setChunkBit (h : Hart) (m : MNum) (c : Nat) : Hart :=
  h.setMask m (Vector.ofFn fun (k : Fin 16) =>
    let row := (h.mask m)[k]
    if k.val = c / 2048 then row ||| (1#2048 <<< (c % 2048)) else row)

/-- Whether bit `c` of the completion mask is set. -/
def Hart.chunkBit (h : Hart) (m : MNum) (c : Nat) : Bool := m != 0#3 && (h.mask m).bit (c / 2048) (c % 2048)

/-- A chunk completes: its bit is set, and a failed write counts for `cwait` (R347, R497, R501). -/
def Hart.chunkDone (h : Hart) (e : QEntry) (c : Nat) : Hart × QEntry :=
  if e.chunks.done.contains c then (h, e)
  else
    let h1 := h.setChunkBit e.post.m c
    ({ h1 with cfails := h1.cfails + (if e.chunks.failed.contains c then 1 else 0) },
     { e with chunks := { e.chunks with done := natInsert e.chunks.done c } })

/-- Requests and late stores of a chunk still out. -/
def chunkPending (e : QEntry) (c : Nat) : Bool := e.chunks.inFlight.contains c

/-- One write of a chunk's run: performed, sent, or kept back (R310, R639). The chunk's outstanding writes are counted. -/
def copyWrite (i : Fin 4) (w : Who) (c : Nat) (run : Nat × List Byte) (s : State) (e : QEntry) : State × QEntry :=
  let va := run.1 % 2 ^ 64
  let out (n : Nat) : QEntry := { e with chunks := { e.chunks with inFlight := e.chunks.inFlight ++ List.replicate n c } }
  match s.store w va run.2 .engine with
  | .ok _ s => (s, e)
  | .busy => (s.addLate i (lateOf s w va run.2 false (e.eid, c) (some (e.eid, c))), out 1)
  | .fabric _ _ =>
    let ps := pieces 256 (run.2.length / 256 + 2) va run.2.length
    (ps.foldl (fun s p =>
      (s.sendReq w 0x12 (BitVec.ofNat 19 (p.1 / 2 ^ 44)) (BitVec.ofNat 16 (p.2 - 1)) (BitVec.ofNat 64 (p.1 % 2 ^ 44))
        ((run.2.drop (p.1 - va)).take p.2) (.chunk i e.eid c (BitVec.ofNat 64 p.1)) 0#8).1) s, out ps.length)
  | _ => (s, e)

/-- Write a piece's bytes. -/
def copyPut (i : Fin 4) (w : Who) (p : CopyPlan) (bulk : Bool) (c : Nat) (x : Nat × Nat × Nat) (bs : List Byte) (s : State) (e : QEntry) :
    State × QEntry :=
  let b := p.dst x.1 + x.2.1
  let vals := bs.zipIdx.map fun y => copyByte p bulk s.free x.1 ((b + y.2) % 2 ^ 64) y.1
  let r := (copyRuns b vals).foldl (fun (acc : State × QEntry) run => copyWrite i w c run acc.1 acc.2) (s, e)
  (r.1.tick, r.2)

/-- The pieces of a chunk from the `k`-th on, each read and then written. -/
def chunkLoop (i : Fin 4) (w : Who) (p : CopyPlan) (bulk : Bool) (c : Nat) : List (Nat × Nat × Nat) → State → QEntry → Ran
  | [], s, e =>
    if chunkPending e c then .done s { e with memo := e.memo.take 1 }
    else
      let r := (s.harts[i]).chunkDone e c
      .done (s.modHart i fun _ => r.1) { r.2 with memo := e.memo.take 1 }
  | x :: xs, s, e =>
    let a := (p.src x.1 + x.2.1) % 2 ^ 64
    match engineRead i w .engine 0x10 a x.2.2 s e with
    | .trap t =>
      let at_ := if e.remote = .none then t.tval else BitVec.ofNat 64 (a + e.part.length)
      .fault s { e.dropRead with memo := e.memo.take 1 } ⟨t.cause, at_⟩
    | .block s e => .block s e
    | .ok bs s e =>
      let r := copyPut i w p bulk c x bs s e
      chunkLoop i w p bulk c xs r.1 { r.2 with memo := r.2.memo ++ [0] }

/-- The chunks of a bulk copy from its progress index on (R496, R497): in increasing order, stopping at the first that fails. The
pieces of the chunk at work that are moved already are counted in `memo`. -/
def bulkLoop (i : Fin 4) (p : CopyPlan) (bulk far : Bool) : Nat → State → QEntry → Ran
  | 0, s, e => .block s e
  | fuel + 1, s, e =>
    let c := e.prog
    if p.chunks ≤ c then (if p.chunks ≤ e.chunks.done.length then .done s e else .block s { e with sentAll := true })
    else if e.entered ≠ 0 && (s.harts[i]).chunkBit e.post.m c then
      bulkLoop i p bulk far fuel s { e with prog := c + 1, chunks := { e.chunks with done := natInsert e.chunks.done c } }
    else
      let w := e.who s i 2 0
      let first := e.memo.length ≤ 1 && e.remote = .none && e.part.isEmpty
      match (if first then s.chunkTrap w p far c else none) with
      | some t => .fault s { e with entered := 1 } t
      | none =>
        if (first && s.chunkWait w p c) || 32 ≤ s.chunksOut i e then .block s e
        else
        match chunkLoop i w p bulk c ((p.pieces c).drop (e.memo.length - 1)) s e with
        | .done s e => bulkLoop i p bulk far fuel s { e with prog := c + 1 }
        | .fault s e t => .fault s { e with entered := 1 } t
        | r => r

/-- A write of a chunk is over: the chunk completes with its last one, once all its bytes are on their way (R497). -/
def State.chunkAnswer (s : State) (i : Fin 4) (eid c : Nat) (ok : Bool) : State :=
  match s.harts[i].entry eid with
  | none => s
  | some e =>
    let e1 : QEntry := { e with chunks := { e.chunks with
      inFlight := e.chunks.inFlight.erase c, failed := if ok then e.chunks.failed else natInsert e.chunks.failed c } }
    if chunkPending e1 c || e1.prog ≤ c then s.putEntry i e1
    else
      let r := (s.harts[i]).chunkDone e1 c
      (s.modHart i fun _ => r.1).putEntry i r.2

/-- Whether a store on its way may perform: every lower element of its instruction is committed (R185). -/
def Hart.lateReady (h : Hart) (b : LateStore) : Bool :=
  match h.entry b.tile.1 with
  | some e => b.lane.isNone || decide (b.tile.2 < e.prog)
  | none => true

/-- A store on its way performs, or is sent (R332). While its bank changes its mode it waits; when the bank is no longer in the mode it was
checked against, or it no longer may perform, it performs nothing and is reported (R310, R639). -/
def State.performLate (s : State) (i : Fin 4) (b : LateStore) : State :=
  let w : Who := ⟨i, s.harts[i].ctxid.toNat, b.level, b.pc, if b.lane.isSome then 0 else 2, match b.lane with | some g => g.val | none => 0⟩
  let va := b.va.toNat
  let took := s.modHart i fun h => { h with late := h.late.erase b }
  let chunkDone (ok : Bool) (s : State) : State :=
    match b.chunk with
    | none => s
    | some (eid, c) => s.chunkAnswer i eid c ok
  let drop : State :=
    let kind := if b.chunk.isSome then 3 else 1
    let aux := match b.chunk with | some (_, c) => c | none => b.bytes.length - 1
    chunkDone false (took.storeError w kind 2 va aux b.bytes)
  if !s.harts[i].lateReady b then s
  else
    match took.store w va b.bytes .engine with
    | .busy => s
    | .ok _ t => if s.bankMode va == b.mode then chunkDone true t else drop
    | .fabric _ _ => took.sendStore w va b.bytes
    | _ => drop

/-- The stores of a hart on their way perform as far as they can, those of one lane group in their order (R332). -/
def State.drainLate (i : Fin 4) (s : State) : State :=
  (s.harts[i].late.foldl (fun (acc : State × List (Fin 4)) b =>
    if b.lane.any acc.2.contains then acc
    else
      let t := acc.1.performLate i b
      if t.harts[i].late.length < acc.1.harts[i].late.length then (t, acc.2) else (acc.1, b.lane.toList ++ acc.2)) (s, [])).1

/-! ### `gsp` and `ssp` (R495) -/

/-- Whether the scratchpad side lies in the scratchpad window (R495). -/
def inWindow (base n : Nat) : Bool := decide (spadBase ≤ base) && decide (base + n ≤ spadBase + 2 ^ 25)

/-- `gsp` or `ssp`. The descriptor's place in `memo` is taken by a zero. -/
def runGather (scatter : Bool) (i : Fin 4) (p : QEntry) (s : State) : Ran :=
  let side := if scatter then p.opb else p.opa
  let s := s.modHart i fun h => if p.total = 0 then h else h.relayAll p.cap.et p.cap.lmap [p.post.b]
  let plan := gatherPlan scatter s.harts[i] p
  let e := if p.memo.isEmpty then { p with memo := [0], aux := plan.chunks + 1 } else p
  if p.total ≠ 0 && !inWindow side.toNat plan.total then .fault s p ⟨cPROT, side⟩
  else bulkLoop i plan false false (plan.chunks + 2) s e

/-! ### The other KINDs -/

/-- KIND 1 (R386, R498): the unit is read, hashed, and written only when its hash is the named one. -/
def runVerify (i : Fin 4) (d : Nat) (s : State) (e : QEntry) : Ran :=
  let w := e.who s i 2 0
  let src := bitsAt d 64 64
  let dst := bitsAt d 128 64
  let plan : CopyPlan := ⟨1, 4096, fun _ => src, fun _ => dst⟩
  let first := e.memo.length ≤ 1 && e.remote = .none && e.part.isEmpty
  let fail (t : Trap) (at_ : Nat) : Ran :=
    .fault s { e.dropRead with memo := e.memo.take 1, prog := (at_ - src) / 512 } ⟨t.cause, BitVec.ofNat 64 at_⟩
  let trap : Option Trap :=
    if first then lowestTrap (((List.range 8).map fun c => s.chunkTrap w plan false c)) else none
  if e.aux ≠ 0 && 8 ≤ e.prog then (if 8 ≤ e.chunks.done.length then .done s e else .block s { e with sentAll := true })
  else
    match trap with
    | some t =>
      let base := if dst ≤ t.tval.toNat && t.tval.toNat < dst + 4096 then dst else src
      .fault s { e.dropRead with memo := e.memo.take 1, prog := (t.tval.toNat - base) / 512 } t
    | none =>
      if first && s.bankWait w dst 4096 then .block s e
      else
      let leaf : Got :=
        if 2 ≤ e.memo.length then .ok [] s e else engineRead i w .engine 0x10 (bitsAt d 448 64) 64 s e
      match leaf with
      | .trap t => .fault s { e.dropRead with memo := e.memo.take 1, prog := 0 } t
      | .block s e => .block s e
      | .ok bs s e =>
        let e := if 2 ≤ e.memo.length then e else { e with memo := e.memo ++ [leNat bs] }
        match engineRead i w .engine 0x10 src 4096 s e with
        | .trap t => fail t (if e.remote = .none then t.tval.toNat else src + e.part.length)
        | .block s e => .block s e
        | .ok unit s e =>
          let e := { e with prog := 8, aux := 9 }
          if leNat (sha3 (0#8 :: unit)) = e.memo.getD 1 0 then
            let r := (List.range 8).foldl (fun (acc : State × QEntry) c =>
              let r := copyWrite i w c (dst + 512 * c, slice unit (512 * c) 512) acc.1 acc.2
              if chunkPending r.2 c then r
              else
                let x := (r.1.harts[i]).chunkDone r.2 c
                (r.1.modHart i fun _ => x.1, x.2)) (s, e)
            if 8 ≤ r.2.chunks.done.length then .done r.1 r.2 else .block r.1 { r.2 with sentAll := true }
          else
            let s := s.errorTo i { va := BitVec.ofNat 64 dst, peer := s.fab.epid, itag := itagOf e.pc, kind := 3, st := 7, attr := 0#8,
                                   hart := some i, job := s.jobOf w.ctxid, aux := 0, data := unit.take 8 }
            let e := { e with chunks := { e.chunks with failed := List.range 8 } }
            let r := (List.range 8).foldl (fun (acc : Hart × QEntry) c => acc.1.chunkDone acc.2 c) (s.harts[i], e)
            .done (s.modHart i fun _ => r.1) r.2

/-- Chunk 0 of a copy of KIND 2 to 4 completes. -/
def finishOne (i : Fin 4) (s : State) (e : QEntry) : Ran :=
  let r := (s.harts[i]).chunkDone e 0
  .done (s.modHart i fun _ => r.1) { r.2 with prog := 1 }

/-- KIND 2 (R499). -/
def runReduction (i : Fin 4) (d : Nat) (s : State) (e : QEntry) : Ran :=
  let w := e.who s i 2 0
  match engineRead i w .engine 0x10 (bitsAt d 64 64) 64 s e with
  | .trap t => .fault s e.dropRead t
  | .block s e => .block s e
  | .ok bs s1 e1 =>
    if s.bankWait w (sliceNat bs 48 8) 8 then .block s e else finishOne i (s1.submitReduction (e1.who s1 i 6 0) bs) e1

/-- Send a packet without a data dependency on the drain counter: TLREC and GANGCTL are not counted (R80). -/
def State.sendUncounted (s : State) (w : Who) (ptype : Nat) (dst : Epid) (itag : BitVec 32) (spec16 : BitVec 16) (spec64 : BitVec 64)
    (data : List Byte) (purpose : Option Purpose) : State :=
  let job := s.jobOf w.ctxid
  let gen : BitVec 16 := match s.jobEntry job with | some e => e.gen | none => 0#16
  let p := s.mkPacket ptype dst job gen (flowOf s w) itag spec16 spec64 data
  match purpose with
  | none => s.emit (s.fab.portFor p.flow p.dst) p
  | some q =>
    let o : Outstanding := { counted := false, rid := s.fab.nextReq, tag := 0, ctxid := w.ctxid, dst := dst, flow := flowOf s w, purpose := q,
                             itag := itag, attr := 0#8, data := [] }
    State.sendNow { s with fab := { s.fab with nextReq := s.fab.nextReq + 1 } } o p

/-- Write the answer word of KIND 3 or 4 and complete chunk 0 (R500). -/
def writeAnswer (i : Fin 4) (d word : Nat) (s : State) (e : QEntry) : Ran :=
  let w := e.who s i 2 0
  if s.bankWait w (bitsAt d 128 64) 8 then .block s e
  else
  let r := copyWrite i w 0 (bitsAt d 128 64, natLe 8 word) s e
  if chunkPending r.2 0 then .block r.1 { r.2 with memo := e.memo ++ [0, 0] } else finishOne i r.1 r.2

/-- KIND 3 (R500): the record is read and sent, and the answer comes into `memo` as an event tells it. One sent before a pre-emption is not
sent again (R183); its answer has not reached the resumed hart, and the word says TIMEOUT (assumption 66). -/
def runTlrec (i : Fin 4) (d : Nat) (s : State) (e : QEntry) : Ran :=
  let w := e.who s i 2 0
  match e.memo with
  | [_] =>
    if e.prog ≠ 0 then writeAnswer i d (2 ^ 63 + 8) s { e with chunks := { e.chunks with done := [] } } else
    (match s.writeTrap w (bitsAt d 128 64) 8 with
    | some t => .fault s e t
    | none =>
      match engineRead i w .engine 0x10 (bitsAt d 64 64) 192 s e with
      | .trap t => .fault s e.dropRead t
      | .block s e => .block s e
      | .ok bs s e =>
        .block (s.sendUncounted w 0x0D (BitVec.ofNat 19 (bitsAt d 448 19)) (itagOf e.pc) 0#16 0#64 bs (some (.tlrec i e.eid)))
          { e with memo := e.memo ++ [0], prog := 1 })
  | [_, _, answer] => writeAnswer i d answer s e
  | _ => if e.chunks.done.contains 0 then .done s e else .block s e

/-- KIND 4 (R500, R643): an arm or a cancel waits for the member's acknowledge or for T; a go does not wait. One sent before a
pre-emption is not sent again (R183). -/
def runGangctl (i : Fin 4) (d : Nat) (s : State) (e : QEntry) : Ran :=
  let w := e.who s i 2 0
  let t := bitsAt d 64 64
  let aux := bitsAt d 448 64
  let kind := bitsAt aux 32 4
  match (if e.prog = 0 then e.memo else if e.memo.length = 1 then e.memo ++ [0] else e.memo) with
  | [_] =>
    (match s.writeTrap w (bitsAt d 128 64) 8 with
    | some t => .fault s e t
    | none =>
      let s := s.sendUncounted w 0x0F (BitVec.ofNat 19 aux) (BitVec.ofNat 32 (bitsAt d 256 32))
        (BitVec.ofNat 16 (kind + bitsAt aux 36 1 * 16)) (BitVec.ofNat 64 t) [] none
      let e := { e with prog := 1, memo := e.memo ++ [0] }
      if kind = 3 then writeAnswer i d (2 ^ 63) s e else .block s e)
  | [_, _] =>
    let e := if e.memo.length = 1 then { e with memo := e.memo ++ [0], chunks := { e.chunks with done := [] } } else e
    if kind = 3 || t ≤ s.gtimeNs then writeAnswer i d (2 ^ 63) s e else .block s e
  | [_, _, _] => writeAnswer i d (2 ^ 63 + 1) s e
  | _ => if e.chunks.done.contains 0 then .done s e else .block s e

/-! ### `cpy` and `cpyr` -/

/-- A copy once its descriptor stands in `memo`. -/
def runKind (remote : Bool) (i : Fin 4) (d : Nat) (s : State) (e : QEntry) : Ran :=
  match copyKind d with
  | 0 =>
    let plan := bulkPlan d
    bulkLoop i plan true remote (plan.chunks + 2) s { e with aux := plan.chunks + 1 }
  | 1 => runVerify i d s { e with aux := 9 }
  | 2 => runReduction i d s { e with aux := 2 }
  | 3 => runTlrec i d s { e with aux := 2 }
  | _ => runGangctl i d s { e with aux := 2 }

/-- Whether a scalar store of a hart has left its core and is not answered. -/
def State.scalarStoreOut (s : State) (i : Fin 4) : Bool :=
  let out (o : Outstanding) : Bool := o.flow.extractLsb' 13 3 == 1#3 && (match o.purpose with | .store h _ _ => h = i | _ => false)
  s.fab.outstanding.any out || s.fab.waiting.any fun x => out x.1

/-- `cpy` or `cpyr` (R494): the descriptor is read when the copy begins, after the hart's earlier scalar stores. -/
def runCopy (remote : Bool) (i : Fin 4) (p : QEntry) (s : State) : Ran :=
  match p.memo with
  | d :: _ => runKind remote i d s p
  | [] =>
    if !s.harts[i].stbuf.isEmpty || s.scalarStoreOut i then .block s p
    else if p.opa.toNat % 8 ≠ 0 then .fault s p ⟨cPROT, p.opa⟩
    else
      match engineRead i (p.who s i 2 0) .engine 0x10 p.opa.toNat 64 s p with
      | .trap t => .fault s p.dropRead ⟨t.cause, t.tval⟩
      | .block s e => .block s e
      | .ok bs s e =>
        let d := leNat bs
        if copyBad remote (decide (e.level = .u)) (decide (e.post.m ≠ 0#3)) d then .fault s e ⟨cPROT, e.opa⟩
        else runKind remote i d s { e with memo := [d] }

/-- `cwait` (R501): it retires once every earlier copy of the hart has. -/
def runCwait (i : Fin 4) (p : QEntry) (s : State) : Ran × Option Word :=
  let h := s.harts[i]
  if h.queue.any fun x => decide (x.eid < p.eid) && x.post.body.isCopy then (.block s p, none)
  else (.done (s.modHart i fun h => { h with cfails := 0 }) p, some (BitVec.ofNat 64 h.cfails))

/-! ### `capp` (R503, R504) -/

/-- Whether a queue descriptor breaks R503, or its ring is too small for `c` entries. -/
def cappBad (d : List Byte) (c : Nat) : Bool :=
  let cap := sliceNat d 8 1
  decide (sliceNat d 0 8 % 64 ≠ 0) || decide (cap < 6) || decide (24 < cap) || decide (cap < sliceNat d 9 1) || decide (8 ≤ sliceNat d 10 1) ||
  decide (sliceNat d 11 5 ≠ 0) || decide (sliceNat d 56 8 ≠ 0) || decide (2 ^ cap < c)

/-- A write of local bytes by `capp` after its checks; a failure then is none of its traps. -/
def cappPut (w : Who) (va : Nat) (bs : List Byte) (s : State) : State :=
  match s.store w va bs .vector with | .ok _ s => s | _ => s

/-- Offer the template of a completed batch (R153), or set EV where there is none (R467). -/
def cappBatch (i : Fin 4) (e : QEntry) (d : List Byte) (q : Nat) (s : State) : State :=
  let tmpl := sliceNat d 40 8
  let b := 2 ^ sliceNat d 9 1
  let setEv (s : State) : State := s.modHart i fun h => { h with ev := true }
  let w := e.who s i 0 0
  let nb := match s.deviceRead w (e.opa.toNat + 48) 8 with | some x => leNat x | none => 0
  let s := cappPut w (e.opa.toNat + 48) (natLe 8 (nb + 1)) s
  if tmpl = 0 then setEv s
  else
    let user := if e.level = .u then some w.ctxid else none
    let r : Nat × State :=
      match (if tmpl % 256 = 0 then s.deviceRead w tmpl 256 else none) with
      | none => (3, s)
      | some t =>
        let args := sliceNat d 0 8 + 4 * ((q * b) % 2 ^ sliceNat d 8 1)
        s.admitRecord (splice (splice t 40 (natLe 8 args)) 192 (natLe 8 0 ++ natLe 8 b)) (sliceNat d 10 1) user
    if r.1 = 0 then r.2
    else
      (setEv r.2).errorTo i { va := BitVec.ofNat 64 tmpl, peer := s.fab.epid, itag := itagOf e.pc, kind := 8, st := 0, attr := 0#8,
                              hart := some i, job := s.jobOf w.ctxid, aux := r.1, data := [] }

/-- The reservation of `capp` and what follows it. -/
def cappAppend (i : Fin 4) (e : QEntry) (d : List Byte) (act : List Nat) (s : State) : State :=
  let w := e.who s i 0 0
  let c := act.length
  let cap := 2 ^ sliceNat d 8 1
  let b := 2 ^ sliceNat d 9 1
  let at_ := sliceNat d 16 8
  let s := cappPut w (e.opa.toNat + 16) (natLe 8 (at_ + c)) s
  let s := act.zipIdx.foldl (fun s x =>
    cappPut w ((sliceNat d 0 8 + 4 * ((at_ + x.2) % cap)) % 2 ^ 64) (natLe 4 (e.opb.toNat + x.1)) s) s
  let s := cappPut w (e.opa.toNat + 24) (natLe 8 (at_ + c)) s
  (((List.range ((at_ + c) / b - at_ / b)).map (at_ / b + ·)).filter fun q => decide ((q + 1) * b ≤ at_ + c)).foldl
    (fun s q => cappBatch i e d q s) s

/-- `capp` (R504). It appends once there is room and every older reservation of its queue is written. -/
def runCapp (i : Fin 4) (p : QEntry) (s : State) : Ran × Option Word :=
  let cp := p.cap
  let h := s.harts[i]
  let tiles := (List.range p.total).filter (p.prog ≤ ·)
  if tiles.any (fun t => h.maskWait p (t / cp.vl) (t % cp.vl)) then (.block s p, none)
  else
    let act := tiles.filter fun t => cp.active h (t / cp.vl) (t % cp.vl)
    let w := p.who s i 0 0
    let a := p.opa.toNat
    if 2 ^ 63 ≤ a || spadBase ≤ a && a < spadBase + 2 ^ 25 || a % 64 ≠ 0 then (.fault s p ⟨cPROT, p.opa⟩, none)
    else
      match s.readTrap w a 64, s.writeTrap w a 64 with
      | some t, _ => (.fault s p t, none)
      | none, some t => (.fault s p t, none)
      | none, none =>
        match s.load w a 64 .vector with
        | .ok d s =>
          let ring := sliceNat d 0 8
          let bytes := 4 * 2 ^ sliceNat d 8 1
          if cappBad d act.length then (.fault s p ⟨cPROT, p.opa⟩, none)
          else if 2 ^ 63 ≤ ring then (.fault s p ⟨cPROT, BitVec.ofNat 64 ring⟩, none)
          else
            match s.locateAll w .store .vector bytes (pagePieces ring bytes) with
            | .error t => (.fault s p t, none)
            | .ok (ls, s) =>
              if ls.any (fun l => l.1.isBusy) || 2 ^ sliceNat d 8 1 < sliceNat d 16 8 + act.length - sliceNat d 32 8 ||
                  sliceNat d 24 8 ≠ sliceNat d 16 8 then (.block s p, none)
              else (.done (cappAppend i p d act s) p, some (BitVec.ofNat 64 act.length))
        | _ => (.block s p, none)

end Sys2Proof.Machine
end

