-- ==== Sys2Proof/Machine/Run.lean ====
section
/-! DEFINITION. Running the engine queues (R200 to R228): what a posted instruction does when it runs, which entry may run,
traps in queue (R363), and the post of an instruction with its checks at issue (R202, R404 to R412, R436, R491). -/

namespace Sys2Proof.Machine

/-! ### What a posted instruction does -/

/-- The grain at which an instruction stops: how a bound rounds up, and how a stop rounds down. -/
structure Grain where
  up : Nat → Nat
  down : Nat → Nat

/-- Elements (R419). -/
def elemGrain : Grain := ⟨id, id⟩

/-- Whole rows of `vl` elements (R513, R527). -/
def rowGrain (vl : Nat) : Grain := ⟨fun t => (t + vl - 1) / vl * vl, fun t => t / vl * vl⟩

/-- The end of the 256-element block that holds index `t` (R522). -/
def blockEnd (vl t : Nat) : Nat := if vl = 0 then t else t / vl * vl + min vl ((t % vl / 256 + 1) * 256)

/-- Whole blocks (R522). -/
def blockGrain (vl : Nat) : Grain := ⟨fun t => blockEnd vl (t - 1), fun t => t - t % vl % 256⟩

/-- An instruction from its progress index up to `hi`, or to the first grain that waits for a chunk (R220, R419). -/
def runElems (f : QEntry → Nat → Nat → Hart → Hart) (g : Grain) (i : Fin 4) (hi : Nat) (p : QEntry) (s : State) : Ran :=
  if p.total ≤ p.prog then .done (s.modHart i (f p p.prog p.prog)) p
  else
    let u := min p.total (g.up hi)
    let l := s.harts[i].runLimit p u
    let lim := if l = u then u else g.down l
    if lim ≤ p.prog then .block s p
    else
      let s1 := s.modHart i (f p p.prog lim)
      let e := { p with prog := lim }
      if p.total ≤ lim then .done s1 e else if lim < u then .block s1 e else .part s1 e

/-- Row-whole execution (R527): whole rows from the one that holds the progress index. -/
def runRowsWhole (f : QEntry → Nat → Nat → Hart → Hart) (i : Fin 4) (hi : Nat) (p : QEntry) (s : State) : Ran :=
  if p.total ≤ p.prog then .done (s.modHart i (f p (p.prog / p.vl) (p.prog / p.vl))) p
  else
    let up := min p.total ((hi + p.vl - 1) / p.vl * p.vl)
    let k0 := p.prog / p.vl
    let k1 := s.harts[i].runLimit { p with prog := k0 * p.vl } up / p.vl
    if k1 ≤ k0 then .block s p
    else
      let s1 := s.modHart i (f p k0 k1)
      let e := { p with prog := k1 * p.vl }
      if p.vrows ≤ k1 then .done s1 e else if k1 * p.vl < up then .block s1 e else .part s1 e

/-- A mask instruction, register-whole (R527). With no element to run it changes no register; a count or an index is still written (R234, R544). -/
def runMaskOp (op : MaskOp) (i : Fin 4) (p : QEntry) (s : State) : Ran × Option Word :=
  if p.total = 0 then (.done s p, (runMask op p s.harts[i]).2)
  else if (s.harts[i].runLimit { p with prog := 0 } p.total) < p.total then (.block s p, none)
  else
    let r := runMask op p s.harts[i]
    (.done (s.modHart i fun _ => r.1) { p with prog := p.total }, r.2)

/-- `vcvt`, which traps ILL in queue when FCSR.RM holds no mode and only its target needs one (R521). -/
def runCvtMode (i : Fin 4) (hi : Nat) (p : QEntry) (s : State) : Ran :=
  if (rmodeOf p.rm.toNat).isNone && etFloat (cvtTarget s.harts[i] p) then .fault s p ⟨cILL, p.post.word.setWidth 64⟩
  else runElems (runCvt p.mode) elemGrain i hi p s

/-- Whether a core's stream engine is free for a hart's `sbind`: one is unclaimed and nobody waits before it (R492). -/
def State.engineFree (s : State) (i : Fin 4) (e : QEntry) : Bool :=
  decide (s.core.boundEngines.length < 4) &&
  (match s.core.streamWaiters with | [] => true | w :: _ => w == (i, e.eid))

/-- `sbind` in the stream queue: it claims an engine of the core, or waits for one (R490, R492). -/
def runSbind (i : Fin 4) (p : QEntry) (s : State) : Ran :=
  if s.core.boundEngines.contains (i, p.post.d) then .done s p
  else if s.engineFree i p then
    .done { s with core := { s.core with
      boundEngines := s.core.boundEngines ++ [(i, p.post.d)],
      streamWaiters := s.core.streamWaiters.filter (· != (i, p.eid)) } } p
  else if s.core.streamWaiters.contains (i, p.eid) then .block s p
  else .block { s with core := { s.core with streamWaiters := s.core.streamWaiters ++ [(i, p.eid)] } } p

/-- `sunbind` in the stream queue: its engine is free (R492). -/
def runSunbind (i : Fin 4) (p : QEntry) (s : State) : Ran :=
  .done { s with core := { s.core with boundEngines := s.core.boundEngines.filter (· != (i, p.post.d)) } } p

/-- What a posted instruction does, from its progress index up to `hi` where it runs element by element. With VL or VROWS 0 a
vector instruction writes nothing (R234). -/
def bodyRun (i : Fin 4) (hi : Nat) (p : QEntry) (s : State) : Ran × Option Word :=
  let idle := p.total = 0
  match p.post.body with
  | .int op => (if idle then .done s p else runElems (runInt op) (if op = .pcp then rowGrain p.vl else elemGrain) i hi p s, none)
  | .fp op => (if idle then .done s p else runElems (runFp op) elemGrain i hi p s, none)
  | .cvt none => (if idle then .done s p else runCvtMode i hi p s, none)
  | .cvt (some m) => (if idle then .done s p else runElems (runCvt ((rmodeOf m.toNat).getD .rne)) elemGrain i hi p s, none)
  | .qbs => (if idle then .done s p else runElems runQbs (blockGrain p.vl) i hi p s, none)
  | .dqbs => (if idle then .done s p else runElems runDqbs elemGrain i hi p s, none)
  | .cmp cond ty => (if idle then .done s p else runElems (runCmp cond ty) elemGrain i hi p s, none)
  | .mask op => runMaskOp op i p s
  | .perm .relay => (.done (s.modHart i (runPerm .relay p 0 0)) p, none)
  | .perm op => (if idle then .done s p else runRowsWhole (runPerm op) i hi p s, none)
  | .red op => (if idle then .done s p else runRowsWhole (runRed op) i hi p s, none)
  | .kswap imm => (if idle then .done s p else runElems (runKswap imm) elemGrain i hi p s, none)
  | .load mode mw sx sc => (if idle then .done s p else runLoad i mode mw sx sc p hi s, none)
  | .store mode mw nf sc => (runStore i mode mw nf sc p hi s, none)
  | .vlm => (if idle then .done s p else runMaskMem false i p hi s, none)
  | .vsm => (if idle then .done s p else runMaskMem true i p hi s, none)
  | .capp => runCapp i p s
  | .fib op _ => runFib op i p s
  | .mat op mrow mcol fmt bs => (runMat op mrow mcol fmt bs i p s, none)
  | .amo op => (if idle then .done s p else runAmo op i p hi s, none)
  | .sca op => (if idle then .done s p else runSca op i p hi s, none)
  | .sbind => (runSbind i p s, none)
  | .sunbind => (runSunbind i p s, none)
  | .spos => (.done s p, none)
  | .gsp => (runGather false i p s, none)
  | .ssp => (runGather true i p s, none)
  | .cpy => (runCopy false i p s, none)
  | .cpyr => (runCopy true i p s, none)
  | .cwait => runCwait i p s

/-! ### Which entry may run -/

/-- The name of a vector register among an entry's registers. -/
def vName (n : VNum) : Nat := n.toNat
/-- The name of a mask register. -/
def mName (n : MNum) : Nat := 32 + n.toNat
/-- The name of a fibre register. -/
def fName (n : BitVec 5) : Nat := 40 + n.toNat % 16

/-- Whether a mask instruction writes a mask. -/
def MaskOp.writesMask : MaskOp → Bool
  | .pop | .first | .last | .tov => false
  | _ => true

/-- Fibre registers that a fibre instruction reads and writes (R545). -/
def fibRegs (op : FibOp) (p : Posted) : List Nat × List Nat :=
  match op with
  | .isect | .isectb | .union | .merge | .diff => ([fName p.a, fName p.b], [fName p.d])
  | .sort | .compact | .dedup | .walk | .mv => ([fName p.a], [fName p.d])
  | .ld | .bm | .pack | .clr => ([], [fName p.d])
  | .st | .expand | .setl | .occ | .coord | .val => ([fName p.a], [])

/-- The masks that an instruction reads other than as its governing mask, and those it writes whole or in part. -/
def maskRegs (p : Posted) : List Nat × List Nat :=
  match p.body with
  | .cmp _ _ => ([], [mName (p.d.setWidth 3)])
  | .mask op =>
    ((match op with | .vtom => [] | .set => [] | .clr => [] | _ => [mName (p.a.setWidth 3), mName (p.b.setWidth 3)]),
     if op.writesMask then [mName (p.d.setWidth 3)] else [])
  | .vlm => ([], [mName (p.d.setWidth 3)])
  | .vsm => ([mName (p.d.setWidth 3)], [])
  | .fib .setl _ => ([], [mName p.m])
  | .mat _ mrow mcol _ _ => ([mName mrow, mName mcol], [])
  | .int .sel => ([mName p.m], [])
  | _ => ([], [])

/-- The registers an entry reads. The completion mask of a copy is none of them. -/
def QEntry.reads (e : QEntry) : List Nat :=
  let fib := match e.post.body with | .fib op _ => (fibRegs op e.post).1 | _ => []
  let seg := match e.post.body with | .red _ => if e.vseg.getLsbD 3 then [mName (e.vseg.extractLsb' 0 3)] else [] | _ => []
  let gov := if (e.post.predicable || e.post.body = .capp) && e.cap.m ≠ 0#3 then [mName e.cap.m] else []
  e.post.vsrc.map vName ++ (maskRegs e.post).1 ++ fib ++ seg ++ gov

/-- The registers an entry writes. -/
def QEntry.writes (e : QEntry) : List Nat :=
  let fib := match e.post.body with | .fib op _ => (fibRegs op e.post).2 | _ => []
  let cp := match e.copy with | some n => [vName n] | none => []
  e.post.vdst.map vName ++ cp ++ (maskRegs e.post).2 ++ fib

/-- Whether a younger entry must wait for an older one: one writes what the other reads or writes (R210, R528, R549, R571), or
the older is a copy whose completion mask a matrix instruction reads (R571), or the bind of a stream that the younger pops
(R219). -/
def waitsFor (old young : QEntry) : Bool :=
  old.writes.any (fun r => r != 32 && (young.reads.contains r || young.writes.contains r)) ||
  old.reads.any (fun r => r != 32 && young.writes.contains r) ||
  (old.post.body.isCopy && old.post.m != 0#3 && young.post.eng == .matrix && young.reads.contains (mName old.post.m)) ||
  (decide (old.post.body = .sbind) && young.strips.any (fun x => x.reg = old.post.d))

/-- Whether a copy has asked for all its chunks, so that the copy engine takes the next one (R502). -/
def QEntry.asked (e : QEntry) : Bool := e.post.body.isCopy && e.aux ≠ 0 && decide (e.aux ≤ e.prog + 1)

/-- Whether an entry stands where its engine may take it: at the head of its queue, or behind copies that have asked for all
their chunks (R166, R502). -/
def Hart.atHead (h : Hart) (e : QEntry) : Bool :=
  h.queue.all fun x => !(decide (x.eid < e.eid) && x.post.eng == e.post.eng) || (e.post.body.isCopy && x.asked)

/-- Harts in the order in which an engine takes them, after the one served last (R167). -/
def afterHart (l : Fin 4) : List (Fin 4) := [l + 1, l + 2, l + 3, l]

/-- Whether an entry reads or writes vector registers. -/
def QEntry.usesVec (e : QEntry) : Bool := (e.reads ++ e.writes).any fun r => r < 32

/-- Whether an older entry still holds back a release of rows (R242). -/
def Hart.heldBack (h : Hart) (r : RowRelease) : Bool := h.queue.any fun x => decide (x.eid < r.eid) && x.usesVec

/-- Whether an entry stands behind a release of rows that is still to come. -/
def Hart.awaitsRows (h : Hart) (e : QEntry) : Bool := h.releases.any fun r => decide (r.eid ≤ e.eid) && h.heldBack r && e.usesVec

/-- The release of tail rows over all registers (R241); a threshold of 0 leaves none. -/
def Hart.releaseTails (h : Hart) (thr vl : Nat) : Hart :=
  { h with v := h.v.map fun r => if thr = 0 then emptyVReg else r.releaseTail thr vl }

/-- The releases that nothing holds back any more take effect, in their order (R242). -/
def Hart.settleRows (h : Hart) : Hart :=
  h.releases.foldl (fun h r => if h.heldBack r then h else { h.releaseTails r.thr r.vl with releases := h.releases.erase r }) h

/-- Whether an entry may run now, but for its engine's turn: the queues are not held (R363), no older entry waits to trap, its token take and give are
satisfied (R222), no older entry holds its registers, no release of rows is to come before it, and behind a sequentially consistent access no other
access begins and no other vector instruction enters (R342). -/
def Hart.mayRun (h : Hart) (e : QEntry) : Bool :=
  !h.held && (!h.frozen || e.runsOut) && h.atHead e && h.takeReady e && h.giveReady e && !h.awaitsRows e &&
  h.queue.all fun x => !decide (x.eid < e.eid) || (x.pend.isNone && !waitsFor x e && !(x.post.body.isSc && (e.post.eng == .vector || e.reaches)))

/-- Whether another instruction stands in the copy engine or the intersect unit: one that has begun and has not asked for all its chunks, or
not retired (R167, R502). -/
def State.engineBusy (s : State) (i : Fin 4) (eng : Engine) : Bool :=
  [(0 : Fin 4), 1, 2, 3].any fun j =>
    j != i && !s.harts[j].held && !s.harts[j].frozen && s.harts[j].queue.any fun x => x.post.eng == eng && x.started && !x.asked

/-- Whether it is a hart's turn at an engine that serves one hart after another: no hart before it in the round has an instruction to begin
there (R167). -/
def State.engineTurn (s : State) (i : Fin 4) (eng : Engine) (last : Fin 4) : Bool :=
  !s.engineBusy i eng &&
  (afterHart last).find? (fun j => j == i || s.harts[j].queue.any fun x => x.post.eng == eng && !x.started && s.harts[j].mayRun x) == some i

/-- Whether an entry of a hart may run now: it may, and to begin at the copy engine or the intersect unit it is its hart's turn. -/
def State.mayRun (s : State) (i : Fin 4) (e : QEntry) : Bool :=
  s.harts[i].mayRun e &&
  (e.started ||
    match e.post.eng with
    | .copy => s.engineTurn i .copy s.core.copyLast
    | .intersect => s.engineTurn i .intersect s.core.fibLast
    | _ => true)

/-- The engine has served a hart (R167). -/
def State.served (s : State) (i : Fin 4) (eng : Engine) : State :=
  match eng with
  | .copy => { s with core := { s.core with copyLast := i } }
  | .intersect => { s with core := { s.core with fibLast := i } }
  | _ => s

/-! ### Running an entry -/

/-- Whether a hart can take a trap in queue now: no scalar access of it is under way (R362). -/
def Hart.canTrap (h : Hart) : Bool :=
  !h.frozen &&
  (match h.status with
  | .waiting .remote _ => false
  | .waiting (.barrier _) _ => false
  | .running => h.scalarRemote.parts.isEmpty
  | .waiting _ _ => h.scalarRemote.parts.isEmpty
  | _ => false)

/-- A trap in queue (R363): the entry waits until every older one has retired; then the trap is taken with EPC at the stream
point, and the queues are held. The faults of younger entries arise again on replay (R366). -/
def State.entryFault (s : State) (i : Fin 4) (e : QEntry) (t : Trap) : State :=
  let h := s.harts[i]
  if (h.queue.any fun x => decide (x.eid < e.eid)) || !h.canTrap then
    s.putEntry i { e.dropRead with pend := some t }
  else
    let s1 := (s.putEntry i { e.dropRead with entered := e.entered + 1 }).modHart i fun h =>
      { h.rewind with held := true, queue := h.rewind.queue.map fun x => { x with pend := none } }
    s1.asHart i fun s => s.takeTrap t s.h.pc

/-- An entry retires (R204, R208, R222): lane groups that it used last become free (R161, R162). -/
def State.entryDone (s : State) (i : Fin 4) (e : QEntry) (x : Option Word) : State :=
  (s.modHart i fun h => (h.retireEntry e x).settleRows).serveLanes

/-- What an entry's run came to. -/
def State.applyRan (i : Fin 4) (x : Option Word) : Ran → State
  | .done s e => s.entryDone i e x
  | .part s e => s.putEntry i e
  | .block s e => s.putEntry i e
  | .fault s e t => s.entryFault i e t

/-- Let an entry run up to `hi e`, where it may run: it begins (R222), takes the strips it popped (R219, R364), and its body
runs. -/
def State.tryEntry (s : State) (i : Fin 4) (hi : QEntry → Nat) (eid : Nat) : State :=
  match s.harts[i].entry eid with
  | none => s
  | some e =>
    if s.mayRun i e then
      match e.pend with
      | some t => s.entryFault i e t
      | none =>
        let b := if e.started then (s.harts[i], e) else s.harts[i].beginEntry e
        let s1 := State.served (s.modHart i fun _ => b.1) i e.post.eng
        match (if b.2.strips.isEmpty then Ran.done s1 b.2 else fetchStrips i s1 b.2) with
        | .done s2 e2 =>
          let r := bodyRun i (hi e2) e2 s2
          State.applyRan i r.2 r.1
        | o => State.applyRan i none o
    else s

/-- The entry begins and does nothing more (R222). -/
def State.beginOnly (s : State) (i : Fin 4) (eid : Nat) : State :=
  match s.harts[i].entry eid with
  | none => s
  | some e => if !e.started && s.mayRun i e then (s.modHart i fun h => (h.beginEntry e).1).served i e.post.eng else s

/-- Every entry of a hart is given one try, oldest first. -/
def State.drainPass (s : State) (i : Fin 4) : State :=
  (s.harts[i].queue.map (·.eid)).foldl (fun s eid => s.tryEntry i QEntry.total eid) s

/-- The hart's entries run until none retires any more. -/
def State.drainLoop (i : Fin 4) : Nat → State → State
  | 0, s => s
  | n + 1, s =>
    let s1 := s.drainPass i
    if s1.harts[i].queue.length < s.harts[i].queue.length then s1.drainLoop i n else s1

/-- The hart's queues run as far as they can (assumption 1). -/
def State.drain (s : State) (i : Fin 4) : State :=
  if s.harts[i].queue.isEmpty then s else s.drainLoop i (s.harts[i].queue.length + 1)

/-- The oldest entry of an engine's queue. -/
def Hart.headOf (h : Hart) (eng : Engine) : Option QEntry := h.queue.find? (·.post.eng = eng)

/-- One pass of a vector instruction: 64 bytes of elements (R206, R210). -/
def passEnd (e : QEntry) : Nat := min e.total (e.prog + 512 / etBits (vtEt e.vtype))

/-! ### Checks at issue (R436) -/

/-- Whether a register is bound to a stream (R491). -/
def Hart.isBound (h : Hart) (n : VNum) : Bool := h.sb.toList.any fun b => b.valid && b.reg = n

/-- The field checks of a prefix at its successor (R406). -/
def pfxBad (w : IWord) (p : Posted) : Bool :=
  w.extractLsb' 0 8 != 0#8 ||
  (pfxLent w && (pfxPm w == 0#3 || !p.predicable || p.m != 0#3)) ||
  (pfxDc w && (!p.copyable || pfxVc w == p.d)) ||
  (pfxGe w && (decide (4 < pfxGf w) || pfxGf w == engineNo p.eng)) ||
  (pfxTe w && (decide (4 < pfxTf w) || pfxTf w == engineNo p.eng))

/-- The ILL conditions on a vector destination `d`, vd or vc, that names a source (R511, R523). -/
def destBad (p : Posted) (d : VNum) : Bool :=
  match p.body with
  | .int .pcp => d == p.a
  | .int _ => p.rp != 0#2 && d == p.b
  | .fp _ => p.rp != 0#2 && d == p.b
  | .cvt _ => d == p.a
  | .qbs => d == p.a || d == p.b
  | .dqbs => d == p.a || d == p.b
  | _ => false

/-- Whether a rounding mode of FCSR names none (R510). -/
def rmBad (h : Hart) : Bool := (rmodeOf h.rm.toNat).isNone

/-- Whether some two of a list are equal. -/
def anyEqual : List VNum → Bool
  | [] => false
  | x :: xs => xs.contains x || anyEqual xs

/-- The conditions under which an instruction's captured state makes its word trap ILL at issue, with VL and VROWS as it
captures them (R480, R495, R509 to R523, R526 to R542, R546, R557, R597, R600). -/
def bodyBad (h : Hart) (vf64 : Bool) (vl vrows : Nat) (p : Posted) : Bool :=
  let et := vtEt h.vtype
  let b := etBits et
  match p.body with
  | .fp op => !etArith et || (et == 14#4 && !vf64) || (op.modal && rmBad h)
  | .cvt none => etFloat et && rmBad h
  | .qbs => !etArith et || p.a == p.b
  | .dqbs => !(et == 8#4 || et == 9#4 || et == 10#4)
  | .cmp _ ty => p.d.setWidth 3 == 0#3 || (decide (2 ≤ ty.toNat) && !etArith et)
  | .mask op => (op.writesMask && p.d.setWidth 3 == 0#3)
  | .perm .tr => vl != vrows || p.d == p.a
  | .perm .rowmv => p.d == p.a
  | .red op => op.isFloat && (!etArith et || (op.modal && rmBad h))
  | .kswap imm =>
    (if etFloat et then !etArith et else etNibble et) || p.d.getLsbD 0 || (imm && p.a.getLsbD 0) ||
    anyEqual [p.d, p.d + 1#5, p.a, if imm then p.a + 1#5 else p.b]
  | .load mode mw sx _ =>
    (if etNibble et then mode != .unit || mw != 0#2 || sx
     else b < 8 * 2 ^ mw.toNat || (etFloat et && (8 * 2 ^ mw.toNat != b || sx)))
  | .store mode mw _ _ =>
    (if etNibble et then mode != .unit || mw != 0#2
     else b < 8 * 2 ^ mw.toNat || (etFloat et && 8 * 2 ^ mw.toNat != b))
  | .vlm => p.d.setWidth 3 == 0#3
  | .fib .bm _ => !(et == 3#4 || et == 7#4)
  | .fib .setl _ => p.m == 0#3
  | .amo op => (b != 32 && b != 64) || (op = .fadd && !(et == 13#4 || et == 14#4)) || p.d == p.b
  | .sca op =>
    !(et == 13#4 || et == 14#4 || (op != .ordered && (et == 2#4 || et == 6#4 || et == 3#4 || et == 7#4)))
  | .gsp => !(et == 2#4 || et == 6#4 || et == 3#4 || et == 7#4) || cprowBad h
  | .ssp => !(et == 2#4 || et == 6#4 || et == 3#4 || et == 7#4) || cprowBad h
  | _ => false
where
  /-- CPROW must be a multiple of 8 from 8 to 65,536 (R495). -/
  cprowBad (h : Hart) : Bool := decide (h.cprow.toNat % 8 ≠ 0) || decide (h.cprow.toNat < 8) || decide (65536 < h.cprow.toNat)

/-! ### Stream pops at post (R491) -/

/-- One pop: the binding after it, the first position and the number of elements taken, and whether EV is set. -/
def Binding.pop (b : Binding) : Binding × Nat × Nat × Bool :=
  let pos := if b.count ≤ b.pos && b.wrap then 0 else b.pos
  let l := min b.strip (b.count - pos)
  ({ b with pos := pos + l }, pos, l, b.event && pos + l == b.count && decide (0 < l))

/-- The strips that a list of source registers pops: one for each bound register among them, with what its engine holds of it (R219). -/
def Hart.popStrips (h : Hart) (rs : List VNum) : List Strip :=
  (h.sb.toList.zip h.fetched.toList |>.filter fun x => x.1.valid && rs.contains x.1.reg).map fun x =>
    let b := x.1
    let have_ := x.2.find? fun d => d.first = b.pop.2.1 && d.count = b.pop.2.2.1
    { reg := b.reg, bind := b, first := b.pop.2.1, count := b.pop.2.2.1,
      got := match have_ with | some d => d.got | none => [], trap := have_.bind (·.trap) }

/-- The bindings after the pops of some registers. -/
def Hart.popBindings (h : Hart) (rs : List VNum) : Hart :=
  { h with sb := h.sb.map (fun b => if b.valid && rs.contains b.reg then b.pop.1 else b),
           fetched := Vector.ofFn fun (k : Fin 4) =>
             if h.sb[k].valid && rs.contains h.sb[k].reg then h.fetched[k].drop 1 else h.fetched[k],
           ev := h.ev || h.sb.toList.any fun b => b.valid && rs.contains b.reg && b.pop.2.2.2 }

/-- VL and VROWS as an instruction captures them: after pops, the smallest strip and one row (R491). -/
def Hart.capturedShape (h : Hart) (xs : List Strip) : Nat × Nat :=
  match xs with
  | [] => (h.vl, h.vrows)
  | x :: rest => (rest.foldl (fun m y => min m y.count) x.count, 1)

/-! ### Posting -/

/-- Whether a word's post traps ILL (R363, R404, R406, R436, R438, R491): its queues are held, a field or prefix check fails, its
destination may not be written, its captured state does not allow it, or its feature is not accepted. -/
def State.postBad (s : State) (p : Posted) : Bool :=
  let h := s.h
  let sh := h.capturedShape (h.popStrips p.vsrc)
  let vc := if h.pfxNext && pfxDc h.pfx then [pfxVc h.pfx] else []
  h.held || (h.pfxNext && pfxBad h.pfx p) || (p.eng != .matrix && (p.vdst ++ vc).any h.isBound) || (p.d :: vc).any (destBad p) ||
  bodyBad h (s.feat 0) sh.1 sh.2 p ||
  p.feats.any fun k => !s.feat k

/-- The loop-end step of an instruction behind a prefix: a loop end that names the prefix counts for its successor (R412). -/
def Hart.stepPosted (h : Hart) : Hart :=
  let at_ (le : Word) : Word := if h.pfxNext && le = h.pc - 4#64 then h.pc else le
  let h1 := Hart.loopStep { h with le0 := at_ h.le0, le1 := at_ h.le1 } h.pc
  { h1 with le0 := h.le0, le1 := h.le1 }

/-- The queue entry of an instruction (R195, R202). -/
def Hart.newEntry (h : Hart) (p : Posted) : QEntry :=
  let xs := h.popStrips p.vsrc
  let sh := h.capturedShape xs
  { eid := h.nextEid, post := p, pc := h.pc, pfx := if h.pfxNext then some h.pfx else none,
    opa := match p.opa with | some n => xGet h.x n | none => 0#64,
    opb := match p.opb with | some n => xGet h.x n | none => 0#64,
    vl := sh.1, vrows := sh.2, vtype := h.vtype, vseg := h.vseg, rm := h.rm, cprow := h.cprow.toNat, level := h.level,
    first := h.vstart.toNat,
    prog := match p.eng with | .vector => h.vstart.toNat | .intersect => h.vstart.toNat | _ => 0,
    lanes := Vector.replicate 4 ⟨0, 0⟩, ahead := [], slots := [],
    started := false, taken := false, entered := 0, pend := none, strips := xs, remote := .none,
    chunks := ⟨[], [], []⟩, part := [], aux := 0, memo := [], ents := [], sentAll := false }

/-- The hart after its post: the entry is queued, VSTART is 0, streams have moved on, and the prefix is spent (R202, R406,
R491). -/
def Hart.post (h : Hart) (p : Posted) : Hart :=
  let e := h.newEntry p
  let h1 := (h.popBindings p.vsrc).stepPosted
  { h1 with queue := h.queue ++ [e], nextEid := h.nextEid + 1, vstart := 0#32,
            vl := if e.strips.isEmpty then h.vl else e.vl,
            pfxValid := h.pfxValid && !h.pfxNext, pfxNext := false, status := .running, laneServed := false,
            matrixServed := false }

/-- Whether an instruction waits for a lane group when its hart holds none (R163, R546). -/
def Posted.needsLane (p : Posted) : Bool :=
  match p.eng, p.body with
  | .vector, _ => true
  | .intersect, _ => true
  | _, _ => false

/-- The post itself, after every check: the entry is queued and the queues run. -/
def State.postNow (s : State) (p : Posted) : State :=
  let s1 := s.mod fun h => h.post p
  if s1.eager then s1.drain s1.cur else s1

/-- A hart without lane groups asks for one; served at once, it goes on (R163). -/
def State.withLane (s : State) (p : Posted) (k : State → State) : State :=
  if p.needsLane && vtGroups s.h.vtype == 0#4 then
    let s1 := (s.wait (.lanes 1) p.word).serveLanes
    if s1.h.laneServed then k s1 else s1
  else k s

/-- An instruction is posted (R202), with `bind` done at its post. -/
def issueWith (bind : State → State) (p : Posted) (s : State) : Result :=
  .next <|
    if s.postBad p then s.ill p.word
    else if s.h.anyPending (p.opa.toList ++ p.opb.toList) then s.wait .retry p.word
    else
      match (match p.body with
        | .mat op _ mcol fmt bs => s.matCheck s.cur op mcol fmt bs p
        | _ => none) with
      | some c => s.trapHere c (p.word.setWidth 64)
      | none =>
        if !s.h.queueRoom p.eng then s.wait .retry p.word
        else s.withLane p fun s => bind s

/-- An instruction is posted (R202). -/
def issue (p : Posted) (s : State) : Result := issueWith (fun s => s.postNow p) p s

/-! ### Binding streams (R490) -/

/-- The binding that a control block describes; none where it breaks R489. -/
def bindingOf (vt : BitVec 9) (reg : VNum) (cb : Word) (b : List Byte) : Option Binding :=
  let f (off n : Nat) : Nat := sliceNat b off n
  let et : ETCode := BitVec.ofNat 4 (f 34 1)
  if cb.toNat % 64 ≠ 0 || 2 ^ 40 < f 16 8 || f 32 2 = 0 || 2048 < f 32 2 || 16 ≤ f 34 1 || 2 ≤ f 35 1 || 4 ≤ f 36 1 ||
      (slice b 37 27).any (· != 0#8) then none
  else
    some { valid := true, reg := reg, cb := cb, pos := 0, strip := min (f 32 2) (vlmaxOf (groupCount (vtGroups vt)) et),
           base := BitVec.ofNat 64 (f 0 8), index := BitVec.ofNat 64 (f 8 8), count := f 16 8,
           stride := BitVec.ofNat 64 (f 24 8), et := et, pointer := f 35 1 = 1, wrap := f 36 1 % 2 = 1, event := 2 ≤ f 36 1 }

/-- The binding slot of a register: its own, else the first that is free. -/
def Hart.bindSlot (h : Hart) (n : VNum) : Option (Fin 4) :=
  let own (k : Fin 4) : Bool := h.sb[k].valid && h.sb[k].reg = n
  match [(0 : Fin 4), 1, 2, 3].find? own with
  | some k => some k
  | none => [(0 : Fin 4), 1, 2, 3].find? fun k => !h.sb[k].valid

/-- The post of `sbind` (R490): the block is read as a scalar load would, and the register bound at position 0. -/
def State.bindStream (s : State) (p : Posted) (cb : Word) : State :=
  match s.h.bindSlot p.d with
  | none => s.ill p.word
  | some k =>
    if spadBase ≤ cb.toNat || cb.toNat % 64 ≠ 0 then s.trapHere cPROT cb
    else
      match s.scalarLoad p.word s.h.level 0 cb.toNat 64 .aux with
      | .error s => s
      | .ok (b, s) =>
        match bindingOf s.h.vtype p.d cb b with
        | none => s.trapHere cPROT cb
        | some bd => (s.mod fun h => { h with sb := h.sb.set k bd, fetched := h.fetched.set k [] }).postNow p

/-- Change the binding of a register where it is bound: its strips that are fetched go (R490). -/
def Hart.rebind (h : Hart) (n : VNum) (f : Binding → Binding) : Hart :=
  { h with sb := h.sb.map (fun b => if b.valid && b.reg = n then f b else b),
           fetched := Vector.ofFn fun (k : Fin 4) => if h.sb[k].valid && h.sb[k].reg = n then [] else h.fetched[k] }

end Sys2Proof.Machine
end

