-- ==== Sys2Proof/Machine/System.lean ====
section
/-! DEFINITION. The prefix word (R406), the SYS instructions (R466 to R471), the control-register instructions (R464), and the
retired encodings with their emulation frame (R376 to R379, R440). -/

namespace Sys2Proof.Machine

/-! ### The prefix (R405, R406) -/

/-- `pfx` (R406): PFXS takes the word, and the next instruction takes the prefix; no loop-end step is made here (R412). -/
def execPfx (p : BitVec 3) (n c : BitVec 1) (v : BitVec 5) (g : BitVec 1) (f : BitVec 3) (t : BitVec 1) (e : BitVec 3) (z : BitVec 8)
    (s : State) : Result :=
  scalarInstr (wPfx p n c v g f t e z) [] s fun s =>
    s.mod fun h => { h with pfx := wPfx p n c v g f t e z, pfxValid := true, pfxNext := true, pc := h.pc + 4#64,
                            status := .running }

/-! ### Traps and returns -/

/-- `svc` (R463, R466): the loop-end step runs first, and EPC names the instruction it selects. -/
def execSvc (i : BitVec 8) (s : State) : Result :=
  scalarInstr (wSvc i) [] s fun s =>
    let s1 := s.retire
    s1.takeTrap ⟨cSVC, i.setWidth 64⟩ s1.h.pc

/-- `brk` (R466). -/
def execBrk (i : BitVec 8) (s : State) : Result :=
  scalarInstr (wBrk i) [] s fun s => s.trapHere cBRK (i.setWidth 64)

/-- Run the hart's queues when the schedule is eager. -/
def State.runQueues (s : State) : State := if s.eager then s.drain s.cur else s

/-- `eret` (R368): held queues are released. -/
def execEret (s : State) : Result :=
  scalarInstr wEret [] s fun s =>
    let ppl := s.h.estatus.extractLsb' 0 2
    if s.h.level = .u || ppl = 3#2 || (ppl = 2#2 && !s.h.emulating) then s.ill wEret
    else (s.mod fun h => { h.leaveS with held := false }).runQueues

/-! ### Waits, caches and events -/

/-- `wfe` (R467). -/
def wfeStep (s : State) : State :=
  if s.h.ev then (s.mod fun h => { h with ev := false }).retire else s.wait .wfe wWfe

/-- `wfe` (R467). -/
def execWfe (s : State) : Result := scalarInstr wWfe [] s wfeStep

/-- `ifence` (R469): after every earlier access has performed at scope `clu`, the instruction cache is emptied. -/
def execIfence (s : State) : Result :=
  scalarInstr wIfence [] s fun s =>
    if s.performed s.cur 3 then State.retire { s with core := { s.core with icache := [] } } else s.wait .fence wIfence

/-- `tinv` (R391, R470): entries of any address space that translate the page of x(ra) go, and every cached binding where x(ra) lies in
the binding table. -/
def execTinv (a : BitVec 5) (s : State) : Result :=
  if s.h.level = .u then .next (s.ill (wTinv a))
  else
    scalarInstr (wTinv a) [a] s fun s =>
      let va := (s.x a).toNat
      let s1 := s.dropTlb fun e => decide (e.va ≤ va) && decide (va < e.va + e.size)
      State.retire { s1 with
        sched := { s.sched with bindings := if bindBase ≤ va && va < bindBase + 0x80000 then [] else s.sched.bindings } }

/-- `tinva` (R391, R470). -/
def execTinva (s : State) : Result :=
  scalarInstr wTinva [] s fun s =>
    if s.h.level = .u then s.ill wTinva else
      let s1 := s.dropTlb fun _ => true
      State.retire { s1 with sched := { s.sched with bindings := [] } }

/-- `evsig` (R468): the signal is on its way. -/
def execEvsig (a : BitVec 5) (s : State) : Result :=
  scalarInstr (wEvsig a) [a] s fun s =>
    State.retire { s with sched := { s.sched with signals := s.sched.signals ++ [((s.x a).setWidth 11, s.h.ctxid)] } }

/-- `yield` (R471): a dispatch boundary in compatibility mode, and nothing else. -/
def execYield (s : State) : Result := scalarInstr wYield [] s fun s => s.atBoundary wYield State.retire

/-! ### Control registers (R464) -/

/-- Device time moves on by a free step before it is read (R86). -/
def State.passTime (s : State) : State :=
  (s.timeTo (s.clock.gtime + Config.timeStep s.free)).tick

/-- A control-register instruction (R464): `f` gives the new bits from the old ones and x(ra); none only reads. -/
def crAccess (w : IWord) (d : XNum) (a : XNum) (c : BitVec 12) (f : Option (Word → Word → Word)) (s : State) : Result :=
  let n := c.toNat
  if crIllegal n f.isSome s.h.level then .next (s.ill w)
  else scalarInstr w (if f.isSome then [a] else []) s fun s =>
    if crWaits n && !s.h.idleQueues then s.wait .retry w
    else
      let s := if n = 0xC04 then s.passTime else s
      let old := s.crRead n
      let v := s.x a
      let s := match f with | some g => s.crWrite n (g old v) | none => s
      (s.setX d old).retire

/-- `crr` (R464). -/
def execCrr (d : BitVec 5) (c : BitVec 12) (s : State) : Result := crAccess (wCrr d c) d 0#5 c none s

/-- `crw` (R464). -/
def execCrw (d a : BitVec 5) (c : BitVec 12) (s : State) : Result := crAccess (wCrw d a c) d a c (some fun _ x => x) s

/-- `crs` (R464). -/
def execCrs (d a : BitVec 5) (c : BitVec 12) (s : State) : Result := crAccess (wCrs d a c) d a c (some fun o x => o ||| x) s

/-- `crc` (R464). -/
def execCrc (d a : BitVec 5) (c : BitVec 12) (s : State) : Result := crAccess (wCrc d a c) d a c (some fun o x => o &&& ~~~x) s

/-! ### Retired encodings (R376, R377, R440) -/

/-- The bytes of a vector register's rows as R377 lays them out: 1,024 bytes for each of `n` rows. -/
def rowBytes (r : VReg) (n : Nat) : List Byte :=
  (List.range n).flatMap fun k => natLe 1024 (if r.valid && decide (k < r.nrows) then (r.row k).toNat else 0)

/-- The bytes of a mask's 16 rows. -/
def maskRowBytes (m : MReg) : List Byte := (List.range 16).flatMap fun k => natLe 256 (m[k]?.getD 0#2048).toNat

/-- The 64 by 64 block of a tile, row-major (R377). -/
def blockBytes (t : Tile) : List Byte :=
  (List.range 64).flatMap fun i => (List.range 64).flatMap fun j => natLe 4 (((t[i]?.getD 0#4096).extractLsb' (32 * j) 32).toNat)

/-- What a retired form puts into the row areas of its frame, as offsets and bytes (R377, R440). -/
structure FrameAreas where
  cls : Nat
  opa : Word
  opb : Word
  areas : List (Nat × List Byte)

/-- The header of the frame (R377): offset 0x40 up to EPPL, and VSTART with FCSR. -/
def State.frameHeader (s : State) (w : IWord) (a : FrameAreas) : List (Nat × List Byte) :=
  let h := s.h
  [(0x40, natLe 4 w.toNat ++ natLe 4 (if h.pfxNext then h.pfx.toNat else 0) ++ wordLe h.pc ++ wordLe a.opa ++ wordLe a.opb ++
      natLe 2 h.vl ++ natLe 1 h.vrows ++ natLe 1 a.cls ++ natLe 2 h.vtype.toNat ++ natLe 1 (levelCode h.level).toNat),
   (0x68, natLe 4 h.vstart.toNat ++ natLe 4 h.fcsr.toNat)]

/-- The frame's areas written in order with S permissions; a fault is taken at S (R376). -/
def State.writeFrame (iw : IWord) : List (Nat × List Byte) → State → Except State State
  | [], s => .ok s
  | (off, bs) :: rest, s =>
    let va := s.h.emuf.toNat + off
    match s.store { s.whoScalar with level := .s } va bs .aux with
    | .ok _ s => State.writeFrame iw rest s
    | .trap t => .error (s.takeTrap t s.h.pc)
    | .busy => .error (s.wait .retry iw)
    | .fifo _ => .error (s.trapHere cPROT (BitVec.ofNat 64 va))
    | .fabric _ _ => .error (s.trapHere cPROT (BitVec.ofNat 64 va))

/-- The kill of a retired or reserved word at E, or of a retired word at S while an emulation is pending (R379). -/
def State.nestKill (s : State) : State := s.killContext s.h.ctxid.toNat cEMUNEST

/-- A retired form (R376, R436): `bad` is the ET condition of R440, `tile` its class. -/
def retiredForm (w : IWord) (bad : Hart → Bool) (tile : Bool) (areas : State → FrameAreas) (s : State) : Result :=
  .next <|
    let h := s.h
    if h.held || bad h then s.ill w
    else if h.level = .e || (h.level = .s && h.emulating) then s.nestKill
    else if tile && !h.matrixOn then s.trapHere cTILE (w.setWidth 64)
    else if !h.idleQueues || !h.stbuf.isEmpty then s.wait .retry w
    else if h.emuf = 0#64 then s.trapHere cEMU (w.setWidth 64)
    else
      let a := areas s
      match State.writeFrame w (s.frameHeader w a ++ a.areas) s with
      | .error s => s
      | .ok s =>
        s.mod fun h => { h with level := .e, pc := h.etvec + 0x80#64, resv := none, emulating := true, inHandler := true, pfxNext := false,
                                status := .running }

/-- A scalar retired form (R440). -/
def retiredScalar (w : IWord) (a b : XNum) (s : State) : Result :=
  retiredForm w (fun _ => false) false (fun s => ⟨0, s.x a, s.x b, []⟩) s

/-- The ET condition of R440: only i8 to z64. -/
def retiredEtBad (h : Hart) : Bool := decide (7 < (vtEt h.vtype).toNat)

/-- A vector row area: the register at the captured type and lane map (R243). -/
def State.sourceArea (s : State) (n : VNum) (rows : Nat) : List Byte :=
  rowBytes (s.h.readAs n (vtEt s.h.vtype) (vtGroups s.h.vtype)) rows

/-- A retired .vv form (R440). -/
def retiredVv (w : IWord) (a b : VNum) (m : MNum) (s : State) : Result :=
  retiredForm w retiredEtBad false (fun s => ⟨1, 0#64, 0#64,
    [(0x80, maskRowBytes (s.h.mask m)), (0x1080, s.sourceArea a 16), (0x5080, s.sourceArea b 16)]⟩) s

/-- A retired .vx form (R440): Source B is not written. -/
def retiredVx (w : IWord) (a : VNum) (x : XNum) (m : MNum) (s : State) : Result :=
  retiredForm w retiredEtBad false (fun s => ⟨1, 0#64, s.x x,
    [(0x80, maskRowBytes (s.h.mask m)), (0x1080, s.sourceArea a 16)]⟩) s

/-- `smac` (R440, R441). -/
def execSmac (d a b : BitVec 5) (s : State) : Result := retiredScalar (wSmac d a b) a b s

/-- `smacz` (R440, R441). -/
def execSmacz (d a b : BitVec 5) (s : State) : Result := retiredScalar (wSmacz d a b) a b s

/-- `vaadd`, .vv (R440). -/
def execVaaddVv (d a b : BitVec 5) (m : BitVec 3) (s : State) : Result := retiredVv (wVaaddVv d a b m) a b m s

/-- `vaaddu`, .vv (R440). -/
def execVaadduVv (d a b : BitVec 5) (m : BitVec 3) (s : State) : Result := retiredVv (wVaadduVv d a b m) a b m s

/-- `vasub`, .vv (R440). -/
def execVasubVv (d a b : BitVec 5) (m : BitVec 3) (s : State) : Result := retiredVv (wVasubVv d a b m) a b m s

/-- `vasubu`, .vv (R440). -/
def execVasubuVv (d a b : BitVec 5) (m : BitVec 3) (s : State) : Result := retiredVv (wVasubuVv d a b m) a b m s

/-- `vaadd`, .vx (R440). -/
def execVaaddVx (d a x : BitVec 5) (m : BitVec 3) (s : State) : Result := retiredVx (wVaaddVx d a x m) a x m s

/-- `vaaddu`, .vx (R440). -/
def execVaadduVx (d a x : BitVec 5) (m : BitVec 3) (s : State) : Result := retiredVx (wVaadduVx d a x m) a x m s

/-- `vasub`, .vx (R440). -/
def execVasubVx (d a x : BitVec 5) (m : BitVec 3) (s : State) : Result := retiredVx (wVasubVx d a x m) a x m s

/-- `vasubu`, .vx (R440). -/
def execVasubuVx (d a x : BitVec 5) (m : BitVec 3) (s : State) : Result := retiredVx (wVasubuVx d a x m) a x m s

/-- `tmop` (R440): row 0 of va and of vb, and the block of the tile. -/
def execTmop (n : BitVec 2) (a b : BitVec 5) (s : State) : Result :=
  retiredForm (wTmop n a b) (fun _ => false) true (fun s => ⟨2, 0#64, 0#64,
    [(0x1080, s.sourceArea a 1), (0x5080, s.sourceArea b 1), (0x9080, blockBytes (s.core.tile n))]⟩) s

/-- `tmzero` (R440). -/
def execTmzero (n : BitVec 2) (s : State) : Result :=
  retiredForm (wTmzero n) (fun _ => false) true (fun s => ⟨2, 0#64, 0#64, [(0x9080, blockBytes (s.core.tile n))]⟩) s

/-! ### `emuret` (R378) -/

/-- Parts of the frame read with S permissions, in order (R378). -/
def State.readFrame (iw : IWord) : List (Nat × Nat) → State → Except State (List (List Byte) × State)
  | [], s => .ok ([], s)
  | (off, n) :: rest, s =>
    let va := s.h.emuf.toNat + off
    match s.load { s.whoScalar with level := .s } va n .aux with
    | .ok bs s =>
      match State.readFrame iw rest s with
      | .ok (l, s) => .ok (bs :: l, s)
      | .error s => .error s
    | .trap t => .error (s.takeTrap t s.h.pc)
    | .busy => .error (s.wait .retry iw)
    | .fifo _ => .error (s.trapHere cPROT (BitVec.ofNat 64 va))
    | .fabric _ _ => .error (s.trapHere cPROT (BitVec.ofNat 64 va))

/-- The 64 by 64 block of a tile replaced by row-major bytes (R377). -/
def putBlock (t : Tile) (bs : List Byte) : Tile :=
  let v := leNat bs
  t.mapIdx fun i row => if i < 64 then (row &&& ~~~((BitVec.allOnes 2048).setWidth 4096)) ||| (BitVec.ofNat 2048 (v / 2 ^ (2048 * i))).setWidth 4096 else row

/-- The vector result of an emulation: the active elements, in row 0 those from VSTART on and in a later row all, as R378's pseudocode counts
them, and the tag under R237, unmasked where neither the word nor its prefix names a mask. -/
def Hart.emuVector (h : Hart) (vd : VNum) (vt : BitVec 9) (vl vrows vstart : Nat) (unmasked : Bool) (mask res : Nat) : Hart :=
  let c : Cap := { vl := vl, vrows := vrows, et := vtEt vt, lmap := vtGroups vt, vseg := 0#4, m := 0#3, neg := false }
  if vl = 0 || vrows = 0 then h
  else
    h.writeVec vd none c.et c (unmasked && vstart == 0) fun k e =>
      if (k ≠ 0 || vstart ≤ e) && mask.testBit (2048 * k + e) then some (res / 2 ^ (8192 * k + c.bits * e) % 2 ^ c.bits) else none

/-- `emuret` (R378): the frame is read as it stands, its result and flags are taken, and the hart goes on at U or S behind the
retired word, or stops there for a pre-emption (R187). -/
def execEmuret (s : State) : Result :=
  scalarInstr wEmuret [] s fun s =>
    if s.h.level ≠ .e then s.ill wEmuret
    else if !s.performed s.cur 1 then s.wait .fence wEmuret
    else
      match State.readFrame wEmuret [(0x40, 0x40)] s with
      | .error s => s
      | .ok (hs, s) =>
        let hd := hs.headD []
        let f (off n : Nat) : Nat := sliceNat hd (off - 0x40) n
        let cls := f 0x63 1
        if cls ≠ 0 && !s.h.idleQueues then s.wait .retry wEmuret
        else
        let parts : List (Nat × Nat) :=
          if cls = 1 then [(0x80, 256 * min 16 (f 0x62 1)), (0x9080, 1024 * min 16 (f 0x62 1))]
          else if cls = 2 then [(0x9080, 16384)] else []
        match State.readFrame wEmuret parts s with
        | .error s => s
        | .ok (ps, s) =>
          let w : IWord := BitVec.ofNat 32 (f 0x40 4)
          let s1 :=
            if cls = 0 then s.setX (w.extractLsb' 21 5) (BitVec.ofNat 64 (f 0x70 8))
            else if cls = 1 then
              s.mod fun h => h.emuVector (w.extractLsb' 21 5) (BitVec.ofNat 9 (f 0x64 2)) (f 0x60 2) (min 16 (f 0x62 1)) (f 0x68 4)
                (w.extractLsb' 8 3 == 0#3) (leNat (ps.getD 0 [])) (leNat (ps.getD 1 []))
            else if cls = 2 then
              (s.setTile (w.extractLsb' 24 2) (putBlock (s.core.tile (w.extractLsb' 24 2)) (ps.getD 0 []))).mod fun h =>
                h.setTiu (w.extractLsb' 24 2)
            else s
          let s2 := s1.mod fun h =>
            { h.raise (BitVec.ofNat 5 (f 0x78 1)) with
              pfxValid := false, pfxNext := false, level := levelOf (BitVec.ofNat 2 (f 0x66 1)), pc := BitVec.ofNat 64 (f 0x48 8) + 4#64,
              emulating := false, inHandler := false, status := .running }
          if s2.stopsHere false then s2.mod Hart.freeze else s2

end Sys2Proof.Machine
end

