-- ==== Sys2Proof/Machine/VConfig.lean ====
section
/-! DEFINITION. The configuration instructions of major 0x20 (R473 to R477): lane groups (R160), row quotas (R239 to R242), the
vector shape, and matrix mode. -/

namespace Sys2Proof.Machine

/-! ### Lane groups (R160) -/

/-- The highest `n` groups of a bitmap. -/
def highestGroups (g : BitVec 4) (n : Nat) : BitVec 4 :=
  let hs := ([3, 2, 1, 0].filter fun i => g.getLsbD i).take n
  BitVec.ofNat 4 (hs.foldl (fun v i => v + 2 ^ i) 0)

/-- VTYPE with its group bitmap taken from the lane allocation table. -/
def State.syncGroups (s : State) : State :=
  s.mod fun h => { h with vtype := (h.vtype &&& 0x10F#9) ||| (0#1 ++ s.core.heldBy s.cur ++ 0#4 : BitVec 9) }

/-- R160 for a hart that asks for `n` groups, 0 to keep: the state with the groups taken or released, and whether the hart holds
any. -/
def State.askLanes (s : State) (n : Nat) : State × Nat :=
  let held := s.core.heldBy s.cur
  let h := groupCount held
  let want := if n = 0 then max h 1 else n
  let s1 : State :=
    if s.h.laneServed then s
    else if want < h then s.releaseLanes s.cur (highestGroups held (h - want))
    else { s with core := s.core.grantLanes s.core.laneResv s.cur [0, 1, 2, 3] (want - h) }
  (s1.syncGroups.serveLanes, want)

/-- The groups that the field lg asks for (R474). -/
def lgCount (g : BitVec 2) : Nat := if g = 0#2 then 0 else if g = 1#2 then 1 else if g = 2#2 then 2 else 4

/-! ### Row quotas (R239 to R242) -/

/-- The registers as the releases that are still to come leave them. -/
def Hart.vAfter (h : Hart) : Vector VReg 32 := (h.releases.foldl (fun h r => h.releaseTails r.thr r.vl) h).v

/-- W(n) of R240. -/
def Hart.rowsWanted (h : Hart) (n : Nat) : Nat := h.vAfter.toList.foldl (fun w r => w + max r.rowsHeld n) 32

/-- Rows held in all. -/
def rowsIn (v : Vector VReg 32) : Nat := v.toList.foldl (fun w r => w + r.rowsHeld) 0

/-- Whether an entry writes a vector or fibre register. -/
def QEntry.writesRows (e : QEntry) : Bool := e.writes.any fun r => r < 32 || 40 ≤ r

/-- The rows that a hart counts against the pool: a fall of its quota counts once its older writers have retired, and released rows once
nothing older reads or writes them (R242). -/
def Hart.quotaNow (h : Hart) : Nat :=
  if h.queue.any fun e => decide (e.eid < h.quotaEid) && e.writesRows then max h.quota h.quotaHeld
  else h.quota + h.releases.foldl (fun n r => n + r.rows) 0

/-- U of R239. -/
def State.rowsFree (s : State) : Nat := 640 - s.harts.toList.foldl (fun q h => q + h.quotaNow) 0

/-- Set Q; a fall counts later. -/
def Hart.setQuota (h : Hart) (q : Nat) : Hart :=
  { h with quota := q, quotaHeld := if q < h.quotaNow then h.quotaNow else 0, quotaEid := h.nextEid }

/-- The release of tail rows (R241): at once, or when the older entries that use vector registers have retired (R242). -/
def Hart.release (h : Hart) (thr vl : Nat) : Hart :=
  if h.queue.any QEntry.usesVec then
    { h with releases := h.releases ++
        [⟨h.nextEid, thr, vl, rowsIn h.vAfter - rowsIn (({ h with v := h.vAfter } : Hart).releaseTails thr vl).v⟩] }
  else h.releaseTails thr vl

/-- The largest row count from 1 to `m` whose W fits, or 0 (R240). -/
def rowGrant (w : Nat → Nat) (room : Nat) : Nat → Nat
  | 0 => 0
  | m + 1 => if w (m + 1) ≤ room then m + 1 else rowGrant w room m

/-- R240 for a request of `m` rows with VTYPE and VL already new. -/
def State.askRows (s : State) (m : Nat) : State :=
  let td := s.h.vtype.getLsbD 8
  let s1 := if td then s.mod fun h => h.release m h.vl else s
  let g := rowGrant s1.h.rowsWanted (s1.rowsFree + s1.h.quota) m
  if g = 0 then s1.mod fun h => { h with vrows := 0 }
  else
    let s2 := if td && decide (g < m) then s1.mod fun h => h.release g h.vl else s1
    s2.mod fun h => { h.setQuota (h.rowsWanted g) with vrows := g }

/-- `setvl` and `setlens` (R474), with the row count asked for and the result. -/
def setShape (w : IWord) (regs : List XNum) (d a : XNum) (e : BitVec 4) (g : BitVec 2) (t : BitVec 1) (rows : State → Nat)
    (res : Hart → Nat) (s : State) : Result :=
  scalarInstr w regs s fun s =>
    let r : State × Nat := s.askLanes (lgCount g)
    let s1 := r.1.mod fun h => { h with vtype := t ++ vtGroups h.vtype ++ e }
    if vtGroups s1.h.vtype = 0#4 then s.wait (.lanes r.2) w
    else
      let m := rows s1
      let n := (s1.x a).toNat
      let s2 := s1.mod fun h => { h with vl := min n (vlmaxOf (groupCount (vtGroups h.vtype)) e) }
      let s3 := s2.askRows m
      (s3.setX d (BitVec.ofNat 64 (res s3.h))).retire

/-- `setvl` (R474). -/
def execSetvl (d a : BitVec 5) (e : BitVec 4) (g : BitVec 2) (t : BitVec 1) (s : State) : Result :=
  setShape (wSetvl d a e g t) [a] d a e g t (fun s => max s.h.vrows 1) (fun h => h.vl) s

/-- `setlens` (R474). -/
def execSetlens (d a b : BitVec 5) (e : BitVec 4) (g : BitVec 2) (t : BitVec 1) (s : State) : Result :=
  setShape (wSetlens d a b e g t) [a, b] d a e g t (fun s => min (s.x b).toNat 16) (fun h => h.vrows) s

/-- The read of a progress word with acquire semantics (R155, R339, R475): it passes the scalar data cache by, and then has the effect of the
acquire, so that later accesses see what the word's writer wrote before it. -/
def State.readProgress (s : State) (w : IWord) (va : Word) : Except State (Nat × State) :=
  match s.scalarLoad w s.h.level 0 (va &&& ~~~7#64).toNat 8 .aux with
  | .error s => .error s
  | .ok (bs, s) => .ok (leNat bs, (s.fenceEffect 4).endRemote)

/-- `setvlp` (R475). -/
def execSetvlp (d a b : BitVec 5) (s : State) : Result :=
  scalarInstr (wSetvlp d a b) [a, b] s fun s =>
    match s.readProgress (wSetvlp d a b) (s.x a) with
    | .error s => s
    | .ok (n, s) =>
      let pos := (s.x b).toNat
      let v := min (vlmaxOf (groupCount (vtGroups s.h.vtype)) (vtEt s.h.vtype)) ((n - pos) / max s.h.vrows 1)
      ((s.mod fun h => { h with vl := v }).setX d (BitVec.ofNat 64 v)).retire

/-- `vrelease` (R476). -/
def execVrelease (d : BitVec 5) (t : BitVec 1) (s : State) : Result :=
  scalarInstr (wVrelease d t) [] s fun s =>
    let n := groupCount (s.core.heldBy s.cur)
    let s1 := (s.releaseLanes s.cur 15#4).serveLanes
    let s2 := s1.mod fun h => { h with vtype := t ++ 0#4 ++ vtEt h.vtype, vl := 0 }
    let s3 := if t = 1#1 then s2.mod fun h => { (h.release 0 0).setQuota 32 with vrows := 0 } else s2
    (s3.setX d (BitVec.ofNat 64 n)).retire

/-! ### Matrix mode (R477) -/

/-- `mstart` (R168, R251, R477). -/
def execMstart (s : State) : Result :=
  scalarInstr wMstart [] s fun s =>
    if !s.feat 3 then s.ill wMstart
    else if s.core.matrix = some s.cur then s.retire
    else
      let ws := if s.core.matrixWaiters.contains s.cur then s.core.matrixWaiters else s.core.matrixWaiters ++ [s.cur]
      let s1 := State.grantMatrix { s with core := { s.core with matrixWaiters := ws } }
      if s1.core.matrix = some s1.cur then s1.retire else s1.wait .matrixMode wMstart

/-- Whether the hart's matrix queue is empty. -/
def Hart.matrixIdle (h : Hart) : Bool := !h.queue.any (·.post.eng == .matrix)

/-- `mstop` (R251, R477). -/
def execMstop (t : BitVec 1) (s : State) : Result :=
  scalarInstr (wMstop t) [] s fun s =>
    if !s.feat 3 then s.ill (wMstop t)
    else if !s.h.matrixIdle then s.wait .retry (wMstop t)
    else (s.leaveMatrix s.cur (t == 1#1)).retire

/-- The tiles of a bit set zeroed, and their TIU bits cleared. -/
def State.zeroTiles (s : State) (d : BitVec 4) : State :=
  [(0#2 : ANum), 1#2, 2#2, 3#2].foldl (fun s n =>
    if d.getLsbD n.toNat then (s.setTile n zeroTile).mod fun h => h.clearTiu n else s) s

/-- `mcfg` (R477). -/
def execMcfg (a : BitVec 5) (t : BitVec 1) (s : State) : Result :=
  if !s.feat 3 then .next (s.ill (wMcfg a t))
  else scalarInstr (wMcfg a t) [a] s fun s =>
    if !s.h.matrixOn then s.trapHere cTILE ((wMcfg a t).setWidth 64)
    else if !s.h.matrixIdle then s.wait .retry (wMcfg a t)
    else
      let v : BitVec 4 := (s.x a).setWidth 4
      let d := (v ^^^ s.h.mstat.extractLsb' 6 4) &&& s.h.mstat.extractLsb' 1 4
      if d ≠ 0#4 && t = 0#1 then s.trapHere cTILECFG ((wMcfg a t).setWidth 64)
      else ((s.zeroTiles d).mod fun h => { h with mstat := v ++ h.mstat.extractLsb' 0 6 }).retire

end Sys2Proof.Machine
end

