-- ==== Sys2Proof/Machine/Sync.lean ====
section
/-! DEFINITION. The instructions of majors 0x30 and 0x32 (R584 to R609): fences, barriers, waits, the error queue, task creation,
work pulls, time and task end. -/

namespace Sys2Proof.Machine

/-- The frame of the SYNC and TASK instructions: at E each but `fence` and `lsync` traps ILL (R585). -/
def syncInstr (w : IWord) (regs : List XNum) (s : State) (k : State → State) : Result :=
  if s.h.level = .e then .next (s.ill w) else scalarInstr w regs s k

/-! ### Fences (R336 to R338, R586 to R588) -/

/-- A fence of a scope (R336): it completes once every earlier access has performed at the scope. -/
def fenceStep (w : IWord) (scope : Nat) (s : State) : State :=
  if s.performed s.cur scope then (s.fenceEffect scope).retire else s.wait .fence w

/-- `fence.S` (R586); scope 6 needs FEAT0.SURV (R438). -/
def execFence (q : BitVec 3) (s : State) : Result :=
  scalarInstr (wFence q) [] s fun s => if q = 6#3 && !s.feat 8 then s.ill (wFence q) else fenceStep (wFence q) q.toNat s

/-- `lsync` (R338, R586): as `fence.hart`. -/
def execLsync (s : State) : Result := scalarInstr wLsync [] s (fenceStep wLsync 1)

/-- `fsc` (R344, R587): once the queues that are not held are empty and the accesses have performed, the first heartbeat tick that
follows. -/
def fscStep (s : State) : State :=
  match s.h.status with
  | .waiting (.tick since) _ =>
    if since < s.clock.hbeat.toNat then (s.fenceEffect 3).retire else s
  | _ =>
    if (s.h.held || s.h.idleQueues) && s.performed s.cur 4 then s.wait (.tick s.clock.hbeat.toNat) wFsc else s.wait .fence wFsc

/-- `fsc` (R344, R587). -/
def execFsc (s : State) : Result :=
  syncInstr wFsc [] s fun s => if s.feat 13 then fscStep s else s.ill wFsc

/-! ### Barriers (R589 to R592) -/

/-- Whether a hart of the core takes part in a barrier of its task: it runs and has not executed `tdone`. -/
def State.takesPart (s : State) (t : Task) (i : Fin 4) : Bool :=
  t.here.contains i && decide (s.harts[i].task = t.id) &&
  (match s.harts[i].status with | .running => true | .waiting _ _ => true | _ => false)

/-- Whether a hart has arrived at a barrier of a scope. -/
def Hart.arrived (h : Hart) (scope : Nat) : Bool :=
  match h.status with
  | .waiting (.barrier k) _ => decide (k = scope)
  | _ => false

/-- The release of a barrier at a hart (R589): the effect of the fence, and the hart goes on. -/
def State.releaseHart (s : State) (scope : Nat) (i : Fin 4) : State :=
  if s.harts[i].arrived scope then s.asHart i fun s => (s.fenceEffect scope).retire else s

/-- The release of a barrier once every participant of the region on this core has arrived (R589). `others` says that those on
other cores have, too; a resume may have found them arrived (R186). -/
def State.releaseBarrier (s : State) (t : Task) (scope : Nat) (others : Bool) : State :=
  let mine := [(0 : Fin 4), 1, 2, 3].filter fun i => s.takesPart t i
  if (others || scope = 2 || t.others ≤ t.arrived) && !mine.isEmpty && mine.all fun i => s.harts[i].arrived scope then
    mine.foldl (fun s i => s.releaseHart scope i)
      { s with sched := { s.sched with tasks := s.sched.tasks.map fun x => if x.id = t.id then { x with arrived := 0 } else x } }
  else s

/-- Try the releases of a task at every scope of `gbar`. -/
def State.tryBarriers (s : State) (id : Nat) : State :=
  match s.sched.tasks.find? (·.id = id) with
  | none => s
  | some t => [2, 3, 4].foldl (fun s scope => s.releaseBarrier t scope false) s

/-- `gbar` (R589): the wait of the fence, then the arrival, then the wait for the release. -/
def gbarStep (w : IWord) (scope : Nat) (s : State) : State :=
  if s.performed s.cur scope then (s.wait (.barrier scope) w).tryBarriers s.h.task else s.wait .fence w

/-- `gbar.S` (R585, R589): a scope other than 2 to 4 traps ILL. -/
def execGbar (q : BitVec 3) (s : State) : Result :=
  syncInstr (wGbar q) [] s fun s =>
    if 2 ≤ q.toNat && q.toNat ≤ 4 then gbarStep (wGbar q) q.toNat s else s.ill (wGbar q)

/-! ### Waits -/

/-- Whether the hart's wait for a heartbeat tick goes on. -/
def Hart.beforeTick (h : Hart) (hb : Word) : Bool :=
  match h.status with
  | .waiting (.tick since) _ => decide (hb.toNat ≤ since)
  | _ => false

/-- `wfp` (R155, R593): a fabric word is read again once per heartbeat tick. -/
def wfpStep (w : IWord) (a b d : XNum) (s : State) : State :=
  if s.h.beforeTick s.clock.hbeat then s
  else
    match s.readProgress w (s.x a) with
    | .error s => s
    | .ok (n, s) =>
      if (s.x b).toNat ≤ n then (s.setX d (BitVec.ofNat 64 n)).retire
      else if 2 ^ 63 ≤ (s.x a).toNat then s.wait (.tick s.clock.hbeat.toNat) w
      else s.wait .wfp w

/-- `wfp` (R593). -/
def execWfp (a b d : BitVec 5) (s : State) : Result := syncInstr (wWfp a b d) [a, b] s (wfpStep (wWfp a b d) a b d)

/-- Whether every copy with a completion mask has retired (R348). -/
def Hart.maskDone (h : Hart) (m : MNum) : Bool := !h.queue.any fun e => e.post.body.isCopy && e.post.m == m

/-- `acqm` (R348, R588): ILL with m0, and while the queues are held. -/
def execAcqm (n : BitVec 3) (s : State) : Result :=
  syncInstr (wAcqm n) [] s fun s =>
    if n = 0#3 || s.h.held then s.ill (wAcqm n)
    else if s.h.maskDone n then s.retire
    else s.wait .acqm (wAcqm n)

/-- Whether an instruction may still make a remote request: it has memory to access, not every request of it is made, and it is not known to
stay in local memory. -/
def QEntry.mayAsk (e : QEntry) : Bool :=
  e.reaches && !e.sentAll &&
  (match e.reach, e.post.body with
  | _, .store _ _ true _ => true
  | some (a, n), _ => decide (2 ^ 63 < a + n) || e.strips.any fun x => decide (x.got.length < x.count)
  | none, _ => true)

/-- Whether every remote request of a hart's earlier instructions is made and answered (R595). -/
def State.drained (s : State) (i : Fin 4) : Bool :=
  (s.harts[i].held || s.harts[i].queue.all fun e => !e.mayAsk) && (s.harts[i].stbuf.all fun b => decide (b.va.toNat < 2 ^ 63)) &&
  s.harts[i].eqWait.isEmpty && !s.hartRemote i

/-- `drainw` (R595). -/
def execDrainw (d : BitVec 5) (s : State) : Result :=
  syncInstr (wDrainw d) [] s fun s =>
    if s.drained s.cur then (s.setX d ((s.h.eqtail - s.h.eqhead).setWidth 64)).retire else s.wait .fence (wDrainw d)

/-! ### The error queue (R594) -/

/-- `eqpop` (R594): EQHEAD moves on when the store performs. -/
def execEqpop (a d : BitVec 5) (s : State) : Result :=
  syncInstr (wEqpop a d) [a] s fun s =>
    let h := s.h
    if h.eqLog = 0 || h.eqtail = h.eqhead then (s.setX d 0#64).retire
    else if !h.stbuf.isEmpty then s.wait .retry (wEqpop a d)
    else
      match s.scalarLoad (wEqpop a d) .s 0 (h.eqSlot h.eqhead) 64 with
      | .error s => s
      | .ok (bs, s) =>
        let va := (s.x a).toNat
        let done (s : State) : State :=
          ((s.mod fun h => { h with eqhead := h.eqhead + 1#32 }).setX d 1#64).endRemote.retire
        match s.store s.whoScalar va bs .scalar with
        | .ok _ s => done s
        | .trap t => s.takeTrap t s.h.pc
        | .busy => s.wait .retry (wEqpop a d)
        | .fifo _ => s.trapHere cPROT (BitVec.ofNat 64 va)
        | .fabric _ _ => done (s.sendStore s.whoScalar va bs)

/-! ### Tasks (R604, R605, R609) -/

/-- `tsk` (R604). -/
def execTsk (a b d : BitVec 5) (s : State) : Result :=
  syncInstr (wTsk a b d) [a, b] s fun s =>
    let va := (s.x a).toNat
    let prio := (s.x b).toNat
    if !s.performed s.cur 4 then s.wait .fence (wTsk a b d)
    else
      if va % 256 ≠ 0 || 7 < prio then (s.setX d 3#64).retire
      else if spadBase ≤ va then s.trapHere cPROT (s.x a)
      else
        match s.load s.whoScalar va 256 .engine with
        | .ok bs s =>
          let r : Nat × State := s.admitRecord bs prio (if s.h.level = .u then some s.h.ctxid.toNat else none)
          (r.2.setX d (BitVec.ofNat 64 r.1)).retire
        | .trap t => s.trapHere t.cause (if t.cause = cECC then t.tval else s.x a)
        | .busy => s.wait .retry (wTsk a b d)
        | .fifo _ => s.trapHere cPROT (s.x a)
        | .fabric _ _ => s.trapHere cPROT (s.x a)

/-- `tqget` (R585, R605): ILL when both destinations are one register other than x0. -/
def execTqget (c q : BitVec 5) (s : State) : Result :=
  syncInstr (wTqget c q) [] s fun s =>
    if c = q && c ≠ 0#5 then s.ill (wTqget c q)
    else
      s.atBoundary (wTqget c q) fun s =>
        let r : Nat × Nat × State := s.pull s.cur
        ((r.2.2.setX q (BitVec.ofNat 64 r.1)).setX c (BitVec.ofNat 64 r.2.1)).retire

/-- `gtime` (R606). -/
def execGtime (d : BitVec 5) (s : State) : Result :=
  syncInstr (wGtime d) [] s fun s => ((s.passTime).setX d (BitVec.ofNat 64 s.passTime.gtimeNs)).retire

/-- `gwait` (R92, R607). -/
def gwaitStep (w : IWord) (a d : XNum) (s : State) : State :=
  if s.timeState = .free then s.trapHere cCLOCK 0#64
  else
    let s := s.passTime
    if (s.x a).toNat ≤ s.gtimeNs then (s.setX d (BitVec.ofNat 64 s.gtimeNs)).retire else s.wait .gwait w

/-- `gwait` (R92, R607); it needs FEAT0.TIMED (R438). -/
def execGwait (a d : BitVec 5) (s : State) : Result :=
  if s.feat 10 then syncInstr (wGwait a d) [a] s (gwaitStep (wGwait a d) a d) else .next (s.ill (wGwait a d))

/-- `hbeat` (R608). -/
def execHbeat (a d : BitVec 5) (s : State) : Result :=
  syncInstr (wHbeat a d) [a] s fun s =>
    if (s.x a).toNat ≤ s.clock.hbeat.toNat then (s.setX d s.clock.hbeat).retire
    else s.wait (.tick s.clock.hbeat.toNat) (wHbeat a d)

/-- The end of a hart's part of its task (R144, R609): what it held is free, barriers of its task may release, and the task may
end. -/
def State.stopHart (s : State) (i : Fin 4) : State :=
  let s1 := (s.giveUp i).modHart i fun h => { h with status := .done }
  (s1.tryBarriers s.harts[i].task).settleTasks

/-- `tdone` (R609). -/
def tdoneStep (s : State) : State :=
  if s.h.idleQueues && s.performed s.cur 4 && !s.hartRemote s.cur then s.stopHart s.cur else s.wait .fence wTdone

/-- `tdone` (R609). -/
def execTdone (s : State) : Result := syncInstr wTdone [] s tdoneStep

end Sys2Proof.Machine
end

