-- ==== Sys2Proof/Machine/Fetch.lean ====
section
/-! DEFINITION. The next instruction: what the device does on its own between instructions, which hart issues (R164, R165),
asynchronous traps (R365), and the fetch of an instruction word (R401, R312, R369). -/

namespace Sys2Proof.Machine

/-! ### The instruction cache -/

/-- A fetch of the word at a physical address through the instruction cache (R312): a hit returns the line as cached; a miss reads
HBM and fills, least recently used out of four. None at an uncorrectable word of HBM; one in the cache invalidates it (R369). -/
def State.icacheRead (s : State) (w : Who) (enc : Bool) (k : Nat) : Option (List Byte) × State :=
  let line := k / 64
  let s := if s.core.icache.any (fun l => l.line = line && l.bad) then { s with core := { s.core with icache := [] } } else s
  match s.core.icache.find? (·.line = line) with
  | some l =>
    let rest := s.core.icache.filter (fun x => x.line != line)
    (some (slice l.data (k % 64) 4), { s with core := { s.core with icache := l :: rest } })
  | none =>
    let r := s.readKey w enc k 4
    match r.1 with
    | none => (none, r.2)
    | some bs =>
      let f := r.2.readKey w enc (line * 64) 64
      match f.1 with
      | none => (some bs, f.2)
      | some d =>
        let inSet (x : CLine) : Bool := x.line % 128 = line % 128
        let keep := (f.2.core.icache.filter inSet).take 3
        (some bs, { f.2 with core := { f.2.core with icache := ⟨line, d, false⟩ :: (keep ++ f.2.core.icache.filter (fun x => !inSet x)) } })

/-- Fetch the word at the program counter (R401): its word, or the state after the trap that the fetch takes. -/
def State.fetch (s : State) : Except State (IWord × State) :=
  let pc := s.h.pc
  if pc.toNat % 4 ≠ 0 then .error (s.trapHere cPFFETCH pc)
  else
    match s.locate s.whoScalar pc.toNat 4 .fetch .scalar with
    | .error t => .error (s.takeTrap t pc)
    | .ok (.hbm k enc _ _, s1) =>
      let r := s1.icacheRead s1.whoScalar enc k
      (match r.1 with
      | none => .error (r.2.trapHere cECC pc)
      | some bs => .ok (BitVec.ofNat 32 (leNat bs), r.2))
    | .ok (_, s1) => .error (s1.trapHere cPROT pc)

/-! ### Signals and dispatch -/

/-- A signal reaches its hart (R468): EV is set where the hart runs the sender's context. -/
def State.signalHart (s : State) (hartid : BitVec 11) (ctxid : BitVec 32) : State :=
  { s with harts := Vector.ofFn fun (i : Fin 4) =>
      let h := s.harts[i]
      if s.hartId i = hartid.toNat && h.isRunning && h.ctxid = ctxid then { h with ev := true } else h }

/-- Whether the oldest signal under way, or a decision of the dispatch unit, can land. -/
def State.pending (s : State) : Bool :=
  !s.sched.signals.isEmpty || s.decision.isSome ||
  s.sched.tasks.any fun t => decide (t.others ≠ 0) && t.here.all fun i => s.harts[i].status == .done

/-- The oldest signal lands, else the dispatch unit decides (R141, R468). -/
def State.landPending (s : State) : State :=
  match s.sched.signals with
  | x :: rest => State.signalHart { s with sched := { s.sched with signals := rest } } x.1 x.2
  | [] => s.dispatchOnce

/-! ### What runs between instructions -/

/-- The store buffer, the late stores and the engine queues of a hart run as far as they can (assumption 1). -/
def State.settleHart (s : State) (i : Fin 4) : State :=
  if s.eager then
    let s := State.drainStores i s.harts[i].stbuf.length s
    let s := State.drainLate i s
    s.drain i
  else s

/-- A hart whose register storage, accumulators, queue entries or return stack hold an uncorrectable word has its context killed
(R369). -/
def State.scrubHart (s : State) (i : Fin 4) : State :=
  if s.harts[i].eccBad then (s.modHart i fun h => { h with eccBad := false }).killContext s.harts[i].ctxid.toNat cECCSTATE else s

/-- What the device does on its own between two instructions. -/
def State.background (s : State) : State :=
  let s := [(0 : Fin 4), 1, 2, 3].foldl (fun s i => (s.scrubHart i).settleHart i) s
  let s := s.reduceAll.rebuildAll.fillStarts.settleFreeze.writeReports
  if s.sched.deviceErrors.isEmpty then s else s.flushErrors

/-! ### Which hart issues (R164, R165) -/

/-- Whether the hart stands behind a posted instruction that stops its issue: `cwait` (R501), `fsetl` (R567), or one that waits to
trap (R363). -/
def Hart.issueStops (h : Hart) : Bool :=
  !h.held && h.queue.any fun e => e.pend.isSome || (match e.post.body with | .cwait => true | .fib .setl _ => true | _ => false)

/-- Whether a hart may issue, or try again the word it waits with. -/
def Hart.ready (h : Hart) : Bool :=
  !h.frozen && !h.issueStops &&
  (match h.status with
  | .running => true
  | .waiting .remote _ => false
  | .waiting (.barrier _) _ => false
  | .waiting _ _ => true
  | _ => false)

/-- The hart that issues: the first ready one after the one that issued last (R165). -/
def State.pick (s : State) : Option (Fin 4) :=
  [s.core.last + 1, s.core.last + 2, s.core.last + 3, s.core.last].find? fun i => s.harts[i].ready

/-- Whether an asynchronous trap of the hart is due at this boundary (R365): a fault in queue comes first (R366). -/
def Hart.asyncDue (h : Hart) : Bool :=
  !h.asyncs.isEmpty && h.level != .e && !h.inHandler && h.canTrap && (h.held || h.queue.all fun e => e.pend.isNone)

/-- Deliver the oldest asynchronous trap of a hart (R365). -/
def State.deliverAsync (s : State) : State :=
  match s.h.asyncs with
  | [] => s
  | t :: rest => (s.mod fun h => { h with asyncs := rest }).takeTrap t s.h.pc

/-- A hart with an asynchronous trap due comes before any issue. -/
def State.asyncHart (s : State) : Option (Fin 4) := [(0 : Fin 4), 1, 2, 3].find? fun i => s.harts[i].asyncDue

/-- The word that the issuing hart executes next: the word it waits with, or the one it fetches. Without one, the state as the
device leaves it. -/
def State.issueWord (s : State) : Except State (IWord × State) :=
  match s.asyncHart with
  | some i => .error (s.asHart i State.deliverAsync)
  | none =>
    match s.pick with
    | none => .error s
    | some i =>
      let s1 := { s with cur := i, core := { s.core with last := i } }
      match s1.h.status with
      | .waiting _ w => .ok (w, s1)
      | _ => s1.fetch

/-- The word that the machine executes in this step, after what the device does on its own; or the state in which the step ends
without one. -/
def State.nextWord (s : State) : Except State (IWord × State) :=
  if s.pending then
    if Config.landsNow s.free then .error s.tick.landPending else s.tick.background.issueWord
  else s.background.issueWord

/-! ### Placing a first instruction -/

/-- The level-3 and level-2 tables, above the first GiB, that map the GiB of a VA to PA 0 (R298, R300): their entries. -/
def fetchTables (va : Nat) : List (Nat × Nat) :=
  [(0x40000000 + 8 * (va / 2 ^ 39 % 512), 0x40001000 + 1), (0x40001000 + 8 * (va / 2 ^ 30 % 512), 0x1F)]

/-- Context 0 with its tables at PA 0x4000_0000. -/
def fetchCtx : Context :=
  { ctxid := 0, live := true, asid := 0#16, root := 0x40000, valid := true, job := 0#16, key := 0,
    compat := none, drain := 0, preempted := false }

/-- The machine of a state made ready to run one instruction placed at hart 0's program counter (assumption 7). -/
def State.placeWord (s : State) (w : Nat) : State :=
  let pc : Word := (s.harts[(0 : Fin 4)].pc &&& 0x00007FFFFFFFFFFC#64)
  let cells := (fetchTables pc.toNat).foldl (fun m x => cellWrite m x.1 (natLe 8 x.2)) s.mem.cells
  let idle : Hart → Hart := fun h => { h with status := .idle, queue := [], stbuf := [], late := [], asyncs := [], eccBad := false }
  { s with
    host := { s.host with state := .ready, accept := s.host.accept.set 0 0x7FFF#32 |>.set 1 1#32, featAcked := true },
    ctxs := [fetchCtx],
    jobs := [{ job := 0#16, gen := 0#16, state := .active, ctxid := 0, stamp := 0 }],
    mem := { s.mem with cells := cellWrite cells (pc.toNat % 2 ^ 30) (natLe 4 w), eccBad := [], ways := [], sealed := [], dieTlb := [], sca := [] },
    core := { s.core with last := 3, icache := [], dcache := [], tlb := Vector.replicate 4 TlbSection.none },
    cur := 0,
    arrivals := [],
    fab := { s.fab with turned := [] },
    sched := { s.sched with signals := [], queue := [], tasks := [], starts := [], reports := [], deviceErrors := [] },
    harts := Vector.ofFn fun (i : Fin 4) =>
      if i = 0 then { idle s.harts[(0 : Fin 4)] with pc := pc, ctxid := 0#32, status := .running } else idle s.harts[i] }

end Sys2Proof.Machine
end

