-- ==== Sys2Proof/Machine/Home.lean ====
section
/-! DEFINITION. The device as a home: requests that arrive from other endpoints are checked (R67, R74, R76, R78, R104), performed at
their storage points (R64, R65, R294, R322), and answered (R63, R72, R354). -/

namespace Sys2Proof.Machine

/-! ### Acceptance -/

/-- Whether DBEATS is `n`, one more for the GCM tag of an encrypted packet (R62), and the data has that many beats. -/
def pktBeats (p : Packet) (n : Nat) : Bool :=
  p.dbeats.toNat == n + (if p.enc then 1 else 0) && p.data.length == 16 * p.dbeats.toNat

/-- SIZEM1 of R63. -/
def pktSize (p : Packet) : Nat := p.spec16.toNat % 256 + 1

/-- OFF of R63. -/
def pktOff (p : Packet) : Nat := p.spec64.toNat % 2 ^ 44

/-- Whether the zero fields of a packet that carries an offset are zero. -/
def pktOffZeros (p : Packet) : Bool := p.zerosOk && decide (p.spec64.toNat < 2 ^ 44)

/-- A packet dropped under R67 counts in the error counter of a port: the one that the packet's flow would take (R69). -/
def State.dropPacket (s : State) (p : Packet) : State :=
  let q := s.fab.portFor p.flow p.src
  { s with fab := { s.fab with ports := Vector.ofFn fun (i : Fin 24) =>
      if i.val = q then { s.fab.ports[i] with errors := s.fab.ports[i].errors + 1 } else s.fab.ports[i] } }

/-- The context at whose JOB entry a packet is current (R76). -/
def State.homeCtx (s : State) (p : Packet) : Option Nat :=
  match s.jobEntry p.job with
  | some e => if e.state != .quarantine && e.gen == p.gen then some e.ctxid else none
  | none => none

/-- What every request meets at its home, in this order: the checks of R67, the age of R78, the domain of R74, the generation of
R76 and the tag of R104; then it is performed with its plain data. -/
def State.atHome (s : State) (p : Packet) (ok cross : Bool) (answer : Nat → State → State) (k : Nat → List Byte → State → State) : Result :=
  .next <|
    if !ok then s.dropPacket p
    else if tooOld p then s
    else if !cross && domainOf p.src != domainOf s.fab.epid then answer 5 s
    else
      match s.homeCtx p with
      | none => answer 4 s
      | some c =>
        match s.openPacket p with
        | none => answer 7 s
        | some d => k c d s

/-- The status of R72 for what an access at the home meets. -/
def trapStatus (t : Trap) : Nat := if t.cause == cPROT then 2 else if t.cause == cECC then 3 else if t.cause == cFDOMAIN then 5 else 1

/-! ### Loads -/

/-- The bytes that a request reads, or its status. Offsets from 2^44 on are not reachable (R294). -/
def State.homeRead (s : State) (c off n : Nat) : Except Nat (List Byte × State) :=
  if 2 ^ 44 < off + n then .error 1
  else
    match s.load (whoHome c) off n .engine with
    | .ok bs s => .ok (bs, s)
    | .trap t => .error (trapStatus t)
    | _ => .error 2

/-- The bytes that a copy reads: those of a rebuild come from the unit (R294, R325). -/
def State.homeCopyRead (s : State) (c off n : Nat) : Except Nat (List Byte × State) :=
  match s.rebuildGroup c off n with
  | some gi => s.unitRead c gi off n
  | none => s.homeRead c off n

/-- Whether a read request is well formed (R67). SPEC16[15:8], which R63 gives no use, counts as zero (assumption 62). -/
def pktReadOk (p : Packet) : Bool := pktOffZeros p && pktBeats p 0 && decide (p.spec16.toNat < 256)

/-- `LDREQ` (R63, R72, R75). -/
def execLdreq (p : Packet) (s : State) : Result :=
  s.atHome p (pktReadOk p) false (fun st s => s.reply p 0x02 st 0#64 []) fun c _ s =>
    match s.homeRead c (pktOff p) (pktSize p) with
    | .ok (bs, s) => s.reply p 0x02 0 0#64 bs
    | .error st => s.reply p 0x02 st 0#64 []

/-- `CPYRD` (R63, R72). -/
def execCpyrd (p : Packet) (s : State) : Result :=
  s.atHome p (pktReadOk p) true (fun st s => s.reply p 0x11 st p.spec64 []) fun c _ s =>
    match s.homeCopyRead c (pktOff p) (pktSize p) with
    | .ok (bs, s) => s.reply p 0x11 0 p.spec64 bs
    | .error st => s.reply p 0x11 st p.spec64 []

/-! ### Stores -/

/-- An answer that waits for the parity deltas sent since request number `from_` (R354), or goes at once. -/
def State.replyHeld (s : State) (p : Packet) (ptype from_ : Nat) : State :=
  if s.fab.nextReq ≤ from_ then s.reply p ptype 0 0#64 []
  else
    let r := s.mkPacket ptype p.src p.job p.gen p.flow p.itag 0#16 0#64 []
    { s with fab := { s.fab with heldReplies := s.fab.heldReplies ++
      [⟨{ r with tag := p.tag }, (List.range (s.fab.nextReq - from_)).map (from_ + ·)⟩] } }

/-- Perform a store at the home, all of its bytes or none (R72, R322). -/
def State.homeWrite (s : State) (c off : Nat) (bs : List Byte) : Except Nat State :=
  if 2 ^ 44 < off + bs.length then .error 1
  else
    match s.locateAll (whoHome c) .store .engine bs.length (pagePieces off bs.length) with
    | .error t => .error (trapStatus t)
    | .ok _ =>
      match s.deviceWrite (whoHome c) off bs with
      | some s => .ok s
      | none => .error 3

/-- Whether a write request is well formed (R67). SPEC16[15:8], which R63 gives no use, counts as zero (assumption 62). -/
def pktWriteOk (p : Packet) : Bool :=
  pktOffZeros p && decide (p.spec16.toNat < 256) && pktBeats p (beatsOf (pktSize p))

/-- A write of a copy: that of a rebuild goes to the unit and sends no delta (R294, R325). -/
def State.homeCopyWrite (s : State) (c off : Nat) (bs : List Byte) : Except Nat State :=
  match s.rebuildGroup c off bs.length with
  | some gi => s.unitWrite c gi off bs
  | none => s.homeWrite c off bs

/-- A store request, performed by `write` and answered with a packet of type `ptype`. -/
def homeStore (p : Packet) (cross : Bool) (ptype : Nat) (write : State → Nat → Nat → List Byte → Except Nat State) (s : State) : Result :=
  s.atHome p (pktWriteOk p) cross (fun st s => s.reply p ptype st 0#64 []) fun c d s =>
    match write s c (pktOff p) (d.take (pktSize p)) with
    | .ok t => t.replyHeld p ptype s.fab.nextReq
    | .error st => s.reply p ptype st 0#64 []

/-- `STREQ` (R63, R68, R72, R354). -/
def execStreq (p : Packet) (s : State) : Result := homeStore p false 0x04 State.homeWrite s

/-- `CPYWR` (R63, R72). -/
def execCpywr (p : Packet) (s : State) : Result := homeStore p true 0x13 State.homeCopyWrite s

/-! ### Atomics -/

/-- The operation of an AMO op code (R453). -/
def amoOfCode (n : Nat) : Option AmoOp :=
  match n with
  | 0 => some .add | 1 => some .and | 2 => some .or | 3 => some .xor | 4 => some .min | 5 => some .max | 6 => some .minu
  | 7 => some .maxu | 8 => some .swap | 9 => some .cas | 10 => some .fadd
  | _ => none

/-- Whether an AMOREQ is well formed (R64, R67): SPEC16[15:11] zero, and an op code of R453. Another op code is no case of R67: it is dropped as
one (assumption 62). -/
def pktAmoOk (p : Packet) : Bool :=
  pktOffZeros p && decide (p.spec16.toNat < 2048) && (amoOfCode (p.spec16.toNat % 32)).isSome && pktBeats p 1

/-- The atomic of an AMOREQ with its operands: the old value, or the status. -/
def State.homeAmo (s : State) (c : Nat) (p : Packet) (d : List Byte) : Except Nat (Nat × State) :=
  let n := if p.spec16.getLsbD 5 then 8 else 4
  let b := sliceNat d 0 n
  let cmp := sliceNat d 8 n
  if (pktOff p) % n ≠ 0 then .error 6
  else
    match amoOfCode (p.spec16.toNat % 32) with
    | none => .error 2
    | some op =>
      match s.atomicAt (whoHome c) (pktOff p) n fun old => amoNew op n old b cmp with
      | .ok old s => .ok (old, s)
      | .trap t => .error (trapStatus t)
      | _ => .error 2

/-- `AMOREQ` (R64, R72): one indivisible read and write at the home, answered with the old value. -/
def execAmoreq (p : Packet) (s : State) : Result :=
  s.atHome p (pktAmoOk p) false (fun st s => s.reply p 0x06 st 0#64 []) fun c d s =>
    match s.homeAmo c p d with
    | .ok (old, s) => s.reply p 0x06 0 0#64 (natLe 8 old ++ List.replicate 8 0#8)
    | .error st => s.reply p 0x06 st 0#64 []

/-! ### Scatter-accumulate -/

/-- The combine of a SCAREQ code (R64). -/
def scaOfCode (n : Nat) : Option ScaOp :=
  match n with
  | 0 => some .add | 1 => some .max | 2 => some .min | 3 => some .ordered
  | _ => none

/-- Whether a combine takes an element type (R600). -/
def scaAllowed (op : ScaOp) (et : ETCode) : Bool :=
  et == 13#4 || et == 14#4 || (op != .ordered && (et == 2#4 || et == 6#4 || et == 3#4 || et == 7#4))

/-- Whether a SCAREQ is well formed (R63, R64, R67): 1 to 16 entries, zero fields zero, a defined combine and an element type that it takes.
The last two are no cases of R67: such a packet is dropped as one (assumption 62). -/
def pktScaOk (p : Packet) : Bool :=
  let n := p.dbeats.toNat - (if p.enc then 1 else 0)
  p.zerosOk && decide (p.spec16.toNat < 256) && !p.spec16.getLsbD 3 && decide (p.spec64.toNat < 2 ^ 32) &&
  (match scaOfCode (p.spec16.toNat % 8) with | some op => scaAllowed op (p.spec16.extractLsb' 4 4) | none => false) &&
  decide (1 ≤ n) && decide (n ≤ 16) && pktBeats p n

/-- The entry of a beat (R64): its address, its element index, and its value. -/
def scaEntryOf (et : ETCode) (beat : List Byte) : ScaEntry :=
  let w := sliceNat beat 0 8
  ⟨w / 2 ^ 44, w % 2 ^ 44, sliceNat beat 8 8 % 2 ^ etBits et⟩

/-- The entries of a SCAREQ one by one (R64): the failed one of lowest element index, if any, with its status. -/
def scaEach (c : Nat) (op : ScaOp) (et : ETCode) (grank : BitVec 32) : List ScaEntry → Option (Nat × Nat) → State → Option (Nat × Nat) × State
  | [], bad, s => (bad, s)
  | x :: xs, bad, s =>
    let r : Nat × State := if x.va % (etBits et / 8) ≠ 0 then (6, s) else s.scaHome (whoHome c) op et grank x
    let bad := if r.1 = 0 then bad else
      match bad with
      | some b => if x.index < b.1 then some (x.index, r.1) else some b
      | none => some (x.index, r.1)
    scaEach c op et grank xs bad r.2

/-- `SCAREQ` (R64, R602, R603). -/
def execScareq (p : Packet) (s : State) : Result :=
  s.atHome p (pktScaOk p) false (fun st s => s.reply p 0x08 st 0#64 []) fun c d s =>
    match scaOfCode (p.spec16.toNat % 8) with
    | none => s
    | some op =>
      let et := p.spec16.extractLsb' 4 4
      let beats := p.dbeats.toNat - (if p.enc then 1 else 0)
      let es := (List.range beats).map fun i => scaEntryOf et (slice d (16 * i) 16)
      let r := scaEach c op et (p.spec64.extractLsb' 0 32) es none s
      r.2.reply p 0x08 (match r.1 with | some b => b.2 | none => 0) 0#64 []

/-! ### Parity deltas -/

/-- XOR a delta into a parity unit (R65, R294): the status, and the state after it. -/
def State.applyDelta (s : State) (c gi off : Nat) (d : List Byte) : Nat × State :=
  match s.unitRead c gi off d.length with
  | .error st => (st, s)
  | .ok (old, t) => match t.unitWrite c gi off (xorBytes old d) with | .ok t => (0, t) | .error st => (st, s)

/-- Whether a PDELTA is well formed (R65, R67). An offset that is not a multiple of 16 is no case of R67: it is dropped as one (assumption 62). -/
def pktDeltaOk (p : Packet) : Bool :=
  let n := p.dbeats.toNat - (if p.enc then 1 else 0)
  pktOffZeros p && decide (p.spec16.toNat < 1024) && decide (p.spec64.toNat % 16 = 0) && decide (1 ≤ n) && decide (n ≤ 16) && pktBeats p n

/-- `PDELTA` (R65, R294). -/
def execPdelta (p : Packet) (s : State) : Result :=
  s.atHome p (pktDeltaOk p) false (fun st s => s.reply p 0x0A st 0#64 []) fun c d s =>
    let n := 16 * (p.dbeats.toNat - (if p.enc then 1 else 0))
    let r : Nat × State := if 2 ^ 44 < (pktOff p) + n then (1, s) else s.applyDelta c (p.spec16.toNat % 256) (pktOff p) (d.take n)
    r.2.reply p 0x0A r.1 0#64 []

end Sys2Proof.Machine
end

