-- ==== Sys2Proof/Machine/Posts.lean ====
section
/-! DEFINITION. The shapes of the posted instructions: which fields name sources, destinations and scalar operands, and the classes of R407. -/

namespace Sys2Proof.Machine

/-- A vector-queue instruction, predicable and not copyable. -/
def vecPost (w : IWord) (body : Body) (d a b : VNum) (m : MNum) (vsrc vdst : List VNum) : Posted :=
  { word := w, eng := .vector, body := body, d := d, a := a, b := b, m := m, rp := 0#2, useX := false, predicable := true,
    copyable := false, opa := none, opb := none, xd := none, vsrc := vsrc, vdst := vdst, feats := [] }

/-- A binary .vv form (R506); `more` names further sources. -/
def postVv (w : IWord) (body : Body) (d a b : VNum) (m : MNum) (rp : BitVec 2) (more : List VNum) : Posted :=
  { vecPost w body d a b m (a :: b :: more) [d] with rp := rp, copyable := true }

/-- A .vx form (R506, R507). -/
def postVx (w : IWord) (body : Body) (d a : VNum) (x : XNum) (m : MNum) (vsrc : List VNum) : Posted :=
  { vecPost w body d a 0#5 m vsrc [d] with useX := true, opb := some x, copyable := true }

/-- A unary form (R506). -/
def postUnary (w : IWord) (body : Body) (d a : VNum) (m : MNum) : Posted :=
  { vecPost w body d a 0#5 m [a] [d] with copyable := true }

/-- `vsel`, whose m is a selector: neither predicable nor copyable (R506, R515). -/
def asSelector (p : Posted) : Posted := { p with predicable := false, copyable := false }

/-- A vector load (R479). -/
def postLoad (w : IWord) (mode : VMode) (d : VNum) (xb : XNum) (opb : Option XNum) (idx : List VNum) (m : MNum) (c : BitVec 1)
    (mw : BitVec 2) (sx : BitVec 1) : Posted :=
  { vecPost w (.load mode mw (sx == 1#1) (c == 1#1)) d 0#5 (idx.headD 0#5) m idx [d] with
    opa := some xb, opb := opb, copyable := true, feats := if c = 1#1 then [13] else [] }

/-- A vector store (R479). -/
def postStore (w : IWord) (mode : VMode) (r : VNum) (xb : XNum) (opb : Option XNum) (idx : List VNum) (m : MNum) (c nf : BitVec 1)
    (mw : BitVec 2) : Posted :=
  { vecPost w (.store mode mw (nf == 1#1) (c == 1#1)) r 0#5 (idx.headD 0#5) m (r :: idx) [] with
    opa := some xb, opb := opb, feats := if c = 1#1 then [13] else [] }

/-- A comparison of two vectors (R530). -/
def postCmpVv (w : IWord) (d : MNum) (a b : VNum) (m : MNum) (rp : BitVec 2) (c : BitVec 3) (t : BitVec 2) : Posted :=
  { vecPost w (.cmp c t) (d.setWidth 5) a b m [a, b] [] with rp := rp }

/-- A comparison with a scalar (R530). -/
def postCmpVx (w : IWord) (d : MNum) (a : VNum) (x : XNum) (m : MNum) (c : BitVec 3) (t : BitVec 2) : Posted :=
  { vecPost w (.cmp c t) (d.setWidth 5) a 0#5 m [a] [] with useX := true, opb := some x }

/-- A mask instruction of mask operands (R532). -/
def postMask (w : IWord) (op : MaskOp) (d a b m : MNum) : Posted :=
  vecPost w (.mask op) (d.setWidth 5) (a.setWidth 5) (b.setWidth 5) m [] []

/-- A mask instruction that writes a scalar register (R533). -/
def postMaskX (w : IWord) (op : MaskOp) (d : XNum) (a m : MNum) : Posted :=
  { vecPost w (.mask op) 0#5 (a.setWidth 5) 0#5 m [] [] with xd := some d }

/-- A permute (R534). -/
def postPerm (w : IWord) (op : PermOp) (d a b : VNum) (m : MNum) (vsrc : List VNum) : Posted :=
  vecPost w (.perm op) d a b m vsrc [d]

/-- A permute with a scalar operand (R534). -/
def postPermX (w : IWord) (op : PermOp) (d a : VNum) (x : XNum) (m : MNum) : Posted :=
  { vecPost w (.perm op) d a 0#5 m [a] [d] with useX := true, opb := some x }

/-- A reduction or scan; vb = 0 names no initial value (R537). -/
def postRed (w : IWord) (op : RedOp) (d a b : VNum) (m : MNum) : Posted :=
  vecPost w (.red op) d a b m (if b = 0#5 then [a] else [a, b]) [d]

/-- A vector atomic (R596): the operands and old values in vd, the offsets in va. -/
def postAmo (w : IWord) (op : AmoOp) (d a : VNum) (x : XNum) (m : MNum) : Posted :=
  { vecPost w (.amo op) d 0#5 a m [a] [d] with opa := some x }

/-- A scatter-accumulate (R600). -/
def postSca (w : IWord) (op : ScaOp) (r a : VNum) (x : XNum) (m : MNum) : Posted :=
  { vecPost w (.sca op) r 0#5 a m [a, r] [] with opa := some x, feats := [14] }

/-- A fibre instruction (R545). -/
def postFib (w : IWord) (eng : Engine) (op : FibOp) (c d a b : BitVec 5) (m : MNum) : Posted :=
  { vecPost w (.fib op c) d a b m [] [] with eng := eng, predicable := false, feats := [2] }

/-- Features of an outer product's format and scales (R438). -/
def fmtFeats (fmt : BitVec 3) (bs sparse : Bool) : List Nat :=
  3 :: (if sparse then [4] else []) ++ (if fmt = 4#3 || bs then [5] else []) ++ (if fmt = 7#3 then [6] else [])

/-- A matrix instruction (R567). -/
def postMat (w : IWord) (op : MatOp) (n : ANum) (a b : VNum) (vsrc vdst : List VNum) : Posted :=
  { vecPost w (.mat op 0#3 0#3 0#3 false) (n.setWidth 5) a b 0#3 vsrc vdst with
    eng := .matrix, predicable := false, feats := [3] }

/-- An outer product (R567, R570): with block scales it reads the registers after its sources, and `mops` without a metadata
mask its index register. -/
def postOuter (w : IWord) (op : MatOp) (n : ANum) (a b : VNum) (r c fmt : BitVec 3) (bs : Bool) : Posted :=
  let sc := if bs then [a + 1#5, b + 1#5] else []
  let ix := if op = .ops && c = 0#3 then [a + 2#5] else []
  { postMat w op n a b (a :: b :: sc ++ ix) [] with
    body := .mat op r c fmt bs, feats := fmtFeats fmt bs (op = .ops) }

/-- A stream instruction (R490). -/
def postStream (w : IWord) (body : Body) (n : VNum) (opa : Option XNum) : Posted :=
  { vecPost w body n 0#5 0#5 0#3 [] [] with eng := .stream, predicable := false, opa := opa, feats := [1] }

/-- A copy (R494): m names its completion mask. -/
def postCopy (w : IWord) (body : Body) (i : List VNum) (m : MNum) (opa opb xd : Option XNum) : Posted :=
  { vecPost w body 0#5 0#5 (i.headD 0#5) m i [] with eng := .copy, predicable := false, opa := opa, opb := opb, xd := xd }


end Sys2Proof.Machine
end

