-- ==== Sys2Proof/Machine/Passes.lean ====
section
/-! DEFINITION. The passes of the lane groups as events of their own (R206 to R216): where each lane group stands in the hart's vector
queue, when a pass may enter and what it writes, staging slots and store queues, rows that are compressed, and the work of lanes that
ran ahead, which a stop discards (R185). An instruction whose passes the lane groups do not take apart from each other (those of class VX,
mask loads and stores, atomics, fibre instructions, indexed and remote accesses) advances as a whole. -/

namespace Sys2Proof.Machine

/-! ### The passes of an instruction (R206) -/

/-- A pass: its tile indices, and whether it is a compressed row, which every lane group takes together (R216). -/
structure LPass where
  lo : Nat
  hi : Nat
  whole : Bool
  deriving DecidableEq, Repr

/-- What a pass of an elementwise instruction does to the registers, for those whose passes the lane groups take apart. -/
def QEntry.laneBody (e : QEntry) : Option (Nat → Nat → Hart → Hart) :=
  match e.post.body with
  | .int .pcp => none
  | .int op => some (runInt op e)
  | .fp op => some (runFp op e)
  | .cvt none => some (runCvt e.mode e)
  | .cvt (some m) => some (runCvt ((rmodeOf m.toNat).getD .rne) e)
  | .cmp cond ty => some (runCmp cond ty e)
  | _ => none

/-- Whether a memory instruction's elements are local ones that its lane groups access apart: unit and strided accesses without `.sc`. -/
def QEntry.laneMem (e : QEntry) : Bool :=
  let near : Bool := match e.reach with | some (a, n) => decide (a + n ≤ 2 ^ 63) | none => false
  match e.post.body with
  | .load m _ _ sc => !m.isIndexed && !sc && near
  | .store m _ _ sc => !m.isIndexed && !sc && near
  | _ => false

/-- Whether the lane groups take an instruction's passes apart from each other. -/
def QEntry.laned (e : QEntry) : Bool := e.laneBody.isSome || e.laneMem

/-- Whether a row is compressed (R214). The active elements of row 0 count from VSTART on. -/
def QEntry.compressed (e : QEntry) (acmp : Bool) (h : Hart) (k : Nat) : Bool :=
  let c := e.cap
  let major := (e.post.word.extractLsb' 26 6).toNat
  let lo := if k = 0 then e.first else 0
  acmp && ((decide (0x24 ≤ major) && decide (major ≤ 0x27)) || major = 0x2C) && e.post.body != .int .sel && c.m != 0#3 &&
  h.cmpthr != 0#12 && decide ((((List.range c.vl).filter fun x => decide (lo ≤ x) && c.active h k x).length) < h.cmpthr.toNat)

/-- The passes of an instruction that lane group `g` processes: its element groups in increasing number, row after row (R206). -/
def QEntry.passes (e : QEntry) (acmp : Bool) (h : Hart) (g : Nat) : List LPass :=
  let c := e.cap
  let n := 512 / c.bits
  let groups := (c.vl + n - 1) / n
  (List.range c.vrows).flatMap fun k =>
    if e.compressed acmp h k then [⟨k * c.vl, (k + 1) * c.vl, true⟩]
    else
      ((List.range groups).filter fun j => laneAt c.lmap j = g).map fun j =>
        ⟨k * c.vl + j * n, k * c.vl + min c.vl ((j + 1) * n), false⟩

/-- The place of lane group `g` in an instruction. -/
def QEntry.at_ (e : QEntry) (g : Fin 4) : LanePos := e.lanes[g]

/-- The first pass of a lane group that ends above a bound and above the progress index. -/
def QEntry.passAfter (e : QEntry) (ps : List LPass) (t : Nat) : Option LPass :=
  ps.find? fun p => decide (t < p.hi) && decide (e.prog < p.hi)

/-- Change the places of a lane group, or of every one for a compressed row. -/
def QEntry.setAt (e : QEntry) (g : Fin 4) (p : LPass) (f : LanePos → LanePos) : QEntry :=
  { e with lanes := Vector.ofFn fun (k : Fin 4) => if p.whole || k = g then f e.lanes[k] else e.lanes[k] }

/-- Whether some element of a pass is active. -/
def QEntry.anyActive (e : QEntry) (h : Hart) (p : LPass) : Bool :=
  (List.range (p.hi - p.lo)).any fun j => e.cap.active h ((p.lo + j) / e.vl) ((p.lo + j) % e.vl)

/-! ### When a pass may enter (R207, R210, R212, R213, R220) -/

/-- Whether an instruction reads a register as vb with replication (R414). -/
def QEntry.replicates (e : QEntry) (r : Nat) : Bool := e.post.rp != 0#2 && r == vName e.post.b

/-- The end of the tile indices that a pass of an instruction reads of register `r`: behind vb that is replicated, the first S elements of the
row (R416); else those of the pass. -/
def QEntry.passReads (e : QEntry) (p : LPass) (r : Nat) : Nat :=
  let s := if e.post.rp = 1#2 then 1 else if e.post.rp = 2#2 then 16 else 64
  let rep := p.lo / (if e.vl = 0 then 1 else e.vl) * e.vl + min e.vl s
  if !e.replicates r then p.hi else if r == vName e.post.a || e.writes.contains r then max p.hi rep else rep

/-- Whether a pass of lane group `g` of instruction `e` waits for no pass of an older one `x` (R210): where the registers that both use are
vector registers and the older one's pass for the same element group is in this lane group, for the write of that pass; else for its progress
index, or its retirement. -/
def passFree (g : Fin 4) (x e : QEntry) (p : LPass) : Bool :=
  let shares (a b : List Nat) : List Nat := a.filter fun r => r != 32 && b.contains r
  let used := shares x.writes (e.reads ++ e.writes) ++ shares x.reads e.writes
  if used.isEmpty then true
  else if x.post.eng != .vector then !waitsFor x e
  else
    let alike := x.laned && x.vl == e.vl && x.vtype == e.vtype && decide (p.hi ≤ max (x.at_ g).wrote x.prog)
    used.all fun r =>
      (alike && decide (r < 32) && !e.replicates r) || decide ((if x.vl = e.vl then min x.total (e.passReads p r) else x.total) ≤ x.prog)

/-- Vector instructions of a hart that are in progress (R207). -/
def Hart.inProgress (h : Hart) : Nat := (h.queue.filter fun e => e.post.eng == .vector && e.started).length

/-- Whether an entry's lanes may take it up: the queues are not held, no older entry waits to trap, its token take and give are satisfied
(R222), and no more than four vector instructions are in progress (R207). -/
def Hart.laneMay (h : Hart) (e : QEntry) : Bool :=
  !h.held && !h.frozen && (e.started || (h.takeReady e && h.giveReady e && !h.awaitsRows e && decide (h.inProgress < 4))) &&
  h.queue.all fun x => !decide (x.eid < e.eid) || x.pend.isNone

/-- Whether an entry waits for no older one of another engine. -/
def Hart.othersFree (h : Hart) (e : QEntry) : Bool :=
  h.queue.all fun x => !decide (x.eid < e.eid) || x.post.eng == .vector || !waitsFor x e

/-- Whether no element of a pass waits for a chunk (R220). -/
def Hart.passMask (h : Hart) (e : QEntry) (p : LPass) : Bool :=
  (List.range (p.hi - p.lo)).all fun j => !h.maskWait e ((p.lo + j) / e.vl) ((p.lo + j) % e.vl)

/-- Staging slots of a lane group that are taken (R213). -/
def State.slotsTaken (s : State) (g : Fin 4) : Nat :=
  ((s.harts.toList.flatMap fun h => h.queue.flatMap (·.slots)).filter (·.lane == g)).length

/-- Whether a lane group has entered every pass of an entry. -/
def QEntry.allEntered (e : QEntry) (acmp : Bool) (h : Hart) (g : Fin 4) : Bool :=
  e.laned && (e.passAfter (e.passes acmp h g.val) (e.at_ g).entered).isNone

/-- The vector entry that a lane group of a hart takes a pass of next: the oldest that it has not entered whole (R207). -/
def State.laneEntry (s : State) (i : Fin 4) (g : Fin 4) : Option QEntry :=
  s.harts[i].queue.find? fun e =>
    e.post.eng == .vector && (vtGroups e.vtype).getLsbD g.val && !e.allEntered (s.feat 7) s.harts[i] g

/-- Whether a compressed row may be taken by every lane group: each stands at its first element (R216). -/
def QEntry.rowAligned (e : QEntry) (p : LPass) : Bool :=
  !p.whole || ((lanesOf (vtGroups e.vtype)).all fun g =>
    match (e.lanes.toList)[g]? with | some q => decide (p.lo ≤ max q.entered e.prog) | none => true)

/-! ### A pass enters -/

/-- A vector instruction that advances as a whole begins, once every lane group that it uses has entered the older ones whole. -/
def State.beginWhole (s : State) (i : Fin 4) (e : QEntry) : State :=
  let h := s.harts[i]
  let clear := h.queue.all fun x => !decide (x.eid < e.eid) || x.post.eng != .vector ||
    (lanesOf (vtGroups e.vtype)).all fun g => !(vtGroups x.vtype).getLsbD g || x.allEntered (s.feat 7) h (Fin.ofNat 4 g)
  if !e.started && clear && h.laneMay e && h.othersFree e then s.modHart i fun h => (h.beginEntry e).1 else s

/-- The next pass of an instruction enters in a lane group. -/
def State.enterPass (s : State) (i : Fin 4) (g : Fin 4) (e : QEntry) (p : LPass) : State :=
  let h := s.harts[i]
  let loads := e.laneMem && e.post.body.usesMem && !e.post.body.writesMem
  let room := if loads then !e.anyActive h p || decide (s.slotsTaken g < 16)
              else !(e.laneMem && e.post.body.writesMem) || decide (s.queuedPasses g < 16)
  let free := h.queue.all fun x => !decide (x.eid < e.eid) || x.post.eng != .vector || passFree g x e p
  if room && free && h.laneMay e && h.othersFree e && h.passMask e p && e.rowAligned p then
    let b := if e.started then (h, e) else h.beginEntry e
    let e1 := b.2.setAt g p fun q => { q with entered := p.hi }
    let e2 := if loads && e.anyActive h p then { e1 with slots := e1.slots ++ [⟨g, max p.lo e.prog, p.hi, none⟩] } else e1
    s.modHart i fun _ => b.1.putEntry e2
  else s

/-- A vector pass enters lane group `g` (R210): the next one of the oldest instruction that the lane group has still to process. An
instruction that pops strips first has them (R219). -/
def State.laneEnter (s : State) (i g : Fin 4) : State :=
  match s.laneEntry i g with
  | none => s
  | some e =>
    if !e.laned then s.beginWhole i e
    else if !e.strips.isEmpty then
      (if s.harts[i].laneMay e && s.harts[i].othersFree e then
        let b := if e.started then (s.harts[i], e) else s.harts[i].beginEntry e
        State.applyRan i none (match fetchStrips i (s.modHart i fun _ => b.1) b.2 with | .done s e => .part s e | r => r)
      else s)
    else
      match e.passAfter (e.passes (s.feat 7) s.harts[i] g.val) (e.at_ g).entered with
      | some p => s.enterPass i g e p
      | none => s

/-! ### A pass writes -/

/-- The rows that a pass may write, as they stand: those of vd and vc, and of a mask destination. -/
def QEntry.rowsBefore (e : QEntry) (h : Hart) (k : Nat) : List (VNum × Row) × List (MNum × MaskRow) :=
  match e.post.body with
  | .cmp _ _ => ([], [(e.post.d.setWidth 3, (h.mask (e.post.d.setWidth 3))[k]?.getD 0#2048)])
  | _ => ((e.post.d :: e.copy.toList).map fun n => (n, (h.vreg n).row k), [])

/-- The progress index moves over the passes that were written ahead of it, and their flags are set (R185, R211). -/
def absorbAhead : Nat → Hart → QEntry → Hart × QEntry
  | 0, h, e => (h, e)
  | n + 1, h, e =>
    match e.ahead.find? fun a => decide (a.lo ≤ e.prog) && decide (e.prog < a.hi) with
    | some a =>
      absorbAhead n { h with fcsr := h.fcsr ||| a.fcsr, gatef := h.gatef || a.gatef }
        { e with prog := a.hi, ahead := e.ahead.filter (· ≠ a) }
    | none => (h, e)

/-- A hart after a pass's results: at the progress index they stand and it moves on; above it, they are kept apart until it comes (R185,
R211). -/
def passWritten (e : QEntry) (p : LPass) (h new : Hart) : Hart × QEntry :=
  if p.lo ≤ e.prog then
    let r := absorbAhead (e.ahead.length + 1) new { e with prog := p.hi }
    ((match e.post.body with
      | .cmp _ _ => r.1
      | .store _ _ _ _ => r.1
      | _ => r.1.setVpis e.post.d e.copy r.2.prog), r.2)
  else
    let k := p.lo / (if e.vl = 0 then 1 else e.vl)
    let old := e.rowsBefore h k
    let bits := match e.post.body with | .cmp _ _ => 1 | _ => etBits (new.vreg e.post.d).et
    ({ new with vpi := h.vpi, fcsr := h.fcsr, gatef := h.gatef },
     { e with ahead := e.ahead ++ [⟨p.lo, p.hi, k, bits, old.1, old.2, new.fcsr, new.gatef⟩] })

/-- An instruction whose last pass is written retires (R208); a store that notifies goes on to its notify step (R485). -/
def State.endPasses (s : State) (i : Fin 4) (e : QEntry) : State :=
  if e.prog < e.total then s.putEntry i e
  else
    match e.post.body with
    | .store _ _ true _ => State.applyRan i none (notifyStep i s e)
    | _ => State.applyRan i none (.done s e)

/-- A pass of an elementwise instruction writes its results (R210). -/
def State.writeElems (s : State) (i : Fin 4) (g : Fin 4) (e : QEntry) (p : LPass) (f : Nat → Nat → Hart → Hart) : State :=
  if e.post.body == .cvt none && (rmodeOf e.rm.toNat).isNone && etFloat (cvtTarget s.harts[i] e) then
    s.entryFault i e ⟨cILL, e.post.word.setWidth 64⟩
  else
    let h := s.harts[i]
    let r := passWritten (e.setAt g p fun q => { q with wrote := p.hi }) p h (f (max p.lo e.prog) p.hi h)
    (s.modHart i fun _ => r.1).endPasses i r.2

/-- A load's pass goes from its slot into the register, once its data is complete and every lower pass of the instruction is written or has no
active element; no element at or above a failing one is written (R213, R483). -/
def State.writeLoad (s : State) (i : Fin 4) (g : Fin 4) (e : QEntry) (p : LPass) : State :=
  let h := s.harts[i]
  let lower := (lanesOf (vtGroups e.vtype)).flatMap fun k =>
    (e.passes (s.feat 7) h k).filter fun q => decide (e.prog < q.hi) && decide (q.hi ≤ p.lo)
  let mark (e : QEntry) : QEntry := e.setAt g p fun q => { q with wrote := p.hi }
  if !e.anyActive h p then s.putEntry i (mark e)
  else
    match e.slots.find? fun x => x.hi = p.hi with
    | some ⟨_, _, _, some (vals, trap)⟩ =>
      if lower.any (e.anyActive h) then s
      else
        let c := e.cap
        let w := match e.post.body with | .load _ mw _ _ => memBits c.et mw | _ => c.bits
        let sx := match e.post.body with | .load _ _ x _ => x | _ => false
        let ext (v : Nat) : Nat := if sx && w < c.bits then wrap c.bits (sval w v) else v
        let put (h : Hart) (n : VNum) : Hart :=
          h.setVreg n (putLoaded ((h.vreg n).dest c.et c.lmap c.vl c.vrows (c.covers e.first)) c.bits c.vl ext vals)
        let upto := match trap with | some x => x.1 | none => p.hi
        let s1 := s.modHart i fun h =>
          ((e.post.d :: e.copy.toList).foldl put h).setVpis e.post.d e.copy upto
        let e1 := { mark e with prog := upto, slots := e.slots.filter fun x => p.hi < x.hi }
        match trap with
        | some x => s1.entryFault i e1 x.2
        | none => s1.endPasses i e1
    | _ => s

/-- The elements of a store's pass, with the bytes of each; the first that fails (R482). -/
def State.storeElems (s : State) (i : Fin 4) (e : QEntry) (mode : VMode) (w : Nat) (p : LPass) :
    List (Nat × Nat × List Byte) × Option (Nat × Trap) :=
  let c := e.cap
  let h := s.harts[i]
  let vs := h.readAs e.post.d c.et c.lmap
  let addr := elemAddr mode e (h.vreg e.post.b) w
  let n := (w + 7) / 8
  let act := ((List.range (p.hi - max p.lo e.prog)).map (max p.lo e.prog + ·)).filter fun t => c.active h (t / c.vl) (t % c.vl)
  let bad := act.findSome? fun t =>
    match s.locateAll (e.who s i 0 (laneOf c.lmap c.bits (t % c.vl))) .store .vector n (pagePieces (addr t) n) with
    | .error tr => some (t, (⟨tr.cause, BitVec.ofNat 64 (addr t)⟩ : Trap))
    | .ok _ => none
  let good := match bad with | some x => act.filter (· < x.1) | none => act
  (good.map fun t => (t, addr t, storeBytes vs c w t), bad)

/-- A store's pass is placed in its lane group's store queue (R213). A failing element is reached only when the progress index has come to
its pass. A pass of 4-bit elements reads and rewrites their bytes as it is placed (R480). -/
def State.writeStore (s : State) (i : Fin 4) (g : Fin 4) (e : QEntry) (p : LPass) (mode : VMode) (w : Nat) : State :=
  let s := s.modHart i fun h => h.relayAll e.cap.et e.cap.lmap [e.post.d]
  let r := s.storeElems i e mode w p
  let wh := e.who s i 0 g.val
  if r.1.any fun x => s.laneWaits wh x.2.1 x.2.2.length || s.bankWait wh x.2.1 x.2.2.length then s
  else if r.2.isSome && e.prog < p.lo then s
  else
    let bytes (x : Nat × Nat × List Byte) : List Byte :=
      if w ≠ 4 then x.2.2
      else
        match s.load wh x.2.1 1 .vector with
        | .ok old _ => nibbleBytes x.1 [leNat x.2.2 % 16] old
        | _ => x.2.2
    let s1 := r.1.foldl (fun s x => s.addLate i (lateOf s wh x.2.1 (bytes x) true (e.eid, p.lo) none)) s
    match r.2 with
    | some x => s1.entryFault i { e with prog := x.1 } x.2
    | none =>
      let h := s1.harts[i]
      let q := passWritten (e.setAt g p fun q => { q with wrote := p.hi }) p h h
      (s1.modHart i fun _ => q.1).endPasses i q.2

/-- How far an instruction that advances as a whole goes in one event: a row of one that works on whole rows, all of a scatter-accumulate, whose
elements are combined before they are sent (R601), else 64 bytes of elements. -/
def QEntry.wholeEnd (e : QEntry) : Nat :=
  match e.post.body with
  | .sca _ => e.total
  | .perm _ | .red _ | .int .pcp => min e.total ((e.prog / (if e.vl = 0 then 1 else e.vl) + 1) * e.vl)
  | _ => passEnd e

/-- Whether the sources of such an instruction stand as far as its next part reads them (R212): the row at work, or the whole register for one
that reads other rows. -/
def Hart.wholeReady (h : Hart) (e : QEntry) : Bool :=
  let byRow : Bool := match e.post.body with | .perm .tr | .perm .rowmv => false | .perm _ | .red _ | .int .pcp | .kswap _ => true | _ => false
  h.queue.all fun x => !decide (x.eid < e.eid) ||
    (if x.post.eng == .vector && waitsFor x e then
      decide ((if byRow && x.vl = e.vl then min x.total e.wholeEnd else x.total) ≤ x.prog) && !(x.total = 0)
     else !waitsFor x e)

/-- A part of an instruction that advances as a whole. -/
def State.writeWhole (s : State) (i : Fin 4) (e : QEntry) : State :=
  if e.started && !s.harts[i].held && !s.harts[i].frozen && s.harts[i].wholeReady e then
    match (if e.strips.isEmpty then Ran.done s e else fetchStrips i s e) with
    | .done s1 e1 =>
      let r := bodyRun i e1.wholeEnd e1 s1
      State.applyRan i r.2 r.1
    | o => State.applyRan i none o
  else s

/-- The vector entry whose pass a lane group writes next: the oldest that it has entered and not written. -/
def State.laneOpen (s : State) (i g : Fin 4) : Option QEntry :=
  s.harts[i].queue.find? fun e =>
    e.post.eng == .vector && (vtGroups e.vtype).getLsbD g.val && e.started &&
    (!e.laned ||
      match e.passAfter (e.passes (s.feat 7) s.harts[i] g.val) (e.at_ g).wrote with
      | some p => decide (p.hi ≤ (e.at_ g).entered)
      | none => false)

/-- A lane group writes the results of its oldest pass under way (R210, R213). -/
def State.laneWrite (s : State) (i g : Fin 4) : State :=
  match s.laneOpen i g with
  | none => s
  | some e =>
    match e.pend with
    | some t => s.entryFault i e t
    | none =>
      if !e.laned then s.writeWhole i e
      else
        match e.passAfter (e.passes (s.feat 7) s.harts[i] g.val) (e.at_ g).wrote with
        | none => s
        | some p =>
          match e.laneBody, e.post.body with
          | some f, _ => s.writeElems i g e p f
          | none, .store mode mw _ _ => s.writeStore i g e p mode (memBits e.cap.et mw)
          | none, _ => s.writeLoad i g e p

/-! ### Data arrives (R213) -/

/-- The values that a load's pass reads: those of its active elements below the first that fails, and that failure. None while a bank or an
earlier store to the bytes makes it wait (R310, R333). -/
def State.readPass (s : State) (i : Fin 4) (e : QEntry) (mode : VMode) (w : Nat) (g : Fin 4) :
    List Nat → Option (List (Nat × Nat) × Option (Nat × Trap) × State)
  | [] => some ([], none, s)
  | t :: ts =>
    let va := elemAddr mode e (s.harts[i].vreg e.post.b) w t
    let n := (w + 7) / 8
    let wh := e.who s i 0 g.val
    if s.laneWaits wh va n then none
    else
      match s.load wh va n .vector with
      | .trap tr => some ([], some (t, ⟨tr.cause, BitVec.ofNat 64 va⟩), s)
      | .ok bs s1 =>
        (match s1.readPass i e mode w g ts with
        | some (vs, f, s2) => some ((t, if w = 4 then leNat bs / (if t % 2 = 0 then 1 else 16) % 16 else leNat bs) :: vs, f, s2)
        | none => none)
      | .fifo _ => some ([], some (t, ⟨cPROT, BitVec.ofNat 64 va⟩), s)
      | _ => none

/-- The data of the `k`-th staging slot that is still open in a hart becomes complete (R213), in any order. -/
def State.fillSlot (s : State) (i : Fin 4) (k : Nat) : State :=
  let open_ := s.harts[i].queue.flatMap fun e => (e.slots.filter (·.data.isNone)).map fun x => (e, x)
  match open_[k]? with
  | none => s
  | some (e, x) =>
    match e.post.body with
    | .load mode mw _ _ =>
      let act := ((List.range (x.hi - x.lo)).map (x.lo + ·)).filter fun t => e.cap.active s.harts[i] (t / e.vl) (t % e.vl)
      (match s.readPass i e mode (memBits e.cap.et mw) x.lane act with
      | some (vs, f, s1) => s1.putEntry i { e with slots := e.slots.map fun y => if y = x then { y with data := some (vs, f) } else y }
      | none => s)
    | _ => s

/-! ### Strips fetched ahead (R219) -/

/-- The binding of a stream as it stands behind the strips that its engine holds. -/
def Hart.fetchPoint (h : Hart) (k : Fin 4) : Binding := h.fetched[k].foldl (fun b _ => b.pop.1) h.sb[k]

/-- Bytes of the strips that an engine holds. -/
def Hart.stripBytes (h : Hart) (k : Fin 4) : Nat := (h.fetched[k].map fun x => (x.count * etBits h.sb[k].et + 7) / 8).sum

/-- Whether the engine of a binding may fetch a further strip: it is claimed, no instruction of the stream queue is still to change the
binding, at most 8 strips and 16 KiB are ahead, and none of them has met a fault. -/
def State.mayFetch (s : State) (i k : Fin 4) : Bool :=
  let h := s.harts[i]
  let b := (h.fetchPoint k).pop
  h.sb[k].valid && h.isRunning && !h.held && h.level != .e && s.core.boundEngines.contains (i, h.sb[k].reg) &&
  (h.queue.all fun e => e.post.eng != .stream || e.post.d != h.sb[k].reg) &&
  h.fetched[k].all (·.trap.isNone) && decide (h.fetched[k].length < 8) && decide (b.2.2.1 ≠ 0) &&
  decide (h.stripBytes k + (b.2.2.1 * etBits h.sb[k].et + 7) / 8 ≤ 16384)

/-- The next strip of a binding is fetched ahead of its pop (R219), from local memory; a fault of it is kept for the pop. -/
def State.fetchAhead (s : State) (i k : Fin 4) : State :=
  if s.mayFetch i k then
    let h := s.harts[i]
    let b := h.fetchPoint k
    let p := b.pop
    let e := h.newEntry (postStream (wSpos b.reg 0#5) .spos b.reg none)
    let put (s : State) (x : Strip) (t : Option Trap) : State := s.modHart i fun h =>
      { h with fetched := h.fetched.set k (h.fetched[k] ++ [⟨p.2.1, p.2.2.1, x.got, t⟩]) }
    match stripLoop i (p.2.2.1 + 1) s e { reg := b.reg, bind := b, first := p.2.1, count := p.2.2.1, got := [], trap := none } with
    | (s1, _, x, .finished) => put s1 x none
    | (s1, _, x, .trap t) => put s1 x (some t)
    | _ => s
  else s

/-! ### Stores leave their queues -/

/-- The oldest element in a lane group's store queue performs, once every lower element of its instruction is committed (R185, R213,
R332); a copy's kept write with no lane group. -/
def State.performLane (s : State) (i : Fin 4) (g : Option (Fin 4)) : State :=
  match s.harts[i].late.find? (·.lane == g) with
  | none => s
  | some b => s.performLate i b

/-! ### A stop (R182) -/

/-- The intersect unit stops at an entry boundary (R183, R552): the instruction at its queue's head, where it may run, has not begun, stops
after some of its entries, or has ended; which, the machine chooses. -/
def State.stopFibre (s : State) (i : Fin 4) : State :=
  match s.harts[i].headOf .intersect with
  | none => s
  | some e =>
    let k := Config.freeChoice s.free
    let s := s.tick
    if !s.mayRun i e || e.pend.isSome || k % 2 = 0 then s
    else
      match e.post.body with
      | .fib op _ =>
        let b := if e.started then (s.harts[i], e) else s.harts[i].beginEntry e
        if op = .walk then State.applyRan i none (runWalk (k / 2) i b.2 ((s.modHart i fun _ => b.1).served i .intersect))
        else
          match (if b.2.stoppable op && !(op == .compact && b.1.fibMaskWait b.2 2048) then b.1.stopFba op (e.ents.length + k / 2) b.2 else none) with
          | some (h, e) => ((s.modHart i fun _ => h).putEntry i e).served i .intersect
          | none => s.tryEntry i QEntry.total e.eid
      | _ => s

/-- The passes that have entered are written, so far as nothing keeps them back (R182). -/
def State.finishPasses (s : State) (i : Fin 4) : State :=
  (List.range 64).foldl (fun s k =>
    let g := Fin.ofNat 4 k
    match s.laneOpen i g with
    | some e => if e.laned && e.pend.isNone then s.laneWrite i g else s
    | none => s) s

end Sys2Proof.Machine
end

