-- ==== Sys2Proof/Machine/Waits.lean ====
section
/-! DEFINITION. The events of a hart and its engines: what ends a wait, what an engine does next, traps that are delivered, lane
groups and matrix mode granted, signals, heartbeats, and the dispatch unit's decision. An event that nothing in the state awaits
has no effect. -/

namespace Sys2Proof.Machine

/-! ### Helpers -/

/-- A meaning run as another hart. -/
def onHart (i : Fin 4) (f : State → Result) (s : State) : Result :=
  match f { s with cur := i } with
  | .next t => .next { t with cur := s.cur }
  | r => r

/-- The word that a hart waits with is tried again; a frozen hart does nothing (R182). -/
def onWaiter (i : Fin 4) (f : IWord → State → Result) (s : State) : Result :=
  if s.harts[i].frozen then .next s
  else
  match s.harts[i].status with
  | .waiting .remote _ => .next s
  | .waiting (.barrier _) _ => .next s
  | .waiting _ w => onHart i (f w) s
  | _ => .next s

/-- Whether lane groups stand apart in an entry, above its progress index. -/
def QEntry.apart (e : QEntry) : Bool := e.lanes.toList.any fun p => decide (e.prog < p.entered)

/-- The head of an engine's queue runs up to a bound, when a condition holds of it. -/
def State.runHead (s : State) (i : Fin 4) (eng : Engine) (hi : QEntry → Nat) (p : QEntry → Bool) : State :=
  match s.harts[i].headOf eng with
  | some e => if p e && !e.apart then s.tryEntry i hi e.eid else s
  | none => s

/-- The head of an engine's queue begins. -/
def State.beginHead (s : State) (i : Fin 4) (eng : Engine) : State :=
  match s.harts[i].headOf eng with
  | some e => s.beginOnly i e.eid
  | none => s

/-- The oldest entry of a hart that meets a condition is tried. -/
def State.runFirst (s : State) (i : Fin 4) (p : QEntry → Bool) : State :=
  match s.harts[i].queue.find? p with
  | some e => if e.apart then s else s.tryEntry i QEntry.total e.eid
  | none => s

/-- The engine of a number (R195). -/
def engineOf (e : Fin 5) : Engine :=
  if e = 0 then .vector else if e = 1 then .matrix else if e = 2 then .intersect else if e = 3 then .stream else .copy

/-! ### Words tried again -/

/-- A retired form. -/
def retryRetired (w : IWord) (s : State) : Result :=
  if w == wSmac (w.extractLsb' 21 5) (w.extractLsb' 16 5) (w.extractLsb' 11 5) then execSmac (w.extractLsb' 21 5) (w.extractLsb' 16 5) (w.extractLsb' 11 5) s
  else if w == wSmacz (w.extractLsb' 21 5) (w.extractLsb' 16 5) (w.extractLsb' 11 5) then execSmacz (w.extractLsb' 21 5) (w.extractLsb' 16 5) (w.extractLsb' 11 5) s
  else if w == wVaaddVv (w.extractLsb' 21 5) (w.extractLsb' 16 5) (w.extractLsb' 11 5) (w.extractLsb' 8 3) then execVaaddVv (w.extractLsb' 21 5) (w.extractLsb' 16 5) (w.extractLsb' 11 5) (w.extractLsb' 8 3) s
  else if w == wVaadduVv (w.extractLsb' 21 5) (w.extractLsb' 16 5) (w.extractLsb' 11 5) (w.extractLsb' 8 3) then execVaadduVv (w.extractLsb' 21 5) (w.extractLsb' 16 5) (w.extractLsb' 11 5) (w.extractLsb' 8 3) s
  else if w == wVasubVv (w.extractLsb' 21 5) (w.extractLsb' 16 5) (w.extractLsb' 11 5) (w.extractLsb' 8 3) then execVasubVv (w.extractLsb' 21 5) (w.extractLsb' 16 5) (w.extractLsb' 11 5) (w.extractLsb' 8 3) s
  else if w == wVasubuVv (w.extractLsb' 21 5) (w.extractLsb' 16 5) (w.extractLsb' 11 5) (w.extractLsb' 8 3) then execVasubuVv (w.extractLsb' 21 5) (w.extractLsb' 16 5) (w.extractLsb' 11 5) (w.extractLsb' 8 3) s
  else if w == wVaaddVx (w.extractLsb' 21 5) (w.extractLsb' 16 5) (w.extractLsb' 11 5) (w.extractLsb' 8 3) then execVaaddVx (w.extractLsb' 21 5) (w.extractLsb' 16 5) (w.extractLsb' 11 5) (w.extractLsb' 8 3) s
  else if w == wVaadduVx (w.extractLsb' 21 5) (w.extractLsb' 16 5) (w.extractLsb' 11 5) (w.extractLsb' 8 3) then execVaadduVx (w.extractLsb' 21 5) (w.extractLsb' 16 5) (w.extractLsb' 11 5) (w.extractLsb' 8 3) s
  else if w == wVasubVx (w.extractLsb' 21 5) (w.extractLsb' 16 5) (w.extractLsb' 11 5) (w.extractLsb' 8 3) then execVasubVx (w.extractLsb' 21 5) (w.extractLsb' 16 5) (w.extractLsb' 11 5) (w.extractLsb' 8 3) s
  else if w == wVasubuVx (w.extractLsb' 21 5) (w.extractLsb' 16 5) (w.extractLsb' 11 5) (w.extractLsb' 8 3) then execVasubuVx (w.extractLsb' 21 5) (w.extractLsb' 16 5) (w.extractLsb' 11 5) (w.extractLsb' 8 3) s
  else if w == wTmop (w.extractLsb' 24 2) (w.extractLsb' 19 5) (w.extractLsb' 14 5) then execTmop (w.extractLsb' 24 2) (w.extractLsb' 19 5) (w.extractLsb' 14 5) s
  else if w == wTmzero (w.extractLsb' 24 2) then execTmzero (w.extractLsb' 24 2) s
  else .next s

/-- `fence`, `lsync` or `ifence`. -/
def retryFence (w : IWord) (s : State) : Result :=
  if w == wFence (w.extractLsb' 13 3) then execFence (w.extractLsb' 13 3) s
  else if w == wLsync then execLsync s
  else if w == wIfence then execIfence s
  else .next s

/-- `gbar` before its arrival. -/
def retryGbar (w : IWord) (s : State) : Result :=
  if w == wGbar (w.extractLsb' 13 3) then execGbar (w.extractLsb' 13 3) s
  else .next s

/-- `acqm`. -/
def retryAcqm (w : IWord) (s : State) : Result :=
  if w == wAcqm (w.extractLsb' 21 3) then execAcqm (w.extractLsb' 21 3) s
  else .next s

/-- `drainw`. -/
def retryDrainw (w : IWord) (s : State) : Result :=
  if w == wDrainw (w.extractLsb' 8 5) then execDrainw (w.extractLsb' 8 5) s
  else .next s

/-- `tdone`. -/
def retryTdone (w : IWord) (s : State) : Result :=
  if w == wTdone then execTdone s
  else .next s

/-- `wfp`. -/
def retryWfp (w : IWord) (s : State) : Result :=
  if w == wWfp (w.extractLsb' 21 5) (w.extractLsb' 16 5) (w.extractLsb' 8 5) then execWfp (w.extractLsb' 21 5) (w.extractLsb' 16 5) (w.extractLsb' 8 5) s
  else .next s

/-- `wfe`. -/
def retryWfe (w : IWord) (s : State) : Result :=
  if w == wWfe then execWfe s
  else .next s

/-- `gwait`. -/
def retryGwait (w : IWord) (s : State) : Result :=
  if w == wGwait (w.extractLsb' 21 5) (w.extractLsb' 8 5) then execGwait (w.extractLsb' 21 5) (w.extractLsb' 8 5) s
  else .next s

/-- `ld` or `st` at a FIFO. -/
def retryFifo (w : IWord) (s : State) : Result :=
  if w == wLd (w.extractLsb' 21 5) (w.extractLsb' 16 5) (w.extractLsb' 13 3) (w.extractLsb' 0 13) then execLd (w.extractLsb' 21 5) (w.extractLsb' 16 5) (w.extractLsb' 13 3) (w.extractLsb' 0 13) s
  else if w == wSt (w.extractLsb' 21 5) (w.extractLsb' 16 5) (w.extractLsb' 13 2) (w.extractLsb' 0 13) then execSt (w.extractLsb' 21 5) (w.extractLsb' 16 5) (w.extractLsb' 13 2) (w.extractLsb' 0 13) s
  else .next s

/-- `tinv` or `tinva`. -/
def retryTinv (w : IWord) (s : State) : Result :=
  if w == wTinv (w.extractLsb' 16 5) then execTinv (w.extractLsb' 16 5) s
  else if w == wTinva then execTinva s
  else .next s

/-- `hbeat` or `fsc`. -/
def retryTick (w : IWord) (s : State) : Result :=
  if w == wHbeat (w.extractLsb' 21 5) (w.extractLsb' 8 5) then execHbeat (w.extractLsb' 21 5) (w.extractLsb' 8 5) s
  else if w == wFsc then execFsc s
  else if w == wWfp (w.extractLsb' 21 5) (w.extractLsb' 16 5) (w.extractLsb' 8 5) then execWfp (w.extractLsb' 21 5) (w.extractLsb' 16 5) (w.extractLsb' 8 5) s
  else .next s

/-! ### Traps -/

/-- The entry into an emulation (R376): a hart that waits with a retired word tries it again. -/
def execEmulationEntry (h : Fin 4) (s : State) : Result := onWaiter h retryRetired s

/-- A trap in queue (R363): the entry that has met a fault takes it once every older one has retired. -/
def execTrapInQueue (h : Fin 4) (s : State) : Result := .next (s.runFirst h fun e => e.pend.isSome)

/-- An asynchronous trap is delivered where it is due (R365). -/
def execAsyncTrapDelivery (h : Fin 4) (s : State) : Result :=
  .next (if s.harts[h].asyncDue then s.asHart h State.deliverAsync else s)

/-- The issue of a reserved word by a hart that runs (R436): ILL, or a kill at E. -/
def execReservedEncoding (h : Fin 4) (w : IWord) (s : State) : Result :=
  .next (if isReserved w && s.harts[h].status == .running then s.asHart h fun s => s.ill w else s)

/-- A fetch that faults at a VA (R401): the hart's program counter stands there, and the fetch is made. -/
def execPfFetch (h : Fin 4) (va : Word) (s : State) : Result :=
  .next <|
    if s.harts[h].status == .running && s.harts[h].pc == va then
      s.asHart h fun s => match s.fetch with | .error t => t | .ok _ => s
    else s

/-! ### Engines -/

/-- From now on the engines go on by their events alone (assumption 1). -/
def State.byEvents (s : State) : State := { s with eager := false }

/-- A pass enters a lane group (R210). -/
def execVectorPassEntry (a : LaneAt) (s : State) : Result := .next (s.byEvents.laneEnter a.hart a.lane)

/-- A pass writes its results (R210). -/
def execVectorPassWrite (a : LaneAt) (s : State) : Result := .next (s.byEvents.laneWrite a.hart a.lane)

/-- The head of an engine's queue retires (R208), where nothing stops it. -/
def execEngineRetire (h : Fin 4) (e : Fin 5) (s : State) : Result := .next (s.runHead h (engineOf e) QEntry.total fun _ => true)

/-- The data of a load's pass is complete in a staging slot of its hart (R213). -/
def execLoadDataArrival (a : SlotAt) (s : State) : Result := .next (s.byEvents.fillSlot a.hart a.slot)

/-- Whether an entry is a store that notifies. -/
def QEntry.notifies (e : QEntry) : Bool := match e.post.body with | .store _ _ nf _ => nf | _ => false

/-- The notify step of a store (R485). -/
def execNotifyStore (h : Fin 4) (s : State) : Result := .next (s.runFirst h QEntry.notifies)

/-- The intersect unit starts the instruction at its queue's head (R556). -/
def execIntersectStart (h : Fin 4) (s : State) : Result := .next (s.beginHead h .intersect)

/-- The copy engine begins the oldest copy that has not begun (R502). -/
def execCopyBegin (h : Fin 4) (s : State) : Result :=
  .next (match s.harts[h].queue.find? fun e => e.post.eng == .copy && !e.started with
    | some e => s.beginOnly h e.eid
    | none => s)

/-- A chunk of a copy completes (R347): the copy that has begun goes on. -/
def execCopyChunkComplete (h : Fin 4) (s : State) : Result := .next (s.runFirst h fun e => e.post.body.isCopy && e.started)

/-- The hash of a verified unit is done (R386, R498): the verified copy that has begun goes on. -/
def execVerifyHashDone (h : Fin 4) (s : State) : Result :=
  .next (s.runFirst h fun e => e.post.body.isCopy && e.started && copyKind (e.memo.headD 0) == 1)

/-- `cwait` retires (R501). -/
def execCwaitRetire (h : Fin 4) (s : State) : Result := .next (s.runFirst h fun e => e.post.body == .cwait)

/-- An outer product enters the array (R574). -/
def execMatrixStepEntry (h : Fin 4) (s : State) : Result := .next (s.beginHead h .matrix)

/-- An outer product writes its accumulators (R574). -/
def execMatrixStepWrite (h : Fin 4) (s : State) : Result := .next (s.runHead h .matrix QEntry.total fun _ => true)

/-- The other members of a gang have come to the matrix instruction at the head of the queue, and it goes on. -/
def State.joinHead (s : State) (i : Fin 4) (p : MatOp → Bool) : State :=
  match s.harts[i].headOf .matrix with
  | some e =>
    (match e.post.body with
    | .mat op _ _ _ _ => if p op then (s.putEntry i { e with aux := 1 }).tryEntry i QEntry.total e.eid else s
    | _ => s)
  | none => s

/-- All members bind on one cycle (R579). -/
def execMgangBind (h : Fin 4) (s : State) : Result := .next (s.joinHead h (· == .gang))

/-- All members' `mgsync` retire together (R581). -/
def execMgsyncRelease (h : Fin 4) (s : State) : Result := .next (s.joinHead h (· == .gsync))

/-- `capp` appends once there is room (R504). -/
def execCappAppend (h : Fin 4) (s : State) : Result := .next (s.runFirst h fun e => e.post.body == .capp)

/-- `sbind` claims a stream engine (R492). -/
def execSbindEngineClaim (h : Fin 4) (s : State) : Result := .next (s.runFirst h fun e => e.post.body == .sbind)

/-- A stream engine fetches a strip (R219): one that a queued instruction has popped stands with it until its first pass, with the
fault that it meets (R364); else the next strip behind the last one popped. -/
def execStreamStripFetch (h b : Fin 4) (s : State) : Result :=
  .next <|
    let reg := s.harts[h].sb[b].reg
    match s.harts[h].queue.find? fun e => e.strips.any fun x => x.reg == reg with
    | some e =>
      if s.harts[h].frozen then s
      else
        let r := stripsLoop h e.strips s e []
        (match r.2.2.2 with
        | .trap t =>
          r.1.putEntry h { r.2.1 with strips := r.2.2.1.map fun x => if x.got.length < x.count then { x with trap := some t } else x }
        | _ => r.1.putEntry h { r.2.1 with strips := r.2.2.1 })
    | none => s.fetchAhead h b

/-! ### Stores and translation -/

/-- A store performs (R327, R450): the oldest of a hart's buffer or of a lane group's store queue (R213); a copy chunk that its bank has held
up (R310); or bytes that another agent of the device writes for a context. -/
def execStorePerform (a : StoreAgent) (va : Word) (bytes : List Byte) (s : State) : Result :=
  .next <|
    match a with
    | .buffer h => State.drainStores h 1 s
    | .lane h g => s.performLane h (some g)
    | .copy h => s.performLane h none
    | .agent ctxid => (s.deviceWrite ⟨s.cur, ctxid, .s, 0#64, 5, 0⟩ va.toNat bytes).getD s

/-- A walk completes (R298, R303): a translation goes into the TLBs; a fault is the access's own. -/
def execTableWalkDone (h : Fin 4) (va : Word) (kind : Fin 4) (s : State) : Result :=
  .next <|
    if s.harts[h].isRunning && va.toNat < 2 ^ 48 && kind.val < 4 then
      match s.walk s.harts[h].ctxid.toNat va.toNat with
      | .page e => s.fillTlb ⟨h, s.harts[h].ctxid.toNat, s.harts[h].level, s.harts[h].pc, 1, 0⟩ (if kind = 3 then .atomic else .scalar) e
      | _ => s
    else s

/-- An invalidation completes (R470). -/
def execTlbInvalidateDone (h : Fin 4) (s : State) : Result := onWaiter h retryTinv s

/-! ### Lane groups and matrix mode -/

/-- Freed lane groups go to the harts that wait (R162), resumed ones among them (R198). -/
def execLaneGroupGrant (s : State) : Result := .next s.serveLanes.fillStarts

/-- A waiting `mstart` is served (R168), or a resumed hart that needs matrix mode (R198). -/
def execMatrixModeGrant (s : State) : Result := .next s.grantMatrix.fillStarts

/-! ### Waits -/

/-- A fence completes (R336). -/
def execFenceComplete (h : Fin 4) (s : State) : Result := onWaiter h retryFence s

/-- `acqm` completes (R348). -/
def execAcqmComplete (h : Fin 4) (s : State) : Result := onWaiter h retryAcqm s

/-- `drainw` completes (R595). -/
def execDrainwComplete (h : Fin 4) (s : State) : Result := onWaiter h retryDrainw s

/-- A hart that has drained stops (R609). -/
def execTdoneStop (h : Fin 4) (s : State) : Result := onWaiter h retryTdone s

/-- The arrival of a `gbar` (R589). -/
def execBarrierArrival (h : Fin 4) (s : State) : Result := onWaiter h retryGbar s

/-- Every participant of a barrier has arrived, those on other cores too (R589). -/
def execBarrierRelease (task : Nat) (scope : BitVec 3) (s : State) : Result :=
  .next <|
    match s.sched.tasks.find? (·.id = task) with
    | some t => s.releaseBarrier t scope.toNat true
    | none => s

/-- A progress word is read again (R155, R593). -/
def execWfpWake (h : Fin 4) (s : State) : Result := onWaiter h retryWfp s

/-- A hart in `wfe` sees EV (R467). -/
def execWfeWake (h : Fin 4) (s : State) : Result := onWaiter h retryWfe s

/-- GTIME reaches a target (R607). -/
def execGwaitWake (h : Fin 4) (s : State) : Result := onWaiter h retryGwait s

/-- An access that waits at a FIFO is served (R311). -/
def execFifoWaitServed (h : Fin 4) (s : State) : Result := onWaiter h retryFifo s

/-- A signal reaches its hart (R468); one that this core has sent is then no longer under way. -/
def execEventSignalArrival (hartid : BitVec 11) (ctxid : BitVec 32) (s : State) : Result :=
  .next (State.signalHart { s with sched := { s.sched with signals := s.sched.signals.erase (hartid, ctxid) } } hartid ctxid)

/-- The word of every hart that waits for a heartbeat is tried again. -/
def wakeTicks : List (Fin 4) → State → Result
  | [], s => .next s
  | i :: rest, s =>
    match s.harts[i].status with
    | .waiting (.tick _) _ =>
      (match onWaiter i retryTick s with
      | .next t => wakeTicks rest t
      | r => r)
    | _ => wakeTicks rest s

/-- A heartbeat tick (R90): 256 cycles have passed, in which device time moved on by `adv`, and the waits that a tick ends go on
(R344, R593, R608). -/
def execHeartbeatTick (adv : Nat) (s : State) : Result :=
  if s.host.state = .ready then
    wakeTicks [0, 1, 2, 3]
      (let t := s.timeTo (s.clock.gtime + adv)
       { t with clock := { t.clock with hbeat := t.clock.hbeat + 1#64 }, sched := { t.sched with now := t.sched.now + 256 } })
  else .next s

/-! ### Dispatch -/

/-- The decision of the dispatch unit on a cycle (R141). -/
def execTaskDispatch (s : State) : Result := .next s.dispatchOnce

end Sys2Proof.Machine
end

