-- ==== Sys2Proof/Machine/Answers.lean ====
section
/-! DEFINITION. Answers to the device's own requests (R63, R72, R73, R83): each is matched to its request by TAG (R642) and used for what
the request was made; time-outs, and the tags that they hold. -/

namespace Sys2Proof.Machine

/-! ### What an answer is used for -/

/-- The error-queue entry of a failed request (R370, R372). -/
def Outstanding.error (o : Outstanding) (s : State) (kind st : Nat) (va : Word) (aux : Nat) (h : Option (Fin 4)) : ErrEntry :=
  { va := va, peer := o.dst, itag := if h.isSome then o.itag else 0#32, kind := kind, st := st, attr := o.attr, hart := h,
    job := s.jobOf o.ctxid, aux := aux, data := o.data }

/-- The request has its answer: it is no longer outstanding, and its context's drain counter goes down (R80). -/
def State.dropReq (s : State) (o : Outstanding) : State :=
  let s := { s with fab := { s.fab with outstanding := s.fab.outstanding.filter (·.rid != o.rid) } }
  if o.counted then s.modCtx o.ctxid fun c => { c with drain := c.drain - 1 } else s

/-- Whether a scalar access of a hart still waits for a part. -/
def State.scalarOut (s : State) (i : Fin 4) : Bool :=
  let mine : Purpose → Bool := fun p => match p with | .scalar h _ _ => h == i | _ => false
  s.fab.outstanding.any (fun o => mine o.purpose) || s.fab.waiting.any (fun o => mine o.1.purpose)

/-- An atomic that waits for its answer, by its word. -/
def retryAmo (w : IWord) (s : State) : Result :=
  let d := w.extractLsb' 21 5
  let a := w.extractLsb' 16 5
  let b := w.extractLsb' 11 5
  let z := w.extractLsb' 10 1
  let q := w.extractLsb' 9 1
  let l := w.extractLsb' 8 1
  let c := w.extractLsb' 5 3
  if w == wAmoadd d a b z q l c then execAmoadd d a b z q l c s
  else if w == wAmoand d a b z q l c then execAmoand d a b z q l c s
  else if w == wAmoor d a b z q l c then execAmoor d a b z q l c s
  else if w == wAmoxor d a b z q l c then execAmoxor d a b z q l c s
  else if w == wAmomin d a b z q l c then execAmomin d a b z q l c s
  else if w == wAmomax d a b z q l c then execAmomax d a b z q l c s
  else if w == wAmominu d a b z q l c then execAmominu d a b z q l c s
  else if w == wAmomaxu d a b z q l c then execAmomaxu d a b z q l c s
  else if w == wAmoswap d a b z q l c then execAmoswap d a b z q l c s
  else if w == wAmocas d a b z q l c then execAmocas d a b z q l c s
  else if w == wAmofadd d a b z q l c then execAmofadd d a b z q l c s
  else .next s

/-- A frozen hart whose atomic has performed at its home completes it (R182); every other access of it is made again on resume. -/
def State.finishAmo (s : State) (i : Fin 4) (w : IWord) : State :=
  if s.harts[i].scalarRemote.fault.isSome then s
  else match onHart i (retryAmo w) s with | .next t => t | _ => s

/-- A part of a scalar access is answered (R72, R451): its bytes, or the trap of the lowest VA that failed. With the last part the
hart tries its instruction again. -/
def State.scalarAnswer (s : State) (i : Fin 4) (part : Nat) (va : Word) (st : Nat) (data : List Byte) : State :=
  let r := s.harts[i].scalarRemote
  let t := remoteTrap st va
  let fault :=
    if st = 0 then r.fault
    else match r.fault with | some f => if f.tval.toNat < va.toNat then some f else some t | none => some t
  let r1 : ScalarRemote := { r with parts := if st = 0 then r.parts ++ [(part, data)] else r.parts, fault := fault }
  let s := s.modHart i fun h => { h with scalarRemote := r1 }
  if s.scalarOut i then s
  else
    match s.harts[i].status with
    | .waiting .remote w =>
      let s := s.modHart i fun h => { h with status := .waiting .retry w }
      if s.harts[i].frozen then s.finishAmo i w else s
    | _ => s

/-- The chunk at work of a frozen copy. -/
def State.frozenChunk (s : State) (i : Fin 4) (e : QEntry) (p : CopyPlan) (bulk rows : Bool) : State :=
  if rows then
    match chunkLoop i (e.who s i 2 0) p bulk e.prog ((p.pieces e.prog).drop (e.memo.length - 1)) s e with
    | .done s e1 => s.putEntry i { e1 with prog := e.prog + 1 }
    | .part s e => s.putEntry i e
    | .block s e => s.putEntry i e
    | .fault s e _ => s.putEntry i e
  else s.putEntry i e.dropRead

/-- A frozen hart's entry goes on with the read that was answered, as far as R183 lets it: an atomic element commits, and a chunk of
a copy completes; a matrix instruction runs out. Any other read is made again on resume. -/
def State.frozenEntry (s : State) (i : Fin 4) (e : QEntry) : State :=
  match e.post.body, e.memo with
  | .amo _, _ => State.applyRan i none (bodyRun i (e.prog + 1) e s).1
  | .cpy, d :: _ => s.frozenChunk i e (bulkPlan d) true (decide (copyKind d = 0))
  | .cpyr, d :: _ => s.frozenChunk i e (bulkPlan d) true (decide (copyKind d = 0))
  | .gsp, _ :: _ => s.frozenChunk i e (gatherPlan false s.harts[i] e) false true
  | .ssp, _ :: _ => s.frozenChunk i e (gatherPlan true s.harts[i] e) false true
  | .mat _ _ _ _ _, _ => s.putEntry i e
  | _, _ => s.putEntry i e.dropRead

/-- The answer to a read of an engine's entry. -/
def State.elemAnswer (s : State) (i : Fin 4) (eid rid st : Nat) (data : List Byte) : State :=
  match s.harts[i].entry eid with
  | none => s
  | some e =>
    if e.remote = .waiting rid then
      let e1 := { e with remote := .answered st data }
      if s.harts[i].frozen then (if st = 0 then s.frozenEntry i e1 else s.putEntry i e1.dropRead) else s.putEntry i e1
    else s

/-- The answer to a write of a copy's chunk (R497). -/
def State.chunkReply (s : State) (o : Outstanding) (i : Fin 4) (eid c : Nat) (va : Word) (st : Nat) : State :=
  let s := s.chunkAnswer i eid c (st = 0)
  if st = 0 then s else s.errorTo i (o.error s 3 st va c (some i))

/-- The entry of lowest element index. -/
def lowestEntry : List (Nat × Word) → Nat × Word
  | [] => (0, 0#64)
  | [x] => x
  | x :: xs => let y := lowestEntry xs; if x.1 ≤ y.1 then x else y

/-- The answer to a SCAREQ (R64, R601): AUX names the failed entry of lowest element index. GEN, DOMAIN, AUTH and TIMEOUT are those of every
entry of the packet, and ALIGN that of each entry that is not aligned; of another status the answer does not say which entry has it. -/
def State.scaReply (s : State) (o : Outstanding) (i : Fin 4) (size : Nat) (es : List (Nat × Word)) (st : Nat) : State :=
  if st = 0 then s
  else if st = 1 || st = 2 || st = 3 then
    let x := es.getD (Config.freeChoice s.free % (if es.length = 0 then 1 else es.length)) (0, 0#64)
    State.tick (s.errorTo i (o.error s 2 st x.2 x.1 (some i)))
  else
    let x := lowestEntry (if st = 6 then es.filter fun e => e.2.toNat % size ≠ 0 else es)
    s.errorTo i (o.error s 2 st x.2 x.1 (some i))

/-- A stored answer whose deltas have all been answered goes out (R354). -/
def State.releaseReplies (s : State) (rid : Nat) : State :=
  let hs := s.fab.heldReplies.map fun x => { x with tags := x.tags.filter (· != rid) }
  let go := hs.filter fun x => x.tags.isEmpty
  go.foldl (fun s x => s.emit (s.fab.portFor x.reply.flow x.reply.dst) x.reply) { s with fab := { s.fab with heldReplies := hs.filter fun x => !x.tags.isEmpty } }

/-- A failed parity delta (R323): its holder counts as lost, and the group is degraded. -/
def PGroup.loseHolder (g : PGroup) (ep : Epid) : PGroup :=
  let mine := (List.range g.n).filter fun i => g.member[i]?.getD 0#19 = ep
  { g with lost := mine.foldl (fun l i => l ||| (1#16 <<< i)) g.lost, state := if g.state = 1#8 then 2#8 else g.state }

/-- The answer to a parity delta (R323, R354). -/
def State.deltaReply (s : State) (o : Outstanding) (gi j : Nat) (ep : Epid) (off : Word) (st : Nat) : State :=
  let s := s.releaseReplies o.rid
  if st = 0 then s
  else
    let s := match s.group gi with | some g => s.setGroup gi (g.loseHolder ep) | none => s
    s.errorToCollector o.ctxid (o.error s 4 st off (gi + 256 * j) none)

/-- The answer to a timed record (R500): its word goes to the copy that sent it. -/
def State.recordReply (s : State) (i : Fin 4) (eid word : Nat) : State :=
  match s.harts[i].entry eid with
  | none => s
  | some e =>
    match e.memo with
    | [d, z] =>
      let e1 := { e with memo := [d, z, word] }
      if s.harts[i].frozen then State.applyRan i none (runTlrec i d s e1) else s.putEntry i e1
    | _ => s

/-! ### Rebuild (R325) -/

/-- The answer to a write of a rebuilt unit: the unit is done with its last write. -/
def State.rebuildReply (s : State) (gi stripe st : Nat) : State :=
  match s.group gi with
  | none => s
  | some g =>
    if !g.busy || stripe ≠ g.nextStripe then s
    else if st ≠ 0 then s.setGroup gi (g.unitDone false)
    else if s.rebuildOut gi then s
    else s.setGroup gi (g.unitDone true)

/-- The answer to a read of a rebuild: a piece of a member's unit, or the rebuild fails. -/
def State.rebuildPiece (s : State) (gi stripe member piece st : Nat) (data : List Byte) : State :=
  match s.group gi with
  | none => s
  | some g =>
    if !g.busy || stripe ≠ g.nextStripe then s
    else if st ≠ 0 then s.setGroup gi (g.unitDone false)
    else s.setGroup gi { g with got := g.got ++ [(member, piece, slice data 0 256)] }

/-! ### Answers -/

/-- A request is over, with a status and data (R72). -/
def State.answered (s : State) (o : Outstanding) (st : Nat) (data : List Byte) : State :=
  let s := s.dropReq o
  State.sendWaiting <|
    match o.purpose with
    | .scalar h part va => s.scalarAnswer h part va st data
    | .store h va size => if st = 0 then s else s.errorTo h (o.error s 1 st va (size - 1) (some h))
    | .elem h eid => s.elemAnswer h eid o.rid st data
    | .chunk h eid c va => s.chunkReply o h eid c va st
    | .sca h size es => s.scaReply o h size es st
    | .pdelta g j ep off _ => s.deltaReply o g j ep off st
    | .tlrec h eid => s.recordReply h eid (st + 2 ^ 63)
    | .rebuildRead g k i x => s.rebuildPiece g k i x st data
    | .rebuild g k => s.rebuildReply g k st
    | .orphan => s

/-- An answer of a type, whose checks of R67 are `ok`: its request by TAG; one that matches none is dropped (R73). A GCM tag that does
not verify completes the request with status AUTH. -/
def State.takeAnswer (s : State) (p : Packet) (ok : Bool) : Result :=
  .next <|
    if !ok then s.dropPacket p
    else if tooOld p then s
    else
      match s.fab.outstanding.find? (·.tag = p.tag.toNat) with
      | none => s
      | some o =>
        match s.openPacket p with
        | none => s.answered o 7 []
        | some d => s.answered o (p.spec16.toNat % 16) d

/-- Whether an answer without data is well formed (R63, R67). SPEC16[15:4], which R63 gives no use, counts as zero (assumption 62). -/
def pktBare (p : Packet) : Bool := p.zerosOk && decide (p.spec16.toNat < 16) && p.spec64 == 0#64 && pktBeats p 0

/-- Whether an answer with data is well formed (R63, R67): data with status OK, none with another. -/
def pktData (p : Packet) (lo hi : Nat) : Bool :=
  let n := p.dbeats.toNat - (if p.enc then 1 else 0)
  p.zerosOk && decide (p.spec16.toNat < 16) &&
  (if p.spec16 = 0#16 then decide (lo ≤ n) && decide (n ≤ hi) && pktBeats p n else p.data.isEmpty && p.dbeats == 0#5)

/-- `LDRSP` (R72, R75). -/
def execLdrsp (p : Packet) (s : State) : Result := s.takeAnswer p (pktData p 1 16 && p.spec64 == 0#64)
/-- `STCMP` (R72). -/
def execStcmp (p : Packet) (s : State) : Result := s.takeAnswer p (pktBare p)
/-- `AMORSP` (R64, R72). -/
def execAmorsp (p : Packet) (s : State) : Result := s.takeAnswer p (pktData p 1 1 && p.spec64 == 0#64)
/-- `SCACMP` (R64). -/
def execScacmp (p : Packet) (s : State) : Result := s.takeAnswer p (pktBare p)
/-- `PDACK` (R65, R323). -/
def execPdack (p : Packet) (s : State) : Result := s.takeAnswer p (pktBare p)
/-- `CPYDAT` (R63). -/
def execCpydat (p : Packet) (s : State) : Result := s.takeAnswer p (pktData p 1 16 && decide (p.spec64.toNat < 2 ^ 44))
/-- `CPYCMP` (R63, R497). -/
def execCpycmp (p : Packet) (s : State) : Result := s.takeAnswer p (pktBare p)

/-- `TLACK` (R95, R500): the status with its three flags. -/
def execTlack (p : Packet) (s : State) : Result :=
  .next <|
    if !(p.zerosOk && decide (p.spec16.toNat < 128) && decide (p.spec64.toNat < 2 ^ 32) && pktBeats p 0) then s.dropPacket p
    else if tooOld p then s
    else
      match s.fab.outstanding.find? (·.tag = p.tag.toNat) with
      | some o => s.answered o p.spec16.toNat []
      | none => s

/-! ### Time-outs (R73, R642) -/

/-- A request has had no answer for 208,000 cycles: it completes with status TIMEOUT, and its tag is held. -/
def execRequestTimeout (tag : Nat) (s : State) : Result :=
  .next <|
    match s.fab.outstanding.find? (·.tag = tag) with
    | some o => State.answered { s with fab := { s.fab with heldTags := s.fab.heldTags ++ [tag] } } o 8 []
    | none => s

/-- 64 us after that the tag frees. -/
def execTagRelease (tag : Nat) (s : State) : Result :=
  .next (State.sendWaiting { s with fab := { s.fab with heldTags := s.fab.heldTags.filter (· != tag) } })

end Sys2Proof.Machine
end

