-- ==== Sys2Proof/Machine/Fibres.lean ====
section
/-! DEFINITION. The fibre instructions of majors 0x2D and 0x2E (R545 to R565). -/

namespace Sys2Proof.Machine

/-- What `fisect` posts. -/
def pFisect (d a b : BitVec 4) (c : BitVec 5) : Posted :=
  postFib (wFisect d a b c) .intersect .isect c (d.setWidth 5) (a.setWidth 5) (b.setWidth 5) 0#3
/-- `fisect` (R553). -/
def execFisect (d a b : BitVec 4) (c : BitVec 5) (s : State) : Result := issue (pFisect d a b c) s
/-- What `funion` posts. -/
def pFunion (d a b : BitVec 4) (c : BitVec 5) : Posted :=
  postFib (wFunion d a b c) .intersect .union c (d.setWidth 5) (a.setWidth 5) (b.setWidth 5) 0#3
/-- `funion` (R553). -/
def execFunion (d a b : BitVec 4) (c : BitVec 5) (s : State) : Result := issue (pFunion d a b c) s
/-- What `fmerge` posts. -/
def pFmerge (d a b : BitVec 4) (c : BitVec 5) : Posted :=
  postFib (wFmerge d a b c) .intersect .merge c (d.setWidth 5) (a.setWidth 5) (b.setWidth 5) 0#3
/-- `fmerge` (R553). -/
def execFmerge (d a b : BitVec 4) (c : BitVec 5) (s : State) : Result := issue (pFmerge d a b c) s
/-- What `fisectb` posts. -/
def pFisectb (d a b : BitVec 4) : Posted :=
  postFib (wFisectb d a b) .intersect .isectb 0#5 (d.setWidth 5) (a.setWidth 5) (b.setWidth 5) 0#3
/-- `fisectb` (R555: bitmap intersection). -/
def execFisectb (d a b : BitVec 4) (s : State) : Result := issue (pFisectb d a b) s
/-- What `fdiff` posts. -/
def pFdiff (d a b : BitVec 4) : Posted :=
  postFib (wFdiff d a b) .intersect .diff 0#5 (d.setWidth 5) (a.setWidth 5) (b.setWidth 5) 0#3
/-- `fdiff` (R553: difference). -/
def execFdiff (d a b : BitVec 4) (s : State) : Result := issue (pFdiff d a b) s
/-- What `fsort` posts. -/
def pFsort (d a : BitVec 4) : Posted := postFib (wFsort d a) .intersect .sort 0#5 (d.setWidth 5) (a.setWidth 5) 0#5 0#3
/-- `fsort` (R554). -/
def execFsort (d a : BitVec 4) (s : State) : Result := issue (pFsort d a) s
/-- What `fcompact` posts. -/
def pFcompact (d a : BitVec 4) (m : BitVec 3) : Posted :=
  { postFib (wFcompact d a m) .intersect .compact 0#5 (d.setWidth 5) (a.setWidth 5) 0#5 m with predicable := true }
/-- `fcompact` (R554). -/
def execFcompact (d a : BitVec 4) (m : BitVec 3) (s : State) : Result := issue (pFcompact d a m) s
/-- What `fdedup` posts. -/
def pFdedup (d a : BitVec 4) (c : BitVec 5) : Posted :=
  postFib (wFdedup d a c) .intersect .dedup c (d.setWidth 5) (a.setWidth 5) 0#5 0#3
/-- `fdedup` (R554). -/
def execFdedup (d a : BitVec 4) (c : BitVec 5) (s : State) : Result := issue (pFdedup d a c) s

/-- The two scalar operands of `fld`, `fst` and `fwalk`: x(a) and x(a + 1) for the even number `a` whose upper bits are given
(R545). -/
def withPair (p : Posted) (a : BitVec 4) : Posted := { p with opa := some (a ++ 0#1), opb := some (a ++ 1#1) }

/-- What `fld` posts. -/
def pFld (d a : BitVec 4) : Posted := withPair (postFib (wFld d a) .vector .ld 0#5 (d.setWidth 5) 0#5 0#5 0#3) a
/-- `fld` (R560: load a fibre). -/
def execFld (d a : BitVec 4) (s : State) : Result := issue (pFld d a) s
/-- What `fst` posts. -/
def pFst (f a : BitVec 4) : Posted := withPair (postFib (wFst f a) .vector .st 0#5 0#5 (f.setWidth 5) 0#5 0#3) a
/-- `fst` (R561: store a fibre). -/
def execFst (f a : BitVec 4) (s : State) : Result := issue (pFst f a) s
/-- What `fbm` posts. -/
def pFbm (d : BitVec 4) (v : BitVec 5) : Posted :=
  { postFib (wFbm d v) .vector .bm 0#5 (d.setWidth 5) v 0#5 0#3 with vsrc := [v] }
/-- `fbm` (R557: set bits as a fibre). -/
def execFbm (d : BitVec 4) (v : BitVec 5) (s : State) : Result := issue (pFbm d v) s
/-- What `fwalk` posts. -/
def pFwalk (d f a : BitVec 4) : Posted :=
  withPair (postFib (wFwalk d f a) .intersect .walk 0#5 (d.setWidth 5) (f.setWidth 5) 0#5 0#3) a
/-- `fwalk` (R562: look up a coordinate). -/
def execFwalk (d f a : BitVec 4) (s : State) : Result := issue (pFwalk d f a) s
/-- What `fexpand` posts. -/
def pFexpand (f : BitVec 4) (v : BitVec 5) : Posted :=
  { postFib (wFexpand f v) .vector .expand 0#5 v (f.setWidth 5) 0#5 0#3 with vdst := [v] }
/-- `fexpand` (R557). -/
def execFexpand (f : BitVec 4) (v : BitVec 5) (s : State) : Result := issue (pFexpand f v) s
/-- What `fcoord` posts. -/
def pFcoord (f : BitVec 4) (v : BitVec 5) : Posted :=
  { postFib (wFcoord f v) .vector .coord 0#5 v (f.setWidth 5) 0#5 0#3 with vdst := [v] }
/-- `fcoord` (R557). -/
def execFcoord (f : BitVec 4) (v : BitVec 5) (s : State) : Result := issue (pFcoord f v) s
/-- What `fval` posts. -/
def pFval (f : BitVec 4) (v : BitVec 5) : Posted :=
  { postFib (wFval f v) .vector .val 0#5 v (f.setWidth 5) 0#5 0#3 with vdst := [v] }
/-- `fval` (R557). -/
def execFval (f : BitVec 4) (v : BitVec 5) (s : State) : Result := issue (pFval f v) s
/-- What `fpack` posts. -/
def pFpack (d : BitVec 4) (m : BitVec 3) (v : BitVec 5) : Posted :=
  { postFib (wFpack d m v) .vector .pack 0#5 (d.setWidth 5) v 0#5 m with vsrc := [v], predicable := true }
/-- `fpack` (R557: a row as a fibre). -/
def execFpack (d : BitVec 4) (m : BitVec 3) (v : BitVec 5) (s : State) : Result := issue (pFpack d m v) s
/-- What `fsetl` posts. -/
def pFsetl (f : BitVec 4) (g : BitVec 3) (x : BitVec 5) : Posted :=
  { postFib (wFsetl f g x) .vector .setl 0#5 0#5 (f.setWidth 5) 0#5 g with xd := some x }
/-- `fsetl` (R565: a strip of rows). -/
def execFsetl (f : BitVec 4) (g : BitVec 3) (x : BitVec 5) (s : State) : Result := issue (pFsetl f g x) s
/-- What `focc` posts. -/
def pFocc (f : BitVec 4) (x : BitVec 5) : Posted :=
  { postFib (wFocc f x) .vector .occ 0#5 0#5 (f.setWidth 5) 0#5 0#3 with xd := some x }
/-- `focc` (R557: occupancy). -/
def execFocc (f : BitVec 4) (x : BitVec 5) (s : State) : Result := issue (pFocc f x) s
/-- What `fmv` posts. -/
def pFmv (d f : BitVec 4) : Posted := postFib (wFmv d f) .vector .mv 0#5 (d.setWidth 5) (f.setWidth 5) 0#5 0#3
/-- `fmv` (R557: a copy of a fibre). -/
def execFmv (d f : BitVec 4) (s : State) : Result := issue (pFmv d f) s
/-- What `fclr` posts. -/
def pFclr (d : BitVec 4) : Posted := postFib (wFclr d) .vector .clr 0#5 (d.setWidth 5) 0#5 0#5 0#3
/-- `fclr` (R557: an empty fibre). -/
def execFclr (d : BitVec 4) (s : State) : Result := issue (pFclr d) s

end Sys2Proof.Machine
end

