-- ==== Sys2Proof/Machine/Float.lean ====
section
/-! DEFINITION. The vector floating-point and conversion instructions of majors 0x26, 0x27 and 0x2C (R516 to R523). -/

namespace Sys2Proof.Machine

/-- What `vfadd` posts. -/
def pVfaddVv (d a b : BitVec 5) (m : BitVec 3) (p : BitVec 2) : Posted :=
  postVv (wVfaddVv d a b m p) (.fp .add) d a b m p []
/-- `vfadd` (R517, .vv: a + b). -/
def execVfaddVv (d a b : BitVec 5) (m : BitVec 3) (p : BitVec 2) (s : State) : Result := issue (pVfaddVv d a b m p) s
/-- What `vfsub` posts. -/
def pVfsubVv (d a b : BitVec 5) (m : BitVec 3) (p : BitVec 2) : Posted :=
  postVv (wVfsubVv d a b m p) (.fp .sub) d a b m p []
/-- `vfsub` (R517, .vv: a - b). -/
def execVfsubVv (d a b : BitVec 5) (m : BitVec 3) (p : BitVec 2) (s : State) : Result := issue (pVfsubVv d a b m p) s
/-- What `vfmul` posts. -/
def pVfmulVv (d a b : BitVec 5) (m : BitVec 3) (p : BitVec 2) : Posted :=
  postVv (wVfmulVv d a b m p) (.fp .mul) d a b m p []
/-- `vfmul` (R517, .vv: a * b). -/
def execVfmulVv (d a b : BitVec 5) (m : BitVec 3) (p : BitVec 2) (s : State) : Result := issue (pVfmulVv d a b m p) s
/-- What `vfdiv` posts. -/
def pVfdivVv (d a b : BitVec 5) (m : BitVec 3) (p : BitVec 2) : Posted :=
  postVv (wVfdivVv d a b m p) (.fp .div) d a b m p []
/-- `vfdiv` (R517, .vv: a / b). -/
def execVfdivVv (d a b : BitVec 5) (m : BitVec 3) (p : BitVec 2) (s : State) : Result := issue (pVfdivVv d a b m p) s
/-- What `vfma` posts. -/
def pVfmaVv (d a b : BitVec 5) (m : BitVec 3) (p : BitVec 2) : Posted := postVv (wVfmaVv d a b m p) (.fp .fma) d a b m p [d]
/-- `vfma` (R517, .vv: a * b + d). -/
def execVfmaVv (d a b : BitVec 5) (m : BitVec 3) (p : BitVec 2) (s : State) : Result := issue (pVfmaVv d a b m p) s
/-- What `vfms` posts. -/
def pVfmsVv (d a b : BitVec 5) (m : BitVec 3) (p : BitVec 2) : Posted := postVv (wVfmsVv d a b m p) (.fp .fms) d a b m p [d]
/-- `vfms` (R517, .vv: a * b - d). -/
def execVfmsVv (d a b : BitVec 5) (m : BitVec 3) (p : BitVec 2) (s : State) : Result := issue (pVfmsVv d a b m p) s
/-- What `vfnma` posts. -/
def pVfnmaVv (d a b : BitVec 5) (m : BitVec 3) (p : BitVec 2) : Posted :=
  postVv (wVfnmaVv d a b m p) (.fp .fnma) d a b m p [d]
/-- `vfnma` (R517, .vv: d - a * b). -/
def execVfnmaVv (d a b : BitVec 5) (m : BitVec 3) (p : BitVec 2) (s : State) : Result := issue (pVfnmaVv d a b m p) s
/-- What `vfmin` posts. -/
def pVfminVv (d a b : BitVec 5) (m : BitVec 3) (p : BitVec 2) : Posted :=
  postVv (wVfminVv d a b m p) (.fp .min) d a b m p []
/-- `vfmin` (R517, .vv: minimum, R280). -/
def execVfminVv (d a b : BitVec 5) (m : BitVec 3) (p : BitVec 2) (s : State) : Result := issue (pVfminVv d a b m p) s
/-- What `vfmax` posts. -/
def pVfmaxVv (d a b : BitVec 5) (m : BitVec 3) (p : BitVec 2) : Posted :=
  postVv (wVfmaxVv d a b m p) (.fp .max) d a b m p []
/-- `vfmax` (R517, .vv: maximum, R280). -/
def execVfmaxVv (d a b : BitVec 5) (m : BitVec 3) (p : BitVec 2) (s : State) : Result := issue (pVfmaxVv d a b m p) s
/-- What `vfsgn` posts. -/
def pVfsgnVv (d a b : BitVec 5) (m : BitVec 3) (p : BitVec 2) : Posted :=
  postVv (wVfsgnVv d a b m p) (.fp .sgn) d a b m p []
/-- `vfsgn` (R517, .vv: |a| with the sign of b, R519). -/
def execVfsgnVv (d a b : BitVec 5) (m : BitVec 3) (p : BitVec 2) (s : State) : Result := issue (pVfsgnVv d a b m p) s
/-- What `vfsqrt` posts. -/
def pVfsqrt (d a : BitVec 5) (m : BitVec 3) : Posted := postUnary (wVfsqrt d a m) (.fp .sqrt) d a m
/-- `vfsqrt` (R517: square root). -/
def execVfsqrt (d a : BitVec 5) (m : BitVec 3) (s : State) : Result := issue (pVfsqrt d a m) s
/-- What `vfabs` posts. -/
def pVfabs (d a : BitVec 5) (m : BitVec 3) : Posted := postUnary (wVfabs d a m) (.fp .abs) d a m
/-- `vfabs` (R517: |a|, R519). -/
def execVfabs (d a : BitVec 5) (m : BitVec 3) (s : State) : Result := issue (pVfabs d a m) s
/-- What `vfneg` posts. -/
def pVfneg (d a : BitVec 5) (m : BitVec 3) : Posted := postUnary (wVfneg d a m) (.fp .neg) d a m
/-- `vfneg` (R517: -a, R519). -/
def execVfneg (d a : BitVec 5) (m : BitVec 3) (s : State) : Result := issue (pVfneg d a m) s
/-- What `vfrcp` posts. -/
def pVfrcp (d a : BitVec 5) (m : BitVec 3) : Posted := postUnary (wVfrcp d a m) (.fp .rcp) d a m
/-- `vfrcp` (R517: reciprocal table, R518). -/
def execVfrcp (d a : BitVec 5) (m : BitVec 3) (s : State) : Result := issue (pVfrcp d a m) s
/-- What `vfrsqrt` posts. -/
def pVfrsqrt (d a : BitVec 5) (m : BitVec 3) : Posted := postUnary (wVfrsqrt d a m) (.fp .rsqrt) d a m
/-- `vfrsqrt` (R517: reciprocal square root table, R518). -/
def execVfrsqrt (d a : BitVec 5) (m : BitVec 3) (s : State) : Result := issue (pVfrsqrt d a m) s
/-- What `vfclass` posts. -/
def pVfclass (d a : BitVec 5) (m : BitVec 3) : Posted := postUnary (wVfclass d a m) (.fp .class) d a m
/-- `vfclass` (R517: class code, R519). -/
def execVfclass (d a : BitVec 5) (m : BitVec 3) (s : State) : Result := issue (pVfclass d a m) s
/-- What `vfexp2` posts. -/
def pVfexp2 (d a : BitVec 5) (m : BitVec 3) : Posted := postUnary (wVfexp2 d a m) (.fp .exp2) d a m
/-- `vfexp2` (R517: 2^a, R284). -/
def execVfexp2 (d a : BitVec 5) (m : BitVec 3) (s : State) : Result := issue (pVfexp2 d a m) s
/-- What `vflog2` posts. -/
def pVflog2 (d a : BitVec 5) (m : BitVec 3) : Posted := postUnary (wVflog2 d a m) (.fp .log2) d a m
/-- `vflog2` (R517: log2 of a, R284). -/
def execVflog2 (d a : BitVec 5) (m : BitVec 3) (s : State) : Result := issue (pVflog2 d a m) s
/-- What `vfsat` posts. -/
def pVfsat (d a : BitVec 5) (m : BitVec 3) : Posted := postUnary (wVfsat d a m) (.fp .sat) d a m
/-- `vfsat` (R517: saturation, R283). -/
def execVfsat (d a : BitVec 5) (m : BitVec 3) (s : State) : Result := issue (pVfsat d a m) s
/-- What `vfadd` posts. -/
def pVfaddVx (d a x : BitVec 5) (m : BitVec 3) : Posted := postVx (wVfaddVx d a x m) (.fp .add) d a x m [a]
/-- `vfadd` (R517, .vx: a + b). -/
def execVfaddVx (d a x : BitVec 5) (m : BitVec 3) (s : State) : Result := issue (pVfaddVx d a x m) s
/-- What `vfsub` posts. -/
def pVfsubVx (d a x : BitVec 5) (m : BitVec 3) : Posted := postVx (wVfsubVx d a x m) (.fp .sub) d a x m [a]
/-- `vfsub` (R517, .vx: a - b). -/
def execVfsubVx (d a x : BitVec 5) (m : BitVec 3) (s : State) : Result := issue (pVfsubVx d a x m) s
/-- What `vfrsub` posts. -/
def pVfrsubVx (d a x : BitVec 5) (m : BitVec 3) : Posted := postVx (wVfrsubVx d a x m) (.fp .rsub) d a x m [a]
/-- `vfrsub` (R517, .vx: b - a). -/
def execVfrsubVx (d a x : BitVec 5) (m : BitVec 3) (s : State) : Result := issue (pVfrsubVx d a x m) s
/-- What `vfmul` posts. -/
def pVfmulVx (d a x : BitVec 5) (m : BitVec 3) : Posted := postVx (wVfmulVx d a x m) (.fp .mul) d a x m [a]
/-- `vfmul` (R517, .vx: a * b). -/
def execVfmulVx (d a x : BitVec 5) (m : BitVec 3) (s : State) : Result := issue (pVfmulVx d a x m) s
/-- What `vfdiv` posts. -/
def pVfdivVx (d a x : BitVec 5) (m : BitVec 3) : Posted := postVx (wVfdivVx d a x m) (.fp .div) d a x m [a]
/-- `vfdiv` (R517, .vx: a / b). -/
def execVfdivVx (d a x : BitVec 5) (m : BitVec 3) (s : State) : Result := issue (pVfdivVx d a x m) s
/-- What `vfrdiv` posts. -/
def pVfrdivVx (d a x : BitVec 5) (m : BitVec 3) : Posted := postVx (wVfrdivVx d a x m) (.fp .rdiv) d a x m [a]
/-- `vfrdiv` (R517, .vx: b / a). -/
def execVfrdivVx (d a x : BitVec 5) (m : BitVec 3) (s : State) : Result := issue (pVfrdivVx d a x m) s
/-- What `vfma` posts. -/
def pVfmaVx (d a x : BitVec 5) (m : BitVec 3) : Posted := postVx (wVfmaVx d a x m) (.fp .fma) d a x m [a, d]
/-- `vfma` (R517, .vx: a * b + d). -/
def execVfmaVx (d a x : BitVec 5) (m : BitVec 3) (s : State) : Result := issue (pVfmaVx d a x m) s
/-- What `vfms` posts. -/
def pVfmsVx (d a x : BitVec 5) (m : BitVec 3) : Posted := postVx (wVfmsVx d a x m) (.fp .fms) d a x m [a, d]
/-- `vfms` (R517, .vx: a * b - d). -/
def execVfmsVx (d a x : BitVec 5) (m : BitVec 3) (s : State) : Result := issue (pVfmsVx d a x m) s
/-- What `vfnma` posts. -/
def pVfnmaVx (d a x : BitVec 5) (m : BitVec 3) : Posted := postVx (wVfnmaVx d a x m) (.fp .fnma) d a x m [a, d]
/-- `vfnma` (R517, .vx: d - a * b). -/
def execVfnmaVx (d a x : BitVec 5) (m : BitVec 3) (s : State) : Result := issue (pVfnmaVx d a x m) s
/-- What `vfmin` posts. -/
def pVfminVx (d a x : BitVec 5) (m : BitVec 3) : Posted := postVx (wVfminVx d a x m) (.fp .min) d a x m [a]
/-- `vfmin` (R517, .vx: minimum, R280). -/
def execVfminVx (d a x : BitVec 5) (m : BitVec 3) (s : State) : Result := issue (pVfminVx d a x m) s
/-- What `vfmax` posts. -/
def pVfmaxVx (d a x : BitVec 5) (m : BitVec 3) : Posted := postVx (wVfmaxVx d a x m) (.fp .max) d a x m [a]
/-- `vfmax` (R517, .vx: maximum, R280). -/
def execVfmaxVx (d a x : BitVec 5) (m : BitVec 3) (s : State) : Result := issue (pVfmaxVx d a x m) s
/-- What `vfsgn` posts. -/
def pVfsgnVx (d a x : BitVec 5) (m : BitVec 3) : Posted := postVx (wVfsgnVx d a x m) (.fp .sgn) d a x m [a]
/-- `vfsgn` (R517, .vx: |a| with the sign of b, R519). -/
def execVfsgnVx (d a x : BitVec 5) (m : BitVec 3) (s : State) : Result := issue (pVfsgnVx d a x m) s
/-- What `vcvt` posts. -/
def pVcvt (d a : BitVec 5) (m : BitVec 3) : Posted := postUnary (wVcvt d a m) (.cvt none) d a m
/-- `vcvt` (R521: conversion to the type of vd under FCSR.RM). -/
def execVcvt (d a : BitVec 5) (m : BitVec 3) (s : State) : Result := issue (pVcvt d a m) s
/-- What `vcvtr` posts. -/
def pVcvtr (d a : BitVec 5) (r m : BitVec 3) : Posted := postUnary (wVcvtr d a r m) (.cvt (some r)) d a m
/-- `vcvtr` (R521: conversion to the type of vd under rm). -/
def execVcvtr (d a : BitVec 5) (r m : BitVec 3) (s : State) : Result := issue (pVcvtr d a r m) s
/-- What `vqbs` posts. -/
def pVqbs (d a b : BitVec 5) (m : BitVec 3) : Posted :=
  { vecPost (wVqbs d a b m) .qbs d a b m [a] [d, b] with copyable := true, feats := [5] }
/-- `vqbs` (R522: block quantisation with its scales in vb). -/
def execVqbs (d a b : BitVec 5) (m : BitVec 3) (s : State) : Result := issue (pVqbs d a b m) s
/-- What `vdqbs` posts. -/
def pVdqbs (d a b : BitVec 5) (m : BitVec 3) : Posted :=
  { vecPost (wVdqbs d a b m) .dqbs d a b m [a, b] [d] with copyable := true, feats := [5] }
/-- `vdqbs` (R523: block dequantisation by the scales in vb). -/
def execVdqbs (d a b : BitVec 5) (m : BitVec 3) (s : State) : Result := issue (pVdqbs d a b m) s

end Sys2Proof.Machine
end

