-- ==== Sys2Proof/Machine/Integer.lean ====
section
/-! DEFINITION. The vector integer instructions of majors 0x24 and 0x25 (R506 to R515). -/

namespace Sys2Proof.Machine

/-- What `vadd` posts. -/
def pVaddVv (d a b : BitVec 5) (m : BitVec 3) (p : BitVec 2) : Posted := postVv (wVaddVv d a b m p) (.int .add) d a b m p []
/-- `vadd` (R512, .vv: a + b). -/
def execVaddVv (d a b : BitVec 5) (m : BitVec 3) (p : BitVec 2) (s : State) : Result := issue (pVaddVv d a b m p) s
/-- What `vsub` posts. -/
def pVsubVv (d a b : BitVec 5) (m : BitVec 3) (p : BitVec 2) : Posted := postVv (wVsubVv d a b m p) (.int .sub) d a b m p []
/-- `vsub` (R512, .vv: a - b). -/
def execVsubVv (d a b : BitVec 5) (m : BitVec 3) (p : BitVec 2) (s : State) : Result := issue (pVsubVv d a b m p) s
/-- What `vmul` posts. -/
def pVmulVv (d a b : BitVec 5) (m : BitVec 3) (p : BitVec 2) : Posted := postVv (wVmulVv d a b m p) (.int .mul) d a b m p []
/-- `vmul` (R512, .vv: low w bits of a * b). -/
def execVmulVv (d a b : BitVec 5) (m : BitVec 3) (p : BitVec 2) (s : State) : Result := issue (pVmulVv d a b m p) s
/-- What `vmulh` posts. -/
def pVmulhVv (d a b : BitVec 5) (m : BitVec 3) (p : BitVec 2) : Posted :=
  postVv (wVmulhVv d a b m p) (.int .mulh) d a b m p []
/-- `vmulh` (R512, .vv: high bits of the signed product). -/
def execVmulhVv (d a b : BitVec 5) (m : BitVec 3) (p : BitVec 2) (s : State) : Result := issue (pVmulhVv d a b m p) s
/-- What `vmulhu` posts. -/
def pVmulhuVv (d a b : BitVec 5) (m : BitVec 3) (p : BitVec 2) : Posted :=
  postVv (wVmulhuVv d a b m p) (.int .mulhu) d a b m p []
/-- `vmulhu` (R512, .vv: high bits of the unsigned product). -/
def execVmulhuVv (d a b : BitVec 5) (m : BitVec 3) (p : BitVec 2) (s : State) : Result := issue (pVmulhuVv d a b m p) s
/-- What `vdiv` posts. -/
def pVdivVv (d a b : BitVec 5) (m : BitVec 3) (p : BitVec 2) : Posted := postVv (wVdivVv d a b m p) (.int .div) d a b m p []
/-- `vdiv` (R512, .vv: signed division, R264). -/
def execVdivVv (d a b : BitVec 5) (m : BitVec 3) (p : BitVec 2) (s : State) : Result := issue (pVdivVv d a b m p) s
/-- What `vdivu` posts. -/
def pVdivuVv (d a b : BitVec 5) (m : BitVec 3) (p : BitVec 2) : Posted :=
  postVv (wVdivuVv d a b m p) (.int .divu) d a b m p []
/-- `vdivu` (R512, .vv: unsigned division, R264). -/
def execVdivuVv (d a b : BitVec 5) (m : BitVec 3) (p : BitVec 2) (s : State) : Result := issue (pVdivuVv d a b m p) s
/-- What `vrem` posts. -/
def pVremVv (d a b : BitVec 5) (m : BitVec 3) (p : BitVec 2) : Posted := postVv (wVremVv d a b m p) (.int .rem) d a b m p []
/-- `vrem` (R512, .vv: signed remainder, R264). -/
def execVremVv (d a b : BitVec 5) (m : BitVec 3) (p : BitVec 2) (s : State) : Result := issue (pVremVv d a b m p) s
/-- What `vremu` posts. -/
def pVremuVv (d a b : BitVec 5) (m : BitVec 3) (p : BitVec 2) : Posted :=
  postVv (wVremuVv d a b m p) (.int .remu) d a b m p []
/-- `vremu` (R512, .vv: unsigned remainder, R264). -/
def execVremuVv (d a b : BitVec 5) (m : BitVec 3) (p : BitVec 2) (s : State) : Result := issue (pVremuVv d a b m p) s
/-- What `vmin` posts. -/
def pVminVv (d a b : BitVec 5) (m : BitVec 3) (p : BitVec 2) : Posted := postVv (wVminVv d a b m p) (.int .min) d a b m p []
/-- `vmin` (R512, .vv: signed minimum). -/
def execVminVv (d a b : BitVec 5) (m : BitVec 3) (p : BitVec 2) (s : State) : Result := issue (pVminVv d a b m p) s
/-- What `vmax` posts. -/
def pVmaxVv (d a b : BitVec 5) (m : BitVec 3) (p : BitVec 2) : Posted := postVv (wVmaxVv d a b m p) (.int .max) d a b m p []
/-- `vmax` (R512, .vv: signed maximum). -/
def execVmaxVv (d a b : BitVec 5) (m : BitVec 3) (p : BitVec 2) (s : State) : Result := issue (pVmaxVv d a b m p) s
/-- What `vminu` posts. -/
def pVminuVv (d a b : BitVec 5) (m : BitVec 3) (p : BitVec 2) : Posted :=
  postVv (wVminuVv d a b m p) (.int .minu) d a b m p []
/-- `vminu` (R512, .vv: unsigned minimum). -/
def execVminuVv (d a b : BitVec 5) (m : BitVec 3) (p : BitVec 2) (s : State) : Result := issue (pVminuVv d a b m p) s
/-- What `vmaxu` posts. -/
def pVmaxuVv (d a b : BitVec 5) (m : BitVec 3) (p : BitVec 2) : Posted :=
  postVv (wVmaxuVv d a b m p) (.int .maxu) d a b m p []
/-- `vmaxu` (R512, .vv: unsigned maximum). -/
def execVmaxuVv (d a b : BitVec 5) (m : BitVec 3) (p : BitVec 2) (s : State) : Result := issue (pVmaxuVv d a b m p) s
/-- What `vand` posts. -/
def pVandVv (d a b : BitVec 5) (m : BitVec 3) (p : BitVec 2) : Posted := postVv (wVandVv d a b m p) (.int .and) d a b m p []
/-- `vand` (R512, .vv: a AND b). -/
def execVandVv (d a b : BitVec 5) (m : BitVec 3) (p : BitVec 2) (s : State) : Result := issue (pVandVv d a b m p) s
/-- What `vor` posts. -/
def pVorVv (d a b : BitVec 5) (m : BitVec 3) (p : BitVec 2) : Posted := postVv (wVorVv d a b m p) (.int .or) d a b m p []
/-- `vor` (R512, .vv: a OR b). -/
def execVorVv (d a b : BitVec 5) (m : BitVec 3) (p : BitVec 2) (s : State) : Result := issue (pVorVv d a b m p) s
/-- What `vxor` posts. -/
def pVxorVv (d a b : BitVec 5) (m : BitVec 3) (p : BitVec 2) : Posted := postVv (wVxorVv d a b m p) (.int .xor) d a b m p []
/-- `vxor` (R512, .vv: a XOR b). -/
def execVxorVv (d a b : BitVec 5) (m : BitVec 3) (p : BitVec 2) (s : State) : Result := issue (pVxorVv d a b m p) s
/-- What `vsll` posts. -/
def pVsllVv (d a b : BitVec 5) (m : BitVec 3) (p : BitVec 2) : Posted := postVv (wVsllVv d a b m p) (.int .sll) d a b m p []
/-- `vsll` (R512, .vv: a shifted left by b mod w). -/
def execVsllVv (d a b : BitVec 5) (m : BitVec 3) (p : BitVec 2) (s : State) : Result := issue (pVsllVv d a b m p) s
/-- What `vsrl` posts. -/
def pVsrlVv (d a b : BitVec 5) (m : BitVec 3) (p : BitVec 2) : Posted := postVv (wVsrlVv d a b m p) (.int .srl) d a b m p []
/-- `vsrl` (R512, .vv: a shifted right logically). -/
def execVsrlVv (d a b : BitVec 5) (m : BitVec 3) (p : BitVec 2) (s : State) : Result := issue (pVsrlVv d a b m p) s
/-- What `vsra` posts. -/
def pVsraVv (d a b : BitVec 5) (m : BitVec 3) (p : BitVec 2) : Posted := postVv (wVsraVv d a b m p) (.int .sra) d a b m p []
/-- `vsra` (R512, .vv: a shifted right arithmetically). -/
def execVsraVv (d a b : BitVec 5) (m : BitVec 3) (p : BitVec 2) (s : State) : Result := issue (pVsraVv d a b m p) s
/-- What `vsadd` posts. -/
def pVsaddVv (d a b : BitVec 5) (m : BitVec 3) (p : BitVec 2) : Posted :=
  postVv (wVsaddVv d a b m p) (.int .sadd) d a b m p []
/-- `vsadd` (R512, .vv: signed saturating a + b). -/
def execVsaddVv (d a b : BitVec 5) (m : BitVec 3) (p : BitVec 2) (s : State) : Result := issue (pVsaddVv d a b m p) s
/-- What `vsaddu` posts. -/
def pVsadduVv (d a b : BitVec 5) (m : BitVec 3) (p : BitVec 2) : Posted :=
  postVv (wVsadduVv d a b m p) (.int .saddu) d a b m p []
/-- `vsaddu` (R512, .vv: unsigned saturating a + b). -/
def execVsadduVv (d a b : BitVec 5) (m : BitVec 3) (p : BitVec 2) (s : State) : Result := issue (pVsadduVv d a b m p) s
/-- What `vssub` posts. -/
def pVssubVv (d a b : BitVec 5) (m : BitVec 3) (p : BitVec 2) : Posted :=
  postVv (wVssubVv d a b m p) (.int .ssub) d a b m p []
/-- `vssub` (R512, .vv: signed saturating a - b). -/
def execVssubVv (d a b : BitVec 5) (m : BitVec 3) (p : BitVec 2) (s : State) : Result := issue (pVssubVv d a b m p) s
/-- What `vssubu` posts. -/
def pVssubuVv (d a b : BitVec 5) (m : BitVec 3) (p : BitVec 2) : Posted :=
  postVv (wVssubuVv d a b m p) (.int .ssubu) d a b m p []
/-- `vssubu` (R512, .vv: unsigned saturating a - b). -/
def execVssubuVv (d a b : BitVec 5) (m : BitVec 3) (p : BitVec 2) (s : State) : Result := issue (pVssubuVv d a b m p) s
/-- What `vmacc` posts. -/
def pVmaccVv (d a b : BitVec 5) (m : BitVec 3) (p : BitVec 2) : Posted :=
  postVv (wVmaccVv d a b m p) (.int .macc) d a b m p [d]
/-- `vmacc` (R512, .vv: d + a * b). -/
def execVmaccVv (d a b : BitVec 5) (m : BitVec 3) (p : BitVec 2) (s : State) : Result := issue (pVmaccVv d a b m p) s
/-- What `vsel` posts. -/
def pVselVv (d a b : BitVec 5) (m : BitVec 3) (p : BitVec 2) : Posted :=
  asSelector (postVv (wVselVv d a b m p) (.int .sel) d a b m p [])
/-- `vsel` (R512, .vv: a or b by the selector m). -/
def execVselVv (d a b : BitVec 5) (m : BitVec 3) (p : BitVec 2) (s : State) : Result := issue (pVselVv d a b m p) s
/-- What `vext` posts. -/
def pVextVv (d a b : BitVec 5) (m : BitVec 3) (p : BitVec 2) : Posted := postVv (wVextVv d a b m p) (.int .ext) d a b m p []
/-- `vext` (R512, .vv: bit field of a, R514). -/
def execVextVv (d a b : BitVec 5) (m : BitVec 3) (p : BitVec 2) (s : State) : Result := issue (pVextVv d a b m p) s
/-- What `vins` posts. -/
def pVinsVv (d a b : BitVec 5) (m : BitVec 3) (p : BitVec 2) : Posted :=
  postVv (wVinsVv d a b m p) (.int .ins) d a b m p [d]
/-- `vins` (R512, .vv: bit field of d replaced, R514). -/
def execVinsVv (d a b : BitVec 5) (m : BitVec 3) (p : BitVec 2) (s : State) : Result := issue (pVinsVv d a b m p) s
/-- What `vabsd` posts. -/
def pVabsdVv (d a b : BitVec 5) (m : BitVec 3) (p : BitVec 2) : Posted :=
  postVv (wVabsdVv d a b m p) (.int .absd) d a b m p []
/-- `vabsd` (R512, .vv: |a - b|). -/
def execVabsdVv (d a b : BitVec 5) (m : BitVec 3) (p : BitVec 2) (s : State) : Result := issue (pVabsdVv d a b m p) s
/-- What `vabs` posts. -/
def pVabs (d a : BitVec 5) (m : BitVec 3) : Posted := postUnary (wVabs d a m) (.int .abs) d a m
/-- `vabs` (R512: |a|). -/
def execVabs (d a : BitVec 5) (m : BitVec 3) (s : State) : Result := issue (pVabs d a m) s
/-- What `vmv` posts. -/
def pVmvVv (d a : BitVec 5) (m : BitVec 3) : Posted := postUnary (wVmvVv d a m) (.int .mv) d a m
/-- `vmv` (R512: a). -/
def execVmvVv (d a : BitVec 5) (m : BitVec 3) (s : State) : Result := issue (pVmvVv d a m) s
/-- What `vpopc` posts. -/
def pVpopc (d a : BitVec 5) (m : BitVec 3) : Posted := postUnary (wVpopc d a m) (.int .popc) d a m
/-- `vpopc` (R512: set bits of a). -/
def execVpopc (d a : BitVec 5) (m : BitVec 3) (s : State) : Result := issue (pVpopc d a m) s
/-- What `vclz` posts. -/
def pVclz (d a : BitVec 5) (m : BitVec 3) : Posted := postUnary (wVclz d a m) (.int .clz) d a m
/-- `vclz` (R512: leading zero bits of a). -/
def execVclz (d a : BitVec 5) (m : BitVec 3) (s : State) : Result := issue (pVclz d a m) s
/-- What `vpcp` posts. -/
def pVpcp (d a : BitVec 5) (m : BitVec 3) : Posted := postUnary (wVpcp d a m) (.int .pcp) d a m
/-- `vpcp` (R512: popcount prefix of the row, R513). -/
def execVpcp (d a : BitVec 5) (m : BitVec 3) (s : State) : Result := issue (pVpcp d a m) s
/-- What `vid` posts. -/
def pVid (d : BitVec 5) (m : BitVec 3) : Posted :=
  { vecPost (wVid d m) (.int .id) d 0#5 0#5 m [] [d] with copyable := true }
/-- `vid` (R512: e). -/
def execVid (d : BitVec 5) (m : BitVec 3) (s : State) : Result := issue (pVid d m) s
/-- What `vadd` posts. -/
def pVaddVx (d a x : BitVec 5) (m : BitVec 3) : Posted := postVx (wVaddVx d a x m) (.int .add) d a x m [a]
/-- `vadd` (R512, .vx: a + b). -/
def execVaddVx (d a x : BitVec 5) (m : BitVec 3) (s : State) : Result := issue (pVaddVx d a x m) s
/-- What `vsub` posts. -/
def pVsubVx (d a x : BitVec 5) (m : BitVec 3) : Posted := postVx (wVsubVx d a x m) (.int .sub) d a x m [a]
/-- `vsub` (R512, .vx: a - b). -/
def execVsubVx (d a x : BitVec 5) (m : BitVec 3) (s : State) : Result := issue (pVsubVx d a x m) s
/-- What `vrsub` posts. -/
def pVrsubVx (d a x : BitVec 5) (m : BitVec 3) : Posted := postVx (wVrsubVx d a x m) (.int .rsub) d a x m [a]
/-- `vrsub` (R512, .vx: b - a). -/
def execVrsubVx (d a x : BitVec 5) (m : BitVec 3) (s : State) : Result := issue (pVrsubVx d a x m) s
/-- What `vmul` posts. -/
def pVmulVx (d a x : BitVec 5) (m : BitVec 3) : Posted := postVx (wVmulVx d a x m) (.int .mul) d a x m [a]
/-- `vmul` (R512, .vx: low w bits of a * b). -/
def execVmulVx (d a x : BitVec 5) (m : BitVec 3) (s : State) : Result := issue (pVmulVx d a x m) s
/-- What `vmulh` posts. -/
def pVmulhVx (d a x : BitVec 5) (m : BitVec 3) : Posted := postVx (wVmulhVx d a x m) (.int .mulh) d a x m [a]
/-- `vmulh` (R512, .vx: high bits of the signed product). -/
def execVmulhVx (d a x : BitVec 5) (m : BitVec 3) (s : State) : Result := issue (pVmulhVx d a x m) s
/-- What `vmulhu` posts. -/
def pVmulhuVx (d a x : BitVec 5) (m : BitVec 3) : Posted := postVx (wVmulhuVx d a x m) (.int .mulhu) d a x m [a]
/-- `vmulhu` (R512, .vx: high bits of the unsigned product). -/
def execVmulhuVx (d a x : BitVec 5) (m : BitVec 3) (s : State) : Result := issue (pVmulhuVx d a x m) s
/-- What `vdiv` posts. -/
def pVdivVx (d a x : BitVec 5) (m : BitVec 3) : Posted := postVx (wVdivVx d a x m) (.int .div) d a x m [a]
/-- `vdiv` (R512, .vx: signed division, R264). -/
def execVdivVx (d a x : BitVec 5) (m : BitVec 3) (s : State) : Result := issue (pVdivVx d a x m) s
/-- What `vdivu` posts. -/
def pVdivuVx (d a x : BitVec 5) (m : BitVec 3) : Posted := postVx (wVdivuVx d a x m) (.int .divu) d a x m [a]
/-- `vdivu` (R512, .vx: unsigned division, R264). -/
def execVdivuVx (d a x : BitVec 5) (m : BitVec 3) (s : State) : Result := issue (pVdivuVx d a x m) s
/-- What `vrem` posts. -/
def pVremVx (d a x : BitVec 5) (m : BitVec 3) : Posted := postVx (wVremVx d a x m) (.int .rem) d a x m [a]
/-- `vrem` (R512, .vx: signed remainder, R264). -/
def execVremVx (d a x : BitVec 5) (m : BitVec 3) (s : State) : Result := issue (pVremVx d a x m) s
/-- What `vremu` posts. -/
def pVremuVx (d a x : BitVec 5) (m : BitVec 3) : Posted := postVx (wVremuVx d a x m) (.int .remu) d a x m [a]
/-- `vremu` (R512, .vx: unsigned remainder, R264). -/
def execVremuVx (d a x : BitVec 5) (m : BitVec 3) (s : State) : Result := issue (pVremuVx d a x m) s
/-- What `vmin` posts. -/
def pVminVx (d a x : BitVec 5) (m : BitVec 3) : Posted := postVx (wVminVx d a x m) (.int .min) d a x m [a]
/-- `vmin` (R512, .vx: signed minimum). -/
def execVminVx (d a x : BitVec 5) (m : BitVec 3) (s : State) : Result := issue (pVminVx d a x m) s
/-- What `vmax` posts. -/
def pVmaxVx (d a x : BitVec 5) (m : BitVec 3) : Posted := postVx (wVmaxVx d a x m) (.int .max) d a x m [a]
/-- `vmax` (R512, .vx: signed maximum). -/
def execVmaxVx (d a x : BitVec 5) (m : BitVec 3) (s : State) : Result := issue (pVmaxVx d a x m) s
/-- What `vminu` posts. -/
def pVminuVx (d a x : BitVec 5) (m : BitVec 3) : Posted := postVx (wVminuVx d a x m) (.int .minu) d a x m [a]
/-- `vminu` (R512, .vx: unsigned minimum). -/
def execVminuVx (d a x : BitVec 5) (m : BitVec 3) (s : State) : Result := issue (pVminuVx d a x m) s
/-- What `vmaxu` posts. -/
def pVmaxuVx (d a x : BitVec 5) (m : BitVec 3) : Posted := postVx (wVmaxuVx d a x m) (.int .maxu) d a x m [a]
/-- `vmaxu` (R512, .vx: unsigned maximum). -/
def execVmaxuVx (d a x : BitVec 5) (m : BitVec 3) (s : State) : Result := issue (pVmaxuVx d a x m) s
/-- What `vand` posts. -/
def pVandVx (d a x : BitVec 5) (m : BitVec 3) : Posted := postVx (wVandVx d a x m) (.int .and) d a x m [a]
/-- `vand` (R512, .vx: a AND b). -/
def execVandVx (d a x : BitVec 5) (m : BitVec 3) (s : State) : Result := issue (pVandVx d a x m) s
/-- What `vor` posts. -/
def pVorVx (d a x : BitVec 5) (m : BitVec 3) : Posted := postVx (wVorVx d a x m) (.int .or) d a x m [a]
/-- `vor` (R512, .vx: a OR b). -/
def execVorVx (d a x : BitVec 5) (m : BitVec 3) (s : State) : Result := issue (pVorVx d a x m) s
/-- What `vxor` posts. -/
def pVxorVx (d a x : BitVec 5) (m : BitVec 3) : Posted := postVx (wVxorVx d a x m) (.int .xor) d a x m [a]
/-- `vxor` (R512, .vx: a XOR b). -/
def execVxorVx (d a x : BitVec 5) (m : BitVec 3) (s : State) : Result := issue (pVxorVx d a x m) s
/-- What `vsll` posts. -/
def pVsllVx (d a x : BitVec 5) (m : BitVec 3) : Posted := postVx (wVsllVx d a x m) (.int .sll) d a x m [a]
/-- `vsll` (R512, .vx: a shifted left by b mod w). -/
def execVsllVx (d a x : BitVec 5) (m : BitVec 3) (s : State) : Result := issue (pVsllVx d a x m) s
/-- What `vsrl` posts. -/
def pVsrlVx (d a x : BitVec 5) (m : BitVec 3) : Posted := postVx (wVsrlVx d a x m) (.int .srl) d a x m [a]
/-- `vsrl` (R512, .vx: a shifted right logically). -/
def execVsrlVx (d a x : BitVec 5) (m : BitVec 3) (s : State) : Result := issue (pVsrlVx d a x m) s
/-- What `vsra` posts. -/
def pVsraVx (d a x : BitVec 5) (m : BitVec 3) : Posted := postVx (wVsraVx d a x m) (.int .sra) d a x m [a]
/-- `vsra` (R512, .vx: a shifted right arithmetically). -/
def execVsraVx (d a x : BitVec 5) (m : BitVec 3) (s : State) : Result := issue (pVsraVx d a x m) s
/-- What `vsadd` posts. -/
def pVsaddVx (d a x : BitVec 5) (m : BitVec 3) : Posted := postVx (wVsaddVx d a x m) (.int .sadd) d a x m [a]
/-- `vsadd` (R512, .vx: signed saturating a + b). -/
def execVsaddVx (d a x : BitVec 5) (m : BitVec 3) (s : State) : Result := issue (pVsaddVx d a x m) s
/-- What `vsaddu` posts. -/
def pVsadduVx (d a x : BitVec 5) (m : BitVec 3) : Posted := postVx (wVsadduVx d a x m) (.int .saddu) d a x m [a]
/-- `vsaddu` (R512, .vx: unsigned saturating a + b). -/
def execVsadduVx (d a x : BitVec 5) (m : BitVec 3) (s : State) : Result := issue (pVsadduVx d a x m) s
/-- What `vssub` posts. -/
def pVssubVx (d a x : BitVec 5) (m : BitVec 3) : Posted := postVx (wVssubVx d a x m) (.int .ssub) d a x m [a]
/-- `vssub` (R512, .vx: signed saturating a - b). -/
def execVssubVx (d a x : BitVec 5) (m : BitVec 3) (s : State) : Result := issue (pVssubVx d a x m) s
/-- What `vssubu` posts. -/
def pVssubuVx (d a x : BitVec 5) (m : BitVec 3) : Posted := postVx (wVssubuVx d a x m) (.int .ssubu) d a x m [a]
/-- `vssubu` (R512, .vx: unsigned saturating a - b). -/
def execVssubuVx (d a x : BitVec 5) (m : BitVec 3) (s : State) : Result := issue (pVssubuVx d a x m) s
/-- What `vmacc` posts. -/
def pVmaccVx (d a x : BitVec 5) (m : BitVec 3) : Posted := postVx (wVmaccVx d a x m) (.int .macc) d a x m [a, d]
/-- `vmacc` (R512, .vx: d + a * b). -/
def execVmaccVx (d a x : BitVec 5) (m : BitVec 3) (s : State) : Result := issue (pVmaccVx d a x m) s
/-- What `vsel` posts. -/
def pVselVx (d a x : BitVec 5) (m : BitVec 3) : Posted := asSelector (postVx (wVselVx d a x m) (.int .sel) d a x m [a])
/-- `vsel` (R512, .vx: a or b by the selector m). -/
def execVselVx (d a x : BitVec 5) (m : BitVec 3) (s : State) : Result := issue (pVselVx d a x m) s
/-- What `vext` posts. -/
def pVextVx (d a x : BitVec 5) (m : BitVec 3) : Posted := postVx (wVextVx d a x m) (.int .ext) d a x m [a]
/-- `vext` (R512, .vx: bit field of a, R514). -/
def execVextVx (d a x : BitVec 5) (m : BitVec 3) (s : State) : Result := issue (pVextVx d a x m) s
/-- What `vins` posts. -/
def pVinsVx (d a x : BitVec 5) (m : BitVec 3) : Posted := postVx (wVinsVx d a x m) (.int .ins) d a x m [a, d]
/-- `vins` (R512, .vx: bit field of d replaced, R514). -/
def execVinsVx (d a x : BitVec 5) (m : BitVec 3) (s : State) : Result := issue (pVinsVx d a x m) s
/-- What `vabsd` posts. -/
def pVabsdVx (d a x : BitVec 5) (m : BitVec 3) : Posted := postVx (wVabsdVx d a x m) (.int .absd) d a x m [a]
/-- `vabsd` (R512, .vx: |a - b|). -/
def execVabsdVx (d a x : BitVec 5) (m : BitVec 3) (s : State) : Result := issue (pVabsdVx d a x m) s
/-- What `vmv` posts. -/
def pVmvVx (d x : BitVec 5) (m : BitVec 3) : Posted := postVx (wVmvVx d x m) (.int .mv) d 0#5 x m []
/-- `vmv` (R512, .vx: b). -/
def execVmvVx (d x : BitVec 5) (m : BitVec 3) (s : State) : Result := issue (pVmvVx d x m) s

end Sys2Proof.Machine
end

