-- ==== Sys2Proof/Machine/Masks.lean ====
section
/-! DEFINITION. The compare and mask instructions of majors 0x28 and 0x29, and mask loads and stores (R488, R530 to R533). -/

namespace Sys2Proof.Machine

/-- What `vcmp` posts. -/
def pVcmpVv (d : BitVec 3) (a b : BitVec 5) (m : BitVec 3) (p : BitVec 2) (c : BitVec 3) (t : BitVec 2) : Posted :=
  postCmpVv (wVcmpVv d a b m p c t) d a b m p c t
/-- `vcmp` (R530, R531: comparison of two vectors). -/
def execVcmpVv (d : BitVec 3) (a b : BitVec 5) (m : BitVec 3) (p : BitVec 2) (c : BitVec 3) (t : BitVec 2) (s : State) : Result :=
  issue (pVcmpVv d a b m p c t) s
/-- What `vcmp` posts. -/
def pVcmpVx (d : BitVec 3) (a x : BitVec 5) (m c : BitVec 3) (t : BitVec 2) : Posted :=
  postCmpVx (wVcmpVx d a x m c t) d a x m c t
/-- `vcmp` (R530, R531: comparison with a scalar). -/
def execVcmpVx (d : BitVec 3) (a x : BitVec 5) (m c : BitVec 3) (t : BitVec 2) (s : State) : Result :=
  issue (pVcmpVx d a x m c t) s
/-- What `mand` posts. -/
def pMand (d a b m : BitVec 3) : Posted := postMask (wMand d a b m) .and d a b m
/-- `mand` (R532: ma AND mb). -/
def execMand (d a b m : BitVec 3) (s : State) : Result := issue (pMand d a b m) s
/-- What `mor` posts. -/
def pMor (d a b m : BitVec 3) : Posted := postMask (wMor d a b m) .or d a b m
/-- `mor` (R532: ma OR mb). -/
def execMor (d a b m : BitVec 3) (s : State) : Result := issue (pMor d a b m) s
/-- What `mxor` posts. -/
def pMxor (d a b m : BitVec 3) : Posted := postMask (wMxor d a b m) .xor d a b m
/-- `mxor` (R532: ma XOR mb). -/
def execMxor (d a b m : BitVec 3) (s : State) : Result := issue (pMxor d a b m) s
/-- What `mandn` posts. -/
def pMandn (d a b m : BitVec 3) : Posted := postMask (wMandn d a b m) .andn d a b m
/-- `mandn` (R532: ma AND NOT mb). -/
def execMandn (d a b m : BitVec 3) (s : State) : Result := issue (pMandn d a b m) s
/-- What `mnot` posts. -/
def pMnot (d a m : BitVec 3) : Posted := postMask (wMnot d a m) .not d a 0#3 m
/-- `mnot` (R532: NOT ma). -/
def execMnot (d a m : BitVec 3) (s : State) : Result := issue (pMnot d a m) s
/-- What `mmv` posts. -/
def pMmv (d a m : BitVec 3) : Posted := postMask (wMmv d a m) .mv d a 0#3 m
/-- `mmv` (R532: ma). -/
def execMmv (d a m : BitVec 3) (s : State) : Result := issue (pMmv d a m) s
/-- What `mbefore` posts. -/
def pMbefore (d a m : BitVec 3) : Posted := postMask (wMbefore d a m) .before d a 0#3 m
/-- `mbefore` (R532: the positions before the first of ma). -/
def execMbefore (d a m : BitVec 3) (s : State) : Result := issue (pMbefore d a m) s
/-- What `mincl` posts. -/
def pMincl (d a m : BitVec 3) : Posted := postMask (wMincl d a m) .incl d a 0#3 m
/-- `mincl` (R532: the positions up to the first of ma). -/
def execMincl (d a m : BitVec 3) (s : State) : Result := issue (pMincl d a m) s
/-- What `monly` posts. -/
def pMonly (d a m : BitVec 3) : Posted := postMask (wMonly d a m) .only d a 0#3 m
/-- `monly` (R532: the first of ma alone). -/
def execMonly (d a m : BitVec 3) (s : State) : Result := issue (pMonly d a m) s
/-- What `mset` posts. -/
def pMset (d m : BitVec 3) : Posted := postMask (wMset d m) .set d 0#3 0#3 m
/-- `mset` (R532: ones). -/
def execMset (d m : BitVec 3) (s : State) : Result := issue (pMset d m) s
/-- What `mclr` posts. -/
def pMclr (d m : BitVec 3) : Posted := postMask (wMclr d m) .clr d 0#3 0#3 m
/-- `mclr` (R532: zeros). -/
def execMclr (d m : BitVec 3) (s : State) : Result := issue (pMclr d m) s
/-- What `mpop` posts. -/
def pMpop (d : BitVec 5) (a m : BitVec 3) : Posted := postMaskX (wMpop d a m) .pop d a m
/-- `mpop` (R532, R533: count of active set bits of ma). -/
def execMpop (d : BitVec 5) (a m : BitVec 3) (s : State) : Result := issue (pMpop d a m) s
/-- What `mfirst` posts. -/
def pMfirst (d : BitVec 5) (a m : BitVec 3) : Posted := postMaskX (wMfirst d a m) .first d a m
/-- `mfirst` (R532, R533: lowest active set bit of ma, or -1). -/
def execMfirst (d : BitVec 5) (a m : BitVec 3) (s : State) : Result := issue (pMfirst d a m) s
/-- What `mlast` posts. -/
def pMlast (d : BitVec 5) (a m : BitVec 3) : Posted := postMaskX (wMlast d a m) .last d a m
/-- `mlast` (R532, R533: highest active set bit of ma, or -1). -/
def execMlast (d : BitVec 5) (a m : BitVec 3) (s : State) : Result := issue (pMlast d a m) s
/-- What `mtov` posts. -/
def pMtov (d : BitVec 5) (a m : BitVec 3) : Posted := vecPost (wMtov d a m) (.mask .tov) d (a.setWidth 5) 0#5 m [] [d]
/-- `mtov` (R532: 1 or 0 in vd by ma). -/
def execMtov (d : BitVec 5) (a m : BitVec 3) (s : State) : Result := issue (pMtov d a m) s
/-- What `vtom` posts. -/
def pVtom (d : BitVec 3) (a : BitVec 5) (m : BitVec 3) : Posted :=
  vecPost (wVtom d a m) (.mask .vtom) (d.setWidth 5) a 0#5 m [a] []
/-- `vtom` (R532: the non-zero elements of va). -/
def execVtom (d : BitVec 3) (a : BitVec 5) (m : BitVec 3) (s : State) : Result := issue (pVtom d a m) s
/-- What `vlm` posts. -/
def pVlm (r : BitVec 3) (a : BitVec 5) : Posted :=
  { vecPost (wVlm r a) .vlm (r.setWidth 5) 0#5 0#5 0#3 [] [] with predicable := false, opa := some a }
/-- `vlm` (R488: a mask from memory). -/
def execVlm (r : BitVec 3) (a : BitVec 5) (s : State) : Result := issue (pVlm r a) s
/-- What `vsm` posts. -/
def pVsm (r : BitVec 3) (a : BitVec 5) : Posted :=
  { vecPost (wVsm r a) .vsm (r.setWidth 5) 0#5 0#5 0#3 [] [] with predicable := false, opa := some a }
/-- `vsm` (R488: a mask to memory). -/
def execVsm (r : BitVec 3) (a : BitVec 5) (s : State) : Result := issue (pVsm r a) s

end Sys2Proof.Machine
end

