-- ==== Sys2Proof/Machine/Permute.lean ====
section
/-! DEFINITION. The permutes, reductions, scans and compare-and-swap of majors 0x2A and 0x2B (R534 to R542). -/

namespace Sys2Proof.Machine

/-- What `vcompress` posts. -/
def pVcompress (d a : BitVec 5) (m : BitVec 3) : Posted := postPerm (wVcompress d a m) .compress d a 0#5 m [a]
/-- `vcompress` (R534: active elements packed). -/
def execVcompress (d a : BitVec 5) (m : BitVec 3) (s : State) : Result := issue (pVcompress d a m) s
/-- What `vexpand` posts. -/
def pVexpand (d a : BitVec 5) (m : BitVec 3) : Posted := postPerm (wVexpand d a m) .expand d a 0#5 m [a]
/-- `vexpand` (R534: elements spread over the active positions). -/
def execVexpand (d a : BitVec 5) (m : BitVec 3) (s : State) : Result := issue (pVexpand d a m) s
/-- What `vrev` posts. -/
def pVrev (d a : BitVec 5) (m : BitVec 3) : Posted := postPerm (wVrev d a m) .rev d a 0#5 m [a]
/-- `vrev` (R534: the row reversed). -/
def execVrev (d a : BitVec 5) (m : BitVec 3) (s : State) : Result := issue (pVrev d a m) s
/-- What `vtr` posts. -/
def pVtr (d a : BitVec 5) (m : BitVec 3) : Posted := postPerm (wVtr d a m) .tr d a 0#5 m [a]
/-- `vtr` (R534: the transpose). -/
def execVtr (d a : BitVec 5) (m : BitVec 3) (s : State) : Result := issue (pVtr d a m) s
/-- What `vunzip` posts. -/
def pVunzip (d a : BitVec 5) (m : BitVec 3) : Posted := postPerm (wVunzip d a m) .unzip d a 0#5 m [a]
/-- `vunzip` (R534: even elements, then odd ones). -/
def execVunzip (d a : BitVec 5) (m : BitVec 3) (s : State) : Result := issue (pVunzip d a m) s
/-- What `vgath` posts. -/
def pVgath (d a b : BitVec 5) (m : BitVec 3) : Posted := postPerm (wVgath d a b m) .gath d a b m [a, b]
/-- `vgath` (R534: a(idx), R535). -/
def execVgath (d a b : BitVec 5) (m : BitVec 3) (s : State) : Result := issue (pVgath d a b m) s
/-- What `vzip` posts. -/
def pVzip (d a b : BitVec 5) (m : BitVec 3) : Posted := postPerm (wVzip d a b m) .zip d a b m [a, b]
/-- `vzip` (R534: the rows interleaved). -/
def execVzip (d a b : BitVec 5) (m : BitVec 3) (s : State) : Result := issue (pVzip d a b m) s
/-- What `vslideup` posts. -/
def pVslideup (d a x : BitVec 5) (m : BitVec 3) : Posted := postPermX (wVslideup d a x m) .slideup d a x m
/-- `vslideup` (R534: a(e - s)). -/
def execVslideup (d a x : BitVec 5) (m : BitVec 3) (s : State) : Result := issue (pVslideup d a x m) s
/-- What `vslidedn` posts. -/
def pVslidedn (d a x : BitVec 5) (m : BitVec 3) : Posted := postPermX (wVslidedn d a x m) .slidedn d a x m
/-- `vslidedn` (R534: a(e + s)). -/
def execVslidedn (d a x : BitVec 5) (m : BitVec 3) (s : State) : Result := issue (pVslidedn d a x m) s
/-- What `vrowmv` posts. -/
def pVrowmv (d a x : BitVec 5) (m : BitVec 3) : Posted := postPermX (wVrowmv d a x m) .rowmv d a x m
/-- `vrowmv` (R534: row k + OPB of va). -/
def execVrowmv (d a x : BitVec 5) (m : BitVec 3) (s : State) : Result := issue (pVrowmv d a x m) s
/-- What `vrelay` posts. -/
def pVrelay (d : BitVec 5) : Posted := { postPerm (wVrelay d) .relay d 0#5 0#5 0#3 [] with predicable := false }
/-- `vrelay` (R536: vd relaid). -/
def execVrelay (d : BitVec 5) (s : State) : Result := issue (pVrelay d) s
/-- What `vredsum` posts. -/
def pVredsum (d a b : BitVec 5) (m : BitVec 3) : Posted := postRed (wVredsum d a b m) .sum d a b m
/-- `vredsum` (R539: integer reduction). -/
def execVredsum (d a b : BitVec 5) (m : BitVec 3) (s : State) : Result := issue (pVredsum d a b m) s
/-- What `vredsumt` posts. -/
def pVredsumt (d a b : BitVec 5) (m : BitVec 3) : Posted := postRed (wVredsumt d a b m) .sumt d a b m
/-- `vredsumt` (R539: integer reduction). -/
def execVredsumt (d a b : BitVec 5) (m : BitVec 3) (s : State) : Result := issue (pVredsumt d a b m) s
/-- What `vredmin` posts. -/
def pVredmin (d a b : BitVec 5) (m : BitVec 3) : Posted := postRed (wVredmin d a b m) .min d a b m
/-- `vredmin` (R539: integer reduction). -/
def execVredmin (d a b : BitVec 5) (m : BitVec 3) (s : State) : Result := issue (pVredmin d a b m) s
/-- What `vredmax` posts. -/
def pVredmax (d a b : BitVec 5) (m : BitVec 3) : Posted := postRed (wVredmax d a b m) .max d a b m
/-- `vredmax` (R539: integer reduction). -/
def execVredmax (d a b : BitVec 5) (m : BitVec 3) (s : State) : Result := issue (pVredmax d a b m) s
/-- What `vredand` posts. -/
def pVredand (d a b : BitVec 5) (m : BitVec 3) : Posted := postRed (wVredand d a b m) .and d a b m
/-- `vredand` (R539: integer reduction). -/
def execVredand (d a b : BitVec 5) (m : BitVec 3) (s : State) : Result := issue (pVredand d a b m) s
/-- What `vredor` posts. -/
def pVredor (d a b : BitVec 5) (m : BitVec 3) : Posted := postRed (wVredor d a b m) .or d a b m
/-- `vredor` (R539: integer reduction). -/
def execVredor (d a b : BitVec 5) (m : BitVec 3) (s : State) : Result := issue (pVredor d a b m) s
/-- What `vredxor` posts. -/
def pVredxor (d a b : BitVec 5) (m : BitVec 3) : Posted := postRed (wVredxor d a b m) .xor d a b m
/-- `vredxor` (R539: integer reduction). -/
def execVredxor (d a b : BitVec 5) (m : BitVec 3) (s : State) : Result := issue (pVredxor d a b m) s
/-- What `vredminu` posts. -/
def pVredminu (d a b : BitVec 5) (m : BitVec 3) : Posted := postRed (wVredminu d a b m) .minu d a b m
/-- `vredminu` (R539: integer reduction). -/
def execVredminu (d a b : BitVec 5) (m : BitVec 3) (s : State) : Result := issue (pVredminu d a b m) s
/-- What `vredmaxu` posts. -/
def pVredmaxu (d a b : BitVec 5) (m : BitVec 3) : Posted := postRed (wVredmaxu d a b m) .maxu d a b m
/-- `vredmaxu` (R539: integer reduction). -/
def execVredmaxu (d a b : BitVec 5) (m : BitVec 3) (s : State) : Result := issue (pVredmaxu d a b m) s
/-- What `vfredsum` posts. -/
def pVfredsum (d a b : BitVec 5) (m : BitVec 3) : Posted := postRed (wVfredsum d a b m) .fsum d a b m
/-- `vfredsum` (R539: float reduction). -/
def execVfredsum (d a b : BitVec 5) (m : BitVec 3) (s : State) : Result := issue (pVfredsum d a b m) s
/-- What `vfredsumt` posts. -/
def pVfredsumt (d a b : BitVec 5) (m : BitVec 3) : Posted := postRed (wVfredsumt d a b m) .fsumt d a b m
/-- `vfredsumt` (R539: float reduction). -/
def execVfredsumt (d a b : BitVec 5) (m : BitVec 3) (s : State) : Result := issue (pVfredsumt d a b m) s
/-- What `vfredmax` posts. -/
def pVfredmax (d a b : BitVec 5) (m : BitVec 3) : Posted := postRed (wVfredmax d a b m) .fmax d a b m
/-- `vfredmax` (R539: float reduction). -/
def execVfredmax (d a b : BitVec 5) (m : BitVec 3) (s : State) : Result := issue (pVfredmax d a b m) s
/-- What `vfredmin` posts. -/
def pVfredmin (d a b : BitVec 5) (m : BitVec 3) : Posted := postRed (wVfredmin d a b m) .fmin d a b m
/-- `vfredmin` (R539: float reduction). -/
def execVfredmin (d a b : BitVec 5) (m : BitVec 3) (s : State) : Result := issue (pVfredmin d a b m) s
/-- What `vscan` posts. -/
def pVscan (d a b : BitVec 5) (m : BitVec 3) : Posted := postRed (wVscan d a b m) .scan d a b m
/-- `vscan` (R540: scan). -/
def execVscan (d a b : BitVec 5) (m : BitVec 3) (s : State) : Result := issue (pVscan d a b m) s
/-- What `vscanx` posts. -/
def pVscanx (d a b : BitVec 5) (m : BitVec 3) : Posted := postRed (wVscanx d a b m) .scanx d a b m
/-- `vscanx` (R540: scan). -/
def execVscanx (d a b : BitVec 5) (m : BitVec 3) (s : State) : Result := issue (pVscanx d a b m) s
/-- What `vfscan` posts. -/
def pVfscan (d a b : BitVec 5) (m : BitVec 3) : Posted := postRed (wVfscan d a b m) .fscan d a b m
/-- `vfscan` (R540: scan). -/
def execVfscan (d a b : BitVec 5) (m : BitVec 3) (s : State) : Result := issue (pVfscan d a b m) s
/-- What `vkswap` posts. -/
def pVkswap (d a b : BitVec 5) (m : BitVec 3) : Posted :=
  vecPost (wVkswap d a b m) (.kswap false) d a b m [] [d, d + 1#5, a, b]
/-- `vkswap` (R541: index-carrying compare and swap). -/
def execVkswap (d a b : BitVec 5) (m : BitVec 3) (s : State) : Result := issue (pVkswap d a b m) s
/-- What `vkswapi` posts. -/
def pVkswapi (d a x : BitVec 5) (m : BitVec 3) : Posted :=
  { vecPost (wVkswapi d a x m) (.kswap true) d a 0#5 m [] [d, d + 1#5, a, a + 1#5] with opb := some x }
/-- `vkswapi` (R542: the candidate index from OPB). -/
def execVkswapi (d a x : BitVec 5) (m : BitVec 3) (s : State) : Result := issue (pVkswapi d a x m) s

end Sys2Proof.Machine
end

