-- ==== Sys2Proof/Machine/Streams.lean ====
section
/-! DEFINITION. The stream and copy instructions of major 0x23 (R490 to R501). -/

namespace Sys2Proof.Machine

/-- What `sbind` posts. -/
def pSbind (n a : BitVec 5) : Posted := postStream (wSbind n a) .sbind n (some a)
/-- `sbind` (R490: bind a stream). -/
def execSbind (n a : BitVec 5) (s : State) : Result :=
  issueWith (fun t => t.bindStream (pSbind n a) (t.x a)) (pSbind n a) s
/-- What `sunbind` posts. -/
def pSunbind (n : BitVec 5) : Posted := postStream (wSunbind n) .sunbind n none
/-- `sunbind` (R490: end a binding). -/
def execSunbind (n : BitVec 5) (s : State) : Result :=
  issueWith (fun t => (t.mod fun h => h.rebind n fun b => { b with valid := false }).postNow (pSunbind n)) (pSunbind n) s
/-- What `spos` posts. -/
def pSpos (n a : BitVec 5) : Posted := postStream (wSpos n a) .spos n (some a)
/-- `spos` (R490: move a stream). -/
def execSpos (n a : BitVec 5) (s : State) : Result :=
  issueWith (fun t => (t.mod fun h => h.rebind n fun b => { b with pos := min (t.x a).toNat b.count }).postNow (pSpos n a)) (pSpos n a) s
/-- What `gsp` posts. -/
def pGsp (d q i : BitVec 5) (m : BitVec 3) : Posted := postCopy (wGsp d q i m) .gsp [i] m (some d) (some q) none
/-- `gsp` (R495: rows gathered into scratchpad). -/
def execGsp (d q i : BitVec 5) (m : BitVec 3) (s : State) : Result := issue (pGsp d q i m) s
/-- What `ssp` posts. -/
def pSsp (d q i : BitVec 5) (m : BitVec 3) : Posted := postCopy (wSsp d q i m) .ssp [i] m (some d) (some q) none
/-- `ssp` (R495: rows scattered from scratchpad). -/
def execSsp (d q i : BitVec 5) (m : BitVec 3) (s : State) : Result := issue (pSsp d q i m) s
/-- What `cpy` posts. -/
def pCpy (a : BitVec 5) (m : BitVec 3) : Posted := postCopy (wCpy a m) .cpy [] m (some a) none none
/-- `cpy` (R494: a copy by descriptor). -/
def execCpy (a : BitVec 5) (m : BitVec 3) (s : State) : Result := issue (pCpy a m) s
/-- What `cpyr` posts. -/
def pCpyr (a : BitVec 5) (m : BitVec 3) : Posted := postCopy (wCpyr a m) .cpyr [] m (some a) none none
/-- `cpyr` (R494: a copy by descriptor). -/
def execCpyr (a : BitVec 5) (m : BitVec 3) (s : State) : Result := issue (pCpyr a m) s
/-- What `cwait` posts. -/
def pCwait (d : BitVec 5) : Posted := postCopy (wCwait d) .cwait [] 0#3 none none (some d)
/-- `cwait` (R501: wait for the copies). -/
def execCwait (d : BitVec 5) (s : State) : Result := issue (pCwait d) s

end Sys2Proof.Machine
end

