-- ==== Sys2Proof/Machine/Tiles.lean ====
section
/-! DEFINITION. The matrix instructions of major 0x2F (R567 to R582). -/

namespace Sys2Proof.Machine

/-- What `mzero` posts. -/
def pMzero (n : BitVec 2) : Posted := postMat (wMzero n) .zero n 0#5 0#5 [] []
/-- `mzero` (R575: clear a tile). -/
def execMzero (n : BitVec 2) (s : State) : Result := issue (pMzero n) s
/-- What `mopo` posts. -/
def pMopo (n : BitVec 2) (a b : BitVec 5) (r c f : BitVec 3) : Posted :=
  postOuter (wMopo n a b r c f) .opo n a b r c f false
/-- `mopo` (R572: outer product). -/
def execMopo (n : BitVec 2) (a b : BitVec 5) (r c f : BitVec 3) (s : State) : Result := issue (pMopo n a b r c f) s
/-- What `mopob` posts. -/
def pMopob (n : BitVec 2) (a b : BitVec 5) (r c f : BitVec 3) : Posted :=
  postOuter (wMopob n a b r c f) .opo n a b r c f true
/-- `mopob` (R572: outer product with block scales). -/
def execMopob (n : BitVec 2) (a b : BitVec 5) (r c f : BitVec 3) (s : State) : Result := issue (pMopob n a b r c f) s
/-- What `mopr` posts. -/
def pMopr (n : BitVec 2) (a b : BitVec 5) (r c f : BitVec 3) : Posted :=
  postOuter (wMopr n a b r c f) .opr n a b r c f false
/-- `mopr` (R572: outer product, fp). -/
def execMopr (n : BitVec 2) (a b : BitVec 5) (r c f : BitVec 3) (s : State) : Result := issue (pMopr n a b r c f) s
/-- What `moprb` posts. -/
def pMoprb (n : BitVec 2) (a b : BitVec 5) (r c f : BitVec 3) : Posted :=
  postOuter (wMoprb n a b r c f) .opr n a b r c f true
/-- `moprb` (R572: with block scales). -/
def execMoprb (n : BitVec 2) (a b : BitVec 5) (r c f : BitVec 3) (s : State) : Result := issue (pMoprb n a b r c f) s
/-- What `mopi` posts. -/
def pMopi (n : BitVec 2) (a b : BitVec 5) (r c : BitVec 3) (f : BitVec 1) : Posted :=
  postOuter (wMopi n a b r c f) .opi n a b r c (3#2 ++ f) false
/-- `mopi` (R572: integer outer product). -/
def execMopi (n : BitVec 2) (a b : BitVec 5) (r c : BitVec 3) (f : BitVec 1) (s : State) : Result :=
  issue (pMopi n a b r c f) s
/-- What `mops` posts. -/
def pMops (n : BitVec 2) (a b : BitVec 5) (r c f : BitVec 3) : Posted :=
  postOuter (wMops n a b r c f) .ops n a b r c f false
/-- `mops` (R573: sparse outer product). -/
def execMops (n : BitVec 2) (a b : BitVec 5) (r c f : BitVec 3) (s : State) : Result := issue (pMops n a b r c f) s
/-- What `mopsb` posts. -/
def pMopsb (n : BitVec 2) (a b : BitVec 5) (r c f : BitVec 3) : Posted :=
  postOuter (wMopsb n a b r c f) .ops n a b r c f true
/-- `mopsb` (R573: sparse outer product). -/
def execMopsb (n : BitVec 2) (a b : BitVec 5) (r c f : BitVec 3) (s : State) : Result := issue (pMopsb n a b r c f) s
/-- What `mtv` posts. -/
def pMtv (n : BitVec 2) (d x : BitVec 5) : Posted := { postMat (wMtv n d x) .tv n d 0#5 [] [d] with opb := some x }
/-- `mtv` (R576: slices of a tile to a vector). -/
def execMtv (n : BitVec 2) (d x : BitVec 5) (s : State) : Result := issue (pMtv n d x) s
/-- What `mtvc` posts. -/
def pMtvc (n : BitVec 2) (d x : BitVec 5) : Posted := { postMat (wMtvc n d x) .tvc n d 0#5 [] [d] with opb := some x }
/-- `mtvc` (R576: slices of a tile to a vector). -/
def execMtvc (n : BitVec 2) (d x : BitVec 5) (s : State) : Result := issue (pMtvc n d x) s
/-- What `mvt` posts. -/
def pMvt (n : BitVec 2) (a x : BitVec 5) : Posted := { postMat (wMvt n a x) .vt n a 0#5 [a] [] with opb := some x }
/-- `mvt` (R576: a vector to slices of a tile). -/
def execMvt (n : BitVec 2) (a x : BitVec 5) (s : State) : Result := issue (pMvt n a x) s
/-- What `mvtc` posts. -/
def pMvtc (n : BitVec 2) (a x : BitVec 5) : Posted := { postMat (wMvtc n a x) .vtc n a 0#5 [a] [] with opb := some x }
/-- `mvtc` (R576: a vector to slices of a tile). -/
def execMvtc (n : BitVec 2) (a x : BitVec 5) (s : State) : Result := issue (pMvtc n a x) s
/-- What `mld` posts. -/
def pMld (n : BitVec 2) (a b : BitVec 5) : Posted :=
  { postMat (wMld n a b) .ld n 0#5 0#5 [] [] with opa := some a, opb := some b }
/-- `mld` (R577: a tile from memory). -/
def execMld (n : BitVec 2) (a b : BitVec 5) (s : State) : Result := issue (pMld n a b) s
/-- What `mst` posts. -/
def pMst (n : BitVec 2) (a b : BitVec 5) : Posted :=
  { postMat (wMst n a b) .st n 0#5 0#5 [] [] with opa := some a, opb := some b }
/-- `mst` (R577: a tile to memory). -/
def execMst (n : BitVec 2) (a b : BitVec 5) (s : State) : Result := issue (pMst n a b) s
/-- What `mgang` posts. -/
def pMgang : Posted := postMat wMgang .gang 0#2 0#5 0#5 [] []
/-- `mgang` (R579: join a co-tile). -/
def execMgang (s : State) : Result := issue pMgang s
/-- What `mgsync` posts. -/
def pMgsync : Posted := postMat wMgsync .gsync 0#2 0#5 0#5 [] []
/-- `mgsync` (R581: synchronise a co-tile). -/
def execMgsync (s : State) : Result := issue pMgsync s

end Sys2Proof.Machine
end

