-- ==== Sys2Proof/Machine/VMemory.lean ====
section
/-! DEFINITION. Vector loads and stores, compress-and-append, vector atomics and scatter-accumulate (R479 to R487, R504, R596 to R603). -/

namespace Sys2Proof.Machine

/-- What `vld` posts. -/
def pVld (d b : BitVec 5) (m : BitVec 3) (c : BitVec 1) (w : BitVec 2) (x : BitVec 1) : Posted :=
  postLoad (wVld d b m c w x) .unit d b none [] m c w x
/-- `vld` (R479, R482: unit load). -/
def execVld (d b : BitVec 5) (m : BitVec 3) (c : BitVec 1) (w : BitVec 2) (x : BitVec 1) (s : State) : Result :=
  issue (pVld d b m c w x) s
/-- What `vlds` posts. -/
def pVlds (d b r : BitVec 5) (m : BitVec 3) (w : BitVec 2) (x : BitVec 1) : Posted :=
  postLoad (wVlds d b r m w x) .strided d b (some r) [] m 0#1 w x
/-- `vlds` (R479, R482: strided load). -/
def execVlds (d b r : BitVec 5) (m : BitVec 3) (w : BitVec 2) (x : BitVec 1) (s : State) : Result :=
  issue (pVlds d b r m w x) s
/-- What `vldx` posts. -/
def pVldx (d b i : BitVec 5) (m : BitVec 3) (w : BitVec 2) (x : BitVec 1) : Posted :=
  postLoad (wVldx d b i m w x) .indexed d b none [i] m 0#1 w x
/-- `vldx` (R479, R482: indexed load). -/
def execVldx (d b i : BitVec 5) (m : BitVec 3) (w : BitVec 2) (x : BitVec 1) (s : State) : Result :=
  issue (pVldx d b i m w x) s
/-- What `vldxo` posts. -/
def pVldxo (d b i : BitVec 5) (m : BitVec 3) (c : BitVec 1) (w : BitVec 2) (x : BitVec 1) : Posted :=
  postLoad (wVldxo d b i m c w x) .ordered d b none [i] m c w x
/-- `vldxo` (R479, R482: ordered load). -/
def execVldxo (d b i : BitVec 5) (m : BitVec 3) (c : BitVec 1) (w : BitVec 2) (x : BitVec 1) (s : State) : Result :=
  issue (pVldxo d b i m c w x) s
/-- What `vst` posts. -/
def pVst (q b : BitVec 5) (m : BitVec 3) (c n : BitVec 1) (w : BitVec 2) : Posted :=
  postStore (wVst q b m c n w) .unit q b none [] m c n w
/-- `vst` (R479, R482: unit store). -/
def execVst (q b : BitVec 5) (m : BitVec 3) (c n : BitVec 1) (w : BitVec 2) (s : State) : Result :=
  issue (pVst q b m c n w) s
/-- What `vsts` posts. -/
def pVsts (q b r : BitVec 5) (m : BitVec 3) (n : BitVec 1) (w : BitVec 2) : Posted :=
  postStore (wVsts q b r m n w) .strided q b (some r) [] m 0#1 n w
/-- `vsts` (R479, R482: strided store). -/
def execVsts (q b r : BitVec 5) (m : BitVec 3) (n : BitVec 1) (w : BitVec 2) (s : State) : Result :=
  issue (pVsts q b r m n w) s
/-- What `vstx` posts. -/
def pVstx (q b i : BitVec 5) (m : BitVec 3) (n : BitVec 1) (w : BitVec 2) : Posted :=
  postStore (wVstx q b i m n w) .indexed q b none [i] m 0#1 n w
/-- `vstx` (R479, R482: indexed store). -/
def execVstx (q b i : BitVec 5) (m : BitVec 3) (n : BitVec 1) (w : BitVec 2) (s : State) : Result :=
  issue (pVstx q b i m n w) s
/-- What `vstxo` posts. -/
def pVstxo (q b i : BitVec 5) (m : BitVec 3) (c n : BitVec 1) (w : BitVec 2) : Posted :=
  postStore (wVstxo q b i m c n w) .ordered q b none [i] m c n w
/-- `vstxo` (R479, R482: ordered store). -/
def execVstxo (q b i : BitVec 5) (m : BitVec 3) (c n : BitVec 1) (w : BitVec 2) (s : State) : Result :=
  issue (pVstxo q b i m c n w) s
/-- What `capp` posts. -/
def pCapp (d a b : BitVec 5) (m : BitVec 3) : Posted :=
  { vecPost (wCapp d a b m) .capp 0#5 0#5 0#5 m [] [] with predicable := false, opa := some a, opb := some b, xd := some d }
/-- `capp` (R504: compress and append). -/
def execCapp (d a b : BitVec 5) (m : BitVec 3) (s : State) : Result := issue (pCapp d a b m) s
/-- What `vamoadd` posts. -/
def pVamoadd (d a x : BitVec 5) (m : BitVec 3) : Posted := postAmo (wVamoadd d a x m) .add d a x m
/-- `vamoadd` (R596: vector atomic). -/
def execVamoadd (d a x : BitVec 5) (m : BitVec 3) (s : State) : Result := issue (pVamoadd d a x m) s
/-- What `vamoand` posts. -/
def pVamoand (d a x : BitVec 5) (m : BitVec 3) : Posted := postAmo (wVamoand d a x m) .and d a x m
/-- `vamoand` (R596: vector atomic). -/
def execVamoand (d a x : BitVec 5) (m : BitVec 3) (s : State) : Result := issue (pVamoand d a x m) s
/-- What `vamoor` posts. -/
def pVamoor (d a x : BitVec 5) (m : BitVec 3) : Posted := postAmo (wVamoor d a x m) .or d a x m
/-- `vamoor` (R596: vector atomic). -/
def execVamoor (d a x : BitVec 5) (m : BitVec 3) (s : State) : Result := issue (pVamoor d a x m) s
/-- What `vamoxor` posts. -/
def pVamoxor (d a x : BitVec 5) (m : BitVec 3) : Posted := postAmo (wVamoxor d a x m) .xor d a x m
/-- `vamoxor` (R596: vector atomic). -/
def execVamoxor (d a x : BitVec 5) (m : BitVec 3) (s : State) : Result := issue (pVamoxor d a x m) s
/-- What `vamomin` posts. -/
def pVamomin (d a x : BitVec 5) (m : BitVec 3) : Posted := postAmo (wVamomin d a x m) .min d a x m
/-- `vamomin` (R596: vector atomic). -/
def execVamomin (d a x : BitVec 5) (m : BitVec 3) (s : State) : Result := issue (pVamomin d a x m) s
/-- What `vamomax` posts. -/
def pVamomax (d a x : BitVec 5) (m : BitVec 3) : Posted := postAmo (wVamomax d a x m) .max d a x m
/-- `vamomax` (R596: vector atomic). -/
def execVamomax (d a x : BitVec 5) (m : BitVec 3) (s : State) : Result := issue (pVamomax d a x m) s
/-- What `vamominu` posts. -/
def pVamominu (d a x : BitVec 5) (m : BitVec 3) : Posted := postAmo (wVamominu d a x m) .minu d a x m
/-- `vamominu` (R596: vector atomic). -/
def execVamominu (d a x : BitVec 5) (m : BitVec 3) (s : State) : Result := issue (pVamominu d a x m) s
/-- What `vamomaxu` posts. -/
def pVamomaxu (d a x : BitVec 5) (m : BitVec 3) : Posted := postAmo (wVamomaxu d a x m) .maxu d a x m
/-- `vamomaxu` (R596: vector atomic). -/
def execVamomaxu (d a x : BitVec 5) (m : BitVec 3) (s : State) : Result := issue (pVamomaxu d a x m) s
/-- What `vamoswap` posts. -/
def pVamoswap (d a x : BitVec 5) (m : BitVec 3) : Posted := postAmo (wVamoswap d a x m) .swap d a x m
/-- `vamoswap` (R596: vector atomic). -/
def execVamoswap (d a x : BitVec 5) (m : BitVec 3) (s : State) : Result := issue (pVamoswap d a x m) s
/-- What `vamofadd` posts. -/
def pVamofadd (d a x : BitVec 5) (m : BitVec 3) : Posted := postAmo (wVamofadd d a x m) .fadd d a x m
/-- `vamofadd` (R596: vector atomic). -/
def execVamofadd (d a x : BitVec 5) (m : BitVec 3) (s : State) : Result := issue (pVamofadd d a x m) s
/-- What `vsca` posts. -/
def pVsca (d a x : BitVec 5) (m : BitVec 3) : Posted := postSca (wVsca d a x m) .add d a x m
/-- `vsca` (R600: scatter-accumulate). -/
def execVsca (d a x : BitVec 5) (m : BitVec 3) (s : State) : Result := issue (pVsca d a x m) s
/-- What `vscamax` posts. -/
def pVscamax (d a x : BitVec 5) (m : BitVec 3) : Posted := postSca (wVscamax d a x m) .max d a x m
/-- `vscamax` (R600: scatter-accumulate). -/
def execVscamax (d a x : BitVec 5) (m : BitVec 3) (s : State) : Result := issue (pVscamax d a x m) s
/-- What `vscamin` posts. -/
def pVscamin (d a x : BitVec 5) (m : BitVec 3) : Posted := postSca (wVscamin d a x m) .min d a x m
/-- `vscamin` (R600: scatter-accumulate). -/
def execVscamin (d a x : BitVec 5) (m : BitVec 3) (s : State) : Result := issue (pVscamin d a x m) s
/-- What `vscao` posts. -/
def pVscao (d a x : BitVec 5) (m : BitVec 3) : Posted := postSca (wVscao d a x m) .ordered d a x m
/-- `vscao` (R600: scatter-accumulate). -/
def execVscao (d a x : BitVec 5) (m : BitVec 3) (s : State) : Result := issue (pVscao d a x m) s

end Sys2Proof.Machine
end

