-- ==== Sys2Proof/Machine/Requeue.lean ====
section
/-! DEFINITION. The posted instruction that a saved word names, as a resume posts it again (R195, R197). -/

namespace Sys2Proof.Machine

/-- Major 0x21. -/
def posted21 (w : IWord) : Option Posted :=
  if w == wVld (w.extractLsb' 21 5) (w.extractLsb' 16 5) (w.extractLsb' 8 3) (w.extractLsb' 5 1) (w.extractLsb' 2 2) (w.extractLsb' 1 1) then some (pVld (w.extractLsb' 21 5) (w.extractLsb' 16 5) (w.extractLsb' 8 3) (w.extractLsb' 5 1) (w.extractLsb' 2 2) (w.extractLsb' 1 1))
  else if w == wVlds (w.extractLsb' 21 5) (w.extractLsb' 16 5) (w.extractLsb' 11 5) (w.extractLsb' 8 3) (w.extractLsb' 2 2) (w.extractLsb' 1 1) then some (pVlds (w.extractLsb' 21 5) (w.extractLsb' 16 5) (w.extractLsb' 11 5) (w.extractLsb' 8 3) (w.extractLsb' 2 2) (w.extractLsb' 1 1))
  else if w == wVldx (w.extractLsb' 21 5) (w.extractLsb' 16 5) (w.extractLsb' 11 5) (w.extractLsb' 8 3) (w.extractLsb' 2 2) (w.extractLsb' 1 1) then some (pVldx (w.extractLsb' 21 5) (w.extractLsb' 16 5) (w.extractLsb' 11 5) (w.extractLsb' 8 3) (w.extractLsb' 2 2) (w.extractLsb' 1 1))
  else if w == wVldxo (w.extractLsb' 21 5) (w.extractLsb' 16 5) (w.extractLsb' 11 5) (w.extractLsb' 8 3) (w.extractLsb' 5 1) (w.extractLsb' 2 2) (w.extractLsb' 1 1) then some (pVldxo (w.extractLsb' 21 5) (w.extractLsb' 16 5) (w.extractLsb' 11 5) (w.extractLsb' 8 3) (w.extractLsb' 5 1) (w.extractLsb' 2 2) (w.extractLsb' 1 1))
  else none

/-- Major 0x22. -/
def posted22 (w : IWord) : Option Posted :=
  if w == wVst (w.extractLsb' 21 5) (w.extractLsb' 16 5) (w.extractLsb' 8 3) (w.extractLsb' 5 1) (w.extractLsb' 4 1) (w.extractLsb' 2 2) then some (pVst (w.extractLsb' 21 5) (w.extractLsb' 16 5) (w.extractLsb' 8 3) (w.extractLsb' 5 1) (w.extractLsb' 4 1) (w.extractLsb' 2 2))
  else if w == wVsts (w.extractLsb' 21 5) (w.extractLsb' 16 5) (w.extractLsb' 11 5) (w.extractLsb' 8 3) (w.extractLsb' 4 1) (w.extractLsb' 2 2) then some (pVsts (w.extractLsb' 21 5) (w.extractLsb' 16 5) (w.extractLsb' 11 5) (w.extractLsb' 8 3) (w.extractLsb' 4 1) (w.extractLsb' 2 2))
  else if w == wVstx (w.extractLsb' 21 5) (w.extractLsb' 16 5) (w.extractLsb' 11 5) (w.extractLsb' 8 3) (w.extractLsb' 4 1) (w.extractLsb' 2 2) then some (pVstx (w.extractLsb' 21 5) (w.extractLsb' 16 5) (w.extractLsb' 11 5) (w.extractLsb' 8 3) (w.extractLsb' 4 1) (w.extractLsb' 2 2))
  else if w == wVstxo (w.extractLsb' 21 5) (w.extractLsb' 16 5) (w.extractLsb' 11 5) (w.extractLsb' 8 3) (w.extractLsb' 5 1) (w.extractLsb' 4 1) (w.extractLsb' 2 2) then some (pVstxo (w.extractLsb' 21 5) (w.extractLsb' 16 5) (w.extractLsb' 11 5) (w.extractLsb' 8 3) (w.extractLsb' 5 1) (w.extractLsb' 4 1) (w.extractLsb' 2 2))
  else none

/-- Major 0x23. -/
def posted23 (w : IWord) : Option Posted :=
  if w == wVlm (w.extractLsb' 21 3) (w.extractLsb' 16 5) then some (pVlm (w.extractLsb' 21 3) (w.extractLsb' 16 5))
  else if w == wVsm (w.extractLsb' 21 3) (w.extractLsb' 16 5) then some (pVsm (w.extractLsb' 21 3) (w.extractLsb' 16 5))
  else if w == wCapp (w.extractLsb' 21 5) (w.extractLsb' 16 5) (w.extractLsb' 11 5) (w.extractLsb' 8 3) then some (pCapp (w.extractLsb' 21 5) (w.extractLsb' 16 5) (w.extractLsb' 11 5) (w.extractLsb' 8 3))
  else if w == wGsp (w.extractLsb' 21 5) (w.extractLsb' 16 5) (w.extractLsb' 11 5) (w.extractLsb' 8 3) then some (pGsp (w.extractLsb' 21 5) (w.extractLsb' 16 5) (w.extractLsb' 11 5) (w.extractLsb' 8 3))
  else if w == wSsp (w.extractLsb' 21 5) (w.extractLsb' 16 5) (w.extractLsb' 11 5) (w.extractLsb' 8 3) then some (pSsp (w.extractLsb' 21 5) (w.extractLsb' 16 5) (w.extractLsb' 11 5) (w.extractLsb' 8 3))
  else if w == wCpy (w.extractLsb' 16 5) (w.extractLsb' 8 3) then some (pCpy (w.extractLsb' 16 5) (w.extractLsb' 8 3))
  else if w == wCpyr (w.extractLsb' 16 5) (w.extractLsb' 8 3) then some (pCpyr (w.extractLsb' 16 5) (w.extractLsb' 8 3))
  else if w == wCwait (w.extractLsb' 21 5) then some (pCwait (w.extractLsb' 21 5))
  else if w == wSbind (w.extractLsb' 21 5) (w.extractLsb' 16 5) then some (pSbind (w.extractLsb' 21 5) (w.extractLsb' 16 5))
  else if w == wSunbind (w.extractLsb' 21 5) then some (pSunbind (w.extractLsb' 21 5))
  else if w == wSpos (w.extractLsb' 21 5) (w.extractLsb' 16 5) then some (pSpos (w.extractLsb' 21 5) (w.extractLsb' 16 5))
  else none

/-- Major 0x24. -/
def posted24 (w : IWord) : Option Posted :=
  if w == wVaddVv (w.extractLsb' 21 5) (w.extractLsb' 16 5) (w.extractLsb' 11 5) (w.extractLsb' 8 3) (w.extractLsb' 6 2) then some (pVaddVv (w.extractLsb' 21 5) (w.extractLsb' 16 5) (w.extractLsb' 11 5) (w.extractLsb' 8 3) (w.extractLsb' 6 2))
  else if w == wVsubVv (w.extractLsb' 21 5) (w.extractLsb' 16 5) (w.extractLsb' 11 5) (w.extractLsb' 8 3) (w.extractLsb' 6 2) then some (pVsubVv (w.extractLsb' 21 5) (w.extractLsb' 16 5) (w.extractLsb' 11 5) (w.extractLsb' 8 3) (w.extractLsb' 6 2))
  else if w == wVmulVv (w.extractLsb' 21 5) (w.extractLsb' 16 5) (w.extractLsb' 11 5) (w.extractLsb' 8 3) (w.extractLsb' 6 2) then some (pVmulVv (w.extractLsb' 21 5) (w.extractLsb' 16 5) (w.extractLsb' 11 5) (w.extractLsb' 8 3) (w.extractLsb' 6 2))
  else if w == wVmulhVv (w.extractLsb' 21 5) (w.extractLsb' 16 5) (w.extractLsb' 11 5) (w.extractLsb' 8 3) (w.extractLsb' 6 2) then some (pVmulhVv (w.extractLsb' 21 5) (w.extractLsb' 16 5) (w.extractLsb' 11 5) (w.extractLsb' 8 3) (w.extractLsb' 6 2))
  else if w == wVmulhuVv (w.extractLsb' 21 5) (w.extractLsb' 16 5) (w.extractLsb' 11 5) (w.extractLsb' 8 3) (w.extractLsb' 6 2) then some (pVmulhuVv (w.extractLsb' 21 5) (w.extractLsb' 16 5) (w.extractLsb' 11 5) (w.extractLsb' 8 3) (w.extractLsb' 6 2))
  else if w == wVdivVv (w.extractLsb' 21 5) (w.extractLsb' 16 5) (w.extractLsb' 11 5) (w.extractLsb' 8 3) (w.extractLsb' 6 2) then some (pVdivVv (w.extractLsb' 21 5) (w.extractLsb' 16 5) (w.extractLsb' 11 5) (w.extractLsb' 8 3) (w.extractLsb' 6 2))
  else if w == wVdivuVv (w.extractLsb' 21 5) (w.extractLsb' 16 5) (w.extractLsb' 11 5) (w.extractLsb' 8 3) (w.extractLsb' 6 2) then some (pVdivuVv (w.extractLsb' 21 5) (w.extractLsb' 16 5) (w.extractLsb' 11 5) (w.extractLsb' 8 3) (w.extractLsb' 6 2))
  else if w == wVremVv (w.extractLsb' 21 5) (w.extractLsb' 16 5) (w.extractLsb' 11 5) (w.extractLsb' 8 3) (w.extractLsb' 6 2) then some (pVremVv (w.extractLsb' 21 5) (w.extractLsb' 16 5) (w.extractLsb' 11 5) (w.extractLsb' 8 3) (w.extractLsb' 6 2))
  else if w == wVremuVv (w.extractLsb' 21 5) (w.extractLsb' 16 5) (w.extractLsb' 11 5) (w.extractLsb' 8 3) (w.extractLsb' 6 2) then some (pVremuVv (w.extractLsb' 21 5) (w.extractLsb' 16 5) (w.extractLsb' 11 5) (w.extractLsb' 8 3) (w.extractLsb' 6 2))
  else if w == wVminVv (w.extractLsb' 21 5) (w.extractLsb' 16 5) (w.extractLsb' 11 5) (w.extractLsb' 8 3) (w.extractLsb' 6 2) then some (pVminVv (w.extractLsb' 21 5) (w.extractLsb' 16 5) (w.extractLsb' 11 5) (w.extractLsb' 8 3) (w.extractLsb' 6 2))
  else if w == wVmaxVv (w.extractLsb' 21 5) (w.extractLsb' 16 5) (w.extractLsb' 11 5) (w.extractLsb' 8 3) (w.extractLsb' 6 2) then some (pVmaxVv (w.extractLsb' 21 5) (w.extractLsb' 16 5) (w.extractLsb' 11 5) (w.extractLsb' 8 3) (w.extractLsb' 6 2))
  else if w == wVminuVv (w.extractLsb' 21 5) (w.extractLsb' 16 5) (w.extractLsb' 11 5) (w.extractLsb' 8 3) (w.extractLsb' 6 2) then some (pVminuVv (w.extractLsb' 21 5) (w.extractLsb' 16 5) (w.extractLsb' 11 5) (w.extractLsb' 8 3) (w.extractLsb' 6 2))
  else if w == wVmaxuVv (w.extractLsb' 21 5) (w.extractLsb' 16 5) (w.extractLsb' 11 5) (w.extractLsb' 8 3) (w.extractLsb' 6 2) then some (pVmaxuVv (w.extractLsb' 21 5) (w.extractLsb' 16 5) (w.extractLsb' 11 5) (w.extractLsb' 8 3) (w.extractLsb' 6 2))
  else if w == wVandVv (w.extractLsb' 21 5) (w.extractLsb' 16 5) (w.extractLsb' 11 5) (w.extractLsb' 8 3) (w.extractLsb' 6 2) then some (pVandVv (w.extractLsb' 21 5) (w.extractLsb' 16 5) (w.extractLsb' 11 5) (w.extractLsb' 8 3) (w.extractLsb' 6 2))
  else if w == wVorVv (w.extractLsb' 21 5) (w.extractLsb' 16 5) (w.extractLsb' 11 5) (w.extractLsb' 8 3) (w.extractLsb' 6 2) then some (pVorVv (w.extractLsb' 21 5) (w.extractLsb' 16 5) (w.extractLsb' 11 5) (w.extractLsb' 8 3) (w.extractLsb' 6 2))
  else if w == wVxorVv (w.extractLsb' 21 5) (w.extractLsb' 16 5) (w.extractLsb' 11 5) (w.extractLsb' 8 3) (w.extractLsb' 6 2) then some (pVxorVv (w.extractLsb' 21 5) (w.extractLsb' 16 5) (w.extractLsb' 11 5) (w.extractLsb' 8 3) (w.extractLsb' 6 2))
  else if w == wVsllVv (w.extractLsb' 21 5) (w.extractLsb' 16 5) (w.extractLsb' 11 5) (w.extractLsb' 8 3) (w.extractLsb' 6 2) then some (pVsllVv (w.extractLsb' 21 5) (w.extractLsb' 16 5) (w.extractLsb' 11 5) (w.extractLsb' 8 3) (w.extractLsb' 6 2))
  else if w == wVsrlVv (w.extractLsb' 21 5) (w.extractLsb' 16 5) (w.extractLsb' 11 5) (w.extractLsb' 8 3) (w.extractLsb' 6 2) then some (pVsrlVv (w.extractLsb' 21 5) (w.extractLsb' 16 5) (w.extractLsb' 11 5) (w.extractLsb' 8 3) (w.extractLsb' 6 2))
  else if w == wVsraVv (w.extractLsb' 21 5) (w.extractLsb' 16 5) (w.extractLsb' 11 5) (w.extractLsb' 8 3) (w.extractLsb' 6 2) then some (pVsraVv (w.extractLsb' 21 5) (w.extractLsb' 16 5) (w.extractLsb' 11 5) (w.extractLsb' 8 3) (w.extractLsb' 6 2))
  else if w == wVsaddVv (w.extractLsb' 21 5) (w.extractLsb' 16 5) (w.extractLsb' 11 5) (w.extractLsb' 8 3) (w.extractLsb' 6 2) then some (pVsaddVv (w.extractLsb' 21 5) (w.extractLsb' 16 5) (w.extractLsb' 11 5) (w.extractLsb' 8 3) (w.extractLsb' 6 2))
  else if w == wVsadduVv (w.extractLsb' 21 5) (w.extractLsb' 16 5) (w.extractLsb' 11 5) (w.extractLsb' 8 3) (w.extractLsb' 6 2) then some (pVsadduVv (w.extractLsb' 21 5) (w.extractLsb' 16 5) (w.extractLsb' 11 5) (w.extractLsb' 8 3) (w.extractLsb' 6 2))
  else if w == wVssubVv (w.extractLsb' 21 5) (w.extractLsb' 16 5) (w.extractLsb' 11 5) (w.extractLsb' 8 3) (w.extractLsb' 6 2) then some (pVssubVv (w.extractLsb' 21 5) (w.extractLsb' 16 5) (w.extractLsb' 11 5) (w.extractLsb' 8 3) (w.extractLsb' 6 2))
  else if w == wVssubuVv (w.extractLsb' 21 5) (w.extractLsb' 16 5) (w.extractLsb' 11 5) (w.extractLsb' 8 3) (w.extractLsb' 6 2) then some (pVssubuVv (w.extractLsb' 21 5) (w.extractLsb' 16 5) (w.extractLsb' 11 5) (w.extractLsb' 8 3) (w.extractLsb' 6 2))
  else if w == wVmaccVv (w.extractLsb' 21 5) (w.extractLsb' 16 5) (w.extractLsb' 11 5) (w.extractLsb' 8 3) (w.extractLsb' 6 2) then some (pVmaccVv (w.extractLsb' 21 5) (w.extractLsb' 16 5) (w.extractLsb' 11 5) (w.extractLsb' 8 3) (w.extractLsb' 6 2))
  else if w == wVselVv (w.extractLsb' 21 5) (w.extractLsb' 16 5) (w.extractLsb' 11 5) (w.extractLsb' 8 3) (w.extractLsb' 6 2) then some (pVselVv (w.extractLsb' 21 5) (w.extractLsb' 16 5) (w.extractLsb' 11 5) (w.extractLsb' 8 3) (w.extractLsb' 6 2))
  else if w == wVextVv (w.extractLsb' 21 5) (w.extractLsb' 16 5) (w.extractLsb' 11 5) (w.extractLsb' 8 3) (w.extractLsb' 6 2) then some (pVextVv (w.extractLsb' 21 5) (w.extractLsb' 16 5) (w.extractLsb' 11 5) (w.extractLsb' 8 3) (w.extractLsb' 6 2))
  else if w == wVinsVv (w.extractLsb' 21 5) (w.extractLsb' 16 5) (w.extractLsb' 11 5) (w.extractLsb' 8 3) (w.extractLsb' 6 2) then some (pVinsVv (w.extractLsb' 21 5) (w.extractLsb' 16 5) (w.extractLsb' 11 5) (w.extractLsb' 8 3) (w.extractLsb' 6 2))
  else if w == wVabsdVv (w.extractLsb' 21 5) (w.extractLsb' 16 5) (w.extractLsb' 11 5) (w.extractLsb' 8 3) (w.extractLsb' 6 2) then some (pVabsdVv (w.extractLsb' 21 5) (w.extractLsb' 16 5) (w.extractLsb' 11 5) (w.extractLsb' 8 3) (w.extractLsb' 6 2))
  else if w == wVabs (w.extractLsb' 21 5) (w.extractLsb' 16 5) (w.extractLsb' 8 3) then some (pVabs (w.extractLsb' 21 5) (w.extractLsb' 16 5) (w.extractLsb' 8 3))
  else if w == wVmvVv (w.extractLsb' 21 5) (w.extractLsb' 16 5) (w.extractLsb' 8 3) then some (pVmvVv (w.extractLsb' 21 5) (w.extractLsb' 16 5) (w.extractLsb' 8 3))
  else if w == wVpopc (w.extractLsb' 21 5) (w.extractLsb' 16 5) (w.extractLsb' 8 3) then some (pVpopc (w.extractLsb' 21 5) (w.extractLsb' 16 5) (w.extractLsb' 8 3))
  else if w == wVclz (w.extractLsb' 21 5) (w.extractLsb' 16 5) (w.extractLsb' 8 3) then some (pVclz (w.extractLsb' 21 5) (w.extractLsb' 16 5) (w.extractLsb' 8 3))
  else if w == wVpcp (w.extractLsb' 21 5) (w.extractLsb' 16 5) (w.extractLsb' 8 3) then some (pVpcp (w.extractLsb' 21 5) (w.extractLsb' 16 5) (w.extractLsb' 8 3))
  else if w == wVid (w.extractLsb' 21 5) (w.extractLsb' 8 3) then some (pVid (w.extractLsb' 21 5) (w.extractLsb' 8 3))
  else none

/-- Major 0x25. -/
def posted25 (w : IWord) : Option Posted :=
  if w == wVaddVx (w.extractLsb' 21 5) (w.extractLsb' 16 5) (w.extractLsb' 11 5) (w.extractLsb' 8 3) then some (pVaddVx (w.extractLsb' 21 5) (w.extractLsb' 16 5) (w.extractLsb' 11 5) (w.extractLsb' 8 3))
  else if w == wVsubVx (w.extractLsb' 21 5) (w.extractLsb' 16 5) (w.extractLsb' 11 5) (w.extractLsb' 8 3) then some (pVsubVx (w.extractLsb' 21 5) (w.extractLsb' 16 5) (w.extractLsb' 11 5) (w.extractLsb' 8 3))
  else if w == wVrsubVx (w.extractLsb' 21 5) (w.extractLsb' 16 5) (w.extractLsb' 11 5) (w.extractLsb' 8 3) then some (pVrsubVx (w.extractLsb' 21 5) (w.extractLsb' 16 5) (w.extractLsb' 11 5) (w.extractLsb' 8 3))
  else if w == wVmulVx (w.extractLsb' 21 5) (w.extractLsb' 16 5) (w.extractLsb' 11 5) (w.extractLsb' 8 3) then some (pVmulVx (w.extractLsb' 21 5) (w.extractLsb' 16 5) (w.extractLsb' 11 5) (w.extractLsb' 8 3))
  else if w == wVmulhVx (w.extractLsb' 21 5) (w.extractLsb' 16 5) (w.extractLsb' 11 5) (w.extractLsb' 8 3) then some (pVmulhVx (w.extractLsb' 21 5) (w.extractLsb' 16 5) (w.extractLsb' 11 5) (w.extractLsb' 8 3))
  else if w == wVmulhuVx (w.extractLsb' 21 5) (w.extractLsb' 16 5) (w.extractLsb' 11 5) (w.extractLsb' 8 3) then some (pVmulhuVx (w.extractLsb' 21 5) (w.extractLsb' 16 5) (w.extractLsb' 11 5) (w.extractLsb' 8 3))
  else if w == wVdivVx (w.extractLsb' 21 5) (w.extractLsb' 16 5) (w.extractLsb' 11 5) (w.extractLsb' 8 3) then some (pVdivVx (w.extractLsb' 21 5) (w.extractLsb' 16 5) (w.extractLsb' 11 5) (w.extractLsb' 8 3))
  else if w == wVdivuVx (w.extractLsb' 21 5) (w.extractLsb' 16 5) (w.extractLsb' 11 5) (w.extractLsb' 8 3) then some (pVdivuVx (w.extractLsb' 21 5) (w.extractLsb' 16 5) (w.extractLsb' 11 5) (w.extractLsb' 8 3))
  else if w == wVremVx (w.extractLsb' 21 5) (w.extractLsb' 16 5) (w.extractLsb' 11 5) (w.extractLsb' 8 3) then some (pVremVx (w.extractLsb' 21 5) (w.extractLsb' 16 5) (w.extractLsb' 11 5) (w.extractLsb' 8 3))
  else if w == wVremuVx (w.extractLsb' 21 5) (w.extractLsb' 16 5) (w.extractLsb' 11 5) (w.extractLsb' 8 3) then some (pVremuVx (w.extractLsb' 21 5) (w.extractLsb' 16 5) (w.extractLsb' 11 5) (w.extractLsb' 8 3))
  else if w == wVminVx (w.extractLsb' 21 5) (w.extractLsb' 16 5) (w.extractLsb' 11 5) (w.extractLsb' 8 3) then some (pVminVx (w.extractLsb' 21 5) (w.extractLsb' 16 5) (w.extractLsb' 11 5) (w.extractLsb' 8 3))
  else if w == wVmaxVx (w.extractLsb' 21 5) (w.extractLsb' 16 5) (w.extractLsb' 11 5) (w.extractLsb' 8 3) then some (pVmaxVx (w.extractLsb' 21 5) (w.extractLsb' 16 5) (w.extractLsb' 11 5) (w.extractLsb' 8 3))
  else if w == wVminuVx (w.extractLsb' 21 5) (w.extractLsb' 16 5) (w.extractLsb' 11 5) (w.extractLsb' 8 3) then some (pVminuVx (w.extractLsb' 21 5) (w.extractLsb' 16 5) (w.extractLsb' 11 5) (w.extractLsb' 8 3))
  else if w == wVmaxuVx (w.extractLsb' 21 5) (w.extractLsb' 16 5) (w.extractLsb' 11 5) (w.extractLsb' 8 3) then some (pVmaxuVx (w.extractLsb' 21 5) (w.extractLsb' 16 5) (w.extractLsb' 11 5) (w.extractLsb' 8 3))
  else if w == wVandVx (w.extractLsb' 21 5) (w.extractLsb' 16 5) (w.extractLsb' 11 5) (w.extractLsb' 8 3) then some (pVandVx (w.extractLsb' 21 5) (w.extractLsb' 16 5) (w.extractLsb' 11 5) (w.extractLsb' 8 3))
  else if w == wVorVx (w.extractLsb' 21 5) (w.extractLsb' 16 5) (w.extractLsb' 11 5) (w.extractLsb' 8 3) then some (pVorVx (w.extractLsb' 21 5) (w.extractLsb' 16 5) (w.extractLsb' 11 5) (w.extractLsb' 8 3))
  else if w == wVxorVx (w.extractLsb' 21 5) (w.extractLsb' 16 5) (w.extractLsb' 11 5) (w.extractLsb' 8 3) then some (pVxorVx (w.extractLsb' 21 5) (w.extractLsb' 16 5) (w.extractLsb' 11 5) (w.extractLsb' 8 3))
  else if w == wVsllVx (w.extractLsb' 21 5) (w.extractLsb' 16 5) (w.extractLsb' 11 5) (w.extractLsb' 8 3) then some (pVsllVx (w.extractLsb' 21 5) (w.extractLsb' 16 5) (w.extractLsb' 11 5) (w.extractLsb' 8 3))
  else if w == wVsrlVx (w.extractLsb' 21 5) (w.extractLsb' 16 5) (w.extractLsb' 11 5) (w.extractLsb' 8 3) then some (pVsrlVx (w.extractLsb' 21 5) (w.extractLsb' 16 5) (w.extractLsb' 11 5) (w.extractLsb' 8 3))
  else if w == wVsraVx (w.extractLsb' 21 5) (w.extractLsb' 16 5) (w.extractLsb' 11 5) (w.extractLsb' 8 3) then some (pVsraVx (w.extractLsb' 21 5) (w.extractLsb' 16 5) (w.extractLsb' 11 5) (w.extractLsb' 8 3))
  else if w == wVsaddVx (w.extractLsb' 21 5) (w.extractLsb' 16 5) (w.extractLsb' 11 5) (w.extractLsb' 8 3) then some (pVsaddVx (w.extractLsb' 21 5) (w.extractLsb' 16 5) (w.extractLsb' 11 5) (w.extractLsb' 8 3))
  else if w == wVsadduVx (w.extractLsb' 21 5) (w.extractLsb' 16 5) (w.extractLsb' 11 5) (w.extractLsb' 8 3) then some (pVsadduVx (w.extractLsb' 21 5) (w.extractLsb' 16 5) (w.extractLsb' 11 5) (w.extractLsb' 8 3))
  else if w == wVssubVx (w.extractLsb' 21 5) (w.extractLsb' 16 5) (w.extractLsb' 11 5) (w.extractLsb' 8 3) then some (pVssubVx (w.extractLsb' 21 5) (w.extractLsb' 16 5) (w.extractLsb' 11 5) (w.extractLsb' 8 3))
  else if w == wVssubuVx (w.extractLsb' 21 5) (w.extractLsb' 16 5) (w.extractLsb' 11 5) (w.extractLsb' 8 3) then some (pVssubuVx (w.extractLsb' 21 5) (w.extractLsb' 16 5) (w.extractLsb' 11 5) (w.extractLsb' 8 3))
  else if w == wVmaccVx (w.extractLsb' 21 5) (w.extractLsb' 16 5) (w.extractLsb' 11 5) (w.extractLsb' 8 3) then some (pVmaccVx (w.extractLsb' 21 5) (w.extractLsb' 16 5) (w.extractLsb' 11 5) (w.extractLsb' 8 3))
  else if w == wVselVx (w.extractLsb' 21 5) (w.extractLsb' 16 5) (w.extractLsb' 11 5) (w.extractLsb' 8 3) then some (pVselVx (w.extractLsb' 21 5) (w.extractLsb' 16 5) (w.extractLsb' 11 5) (w.extractLsb' 8 3))
  else if w == wVextVx (w.extractLsb' 21 5) (w.extractLsb' 16 5) (w.extractLsb' 11 5) (w.extractLsb' 8 3) then some (pVextVx (w.extractLsb' 21 5) (w.extractLsb' 16 5) (w.extractLsb' 11 5) (w.extractLsb' 8 3))
  else if w == wVinsVx (w.extractLsb' 21 5) (w.extractLsb' 16 5) (w.extractLsb' 11 5) (w.extractLsb' 8 3) then some (pVinsVx (w.extractLsb' 21 5) (w.extractLsb' 16 5) (w.extractLsb' 11 5) (w.extractLsb' 8 3))
  else if w == wVabsdVx (w.extractLsb' 21 5) (w.extractLsb' 16 5) (w.extractLsb' 11 5) (w.extractLsb' 8 3) then some (pVabsdVx (w.extractLsb' 21 5) (w.extractLsb' 16 5) (w.extractLsb' 11 5) (w.extractLsb' 8 3))
  else if w == wVmvVx (w.extractLsb' 21 5) (w.extractLsb' 11 5) (w.extractLsb' 8 3) then some (pVmvVx (w.extractLsb' 21 5) (w.extractLsb' 11 5) (w.extractLsb' 8 3))
  else none

/-- Major 0x26. -/
def posted26 (w : IWord) : Option Posted :=
  if w == wVfaddVv (w.extractLsb' 21 5) (w.extractLsb' 16 5) (w.extractLsb' 11 5) (w.extractLsb' 8 3) (w.extractLsb' 6 2) then some (pVfaddVv (w.extractLsb' 21 5) (w.extractLsb' 16 5) (w.extractLsb' 11 5) (w.extractLsb' 8 3) (w.extractLsb' 6 2))
  else if w == wVfsubVv (w.extractLsb' 21 5) (w.extractLsb' 16 5) (w.extractLsb' 11 5) (w.extractLsb' 8 3) (w.extractLsb' 6 2) then some (pVfsubVv (w.extractLsb' 21 5) (w.extractLsb' 16 5) (w.extractLsb' 11 5) (w.extractLsb' 8 3) (w.extractLsb' 6 2))
  else if w == wVfmulVv (w.extractLsb' 21 5) (w.extractLsb' 16 5) (w.extractLsb' 11 5) (w.extractLsb' 8 3) (w.extractLsb' 6 2) then some (pVfmulVv (w.extractLsb' 21 5) (w.extractLsb' 16 5) (w.extractLsb' 11 5) (w.extractLsb' 8 3) (w.extractLsb' 6 2))
  else if w == wVfdivVv (w.extractLsb' 21 5) (w.extractLsb' 16 5) (w.extractLsb' 11 5) (w.extractLsb' 8 3) (w.extractLsb' 6 2) then some (pVfdivVv (w.extractLsb' 21 5) (w.extractLsb' 16 5) (w.extractLsb' 11 5) (w.extractLsb' 8 3) (w.extractLsb' 6 2))
  else if w == wVfmaVv (w.extractLsb' 21 5) (w.extractLsb' 16 5) (w.extractLsb' 11 5) (w.extractLsb' 8 3) (w.extractLsb' 6 2) then some (pVfmaVv (w.extractLsb' 21 5) (w.extractLsb' 16 5) (w.extractLsb' 11 5) (w.extractLsb' 8 3) (w.extractLsb' 6 2))
  else if w == wVfmsVv (w.extractLsb' 21 5) (w.extractLsb' 16 5) (w.extractLsb' 11 5) (w.extractLsb' 8 3) (w.extractLsb' 6 2) then some (pVfmsVv (w.extractLsb' 21 5) (w.extractLsb' 16 5) (w.extractLsb' 11 5) (w.extractLsb' 8 3) (w.extractLsb' 6 2))
  else if w == wVfnmaVv (w.extractLsb' 21 5) (w.extractLsb' 16 5) (w.extractLsb' 11 5) (w.extractLsb' 8 3) (w.extractLsb' 6 2) then some (pVfnmaVv (w.extractLsb' 21 5) (w.extractLsb' 16 5) (w.extractLsb' 11 5) (w.extractLsb' 8 3) (w.extractLsb' 6 2))
  else if w == wVfminVv (w.extractLsb' 21 5) (w.extractLsb' 16 5) (w.extractLsb' 11 5) (w.extractLsb' 8 3) (w.extractLsb' 6 2) then some (pVfminVv (w.extractLsb' 21 5) (w.extractLsb' 16 5) (w.extractLsb' 11 5) (w.extractLsb' 8 3) (w.extractLsb' 6 2))
  else if w == wVfmaxVv (w.extractLsb' 21 5) (w.extractLsb' 16 5) (w.extractLsb' 11 5) (w.extractLsb' 8 3) (w.extractLsb' 6 2) then some (pVfmaxVv (w.extractLsb' 21 5) (w.extractLsb' 16 5) (w.extractLsb' 11 5) (w.extractLsb' 8 3) (w.extractLsb' 6 2))
  else if w == wVfsgnVv (w.extractLsb' 21 5) (w.extractLsb' 16 5) (w.extractLsb' 11 5) (w.extractLsb' 8 3) (w.extractLsb' 6 2) then some (pVfsgnVv (w.extractLsb' 21 5) (w.extractLsb' 16 5) (w.extractLsb' 11 5) (w.extractLsb' 8 3) (w.extractLsb' 6 2))
  else if w == wVfsqrt (w.extractLsb' 21 5) (w.extractLsb' 16 5) (w.extractLsb' 8 3) then some (pVfsqrt (w.extractLsb' 21 5) (w.extractLsb' 16 5) (w.extractLsb' 8 3))
  else if w == wVfabs (w.extractLsb' 21 5) (w.extractLsb' 16 5) (w.extractLsb' 8 3) then some (pVfabs (w.extractLsb' 21 5) (w.extractLsb' 16 5) (w.extractLsb' 8 3))
  else if w == wVfneg (w.extractLsb' 21 5) (w.extractLsb' 16 5) (w.extractLsb' 8 3) then some (pVfneg (w.extractLsb' 21 5) (w.extractLsb' 16 5) (w.extractLsb' 8 3))
  else if w == wVfrcp (w.extractLsb' 21 5) (w.extractLsb' 16 5) (w.extractLsb' 8 3) then some (pVfrcp (w.extractLsb' 21 5) (w.extractLsb' 16 5) (w.extractLsb' 8 3))
  else if w == wVfrsqrt (w.extractLsb' 21 5) (w.extractLsb' 16 5) (w.extractLsb' 8 3) then some (pVfrsqrt (w.extractLsb' 21 5) (w.extractLsb' 16 5) (w.extractLsb' 8 3))
  else if w == wVfclass (w.extractLsb' 21 5) (w.extractLsb' 16 5) (w.extractLsb' 8 3) then some (pVfclass (w.extractLsb' 21 5) (w.extractLsb' 16 5) (w.extractLsb' 8 3))
  else if w == wVfexp2 (w.extractLsb' 21 5) (w.extractLsb' 16 5) (w.extractLsb' 8 3) then some (pVfexp2 (w.extractLsb' 21 5) (w.extractLsb' 16 5) (w.extractLsb' 8 3))
  else if w == wVflog2 (w.extractLsb' 21 5) (w.extractLsb' 16 5) (w.extractLsb' 8 3) then some (pVflog2 (w.extractLsb' 21 5) (w.extractLsb' 16 5) (w.extractLsb' 8 3))
  else if w == wVfsat (w.extractLsb' 21 5) (w.extractLsb' 16 5) (w.extractLsb' 8 3) then some (pVfsat (w.extractLsb' 21 5) (w.extractLsb' 16 5) (w.extractLsb' 8 3))
  else none

/-- Major 0x27. -/
def posted27 (w : IWord) : Option Posted :=
  if w == wVfaddVx (w.extractLsb' 21 5) (w.extractLsb' 16 5) (w.extractLsb' 11 5) (w.extractLsb' 8 3) then some (pVfaddVx (w.extractLsb' 21 5) (w.extractLsb' 16 5) (w.extractLsb' 11 5) (w.extractLsb' 8 3))
  else if w == wVfsubVx (w.extractLsb' 21 5) (w.extractLsb' 16 5) (w.extractLsb' 11 5) (w.extractLsb' 8 3) then some (pVfsubVx (w.extractLsb' 21 5) (w.extractLsb' 16 5) (w.extractLsb' 11 5) (w.extractLsb' 8 3))
  else if w == wVfrsubVx (w.extractLsb' 21 5) (w.extractLsb' 16 5) (w.extractLsb' 11 5) (w.extractLsb' 8 3) then some (pVfrsubVx (w.extractLsb' 21 5) (w.extractLsb' 16 5) (w.extractLsb' 11 5) (w.extractLsb' 8 3))
  else if w == wVfmulVx (w.extractLsb' 21 5) (w.extractLsb' 16 5) (w.extractLsb' 11 5) (w.extractLsb' 8 3) then some (pVfmulVx (w.extractLsb' 21 5) (w.extractLsb' 16 5) (w.extractLsb' 11 5) (w.extractLsb' 8 3))
  else if w == wVfdivVx (w.extractLsb' 21 5) (w.extractLsb' 16 5) (w.extractLsb' 11 5) (w.extractLsb' 8 3) then some (pVfdivVx (w.extractLsb' 21 5) (w.extractLsb' 16 5) (w.extractLsb' 11 5) (w.extractLsb' 8 3))
  else if w == wVfrdivVx (w.extractLsb' 21 5) (w.extractLsb' 16 5) (w.extractLsb' 11 5) (w.extractLsb' 8 3) then some (pVfrdivVx (w.extractLsb' 21 5) (w.extractLsb' 16 5) (w.extractLsb' 11 5) (w.extractLsb' 8 3))
  else if w == wVfmaVx (w.extractLsb' 21 5) (w.extractLsb' 16 5) (w.extractLsb' 11 5) (w.extractLsb' 8 3) then some (pVfmaVx (w.extractLsb' 21 5) (w.extractLsb' 16 5) (w.extractLsb' 11 5) (w.extractLsb' 8 3))
  else if w == wVfmsVx (w.extractLsb' 21 5) (w.extractLsb' 16 5) (w.extractLsb' 11 5) (w.extractLsb' 8 3) then some (pVfmsVx (w.extractLsb' 21 5) (w.extractLsb' 16 5) (w.extractLsb' 11 5) (w.extractLsb' 8 3))
  else if w == wVfnmaVx (w.extractLsb' 21 5) (w.extractLsb' 16 5) (w.extractLsb' 11 5) (w.extractLsb' 8 3) then some (pVfnmaVx (w.extractLsb' 21 5) (w.extractLsb' 16 5) (w.extractLsb' 11 5) (w.extractLsb' 8 3))
  else if w == wVfminVx (w.extractLsb' 21 5) (w.extractLsb' 16 5) (w.extractLsb' 11 5) (w.extractLsb' 8 3) then some (pVfminVx (w.extractLsb' 21 5) (w.extractLsb' 16 5) (w.extractLsb' 11 5) (w.extractLsb' 8 3))
  else if w == wVfmaxVx (w.extractLsb' 21 5) (w.extractLsb' 16 5) (w.extractLsb' 11 5) (w.extractLsb' 8 3) then some (pVfmaxVx (w.extractLsb' 21 5) (w.extractLsb' 16 5) (w.extractLsb' 11 5) (w.extractLsb' 8 3))
  else if w == wVfsgnVx (w.extractLsb' 21 5) (w.extractLsb' 16 5) (w.extractLsb' 11 5) (w.extractLsb' 8 3) then some (pVfsgnVx (w.extractLsb' 21 5) (w.extractLsb' 16 5) (w.extractLsb' 11 5) (w.extractLsb' 8 3))
  else none

/-- Major 0x28. -/
def posted28 (w : IWord) : Option Posted :=
  if w == wVcmpVv (w.extractLsb' 21 3) (w.extractLsb' 16 5) (w.extractLsb' 11 5) (w.extractLsb' 8 3) (w.extractLsb' 6 2) (w.extractLsb' 3 3) (w.extractLsb' 1 2) then some (pVcmpVv (w.extractLsb' 21 3) (w.extractLsb' 16 5) (w.extractLsb' 11 5) (w.extractLsb' 8 3) (w.extractLsb' 6 2) (w.extractLsb' 3 3) (w.extractLsb' 1 2))
  else if w == wVcmpVx (w.extractLsb' 21 3) (w.extractLsb' 16 5) (w.extractLsb' 11 5) (w.extractLsb' 8 3) (w.extractLsb' 3 3) (w.extractLsb' 1 2) then some (pVcmpVx (w.extractLsb' 21 3) (w.extractLsb' 16 5) (w.extractLsb' 11 5) (w.extractLsb' 8 3) (w.extractLsb' 3 3) (w.extractLsb' 1 2))
  else none

/-- Major 0x29. -/
def posted29 (w : IWord) : Option Posted :=
  if w == wMand (w.extractLsb' 21 3) (w.extractLsb' 16 3) (w.extractLsb' 11 3) (w.extractLsb' 8 3) then some (pMand (w.extractLsb' 21 3) (w.extractLsb' 16 3) (w.extractLsb' 11 3) (w.extractLsb' 8 3))
  else if w == wMor (w.extractLsb' 21 3) (w.extractLsb' 16 3) (w.extractLsb' 11 3) (w.extractLsb' 8 3) then some (pMor (w.extractLsb' 21 3) (w.extractLsb' 16 3) (w.extractLsb' 11 3) (w.extractLsb' 8 3))
  else if w == wMxor (w.extractLsb' 21 3) (w.extractLsb' 16 3) (w.extractLsb' 11 3) (w.extractLsb' 8 3) then some (pMxor (w.extractLsb' 21 3) (w.extractLsb' 16 3) (w.extractLsb' 11 3) (w.extractLsb' 8 3))
  else if w == wMandn (w.extractLsb' 21 3) (w.extractLsb' 16 3) (w.extractLsb' 11 3) (w.extractLsb' 8 3) then some (pMandn (w.extractLsb' 21 3) (w.extractLsb' 16 3) (w.extractLsb' 11 3) (w.extractLsb' 8 3))
  else if w == wMnot (w.extractLsb' 21 3) (w.extractLsb' 16 3) (w.extractLsb' 8 3) then some (pMnot (w.extractLsb' 21 3) (w.extractLsb' 16 3) (w.extractLsb' 8 3))
  else if w == wMmv (w.extractLsb' 21 3) (w.extractLsb' 16 3) (w.extractLsb' 8 3) then some (pMmv (w.extractLsb' 21 3) (w.extractLsb' 16 3) (w.extractLsb' 8 3))
  else if w == wMbefore (w.extractLsb' 21 3) (w.extractLsb' 16 3) (w.extractLsb' 8 3) then some (pMbefore (w.extractLsb' 21 3) (w.extractLsb' 16 3) (w.extractLsb' 8 3))
  else if w == wMincl (w.extractLsb' 21 3) (w.extractLsb' 16 3) (w.extractLsb' 8 3) then some (pMincl (w.extractLsb' 21 3) (w.extractLsb' 16 3) (w.extractLsb' 8 3))
  else if w == wMonly (w.extractLsb' 21 3) (w.extractLsb' 16 3) (w.extractLsb' 8 3) then some (pMonly (w.extractLsb' 21 3) (w.extractLsb' 16 3) (w.extractLsb' 8 3))
  else if w == wMset (w.extractLsb' 21 3) (w.extractLsb' 8 3) then some (pMset (w.extractLsb' 21 3) (w.extractLsb' 8 3))
  else if w == wMclr (w.extractLsb' 21 3) (w.extractLsb' 8 3) then some (pMclr (w.extractLsb' 21 3) (w.extractLsb' 8 3))
  else if w == wMpop (w.extractLsb' 21 5) (w.extractLsb' 16 3) (w.extractLsb' 8 3) then some (pMpop (w.extractLsb' 21 5) (w.extractLsb' 16 3) (w.extractLsb' 8 3))
  else if w == wMfirst (w.extractLsb' 21 5) (w.extractLsb' 16 3) (w.extractLsb' 8 3) then some (pMfirst (w.extractLsb' 21 5) (w.extractLsb' 16 3) (w.extractLsb' 8 3))
  else if w == wMlast (w.extractLsb' 21 5) (w.extractLsb' 16 3) (w.extractLsb' 8 3) then some (pMlast (w.extractLsb' 21 5) (w.extractLsb' 16 3) (w.extractLsb' 8 3))
  else if w == wMtov (w.extractLsb' 21 5) (w.extractLsb' 16 3) (w.extractLsb' 8 3) then some (pMtov (w.extractLsb' 21 5) (w.extractLsb' 16 3) (w.extractLsb' 8 3))
  else if w == wVtom (w.extractLsb' 21 3) (w.extractLsb' 16 5) (w.extractLsb' 8 3) then some (pVtom (w.extractLsb' 21 3) (w.extractLsb' 16 5) (w.extractLsb' 8 3))
  else none

/-- Major 0x2a. -/
def posted2A (w : IWord) : Option Posted :=
  if w == wVcompress (w.extractLsb' 21 5) (w.extractLsb' 16 5) (w.extractLsb' 8 3) then some (pVcompress (w.extractLsb' 21 5) (w.extractLsb' 16 5) (w.extractLsb' 8 3))
  else if w == wVexpand (w.extractLsb' 21 5) (w.extractLsb' 16 5) (w.extractLsb' 8 3) then some (pVexpand (w.extractLsb' 21 5) (w.extractLsb' 16 5) (w.extractLsb' 8 3))
  else if w == wVrev (w.extractLsb' 21 5) (w.extractLsb' 16 5) (w.extractLsb' 8 3) then some (pVrev (w.extractLsb' 21 5) (w.extractLsb' 16 5) (w.extractLsb' 8 3))
  else if w == wVtr (w.extractLsb' 21 5) (w.extractLsb' 16 5) (w.extractLsb' 8 3) then some (pVtr (w.extractLsb' 21 5) (w.extractLsb' 16 5) (w.extractLsb' 8 3))
  else if w == wVunzip (w.extractLsb' 21 5) (w.extractLsb' 16 5) (w.extractLsb' 8 3) then some (pVunzip (w.extractLsb' 21 5) (w.extractLsb' 16 5) (w.extractLsb' 8 3))
  else if w == wVgath (w.extractLsb' 21 5) (w.extractLsb' 16 5) (w.extractLsb' 11 5) (w.extractLsb' 8 3) then some (pVgath (w.extractLsb' 21 5) (w.extractLsb' 16 5) (w.extractLsb' 11 5) (w.extractLsb' 8 3))
  else if w == wVzip (w.extractLsb' 21 5) (w.extractLsb' 16 5) (w.extractLsb' 11 5) (w.extractLsb' 8 3) then some (pVzip (w.extractLsb' 21 5) (w.extractLsb' 16 5) (w.extractLsb' 11 5) (w.extractLsb' 8 3))
  else if w == wVslideup (w.extractLsb' 21 5) (w.extractLsb' 16 5) (w.extractLsb' 11 5) (w.extractLsb' 8 3) then some (pVslideup (w.extractLsb' 21 5) (w.extractLsb' 16 5) (w.extractLsb' 11 5) (w.extractLsb' 8 3))
  else if w == wVslidedn (w.extractLsb' 21 5) (w.extractLsb' 16 5) (w.extractLsb' 11 5) (w.extractLsb' 8 3) then some (pVslidedn (w.extractLsb' 21 5) (w.extractLsb' 16 5) (w.extractLsb' 11 5) (w.extractLsb' 8 3))
  else if w == wVrowmv (w.extractLsb' 21 5) (w.extractLsb' 16 5) (w.extractLsb' 11 5) (w.extractLsb' 8 3) then some (pVrowmv (w.extractLsb' 21 5) (w.extractLsb' 16 5) (w.extractLsb' 11 5) (w.extractLsb' 8 3))
  else if w == wVrelay (w.extractLsb' 21 5) then some (pVrelay (w.extractLsb' 21 5))
  else none

/-- Major 0x2b. -/
def posted2B (w : IWord) : Option Posted :=
  if w == wVredsum (w.extractLsb' 21 5) (w.extractLsb' 16 5) (w.extractLsb' 11 5) (w.extractLsb' 8 3) then some (pVredsum (w.extractLsb' 21 5) (w.extractLsb' 16 5) (w.extractLsb' 11 5) (w.extractLsb' 8 3))
  else if w == wVredsumt (w.extractLsb' 21 5) (w.extractLsb' 16 5) (w.extractLsb' 11 5) (w.extractLsb' 8 3) then some (pVredsumt (w.extractLsb' 21 5) (w.extractLsb' 16 5) (w.extractLsb' 11 5) (w.extractLsb' 8 3))
  else if w == wVredmin (w.extractLsb' 21 5) (w.extractLsb' 16 5) (w.extractLsb' 11 5) (w.extractLsb' 8 3) then some (pVredmin (w.extractLsb' 21 5) (w.extractLsb' 16 5) (w.extractLsb' 11 5) (w.extractLsb' 8 3))
  else if w == wVredmax (w.extractLsb' 21 5) (w.extractLsb' 16 5) (w.extractLsb' 11 5) (w.extractLsb' 8 3) then some (pVredmax (w.extractLsb' 21 5) (w.extractLsb' 16 5) (w.extractLsb' 11 5) (w.extractLsb' 8 3))
  else if w == wVredand (w.extractLsb' 21 5) (w.extractLsb' 16 5) (w.extractLsb' 11 5) (w.extractLsb' 8 3) then some (pVredand (w.extractLsb' 21 5) (w.extractLsb' 16 5) (w.extractLsb' 11 5) (w.extractLsb' 8 3))
  else if w == wVredor (w.extractLsb' 21 5) (w.extractLsb' 16 5) (w.extractLsb' 11 5) (w.extractLsb' 8 3) then some (pVredor (w.extractLsb' 21 5) (w.extractLsb' 16 5) (w.extractLsb' 11 5) (w.extractLsb' 8 3))
  else if w == wVredxor (w.extractLsb' 21 5) (w.extractLsb' 16 5) (w.extractLsb' 11 5) (w.extractLsb' 8 3) then some (pVredxor (w.extractLsb' 21 5) (w.extractLsb' 16 5) (w.extractLsb' 11 5) (w.extractLsb' 8 3))
  else if w == wVredminu (w.extractLsb' 21 5) (w.extractLsb' 16 5) (w.extractLsb' 11 5) (w.extractLsb' 8 3) then some (pVredminu (w.extractLsb' 21 5) (w.extractLsb' 16 5) (w.extractLsb' 11 5) (w.extractLsb' 8 3))
  else if w == wVredmaxu (w.extractLsb' 21 5) (w.extractLsb' 16 5) (w.extractLsb' 11 5) (w.extractLsb' 8 3) then some (pVredmaxu (w.extractLsb' 21 5) (w.extractLsb' 16 5) (w.extractLsb' 11 5) (w.extractLsb' 8 3))
  else if w == wVfredsum (w.extractLsb' 21 5) (w.extractLsb' 16 5) (w.extractLsb' 11 5) (w.extractLsb' 8 3) then some (pVfredsum (w.extractLsb' 21 5) (w.extractLsb' 16 5) (w.extractLsb' 11 5) (w.extractLsb' 8 3))
  else if w == wVfredsumt (w.extractLsb' 21 5) (w.extractLsb' 16 5) (w.extractLsb' 11 5) (w.extractLsb' 8 3) then some (pVfredsumt (w.extractLsb' 21 5) (w.extractLsb' 16 5) (w.extractLsb' 11 5) (w.extractLsb' 8 3))
  else if w == wVfredmax (w.extractLsb' 21 5) (w.extractLsb' 16 5) (w.extractLsb' 11 5) (w.extractLsb' 8 3) then some (pVfredmax (w.extractLsb' 21 5) (w.extractLsb' 16 5) (w.extractLsb' 11 5) (w.extractLsb' 8 3))
  else if w == wVfredmin (w.extractLsb' 21 5) (w.extractLsb' 16 5) (w.extractLsb' 11 5) (w.extractLsb' 8 3) then some (pVfredmin (w.extractLsb' 21 5) (w.extractLsb' 16 5) (w.extractLsb' 11 5) (w.extractLsb' 8 3))
  else if w == wVscan (w.extractLsb' 21 5) (w.extractLsb' 16 5) (w.extractLsb' 11 5) (w.extractLsb' 8 3) then some (pVscan (w.extractLsb' 21 5) (w.extractLsb' 16 5) (w.extractLsb' 11 5) (w.extractLsb' 8 3))
  else if w == wVscanx (w.extractLsb' 21 5) (w.extractLsb' 16 5) (w.extractLsb' 11 5) (w.extractLsb' 8 3) then some (pVscanx (w.extractLsb' 21 5) (w.extractLsb' 16 5) (w.extractLsb' 11 5) (w.extractLsb' 8 3))
  else if w == wVfscan (w.extractLsb' 21 5) (w.extractLsb' 16 5) (w.extractLsb' 11 5) (w.extractLsb' 8 3) then some (pVfscan (w.extractLsb' 21 5) (w.extractLsb' 16 5) (w.extractLsb' 11 5) (w.extractLsb' 8 3))
  else if w == wVkswap (w.extractLsb' 21 5) (w.extractLsb' 16 5) (w.extractLsb' 11 5) (w.extractLsb' 8 3) then some (pVkswap (w.extractLsb' 21 5) (w.extractLsb' 16 5) (w.extractLsb' 11 5) (w.extractLsb' 8 3))
  else if w == wVkswapi (w.extractLsb' 21 5) (w.extractLsb' 16 5) (w.extractLsb' 11 5) (w.extractLsb' 8 3) then some (pVkswapi (w.extractLsb' 21 5) (w.extractLsb' 16 5) (w.extractLsb' 11 5) (w.extractLsb' 8 3))
  else none

/-- Major 0x2c. -/
def posted2C (w : IWord) : Option Posted :=
  if w == wVcvt (w.extractLsb' 21 5) (w.extractLsb' 16 5) (w.extractLsb' 8 3) then some (pVcvt (w.extractLsb' 21 5) (w.extractLsb' 16 5) (w.extractLsb' 8 3))
  else if w == wVcvtr (w.extractLsb' 21 5) (w.extractLsb' 16 5) (w.extractLsb' 11 3) (w.extractLsb' 8 3) then some (pVcvtr (w.extractLsb' 21 5) (w.extractLsb' 16 5) (w.extractLsb' 11 3) (w.extractLsb' 8 3))
  else if w == wVqbs (w.extractLsb' 21 5) (w.extractLsb' 16 5) (w.extractLsb' 11 5) (w.extractLsb' 8 3) then some (pVqbs (w.extractLsb' 21 5) (w.extractLsb' 16 5) (w.extractLsb' 11 5) (w.extractLsb' 8 3))
  else if w == wVdqbs (w.extractLsb' 21 5) (w.extractLsb' 16 5) (w.extractLsb' 11 5) (w.extractLsb' 8 3) then some (pVdqbs (w.extractLsb' 21 5) (w.extractLsb' 16 5) (w.extractLsb' 11 5) (w.extractLsb' 8 3))
  else none

/-- Major 0x2d. -/
def posted2D (w : IWord) : Option Posted :=
  if w == wFisect (w.extractLsb' 22 4) (w.extractLsb' 18 4) (w.extractLsb' 14 4) (w.extractLsb' 6 5) then some (pFisect (w.extractLsb' 22 4) (w.extractLsb' 18 4) (w.extractLsb' 14 4) (w.extractLsb' 6 5))
  else if w == wFunion (w.extractLsb' 22 4) (w.extractLsb' 18 4) (w.extractLsb' 14 4) (w.extractLsb' 6 5) then some (pFunion (w.extractLsb' 22 4) (w.extractLsb' 18 4) (w.extractLsb' 14 4) (w.extractLsb' 6 5))
  else if w == wFmerge (w.extractLsb' 22 4) (w.extractLsb' 18 4) (w.extractLsb' 14 4) (w.extractLsb' 6 5) then some (pFmerge (w.extractLsb' 22 4) (w.extractLsb' 18 4) (w.extractLsb' 14 4) (w.extractLsb' 6 5))
  else if w == wFisectb (w.extractLsb' 22 4) (w.extractLsb' 18 4) (w.extractLsb' 14 4) then some (pFisectb (w.extractLsb' 22 4) (w.extractLsb' 18 4) (w.extractLsb' 14 4))
  else if w == wFdiff (w.extractLsb' 22 4) (w.extractLsb' 18 4) (w.extractLsb' 14 4) then some (pFdiff (w.extractLsb' 22 4) (w.extractLsb' 18 4) (w.extractLsb' 14 4))
  else if w == wFsort (w.extractLsb' 22 4) (w.extractLsb' 18 4) then some (pFsort (w.extractLsb' 22 4) (w.extractLsb' 18 4))
  else if w == wFcompact (w.extractLsb' 22 4) (w.extractLsb' 18 4) (w.extractLsb' 11 3) then some (pFcompact (w.extractLsb' 22 4) (w.extractLsb' 18 4) (w.extractLsb' 11 3))
  else if w == wFdedup (w.extractLsb' 22 4) (w.extractLsb' 18 4) (w.extractLsb' 6 5) then some (pFdedup (w.extractLsb' 22 4) (w.extractLsb' 18 4) (w.extractLsb' 6 5))
  else none

/-- Major 0x2e. -/
def posted2E (w : IWord) : Option Posted :=
  if w == wFld (w.extractLsb' 22 4) (w.extractLsb' 7 4) then some (pFld (w.extractLsb' 22 4) (w.extractLsb' 7 4))
  else if w == wFst (w.extractLsb' 18 4) (w.extractLsb' 7 4) then some (pFst (w.extractLsb' 18 4) (w.extractLsb' 7 4))
  else if w == wFbm (w.extractLsb' 22 4) (w.extractLsb' 6 5) then some (pFbm (w.extractLsb' 22 4) (w.extractLsb' 6 5))
  else if w == wFwalk (w.extractLsb' 22 4) (w.extractLsb' 18 4) (w.extractLsb' 7 4) then some (pFwalk (w.extractLsb' 22 4) (w.extractLsb' 18 4) (w.extractLsb' 7 4))
  else if w == wFexpand (w.extractLsb' 18 4) (w.extractLsb' 6 5) then some (pFexpand (w.extractLsb' 18 4) (w.extractLsb' 6 5))
  else if w == wFcoord (w.extractLsb' 18 4) (w.extractLsb' 6 5) then some (pFcoord (w.extractLsb' 18 4) (w.extractLsb' 6 5))
  else if w == wFval (w.extractLsb' 18 4) (w.extractLsb' 6 5) then some (pFval (w.extractLsb' 18 4) (w.extractLsb' 6 5))
  else if w == wFpack (w.extractLsb' 22 4) (w.extractLsb' 11 3) (w.extractLsb' 6 5) then some (pFpack (w.extractLsb' 22 4) (w.extractLsb' 11 3) (w.extractLsb' 6 5))
  else if w == wFsetl (w.extractLsb' 18 4) (w.extractLsb' 11 3) (w.extractLsb' 6 5) then some (pFsetl (w.extractLsb' 18 4) (w.extractLsb' 11 3) (w.extractLsb' 6 5))
  else if w == wFocc (w.extractLsb' 18 4) (w.extractLsb' 6 5) then some (pFocc (w.extractLsb' 18 4) (w.extractLsb' 6 5))
  else if w == wFmv (w.extractLsb' 22 4) (w.extractLsb' 18 4) then some (pFmv (w.extractLsb' 22 4) (w.extractLsb' 18 4))
  else if w == wFclr (w.extractLsb' 22 4) then some (pFclr (w.extractLsb' 22 4))
  else none

/-- Major 0x2f. -/
def posted2F (w : IWord) : Option Posted :=
  if w == wMzero (w.extractLsb' 24 2) then some (pMzero (w.extractLsb' 24 2))
  else if w == wMopo (w.extractLsb' 24 2) (w.extractLsb' 19 5) (w.extractLsb' 14 5) (w.extractLsb' 11 3) (w.extractLsb' 8 3) (w.extractLsb' 5 3) then some (pMopo (w.extractLsb' 24 2) (w.extractLsb' 19 5) (w.extractLsb' 14 5) (w.extractLsb' 11 3) (w.extractLsb' 8 3) (w.extractLsb' 5 3))
  else if w == wMopob (w.extractLsb' 24 2) (w.extractLsb' 19 5) (w.extractLsb' 14 5) (w.extractLsb' 11 3) (w.extractLsb' 8 3) (w.extractLsb' 5 3) then some (pMopob (w.extractLsb' 24 2) (w.extractLsb' 19 5) (w.extractLsb' 14 5) (w.extractLsb' 11 3) (w.extractLsb' 8 3) (w.extractLsb' 5 3))
  else if w == wMopr (w.extractLsb' 24 2) (w.extractLsb' 19 5) (w.extractLsb' 14 5) (w.extractLsb' 11 3) (w.extractLsb' 8 3) (w.extractLsb' 5 3) then some (pMopr (w.extractLsb' 24 2) (w.extractLsb' 19 5) (w.extractLsb' 14 5) (w.extractLsb' 11 3) (w.extractLsb' 8 3) (w.extractLsb' 5 3))
  else if w == wMoprb (w.extractLsb' 24 2) (w.extractLsb' 19 5) (w.extractLsb' 14 5) (w.extractLsb' 11 3) (w.extractLsb' 8 3) (w.extractLsb' 5 3) then some (pMoprb (w.extractLsb' 24 2) (w.extractLsb' 19 5) (w.extractLsb' 14 5) (w.extractLsb' 11 3) (w.extractLsb' 8 3) (w.extractLsb' 5 3))
  else if w == wMopi (w.extractLsb' 24 2) (w.extractLsb' 19 5) (w.extractLsb' 14 5) (w.extractLsb' 11 3) (w.extractLsb' 8 3) (w.extractLsb' 5 1) then some (pMopi (w.extractLsb' 24 2) (w.extractLsb' 19 5) (w.extractLsb' 14 5) (w.extractLsb' 11 3) (w.extractLsb' 8 3) (w.extractLsb' 5 1))
  else if w == wMops (w.extractLsb' 24 2) (w.extractLsb' 19 5) (w.extractLsb' 14 5) (w.extractLsb' 11 3) (w.extractLsb' 8 3) (w.extractLsb' 5 3) then some (pMops (w.extractLsb' 24 2) (w.extractLsb' 19 5) (w.extractLsb' 14 5) (w.extractLsb' 11 3) (w.extractLsb' 8 3) (w.extractLsb' 5 3))
  else if w == wMopsb (w.extractLsb' 24 2) (w.extractLsb' 19 5) (w.extractLsb' 14 5) (w.extractLsb' 11 3) (w.extractLsb' 8 3) (w.extractLsb' 5 3) then some (pMopsb (w.extractLsb' 24 2) (w.extractLsb' 19 5) (w.extractLsb' 14 5) (w.extractLsb' 11 3) (w.extractLsb' 8 3) (w.extractLsb' 5 3))
  else if w == wMtv (w.extractLsb' 24 2) (w.extractLsb' 19 5) (w.extractLsb' 14 5) then some (pMtv (w.extractLsb' 24 2) (w.extractLsb' 19 5) (w.extractLsb' 14 5))
  else if w == wMtvc (w.extractLsb' 24 2) (w.extractLsb' 19 5) (w.extractLsb' 14 5) then some (pMtvc (w.extractLsb' 24 2) (w.extractLsb' 19 5) (w.extractLsb' 14 5))
  else if w == wMvt (w.extractLsb' 24 2) (w.extractLsb' 19 5) (w.extractLsb' 14 5) then some (pMvt (w.extractLsb' 24 2) (w.extractLsb' 19 5) (w.extractLsb' 14 5))
  else if w == wMvtc (w.extractLsb' 24 2) (w.extractLsb' 19 5) (w.extractLsb' 14 5) then some (pMvtc (w.extractLsb' 24 2) (w.extractLsb' 19 5) (w.extractLsb' 14 5))
  else if w == wMld (w.extractLsb' 24 2) (w.extractLsb' 19 5) (w.extractLsb' 14 5) then some (pMld (w.extractLsb' 24 2) (w.extractLsb' 19 5) (w.extractLsb' 14 5))
  else if w == wMst (w.extractLsb' 24 2) (w.extractLsb' 19 5) (w.extractLsb' 14 5) then some (pMst (w.extractLsb' 24 2) (w.extractLsb' 19 5) (w.extractLsb' 14 5))
  else if w == wMgang then some pMgang
  else if w == wMgsync then some pMgsync
  else none

/-- Major 0x31. -/
def posted31 (w : IWord) : Option Posted :=
  if w == wVamoadd (w.extractLsb' 21 5) (w.extractLsb' 16 5) (w.extractLsb' 11 5) (w.extractLsb' 8 3) then some (pVamoadd (w.extractLsb' 21 5) (w.extractLsb' 16 5) (w.extractLsb' 11 5) (w.extractLsb' 8 3))
  else if w == wVamoand (w.extractLsb' 21 5) (w.extractLsb' 16 5) (w.extractLsb' 11 5) (w.extractLsb' 8 3) then some (pVamoand (w.extractLsb' 21 5) (w.extractLsb' 16 5) (w.extractLsb' 11 5) (w.extractLsb' 8 3))
  else if w == wVamoor (w.extractLsb' 21 5) (w.extractLsb' 16 5) (w.extractLsb' 11 5) (w.extractLsb' 8 3) then some (pVamoor (w.extractLsb' 21 5) (w.extractLsb' 16 5) (w.extractLsb' 11 5) (w.extractLsb' 8 3))
  else if w == wVamoxor (w.extractLsb' 21 5) (w.extractLsb' 16 5) (w.extractLsb' 11 5) (w.extractLsb' 8 3) then some (pVamoxor (w.extractLsb' 21 5) (w.extractLsb' 16 5) (w.extractLsb' 11 5) (w.extractLsb' 8 3))
  else if w == wVamomin (w.extractLsb' 21 5) (w.extractLsb' 16 5) (w.extractLsb' 11 5) (w.extractLsb' 8 3) then some (pVamomin (w.extractLsb' 21 5) (w.extractLsb' 16 5) (w.extractLsb' 11 5) (w.extractLsb' 8 3))
  else if w == wVamomax (w.extractLsb' 21 5) (w.extractLsb' 16 5) (w.extractLsb' 11 5) (w.extractLsb' 8 3) then some (pVamomax (w.extractLsb' 21 5) (w.extractLsb' 16 5) (w.extractLsb' 11 5) (w.extractLsb' 8 3))
  else if w == wVamominu (w.extractLsb' 21 5) (w.extractLsb' 16 5) (w.extractLsb' 11 5) (w.extractLsb' 8 3) then some (pVamominu (w.extractLsb' 21 5) (w.extractLsb' 16 5) (w.extractLsb' 11 5) (w.extractLsb' 8 3))
  else if w == wVamomaxu (w.extractLsb' 21 5) (w.extractLsb' 16 5) (w.extractLsb' 11 5) (w.extractLsb' 8 3) then some (pVamomaxu (w.extractLsb' 21 5) (w.extractLsb' 16 5) (w.extractLsb' 11 5) (w.extractLsb' 8 3))
  else if w == wVamoswap (w.extractLsb' 21 5) (w.extractLsb' 16 5) (w.extractLsb' 11 5) (w.extractLsb' 8 3) then some (pVamoswap (w.extractLsb' 21 5) (w.extractLsb' 16 5) (w.extractLsb' 11 5) (w.extractLsb' 8 3))
  else if w == wVamofadd (w.extractLsb' 21 5) (w.extractLsb' 16 5) (w.extractLsb' 11 5) (w.extractLsb' 8 3) then some (pVamofadd (w.extractLsb' 21 5) (w.extractLsb' 16 5) (w.extractLsb' 11 5) (w.extractLsb' 8 3))
  else if w == wVsca (w.extractLsb' 21 5) (w.extractLsb' 16 5) (w.extractLsb' 11 5) (w.extractLsb' 8 3) then some (pVsca (w.extractLsb' 21 5) (w.extractLsb' 16 5) (w.extractLsb' 11 5) (w.extractLsb' 8 3))
  else if w == wVscamax (w.extractLsb' 21 5) (w.extractLsb' 16 5) (w.extractLsb' 11 5) (w.extractLsb' 8 3) then some (pVscamax (w.extractLsb' 21 5) (w.extractLsb' 16 5) (w.extractLsb' 11 5) (w.extractLsb' 8 3))
  else if w == wVscamin (w.extractLsb' 21 5) (w.extractLsb' 16 5) (w.extractLsb' 11 5) (w.extractLsb' 8 3) then some (pVscamin (w.extractLsb' 21 5) (w.extractLsb' 16 5) (w.extractLsb' 11 5) (w.extractLsb' 8 3))
  else if w == wVscao (w.extractLsb' 21 5) (w.extractLsb' 16 5) (w.extractLsb' 11 5) (w.extractLsb' 8 3) then some (pVscao (w.extractLsb' 21 5) (w.extractLsb' 16 5) (w.extractLsb' 11 5) (w.extractLsb' 8 3))
  else none

/-- The posted instruction of a word; none where the word posts nothing. -/
def postedOf (w : IWord) : Option Posted :=
  match (w.extractLsb' 26 6).toNat with
  | 0x21 => posted21 w
  | 0x22 => posted22 w
  | 0x23 => posted23 w
  | 0x24 => posted24 w
  | 0x25 => posted25 w
  | 0x26 => posted26 w
  | 0x27 => posted27 w
  | 0x28 => posted28 w
  | 0x29 => posted29 w
  | 0x2a => posted2A w
  | 0x2b => posted2B w
  | 0x2c => posted2C w
  | 0x2d => posted2D w
  | 0x2e => posted2E w
  | 0x2f => posted2F w
  | 0x31 => posted31 w
  | _ => none

end Sys2Proof.Machine
end

