-- ==== Sys2Proof/Machine/Image.lean ====
section
/-! DEFINITION. The save image (R190 to R195, R392): its bytes from the harts of a frozen context, and the harts that a resume builds
from it (R196, R197). -/

namespace Sys2Proof.Machine

/-! ### Code locations (R192, R392) -/

/-- The bound objects of a context, by slot (R388). -/
def State.boundObjects (s : State) (ctxid : Nat) : List Bound :=
  (List.range 4096).filterMap fun k =>
    match s.deviceRead (whoDevice ctxid) (bindBase + 128 * k) 128 with
    | some e =>
      if sliceNat e 88 1 = 1 then some ⟨slice e 0 64, sliceNat e 64 8, sliceNat e 72 8, sliceNat e 80 8, sliceNat e 89 1⟩ else none
    | none => none

/-- The empty location. -/
def emptyLoc : List Byte := List.replicate 7 0#8 ++ [0xFF#8]

/-- A location as its 8 bytes, and the object table with its object; VA 0 is the empty location (assumption 31). None where no bound
object holds it, or the table is full. -/
def codeLoc (bt : List Bound) (objs : List (List Byte)) (v : Word) : Option (List Byte × List (List Byte)) :=
  if v = 0#64 then some (emptyLoc, objs)
  else
    match bt.find? fun b => decide (b.base ≤ v.toNat) && decide (v.toNat < b.base + b.len) with
    | none => none
    | some b =>
      let off := natLe 7 (v.toNat - b.base)
      match objs.findIdx? (· == b.hash) with
      | some k => some (off ++ [BitVec.ofNat 8 k], objs)
      | none => if 255 ≤ objs.length then none else some (off ++ [BitVec.ofNat 8 objs.length], objs ++ [b.hash])

/-- Locations in order. -/
def codeLocs (bt : List Bound) : List (List Byte) → List Word → Option (List (List Byte) × List (List Byte))
  | objs, [] => some ([], objs)
  | objs, v :: vs =>
    match codeLoc bt objs v with
    | none => none
    | some (l, objs) =>
      match codeLocs bt objs vs with
      | none => none
      | some (ls, objs) => some (l :: ls, objs)

/-- The code locations of a hart in the order of R392: PC, EPC, ETVEC, LS0, LE0, LS1, LE1, then the return stack. -/
def Hart.locations (h : Hart) : List Word :=
  [if h.status = .done then 0#64 else h.pc, h.epc, h.etvec, h.ls0, h.le0, h.ls1, h.le1] ++ h.rs.reverse

/-! ### Hart records (R193 to R195) -/

/-- A tag (R235). -/
def tagBytes (et : ETCode) (lmap : BitVec 4) (rows : Nat) (fib : Bool) (len occ : Nat) : List Byte :=
  natLe 8 (et.toNat + lmap.toNat * 16 + rows * 256 + (if fib then 2 ^ 14 else 0) + 2 ^ 15 + len * 2 ^ 16 + occ * 2 ^ 28)

/-- The first bytes of a row. -/
def rowLe (n : Nat) (r : Row) : List Byte := natLe (256 * n) r.toNat

/-- A vector register with its tag (R194). -/
def VReg.saved (r : VReg) : List Byte :=
  tagBytes r.et r.lmap r.nrows false r.len 0 ++ (r.rows.toList.take r.nrows).flatMap (rowLe (groupCount r.lmap))

/-- A fibre with its tag (R194). -/
def FReg.saved (f : FReg) : List Byte :=
  tagBytes f.et f.lmap 2 true 0 f.occ ++ rowLe (groupCount f.lmap) f.coords ++ rowLe (groupCount f.lmap) f.vals

/-- Whether a queue entry has begun as QF[0] of R195 says it: a fibre instruction that has produced and consumed nothing starts
afresh. -/
def QEntry.begun (e : QEntry) : Bool :=
  e.started && (match e.post.body with | .fib _ _ => decide (e.prog ≠ 0) || !e.ents.isEmpty | _ => true)

/-- A queue entry (R195). -/
def QEntry.saved (e : QEntry) : List Byte :=
  natLe 4 e.post.word.toNat ++ natLe 4 (match e.pfx with | some w => w.toNat | none => 0) ++ wordLe e.opa ++ wordLe e.opb ++
  natLe 4 e.prog ++ natLe 1 (engineNo e.post.eng) ++ natLe 1 ((if e.begun then 1 else 0) + (if e.taken then 2 else 0)) ++
  natLe 2 0 ++ natLe 2 e.vl ++ natLe 1 e.vrows ++ natLe 1 e.vseg.toNat ++ natLe 2 e.vtype.toNat ++ natLe 10 0

/-- The entries that a stopped fibre instruction has produced stand in its result (R552). -/
def Hart.landFib (h : Hart) (e : QEntry) : Hart :=
  match e.post.body, e.memo.head?.bind descOf with
  | .fib .ld _, some d => if e.begun then h.setFreg e.fd (fregOf d.type (vtGroups e.vtype) e.ents) else h
  | .fib .walk _, some d => if e.begun then h.setFreg e.fd (fregOf d.type (vtGroups e.vtype) e.ents) else h
  | _, _ => h

/-- A hart as it is saved: its stopped fibre instructions have left their entries in their results. -/
def Hart.settled (h : Hart) : Hart := h.queue.foldl Hart.landFib h

/-- VSTART as saved: the first unfinished element of the oldest unfinished vector instruction (R185). -/
def Hart.savedVstart (h : Hart) : Nat :=
  match h.queue.find? (·.post.eng = .vector) with
  | some e => e.prog
  | none => h.vstart.toNat

/-- HFLAGS (R193). -/
def Hart.savedFlags (h : Hart) (matrix : Bool) : Nat :=
  let isWfp (w : IWord) : Bool := w == wWfp (w.extractLsb' 21 5) (w.extractLsb' 16 5) (w.extractLsb' 8 5)
  let wfp := match h.status with | .waiting _ w => isWfp w | _ => false
  let bar := match h.status with | .waiting (.barrier _) _ => true | _ => false
  let ms := match h.status with | .waiting .matrixMode _ => true | _ => false
  (if h.level = .u then 0 else 1) + (if h.status = .done then 2 else 0) + (if wfp then 4 else 0) + (if bar then 8 else 0) +
  (if matrix then 16 else 0) + (if ms then 32 else 0) + (if h.held then 64 else 0)

/-- The control registers in the order of R193. A compatibility image has VSTART 0 (R189). -/
def Hart.savedCrs (h : Hart) (compat : Bool) : List Byte :=
  [h.fcsr.toNat, if h.gatef then 1 else 0, h.pfx.toNat + (if h.pfxValid then 2 ^ 32 else 0), h.vl, h.vrows, h.vtype.toNat,
   if compat then 0 else h.savedVstart, h.vseg.toNat, h.cmpthr.toNat, h.vnota.toNat, h.cprow.toNat, h.mvl.toNat, h.mstat.toNat,
   h.ecause.toNat, h.etval.toNat, h.estatus.toNat, h.emuf.toNat, h.eqbase.toNat, h.eqhead.toNat, h.eqtail.toNat].flatMap (natLe 8)

/-- Bits of the valid registers of a list. -/
def presentBits (ps : List Bool) : Nat := ps.zipIdx.foldl (fun n x => if x.1 then n + 2 ^ x.2 else n) 0

/-- A stream binding (R193). -/
def Binding.saved (b : Binding) : List Byte :=
  if b.valid then wordLe b.cb ++ natLe 6 b.pos ++ natLe 1 (b.reg.toNat + 128) ++ [0#8] else List.replicate 16 0#8

/-- The queue that a record holds: none in a compatibility image (R189). -/
def Hart.savedQueue (h : Hart) (compat : Bool) : List QEntry := if compat then [] else h.queue

/-- The tiles of a hart that hold data (R194). -/
def State.tilesOf (s : State) (i : Fin 4) : List (Nat × Tile) :=
  let mine : Bool := s.core.matrix = some i || (match s.core.kept with | some k => k.hart = i | none => false)
  if mine then
    (List.range 4).filterMap fun t => if s.harts[i].mstat.getLsbD (1 + t) then (s.core.tiles[t]?).map (t, ·) else none
  else []

/-- What stands in a slot for a context: a hart that has not started yet (R157), or the one that occupies it, with its lane groups, matrix
mode and tiles. -/
def State.inSlot (s : State) (ctxid : Nat) (i : Fin 4) : Start :=
  match s.sched.starts.find? fun x => x.slot = i && decide (x.hart.ctxid.toNat = ctxid) with
  | some x => x
  | none => ⟨i, s.harts[i].settled, groupCount (s.core.heldBy i), s.core.matrix = some i, s.tilesOf i⟩

/-- The variable part of a hart record (R194), without its padding. -/
def Start.savedTail (x : Start) (compat : Bool) : List Byte :=
  let h := x.hart
  (h.savedQueue compat).flatMap QEntry.saved ++
  ((h.m.toList.drop 1).flatMap fun m => m.toList.flatMap fun r => natLe 256 r.toNat) ++
  ((h.v.toList.filter (·.valid)).flatMap VReg.saved) ++ ((h.f.toList.filter (·.valid)).flatMap FReg.saved) ++
  (x.tiles.flatMap fun t => t.2.toList.flatMap fun r => natLe 512 r.toNat)

/-- Bytes padded to a multiple of 64. -/
def pad64 (bs : List Byte) : List Byte := bs ++ List.replicate ((64 - bs.length % 64) % 64) 0#8

/-- A hart record (R193, R194) with its code locations. -/
def Start.saved (x : Start) (hartid : Nat) (compat : Bool) (locs : List (List Byte)) : List Byte :=
  let h := x.hart
  let at_ (k : Nat) : List Byte := locs.getD k emptyLoc
  let tail := pad64 (x.savedTail compat)
  let rs := (locs.drop 7).take 16
  natLe 8 (1024 + tail.length) ++ natLe 2 hartid ++ natLe 1 (h.savedFlags x.matrix) ++
  natLe 1 x.groups ++ natLe 4 h.grank.toNat ++ at_ 0 ++ at_ 1 ++ at_ 2 ++ at_ 3 ++ at_ 4 ++ at_ 5 ++ at_ 6 ++
  wordLe h.lc0 ++ wordLe h.lc1 ++ natLe 1 rs.length ++ natLe 7 0 ++ slice (rs.flatMap id) 0 128 ++
  (0#64 :: h.x.toList.drop 1).flatMap wordLe ++ h.savedCrs compat ++
  (h.vpi.toList.flatMap fun v => natLe 4 (if compat then 0 else v.toNat)) ++ (h.tok.toList.flatMap (natLe 1)) ++ natLe 12 0 ++
  natLe 2 (h.savedQueue compat).length ++ natLe 6 0 ++ wordLe h.ncnt ++ natLe 4 (presentBits (h.v.toList.map (·.valid))) ++
  natLe 2 (presentBits (h.f.toList.map (·.valid))) ++ natLe 2 0 ++ h.sb.toList.flatMap Binding.saved ++ natLe 136 0 ++ tail

/-- A record of a hart of another core, which this model does not run: its fixed part and its mask registers, their contents undefined here
(assumption 32). -/
def foreignHart (free k : Nat) : List Byte := natLe 8 29696 ++ (List.range 29688).map fun j => Config.freeByte (free + k) j

/-- The descriptor of a begun copy (R192): the one that it has read, that has come for it, or that stands at its address; a copy without a
descriptor, or one whose descriptor cannot be read, has 0 (assumption 66). -/
def State.savedDesc (s : State) (ctxid : Nat) (e : QEntry) : Nat :=
  match e.post.body, e.memo, e.remote with
  | .gsp, _, _ => 0
  | .ssp, _, _ => 0
  | _, d :: _, _ => d
  | _, [], .answered 0 bs => leNat (e.part ++ bs)
  | _, [], _ => match s.deviceRead (whoDevice ctxid) e.opa.toNat 64 with | some bs => leNat bs | none => 0

/-- The copy records of a hart: its begun copies with a completion mask (R184, R192). -/
def State.savedCopies (s : State) (ctxid : Nat) (h : Hart) (compat : Bool) (idx : Nat) : List Byte :=
  ((h.savedQueue compat).filter fun e => e.post.body.isCopy && e.started && e.post.m != 0#3).flatMap fun e =>
    natLe 64 (s.savedDesc ctxid e) ++ natLe 1 e.post.m.toNat ++ natLe 1 idx ++ natLe 1 (if e.pend.isSome then 1 else 0) ++ natLe 5 0 ++
    (match e.pend with | some t => wordLe t.tval ++ natLe 8 t.cause.toNat | none => natLe 16 0) ++ natLe 8 0

/-! ### The image (R190, R191) -/

/-- The hart slots of a core mask in GRANK order: the hart of this core, or none for another core's (R94). -/
def State.slotOrder (s : State) (mask : BitVec 384) (n : Nat) : List (Option (Fin 4)) :=
  ((List.range 384).filter fun c => mask.getLsbD c).flatMap fun c =>
    ([(0 : Fin 4), 1, 2, 3].take n).map fun i => if c = s.core.num then some i else none

/-- The hart records in order with the object table: none where a location lies in no bound object. -/
def State.savedRecords (s : State) (ctxid : Nat) (bt : List Bound) (compat : Bool) :
    Nat → List (List Byte) → List (Option (Fin 4)) → Option (List Byte × List (List Byte))
  | _, objs, [] => some ([], objs)
  | k, objs, x :: xs =>
    let one : Option (List Byte × List (List Byte)) :=
      match x with
      | none => some (foreignHart s.free k, objs)
      | some i =>
        let h := s.inSlot ctxid i
        match codeLocs bt objs h.hart.locations with
        | none => none
        | some (locs, objs) => some (h.saved (s.hartId i) compat locs, objs)
    match one with
    | none => none
    | some (r, objs) =>
      match State.savedRecords s ctxid bt compat (k + 1) objs xs with
      | none => none
      | some (rs, objs) => some (r ++ rs, objs)

/-- What the header says beside lengths and counts. -/
structure ImageInfo where
  version : Nat
  flags : Nat
  wdlimit : Nat
  ctxid : Nat
  gangid : BitVec 32
  job : BitVec 16
  compat : Bool
  harts : Nat
  prio : Nat
  t : Nat
  queue : List Nat
  arrived : Nat
  mask : BitVec 384

/-- The header (R191) with STATE 1. -/
def State.imageHeader (s : State) (x : ImageInfo) (len nobj nhart ncopy : Nat) : List Byte :=
  let q (k : Nat) : Nat := x.queue.getD k 0
  natLe 4 0x4C325356 ++ natLe 2 x.version ++ natLe 1 x.flags ++ natLe 1 1 ++ natLe 4 x.wdlimit ++ natLe 4 x.ctxid ++
  natLe 4 x.gangid.toNat ++ natLe 2 x.job.toNat ++ natLe 1 (if x.compat then 1 else 0) ++ natLe 1 (x.harts - 1 + 4 * x.prio) ++
  natLe 8 x.t ++ (s.host.accept.toList.flatMap fun a => natLe 4 a.toNat) ++ natLe 8 0 ++ natLe 8 len ++ natLe 8 (q 0) ++ natLe 8 (q 1) ++
  natLe 4 (q 2) ++ natLe 4 (q 3) ++ natLe 4 (q 4) ++ natLe 2 nobj ++ natLe 2 nhart ++ natLe 2 ncopy ++ natLe 2 0 ++ natLe 4 x.arrived ++
  natLe 8 s.gtimeNs ++ natLe 2 Config.siliconRev.toNat ++ natLe 14 0 ++ natLe 48 x.mask.toNat ++ natLe 80 0

/-- The whole image; none where a code location makes the save fail (R392). -/
def State.image (s : State) (x : ImageInfo) : Option (List Byte) :=
  let slots := s.slotOrder x.mask x.harts
  match s.savedRecords x.ctxid (s.boundObjects x.ctxid) x.compat 0 [] slots with
  | none => none
  | some (recs, objs) =>
    let copies := slots.zipIdx.flatMap fun y => match y.1 with | some i => s.savedCopies x.ctxid (s.inSlot x.ctxid i).hart x.compat y.2 | none => []
    let body := objs.flatMap id ++ recs ++ copies
    some (s.imageHeader x (256 + body.length) objs.length slots.length (copies.length / 96) ++ body)

/-! ### Reading an image (R196, R197) -/

/-- An image as read, with the VAs of its objects, and the offsets of its hart records. -/
structure ReadImage where
  bytes : List Byte
  objs : List Bound
  recs : List Nat

/-- The offsets of records that follow one another by RECLEN. -/
def recOffsets (bs : List Byte) : Nat → Nat → List Nat
  | 0, _ => []
  | n + 1, o => o :: recOffsets bs n (o + sliceNat bs o 8)

/-- The object bindings of an image; none where one fails (R196). -/
def State.bindObjects (s : State) (ctxid : Nat) (bs : List Byte) : Nat → Nat → Option (List Bound)
  | 0, _ => some []
  | n + 1, o =>
    match s.binding ctxid (slice bs o 64), State.bindObjects s ctxid bs n (o + 64) with
    | some b, some rest => some (b :: rest)
    | _, _ => none

/-- Whether an image passes the check of R196 for a record: a context whose mode is not fixed yet takes that of the image (assumption 67). -/
def State.imageOk (s : State) (compat : Option Bool) (bs : List Byte) (raw : List Byte) : Bool :=
  let ver := sliceNat bs 4 2
  decide (sliceNat bs 0 4 = 0x4C325356) && (decide (ver = 2) || (decide (ver = 1) && decide (sliceNat bs 22 1 = 1))) &&
  decide (sliceNat bs 7 1 = 2) &&
  ((List.range 4).all fun k =>
    (BitVec.ofNat 32 (sliceNat bs (32 + 4 * k) 4)) &&& ~~~(s.host.accept[k]?.getD 0#32) = 0#32) &&
  decide (sliceNat bs 94 2 = recHarts raw * maskCores (recMask raw)) && decide (sliceNat bs 22 1 ≤ 1) &&
  compat.all fun c => decide (sliceNat bs 22 1 = if c then 1 else 0)

/-- Read and check the image of a record. -/
def State.readImage (s : State) (compat : Option Bool) (raw : List Byte) : Option ReadImage :=
  let who := whoDevice (recCtx raw)
  let va := (recArgs raw).toNat
  match s.deviceRead who va 256 with
  | none => none
  | some hd =>
    if s.imageOk compat hd raw then
      match s.deviceRead who va (sliceNat hd 56 8) with
      | none => none
      | some bs =>
        let nobj := sliceNat bs 92 2
        match s.bindObjects (recCtx raw) bs nobj 256 with
        | none => none
        | some objs => some ⟨bs, objs, recOffsets bs (sliceNat bs 94 2) (256 + 64 * nobj)⟩
    else none

/-- A code location rebound (R196, R389); none where its binding fails. -/
def ReadImage.loc (m : ReadImage) (o : Nat) : Option Word :=
  let k := sliceNat m.bytes (o + 7) 1
  let off := sliceNat m.bytes o 7
  if k = 255 then some 0#64
  else
    match m.objs[k]? with
    | some b => if off < b.len then some (BitVec.ofNat 64 (b.base + off)) else none
    | none => none

/-- Locations that follow one another. -/
def ReadImage.locs (m : ReadImage) : Nat → Nat → Option (List Word)
  | 0, _ => some []
  | n + 1, o =>
    match m.loc o, m.locs n (o + 8) with
    | some v, some vs => some (v :: vs)
    | _, _ => none

/-- The `n` lowest lane groups. -/
def firstGroups (n : Nat) : BitVec 4 := BitVec.ofNat 4 (2 ^ n - 1)

/-- Vector registers of a record from an offset on, and the offset behind them; their rows move to the lowest lane groups (R194). -/
def readVregs (bs : List Byte) (present : Nat) : List Nat → Nat → Vector VReg 32 → Vector VReg 32 × Nat
  | [], o, v => (v, o)
  | n :: ns, o, v =>
    if present / 2 ^ n % 2 = 1 then
      let tag := sliceNat bs o 8
      let g := groupCount (BitVec.ofNat 4 (tag / 16))
      let nr := tag / 256 % 32
      let row (k : Nat) : Row := BitVec.ofNat 8192 (if k < nr then sliceNat bs (o + 8 + 256 * g * k) (256 * g) else 0)
      let r : VReg := { valid := true, et := BitVec.ofNat 4 tag, lmap := firstGroups g, len := tag / 2 ^ 16 % 4096, nrows := nr,
                        rows := Vector.ofFn fun (k : Fin 16) => row k.val }
      readVregs bs present ns (o + 8 + 256 * g * nr) (if h : n < 32 then v.set n r h else v)
    else readVregs bs present ns o v

/-- Fibre registers of a record from an offset on, and the offset behind them. -/
def readFregs (bs : List Byte) (present : Nat) : List Nat → Nat → Vector FReg 16 → Vector FReg 16 × Nat
  | [], o, v => (v, o)
  | n :: ns, o, v =>
    if present / 2 ^ n % 2 = 1 then
      let tag := sliceNat bs o 8
      let g := groupCount (BitVec.ofNat 4 (tag / 16))
      let r : FReg := { valid := true, et := BitVec.ofNat 4 tag, lmap := firstGroups g, occ := tag / 2 ^ 28 % 512,
                        coords := BitVec.ofNat 8192 (sliceNat bs (o + 8) (256 * g)),
                        vals := BitVec.ofNat 8192 (sliceNat bs (o + 8 + 256 * g) (256 * g)) }
      readFregs bs present ns (o + 8 + 512 * g) (if h : n < 16 then v.set n r h else v)
    else readFregs bs present ns o v

/-- A queue entry posted again (R195, R197): its number, its level, and what it captured. A word that posts nothing is left out. The
address of the instruction is not saved, and its tag is then undefined (assumption 33). -/
def readEntryAt (bs : List Byte) (free eid : Nat) (level : Level) (rm : BitVec 3) (cprow : Nat) (h : Hart) (o : Nat) : Option QEntry :=
  match postedOf (BitVec.ofNat 32 (sliceNat bs o 4)) with
  | none => none
  | some p =>
    let pf := sliceNat bs (o + 4) 4
    let qf := sliceNat bs (o + 29) 1
    let begun := decide (qf % 2 = 1)
    let ents := match p.body with
      | .fib op _ => if begun && (op.twoIn || op == .ld || op == .walk || op == .compact || op == .dedup) then (h.freg (p.d.setWidth 4)).read else []
      | _ => []
    let prog := sliceNat bs (o + 24) 4
    some { eid := eid, post := p, pc := Config.freeWord (free + eid), pfx := if pf = 0 then none else some (BitVec.ofNat 32 pf),
           opa := BitVec.ofNat 64 (sliceNat bs (o + 8) 8), opb := BitVec.ofNat 64 (sliceNat bs (o + 16) 8),
           vl := sliceNat bs (o + 32) 2 % 4096, vrows := sliceNat bs (o + 34) 1 % 32, vtype := BitVec.ofNat 9 (sliceNat bs (o + 36) 2),
           vseg := BitVec.ofNat 4 (sliceNat bs (o + 35) 1), rm := rm, cprow := cprow, level := level, first := prog, prog := prog,
           lanes := Vector.replicate 4 ⟨0, 0⟩, ahead := [], slots := [], started := begun,
           taken := decide (qf / 2 % 2 = 1), entered := if p.body.isCopy && begun then 1 else 0, pend := none, strips := [],
           remote := .none, chunks := ⟨if p.body.isCopy then List.range prog else [], [], []⟩, part := [], aux := 0, memo := [],
           ents := ents, sentAll := false }

/-- The copy records of a hart go to its begun copies with a completion mask, in order (R184, R192). -/
def giveCopies (bs : List Byte) : List Nat → List QEntry → List QEntry
  | [], es => es
  | _, [] => []
  | o :: os, e :: es =>
    if e.post.body.isCopy && e.started && e.post.m != 0#3 then
      let gather := match e.post.body with | .gsp => true | .ssp => true | _ => false
      { e with memo := if gather || sliceNat bs o 64 = 0 then [] else [sliceNat bs o 64],
               pend := if sliceNat bs (o + 66) 1 % 2 = 1 then
                   some ⟨BitVec.ofNat 8 (sliceNat bs (o + 80) 8), BitVec.ofNat 64 (sliceNat bs (o + 72) 8)⟩ else none } ::
        giveCopies bs os es
    else e :: giveCopies bs (o :: os) es

/-- The binding of a saved stream (R492): its block is read again, its position restored; none where the block no longer describes a
stream. -/
def State.readBinding (s : State) (ctxid : Nat) (vt : BitVec 9) (bs : List Byte) (o : Nat) : Binding :=
  let rb := sliceNat bs (o + 14) 1
  if 128 ≤ rb then
    let cb : Word := BitVec.ofNat 64 (sliceNat bs o 8)
    match s.deviceRead (whoDevice ctxid) cb.toNat 64 with
    | none => Binding.none
    | some b =>
      match bindingOf vt (BitVec.ofNat 5 rb) cb b with
      | some x => { x with pos := min (sliceNat bs (o + 8) 6) x.count }
      | none => Binding.none
  else Binding.none

/-- The strips that the queued instructions had popped, from the youngest back: each pop took the elements before the position that
the pops after it left. -/
def rebuildStrips (sb : List Binding) : List QEntry → List QEntry
  | [] => []
  | e :: es =>
    let mine := sb.filter fun b => b.valid && e.post.vsrc.contains b.reg
    let len (b : Binding) : Nat := if b.pos = b.count then min e.vl b.pos else min b.strip b.pos
    let strips := mine.map fun b => ({ reg := b.reg, bind := b, first := b.pos - len b, count := len b, got := [], trap := none } : Strip)
    let sb1 := sb.map fun b => if b.valid && e.post.vsrc.contains b.reg then { b with pos := b.pos - len b } else b
    { e with strips := strips } :: rebuildStrips sb1 es

/-- The instruction word at an address of a context, as a fetch at a level finds it; 0 where there is none. -/
def State.codeWord (s : State) (ctxid : Nat) (level : Level) (pc : Word) : IWord :=
  let w : Who := ⟨0, ctxid, level, 0#64, 5, 0⟩
  match s.locate w pc.toNat 4 .fetch .scalar with
  | .ok (.hbm k enc _ _, s1) => (match (s1.readKey w enc k 4).1 with | some bs => BitVec.ofNat 32 (leNat bs) | none => 0#32)
  | _ => 0#32

/-- What a hart that waited at T does on resume (R186), by the word at its PC: a barrier is still arrived at, and an `mstart` waits
again. -/
def State.resumedStatus (s : State) (ctxid : Nat) (flags : Nat) (level : Level) (pc : Word) : HartStatus :=
  let w : IWord := s.codeWord ctxid level pc
  let scope := w.extractLsb' 13 3
  if flags / 2 % 2 = 1 then .done
  else if flags / 8 % 2 = 1 && w == wGbar scope then .waiting (.barrier scope.toNat) w
  else if flags / 32 % 2 = 1 && w == wMstart then .waiting .matrixMode w
  else .running

/-- The control registers of a record (R193), their zero bits zero (R6). -/
def Hart.readCrs (h : Hart) (bs : List Byte) (o : Nat) : Hart :=
  let c (k : Nat) : Nat := sliceNat bs (o + 480 + 8 * k) 8
  { h with fcsr := BitVec.ofNat 9 (c 0), gatef := decide (c 1 % 2 = 1), pfx := BitVec.ofNat 32 (c 2),
           pfxValid := decide (c 2 / 2 ^ 32 % 2 = 1), vl := c 3 % 4096, vrows := c 4 % 32, vtype := BitVec.ofNat 9 (c 5),
           vstart := BitVec.ofNat 32 (c 6), vseg := BitVec.ofNat 4 (c 7), cmpthr := BitVec.ofNat 12 (c 8),
           vnota := BitVec.ofNat 64 (c 9) &&& ~~~7#64, cprow := BitVec.ofNat 32 (c 10), mvl := mvlField (BitVec.ofNat 8 (c 11 / 256)) ++ mvlField (BitVec.ofNat 8 (c 11)),
           mstat := BitVec.ofNat 10 (c 12), ecause := BitVec.ofNat 8 (c 13), etval := BitVec.ofNat 64 (c 14),
           estatus := BitVec.ofNat 3 (c 15), emuf := BitVec.ofNat 64 (c 16) &&& ~~~63#64, eqbase := BitVec.ofNat 64 (c 17) &&& 0xFFFFFFFFFFFFF01F#64,
           eqhead := BitVec.ofNat 32 (c 18), eqtail := BitVec.ofNat 32 (c 19) }

/-- The registers and masks of a record (R193, R194), its queue left empty; and the offset of its tiles. -/
def Hart.readRegs (h : Hart) (bs : List Byte) (o nq : Nat) : Hart × Nat :=
  let o1 := o + 1024 + 48 * nq
  let v := readVregs bs (sliceNat bs (o + 816) 4) (List.range 32) (o1 + 7 * 4096) h.v
  let f := readFregs bs (sliceNat bs (o + 820) 2) (List.range 16) v.2 h.f
  ({ h with
     x := Vector.ofFn fun (k : Fin 32) => BitVec.ofNat 64 (if k.val = 0 then 0 else sliceNat bs (o + 224 + 8 * k.val) 8),
     m := Vector.ofFn fun (k : Fin 8) => Vector.ofFn fun (r : Fin 16) =>
       BitVec.ofNat 2048 (if k.val = 0 then 0 else sliceNat bs (o1 + 4096 * (k.val - 1) + 256 * r.val) 256),
     v := v.1, f := f.1,
     vpi := Vector.ofFn fun (k : Fin 32) => BitVec.ofNat 16 (sliceNat bs (o + 640 + 4 * k.val) 4),
     tok := Vector.ofFn fun (k : Fin 20) => sliceNat bs (o + 768 + k.val) 1,
     lc0 := BitVec.ofNat 64 (sliceNat bs (o + 72) 8), lc1 := BitVec.ofNat 64 (sliceNat bs (o + 80) 8),
     ncnt := BitVec.ofNat 64 (sliceNat bs (o + 808) 8) }, f.2)

/-- The tiles of a record. -/
def readTiles (bs : List Byte) (mstat : BitVec 10) : List Nat → Nat → List (Nat × Tile)
  | [], _ => []
  | t :: ts, o =>
    if mstat.getLsbD (1 + t) then
      (t, Vector.ofFn fun (r : Fin 128) => BitVec.ofNat 4096 (sliceNat bs (o + 512 * r.val) 512)) :: readTiles bs mstat ts (o + 65536)
    else readTiles bs mstat ts o

/-- The hart of record `k` as a resume starts it in slot `i` (R186, R194, R197); none where a code location cannot be bound. A hart at S stands between
the halves of a pair when its prefix stands before its PC. Its events seen are not saved: EV is set, so that a wait of R467 looks again. -/
def State.readHart (s : State) (m : ReadImage) (raw : List Byte) (k : Nat) (i : Fin 4) : Option Start :=
  let bs := m.bytes
  let o := m.recs.getD k 0
  let ctxid := recCtx raw
  let flags := sliceNat bs (o + 10) 1
  let ng := sliceNat bs (o + 11) 1
  let nq := sliceNat bs (o + 800) 2
  match m.locs 7 (o + 16), m.locs (sliceNat bs (o + 88) 1) (o + 96) with
  | some ls, some rs =>
    let at_ (j : Nat) : Word := ls.getD j 0#64
    let r := (Hart.reset.readCrs bs o).readRegs bs o nq
    let h := r.1
    let level : Level := if flags % 2 = 1 then .s else .u
    let held := decide (flags / 64 % 2 = 1)
    let qlevel := if held then levelOf (h.estatus.extractLsb' 0 2) else level
    let vt := (h.vtype &&& 0x10F#9) ||| (0#1 ++ firstGroups ng ++ 0#4 : BitVec 9)
    let sb := (List.range 4).map fun j => s.readBinding ctxid vt bs (o + 824 + 16 * j)
    let es := (List.range nq).filterMap fun j =>
      readEntryAt bs s.free j qlevel (h.fcsr.extractLsb' 0 3) h.cprow.toNat h (o + 1024 + 48 * j)
    let ncopy := sliceNat bs 96 2
    let copies := ((List.range ncopy).map fun j => sliceNat bs 56 8 - 96 * ncopy + 96 * j).filter fun c => sliceNat bs (c + 65) 1 = k
    let es := (rebuildStrips sb (giveCopies bs copies es).reverse).reverse
    let vecq := es.any (·.post.eng = .vector)
    let hart : Hart :=
      { h with pc := at_ 0, epc := at_ 1, etvec := at_ 2, ls0 := at_ 3, le0 := at_ 4, ls1 := at_ 5, le1 := at_ 6, rs := rs.reverse,
               level := level, status := s.resumedStatus ctxid flags level (at_ 0), queue := es, nextEid := nq,
               sb := Vector.ofFn fun (j : Fin 4) => sb.getD j.val Binding.none, held := held, inHandler := level = .s, ev := true,
               vstart := if vecq then 0#32 else h.vstart, pfxNext := h.pfxValid && (level = .u || s.codeWord ctxid level (at_ 0 - 4#64) = h.pfx),
               ctxid := BitVec.ofNat 32 ctxid, gangid := recGang raw, grank := BitVec.ofNat 32 (recRbase raw + k),
               prio := sliceNat bs 23 1 / 4 % 8,
               quota := if h.vrows = 0 && sliceNat bs (o + 816) 4 = 0 && sliceNat bs (o + 820) 2 = 0 && h.vtype = 0#9 then 0 else h.rowsWanted h.vrows }
    some ⟨i, hart, ng, decide (flags / 16 % 2 = 1), readTiles bs h.mstat (List.range 4) r.2⟩
  | _, _ => none

/-- The starts of this core's harts, in GRANK order. -/
def State.readStarts (s : State) (m : ReadImage) (raw : List Byte) : Nat → List (Option (Fin 4)) → Option (List Start)
  | _, [] => some []
  | k, none :: xs => State.readStarts s m raw (k + 1) xs
  | k, some i :: xs =>
    match s.readHart m raw k i, State.readStarts s m raw (k + 1) xs with
    | some x, some rest => some (x :: rest)
    | _, _ => none

end Sys2Proof.Machine
end

