-- ==== Sys2Proof/Machine/Gangs.lean ====
section
/-! DEFINITION. Timed records and the gang protocol (R93 to R99, R157, R172 to R199, R643): how a member accepts, prepares, arms and acts on
a record, the freeze and the save of a context, its resume, and the device's own offers for host launches. -/

namespace Sys2Proof.Machine

/-! ### Time and records -/

/-- The record, pending or acted on, of a gang with an instant. -/
def State.record (s : State) (gangid : BitVec 32) (t : Nat) : Option GangRec :=
  s.sched.gangs.find? fun g => g.gangid = gangid && g.t = t

/-- Replace a record. -/
def State.putRecord (s : State) (g : GangRec) : State :=
  { s with sched := { s.sched with gangs := s.sched.gangs.map fun x => if x.gangid = g.gangid && x.t = g.t then g else x } }

/-- Discard a record: its reservations lapse (R157). -/
def State.dropRecord (s : State) (g : GangRec) : State :=
  State.recount { s with sched := { s.sched with gangs := s.sched.gangs.filter fun x => !(x.gangid = g.gangid && x.t = g.t) } }

/-- Whether a record is BADREC (R95). -/
def State.recBad (s : State) (raw : List Byte) : Bool :=
  decide (recKind raw = 3) || !recZeros raw || decide (recNmem raw = 0) || decide (262144 < recNmem raw) ||
  decide (recNmem raw ≤ recMidx raw) || recMask raw == 0#384 ||
  (decide (recKind raw = 0) && (decide (leNat (recHash raw) = 0) || !s.feat 10))

/-- HOLD, LATE and BUSY as SPEC16[6:4] of the TLACK (R95). -/
def State.recFlags (s : State) (raw : List Byte) : Nat :=
  let pending := s.sched.gangs.filter fun g => !g.acted
  let near := pending.any fun g =>
    g.gangid = recGang raw && decide (g.t < recT raw + 100000) && decide (recT raw < g.t + 100000)
  (if 1000 < s.uncNow then 16 else 0) + (if recT raw < s.gtimeNs + 20000 then 32 else 0) +
  (if decide (8 ≤ pending.length) || near then 64 else 0)

/-- A record accepted. -/
def recordOf (raw : List Byte) (job : BitVec 16) (coord : Epid) (hold : Bool) : GangRec :=
  { raw := raw, gangid := recGang raw, ctxid := BitVec.ofNat 32 (recCtx raw), job := job, kind := recKind raw, harts := recHarts raw,
    coord := coord, t := recT raw, hold := hold, prepared := false, told := false, refused := false, passed := false, armed := false, wave := false, acted := false,
    finished := false, startTime := 0, compat := false, starts := [], queue := [] }

/-- A record that is neither BADREC nor stale: its flags, and the record kept unless LATE or BUSY (R95). -/
def State.takeRecord (s : State) (raw : List Byte) (job : BitVec 16) (coord : Epid) : Nat × State :=
  let fl := s.recFlags raw
  if 32 ≤ fl then (fl, s)
  else (fl, { s with sched := { s.sched with gangs := s.sched.gangs ++ [recordOf raw job coord (decide (fl = 16))] } })

/-- `TLREC` (R93, R95): checked at the source Bellwether and answered. Its 12 beats leave no room for a tag: a sealed one is dropped. -/
def execTlrec (p : Packet) (s : State) : Result :=
  .next <|
    if !(p.zerosOk && p.spec16 == 0#16 && p.spec64 == 0#64 && p.dbeats == 12#5 && !p.enc) then s.dropPacket p
    else if tooOld p then s
    else
      match s.openPacket p with
      | none => s.reply p 0x0E 7 0#64 []
      | some d =>
        let raw := d.take 192
        let gid : BitVec 64 := (recGang raw).setWidth 64
        if s.recBad raw then s.reply p 0x0E 9 gid []
        else if (s.homeCtx p).isNone then s.reply p 0x0E (4 + s.recFlags raw) gid []
        else
          let r := s.takeRecord raw p.job (recCoord raw)
          r.2.reply p 0x0E r.1 gid []

/-! ### Messages of a member (R643) -/

/-- A GANGCTL to an endpoint, in the flow of the Bellwether (R62). -/
def State.sendCtl (s : State) (dst : Epid) (job : BitVec 16) (gangid : BitVec 32) (t spec16 : Nat) : State :=
  let gen : BitVec 16 := match s.jobEntry job with | some e => e.gen | none => 0#16
  s.emit (s.fab.portFor 0xA000#16 dst) (s.mkPacket 0x0F dst job gen 0xA000#16 gangid (BitVec.ofNat 16 spec16) (BitVec.ofNat 64 t) [])

/-- The offer of a launch that this device coordinates itself (R128). -/
def State.offer (s : State) (gangid : BitVec 32) (t : Nat) : Option Offer :=
  s.sched.offers.find? fun o => o.gangid = gangid && o.t = t

/-- Change an offer. -/
def State.modOffer (s : State) (gangid : BitVec 32) (t : Nat) (f : Offer → Offer) : State :=
  { s with sched := { s.sched with offers := s.sched.offers.map fun o => if o.gangid = gangid && o.t = t then f o else o } }

/-- The acknowledge of an arm. -/
def State.ackArm (s : State) (g : GangRec) : State :=
  match s.offer g.gangid g.t with
  | some _ => s.modOffer g.gangid g.t fun o => { o with armAcks := [s.fab.epid] }
  | none => s.sendCtl g.coord g.job g.gangid g.t 1

/-- Whether hart 0 of a core runs context 0: here as it stands, elsewhere while a task of context 0 has harts there (R181). -/
def State.runsZero (s : State) (c : Nat) : Bool :=
  if c = s.core.num then s.harts[(0 : Fin 4)].isRunning && s.harts[(0 : Fin 4)].ctxid = 0#32
  else s.sched.tasks.any fun x => x.ctxid = 0#32 && x.others ≠ 0 && x.cmask.getLsbD c

/-- STRAGGLER and WDOG (R181): to hart 0 of the lowest core that runs context 0; kept while none does, up to 16, then reported. -/
def State.raiseAsync (s : State) (t : Trap) : State :=
  match (List.range 384).find? s.runsZero with
  | some c => if c = s.core.num then s.modHart 0 fun h => { h with asyncs := h.asyncs ++ [t] } else s
  | none =>
    if s.sched.pendingAsync.length < 16 then
      { s with sched := { s.sched with pendingAsync := s.sched.pendingAsync ++ [t] } }
    else s.postEvent 0x32 ([t.cause] ++ natLe 3 0 ++ natLe 4 t.tval.toNat)

/-- The STRAGGLER trap of a gang. -/
def stragglerTrap (gangid : BitVec 32) : Trap := ⟨cSTRAGGLER, gangid.setWidth 64⟩

/-- A member tells its coordinator that it has not kept the instant; for the device's own launch the split kills the context (R178). -/
def State.tellStraggler (s : State) (g : GangRec) : State :=
  match s.offer g.gangid g.t with
  | some _ => (s.gangError g.ctxid.toNat 7 g.gangid 0).killContext g.ctxid.toNat cSTRAGGLER
  | none => s.sendCtl g.coord g.job g.gangid g.t 4

/-! ### Preparation (R157, R196) -/

/-- A preparation has failed: the member will not acknowledge the arm, and an entry names the gang (R196, R390). -/
def State.failPreparation (s : State) (g : GangRec) : State :=
  (s.putRecord { g with finished := true }).gangError g.ctxid.toNat 7 g.gangid 0

/-- The entry of a timed launch is bound, and its harts take the state of R146 with task priority 7 (R157, R162). -/
def State.prepareLaunch (s : State) (g : GangRec) : Option GangRec :=
  match s.bindEntry (recCtx g.raw) (recHash g.raw) (recOff g.raw) with
  | none => none
  | some (pc, compat) =>
    let starts := (s.hartsHere (recMask g.raw) g.harts).map fun i =>
      (⟨i, startedHart g.raw g.gangid 0 7 pc s.core.num i.val, 0, false, []⟩ : Start)
    some { g with prepared := true, compat := compat, starts := starts, queue := [0, 0, 0, 0, 0, 7, 0] }

/-- The image of a resume is read, checked and bound (R196). -/
def State.prepareResume (s : State) (g : GangRec) : Option GangRec :=
  match s.ctx g.ctxid.toNat with
  | none => none
  | some c =>
    match s.readImage c.compat g.raw with
    | none => none
    | some m =>
      match s.readStarts m g.raw 0 (s.slotOrder (recMask g.raw) g.harts) with
      | none => none
      | some xs =>
        let f (o n : Nat) : Nat := sliceNat m.bytes o n
        some { g with prepared := true, compat := decide (f 22 1 = 1), starts := xs,
                      queue := [f 64 8, f 72 8, f 80 4, f 84 4, f 88 4, f 23 1 / 4 % 8, f 6 1 % 2, f 100 4] }

/-- Set the STATE byte of the image at a record's ARGS. -/
def State.imageState (s : State) (raw : List Byte) (v : Nat) : State :=
  (s.deviceWrite (whoDevice (recCtx raw)) ((recArgs raw).toNat + 7) (natLe 1 v)).getD s

/-- A record that has been told to arm becomes armed once it is prepared, and acknowledges (R175), but for one that UNC has refused (R96)
and one of the timed mode whose instant has passed. -/
def State.tryArm (s : State) (g : GangRec) : State :=
  if g.prepared && g.told && !g.refused && !g.armed && !g.acted && !g.finished && (g.wave || !g.passed) then
    let g1 := { g with armed := true }
    (s.putRecord g1).ackArm g1
  else s.putRecord g

/-- The bindings that a preparation makes stand in the binding cache (R391). -/
def State.notePreparation (s : State) (g : GangRec) : State :=
  if g.kind = 0 then s.noteBinding (recCtx g.raw) (recHash g.raw)
  else
    match (s.ctx g.ctxid.toNat).bind fun c => s.readImage c.compat g.raw with
    | some m => State.tick (m.objs.foldl (fun s b => s.putBinding (recCtx g.raw) b.hash (some b)) s)
    | none => s

/-- The entry's first 64-byte line goes into the instruction cache of this core, when a launch names it (R157). -/
def State.fillEntry (s : State) (g : GangRec) : State :=
  match g.starts with
  | x :: _ =>
    let w : Who := ⟨x.slot, g.ctxid.toNat, x.hart.level, x.hart.pc, 5, 0⟩
    (match s.locate w (x.hart.pc.toNat / 64 * 64) 4 .fetch .scalar with
    | .ok (.hbm k enc _ _, s1) => (s1.icacheRead w enc k).2
    | _ => s)
  | [] => s

/-- A member has finished its preparation (R157, R196). -/
def State.prepare (s : State) (g : GangRec) : State :=
  let done (r : Option GangRec) (s : State) : State :=
    match r with
    | some g => ((if g.kind = 0 then s.fillEntry g else s).putRecord g).recount.tryArm g
    | none => (if g.kind = 2 then s.imageState g.raw 3 else s).failPreparation g
  if g.prepared || g.finished || g.acted then s
  else if g.kind = 0 then done (s.prepareLaunch g) (s.notePreparation g)
  else if g.kind = 1 then done (some { g with prepared := true }) s
  else done (s.prepareResume g) (s.notePreparation g)

/-- GANG_PREPARATION_DONE (R196). -/
def execGangPreparationDone (gangid : BitVec 32) (t : Nat) (s : State) : Result :=
  .next (match s.record gangid t with | some g => s.prepare g | none => s)

/-! ### Acting -/

/-- Start a task from prepared harts, with its work queue (R148, R157, R197). -/
def State.beginTask (s : State) (g : GangRec) (xs : List Start) : State :=
  let m := recMask g.raw
  let n := g.harts
  let id := s.sched.nextTask
  let q (k : Nat) : Nat := g.queue.getD k 0
  let t : Task := { id := id, ctxid := g.ctxid, gangid := g.gangid, prio := q 5, harts := n, cmask := m, here := xs.map (·.slot),
                    others := n * maskCores m - xs.length, hasQueue := decide (q 4 ≠ 0), next := q 0, rem := q 1, p := q 4,
                    minchunk := q 2, maxchunk := q 3, nmem := recNmem g.raw, map := recMap g.raw, coord := g.coord, sampled := false,
                    arrived := q 7 - (xs.filter fun x => match x.hart.status with | .waiting (.barrier _) _ => true | _ => false).length }
  let s := s.addTask t
  xs.foldl (fun s x => s.placeStart { x with hart := { x.hart with task := id } }) s

/-- A hart of a native context stops at T (R182, R187): its buffered stores perform, the passes that have entered are written, what ran ahead
is discarded (R185), strips fetched and not popped are too (R183), and it leaves the FIFO queues (R311). One at E goes on until its `emuret`. -/
def State.freezeHart (s : State) (i : Fin 4) : State :=
  if s.harts[i].level = .e || s.harts[i].emulating then s
  else
    let s := ((State.drainStores i s.harts[i].stbuf.length s).finishPasses i).stopFibre i
    State.modHart { s with core := { s.core with fifoWaiters := s.core.fifoWaiters.filter (fun b => b.1 != i) } } i fun h =>
      { h.rewind.freeze with fetched := Vector.replicate 4 [] }

/-- The running task that a pre-emption names, or the first of its context (R151, R174). -/
def State.gangTask (s : State) (g : GangRec) : Option Task :=
  match s.sched.tasks.find? fun t => t.ctxid = g.ctxid && t.gangid = g.gangid with
  | some t => some t
  | none => s.sched.tasks.find? (·.ctxid = g.ctxid)

/-- Whether a pre-emption finds nothing to save (R178): its context is frozen, and its gang is saved, or a record before it saves it. -/
def State.savedAlready (s : State) (g : GangRec) : Bool :=
  !(s.sched.tasks.any fun t => t.ctxid = g.ctxid && t.gangid = g.gangid) ||
  s.sched.gangs.any fun x => x.gangid = g.gangid && x.t ≠ g.t && x.kind = 1 && x.acted && !x.finished

/-- The pre-emption of a context (R182, R188): its JOB entry is FROZEN at once in native mode, and in compatibility mode once its harts have
stopped; a member that is frozen already does nothing (R178), but for a further gang of the context, which has an image of its own. -/
def State.actPreempt (s : State) (g : GangRec) : State :=
  match s.ctx g.ctxid.toNat with
  | none => s
  | some c =>
    if c.preempted then s.putRecord { g with acted := true, finished := s.savedAlready g }
    else
      let s := s.modCtx g.ctxid.toNat fun c => { c with preempted := true }
      if c.isCompat then s.settleFreeze
      else
        (s.hartsOf g.ctxid).foldl State.freezeHart
          (s.modJob c.job fun e => if e.state = .active then { e with state := .frozen } else e)

/-- A resumed hart as its image's FLAGS.NOTIFY leaves it: with a PREEMPT trap at S (R197). -/
def notified (notify : Bool) (gangid : BitVec 32) (x : Start) : Start :=
  if notify && x.hart.status != .done then { x with hart := x.hart.enterS ⟨cPREEMPT, gangid.setWidth 64⟩ x.hart.pc } else x

/-- The resume of a context (R197, R357): its JOB entry is ACTIVE again, the scalar data cache of a core that receives a hart is empty, and its
harts start. -/
def State.actResume (s : State) (g : GangRec) : State :=
  let notify := decide (g.queue.getD 6 0 = 1)
  match s.ctx g.ctxid.toNat with
  | none => s
  | some c =>
    let s := s.modJob c.job fun e => if e.state = .frozen then { e with state := .active } else e
    let s := s.modCtx g.ctxid.toNat fun c => { c with preempted := false, compat := some (c.compat.getD g.compat) }
    let s := if g.starts.isEmpty then s else { s with core := { s.core with dcache := [] } }
    if notify && g.starts.any (fun x => x.hart.etvec = 0#64 && x.hart.status != .done) then s.killContext g.ctxid.toNat cPREEMPT
    else
      let xs := g.starts.map (notified notify g.gangid)
      let s := s.beginTask g xs
      let waits := xs.filterMap fun x => match x.hart.status with | .waiting .matrixMode _ => some x.slot | _ => none
      { s with core := { s.core with matrixWaiters := s.core.matrixWaiters ++ waits } }

/-- A timed launch (R157). -/
def State.actLaunch (s : State) (g : GangRec) : State :=
  (s.modCtx g.ctxid.toNat fun c => { c with compat := some (c.compat.getD (g.compat && s.feat 12)) }).beginTask g g.starts

/-- An armed member acts at its instant (R91, R96, R175), and takes its report (R98). -/
def State.act (s : State) (g : GangRec) : State :=
  let g1 := { g with acted := true, startTime := s.gtimeNs, starts := [] }
  let s1 := ((s.putRecord g1).recount).modOffer g.gangid g.t fun o => { o with mode := 4 }
  let s2 := if g.kind = 0 then s1.actLaunch g else if g.kind = 1 then s1.actPreempt g1 else s1.actResume g
  let s3 := (s2.queueReport g.raw g.gangid ((if g.wave then 1 else 0) + (if g.hold then 2 else 0)) s1.sched.nextTask
    (decide (g.kind = 1))).writeReports
  { s3 with sched := { s3.sched with offers := s3.sched.offers.filter fun o => o.mode ≠ 4 } }

/-- The instant of a record falls (R91, R96, R175, R177): GTIME is at least T. An armed record of the timed mode acts; one armed in wave mode
waits for its go; one that was told nothing raises STRAGGLER and is discarded. For the device's own launch in wave mode, the go is sent now. -/
def State.instantOf (s : State) (gangid : BitVec 32) (t : Nat) : State :=
  match s.record gangid t with
  | none => s
  | some g0 =>
    let g := { g0 with passed := true }
    let s := s.putRecord g
    let s := { s with clock := { s.clock with gtime := max s.clock.gtime (t * 65536) } }
    if g.acted then s
    else if g.armed && (!g.wave || (s.offer gangid t).isSome) then s.act g
    else if g.armed || g.told then s
    else ((s.raiseAsync (stragglerTrap gangid)).tellStraggler g).dropRecord g

/-- Whether the instant of `a` comes before that of `b`: by T, on one cycle freezes first, then by GANGID (R99). -/
def GangRec.before (a b : GangRec) : Bool :=
  let k (g : GangRec) : Nat := (g.t * 2 + (if g.kind = 1 then 0 else 1)) * 2 ^ 32 + g.gangid.toNat
  decide (k a < k b)

/-- Insert a record among others in the order of their instants. -/
def insertGang (g : GangRec) : List GangRec → List GangRec
  | [] => [g]
  | x :: xs => if g.before x then g :: x :: xs else x :: insertGang g xs

/-- The records whose instant falls now or has to fall before a time, in the order in which they act (R91, R99). -/
def State.due (s : State) (t : Nat) : List GangRec :=
  (s.sched.gangs.filter fun g => !g.passed && decide (g.t ≤ t)).foldl (fun l g => insertGang g l) []

/-- SWITCH_INSTANT (R91, R99): GTIME reaches the T of a record that waits for it; the instants before it, and those of the same cycle, fall
too. -/
def execSwitchInstant (gangid : BitVec 32) (t : Nat) (s : State) : Result :=
  .next <|
    match s.record gangid t with
    | none => s
    | some g => if g.passed then s else (s.due t).foldl (fun s g => s.instantOf g.gangid g.t) s

/-! ### The messages of the coordinator (R643) -/

/-- Whether a GANGCTL of a kind is well formed (R63, R67). -/
def pktCtl (p : Packet) (kind flag : Nat) : Bool :=
  p.zerosOk && decide (p.spec16.toNat % 16 = kind) && decide (p.spec16.toNat / 16 = 0 || p.spec16.toNat / 16 = flag) && pktBeats p 0

/-- A GANGCTL that is in order (R67, R78) meets the record it names, if any (R643). It is no request, so R76 asks nothing of its JOB entry. -/
def State.atRecord (s : State) (p : Packet) (kind flag : Nat) (k : Option GangRec → State → State) : Result :=
  .next <|
    if !pktCtl p kind flag then s.dropPacket p
    else if tooOld p then s
    else
      match s.record p.itag p.spec64.toNat with
      | some g => if g.coord = p.src then k (some g) s else k none s
      | none => k none s

/-- The arm of a record, by the coordinator's message or its own decision. A member that acknowledged the record without HOLD checks UNC
again when an arm of the timed mode reaches it (R96). -/
def State.arm (s : State) (g : GangRec) (wave : Bool) : State :=
  if g.acted then s
  else s.tryArm { g with told := true, wave := wave, refused := !wave && !g.hold && decide (1000 < s.uncNow) }

/-- GANGCTL arm (R96, R175). -/
def execGangctlArm (p : Packet) (s : State) : Result :=
  s.atRecord p 0 1 fun g s => match g with | some g => s.arm g (p.spec16.getLsbD 4) | none => s

/-- GANGCTL cancel (R176, R177, R643). -/
def execGangctlCancel (p : Packet) (s : State) : Result :=
  s.atRecord p 2 0 fun g s =>
    let ack (s : State) : State := s.sendCtl p.src p.job p.itag p.spec64.toNat 33
    match g with
    | some g => if g.acted then s.sendCtl g.coord g.job g.gangid g.t 4 else ack (s.dropRecord g)
    | none => ack s

/-- GANGCTL go (R96, R97): the member acts on the cycle at which it accepts the go. -/
def execGangctlGo (p : Packet) (s : State) : Result :=
  s.atRecord p 3 0 fun g s =>
    match g with
    | some g => if g.armed && g.wave && !g.acted then s.act g else s
    | none => s

/-- Whether a gang-control copy waits for an acknowledge (R500, R643). -/
def ackFor (p : Packet) (e : QEntry) : Bool :=
  match e.memo with
  | [d, _] =>
    let aux := bitsAt d 448 64
    e.post.body == .cpyr && decide (copyKind d = 4) && decide (aux % 2 ^ 19 = p.src.toNat) &&
    decide (bitsAt d 256 32 = p.itag.toNat) && decide (bitsAt d 64 64 = p.spec64.toNat) &&
    decide (bitsAt aux 32 4 = if p.spec16.getLsbD 5 then 2 else 0)
  | _ => false

/-- The gang-control copies of a frozen hart that have their acknowledge write their answers (R183). -/
def State.finishGangctl (s : State) (i : Fin 4) : State :=
  (s.harts[i].queue.filter fun e => e.post.body == .cpyr && copyKind (e.memo.headD 0) == 4 && decide (3 ≤ e.memo.length)).foldl (fun s e =>
    match s.harts[i].entry e.eid with
    | some e => State.applyRan i none (runGangctl i (e.memo.headD 0) s e)
    | none => s) s

/-- GANGCTL acknowledge (R500, R643): the copies that wait for it write their answers. -/
def execGangctlAcknowledge (p : Packet) (s : State) : Result :=
  .next <|
    if !pktCtl p 1 2 then s.dropPacket p
    else if tooOld p then s
    else
      let s1 : State := { s with harts := s.harts.map fun h =>
        { h with queue := h.queue.map fun e => if ackFor p e then { e with memo := e.memo ++ [1] } else e } }
      [(0 : Fin 4), 1, 2, 3].foldl (fun s i => if s.harts[i].frozen then s.finishGangctl i else s) s1

/-- GANGCTL straggler at a coordinator (R178, R500): an entry of KIND 7 in the gang's context. -/
def execGangctlStraggler (p : Packet) (s : State) : Result :=
  .next <|
    if !pktCtl p 4 0 then s.dropPacket p
    else if tooOld p then s
    else
      match s.jobEntry p.job with
      | none => s
      | some e =>
        s.errorToCollector e.ctxid { va := 0#64, peer := p.src, itag := 0#32, kind := 7, st := 0, attr := 0#8, hart := none, job := p.job,
                                     aux := p.itag.toNat, data := [] }

/-! ### The device's own offers (R96, R128, R175 to R179) -/

/-- Offer a launch to the device itself: its record is answered at once. -/
def State.offerLaunch (s : State) (raw : List Byte) (job : BitVec 16) (round : Nat) : State :=
  let r : Nat × State := if s.recBad raw then (9, s) else s.takeRecord raw job s.fab.epid
  let o : Offer := { raw := raw, gangid := recGang raw, ctxid := BitVec.ofNat 32 (recCtx raw), kind := recKind raw, t := recT raw,
                     members := [s.fab.epid], acks := [(s.fab.epid, r.1)], armAcks := [], cancelAcks := [], mode := 0, round := round }
  { r.2 with sched := { r.2.sched with offers := r.2.sched.offers ++ [o] } }

/-- The coordinator cancels (R176, R179): the member acknowledges at once; the third cancel ends the offers. -/
def State.cancelOffer (s : State) (o : Offer) : State :=
  let s := match s.record o.gangid o.t with | some g => if g.acted then s else s.dropRecord g | none => s
  if 3 ≤ o.round then
    State.gangError { s with sched := { s.sched with offers := s.sched.offers.filter fun x => !(x.gangid = o.gangid && x.t = o.t) } }
      o.ctxid.toNat 7 o.gangid 0
  else s.modOffer o.gangid o.t fun o => { o with mode := 3, cancelAcks := [s.fab.epid] }

/-- MODE_DECISION (R96): 10 us before T. -/
def execModeDecision (gangid : BitVec 32) (t : Nat) (s : State) : Result :=
  .next <|
    match s.offer gangid t with
    | none => s
    | some o =>
      if o.mode ≠ 0 then s
      else
        let s := s.reach (t - 10000)
        let timed := o.members.all fun e => o.acks.any fun a => a.1 = e && a.2 = 0
        let wave := o.members.all fun e => o.acks.any fun a => a.1 = e && (a.2 = 0 || a.2 = 16)
        if timed || wave then
          let s := s.modOffer gangid t fun o => { o with mode := if timed then 1 else 2 }
          match s.record gangid t with | some g => s.arm g (!timed) | none => s
        else s.cancelOffer o

/-- ARM_ACK_DEADLINE (R175): at T - 4 us a missing acknowledge cancels. -/
def execArmAckDeadline (gangid : BitVec 32) (t : Nat) (s : State) : Result :=
  .next <|
    match s.offer gangid t with
    | none => s
    | some o =>
      if (o.mode = 1 || o.mode = 2) && o.armAcks.isEmpty then (s.reach (t - 4000)).cancelOffer o else s

/-- CANCEL_RESEND (R176): to each member whose acknowledge of the cancel is missing. -/
def execCancelResend (gangid : BitVec 32) (t : Nat) (s : State) : Result :=
  .next <|
    match s.offer gangid t with
    | none => s
    | some o =>
      if o.mode = 3 && s.gtimeNs < t then
        (o.members.filter fun e => !o.cancelAcks.contains e).foldl (fun s e => s.sendCtl e (s.jobOf o.ctxid.toNat) gangid t 2) s
      else s

/-- GANG_REOFFER (R179): a cancelled record is offered again for T + 100 us. -/
def execGangReoffer (gangid : BitVec 32) (t : Nat) (s : State) : Result :=
  .next <|
    match s.offer gangid t with
    | none => s
    | some o =>
      if o.mode = 3 then
        State.offerLaunch { s with sched := { s.sched with offers := s.sched.offers.filter fun x => !(x.gangid = gangid && x.t = t) } }
          (splice o.raw 32 (natLe 8 (t + 100000))) (s.jobOf o.ctxid.toNat) (o.round + 1)
      else s

/-! ### The end of a pre-emption -/

/-- The record that pre-empted a context and has not been saved yet. -/
def State.preempting (s : State) (gangid : BitVec 32) (t : Nat) : Option (GangRec × Context) :=
  match s.record gangid t with
  | none => none
  | some g =>
    if g.kind = 1 && g.acted && !g.finished then (s.ctx g.ctxid.toNat).map (g, ·) else none

/-- STRAGGLER_LIMIT (R180, R187): the drain is not done 50 us after T. -/
def execStragglerLimit (gangid : BitVec 32) (t : Nat) (s : State) : Result :=
  .next <|
    match s.preempting gangid t with
    | none => s
    | some (g, c) =>
      let s := s.reach (g.startTime + 50000)
      if !c.isCompat && (c.drain ≠ 0 || !s.allStopped g.ctxid) then s.raiseAsync (stragglerTrap gangid) else s

/-- WDLIMIT of the image of a pre-emption in us: 0, or a header that cannot be read, stands for 10,000 (R191). -/
def State.wdlimit (s : State) (g : GangRec) : Nat :=
  match s.deviceRead (whoDevice (recCtx g.raw)) ((recArgs g.raw).toNat + 8) 4 with
  | some b => if leNat b = 0 then 10000 else leNat b
  | none => 10000

/-- WATCHDOG_EXPIRY (R181, R188): WDLIMIT has passed since T; a compatibility context that has not stopped is killed, and the gang is
split. -/
def execWatchdogExpiry (gangid : BitVec 32) (t : Nat) (s : State) : Result :=
  .next <|
    match s.preempting gangid t with
    | none => s
    | some (g, c) =>
      if c.isCompat && !s.allStopped g.ctxid then
        let s := s.reach (g.startTime + 1000 * s.wdlimit g)
        ((s.tellStraggler g).killContext g.ctxid.toNat cWDOG).raiseAsync ⟨cWDOG, g.ctxid.setWidth 64⟩
      else s

/-- What a save knows of its context (R191). How many harts on other cores have arrived at a barrier is a free value. -/
def State.imageInfo (s : State) (g : GangRec) (c : Context) (hd : List Byte) : ImageInfo :=
  let task := s.gangTask g
  let mine := ((s.hartsOf g.ctxid).filter fun i => match s.harts[i].status with | .waiting (.barrier _) _ => true | _ => false).length
  let arrived := mine + (match task with | some t => t.arrived + Config.freeChoice s.free % (t.others - t.arrived + 1) | none => 0)
  let prio := match s.hartsOf g.ctxid with | i :: _ => s.harts[i].prio | [] => (match task with | some t => t.prio | none => 0)
  { version := if c.isCompat && !(s.host.accept[1]).getLsbD 0 then 1 else 2, flags := sliceNat hd 6 1, wdlimit := sliceNat hd 8 4,
    ctxid := c.ctxid, gangid := g.gangid, job := c.job, compat := c.isCompat, harts := g.harts, prio := prio, t := g.t,
    queue := (match task with | some t => if t.hasQueue then [t.next, t.rem, t.minchunk, t.maxchunk, t.p] else [] | none => []),
    arrived := arrived, mask := recMask g.raw }

/-- The image of a pre-empted context is written, STATE last (R190, R261, R392); one that cannot be made is invalid, and an entry names
the gang. -/
def State.writeImage (s : State) (g : GangRec) (c : Context) : State :=
  let who := whoDevice c.ctxid
  let va := (recArgs g.raw).toNat
  if !c.isCompat && !(s.host.accept[1]).getLsbD 0 then s.imageState g.raw 3
  else
    let hd := (s.deviceRead who va 256).getD []
    match s.image (s.imageInfo g c hd) with
    | none => (s.imageState g.raw 3).gangError c.ctxid 7 g.gangid 0
    | some bs =>
      match s.deviceWrite who va bs with
      | none => (s.imageState g.raw 3).gangError c.ctxid 7 g.gangid 0
      | some s => s.imageState g.raw 2

/-- What the harts of a saved gang held is free (R182): those of its task, or of every task of the context where it names none. -/
def State.switchOut (s : State) (g : GangRec) : State :=
  let goes (t : Task) : Bool :=
    t.ctxid = g.ctxid && (t.gangid = g.gangid || !s.sched.tasks.any fun x => x.ctxid = g.ctxid && x.gangid = g.gangid)
  let stays := s.sched.tasks.filter fun t => t.ctxid = g.ctxid && !goes t
  let of_ (n : Nat) : Bool := !stays.any fun t => t.id = n
  let s := ((s.hartsOf g.ctxid).filter fun i => of_ s.harts[i].task).foldl (fun s i => (s.giveUp i).modHart i Hart.stop) s
  State.fillStarts { s with sched := { s.sched with
    tasks := s.sched.tasks.filter (fun t => !goes t),
    starts := s.sched.starts.filter fun x => !(x.hart.ctxid = g.ctxid && of_ x.hart.task) } }

/-- Whether a bank that changes its mode keeps the image from being written (R310). -/
def State.imageWaits (s : State) (g : GangRec) : Bool :=
  match s.deviceLoad (whoDevice (recCtx g.raw)) (recArgs g.raw).toNat 256 with | .busy => true | _ => false

/-- SAVE_IMAGE_WRITE (R182, R190): once every hart has stopped and the drain counter is zero. -/
def execSaveImageWrite (gangid : BitVec 32) (t : Nat) (s : State) : Result :=
  .next <|
    match s.preempting gangid t with
    | none => s
    | some (g, c) =>
      let quiet := (s.hartsOf g.ctxid).all fun i => s.harts[i].stbuf.isEmpty && s.harts[i].late.isEmpty && s.harts[i].eqWait.isEmpty
      if c.drain = 0 && s.allStopped g.ctxid && quiet && !s.imageWaits g then
        (((s.settleFreeze.writeImage g c).tick.switchOut g).putRecord { g with finished := true }).tick
      else s

end Sys2Proof.Machine
end

