-- ==== Sys2Proof/Machine/Banks.lean ====
section
/-! DEFINITION. Cluster SRAM banks that change their mode or lose lines (R305 to R311, R315, R318), and the rebuild of a protected range
(R324, R325). -/

namespace Sys2Proof.Machine

/-! ### Bank modes -/

/-- BANKMODE_WRITE (R305, R309). -/
def execBankmodeWrite (die bank : Nat) (v : Word) (s : State) : Result := .next (s.writeBankMode die bank v)

/-- A bank whose change ends (R309, R310): it opens in the new mode with nothing in it, and a change that was asked for meanwhile follows. A
withdrawal runs one to OFF, whichever the mode is. -/
def Bank.changed (b : Bank) : Bank :=
  { b with cur := b.target, fifo := [], target := b.mode, busy := b.again && (b.wdrawn || b.mode != b.target), again := false }

/-- The scratchpad bytes of a bank are gone, with its uncorrectable words and the combining-store entries that wait for them (R309). -/
def State.clearBank (s : State) (die bank : Nat) : State :=
  let k := spadKey die (bank * 2 ^ 18)
  let here (a : Nat) : Bool := decide (k ≤ a) && decide (a < k + 2 ^ 18)
  { s with mem := { s.mem with cells := s.mem.cells.filter fun c => !here c.1, eccBad := s.mem.eccBad.filter fun w => !here (8 * w),
                               sca := s.mem.sca.filter fun e => !here e.key } }

/-- BANK_MODE_CHANGE_DONE (R309, R310): step 5 of the sequence; accesses that waited for the bank go on. -/
def execBankModeChangeDone (die bank : Nat) (s : State) : Result :=
  .next <|
    match s.bank die bank with
    | some b =>
      if b.busy then
        let s := (s.clearBank die bank).modBank die bank Bank.changed
        [(0 : Fin 4), 1, 2, 3].foldl (fun s i => State.retryErrors (State.drainLate i s) i) s
      else s
    | none => s

/-! ### Spare lines (R315, R318) -/

/-- A bank withdrawn: a sequence to OFF runs, a further one where another runs now (R310, R318). -/
def Bank.withdraw (b : Bank) : Bank :=
  { b with mode := .off, wdrawn := true, busy := true, target := if b.busy then b.target else .off, again := b.busy }

/-- LINE_REMAP (R315, R318): the line moves to a free spare, or the bank is withdrawn and the host is told. -/
def execLineRemap (die bank line : Nat) (s : State) : Result :=
  .next <|
    match s.bank die bank with
    | some b =>
      if b.wdrawn || 4096 ≤ line then s
      else if 0 < b.spares then s.modBank die bank fun b => { b with spares := b.spares - 1, remapped := natInsert b.remapped line }
      else (State.modBank { s with mem := if b.busy then s.mem else s.mem.closeBank die bank } die bank Bank.withdraw).postEvent 0x20 (natLe 1 die ++ natLe 1 bank)
    | none => s

/-- REBUILD_GO (R325): a write of RBCTL with GO. -/
def execRebuildGo (group : Nat) (v : Word) (s : State) : Result :=
  .next (if group < 256 then s.writeGroup group 96 (v ||| 0x10000000#64) else s)

/-- REBUILD_UNIT_DONE (R325): the rebuild of a group goes on with the stripe that this member rebuilds next. The answers to the writes of its
unit end it. -/
def execRebuildUnitDone (group stripe : Nat) (slot : BitVec 4) (newep : Epid) (s : State) : Result :=
  .next <|
    match s.group group with
    | none => s
    | some g => if g.busy && slot = g.slot && newep = g.newep && stripe = g.nextStripe then s.rebuildStep group else s

end Sys2Proof.Machine
end

