-- ==== Sys2Proof/Machine/Trusts.lean ====
section
/-! DEFINITION. Attestation messages and session keys (R100 to R105), and the packets and time-outs of reductions (R109 to R111, R641). -/

namespace Sys2Proof.Machine

/-! ### Reductions -/

/-- Whether a REDUCE or REDRES packet is well formed (R63, R67, R106): 1 to 16 beats of data, SPEC16[15:13] zero. -/
def pktRedOk (p : Packet) : Bool :=
  let n := p.dbeats.toNat - (if p.enc then 1 else 0)
  p.zerosOk && decide (p.spec16.toNat < 2 ^ 13) && decide (1 ≤ n) && decide (n ≤ 16) && pktBeats p n

/-- A packet of a reduction, checked and used or held (R67, R78, R109, R641). -/
def atReduction (p : Packet) (s : State) : Result :=
  .next (if !pktRedOk p then s.dropPacket p else if tooOld p then s else s.reduceArrive p)

/-- `REDUCE` (R109). -/
def execReduce (p : Packet) (s : State) : Result := atReduction p s

/-- `REDRES` (R109, R111). -/
def execRedres (p : Packet) (s : State) : Result := atReduction p s

/-- REDUCE_HOLD_TIMEOUT (R641): a held packet, by its place among those held, is dropped after 208,000 cycles. -/
def execReduceHoldTimeout (i : Nat) (s : State) : Result :=
  .next { s with trust := { s.trust with held := s.trust.held.eraseIdx i } }

/-- REDUCTION_TIMEOUT (R111): a chunk has not arrived within 208,000 cycles. -/
def execReductionTimeout (job : BitVec 16) (rid : BitVec 32) (s : State) : Result := .next (s.timeoutReduction job rid)

/-! ### Keys (R103, R105) -/

/-- A JOBKEY payload (R103). -/
def jobKeyOf (d : List Byte) : JobKey :=
  { job := BitVec.ofNat 16 (sliceNat d 0 2), kepoch := BitVec.ofNat 32 (sliceNat d 4 4), stag := BitVec.ofNat 32 (sliceNat d 8 4),
    key := slice d 16 32, expiry := sliceNat d 48 8, counters := Vector.replicate 24 0 }

/-- Whether a payload's zero fields are zero. -/
def jobKeyZeros (d : List Byte) : Bool :=
  decide (d.length = 64) && decide (sliceNat d 2 2 = 0) && decide (sliceNat d 12 4 = 0) && decide (sliceNat d 56 8 = 0)

/-- Whether a job may take a key of an epoch now (R105): the epoch is the job's first here, or its gang is pre-empted and no reduction of it is
outstanding. -/
def State.mayRekey (s : State) (job : BitVec 16) (epoch : BitVec 32) : Bool :=
  match s.trust.epochs.lookup job with
  | none => true
  | some e =>
    e != epoch && (match s.jobEntry job with | some e => e.state == .frozen | none => false) &&
    !(s.trust.reductions.any fun r => r.job = job)

/-- Take a key: the device never holds two epochs of one job (R105). -/
def State.installKey (s : State) (k : JobKey) : State :=
  if s.mayRekey k.job k.kepoch then
    { s with trust := { s.trust with keys := k :: s.trust.keys.filter fun x => x.job ≠ k.job,
                                     epochs := (k.job, k.kepoch) :: s.trust.epochs.filter fun x => x.1 ≠ k.job } }
  else s

/-- A job's key is erased. -/
def State.eraseKey (s : State) (job : BitVec 16) : State :=
  { s with trust := { s.trust with keys := s.trust.keys.filter fun x => x.job ≠ job } }

/-- JOBKEY_EXPIRY (R103): GTIME passes EXPIRY. -/
def execJobkeyExpiry (job : BitVec 16) (s : State) : Result :=
  .next (match s.jobKey job with | some k => (s.reach (k.expiry + 1)).eraseKey job | none => s)

/-! ### SPDM messages (R100 to R102) -/

/-- Send an SPDM message: fragments of up to 256 bytes, each behind its header (R100). -/
def State.sendSpdm (s : State) (dst : Epid) (kinds : Nat) (msg : List Byte) : State :=
  let n := (msg.length + 255) / 256
  let head (k : Nat) : List Byte :=
    natLe 2 s.trust.mseq ++ natLe 2 k ++ natLe 2 n ++ natLe 4 msg.length ++ natLe 1 kinds ++ [0#8] ++ natLe 4 0
  let s1 := (List.range n).foldl (fun s k =>
    s.emit (s.fab.portFor 0xA000#16 dst)
      (s.mkPacket 0x20 dst 0#16 0#16 0xA000#16 0#32 0#16 0#64 (head k ++ (msg.drop (256 * k)).take 256))) s
  { s1 with trust := { s1.trust with mseq := s.trust.mseq + 1 } }

/-- Code of an SPDM message. The codes, and the place of the version list, are those of DMTF DSP0274 (assumption 18). -/
def spdmCode (msg : List Byte) : Nat := sliceNat msg 1 1

/-- The requests that the Crozier uses (R101): GET_VERSION, GET_CAPABILITIES, NEGOTIATE_ALGORITHMS, GET_DIGESTS, GET_CERTIFICATE, CHALLENGE,
GET_MEASUREMENTS, KEY_EXCHANGE, FINISH, END_SESSION and VENDOR_DEFINED_REQUEST. -/
def spdmRequests : List Nat := [0x84, 0xE1, 0xE3, 0x81, 0x82, 0x83, 0xE0, 0xE4, 0xE5, 0xEC, 0xFE]

/-- Whether a VERSION response offers a version that defines ML-DSA-87 and ML-KEM-1024 (R101): 1.4 (assumption 18). -/
def spdmVersionOk (msg : List Byte) : Bool :=
  (List.range (sliceNat msg 5 1)).any fun k => sliceNat msg (7 + 2 * k) 1 = 0x14

/-- The code, without its request bit, of the message that a step waits for, and the step behind it. -/
def SpdmStage.awaits : SpdmStage → Nat × SpdmStage
  | .version => (0x04, .capabilities)
  | .capabilities => (0x61, .algorithms)
  | .algorithms => (0x63, .certificate)
  | .certificate => (0x02, .challenge)
  | .challenge => (0x03, .measurements)
  | .measurements => (0x60, .exchange)
  | .exchange => (0x64, .finish)
  | .finish => (0x65, .session)
  | .session => (0x6C, .session)

/-- Whether a member's digests all appear in its job's policy (R102). -/
def State.policyAccepts (s : State) (job : BitVec 16) (ds : List (List Byte)) : Bool :=
  match s.trust.policies.find? (·.job = job) with
  | some p => ds.all fun d => p.entries.any fun x => x.2 = d
  | none => false

/-- Replace an endpoint's exchange, or end it. -/
def State.setPeer (s : State) (ep : Epid) (x : Option SpdmPeer) : State :=
  { s with trust := { s.trust with peers := x.toList ++ s.trust.peers.filter (·.ep ≠ ep) } }

/-- A member is refused, and the runtime is told (R102, R132). -/
def State.refuseMember (s : State) (x : SpdmPeer) : State :=
  (s.setPeer x.ep none).postEvent 0x30 (natLe 4 x.ep.toNat ++ natLe 2 x.job.toNat)

/-- What a message does to its sender's exchange (R101, R102): a response or request of the step that comes next moves it on when it passes its
checks; a peer that offers no version ends it; a member that fails attestation, or whose digests are not all in the policy, is refused. -/
def State.spdmStep (s : State) (x : SpdmPeer) (msg : List Byte) : State :=
  let c := spdmCode msg
  let ok := Config.spdmOk s.free msg
  if c % 128 ≠ x.stage.awaits.1 % 128 then s
  else if x.stage = .session then (if c = 0xEC then s.setPeer x.ep none else s)
  else if c = 0x04 && !spdmVersionOk msg then s.setPeer x.ep none
  else if !ok || (c = 0x60 && !s.policyAccepts x.job (Config.spdmDigests msg)) then
    (if x.stage = .challenge || x.stage = .measurements then s.refuseMember x else s.setPeer x.ep none)
  else s.setPeer x.ep (some { x with stage := x.stage.awaits.2 })

/-- A message that the Crozier can use (R101 to R103): a key inside a session, a new exchange of the other side, or the next step of one. -/
def State.spdmUse (s : State) (src : Epid) (secured : Bool) (msg : List Byte) : State :=
  let peer := s.trust.peers.find? (·.ep = src)
  let session : Bool := match peer with | some x => x.stage == .session | none => false
  let c := spdmCode msg
  if secured && !session then s
  else if secured && c = 0xFE then
    match Config.spdmKey msg with
    | some d => if jobKeyZeros d then s.installKey (jobKeyOf d) else s
    | none => s
  else if c = 0x84 then s.setPeer src (some ⟨src, match peer with | some x => x.job | none => 0#16, .capabilities⟩)
  else match peer with | some x => s.spdmStep x msg | none => s

/-- A whole message reaches the Crozier: its effect, and the message that the Crozier sends next, which is open in Config. A request that R101 does
not list, and a secured message that does not verify, have none. -/
def State.spdmMessage (s : State) (src : Epid) (kinds : Nat) (raw : List Byte) : State :=
  match (if kinds = 1 then Config.spdmOpen raw else some raw) with
  | none => s
  | some msg =>
    if 128 ≤ spdmCode msg && !spdmRequests.contains (spdmCode msg) then s
    else
      let done := (s.spdmUse src (kinds = 1) msg).tick
      let answer := Config.spdmAnswer s.free msg
      if answer.isEmpty then done else done.sendSpdm src kinds answer

/-- A job's policy is whole: the Crozier begins to attest the job's members (R102), which are open in Config. -/
def State.attest (s : State) (job : BitVec 16) : State :=
  State.tick ((Config.spdmMembers s.free job).foldl (fun s ep =>
    (s.setPeer ep (some ⟨ep, job, .version⟩)).sendSpdm ep 0 [0x10#8, 0x84#8, 0#8, 0#8]) s)

/-- Whether an SPDMMSG is well formed (R63, R67): the transport header and up to 16 beats. -/
def pktSpdmOk (p : Packet) : Bool :=
  p.zerosOk && p.spec16 == 0#16 && p.spec64 == 0#64 && !p.enc && decide (1 ≤ p.dbeats.toNat) && pktBeats p p.dbeats.toNat &&
  decide (p.dbeats.toNat ≤ 17)

/-- The message that a fragment belongs to, with the fragment added. -/
def SpdmPart.add (m : SpdmPart) (k : Nat) (d : List Byte) : SpdmPart := { m with frags := (k, d) :: m.frags.filter (·.1 ≠ k) }

/-- The bytes of a message whose fragments have all come (R100). -/
def SpdmPart.whole (m : SpdmPart) : Option (List Byte) :=
  let parts := (List.range m.nfrag).filterMap fun k => (m.frags.find? (·.1 = k)).map (·.2)
  if parts.length = m.nfrag then some (parts.flatten.take m.len) else none

/-- A fragment is put to its message; the last one completes it (R100). -/
def State.spdmFragment (s : State) (src : Epid) (d : List Byte) : State :=
  let mseq : BitVec 16 := BitVec.ofNat 16 (sliceNat d 0 2)
  let k := sliceNat d 2 2
  let n := sliceNat d 4 2
  if n = 0 || n ≤ k || sliceNat d 11 1 ≠ 0 || 1 < sliceNat d 10 1 then s
  else
    let mine (m : SpdmPart) : Bool := m.src = src && m.mseq = mseq
    let m0 := (s.trust.spdm.find? mine).getD
      { src := src, mseq := mseq, nfrag := n, len := sliceNat d 6 4, kinds := BitVec.ofNat 8 (sliceNat d 10 1), frags := [] }
    let m := m0.add k (d.drop 16)
    let rest := s.trust.spdm.filter fun x => !mine x
    match m.whole with
    | some msg => State.spdmMessage { s with trust := { s.trust with spdm := rest } } src m.kinds.toNat msg
    | none => { s with trust := { s.trust with spdm := rest ++ [m] } }

/-- `SPDMMSG` (R67, R100). -/
def execSpdmmsg (p : Packet) (s : State) : Result :=
  .next (if !pktSpdmOk p then s.dropPacket p else if tooOld p then s else s.spdmFragment p.src p.data)

/-- SPDM_REASSEMBLY_TIMEOUT (R100): an incomplete message is discarded 1 ms after its first fragment. -/
def execSpdmReassemblyTimeout (src : Epid) (mseq : BitVec 16) (s : State) : Result :=
  .next { s with trust := { s.trust with spdm := s.trust.spdm.filter fun m => !(m.src = src && m.mseq = mseq) } }

end Sys2Proof.Machine
end

