-- ==== Sys2Proof/Machine/Links.lean ====
section
/-! DEFINITION. Links and ports: training and its ladder (R29 to R35, R50, R51), retries and service (R36 to R47, R52), flits (R53, R54),
and the flows of a failed path (R71). `port` tells a fabric port, numbered `n`, from module `m` of die-to-die link `n`. -/

namespace Sys2Proof.Machine

/-! ### Which links and modules exist (R29 to R32) -/

/-- Whether a link is of the advanced package (R29). -/
def linkAdvanced (n : Nat) : Bool := n ≠ 3 && n ≠ 7 && n ≠ 11 && !(decide (20 ≤ n) && decide (n ≤ 23))

/-- The two dies that a link joins (R29), its first end first: compute dies 0 to 11, link dies 12 and 13. -/
def linkEnds (n : Nat) : Nat × Nat :=
  if n < 12 then (if n % 4 = 3 then (n, n - 3) else (n, n + 1))
  else if n < 20 then (n - 12, n - 8)
  else if n < 24 then (n - 12, n - 20)
  else if n < 27 then (12, 4 * (n - 24))
  else (13, 4 * (n - 27) + 3)

/-- The end of a link that leads its service (R46): the lower die number. -/
def linkLead (n : Nat) : Nat := min (linkEnds n).1 (linkEnds n).2

/-- Modules of a link (R29). -/
def linkModules (n : Nat) : Nat := if linkAdvanced n then 4 else 8

/-- WID of a ladder step (R32, R33, R50, R51). -/
def ladderWid (step : Nat) : Nat := if step = 0 then 0 else 1
/-- SPD of a ladder step (R32, R50). -/
def ladderSpd (port : Bool) (step : Nat) : Nat := if port then (if step < 2 then 0 else 1) else (step - 1)
/-- The last step of the ladder (R32, R50). -/
def ladderLast (port : Bool) : Nat := if port then 2 else 3

/-- A module of a link that exists. -/
def State.linkModule (s : State) (n m : Nat) : Option LinkModule :=
  if m < linkModules n then (s.fab.links[n]?).bind (·[m]?) else none

/-- Replace a module of a link. -/
def State.setModule (s : State) (n m : Nat) (x : LinkModule) : State :=
  { s with fab := { s.fab with links := Vector.ofFn fun (i : Fin 30) =>
      if i.val = n then Vector.ofFn fun (j : Fin 8) => if j.val = m then x else s.fab.links[i][j] else s.fab.links[i] } }

/-- Replace a port. -/
def State.setPort (s : State) (n : Nat) (x : Port) : State :=
  { s with fab := { s.fab with ports := Vector.ofFn fun (i : Fin 24) => if i.val = n then x else s.fab.ports[i] } }

/-- Whether counts of a window have reached a threshold of R36: 32 retries, or 8 errors of one lane. -/
def overThreshold (retries : Nat) (lanes : List Nat) : Bool := decide (32 ≤ retries) || lanes.any (8 ≤ ·)

/-- Whether a port has reached a threshold (R52). -/
def Port.overLimit (p : Port) : Bool := overThreshold p.retries p.laneErrors.toList

/-- Whether an end of a module has reached a threshold (R36, R46). -/
def LinkModule.overLimit (x : LinkModule) : Bool := overThreshold x.retries x.laneErrors.toList || x.farErrors.toList.any (8 ≤ ·)

/-- The part of a port or a module that training and service act on; `limit` says that a threshold is reached. -/
structure Trainee where
  enabled : Bool
  step : Nat
  attempt : Nat
  lmap : BitVec 32
  service : Nat
  deferred : Bool
  limit : Bool
  clear : Bool
  deriving DecidableEq, Repr

/-- The port or module that an event names. -/
def State.trainee (s : State) (port : Bool) (n m : Nat) : Option Trainee :=
  if port then
    (s.fab.ports[n]?).map fun p => ⟨p.enabled, p.step, p.attempt, 0xFFFFFFFF#32, p.service, p.deferred, p.overLimit, false⟩
  else (s.linkModule n m).map fun x => ⟨x.enabled, x.step, x.attempt, x.lmap, x.service, x.deferred, x.overLimit, false⟩

/-- Write it back; `clear` also clears the window's counts. A port that is usable here counts as usable at its other end, which has
matched the same record (R34, R51). -/
def State.putTrainee (s : State) (port : Bool) (n m : Nat) (t : Trainee) : State :=
  if port then
    match s.fab.ports[n]? with
    | none => s
    | some p =>
      let p := if t.clear then { p with retries := 0, laneErrors := Vector.replicate 8 0 } else p
      let s := s.setPort n { p with enabled := t.enabled, step := t.step, attempt := t.attempt, service := t.service, deferred := t.deferred }
      let bit := 1#24 <<< n
      { s with fab := { s.fab with peers := if t.enabled then s.fab.peers ||| bit else s.fab.peers &&& ~~~bit } }
  else
    match s.linkModule n m with
    | none => s
    | some x =>
      let x := if t.clear then { x with retries := 0, laneErrors := Vector.replicate 64 0, farErrors := Vector.replicate 64 0 } else x
      s.setModule n m
        { x with enabled := t.enabled, step := t.step, attempt := t.attempt, lmap := t.lmap, service := t.service, deferred := t.deferred }

/-! ### Demotion (R32, R34, R35, R50 to R52) -/

/-- Whether a ladder has been left: the port or module is disabled for good. -/
def Trainee.disabled (port : Bool) (t : Trainee) : Bool := decide (ladderLast port < t.step)

/-- One step down; below the last it is disabled. The redundant lanes are free again at every demotion, where R34 says so of a mismatch only
(assumption 68), and it retrains. -/
def Trainee.demote (port : Bool) (t : Trainee) : Trainee :=
  let t := { t with step := t.step + 1, lmap := 0xFFFFFFFF#32, service := 3, deferred := false }
  if t.disabled port then { t with enabled := false, service := 0 } else t

/-- Disabled at once, by a third mismatch (R34). -/
def Trainee.disable (port : Bool) (t : Trainee) : Trainee :=
  { t with step := ladderLast port + 1, enabled := false, service := 0, deferred := false }

/-- Whether every module of a link is disabled (R35). -/
def State.linkDisabled (s : State) (n : Nat) : Bool :=
  (List.range (linkModules n)).all fun m =>
    match s.linkModule n m with | some x => decide (3 < x.step) | none => true

/-- The report of a demotion (R35, R52, R132): of a port or link that is disabled, else of one that is degraded. A module that is disabled while
its link stays up is reported as degraded, with WID and SPD of the ladder's last step (assumption 68). -/
def State.reportLadder (s : State) (port : Bool) (n m : Nat) (t : Trainee) : State :=
  let step := min t.step (ladderLast port)
  let ws := natLe 1 (ladderWid step) ++ natLe 1 (ladderSpd port step)
  if port then (if t.disabled true then s.postEvent 0x13 (natLe 1 n) else s.postEvent 0x12 (natLe 1 n ++ [0#8] ++ ws))
  else if s.linkDisabled n then s.postEvent 0x11 (natLe 1 n)
  else s.postEvent 0x10 (natLe 1 n ++ natLe 1 m ++ ws)

/-- Demote a port or module, with its report. -/
def State.demote (s : State) (port : Bool) (n m : Nat) (t : Trainee) : State :=
  let t := t.demote port
  (s.putTrainee port n m t).reportLadder port n m t

/-! ### Service (R36 to R40, R44, R52) -/

/-- Whether a redundant lane is free: an unused byte of LMAP, on an advanced module (R31, R38). -/
def freeLane (n : Nat) (lmap : BitVec 32) : Option Nat :=
  if linkAdvanced n then [0, 1, 2, 3].find? fun k => lmap.extractLsb' (8 * k) 8 = 0xFF#8 else none

/-- Whether a gang with a member here has a switch instant within the next 30 us (R44). -/
def State.instantNear (s : State) : Bool :=
  s.sched.gangs.any fun g => !g.acted && decide (s.gtimeNs ≤ g.t) && decide (g.t ≤ s.gtimeNs + 30000)

/-- Whether the service of a port or module retrains it (R38, R52). -/
def Trainee.mustRetrain (port : Bool) (n : Nat) (t : Trainee) : Bool := port || (freeLane n t.lmap).isNone

/-- The service sequence starts: a port is demoted and retrains, a module pauses and drains (R38, R52). -/
def State.startService (s : State) (port : Bool) (n m : Nat) (t : Trainee) : State :=
  if port then s.demote port n m t else s.putTrainee port n m { t with service := 1, deferred := false }

/-- Counts of a list raised at one place. -/
def raiseAt {n : Nat} (v : Vector Nat n) (k by_ : Nat) : Vector Nat n := Vector.ofFn fun (i : Fin n) => if i.val = k then v[i] + by_ else v[i]

/-- A port or module counts retries, and errors of a lane at one of its ends (R36); during service a module's counts stay (R47). -/
def State.countErrors (s : State) (port : Bool) (n m : Nat) (e : LinkErrors) : State :=
  if port then
    match s.fab.ports[n]? with
    | some p => s.setPort n { p with retries := p.retries + e.retries, laneErrors := raiseAt p.laneErrors e.lane e.errors }
    | none => s
  else
    match s.linkModule n m with
    | some x =>
      if x.service ≠ 0 then s
      else if e.far then s.setModule n m { x with retries := x.retries + e.retries, farErrors := raiseAt x.farErrors e.lane e.errors }
      else s.setModule n m { x with retries := x.retries + e.retries, laneErrors := raiseAt x.laneErrors e.lane e.errors }
    | none => s

/-- The service of a port or module in use that has reached a threshold starts (R36, R38, R52); one that retrains waits while a switch instant
is near (R44). -/
def State.serveLink (s : State) (port : Bool) (n m : Nat) : State :=
  match s.trainee port n m with
  | none => s
  | some t =>
    if !t.enabled || t.service ≠ 0 || !t.limit then s
    else if t.mustRetrain port n && s.instantNear then s.putTrainee port n m { t with deferred := true }
    else s.startService port n m t

/-- LINK_SERVICE_START (R36, R38, R44, R46, R52): what an end has counted since its last report is added, and the service starts once a threshold
is reached. -/
def execLinkServiceStart (port : Bool) (n : Nat) (r : LinkReport) (s : State) : Result :=
  .next ((s.countErrors port n r.part r.errs).serveLink port n r.part)

/-- RETRY_WINDOW_BOUNDARY (R36, R44, R47): the counts clear, but for those of a module in service, and a sequence put off starts once no switch
instant is near. -/
def execRetryWindowBoundary (port : Bool) (n m : Nat) (s : State) : Result :=
  .next <|
    match s.trainee port n m with
    | none => s
    | some t =>
      let t := { t with clear := decide (t.service = 0) }
      let s := s.putTrainee port n m t
      if t.deferred && !s.instantNear then s.startService port n m t else s

/-- FLIT_RETRY_LIMIT (R37): four retries of one flit fail, and the retraining starts at once. -/
def execFlitRetryLimit (port : Bool) (n m : Nat) (s : State) : Result :=
  .next <|
    match s.trainee port n m with
    | none => s
    | some t => if !t.enabled || t.service = 3 || t.service = 4 then s else s.demote port n m t

/-- The lane with the most attributed errors at both ends together (R46); among equals the spec leaves it open. -/
def worstLane (free : Nat) (x : LinkModule) : Nat :=
  let e (i : Nat) : Nat := x.laneErrors.toList.getD i 0 + x.farErrors.toList.getD i 0
  let top := (List.range 64).foldl (fun n i => max n (e i)) 0
  let ls := (List.range 64).filter fun i => e i = top
  ls.getD (Config.freeChoice free % (if ls.length = 0 then 1 else ls.length)) 0

/-- LINK_DRAIN_DONE (R38): the replay buffers are empty; a lane is remapped, or the module is demoted and retrains. -/
def execLinkDrainDone (port : Bool) (n m : Nat) (s : State) : Result :=
  .next <|
    match s.trainee port n m with
    | none => s
    | some t =>
      if t.service ≠ 1 then s
      else if t.mustRetrain port n then s.demote port n m t
      else s.putTrainee port n m { t with service := 2 }

/-- LINK_DRAIN_TIMEOUT (R40): the sequence goes on as in R37. -/
def execLinkDrainTimeout (port : Bool) (n m : Nat) (s : State) : Result :=
  .next <|
    match s.trainee port n m with
    | none => s
    | some t => if t.service ≠ 1 then s else s.demote port n m t

/-- LINK_REMAP_DONE (R33, R38): the lane moves to the lowest free redundant lane, and the configuration exchange follows. -/
def execLinkRemapDone (port : Bool) (n m : Nat) (s : State) : Result :=
  .next <|
    match s.trainee port n m, s.linkModule n m with
    | some t, some x =>
      if port || t.service ≠ 2 then s
      else
        match freeLane n t.lmap with
        | none => s
        | some k =>
          let lane : BitVec 32 := BitVec.ofNat 32 (worstLane s.free x)
          let mask : BitVec 32 := 0xFF#32 <<< (8 * k)
          (s.putTrainee port n m
            { t with lmap := (t.lmap &&& ~~~mask) ||| (lane <<< (8 * k)), service := 4, attempt := 0 }).tick
    | _, _ => s

/-- LINK_RETRAIN_DONE (R33, R38): the configuration exchange follows. -/
def execLinkRetrainDone (port : Bool) (n m : Nat) (s : State) : Result :=
  .next <|
    match s.trainee port n m with
    | none => s
    | some t => if t.service ≠ 3 || t.disabled port then s else s.putTrainee port n m { t with service := 4 }

/-! ### The configuration exchange (R33, R34, R51) -/

/-- A cyclic redundancy check of `w` bits, most significant bit first. -/
def crcBits (w : Nat) (poly : Nat) : List Bool → Nat → Nat
  | [], c => c
  | b :: bs, c =>
    let top := decide (c / 2 ^ (w - 1) % 2 = 1) != b
    let c1 := (c * 2) % 2 ^ w
    crcBits w poly bs (if top then c1 ^^^ poly else c1)

/-- The CRC-16 of a record's bits [111:0] (R33). -/
def recordCrc (r : BitVec 128) : Nat := crcBits 16 0x1021 ((List.range 112).map fun i => r.getLsbD (111 - i)) 0xFFFF

/-- The record that this end sends, bits [63:0], ATT apart (R33, R51). -/
def Trainee.ownRecord (port : Bool) (n m : Nat) (t : Trainee) : Nat :=
  1 + (if port then 32 + n else n) * 2 ^ 8 + (if port then 0 else m) * 2 ^ 16 + ladderWid t.step * 2 ^ 20 +
  ladderSpd port t.step * 2 ^ 24 + t.lmap.toNat * 2 ^ 32

/-- Whether a record matches (R34). -/
def Trainee.agrees (port : Bool) (n m : Nat) (t : Trainee) (r : BitVec 128) : Bool :=
  let low := (r.extractLsb' 0 64).toNat
  decide (recordCrc r = (r.extractLsb' 112 16).toNat) && r.extractLsb' 64 48 == 0#48 &&
  decide (low % 2 ^ 28 + low / 2 ^ 32 * 2 ^ 32 = t.ownRecord port n m)

/-- A mismatch (R34): a step down, another attempt, and the third disables. -/
def State.mismatch (s : State) (port : Bool) (n m : Nat) (t : Trainee) : State :=
  if 2 ≤ t.attempt then
    let t := t.disable port
    (s.putTrainee port n m t).reportLadder port n m t
  else s.demote port n m { t with attempt := t.attempt + 1 }

/-- CONFIG_RECORD (R33, R34, R47, R51): with a record that matches, the port or module is in use and its counts start at zero. -/
def execConfigRecord (port : Bool) (n m : Nat) (record : BitVec 128) (s : State) : Result :=
  .next <|
    match s.trainee port n m with
    | none => s
    | some t =>
      if t.service ≠ 4 then s
      else if t.agrees port n m record then
        s.putTrainee port n m { t with enabled := true, service := 0, attempt := 0, deferred := false, clear := true }
      else s.mismatch port n m t

/-- CONFIG_RECORD_TIMEOUT (R34, R51): a missing record is a mismatch. -/
def execConfigRecordTimeout (port : Bool) (n m : Nat) (s : State) : Result :=
  .next <|
    match s.trainee port n m with
    | none => s
    | some t => if t.service ≠ 4 then s else s.mismatch port n m t

/-! ### Flits (R53, R54) -/

/-- A packet's header (R62) from its 32 bytes, with its data. The nonce of a sealed packet does not stand in it: it is a free value (assumption
61). -/
def packetOf (free : Nat) (hd data : List Byte) : Packet :=
  let w : BitVec 256 := BitVec.ofNat 256 (leNat hd)
  { ptype := w.extractLsb' 0 8, dbeats := w.extractLsb' 8 5, dst := w.extractLsb' 16 19, src := w.extractLsb' 35 19,
    vc := w.extractLsb' 54 2, age := w.extractLsb' 56 8, job := w.extractLsb' 64 16, gen := w.extractLsb' 80 16,
    tag := w.extractLsb' 96 12, enc := w.getLsbD 108, flow := w.extractLsb' 112 16, itag := w.extractLsb' 128 32,
    spec16 := w.extractLsb' 160 16, spec64 := w.extractLsb' 192 64,
    zerosOk := w.extractLsb' 13 3 == 0#3 && w.extractLsb' 109 3 == 0#3 && w.extractLsb' 176 16 == 0#16, data := data,
    nonce := (Config.freeWord free).setWidth 32 ++ Config.freeWord (free + 1), resided := 0 }

/-- The state that a meaning leaves. -/
def settle (s : State) (r : Result) : State := match r with | .next t => t | _ => s

/-- A GANGCTL by its kind (R63). A kind that is not defined breaks the zero rule of SPEC16 and is dropped. -/
def State.deliverCtl (s : State) (p : Packet) : State :=
  match p.spec16.toNat % 16 with
  | 0 => settle s (execGangctlArm p s)
  | 1 => settle s (execGangctlAcknowledge p s)
  | 2 => settle s (execGangctlCancel p s)
  | 3 => settle s (execGangctlGo p s)
  | 4 => settle s (execGangctlStraggler p s)
  | _ => s.dropPacket p

/-- A packet goes to the meaning of its type; a reserved type is dropped and counted (R63, R67). -/
def State.deliver (s : State) (p : Packet) : State :=
  match p.ptype.toNat with
  | 0x01 => settle s (execLdreq p s)
  | 0x02 => settle s (execLdrsp p s)
  | 0x03 => settle s (execStreq p s)
  | 0x04 => settle s (execStcmp p s)
  | 0x05 => settle s (execAmoreq p s)
  | 0x06 => settle s (execAmorsp p s)
  | 0x07 => settle s (execScareq p s)
  | 0x08 => settle s (execScacmp p s)
  | 0x09 => settle s (execPdelta p s)
  | 0x0A => settle s (execPdack p s)
  | 0x0B => settle s (execReduce p s)
  | 0x0C => settle s (execRedres p s)
  | 0x0D => settle s (execTlrec p s)
  | 0x0E => settle s (execTlack p s)
  | 0x0F => s.deliverCtl p
  | 0x10 => settle s (execCpyrd p s)
  | 0x11 => settle s (execCpydat p s)
  | 0x12 => settle s (execCpywr p s)
  | 0x13 => settle s (execCpycmp p s)
  | 0x20 => settle s (execSpdmmsg p s)
  | _ => s.dropPacket p

/-- Deliver a packet that came on a port: a drop under R67 counts there. -/
def State.deliverAt (n : Nat) (s : State) (p : Packet) : State :=
  let t := s.deliver p
  let old (i : Fin 24) : Nat := s.fab.ports[i].errors
  if (List.finRange 24).all fun i => t.fab.ports[i].errors = old i then t
  else
    { t with fab := { t.fab with ports := Vector.ofFn fun (i : Fin 24) =>
        { t.fab.ports[i] with errors := if i.val = n then old i + 1 else old i } } }

/-- The packets that stand whole in the beats received, in order, and the beats that are left (R54): null beats go where a header could
begin. -/
def takePackets (free : Nat) : Nat → List Byte → List Packet × List Byte
  | 0, bs => ([], bs)
  | fuel + 1, bs =>
    if bs.length < 16 then ([], bs)
    else if bs.headD 0#8 = 0#8 then takePackets free fuel (bs.drop 16)
    else if bs.length < 32 then ([], bs)
    else
      let n := 16 * ((bs.getD 1 0#8).toNat % 32)
      if bs.length < 32 + n then ([], bs)
      else
        let r := takePackets free fuel (bs.drop (32 + n))
        (packetOf (free + 2 * fuel) (bs.take 32) ((bs.drop 32).take n) :: r.1, r.2)

/-- The CRC-64 of a flit's bytes [247:0] (R53). -/
def flitCrc (f : List Byte) : Nat :=
  crcBits 64 0x42F0E1EBA9EA3693 ((slice f 0 248).flatMap fun b => (List.range 8).map fun i => b.getLsbD (7 - i)) (2 ^ 64 - 1)

/-- A flit that fails its check: a retry, and an error attributed to a lane or to none; at a threshold the port's service starts (R36, R52). -/
def State.flitFailed (s : State) (n : Nat) : State :=
  ((s.countErrors true n 0 ⟨1, false, Config.freeChoice s.free % 9, 1⟩).serveLink true n 0).tick

/-- A flit in order: its acknowledgement and credits are taken, and the packets that its beats complete are delivered (R53, R54). -/
def State.takeFlit (s : State) (n : Nat) (p : Port) (f : List Byte) : State :=
  let bs := p.beats ++ slice f 8 240
  let r := takePackets s.free (bs.length / 16 + 1) bs
  let p1 := { p with rxseq := p.rxseq + 1#12, acked := BitVec.ofNat 12 (sliceNat f 2 2), beats := r.2,
                     credits := Vector.ofFn fun (v : Fin 4) => p.credits[v] + sliceNat f (4 + v.val) 1 }
  r.1.foldl (State.deliverAt n) { s.setPort n p1 with free := s.free + 2 * (bs.length / 16 + 1) }

/-- FLIT_RECEIVE (R39, R53, R54): a flit with a wrong CRC is asked for again; one that is not the next in sequence is dropped, since its
sender replays in order. While the port retrains nothing is received (R39, R82). -/
def execFlitReceive (port : Nat) (flit : List Byte) (s : State) : Result :=
  .next <|
    match s.fab.ports[port]? with
    | none => s
    | some p =>
      if !p.enabled || p.service ≠ 0 || flit.length ≠ 256 then s
      else if flitCrc flit ≠ sliceNat flit 248 8 then s.flitFailed port
      else if sliceNat flit 0 2 ≠ p.rxseq.toNat then s
      else s.takeFlit port p flit

/-! ### Packets for this endpoint (R294) -/

/-- One of the packets that the device has sent to its own endpoint is performed: which flow's comes first is a free choice, and within a flow and
channel they come in order (R70). -/
def State.turnBack (s : State) : State :=
  let ps := s.fab.turned
  match ps[Config.freeChoice s.free % ps.length]? with
  | none => s
  | some q =>
    let k := ps.findIdx fun p => p.flow = q.flow && p.vc = q.vc
    State.tick
      (match ps[k]? with | some p => State.deliver { s with fab := { s.fab with turned := ps.eraseIdx k } } p | none => s)

/-! ### Flows of a failed path (R71) -/

/-- FLOW_REPIN (R71): the planes on which an endpoint cannot be reached are known, and a flow to it with nothing outstanding takes the plane that
R69 gives now. -/
def execFlowRepin (flow : BitVec 16) (d : PathsDown) (s : State) : Result :=
  .next <|
    let dst := d.dst
    let f := { s.fab with down := (dst, d.down) :: s.fab.down.filter (·.1 ≠ dst) }
    let s := { s with fab := f }
    if f.flowOut flow dst || !(f.pins.any fun p => p.flow = flow && p.dst = dst) then s
    else
      State.sendWaiting
        { s with fab := { f with pins := ⟨flow, dst, f.portFor flow dst⟩ :: f.pins.filter fun p => !(p.flow = flow && p.dst = dst) } }

end Sys2Proof.Machine
end

