-- ==== Sys2Proof/Machine/Hosts.lean ====
section
/-! DEFINITION. The host interface: bring-up (R18 to R20, R119 to R122), context 0 (R123), the command, completion and event rings (R124 to
R132), the registers of BAR0 (R115 to R120), and the monitors (R24 to R27). -/

namespace Sys2Proof.Machine

/-- Change the host interface. -/
def State.modHost (s : State) (f : HostIf → HostIf) : State := { s with host := f s.host }

/-! ### Completions (R129, R130) -/

/-- A completion entry (R129). -/
def completionOf (rec : List Byte) (st result : Nat) : List Byte := slice rec 2 2 ++ natLe 1 st ++ List.replicate 5 0#8 ++ natLe 8 result

/-- Whether the completion ring is full (R130). -/
def HostIf.cqFull (h : HostIf) : Bool := h.cqprod - h.cqcons = 64#8

/-- Write a completion at CQPROD mod 64, advance CQPROD, raise vector 0, and move on to the next record. -/
def State.putCompletion (s : State) (c : List Byte) : State :=
  let slot := s.host.cqprod.toNat % 64
  (s.modHost fun h =>
    { h with cq := (slot, c) :: h.cq.filter (fun x => x.1 != slot), cqprod := h.cqprod + 1#8, crqhead := h.crqhead + 1#8,
             heldCompletion := none, bootHeld := false }).raiseMsix 0

/-- Complete the record at CRQHEAD, or hold it while the ring is full (R130). -/
def State.complete (s : State) (rec : List Byte) (st result : Nat) : State :=
  let c := completionOf rec st result
  if s.host.cqFull then s.modHost fun h => { h with heldCompletion := some c } else s.putCompletion c

/-! ### The record at CRQHEAD (R121, R125 to R127) -/

/-- The bytes of the slot at CRQHEAD. -/
def State.headRecord (s : State) : List Byte :=
  match s.host.crq.find? (·.1 = s.host.crqhead.toNat % 64) with | some x => slice x.2 0 256 | none => List.replicate 256 0#8

/-- The record that the device processes next, if one is ready: nothing runs once the device has FAILED. -/
def State.nextRecord (s : State) : Option (List Byte) :=
  if s.host.state = .failed || s.host.crqhead = s.host.crqtail || s.host.heldCompletion.isSome then none else some s.headRecord

/-- Whether bytes `lo` to 255 of a record, but for those of a range, are zero. -/
def recordZeros (rec : List Byte) (lo hi : Nat) : Bool := decide (sliceNat rec 16 (lo - 16) = 0) && decide (sliceNat rec hi (256 - hi) = 0)

/-- Whether the header keeps R126. -/
def headerOk (rec : List Byte) : Bool :=
  decide (sliceNat rec 8 8 = 0) && (if sliceNat rec 0 1 = 5 then decide (sliceNat rec 1 1 < 8) else decide (sliceNat rec 1 1 = 0))

/-- Process a record of kind `opc`, when it is the next one: in the states before READY only NOP, FEATACK and FWSTAGE are processed (R121);
one that breaks a rule of R126 or R127 completes with BADFIELD. `lo` to `hi` is its body. -/
def State.onRecord (s : State) (opc lo hi : Nat) (k : List Byte → State → State) : Result :=
  .next <|
    match s.nextRecord with
    | none => s
    | some rec =>
      if sliceNat rec 0 1 ≠ opc then s
      else if s.host.state ≠ .ready && opc ≠ 1 && opc ≠ 2 && opc ≠ 7 then s.complete rec 4 0
      else if !headerOk rec || !recordZeros rec lo hi then s.complete rec 2 0
      else k rec s

/-- CTXID of a record's header. -/
def recordCtx (rec : List Byte) : Nat := sliceNat rec 4 4

/-- `NOP` (R127). -/
def execNop (s : State) : Result := s.onRecord 1 16 16 fun rec s => s.complete rec 0 0

/-- BADOPC (R127): an unknown OPC, decided first. -/
def execBadopc (s : State) : Result :=
  .next <|
    match s.nextRecord with
    | none => s
    | some rec => if sliceNat rec 0 1 = 0 || 7 < sliceNat rec 0 1 then s.complete rec 1 0 else s

/-! ### Contexts (R77, R127) -/

/-- The JOB entry of a new context: absent or in QUARANTINE, it becomes ACTIVE (R77). -/
def State.activate (s : State) (job : BitVec 16) (ctxid : Nat) : BitVec 16 × State :=
  let gen : BitVec 16 := match s.jobEntry job with | some e => e.gen + 1#16 | none => 0#16
  let e : JobEntry := { job := job, gen := gen, state := .active, ctxid := ctxid, stamp := 0 }
  (gen, { s with jobs := e :: s.jobs.filter (·.job ≠ job) })

/-- Whether a CTXNEW breaks a rule of its own (R127). -/
def State.ctxnewBad (s : State) (rec : List Byte) : Bool :=
  let job : BitVec 16 := BitVec.ofNat 16 (sliceNat rec 16 2)
  let asid : BitVec 16 := BitVec.ofNat 16 (sliceNat rec 18 2)
  decide (65536 ≤ recordCtx rec) || (s.ctx (recordCtx rec)).isSome || job == 0#16 || asid == 0#16 ||
  s.ctxs.any fun c => c.live && (c.job == job || c.asid == asid)

/-- Whether a JOB number is still in quarantine (R77): 64 us have not passed. -/
def State.quarantined (s : State) (job : BitVec 16) : Bool :=
  match s.jobEntry job with
  | some e => e.state == .quarantine && decide (s.clock.gtime < e.stamp + 64000 * 65536)
  | none => false

/-- Create a context, with ROOT and VALID clear and a memory key of its own (R77, R299, R319). What was known of the key epochs of an earlier
activation of its JOB is gone. -/
def State.newContext (s : State) (rec : List Byte) : State :=
  let job : BitVec 16 := BitVec.ofNat 16 (sliceNat rec 16 2)
  let n := recordCtx rec
  let r := s.activate job n
  let c : Context :=
    { ctxid := n, live := true, asid := BitVec.ofNat 16 (sliceNat rec 18 2), root := 0, valid := false, job := job,
      key := Config.freeChoice s.free, compat := none, drain := 0, preempted := false }
  let t := r.2.setCtxEntry c
  (State.complete { t with trust := { t.trust with epochs := t.trust.epochs.filter (·.1 ≠ job) } } rec 0 r.1.toNat).tick

/-- `CTXNEW` (R127): a record for a JOB number in quarantine is held (R77). -/
def execCtxnew (s : State) : Result :=
  s.onRecord 3 16 20 fun rec s =>
    if s.ctxnewBad rec then s.complete rec 2 0
    else if s.quarantined (BitVec.ofNat 16 (sliceNat rec 16 2)) then s
    else s.newContext rec

/-- QUARANTINE_EXPIRY (R77): 64 us have passed since the stamp of a JOB entry, and an activation held for it proceeds. -/
def execQuarantineExpiry (job : BitVec 16) (s : State) : Result :=
  match s.jobEntry job with
  | some e =>
    if e.state = .quarantine then
      let s := s.timeTo (e.stamp + 64000 * 65536)
      match s.nextRecord with
      | some rec => if sliceNat rec 0 1 = 3 && sliceNat rec 16 2 = job.toNat then execCtxnew s else .next s
      | none => .next s
    else .next s
  | none => .next s

/-- `CTXKILL` (R127, R145). -/
def execCtxkill (s : State) : Result :=
  s.onRecord 4 16 16 fun rec s =>
    if (s.ctx (recordCtx rec)).isNone then s.complete rec 3 0
    else (s.killContext (recordCtx rec) cKILLED).complete rec 0 0

/-! ### Launches (R128) -/

/-- A launch with T = 0: the code of R135 completes it, but for FULL, which holds the record. -/
def State.launchQueued (s : State) (rec raw : List Byte) : State :=
  let r := s.admitRecord raw (sliceNat rec 1 1) none
  match r.1 with
  | 0 => r.2.complete rec 0 0
  | 1 => s.complete rec 3 0
  | 4 => s
  | _ => s.complete rec 2 0

/-- A launch with another T: this device coordinates it (R93 to R96). -/
def State.launchTimed (s : State) (rec raw : List Byte) : State :=
  if s.recBad raw then s.complete rec 2 0
  else (s.offerLaunch raw (s.jobOf (recordCtx rec)) 1).complete rec 0 0

/-- `LAUNCH` (R128). -/
def execLaunch (s : State) : Result :=
  s.onRecord 5 16 208 fun rec s =>
    let raw := slice rec 16 192
    if recCtx raw ≠ recordCtx rec then s.complete rec 2 0
    else if (s.ctx (recordCtx rec)).isNone then s.complete rec 3 0
    else if recKind raw ≠ 0 || recNmem raw ≠ 1 || recMidx raw ≠ 0 then s.complete rec 2 0
    else if recT raw = 0 then s.launchQueued rec raw
    else s.launchTimed rec raw

/-- FULL_ADMISSION_RETRY (R135): a launch held on FULL tries its admission again. -/
def execFullAdmissionRetry (s : State) : Result :=
  match s.nextRecord with
  | some rec => if sliceNat rec 0 1 = 5 && recT (slice rec 16 192) = 0 then execLaunch s else .next s
  | none => .next s

/-! ### Policies -/

/-- An entry of a job's list, of length `count`. -/
def Policy.put (p : Policy) (count i : Nat) (d : List Byte) : Policy :=
  { p with count := count, entries := (i, d) :: p.entries.filter fun x => decide (x.1 ≠ i) && decide (x.1 < count) }

/-- `POLICY` (R102, R127). With the last entry of a list the Crozier holds the job's policy and attests the members. -/
def execPolicy (s : State) : Result :=
  s.onRecord 6 16 128 fun rec s =>
    let job : BitVec 16 := BitVec.ofNat 16 (sliceNat rec 16 2)
    let i := sliceNat rec 18 2
    let n := sliceNat rec 20 2
    if n = 0 || n ≤ i || sliceNat rec 22 42 ≠ 0 then s.complete rec 2 0
    else
      let p := ((s.trust.policies.find? (·.job = job)).getD ⟨job, n, []⟩).put n i (slice rec 64 64)
      let t : State := { s with trust := { s.trust with policies := p :: s.trust.policies.filter (·.job ≠ job) } }
      (if p.entries.length = n then t.attest job else t).complete rec 0 0

/-! ### Firmware (R122) -/

/-- Length of a firmware image's body. -/
def fwBodyLen (img : List Byte) : Nat := sliceNat img 8 4
/-- Security version of a firmware image. -/
def fwSvn (img : List Byte) : Nat := sliceNat img 4 4
/-- Body of a firmware image. -/
def fwBody (img : List Byte) : List Byte := slice img 64 (fwBodyLen img)

/-- Whether a firmware body carries a runtime: a code object for Lijan 2 with FLAGS.VENDOR set (R123, R381). -/
def fwCarries (body : List Byte) : Bool :=
  match Config.firmwareObject body with
  | some o => decide (sliceNat o 6 1 = 2) && decide (sliceNat o 7 1 / 2 % 2 = 1)
  | none => false

/-- Whether a firmware image is valid (R122, R123). -/
def fwValid (fuse : Nat) (img : List Byte) : Bool :=
  let n := 64 + fwBodyLen img
  decide (sliceNat img 0 4 = 0x4E465A43) && decide (sliceNat img 12 52 = 0) && decide (img.length = n + 4627) &&
  decide (n + 4627 ≤ 4194304) && decide (fuse ≤ fwSvn img) && fwCarries (fwBody img) &&
  Config.mldsaOk (sha3 (img.take n)) (img.drop n)

/-- `FWSTAGE` (R127): the staged image goes to the slot that does not run, or SIGFAIL. -/
def execFwstage (s : State) : Result :=
  s.onRecord 7 16 20 fun rec s =>
    let n := sliceNat rec 16 4
    let img := (List.range (min n 4194304)).map fun i => cellGet s.host.staging i
    if n ≤ 4194304 && fwValid s.host.fuseSvn.toNat img then
      (s.modHost fun h => if h.slot then { h with flashA := img } else { h with flashB := img }).complete rec 0 0
    else s.complete rec 5 0

/-! ### Bring-up (R18 to R20, R121) -/

/-- The device fails for a cause (R119, R121). -/
def State.failDevice (s : State) (cause die : Nat) : State :=
  s.modHost fun h => { h with state := .failed, cause := BitVec.ofNat 8 cause, die := BitVec.ofNat 4 die }

/-- FEATWAIT once every die is up and the firmware is checked (R121). -/
def State.poweredUp (s : State) : State :=
  if s.host.state = .powerup && s.host.fwDone && s.host.dieUp = 0x3FFF#14 then s.modHost fun h => { h with state := .featwait } else s

/-- The module right after a reset of its dies (R19, R120): what is not volatile and what the endpoint holds stays, and link die 0
comes up at once. -/
def State.restart (s : State) (cold : Bool) : State :=
  { State.reset with
    host := { HostIf.reset with
      flashA := s.host.flashA, flashB := s.host.flashB, fuseSvn := s.host.fuseSvn, linkUp := s.host.linkUp || cold,
      staging := if cold then [] else s.host.staging, msixTable := if cold then [] else s.host.msixTable,
      crq := if cold then [] else s.host.crq, cq := if cold then [] else s.host.cq, evq := if cold then [] else s.host.evq,
      msix := if cold then [] else s.host.msix },
    fab := { Fabric.reset with epid := s.fab.epid, planes := s.fab.planes, sent := s.fab.sent },
    core := { Core.reset with num := s.core.num },
    arrivals := s.arrivals, eager := s.eager, free := s.free }

/-- POWER_ON (R19). -/
def execPowerOn (s : State) : Result := .next (s.restart true)

/-- MODULE_RESET (R120): a write of DEVCTL with the key and RESET. -/
def execModuleReset (v : BitVec 32) (s : State) : Result :=
  .next (if v.extractLsb' 16 16 = 0xA5F0#16 && v.getLsbD 0 then s.restart false else s)

/-- RESET_TO_POWERUP (R121). -/
def execResetToPowerup (s : State) : Result :=
  .next (if s.host.state = .reset then s.modHost fun h => { h with state := .powerup } else s)

/-- The die powered before another (R19): link die 0, link die 1, then the compute dies in order. -/
def dieBefore (die : Nat) : Nat := if die = 13 then 12 else if die = 0 then 13 else die - 1

/-- DIE_POWER_UP (R19, R20): a die's slot has come, and the die before it is up. A link die is up at once. -/
def execDiePowerUp (die : Nat) (s : State) : Result :=
  .next <|
    if s.host.state = .powerup && (die < 12 || die = 13) && s.host.dieUp.getLsbD (dieBefore die) then
      let bit := 1#14 <<< die
      (s.modHost fun h =>
        { h with diePower := h.diePower ||| bit, dieUp := if die = 13 then h.dieUp ||| bit else h.dieUp }).poweredUp
    else s

/-- DIE_POWER_GOOD (R20). -/
def execDiePowerGood (die : Nat) (s : State) : Result :=
  .next <|
    if s.host.state = .powerup && die < 12 && s.host.diePower.getLsbD die then
      (s.modHost fun h => { h with dieUp := h.dieUp ||| (1#14 <<< die) }).poweredUp
    else s

/-- POWER_GOOD_TIMEOUT (R20): the sequence stops, and the device reports the die. -/
def execPowerGoodTimeout (die : Nat) (s : State) : Result :=
  .next <|
    if s.host.state = .powerup && die < 12 && s.host.diePower.getLsbD die && !s.host.dieUp.getLsbD die then s.failDevice 1 die else s

/-- FIRMWARE_CHECK_DONE (R122): the valid slot of the higher SVN runs, slot A at a tie; the fused value follows it. -/
def execFirmwareCheckDone (s : State) : Result :=
  .next <|
    if s.host.state = .powerup && !s.host.fwDone then
      let f := s.host.fuseSvn.toNat
      let a := fwValid f s.host.flashA
      let b := fwValid f s.host.flashB
      let run (slot : Bool) (img : List Byte) : State :=
        (s.modHost fun h =>
          { h with fwDone := true, slot := slot, svn := BitVec.ofNat 8 (fwSvn img), fuseSvn := BitVec.ofNat 32 (max f (fwSvn img)) }).poweredUp
      if a && (!b || decide (fwSvn s.host.flashB ≤ fwSvn s.host.flashA)) then run false s.host.flashA
      else if b then run true s.host.flashB
      else s.failDevice 2 0
    else s

/-! ### Warnings and trips (R18, R131) -/

/-- POWER_WARN (R18, R132): link die 0 measures module input power. -/
def execPowerWarn (s : State) : Result := .next (s.postEvent 2 (natLe 1 12))

/-- THERMAL_WARN (R18, R132). -/
def execThermalWarn (die : Nat) (s : State) : Result := .next (s.postEvent 3 (natLe 1 die))

/-- Every record not yet completed completes with KILLED, in ring order; one that finds the ring full is dropped (R131). -/
def State.killRecords : Nat → State → State
  | 0, s => s
  | n + 1, s =>
    if s.host.crqhead = s.host.crqtail then s.modHost fun h => { h with heldCompletion := none, bootHeld := false }
    else if s.host.cqFull then State.killRecords n (s.modHost fun h => { h with crqhead := h.crqhead + 1#8 })
    else State.killRecords n (s.putCompletion (completionOf s.headRecord 6 0))

/-- A trip (R18): every context is killed, every record completes with KILLED, the host is told, and the compute dies are held in reset. -/
def State.trip (s : State) (cause event die : Nat) : State :=
  if s.host.state = .failed then s
  else
    let s := s.ctxs.foldl (fun s c => s.killContext c.ctxid cKILLED) s
    let s := State.killRecords 65 s
    let s := (s.postEvent event (natLe 1 die)).raiseMsix 2
    (s.failDevice cause 0).modHost fun h => { h with dieUp := h.dieUp &&& 0x3000#14 }

/-- POWER_TRIP (R18, R131). -/
def execPowerTrip (s : State) : Result := .next (s.trip 3 4 12)

/-- THERMAL_TRIP (R18, R131). -/
def execThermalTrip (die : Nat) (s : State) : Result := .next (s.trip 4 5 die)

/-! ### Context 0 (R123) -/

/-- First byte of the reserved memory. -/
def resBase : Nat := 0xBFFC000000
/-- Base of the direct window. -/
def windowBase : Nat := 0x0000100000000000
/-- BASE of the runtime image. -/
def rtBase : Nat := 0x200000
/-- VA of the boot block. -/
def bootVa : Nat := 0x1FF000

/-- A code object's fields (R381, R382). -/
structure CodeObject where
  file : List Byte
  nchunk : Nat
  textAt : Nat
  dataAt : Nat
  symAt : Nat
  relAt : Nat
  strAt : Nat
  deriving DecidableEq, Repr

/-- Round up to 4 KiB. -/
def pageUp (n : Nat) : Nat := (n + 4095) / 4096 * 4096

/-- The parts of a code object file (R381). -/
def codeObject (f : List Byte) : CodeObject :=
  let nchunk := sliceNat f 24 4
  let sym := 256 + 64 * nchunk + 64 * sliceNat f 36 2
  let rel := sym + 32 * sliceNat f 28 4
  let str := rel + 16 * sliceNat f 32 4
  let data := pageUp (str + sliceNat f 40 4)
  { file := f, nchunk := nchunk, symAt := sym, relAt := rel, strAt := str, dataAt := data, textAt := pageUp (data + sliceNat f 52 8) }

/-- Text bytes, padded. -/
def CodeObject.textLen (o : CodeObject) : Nat := 4096 * o.nchunk
/-- Rodata bytes. -/
def CodeObject.rodLen (o : CodeObject) : Nat := sliceNat o.file 60 8
/-- Offset of the data in the image (R382). -/
def CodeObject.dataOff (o : CodeObject) : Nat := pageUp (o.textLen + o.rodLen)
/-- Data bytes. -/
def CodeObject.datLen (o : CodeObject) : Nat := sliceNat o.file 52 8 - o.rodLen
/-- Offset of the bss in the image (R382). -/
def CodeObject.bssOff (o : CodeObject) : Nat := pageUp (o.dataOff + o.datLen)
/-- LEN of the image (R382). -/
def CodeObject.len (o : CodeObject) : Nat := pageUp (o.bssOff + sliceNat o.file 68 8)
/-- The object hash (R380). -/
def CodeObject.hash (o : CodeObject) : List Byte := sha3 (0x02#8 :: slice o.file 0 204)

/-- The image before its relocations, without the bss (R382). -/
def CodeObject.image (o : CodeObject) : List Byte :=
  slice o.file o.textAt o.textLen ++ slice o.file o.dataAt o.rodLen ++ List.replicate (o.dataOff - o.textLen - o.rodLen) 0#8 ++
  slice o.file (o.dataAt + o.rodLen) o.datLen

/-- The image with the object's relocations against itself applied (R384). -/
def CodeObject.relocated (o : CodeObject) (base : Nat) : List Byte :=
  (List.range (sliceNat o.file 32 4)).foldl (fun m k =>
    let e := o.relAt + 16 * k
    let at_ := sliceNat o.file e 8
    if sliceNat o.file (e + 8) 2 = 0xFFFF then splice m at_ (natLe 8 (base + sliceNat o.file (e + 10) 6 + sliceNat m at_ 8)) else m)
    o.image

/-- The bytes of the name `runtime`, with its zero. -/
def runtimeName : List Byte := [0x72#8, 0x75#8, 0x6E#8, 0x74#8, 0x69#8, 0x6D#8, 0x65#8, 0x00#8]

/-- The object offset of the KIND 2 symbol named `runtime` (R123, R383). -/
def CodeObject.entry (o : CodeObject) : Nat :=
  let syms := (List.range (sliceNat o.file 28 4)).map fun k => o.symAt + 32 * k
  match syms.find? fun e => sliceNat o.file (e + 4) 1 = 2 && slice o.file (o.strAt + sliceNat o.file e 4) 8 = runtimeName with
  | some e => sliceNat o.file (e + 8) 8
  | none => 0

/-- Page-table entries by physical address: a table pointer. -/
def ptr (table idx next : Nat) : Nat × Nat := (resBase + table + 8 * idx, resBase + next + 1)

/-- A leaf entry with permission bits. -/
def leaf (table idx pa bits : Nat) : Nat × Nat := (resBase + table + 8 * idx, pa + bits)

/-- R = W = 1, U = 0, valid. -/
def bitsRW : Nat := 7
/-- R = 1, valid. -/
def bitsR : Nat := 3
/-- X = 1, valid. -/
def bitsX : Nat := 9

/-- Permission bits of a page of the runtime image (R123). -/
def CodeObject.pageBits (o : CodeObject) (off : Nat) : Nat := if off < o.textLen then bitsX else if off < o.dataOff then bitsR else bitsRW

/-- The page tables of context 0 (R123), at places in the reserved memory that the model chose: the levels above, the boot block, the
runtime image, the binding table, and the direct window over HBM and control space. -/
def bootTables (o : CodeObject) : List (Nat × Nat) :=
  let w := windowBase
  [ptr 0 0 0x1000, ptr 0 32 0x2000, ptr 0 33 0x3000, ptr 0 34 0x4000, ptr 0 511 0x5000,
   ptr 0x1000 0 0x6000, ptr 0x4000 0 0x7000, ptr 0x5000 448 0x8000, ptr 0x8000 0 0x9000, ptr 0x6000 0 0x12000,
   leaf 0x12000 511 (resBase + 0x40000) bitsR, ptr 0x7000 8 0x10000, ptr 0x7000 16 0x11000] ++
  ((List.range 768).map fun g => leaf (if g < 512 then 0x2000 else 0x3000) (g % 512) (g * 2 ^ 30) bitsRW) ++
  ((List.range 6).map fun k => ptr 0x7000 k (0xA000 + 0x1000 * k)) ++
  ((List.range 12).flatMap fun d =>
    let pa := 0x10000000000 + 0x100000 * d
    let t := 0xA000 + 0x1000 * (d / 2)
    let i := (w + pa) / 4096 % 512
    [leaf t i pa bitsRW, leaf t (i + 1) (pa + 4096) bitsRW]) ++
  ((List.range 256).map fun k => leaf 0x10000 k (0x10001000000 + 4096 * k) bitsRW) ++
  ((List.range 8).map fun k => leaf 0x11000 k (0x10002000000 + 4096 * k) bitsRW) ++
  ((List.range 128).map fun k => leaf 0x9000 k (resBase + 0x80000 + 4096 * k) bitsRW) ++
  ((List.range ((o.len + 2097151) / 2097152)).map fun k => ptr 0x6000 (k + 1) (0x13000 + 0x1000 * k)) ++
  ((List.range (o.len / 4096)).map fun k =>
    leaf (0x13000 + 0x1000 * (k / 512)) (k % 512) (resBase + 0x200000 + 4096 * k) (o.pageBits (4096 * k)))

/-- DEVID (R118). -/
def devid : Nat := 0x4C020000 + Config.siliconRev.toNat

/-- Present banks of a die (R318). -/
def State.npres (s : State) (die : Nat) : Nat := (s.ctrlRead (0x10000001000 + 0x100000 * die)).toNat

/-- The boot block (R123). -/
def State.bootBlock (s : State) (o : CodeObject) : List Byte :=
  natLe 8 windowBase ++ natLe 8 rtBase ++ natLe 8 o.len ++ natLe 8 resBase ++ natLe 4 devid ++ natLe 4 s.fab.epid.toNat ++
  (s.host.accept.toList.flatMap fun a => natLe 4 a.toNat) ++ (List.range 12).flatMap fun d => natLe 1 (s.npres d)

/-- The binding-table entry of the runtime (R123, R388). -/
def CodeObject.bindEntry (o : CodeObject) : List Byte :=
  o.hash ++ natLe 8 rtBase ++ natLe 8 o.len ++ natLe 8 o.textLen ++ [0x01#8] ++ slice o.file 6 1

/-- Context 0's entry (R123, R299). -/
def bootContext (key : Nat) : Context :=
  { ctxid := 0, live := true, asid := 0#16, root := resBase / 4096, valid := true, job := 0#16,
    key := key, compat := none, drain := 0, preempted := false }

/-- The memory of context 0 (R123): tables, boot block, binding entry and image in the reserved memory, which is zero elsewhere. -/
def State.bootMemory (s : State) (o : CodeObject) : List Host.Cell :=
  let m := s.mem.cells.filter fun c => c.1 < resBase || hbmEnd ≤ c.1
  let m := (bootTables o).foldl (fun m e => cellWrite m e.1 (natLe 8 e.2)) m
  let m := cellWrite m (resBase + 0x40000) (s.bootBlock o)
  let m := cellWrite m (resBase + 0x80000 + 128 * (sliceNat o.hash 0 2 % 4096)) o.bindEntry
  cellWrite m (resBase + 0x200000) (o.relocated rtBase)

/-- The first hart of the runtime (R123). -/
def bootHart (o : CodeObject) (task : Nat) : Hart :=
  { Hart.reset with
    x := (Hart.reset.x.set 10 (BitVec.ofNat 64 bootVa)).set 11 1#64, pc := BitVec.ofNat 64 (rtBase + o.entry), level := .s,
    gangid := 0x80000000#32, task := task, status := .running }

/-- Context 0 is built, harts leave reset, and the runtime starts (R90, R121, R123). -/
def State.boot (s : State) (o : CodeObject) : State :=
  let here : List (Fin 4) := if s.core.num = 0 then [0] else []
  let t : Task := { id := s.sched.nextTask, ctxid := 0#32, gangid := 0x80000000#32, prio := 0, harts := 1, cmask := 1#384, here := here,
                    others := 1 - here.length, hasQueue := false, next := 0, rem := 0, p := 1, minchunk := 0, maxchunk := 0, nmem := 1,
                    map := 0#64, coord := s.fab.epid, sampled := false, arrived := 0 }
  let s1 : State :=
    { s with
      ctxs := [bootContext (Config.freeChoice s.free)],
      jobs := [{ job := 0#16, gen := 0#16, state := .active, ctxid := 0, stamp := 0 }],
      mem := { s.mem with cells := s.bootMemory o },
      clock := { s.clock with hbeat := 0#64 },
      sched := { s.sched with serial := s.sched.serial + 1 } }
  let s2 := here.foldl (fun s i => s.placeHart i (bootHart o t.id)) (s1.addTask t)
  (s2.modHost fun h => { h with state := .ready }).tick

/-! ### Features (R124, R261) -/

/-- OFFER (R261). -/
def offerWords : List (BitVec 32) := [0x7FFF#32, 1#32, 0#32, 0#32]

/-- Whether a FEATACK sets a bit that is not in OFFER. -/
def featBad (ws : List (BitVec 32)) : Bool := (ws.zip offerWords).any fun x => x.1 &&& ~~~x.2 ≠ 0#32

/-- The words of a FEATACK. -/
def featWords (rec : List Byte) : List (BitVec 32) := (List.range 4).map fun i => BitVec.ofNat 32 (sliceNat rec (16 + 4 * i) 4)

/-- ACCEPT from the words of a FEATACK. -/
def State.acceptWords (s : State) (ws : List (BitVec 32)) : State :=
  s.modHost fun h => { h with featAcked := true, accept := Vector.ofFn fun (i : Fin 4) => ws.getD i.val 0#32 }

/-- The runtime object of the running slot. -/
def State.runtimeObject (s : State) : CodeObject :=
  codeObject ((Config.firmwareObject (fwBody (if s.host.slot then s.host.flashB else s.host.flashA))).getD [])

/-- `FEATACK` (R121, R124). A FEATACK that accepts nothing because a bit is not offered leaves FEATWAIT standing, and counts as the first. One
whose completion is held leaves FEATWAIT with that completion. -/
def execFeatack (s : State) : Result :=
  s.onRecord 2 16 32 fun rec s =>
    if s.host.state = .reset || s.host.state = .powerup then s.complete rec 4 0
    else if s.host.featAcked || featBad (featWords rec) then (s.modHost fun h => { h with featAcked := true }).complete rec 2 0
    else
      let s := s.acceptWords (featWords rec)
      if s.host.cqFull then (s.complete rec 0 0).modHost fun h => { h with bootHeld := true }
      else (s.boot s.runtimeObject).complete rec 0 0

/-! ### Ring counts (R125, R130, R132) -/

/-- An out-of-range count is ignored (R119). -/
def State.ringError (s : State) : State := s.modHost fun h => { h with ringerr := true }

/-- A write of CRQTAIL (R125). -/
def State.writeCrqtail (s : State) (v : BitVec 32) : State :=
  let n := v.extractLsb' 0 8
  if 64 < (n - s.host.crqhead).toNat then s.ringError else s.modHost fun h => { h with crqtail := n }

/-- A write of CQCONS (R130): the record held for want of a completion completes. -/
def State.writeCqcons (s : State) (v : BitVec 32) : State :=
  let n := v.extractLsb' 0 8
  if 64 < (s.host.cqprod - n).toNat then s.ringError
  else
    let s := s.modHost fun h => { h with cqcons := n }
    match s.host.heldCompletion with
    | some c => if s.host.cqFull then s else (if s.host.bootHeld then s.boot s.runtimeObject else s).putCompletion c
    | none => s

/-- A write of EVCONS (R132). -/
def State.writeEvcons (s : State) (v : BitVec 32) : State :=
  let n := v.extractLsb' 0 16
  if 256 < (s.host.evprod - n).toNat then s.ringError else s.modHost fun h => { h with evcons := n }

/-- A host access needs the link (R115). -/
def viaLink (s : State) (k : State → State) : Result := .next (if s.host.linkUp then k s else s)

/-- CRQTAIL_WRITE (R125). -/
def execCrqtailWrite (v : BitVec 32) (s : State) : Result := viaLink s fun s => s.writeCrqtail v

/-- CQCONS_WRITE (R130). -/
def execCqconsWrite (v : BitVec 32) (s : State) : Result := viaLink s fun s => s.writeCqcons v

/-- EVCONS_WRITE (R132). -/
def execEvconsWrite (v : BitVec 32) (s : State) : Result := viaLink s fun s => s.writeEvcons v

/-! ### Monitors (R24 to R27) -/

/-- MONITOR_CLEAR (R26, R27). -/
def execMonitorClear (die k : Nat) (s : State) : Result := viaLink s fun s => s.modMonitor die k Monitor.clear

/-- MONITOR_CONFIG_WRITE (R27). -/
def execMonitorConfigWrite (die k : Nat) (v : BitVec 32) (s : State) : Result := viaLink s fun s => s.modMonitor die k fun m => m.write v

/-- The retry count of the die links that end at a die: the sum over their modules (assumption 55). A module in service holds the count that it
had before (R47). -/
def State.dieRetries (s : State) (die : Nat) : Nat :=
  ((List.range 30).flatMap fun n =>
    if (linkEnds n).1 = die || (linkEnds n).2 = die then
      (List.range (linkModules n)).map fun m => match s.linkModule n m with | some x => x.retries | none => 0
    else []).sum

/-- MONITOR_SAMPLE (R24, R26, R47): the source is sampled. The retry count is the machine's own, and launches are sampled as they happen
(R171). -/
def execMonitorSample (die k sample : Nat) (s : State) : Result :=
  let n := s.dieRetries die
  .next (s.modMonitor die k fun m =>
    if m.records die && m.sel ≠ 3 then m.sample (if m.sel = 4 then n else sample) else m)

/-! ### Registers of BAR0 (R116 to R118) -/

/-- The bytes of a command-ring slot with others written over. -/
def HostIf.putSlot (h : HostIf) (slot off : Nat) (bs : List Byte) : HostIf :=
  let old := match h.crq.find? (·.1 = slot) with | some x => slice x.2 0 256 | none => List.replicate 256 0#8
  { h with crq := (slot, splice old off bs) :: h.crq.filter (fun x => x.1 != slot) }

/-- A write of one 32-bit word of BAR0. What the table lists as read-only, or does not list, ignores it. So do MONMIN, MONMAX, MONCNT and the
bins of a monitor, for which R116 and R117 give no kind of access: that is the model's choice (assumption 69). -/
def State.writeBarWord (s : State) (off : Nat) (v : BitVec 32) : State :=
  let bs := natLe 4 v.toNat
  if off = 0x10 then (if v.extractLsb' 16 16 = 0xA5F0#16 && v.getLsbD 0 then s.restart false else s)
  else if off = 0x18 then s.writeCrqtail v
  else if off = 0x28 then s.writeEvcons v
  else if off = 0x2C then s.writeCqcons v
  else if 0x2000 ≤ off && off < 0x4000 then s.modHost fun h => { h with msixTable := cellWrite h.msixTable (off - 0x2000) bs }
  else if 0x10000 ≤ off && off < 0x14000 then s.modHost fun h => h.putSlot ((off - 0x10000) / 256) (off % 256) bs
  else if 0x20000 ≤ off && off < 0x23800 then
    let o := off - 0x20000
    if o % 0x80 = 0 then s.modMonitor (o / 0x400) (o % 0x400 / 0x80) fun m => m.write v else s
  else if 0x1000000 ≤ off && off < 0x1400000 then s.modHost fun h => { h with staging := cellWrite h.staging (off - 0x1000000) bs }
  else s

/-- A zero-padded byte of a list of cells. -/
def cellsWord (m : List (Nat × Byte)) (a : Nat) : Nat := sliceNat ((List.range 4).map fun i => cellGet m (a + i)) 0 4

/-- A word of a ring's slots, each of `n` bytes. -/
def slotsWord (q : List (Nat × List Byte)) (n off : Nat) : Nat :=
  match q.find? (·.1 = off / n) with | some x => sliceNat x.2 (off % n) 4 | none => 0

/-- A register of a monitor (R117). -/
def Monitor.readWord (m : Monitor) (off : Nat) : Nat :=
  if off = 0 then m.ctl.toNat else if off = 4 then m.mn else if off = 8 then m.mx else if off = 12 then m.cnt
  else if 0x40 ≤ off then m.bins.toList.getD ((off - 0x40) / 4) 0 else 0

/-- The code of DEVSTAT.STATE (R119). -/
def DevState.code : DevState → Nat
  | .reset => 0 | .powerup => 1 | .featwait => 2 | .ready => 3 | .failed => 7

/-- DEVSTAT (R119). -/
def HostIf.devstat (h : HostIf) : Nat :=
  h.state.code + (if h.slot then 2 ^ 7 else 0) + h.svn.toNat * 2 ^ 8 + (if h.ringerr then 2 ^ 16 else 0) + h.die.toNat * 2 ^ 20 +
    h.cause.toNat * 2 ^ 24

/-- A device register (R118). DEVCTL reads zero (R120). -/
def State.devReg (s : State) (off : Nat) : Nat :=
  if off = 0 then devid
  else if off = 0x08 then s.host.devstat
  else if off = 0x18 then s.host.crqtail.toNat
  else if off = 0x1C then s.host.crqhead.toNat
  else if off = 0x20 then s.host.cqprod.toNat
  else if off = 0x24 then s.host.evprod.toNat
  else if off = 0x28 then s.host.evcons.toNat
  else if off = 0x2C then s.host.cqcons.toNat
  else if off = 0x30 then s.timestat.toNat
  else 0

/-- A 32-bit word of BAR0 as the host reads it (R116 to R120). OFFER reads the same in every state (assumption 55). -/
def State.readBarWord (s : State) (off : Nat) : Nat :=
  if off < 0x1000 then s.devReg off
  else if off < 0x1010 then (offerWords.getD ((off - 0x1000) / 4) 0#32).toNat
  else if off < 0x1020 then (s.host.accept.toList.getD ((off - 0x1010) / 4) 0#32).toNat
  else if 0x2000 ≤ off && off < 0x4000 then cellsWord s.host.msixTable (off - 0x2000)
  else if 0x10000 ≤ off && off < 0x14000 then slotsWord s.host.crq 256 (off - 0x10000)
  else if 0x14000 ≤ off && off < 0x14400 then slotsWord s.host.cq 16 (off - 0x14000)
  else if 0x18000 ≤ off && off < 0x1A000 then slotsWord s.host.evq 32 (off - 0x18000)
  else if 0x20000 ≤ off && off < 0x23800 then
    let o := off - 0x20000
    match s.host.monitors[o / 0x400]? with
    | some ms => (match ms[o % 0x400 / 0x80]? with | some m => m.readWord (o % 0x80) | none => 0)
    | none => 0
  else if 0x1000000 ≤ off && off < 0x1400000 then cellsWord s.host.staging (off - 0x1000000)
  else 0

/-- What a host's read of `n` bytes of BAR0 returns (R116): zero for another width or alignment. A read changes no state. -/
def State.readBar (s : State) (off n : Nat) : Nat :=
  if (n = 4 || n = 8) && off % n = 0 then
    s.readBarWord off + (if n = 8 then s.readBarWord (off + 4) * 2 ^ 32 else 0)
  else 0

/-- REGISTER_WRITE (R116): 4 or 8 bytes, naturally aligned; any other write is ignored. -/
def execRegisterWrite (off : Nat) (bytes : List Byte) (s : State) : Result :=
  viaLink s fun s =>
    let n := bytes.length
    if (n = 4 || n = 8) && off % n = 0 then
      (List.range (n / 4)).foldl (fun s k => s.writeBarWord (off + 4 * k) (BitVec.ofNat 32 (sliceNat bytes (4 * k) 4))) s
    else s

/-! ### The PCI Express link (R115) -/

/-- PCIE_LINK_DOWN (R115). -/
def execPcieLinkDown (s : State) : Result := .next (s.modHost fun h => { h with linkUp := false })

/-- PCIE_LINK_UP (R115). -/
def execPcieLinkUp (s : State) : Result := .next (s.modHost fun h => { h with linkUp := true })

end Sys2Proof.Machine
end

