-- ==== Sys2Proof/Machine/Scalar.lean ====
section
/-! DEFINITION. The scalar integer instructions (R443 to R446). -/

namespace Sys2Proof.Machine

/-- A scalar result of one register: the operand is read before the destination is written (R443). -/
def alu1 (w : IWord) (d a : XNum) (f : Word → Word) (s : State) : Result :=
  scalarInstr w [a] s fun s => (s.setX d (f (s.x a))).retire

/-- A scalar result of two registers: both are read before the destination is written (R443). -/
def alu2 (w : IWord) (d a b : XNum) (f : Word → Word → Word) (s : State) : Result :=
  scalarInstr w [a, b] s fun s => (s.setX d (f (s.x a) (s.x b))).retire

/-- 1 when a condition holds, else 0. -/
def bit1 (c : Bool) : Word := if c then 1#64 else 0#64

/-- A 64-bit operation of chapter 10 on registers. -/
def natOp (f : Nat → Nat → Nat) (a b : Word) : Word := BitVec.ofNat 64 (f a.toNat b.toNat)

/-- `sext` of R443: a when n = b[5:0] is 0, else the sign extension of its n low bits. -/
def sextBy (a b : Word) : Word :=
  let n := b.toNat % 64
  if n = 0 then a else BitVec.ofInt 64 (sval n a.toNat)

/-- `zext` of R443. -/
def zextBy (a b : Word) : Word :=
  let n := b.toNat % 64
  if n = 0 then a else BitVec.ofNat 64 (a.toNat % 2 ^ n)


/-- `add` (R443: a + b, modulo 2^64). -/
def execAdd (d a b : BitVec 5) (s : State) : Result := alu2 (wAdd d a b) d a b (fun x y => x + y) s

/-- `sub` (R443: a - b). -/
def execSub (d a b : BitVec 5) (s : State) : Result := alu2 (wSub d a b) d a b (fun x y => x - y) s

/-- `and` (R443: bitwise AND). -/
def execAnd (d a b : BitVec 5) (s : State) : Result := alu2 (wAnd d a b) d a b (fun x y => x &&& y) s

/-- `or` (R443: bitwise OR). -/
def execOr (d a b : BitVec 5) (s : State) : Result := alu2 (wOr d a b) d a b (fun x y => x ||| y) s

/-- `xor` (R443: bitwise XOR). -/
def execXor (d a b : BitVec 5) (s : State) : Result := alu2 (wXor d a b) d a b (fun x y => x ^^^ y) s

/-- `sll` (R443: a shifted left by b mod 64). -/
def execSll (d a b : BitVec 5) (s : State) : Result := alu2 (wSll d a b) d a b (fun x y => x <<< (y.toNat % 64)) s

/-- `srl` (R443: a shifted right logically by b mod 64). -/
def execSrl (d a b : BitVec 5) (s : State) : Result := alu2 (wSrl d a b) d a b (fun x y => x >>> (y.toNat % 64)) s

/-- `sra` (R443: a shifted right arithmetically by b mod 64). -/
def execSra (d a b : BitVec 5) (s : State) : Result := alu2 (wSra d a b) d a b (fun x y => x.sshiftRight (y.toNat % 64)) s

/-- `slt` (R443: 1 when a < b as signed values). -/
def execSlt (d a b : BitVec 5) (s : State) : Result := alu2 (wSlt d a b) d a b (fun x y => bit1 (x.slt y)) s

/-- `sltu` (R443: 1 when a < b as unsigned values). -/
def execSltu (d a b : BitVec 5) (s : State) : Result := alu2 (wSltu d a b) d a b (fun x y => bit1 (x.ult y)) s

/-- `min` (R443: signed minimum). -/
def execMin (d a b : BitVec 5) (s : State) : Result := alu2 (wMin d a b) d a b (fun x y => if y.slt x then y else x) s

/-- `max` (R443: signed maximum). -/
def execMax (d a b : BitVec 5) (s : State) : Result := alu2 (wMax d a b) d a b (fun x y => if x.slt y then y else x) s

/-- `minu` (R443: unsigned minimum). -/
def execMinu (d a b : BitVec 5) (s : State) : Result := alu2 (wMinu d a b) d a b (fun x y => if y.ult x then y else x) s

/-- `maxu` (R443: unsigned maximum). -/
def execMaxu (d a b : BitVec 5) (s : State) : Result := alu2 (wMaxu d a b) d a b (fun x y => if x.ult y then y else x) s

/-- `mul` (R443: bits [63:0] of the product). -/
def execMul (d a b : BitVec 5) (s : State) : Result := alu2 (wMul d a b) d a b (fun x y => x * y) s

/-- `mulh` (R443, R264: bits [127:64] of the exact signed product). -/
def execMulh (d a b : BitVec 5) (s : State) : Result := alu2 (wMulh d a b) d a b (fun x y => natOp (mulhS 64) x y) s

/-- `mulhu` (R443, R264: bits [127:64] of the exact unsigned product). -/
def execMulhu (d a b : BitVec 5) (s : State) : Result := alu2 (wMulhu d a b) d a b (fun x y => natOp (mulhU 64) x y) s

/-- `div` (R443, R264: signed division; no trap). -/
def execDiv (d a b : BitVec 5) (s : State) : Result := alu2 (wDiv d a b) d a b (fun x y => natOp (divS 64) x y) s

/-- `divu` (R443, R264: unsigned division; no trap). -/
def execDivu (d a b : BitVec 5) (s : State) : Result := alu2 (wDivu d a b) d a b (fun x y => natOp (divU 64) x y) s

/-- `rem` (R443, R264: signed remainder; no trap). -/
def execRem (d a b : BitVec 5) (s : State) : Result := alu2 (wRem d a b) d a b (fun x y => natOp (remS 64) x y) s

/-- `remu` (R443, R264: unsigned remainder; no trap). -/
def execRemu (d a b : BitVec 5) (s : State) : Result := alu2 (wRemu d a b) d a b (fun x y => natOp (remU 64) x y) s

/-- `sext` (R443: sign extension of the b[5:0] low bits of a). -/
def execSext (d a b : BitVec 5) (s : State) : Result := alu2 (wSext d a b) d a b (fun x y => sextBy x y) s

/-- `zext` (R443: zero extension of the b[5:0] low bits of a). -/
def execZext (d a b : BitVec 5) (s : State) : Result := alu2 (wZext d a b) d a b (fun x y => zextBy x y) s

/-- `clz` (R443: leading zero bits; 64 when a = 0). -/
def execClz (d a : BitVec 5) (s : State) : Result := alu1 (wClz d a) d a (fun x => BitVec.ofNat 64 (clz 64 x.toNat)) s

/-- `ctz` (R443: trailing zero bits; 64 when a = 0). -/
def execCtz (d a : BitVec 5) (s : State) : Result := alu1 (wCtz d a) d a (fun x => BitVec.ofNat 64 (ctz 64 x.toNat)) s

/-- `popc` (R443: set bits of a). -/
def execPopc (d a : BitVec 5) (s : State) : Result := alu1 (wPopc d a) d a (fun x => BitVec.ofNat 64 (popc 64 x.toNat)) s

/-- `brev` (R443: bit i of the result is bit 63 - i of a). -/
def execBrev (d a : BitVec 5) (s : State) : Result := alu1 (wBrev d a) d a (fun x => BitVec.ofNat 64 (brev 64 x.toNat)) s

/-! ### Immediates (R444 to R446) -/

/-- sext(imm16, 16) of R444. -/
def simm (i : BitVec 16) : Word := i.signExtend 64

/-- `addi` (R444: a + sext(imm16, 16)). -/
def execAddi (d a : BitVec 5) (i : BitVec 16) (s : State) : Result := alu1 (wAddi d a i) d a (fun x => x + simm i) s

/-- `andi` (R444: a AND zext(imm16, 16)). -/
def execAndi (d a : BitVec 5) (i : BitVec 16) (s : State) : Result := alu1 (wAndi d a i) d a (fun x => x &&& i.setWidth 64) s

/-- `ori` (R444: a OR zext(imm16, 16)). -/
def execOri (d a : BitVec 5) (i : BitVec 16) (s : State) : Result := alu1 (wOri d a i) d a (fun x => x ||| i.setWidth 64) s

/-- `xori` (R444: a XOR zext(imm16, 16)). -/
def execXori (d a : BitVec 5) (i : BitVec 16) (s : State) : Result := alu1 (wXori d a i) d a (fun x => x ^^^ i.setWidth 64) s

/-- `slti` (R444: 1 when a < sext(imm16, 16) as signed values). -/
def execSlti (d a : BitVec 5) (i : BitVec 16) (s : State) : Result := alu1 (wSlti d a i) d a (fun x => bit1 (x.slt (simm i))) s

/-- `sltiu` (R444: 1 when a < sext(imm16, 16) as unsigned values). -/
def execSltiu (d a : BitVec 5) (i : BitVec 16) (s : State) : Result := alu1 (wSltiu d a i) d a (fun x => bit1 (x.ult (simm i))) s

/-- `lhi` (R444: sext(imm16, 16) * 65,536). -/
def execLhi (d : BitVec 5) (i : BitVec 16) (s : State) : Result :=
  scalarInstr (wLhi d i) [] s fun s => (s.setX d (simm i <<< 16)).retire

/-- `adpc` (R444, R445: the page of the instruction plus sext(imm16, 16) * 4,096). -/
def execAdpc (d : BitVec 5) (i : BitVec 16) (s : State) : Result :=
  scalarInstr (wAdpc d i) [] s fun s => (s.setX d ((s.h.pc &&& ~~~0xFFF#64) + (simm i <<< 12))).retire

/-- `slli` (R446: x(ra) shifted left by n). -/
def execSlli (d a : BitVec 5) (n : BitVec 6) (s : State) : Result := alu1 (wSlli d a n) d a (fun x => x <<< n.toNat) s

/-- `srli` (R446: x(ra) shifted right logically by n). -/
def execSrli (d a : BitVec 5) (n : BitVec 6) (s : State) : Result := alu1 (wSrli d a n) d a (fun x => x >>> n.toNat) s

/-- `srai` (R446: x(ra) shifted right arithmetically by n). -/
def execSrai (d a : BitVec 5) (n : BitVec 6) (s : State) : Result := alu1 (wSrai d a n) d a (fun x => x.sshiftRight n.toNat) s

/-- `roli` (R446: x(ra) rotated left by n). -/
def execRoli (d a : BitVec 5) (n : BitVec 6) (s : State) : Result := alu1 (wRoli d a n) d a (fun x => x.rotateLeft n.toNat) s

end Sys2Proof.Machine
end

