-- ==== Sys2Proof/Machine/ScalarFp.lean ====
section
/-! DEFINITION. The scalar floating-point instructions (R447). -/

namespace Sys2Proof.Machine

/-- The format of a fmt code (R447). -/
def fmtOf (t : BitVec 2) : Fmt := if t = 0#2 then .f64 else if t = 1#2 then .f32 else if t = 2#2 then .bf16 else .f16

/-- A scalar register read at the width of a format (R230). -/
def State.fx (s : State) (n : XNum) (f : Fmt) : Nat := (s.x n).toNat % 2 ^ fmtBits f

/-- The frame of a scalar FP instruction that rounds: dynamic rounding under a reserved FCSR.RM traps ILL (R273); the result
is written zero-extended (R230) and the flags are raised as it issues (R447). -/
def fpRounded (w : IWord) (regs : List XNum) (d : XNum) (r : BitVec 3) (f : RMode → State → Nat × Flags) (s : State) : Result :=
  match rmode r s.h.rm with
  | none => .next (s.ill w)
  | some m =>
    scalarInstr w regs s fun s =>
      let res := f m s
      ((s.setX d (BitVec.ofNat 64 res.1)).mod fun h => h.raise res.2).retire

/-- The frame of a scalar FP instruction that does not round. -/
def fpPlain (w : IWord) (regs : List XNum) (d : XNum) (f : State → Nat × Flags) (s : State) : Result :=
  scalarInstr w regs s fun s =>
    let res := f s
    ((s.setX d (BitVec.ofNat 64 res.1)).mod fun h => h.raise res.2).retire

/-- Signedness and width of an integer type code of `fcvif` and `fcvfi`: i32, i64, z32, z64 (R447). -/
def itSigned (i : BitVec 4) : Bool := decide (i.toNat < 4)
/-- Width of an integer type code (R447). -/
def itBits (i : BitVec 4) : Nat := if i.toNat % 4 = 2 then 32 else 64

/-- A comparison result as a 64-bit integer (R447). -/
def cmpResult (r : Bool × Flags) : Nat × Flags := (if r.1 then 1 else 0, r.2)

/-- `fadd` (R447, R272: round(a + b)). -/
def execFadd (d a b : BitVec 5) (t : BitVec 2) (r : BitVec 3) (s : State) : Result :=
  fpRounded (wFadd d a b t r) [a, b] d r (fun m s => fpAdd (fmtOf t) m (s.fx a (fmtOf t)) (s.fx b (fmtOf t))) s

/-- `fsub` (R447, R272: round(a - b)). -/
def execFsub (d a b : BitVec 5) (t : BitVec 2) (r : BitVec 3) (s : State) : Result :=
  fpRounded (wFsub d a b t r) [a, b] d r (fun m s => fpSub (fmtOf t) m (s.fx a (fmtOf t)) (s.fx b (fmtOf t))) s

/-- `fmul` (R447, R272: round(a * b)). -/
def execFmul (d a b : BitVec 5) (t : BitVec 2) (r : BitVec 3) (s : State) : Result :=
  fpRounded (wFmul d a b t r) [a, b] d r (fun m s => fpMul (fmtOf t) m (s.fx a (fmtOf t)) (s.fx b (fmtOf t))) s

/-- `fdiv` (R447, R272: round(a / b)). -/
def execFdiv (d a b : BitVec 5) (t : BitVec 2) (r : BitVec 3) (s : State) : Result :=
  fpRounded (wFdiv d a b t r) [a, b] d r (fun m s => fpDiv (fmtOf t) m (s.fx a (fmtOf t)) (s.fx b (fmtOf t))) s

/-- `fsqrt` (R447: the rounded square root). -/
def execFsqrt (d a : BitVec 5) (t : BitVec 2) (r : BitVec 3) (s : State) : Result :=
  fpRounded (wFsqrt d a t r) [a] d r (fun m s => fpSqrt (fmtOf t) m (s.fx a (fmtOf t))) s

/-- `fmin` (R447, R280). -/
def execFmin (d a b : BitVec 5) (t : BitVec 2) (s : State) : Result :=
  fpPlain (wFmin d a b t) [a, b] d (fun s => fpMinMax (fmtOf t) false (s.fx a (fmtOf t)) (s.fx b (fmtOf t))) s

/-- `fmax` (R447, R280). -/
def execFmax (d a b : BitVec 5) (t : BitVec 2) (s : State) : Result :=
  fpPlain (wFmax d a b t) [a, b] d (fun s => fpMinMax (fmtOf t) true (s.fx a (fmtOf t)) (s.fx b (fmtOf t))) s

/-- `fmadd` (R447, R272: round(a * b + c) once, c the old destination). -/
def execFmadd (d a b : BitVec 5) (t : BitVec 2) (r : BitVec 3) (s : State) : Result :=
  fpRounded (wFmadd d a b t r) [a, b, d] d r
    (fun m s => fpFma (fmtOf t) m false false (s.fx a (fmtOf t)) (s.fx b (fmtOf t)) (s.fx d (fmtOf t))) s

/-- `feq` (R447, R280). -/
def execFeq (d a b : BitVec 5) (t : BitVec 2) (s : State) : Result :=
  fpPlain (wFeq d a b t) [a, b] d (fun s => cmpResult (fpCompare (fmtOf t) .eq (s.fx a (fmtOf t)) (s.fx b (fmtOf t)))) s

/-- `flt` (R447, R280). -/
def execFlt (d a b : BitVec 5) (t : BitVec 2) (s : State) : Result :=
  fpPlain (wFlt d a b t) [a, b] d (fun s => cmpResult (fpCompare (fmtOf t) .lt (s.fx a (fmtOf t)) (s.fx b (fmtOf t)))) s

/-- `fle` (R447, R280). -/
def execFle (d a b : BitVec 5) (t : BitVec 2) (s : State) : Result :=
  fpPlain (wFle d a b t) [a, b] d (fun s => cmpResult (fpCompare (fmtOf t) .le (s.fx a (fmtOf t)) (s.fx b (fmtOf t)))) s

/-- `fclass` (R447: the 4-bit class code; no flag). -/
def execFclass (d a : BitVec 5) (t : BitVec 2) (s : State) : Result :=
  fpPlain (wFclass d a t) [a] d (fun s => (fpClass (fmtOf t) (s.fx a (fmtOf t)), 0#5)) s

/-- `fcvif` (R447, R278: the integer value of x(ra), rounded). -/
def execFcvif (d a : BitVec 5) (i : BitVec 4) (t : BitVec 2) (r : BitVec 3) (s : State) : Result :=
  fpRounded (wFcvif d a i t r) [a] d r
    (fun m s =>
      let n := (s.x a).toNat % 2 ^ itBits i
      intToFp (fmtOf t) m s.h.sat (if itSigned i then sval (itBits i) n else Int.ofNat n)) s

/-- `fcvfi` (R447, R277: converted to the integer type, sign-extended for i32 and zero-extended for z32). -/
def execFcvfi (d a : BitVec 5) (i : BitVec 4) (t : BitVec 2) (r : BitVec 3) (s : State) : Result :=
  fpRounded (wFcvfi d a i t r) [a] d r
    (fun m s =>
      let res := fpToInt (fmtOf t) (itSigned i) (itBits i) m (s.fx a (fmtOf t))
      (if itSigned i then wrap 64 (sval (itBits i) res.1) else res.1, res.2)) s

/-- `fcvff` (R447, R276: read in format sf, converted to fmt under FCSR.SAT). -/
def execFcvff (d a : BitVec 5) (f t : BitVec 2) (r : BitVec 3) (s : State) : Result :=
  fpRounded (wFcvff d a f t r) [a] d r (fun m s => fpToFp (fmtOf f) (fmtOf t) m s.h.sat (s.fx a (fmtOf f))) s

end Sys2Proof.Machine
end

