-- ==== Sys2Proof/Machine/Time.lean ====
section
/-! DEFINITION. Disciplined time (R84 to R92): the two Bellwethers, their masters and links, their locks, the state of device time and its
bound. -/

namespace Sys2Proof.Machine

/-! ### Masters and links (R84) -/

/-- Change one Bellwether. -/
def State.modBell (s : State) (d : Fin 2) (f : Bellwether → Bellwether) : State :=
  { s with clock := { s.clock with bell := s.clock.bell.set d (f s.clock.bell[d]) } }

/-- Whether the first of two data sets is the better: the first number in which they differ is the lower (the default algorithm of
IEEE 1588, assumption 64). -/
def betterMaster (a b : PtpAnnounce) : Bool :=
  let k (x : PtpAnnounce) : List Nat := [x.priority1, x.clockClass, x.accuracy, x.variance, x.priority2, x.grandmaster, x.steps]
  match ((k a).zip (k b)).find? fun x => x.1 ≠ x.2 with
  | some x => decide (x.1 < x.2)
  | none => false

/-- The best of the masters that the ports announce. -/
def Bellwether.best (b : Bellwether) : Option PtpAnnounce :=
  b.masters.foldl (fun m x => match m with | some y => if betterMaster x.2 y then some x.2 else m | none => some x.2) none

/-- The grandmaster that a Bellwether follows. -/
def Bellwether.grandmaster (b : Bellwether) : Option Nat := b.best.map (·.grandmaster)

/-- Whether a Sync is valid: domain 0, on a port that announces the grandmaster. -/
def Bellwether.valid (b : Bellwether) (x : PtpSync) : Bool :=
  decide (x.domain = 0) && b.masters.any fun m => m.1 = x.port && b.grandmaster == some m.2.grandmaster

/-! ### A Sync interval (R87, R88) -/

/-- The Bellwether after a Sync interval with an offset in ns: its last 16 offsets, and its count of good intervals. -/
def Bellwether.sync (b : Bellwether) (offset : Int) : Bellwether :=
  { b with offsets := (offset.natAbs :: b.offsets).take 16, good := if offset.natAbs < 50 then b.good + 1 else 0, missed := 0 }

/-- The Bellwether after a Sync interval without a valid Sync. -/
def Bellwether.miss (b : Bellwether) : Bellwether := { b with good := 0, missed := b.missed + 1 }

/-- UNC of a locked Bellwether (R88). -/
def Bellwether.bound (b : Bellwether) : Nat := 2 * b.offsets.foldl max 0 + 20

/-- Whether 16 consecutive intervals were good and the Bellwether is not LOCKED (R87). -/
def Bellwether.locks (b : Bellwether) : Bool := decide (16 ≤ b.good) && b.tstate != .locked

/-! ### Locks (R86, R87) -/

/-- UNC follows the source while it is LOCKED (R88). -/
def State.followSource (s : State) : State :=
  let b := s.clock.bell[s.clock.src]
  if b.tstate = .locked then { s with clock := { s.clock with unc := b.bound } } else s

/-- A Bellwether locks. For the source in FREE, GTIME becomes PTP time: before harts have left reset whatever it is, and afterwards
only forward, or the lock is not taken (R86). `ptp` is in units of 2^-16 ns. -/
def State.lock (s : State) (d : Fin 2) (ptp : Nat) : State :=
  let first := s.clock.src = d && s.clock.bell[d].tstate == .free
  if first && s.host.state == .ready && decide (ptp < s.clock.gtime) then s
  else
    let s := s.modBell d fun b => { b with tstate := .locked }
    if first then { s with clock := { s.clock with gtime := ptp } } else s

/-! ### Loss of lock (R85, R87) -/

/-- A Bellwether leaves LOCKED. For the source, the other one takes its place when it is LOCKED; else UNC grows from its value now. -/
def State.unlock (s : State) (d : Fin 2) : State :=
  if s.clock.bell[d].tstate = .locked then
    let u := s.uncFull
    let s := s.modBell d fun b => { b with tstate := .holdover, good := 0 }
    if s.clock.src = d then
      if s.clock.bell[1 - d].tstate = .locked then State.followSource { s with clock := { s.clock with src := 1 - d } }
      else { s with clock := { s.clock with uncEntry := u, entryTime := s.clock.gtime } }
    else s
  else s.modBell d fun b => { b with good := 0 }

/-- A Sync interval with a valid Sync: the first of them gives the offset, less the delay of its link. -/
def State.goodInterval (s : State) (d : Fin 2) (port : Fin 12) (raw : Int) (ptp : Nat) : State :=
  let offset := raw - s.clock.bell[d].delays[port]
  let s := s.modBell d fun b => b.sync offset
  let s := if s.clock.bell[d].locks then s.lock d ptp else s
  let s := if s.clock.src = d then { s with clock := { s.clock with slew := offset.natAbs, slewTime := s.clock.gtime } } else s
  s.followSource

/-- PTP_SYNC (R84, R87, R88): a Sync interval of a Bellwether ends, with the Syncs that its ports received in it. `offset` is the time that the first valid
one took by the Bellwether's clock in ns, `ptp` PTP time at its arrival in units of 2^-16 ns. The fourth interval in a row without a valid
one ends LOCKED. -/
def execPtpSync (die : Fin 2) (offset : Int) (ptp : Nat) (syncs : List PtpSync) (s : State) : Result :=
  .next <|
    let good := syncs.filter s.clock.bell[die].valid
    let s := s.modBell die fun b => { b with synced := good.foldl (fun m x => m ||| (1#12 <<< x.port.val)) 0#12 }
    match good with
    | x :: _ => s.goodInterval die x.port offset ptp
    | [] =>
      let s := s.modBell die Bellwether.miss
      if 4 ≤ s.clock.bell[die].missed then s.unlock die else s

/-- PTP_ANNOUNCE (R84, R87): what a port announces in domain 0; when the best master has another grandmaster, LOCKED ends. -/
def execPtpAnnounce (die : Fin 2) (x : PortAnnounce) (s : State) : Result :=
  .next <|
    if x.ann.domain ≠ 0 then s
    else
      let old := s.clock.bell[die].grandmaster
      let s := s.modBell die fun b => { b with masters := (x.port, x.ann) :: b.masters.filter (·.1 ≠ x.port) }
      if old.isSome && s.clock.bell[die].grandmaster != old then s.unlock die else s

/-- PTP_PDELAY (R84): a peer-delay exchange, sent at t1, received at t2, answered at t3 and received at t4, gives the delay of the link. -/
def execPtpPdelay (p : PtpPort) (t : PtpTimes) (s : State) : Result :=
  .next (s.modBell p.die fun b => { b with delays := b.delays.set p.port (((t.t4 - t.t1) - (t.t3 - t.t2)) / 2) })

/-- SYNC_LOSS_TIMEOUT (R87): four Sync intervals without a valid Sync. -/
def execSyncLossTimeout (die : Fin 2) (s : State) : Result :=
  .next (s.unlock die |>.modBell die fun b => { b with synced := 0#12 })

/-- HOLDOVER_TO_UNCERTAIN (R87, R88): UNC comes above 1,000 ns, so device time has come at least to the count at which it does. A Bellwether that
is not the source has no UNC of its own and takes the step when the event comes. -/
def execHoldoverToUncertain (die : Fin 2) (s : State) : Result :=
  .next <|
    if s.clock.bell[die].tstate = .holdover then
      let s := if s.clock.src = die then s.timeTo (s.clock.entryTime + (1000 - s.clock.uncEntry) * 13107200000 + 1) else s
      if s.clock.src = die && s.clock.grown ≤ 1000 then s else s.modBell die fun b => { b with tstate := .uncertain }
    else s

end Sys2Proof.Machine
end

