-- ==== Sys2Proof/Machine/Dispatch.lean ====
section
/-! DEFINITION. The meaning of every instruction and event: one arm for each constructor. -/

namespace Sys2Proof.Machine

open Sys2Proof (Instr)

/-- The effect of an instruction or event on the machine. -/
def exec (i : Instr) (s : State) : Host.Outcome State Fault Refusal :=
  match i with
  | .pfx p n c v g f t e z => Sys2Proof.Machine.execPfx p n c v g f t e z s
  | .add d a b => Sys2Proof.Machine.execAdd d a b s
  | .sub d a b => Sys2Proof.Machine.execSub d a b s
  | .and d a b => Sys2Proof.Machine.execAnd d a b s
  | .or d a b => Sys2Proof.Machine.execOr d a b s
  | .xor d a b => Sys2Proof.Machine.execXor d a b s
  | .sll d a b => Sys2Proof.Machine.execSll d a b s
  | .srl d a b => Sys2Proof.Machine.execSrl d a b s
  | .sra d a b => Sys2Proof.Machine.execSra d a b s
  | .slt d a b => Sys2Proof.Machine.execSlt d a b s
  | .sltu d a b => Sys2Proof.Machine.execSltu d a b s
  | .min d a b => Sys2Proof.Machine.execMin d a b s
  | .max d a b => Sys2Proof.Machine.execMax d a b s
  | .minu d a b => Sys2Proof.Machine.execMinu d a b s
  | .maxu d a b => Sys2Proof.Machine.execMaxu d a b s
  | .mul d a b => Sys2Proof.Machine.execMul d a b s
  | .mulh d a b => Sys2Proof.Machine.execMulh d a b s
  | .mulhu d a b => Sys2Proof.Machine.execMulhu d a b s
  | .div d a b => Sys2Proof.Machine.execDiv d a b s
  | .divu d a b => Sys2Proof.Machine.execDivu d a b s
  | .rem d a b => Sys2Proof.Machine.execRem d a b s
  | .remu d a b => Sys2Proof.Machine.execRemu d a b s
  | .clz d a => Sys2Proof.Machine.execClz d a s
  | .ctz d a => Sys2Proof.Machine.execCtz d a s
  | .popc d a => Sys2Proof.Machine.execPopc d a s
  | .sext d a b => Sys2Proof.Machine.execSext d a b s
  | .zext d a b => Sys2Proof.Machine.execZext d a b s
  | .brev d a => Sys2Proof.Machine.execBrev d a s
  | .addi d a qi => Sys2Proof.Machine.execAddi d a qi s
  | .andi d a qi => Sys2Proof.Machine.execAndi d a qi s
  | .ori d a qi => Sys2Proof.Machine.execOri d a qi s
  | .xori d a qi => Sys2Proof.Machine.execXori d a qi s
  | .slti d a qi => Sys2Proof.Machine.execSlti d a qi s
  | .sltiu d a qi => Sys2Proof.Machine.execSltiu d a qi s
  | .lhi d qi => Sys2Proof.Machine.execLhi d qi s
  | .adpc d qi => Sys2Proof.Machine.execAdpc d qi s
  | .slli d a qs => Sys2Proof.Machine.execSlli d a qs s
  | .srli d a qs => Sys2Proof.Machine.execSrli d a qs s
  | .srai d a qs => Sys2Proof.Machine.execSrai d a qs s
  | .roli d a qs => Sys2Proof.Machine.execRoli d a qs s
  | .fadd d a b t r => Sys2Proof.Machine.execFadd d a b t r s
  | .fsub d a b t r => Sys2Proof.Machine.execFsub d a b t r s
  | .fmul d a b t r => Sys2Proof.Machine.execFmul d a b t r s
  | .fdiv d a b t r => Sys2Proof.Machine.execFdiv d a b t r s
  | .fsqrt d a t r => Sys2Proof.Machine.execFsqrt d a t r s
  | .fmin d a b t => Sys2Proof.Machine.execFmin d a b t s
  | .fmax d a b t => Sys2Proof.Machine.execFmax d a b t s
  | .fmadd d a b t r => Sys2Proof.Machine.execFmadd d a b t r s
  | .feq d a b t => Sys2Proof.Machine.execFeq d a b t s
  | .flt d a b t => Sys2Proof.Machine.execFlt d a b t s
  | .fle d a b t => Sys2Proof.Machine.execFle d a b t s
  | .fclass d a t => Sys2Proof.Machine.execFclass d a t s
  | .fcvif d a qi t r => Sys2Proof.Machine.execFcvif d a qi t r s
  | .fcvfi d a qi t r => Sys2Proof.Machine.execFcvfi d a qi t r s
  | .fcvff d a qs t r => Sys2Proof.Machine.execFcvff d a qs t r s
  | .ld d b w o => Sys2Proof.Machine.execLd d b w o s
  | .st qs b w o => Sys2Proof.Machine.execSt qs b w o s
  | .amoadd d a b z q l c => Sys2Proof.Machine.execAmoadd d a b z q l c s
  | .amoand d a b z q l c => Sys2Proof.Machine.execAmoand d a b z q l c s
  | .amoor d a b z q l c => Sys2Proof.Machine.execAmoor d a b z q l c s
  | .amoxor d a b z q l c => Sys2Proof.Machine.execAmoxor d a b z q l c s
  | .amomin d a b z q l c => Sys2Proof.Machine.execAmomin d a b z q l c s
  | .amomax d a b z q l c => Sys2Proof.Machine.execAmomax d a b z q l c s
  | .amominu d a b z q l c => Sys2Proof.Machine.execAmominu d a b z q l c s
  | .amomaxu d a b z q l c => Sys2Proof.Machine.execAmomaxu d a b z q l c s
  | .amoswap d a b z q l c => Sys2Proof.Machine.execAmoswap d a b z q l c s
  | .amocas d a b z q l c => Sys2Proof.Machine.execAmocas d a b z q l c s
  | .amofadd d a b z q l c => Sys2Proof.Machine.execAmofadd d a b z q l c s
  | .ldr d a z => Sys2Proof.Machine.execLdr d a z s
  | .stc d a b z => Sys2Proof.Machine.execStc d a b z s
  | .beq a b qi => Sys2Proof.Machine.execBeq a b qi s
  | .bne a b qi => Sys2Proof.Machine.execBne a b qi s
  | .blt a b qi => Sys2Proof.Machine.execBlt a b qi s
  | .bge a b qi => Sys2Proof.Machine.execBge a b qi s
  | .bltu a b qi => Sys2Proof.Machine.execBltu a b qi s
  | .bgeu a b qi => Sys2Proof.Machine.execBgeu a b qi s
  | .jmp qi => Sys2Proof.Machine.execJmp qi s
  | .call qi => Sys2Proof.Machine.execCall qi s
  | .jalr d a => Sys2Proof.Machine.execJalr d a s
  | .ret => Sys2Proof.Machine.execRet s
  | .callr a => Sys2Proof.Machine.execCallr a s
  | .loop l c n => Sys2Proof.Machine.execLoop l c n s
  | .svc qi => Sys2Proof.Machine.execSvc qi s
  | .brk qi => Sys2Proof.Machine.execBrk qi s
  | .eret => Sys2Proof.Machine.execEret s
  | .wfe => Sys2Proof.Machine.execWfe s
  | .ifence => Sys2Proof.Machine.execIfence s
  | .tinv a => Sys2Proof.Machine.execTinv a s
  | .tinva => Sys2Proof.Machine.execTinva s
  | .emuret => Sys2Proof.Machine.execEmuret s
  | .evsig a => Sys2Proof.Machine.execEvsig a s
  | .yield => Sys2Proof.Machine.execYield s
  | .crr d c => Sys2Proof.Machine.execCrr d c s
  | .crw d a c => Sys2Proof.Machine.execCrw d a c s
  | .crs d a c => Sys2Proof.Machine.execCrs d a c s
  | .crc d a c => Sys2Proof.Machine.execCrc d a c s
  | .smac d a b => Sys2Proof.Machine.execSmac d a b s
  | .smacz d a b => Sys2Proof.Machine.execSmacz d a b s
  | .setvl d a e g t => Sys2Proof.Machine.execSetvl d a e g t s
  | .setlens d a b e g t => Sys2Proof.Machine.execSetlens d a b e g t s
  | .setvlp d a b => Sys2Proof.Machine.execSetvlp d a b s
  | .mstart => Sys2Proof.Machine.execMstart s
  | .mstop t => Sys2Proof.Machine.execMstop t s
  | .mcfg a t => Sys2Proof.Machine.execMcfg a t s
  | .vrelease d t => Sys2Proof.Machine.execVrelease d t s
  | .vld d b m c w x => Sys2Proof.Machine.execVld d b m c w x s
  | .vlds d b r m w x => Sys2Proof.Machine.execVlds d b r m w x s
  | .vldx d b qi m w x => Sys2Proof.Machine.execVldx d b qi m w x s
  | .vldxo d b qi m c w x => Sys2Proof.Machine.execVldxo d b qi m c w x s
  | .vst qs b m c n w => Sys2Proof.Machine.execVst qs b m c n w s
  | .vsts qs b r m n w => Sys2Proof.Machine.execVsts qs b r m n w s
  | .vstx qs b qi m n w => Sys2Proof.Machine.execVstx qs b qi m n w s
  | .vstxo qs b qi m c n w => Sys2Proof.Machine.execVstxo qs b qi m c n w s
  | .sbind n a => Sys2Proof.Machine.execSbind n a s
  | .sunbind n => Sys2Proof.Machine.execSunbind n s
  | .spos n a => Sys2Proof.Machine.execSpos n a s
  | .gsp d qs qi m => Sys2Proof.Machine.execGsp d qs qi m s
  | .ssp d qs qi m => Sys2Proof.Machine.execSsp d qs qi m s
  | .cpy a m => Sys2Proof.Machine.execCpy a m s
  | .cpyr a m => Sys2Proof.Machine.execCpyr a m s
  | .capp d a b m => Sys2Proof.Machine.execCapp d a b m s
  | .vlm r a => Sys2Proof.Machine.execVlm r a s
  | .vsm r a => Sys2Proof.Machine.execVsm r a s
  | .cwait d => Sys2Proof.Machine.execCwait d s
  | .vaddVv d a b m p => Sys2Proof.Machine.execVaddVv d a b m p s
  | .vaddVx d a x m => Sys2Proof.Machine.execVaddVx d a x m s
  | .vsubVv d a b m p => Sys2Proof.Machine.execVsubVv d a b m p s
  | .vsubVx d a x m => Sys2Proof.Machine.execVsubVx d a x m s
  | .vrsubVx d a x m => Sys2Proof.Machine.execVrsubVx d a x m s
  | .vmulVv d a b m p => Sys2Proof.Machine.execVmulVv d a b m p s
  | .vmulVx d a x m => Sys2Proof.Machine.execVmulVx d a x m s
  | .vmulhVv d a b m p => Sys2Proof.Machine.execVmulhVv d a b m p s
  | .vmulhVx d a x m => Sys2Proof.Machine.execVmulhVx d a x m s
  | .vmulhuVv d a b m p => Sys2Proof.Machine.execVmulhuVv d a b m p s
  | .vmulhuVx d a x m => Sys2Proof.Machine.execVmulhuVx d a x m s
  | .vdivVv d a b m p => Sys2Proof.Machine.execVdivVv d a b m p s
  | .vdivVx d a x m => Sys2Proof.Machine.execVdivVx d a x m s
  | .vdivuVv d a b m p => Sys2Proof.Machine.execVdivuVv d a b m p s
  | .vdivuVx d a x m => Sys2Proof.Machine.execVdivuVx d a x m s
  | .vremVv d a b m p => Sys2Proof.Machine.execVremVv d a b m p s
  | .vremVx d a x m => Sys2Proof.Machine.execVremVx d a x m s
  | .vremuVv d a b m p => Sys2Proof.Machine.execVremuVv d a b m p s
  | .vremuVx d a x m => Sys2Proof.Machine.execVremuVx d a x m s
  | .vminVv d a b m p => Sys2Proof.Machine.execVminVv d a b m p s
  | .vminVx d a x m => Sys2Proof.Machine.execVminVx d a x m s
  | .vmaxVv d a b m p => Sys2Proof.Machine.execVmaxVv d a b m p s
  | .vmaxVx d a x m => Sys2Proof.Machine.execVmaxVx d a x m s
  | .vminuVv d a b m p => Sys2Proof.Machine.execVminuVv d a b m p s
  | .vminuVx d a x m => Sys2Proof.Machine.execVminuVx d a x m s
  | .vmaxuVv d a b m p => Sys2Proof.Machine.execVmaxuVv d a b m p s
  | .vmaxuVx d a x m => Sys2Proof.Machine.execVmaxuVx d a x m s
  | .vandVv d a b m p => Sys2Proof.Machine.execVandVv d a b m p s
  | .vandVx d a x m => Sys2Proof.Machine.execVandVx d a x m s
  | .vorVv d a b m p => Sys2Proof.Machine.execVorVv d a b m p s
  | .vorVx d a x m => Sys2Proof.Machine.execVorVx d a x m s
  | .vxorVv d a b m p => Sys2Proof.Machine.execVxorVv d a b m p s
  | .vxorVx d a x m => Sys2Proof.Machine.execVxorVx d a x m s
  | .vsllVv d a b m p => Sys2Proof.Machine.execVsllVv d a b m p s
  | .vsllVx d a x m => Sys2Proof.Machine.execVsllVx d a x m s
  | .vsrlVv d a b m p => Sys2Proof.Machine.execVsrlVv d a b m p s
  | .vsrlVx d a x m => Sys2Proof.Machine.execVsrlVx d a x m s
  | .vsraVv d a b m p => Sys2Proof.Machine.execVsraVv d a b m p s
  | .vsraVx d a x m => Sys2Proof.Machine.execVsraVx d a x m s
  | .vsaddVv d a b m p => Sys2Proof.Machine.execVsaddVv d a b m p s
  | .vsaddVx d a x m => Sys2Proof.Machine.execVsaddVx d a x m s
  | .vsadduVv d a b m p => Sys2Proof.Machine.execVsadduVv d a b m p s
  | .vsadduVx d a x m => Sys2Proof.Machine.execVsadduVx d a x m s
  | .vssubVv d a b m p => Sys2Proof.Machine.execVssubVv d a b m p s
  | .vssubVx d a x m => Sys2Proof.Machine.execVssubVx d a x m s
  | .vssubuVv d a b m p => Sys2Proof.Machine.execVssubuVv d a b m p s
  | .vssubuVx d a x m => Sys2Proof.Machine.execVssubuVx d a x m s
  | .vabs d a m => Sys2Proof.Machine.execVabs d a m s
  | .vmaccVv d a b m p => Sys2Proof.Machine.execVmaccVv d a b m p s
  | .vmaccVx d a x m => Sys2Proof.Machine.execVmaccVx d a x m s
  | .vselVv d a b m p => Sys2Proof.Machine.execVselVv d a b m p s
  | .vselVx d a x m => Sys2Proof.Machine.execVselVx d a x m s
  | .vmvVv d a m => Sys2Proof.Machine.execVmvVv d a m s
  | .vmvVx d x m => Sys2Proof.Machine.execVmvVx d x m s
  | .vpopc d a m => Sys2Proof.Machine.execVpopc d a m s
  | .vclz d a m => Sys2Proof.Machine.execVclz d a m s
  | .vpcp d a m => Sys2Proof.Machine.execVpcp d a m s
  | .vid d m => Sys2Proof.Machine.execVid d m s
  | .vextVv d a b m p => Sys2Proof.Machine.execVextVv d a b m p s
  | .vextVx d a x m => Sys2Proof.Machine.execVextVx d a x m s
  | .vinsVv d a b m p => Sys2Proof.Machine.execVinsVv d a b m p s
  | .vinsVx d a x m => Sys2Proof.Machine.execVinsVx d a x m s
  | .vabsdVv d a b m p => Sys2Proof.Machine.execVabsdVv d a b m p s
  | .vabsdVx d a x m => Sys2Proof.Machine.execVabsdVx d a x m s
  | .vaaddVv d a b m => Sys2Proof.Machine.execVaaddVv d a b m s
  | .vaaddVx d a x m => Sys2Proof.Machine.execVaaddVx d a x m s
  | .vaadduVv d a b m => Sys2Proof.Machine.execVaadduVv d a b m s
  | .vaadduVx d a x m => Sys2Proof.Machine.execVaadduVx d a x m s
  | .vasubVv d a b m => Sys2Proof.Machine.execVasubVv d a b m s
  | .vasubVx d a x m => Sys2Proof.Machine.execVasubVx d a x m s
  | .vasubuVv d a b m => Sys2Proof.Machine.execVasubuVv d a b m s
  | .vasubuVx d a x m => Sys2Proof.Machine.execVasubuVx d a x m s
  | .vfaddVv d a b m p => Sys2Proof.Machine.execVfaddVv d a b m p s
  | .vfaddVx d a x m => Sys2Proof.Machine.execVfaddVx d a x m s
  | .vfsubVv d a b m p => Sys2Proof.Machine.execVfsubVv d a b m p s
  | .vfsubVx d a x m => Sys2Proof.Machine.execVfsubVx d a x m s
  | .vfrsubVx d a x m => Sys2Proof.Machine.execVfrsubVx d a x m s
  | .vfmulVv d a b m p => Sys2Proof.Machine.execVfmulVv d a b m p s
  | .vfmulVx d a x m => Sys2Proof.Machine.execVfmulVx d a x m s
  | .vfdivVv d a b m p => Sys2Proof.Machine.execVfdivVv d a b m p s
  | .vfdivVx d a x m => Sys2Proof.Machine.execVfdivVx d a x m s
  | .vfrdivVx d a x m => Sys2Proof.Machine.execVfrdivVx d a x m s
  | .vfsqrt d a m => Sys2Proof.Machine.execVfsqrt d a m s
  | .vfmaVv d a b m p => Sys2Proof.Machine.execVfmaVv d a b m p s
  | .vfmaVx d a x m => Sys2Proof.Machine.execVfmaVx d a x m s
  | .vfmsVv d a b m p => Sys2Proof.Machine.execVfmsVv d a b m p s
  | .vfmsVx d a x m => Sys2Proof.Machine.execVfmsVx d a x m s
  | .vfnmaVv d a b m p => Sys2Proof.Machine.execVfnmaVv d a b m p s
  | .vfnmaVx d a x m => Sys2Proof.Machine.execVfnmaVx d a x m s
  | .vfminVv d a b m p => Sys2Proof.Machine.execVfminVv d a b m p s
  | .vfminVx d a x m => Sys2Proof.Machine.execVfminVx d a x m s
  | .vfmaxVv d a b m p => Sys2Proof.Machine.execVfmaxVv d a b m p s
  | .vfmaxVx d a x m => Sys2Proof.Machine.execVfmaxVx d a x m s
  | .vfabs d a m => Sys2Proof.Machine.execVfabs d a m s
  | .vfneg d a m => Sys2Proof.Machine.execVfneg d a m s
  | .vfrcp d a m => Sys2Proof.Machine.execVfrcp d a m s
  | .vfrsqrt d a m => Sys2Proof.Machine.execVfrsqrt d a m s
  | .vfsgnVv d a b m p => Sys2Proof.Machine.execVfsgnVv d a b m p s
  | .vfsgnVx d a x m => Sys2Proof.Machine.execVfsgnVx d a x m s
  | .vfclass d a m => Sys2Proof.Machine.execVfclass d a m s
  | .vfexp2 d a m => Sys2Proof.Machine.execVfexp2 d a m s
  | .vflog2 d a m => Sys2Proof.Machine.execVflog2 d a m s
  | .vfsat d a m => Sys2Proof.Machine.execVfsat d a m s
  | .vcmpVv d a b m p c t => Sys2Proof.Machine.execVcmpVv d a b m p c t s
  | .vcmpVx d a x m c t => Sys2Proof.Machine.execVcmpVx d a x m c t s
  | .mand d a b m => Sys2Proof.Machine.execMand d a b m s
  | .mor d a b m => Sys2Proof.Machine.execMor d a b m s
  | .mxor d a b m => Sys2Proof.Machine.execMxor d a b m s
  | .mandn d a b m => Sys2Proof.Machine.execMandn d a b m s
  | .mnot d a m => Sys2Proof.Machine.execMnot d a m s
  | .mmv d a m => Sys2Proof.Machine.execMmv d a m s
  | .mset d m => Sys2Proof.Machine.execMset d m s
  | .mclr d m => Sys2Proof.Machine.execMclr d m s
  | .mpop d a m => Sys2Proof.Machine.execMpop d a m s
  | .mfirst d a m => Sys2Proof.Machine.execMfirst d a m s
  | .mlast d a m => Sys2Proof.Machine.execMlast d a m s
  | .mbefore d a m => Sys2Proof.Machine.execMbefore d a m s
  | .mincl d a m => Sys2Proof.Machine.execMincl d a m s
  | .monly d a m => Sys2Proof.Machine.execMonly d a m s
  | .mtov d a m => Sys2Proof.Machine.execMtov d a m s
  | .vtom d a m => Sys2Proof.Machine.execVtom d a m s
  | .vcompress d a m => Sys2Proof.Machine.execVcompress d a m s
  | .vexpand d a m => Sys2Proof.Machine.execVexpand d a m s
  | .vslideup d a x m => Sys2Proof.Machine.execVslideup d a x m s
  | .vslidedn d a x m => Sys2Proof.Machine.execVslidedn d a x m s
  | .vgath d a b m => Sys2Proof.Machine.execVgath d a b m s
  | .vrev d a m => Sys2Proof.Machine.execVrev d a m s
  | .vtr d a m => Sys2Proof.Machine.execVtr d a m s
  | .vrelay d => Sys2Proof.Machine.execVrelay d s
  | .vzip d a b m => Sys2Proof.Machine.execVzip d a b m s
  | .vunzip d a m => Sys2Proof.Machine.execVunzip d a m s
  | .vrowmv d a x m => Sys2Proof.Machine.execVrowmv d a x m s
  | .vredsum d a b m => Sys2Proof.Machine.execVredsum d a b m s
  | .vredsumt d a b m => Sys2Proof.Machine.execVredsumt d a b m s
  | .vredmin d a b m => Sys2Proof.Machine.execVredmin d a b m s
  | .vredmax d a b m => Sys2Proof.Machine.execVredmax d a b m s
  | .vredand d a b m => Sys2Proof.Machine.execVredand d a b m s
  | .vredor d a b m => Sys2Proof.Machine.execVredor d a b m s
  | .vredxor d a b m => Sys2Proof.Machine.execVredxor d a b m s
  | .vredminu d a b m => Sys2Proof.Machine.execVredminu d a b m s
  | .vredmaxu d a b m => Sys2Proof.Machine.execVredmaxu d a b m s
  | .vfredsum d a b m => Sys2Proof.Machine.execVfredsum d a b m s
  | .vfredsumt d a b m => Sys2Proof.Machine.execVfredsumt d a b m s
  | .vfredmax d a b m => Sys2Proof.Machine.execVfredmax d a b m s
  | .vfredmin d a b m => Sys2Proof.Machine.execVfredmin d a b m s
  | .vscan d a b m => Sys2Proof.Machine.execVscan d a b m s
  | .vscanx d a b m => Sys2Proof.Machine.execVscanx d a b m s
  | .vfscan d a b m => Sys2Proof.Machine.execVfscan d a b m s
  | .vkswap d a b m => Sys2Proof.Machine.execVkswap d a b m s
  | .vkswapi d a x m => Sys2Proof.Machine.execVkswapi d a x m s
  | .vcvt d a m => Sys2Proof.Machine.execVcvt d a m s
  | .vcvtr d a r m => Sys2Proof.Machine.execVcvtr d a r m s
  | .vqbs d a b m => Sys2Proof.Machine.execVqbs d a b m s
  | .vdqbs d a b m => Sys2Proof.Machine.execVdqbs d a b m s
  | .fisect d a b c => Sys2Proof.Machine.execFisect d a b c s
  | .fisectb d a b => Sys2Proof.Machine.execFisectb d a b s
  | .funion d a b c => Sys2Proof.Machine.execFunion d a b c s
  | .fmerge d a b c => Sys2Proof.Machine.execFmerge d a b c s
  | .fsort d a => Sys2Proof.Machine.execFsort d a s
  | .fcompact d a m => Sys2Proof.Machine.execFcompact d a m s
  | .fdiff d a b => Sys2Proof.Machine.execFdiff d a b s
  | .fdedup d a c => Sys2Proof.Machine.execFdedup d a c s
  | .fld d a => Sys2Proof.Machine.execFld d a s
  | .fst f a => Sys2Proof.Machine.execFst f a s
  | .fbm d v => Sys2Proof.Machine.execFbm d v s
  | .fwalk d f a => Sys2Proof.Machine.execFwalk d f a s
  | .fexpand f v => Sys2Proof.Machine.execFexpand f v s
  | .fpack d m v => Sys2Proof.Machine.execFpack d m v s
  | .fsetl f qs x => Sys2Proof.Machine.execFsetl f qs x s
  | .focc f x => Sys2Proof.Machine.execFocc f x s
  | .fcoord f v => Sys2Proof.Machine.execFcoord f v s
  | .fval f v => Sys2Proof.Machine.execFval f v s
  | .fmv d f => Sys2Proof.Machine.execFmv d f s
  | .fclr d => Sys2Proof.Machine.execFclr d s
  | .mzero n => Sys2Proof.Machine.execMzero n s
  | .mopo n a b r c f => Sys2Proof.Machine.execMopo n a b r c f s
  | .mopob n a b r c f => Sys2Proof.Machine.execMopob n a b r c f s
  | .mopr n a b r c f => Sys2Proof.Machine.execMopr n a b r c f s
  | .moprb n a b r c f => Sys2Proof.Machine.execMoprb n a b r c f s
  | .mopi n a b r c f => Sys2Proof.Machine.execMopi n a b r c f s
  | .mops n a b r c f => Sys2Proof.Machine.execMops n a b r c f s
  | .mopsb n a b r c f => Sys2Proof.Machine.execMopsb n a b r c f s
  | .mtv n d x => Sys2Proof.Machine.execMtv n d x s
  | .mtvc n d x => Sys2Proof.Machine.execMtvc n d x s
  | .mvt n a x => Sys2Proof.Machine.execMvt n a x s
  | .mvtc n a x => Sys2Proof.Machine.execMvtc n a x s
  | .mld n a b => Sys2Proof.Machine.execMld n a b s
  | .mst n a b => Sys2Proof.Machine.execMst n a b s
  | .mgang => Sys2Proof.Machine.execMgang s
  | .mgsync => Sys2Proof.Machine.execMgsync s
  | .fence qs => Sys2Proof.Machine.execFence qs s
  | .fsc => Sys2Proof.Machine.execFsc s
  | .lsync => Sys2Proof.Machine.execLsync s
  | .gbar qs => Sys2Proof.Machine.execGbar qs s
  | .wfp a b d => Sys2Proof.Machine.execWfp a b d s
  | .eqpop a d => Sys2Proof.Machine.execEqpop a d s
  | .acqm n => Sys2Proof.Machine.execAcqm n s
  | .drainw d => Sys2Proof.Machine.execDrainw d s
  | .vamoadd d a x m => Sys2Proof.Machine.execVamoadd d a x m s
  | .vamoand d a x m => Sys2Proof.Machine.execVamoand d a x m s
  | .vamoor d a x m => Sys2Proof.Machine.execVamoor d a x m s
  | .vamoxor d a x m => Sys2Proof.Machine.execVamoxor d a x m s
  | .vamomin d a x m => Sys2Proof.Machine.execVamomin d a x m s
  | .vamomax d a x m => Sys2Proof.Machine.execVamomax d a x m s
  | .vamominu d a x m => Sys2Proof.Machine.execVamominu d a x m s
  | .vamomaxu d a x m => Sys2Proof.Machine.execVamomaxu d a x m s
  | .vamoswap d a x m => Sys2Proof.Machine.execVamoswap d a x m s
  | .vamofadd d a x m => Sys2Proof.Machine.execVamofadd d a x m s
  | .vsca d a x m => Sys2Proof.Machine.execVsca d a x m s
  | .vscamax d a x m => Sys2Proof.Machine.execVscamax d a x m s
  | .vscamin d a x m => Sys2Proof.Machine.execVscamin d a x m s
  | .vscao d a x m => Sys2Proof.Machine.execVscao d a x m s
  | .tsk a b d => Sys2Proof.Machine.execTsk a b d s
  | .tqget c qs => Sys2Proof.Machine.execTqget c qs s
  | .gtime d => Sys2Proof.Machine.execGtime d s
  | .gwait a d => Sys2Proof.Machine.execGwait a d s
  | .hbeat a d => Sys2Proof.Machine.execHbeat a d s
  | .tdone => Sys2Proof.Machine.execTdone s
  | .tmop n a b => Sys2Proof.Machine.execTmop n a b s
  | .tmzero n => Sys2Proof.Machine.execTmzero n s
  | .emulationEntry h => Sys2Proof.Machine.execEmulationEntry h s
  | .trapInQueue h => Sys2Proof.Machine.execTrapInQueue h s
  | .asyncTrapDelivery h => Sys2Proof.Machine.execAsyncTrapDelivery h s
  | .vectorPassEntry a => Sys2Proof.Machine.execVectorPassEntry a s
  | .vectorPassWrite a => Sys2Proof.Machine.execVectorPassWrite a s
  | .engineRetire h e => Sys2Proof.Machine.execEngineRetire h e s
  | .loadDataArrival a => Sys2Proof.Machine.execLoadDataArrival a s
  | .storePerform a va bytes => Sys2Proof.Machine.execStorePerform a va bytes s
  | .notifyStore h => Sys2Proof.Machine.execNotifyStore h s
  | .tableWalkDone h va kind => Sys2Proof.Machine.execTableWalkDone h va kind s
  | .streamStripFetch h b => Sys2Proof.Machine.execStreamStripFetch h b s
  | .copyChunkComplete h => Sys2Proof.Machine.execCopyChunkComplete h s
  | .copyBegin h => Sys2Proof.Machine.execCopyBegin h s
  | .intersectStart h => Sys2Proof.Machine.execIntersectStart h s
  | .matrixStepEntry h => Sys2Proof.Machine.execMatrixStepEntry h s
  | .matrixStepWrite h => Sys2Proof.Machine.execMatrixStepWrite h s
  | .matrixModeGrant => Sys2Proof.Machine.execMatrixModeGrant s
  | .mgangBind h => Sys2Proof.Machine.execMgangBind h s
  | .mgsyncRelease h => Sys2Proof.Machine.execMgsyncRelease h s
  | .laneGroupGrant => Sys2Proof.Machine.execLaneGroupGrant s
  | .fenceComplete h => Sys2Proof.Machine.execFenceComplete h s
  | .acqmComplete h => Sys2Proof.Machine.execAcqmComplete h s
  | .drainwComplete h => Sys2Proof.Machine.execDrainwComplete h s
  | .cwaitRetire h => Sys2Proof.Machine.execCwaitRetire h s
  | .tdoneStop h => Sys2Proof.Machine.execTdoneStop h s
  | .barrierArrival h => Sys2Proof.Machine.execBarrierArrival h s
  | .barrierRelease task scope => Sys2Proof.Machine.execBarrierRelease task scope s
  | .wfpWake h => Sys2Proof.Machine.execWfpWake h s
  | .wfeWake h => Sys2Proof.Machine.execWfeWake h s
  | .gwaitWake h => Sys2Proof.Machine.execGwaitWake h s
  | .eventSignalArrival hartid ctxid => Sys2Proof.Machine.execEventSignalArrival hartid ctxid s
  | .fifoWaitServed h => Sys2Proof.Machine.execFifoWaitServed h s
  | .cappAppend h => Sys2Proof.Machine.execCappAppend h s
  | .tlbInvalidateDone h => Sys2Proof.Machine.execTlbInvalidateDone h s
  | .sbindEngineClaim h => Sys2Proof.Machine.execSbindEngineClaim h s
  | .heartbeatTick adv => Sys2Proof.Machine.execHeartbeatTick adv s
  | .taskDispatch => Sys2Proof.Machine.execTaskDispatch s
  | .fullAdmissionRetry => Sys2Proof.Machine.execFullAdmissionRetry s
  | .nop => Sys2Proof.Machine.execNop s
  | .featack => Sys2Proof.Machine.execFeatack s
  | .ctxnew => Sys2Proof.Machine.execCtxnew s
  | .ctxkill => Sys2Proof.Machine.execCtxkill s
  | .launch => Sys2Proof.Machine.execLaunch s
  | .policy => Sys2Proof.Machine.execPolicy s
  | .fwstage => Sys2Proof.Machine.execFwstage s
  | .crqtailWrite v => Sys2Proof.Machine.execCrqtailWrite v s
  | .cqconsWrite v => Sys2Proof.Machine.execCqconsWrite v s
  | .evconsWrite v => Sys2Proof.Machine.execEvconsWrite v s
  | .moduleReset v => Sys2Proof.Machine.execModuleReset v s
  | .registerWrite off bytes => Sys2Proof.Machine.execRegisterWrite off bytes s
  | .monitorClear die k => Sys2Proof.Machine.execMonitorClear die k s
  | .monitorConfigWrite die k v => Sys2Proof.Machine.execMonitorConfigWrite die k v s
  | .monitorSample die k sample => Sys2Proof.Machine.execMonitorSample die k sample s
  | .pcieLinkDown => Sys2Proof.Machine.execPcieLinkDown s
  | .powerOn => Sys2Proof.Machine.execPowerOn s
  | .resetToPowerup => Sys2Proof.Machine.execResetToPowerup s
  | .diePowerUp die => Sys2Proof.Machine.execDiePowerUp die s
  | .diePowerGood die => Sys2Proof.Machine.execDiePowerGood die s
  | .powerGoodTimeout die => Sys2Proof.Machine.execPowerGoodTimeout die s
  | .firmwareCheckDone => Sys2Proof.Machine.execFirmwareCheckDone s
  | .powerWarn => Sys2Proof.Machine.execPowerWarn s
  | .thermalWarn die => Sys2Proof.Machine.execThermalWarn die s
  | .powerTrip => Sys2Proof.Machine.execPowerTrip s
  | .thermalTrip die => Sys2Proof.Machine.execThermalTrip die s
  | .flitReceive port flit => Sys2Proof.Machine.execFlitReceive port flit s
  | .flitRetryLimit port n m => Sys2Proof.Machine.execFlitRetryLimit port n m s
  | .retryWindowBoundary port n m => Sys2Proof.Machine.execRetryWindowBoundary port n m s
  | .linkServiceStart port n r => Sys2Proof.Machine.execLinkServiceStart port n r s
  | .linkDrainDone port n m => Sys2Proof.Machine.execLinkDrainDone port n m s
  | .linkDrainTimeout port n m => Sys2Proof.Machine.execLinkDrainTimeout port n m s
  | .linkRemapDone port n m => Sys2Proof.Machine.execLinkRemapDone port n m s
  | .linkRetrainDone port n m => Sys2Proof.Machine.execLinkRetrainDone port n m s
  | .configRecord port n m record => Sys2Proof.Machine.execConfigRecord port n m record s
  | .configRecordTimeout port n m => Sys2Proof.Machine.execConfigRecordTimeout port n m s
  | .flowRepin flow d => Sys2Proof.Machine.execFlowRepin flow d s
  | .ldreq p => Sys2Proof.Machine.execLdreq p s
  | .ldrsp p => Sys2Proof.Machine.execLdrsp p s
  | .streq p => Sys2Proof.Machine.execStreq p s
  | .stcmp p => Sys2Proof.Machine.execStcmp p s
  | .amoreq p => Sys2Proof.Machine.execAmoreq p s
  | .amorsp p => Sys2Proof.Machine.execAmorsp p s
  | .scareq p => Sys2Proof.Machine.execScareq p s
  | .scacmp p => Sys2Proof.Machine.execScacmp p s
  | .pdelta p => Sys2Proof.Machine.execPdelta p s
  | .pdack p => Sys2Proof.Machine.execPdack p s
  | .reduce p => Sys2Proof.Machine.execReduce p s
  | .redres p => Sys2Proof.Machine.execRedres p s
  | .reduceHoldTimeout qi => Sys2Proof.Machine.execReduceHoldTimeout qi s
  | .reductionTimeout job rid => Sys2Proof.Machine.execReductionTimeout job rid s
  | .cpyrd p => Sys2Proof.Machine.execCpyrd p s
  | .cpydat p => Sys2Proof.Machine.execCpydat p s
  | .cpywr p => Sys2Proof.Machine.execCpywr p s
  | .cpycmp p => Sys2Proof.Machine.execCpycmp p s
  | .tlrec p => Sys2Proof.Machine.execTlrec p s
  | .tlack p => Sys2Proof.Machine.execTlack p s
  | .gangctlArm p => Sys2Proof.Machine.execGangctlArm p s
  | .gangctlAcknowledge p => Sys2Proof.Machine.execGangctlAcknowledge p s
  | .gangctlCancel p => Sys2Proof.Machine.execGangctlCancel p s
  | .gangctlGo p => Sys2Proof.Machine.execGangctlGo p s
  | .gangctlStraggler p => Sys2Proof.Machine.execGangctlStraggler p s
  | .spdmmsg p => Sys2Proof.Machine.execSpdmmsg p s
  | .spdmReassemblyTimeout src mseq => Sys2Proof.Machine.execSpdmReassemblyTimeout src mseq s
  | .requestTimeout tag => Sys2Proof.Machine.execRequestTimeout tag s
  | .tagRelease tag => Sys2Proof.Machine.execTagRelease tag s
  | .quarantineExpiry job => Sys2Proof.Machine.execQuarantineExpiry job s
  | .ptpSync die offset ptp syncs => Sys2Proof.Machine.execPtpSync die offset ptp syncs s
  | .ptpAnnounce die x => Sys2Proof.Machine.execPtpAnnounce die x s
  | .ptpPdelay p t => Sys2Proof.Machine.execPtpPdelay p t s
  | .syncLossTimeout die => Sys2Proof.Machine.execSyncLossTimeout die s
  | .holdoverToUncertain die => Sys2Proof.Machine.execHoldoverToUncertain die s
  | .modeDecision gangid t => Sys2Proof.Machine.execModeDecision gangid t s
  | .armAckDeadline gangid t => Sys2Proof.Machine.execArmAckDeadline gangid t s
  | .cancelResend gangid t => Sys2Proof.Machine.execCancelResend gangid t s
  | .gangPreparationDone gangid t => Sys2Proof.Machine.execGangPreparationDone gangid t s
  | .switchInstant gangid t => Sys2Proof.Machine.execSwitchInstant gangid t s
  | .gangReoffer gangid t => Sys2Proof.Machine.execGangReoffer gangid t s
  | .stragglerLimit gangid t => Sys2Proof.Machine.execStragglerLimit gangid t s
  | .watchdogExpiry gangid t => Sys2Proof.Machine.execWatchdogExpiry gangid t s
  | .saveImageWrite gangid t => Sys2Proof.Machine.execSaveImageWrite gangid t s
  | .bankmodeWrite die bank v => Sys2Proof.Machine.execBankmodeWrite die bank v s
  | .bankModeChangeDone die bank => Sys2Proof.Machine.execBankModeChangeDone die bank s
  | .lineRemap die bank line => Sys2Proof.Machine.execLineRemap die bank line s
  | .rebuildGo group v => Sys2Proof.Machine.execRebuildGo group v s
  | .rebuildUnitDone group stripe slot newep => Sys2Proof.Machine.execRebuildUnitDone group stripe slot newep s
  | .pcieLinkUp => Sys2Proof.Machine.execPcieLinkUp s
  | .reservedEncoding h w => Sys2Proof.Machine.execReservedEncoding h w s
  | .pfFetch h va => Sys2Proof.Machine.execPfFetch h va s
  | .badopc => Sys2Proof.Machine.execBadopc s
  | .jobkeyExpiry job => Sys2Proof.Machine.execJobkeyExpiry job s
  | .verifyHashDone h => Sys2Proof.Machine.execVerifyHashDone h s

end Sys2Proof.Machine
end

