-- ==== Sys2Proof/Machine/Step.lean ====
section
/-! DEFINITION. One step of the machine: an event that arrives, or the next instruction of the core. -/

namespace Sys2Proof.Machine

open Sys2Proof (Instr)

/-- A word that is not an instruction: ILL at issue, or the context is killed at E (R379, R436). -/
def State.reserved (s : State) (w : IWord) : State := s.ill w

/-- The next instruction of the core: what the device does on its own, then the fetch, the decoder and the meaning. -/
noncomputable def State.coreStep (s : State) : Host.Outcome State Fault Refusal :=
  match s.nextWord with
  | .error t => .next t
  | .ok (w, t) =>
    match decodeWord w with
    | .ok i => exec i t
    | .error _ => .next (t.reserved w)

/-- A packet that the device has sent to itself where it lands now (R294, assumption 2), else the next instruction. -/
noncomputable def State.ownStep (s : State) : Host.Outcome State Fault Refusal :=
  match s.fab.turned with
  | [] => s.coreStep
  | _ :: _ =>
    if Config.landsNow s.free then .next (State.turnBack { s with free := s.free + 1 })
    else State.coreStep { s with free := s.free + 1 }

/-- One step: the oldest arrival where it lands now (assumption 2), else a packet of the device's own or the next instruction. -/
noncomputable def step (s : State) : Host.Outcome State Fault Refusal :=
  match s.arrivals with
  | [] => s.ownStep
  | e :: rest =>
    if Config.landsNow s.free then exec e { s with arrivals := rest, free := s.free + 1 }
    else State.ownStep { s with free := s.free + 1 }

/-- The machine with one instruction placed where its next step fetches (assumption 7). -/
def State.withFetchWord (s : State) (nbits w : Nat) : State := s.placeWord (w % 2 ^ nbits)

end Sys2Proof.Machine
end

