-- ==== Sys2Proof/Safety.lean ====
section
/-! DEFINITION. What a safe run is: no step ends in a fault or a refusal. And the terms in which the statements speak of an instruction
that meets nothing in its way. -/

namespace Sys2Proof.Machine

/-! ### Runs -/

/-- The state after a number of steps, while every one answers a next state. -/
inductive Reaches : State → Nat → State → Prop where
  | zero (s : State) : Reaches s 0 s
  | succ {s t u : State} {n : Nat} (h : step s = .next t) (r : Reaches t n u) : Reaches s (n + 1) u

/-- No step of the next `n` ends in a fault or a refusal. -/
def SafeFor (s : State) (n : Nat) : Prop := ∀ k t, k < n → Reaches s k t → ∃ u, step t = .next u

/-! ### Scalar instructions -/

/-- Nothing stands in the way of a scalar instruction that reads some registers: no prefix before it (R406), and none of the
registers waits for an engine (R204). -/
def Clear (s : State) (rs : List XNum) : Prop := s.h.pfxNext = false ∧ s.h.anyPending rs = false

/-- The same of an instruction of majors 0x30 and 0x32, which is not at E (R585). -/
def ClearSync (s : State) (rs : List XNum) : Prop := Clear s rs ∧ s.h.level ≠ .e

/-! ### Posted instructions -/

/-- The entry of an instruction as it begins (R222), and the state it begins in. -/
def State.begun (s : State) (p : Posted) : State × QEntry :=
  let s1 := s.mod fun h => h.post p
  let b := s1.h.beginEntry (s.h.newEntry p)
  ((s1.mod fun _ => b.1).served s.cur p.eng, b.2)

/-- What the run of a posted instruction comes to when it begins at once: its strips come in (R491), then its body runs. -/
def State.runPosted (s : State) (p : Posted) : Ran × Option Word :=
  let b := s.begun p
  match (if b.2.strips.isEmpty then Ran.done b.1 b.2 else fetchStrips s.cur b.1 b.2) with
  | .done s2 e2 => bodyRun s.cur e2.total e2 s2
  | o => (o, none)

/-- Nothing stands in the way of a post: no check at issue fails (R436), no scalar operand is pending (R204), the queue has room,
and a hart that needs a lane group holds one (R163). -/
def Postable (s : State) (p : Posted) : Prop :=
  s.postBad p = false ∧ s.h.anyPending (p.opa.toList ++ p.opb.toList) = false ∧ s.h.queueRoom p.eng = true ∧
  (p.needsLane = true → vtGroups s.h.vtype ≠ 0#4) ∧
  (∀ op mrow mcol fmt bs, p.body = .mat op mrow mcol fmt bs → s.matCheck s.cur op mcol fmt bs p = none)

/-- An instruction that begins at once when it is posted: it may be posted at a hart whose queues are empty, under the eager schedule
(assumption 1), it pops no stream, its tokens are there (R222), it is its hart's turn (R167),
and no release of rows is to come (R242). -/
def Runs (s : State) (p : Posted) : Prop :=
  Postable s p ∧ s.eager = true ∧ s.h.queue = [] ∧ (s.h.newEntry p).strips = [] ∧
  (s.mod fun h => h.post p).mayRun s.cur (s.h.newEntry p) = true ∧ s.h.releases = []

/-- An instruction posted at an idle hart under the eager schedule (assumption 1) whose run meets no trap and nothing to wait for: `t` is
the state that it retires in. -/
def RunsTo (s : State) (p : Posted) (t : State) : Prop :=
  Postable s p ∧ s.eager = true ∧ s.h.queue = [] ∧ (s.mod fun h => h.post p).mayRun s.cur (s.h.newEntry p) = true ∧
  ∃ u e x, s.runPosted p = (.done u e, x) ∧ t = u.entryDone s.cur e x ∧ t.harts[s.cur].queue = []

end Sys2Proof.Machine
end

