-- ==== Sys2Proof/Certificates/Slice0/Obligations.lean ====
section
/-! DEFINITION. The statements for the provers: one `Obligations.<Name> : Prop` each, and the terms they share. -/

namespace Sys2Proof.Claims
open Sys2Proof Sys2Proof.Machine

/-- A scalar instruction that reads `rs`, with nothing in its way, writes `v` to register `d` and retires; its next state is named. -/
def Writes (i : Instr) (rs : List XNum) (d : XNum) (v : State → Word) : Prop :=
  ∀ s, Clear s rs → exec i s = .next (s.setX d (v s)).retire

/-- The most negative 64-bit value. -/
def minWord : Word := 0x8000000000000000#64
/-- The greatest 64-bit signed value. -/
def maxWord : Word := 0x7FFFFFFFFFFFFFFF#64

/-- R264 for `div`. -/
def divSigned (a b : Word) : Word :=
  if b = 0#64 then (if a.slt 0#64 then minWord else maxWord)
  else if a = minWord ∧ b = BitVec.allOnes 64 then maxWord else a.sdiv b
/-- R264 for `divu`. -/
def divUnsigned (a b : Word) : Word := if b = 0#64 then BitVec.allOnes 64 else a / b
/-- R264 for `rem`. -/
def remSigned (a b : Word) : Word := if b = 0#64 then 0#64 else if a = minWord ∧ b = BitVec.allOnes 64 then 0#64 else a.srem b
/-- R264 for `remu`. -/
def remUnsigned (a b : Word) : Word := if b = 0#64 then 0#64 else a % b
/-- The signed value of a word. -/
def signed (a : Word) : Int := a.toInt
/-- A condition as 0 or 1. -/
def asWord (c : Bool) : Word := if c then 1#64 else 0#64

/-- What a step of the issuing hart that only writes register `d` and goes on leaves: every other part of the machine and every other hart; and of the
hart everything but register `d`, the program counter, the loop counts and the issue state. -/
def OnlyReg (d : XNum) (s t : State) : Prop :=
  { t with harts := s.harts } = s ∧ (∀ j : Fin 4, j ≠ s.cur → t.harts[j] = s.harts[j]) ∧
  { t.h with x := s.h.x, pc := s.h.pc, lc0 := s.h.lc0, lc1 := s.h.lc1, status := s.h.status, laneServed := s.h.laneServed,
             matrixServed := s.h.matrixServed } = s.h ∧
  (∀ n : XNum, n ≠ d → xGet t.h.x n = xGet s.h.x n)

/-- The loop-end step of R462 from `s` to `t`, behind the instruction at the program counter. -/
def LoopEnd (s t : Hart) : Prop :=
  if s.lc1 ≠ 0#64 ∧ s.pc = s.le1 then
    t.lc1 = s.lc1 - 1#64 ∧
    (if s.lc1 - 1#64 ≠ 0#64 then t.pc = s.ls1 ∧ t.lc0 = s.lc0
     else if s.lc0 ≠ 0#64 ∧ s.pc = s.le0 then
       t.lc0 = s.lc0 - 1#64 ∧ t.pc = (if s.lc0 - 1#64 ≠ 0#64 then s.ls0 else s.pc + 4#64)
     else t.lc0 = s.lc0 ∧ t.pc = s.pc + 4#64)
   else t.lc1 = s.lc1 ∧
    (if s.lc0 ≠ 0#64 ∧ s.pc = s.le0 then
       t.lc0 = s.lc0 - 1#64 ∧ t.pc = (if s.lc0 - 1#64 ≠ 0#64 then s.ls0 else s.pc + 4#64)
     else t.lc0 = s.lc0 ∧ t.pc = s.pc + 4#64)

/-- A rounding field that names a mode now: an encoded one, or 7 with FCSR.RM naming one (R273). -/
def Mode (s : State) (r : BitVec 3) (m : RMode) : Prop := rmode r s.h.rm = some m

/-- A scalar floating-point instruction writes a pattern, zero-extended, and raises flags. -/
def FpWrites (i : Instr) (rs : List XNum) (d : XNum) (f : State → Nat × Flags) (s : State) : Prop :=
  Clear s rs → exec i s = .next (((s.setX d (BitVec.ofNat 64 (f s).1)).mod fun h => h.raise (f s).2).retire)

/-- The low bits of a register that a format reads (R230). -/
def low (s : State) (n : XNum) (t : BitVec 2) : Nat := (s.x n).toNat % 2 ^ fmtBits (fmtOf t)

/-! ### Posted vector instructions -/

/-- Position (k, x) is executed by an instruction that runs element by element: it is at or above VSTART and active (R408, R419). -/
def executes (s : State) (p : Posted) (k x : Nat) : Bool :=
  decide ((s.h.newEntry p).prog ≤ k * s.h.vl + x) && (s.h.newEntry p).cap.active s.h k x

/-- Element (k, x) is active under the governing mask or the lent predicate (R408). -/
def activeAt (s : State) (p : Posted) (k x : Nat) : Bool := (s.h.newEntry p).cap.active s.h k x

/-- Bits of the captured element type. -/
def width (s : State) : Nat := etBits (vtEt s.h.vtype)

/-- A vector register read at the captured type and lane map (R243). -/
def source (s : State) (n : VNum) : VReg := (s.h.vreg n).relaid (vtEt s.h.vtype) (vtGroups s.h.vtype)

/-- Element (k, x) of a source. -/
def srcElem (s : State) (n : VNum) (k x : Nat) : Nat := (source s n).elem (width s) k x

/-- Operand a of an instruction at (k, x). -/
def opdA (s : State) (p : Posted) (k x : Nat) : Nat := srcElem s p.a k x
/-- Operand b of an instruction at (k, x): an element of vb, replicated (R414), or the scalar (R507). -/
def opdB (s : State) (p : Posted) (k x : Nat) : Nat :=
  if p.useX then (match p.opb with | some n => (s.x n).toNat | none => 0) % 2 ^ width s else srcElem s p.b k (repIndex p.rp x)
/-- The old element d at (k, x). -/
def opdD (s : State) (p : Posted) (k x : Nat) : Nat := srcElem s p.d k x

/-- The OR of the flags of the positions that a condition selects, over the whole shape (R274). -/
def flagsOf (s : State) (c : Nat → Nat → Bool) (f : Nat → Nat → Flags) : Flags :=
  (List.range (s.h.vl * s.h.vrows)).foldl
    (fun fl t => fl ||| (if c (t / s.h.vl) (t % s.h.vl) then f (t / s.h.vl) (t % s.h.vl) else 0#5)) 0#5

/-- The sources of an instruction as it leaves them: a register of another type or lane map is relaid (R243). -/
def readSources (s : State) (p : Posted) (n : VNum) : VReg := if n ∈ p.vsrc then source s n else s.h.vreg n

/-- What a posted instruction that reaches no memory may change beside its destinations, which `back` puts back: the program counter and the
loop counts, the queue's count, tokens, VSTART, the prefix, the issue state, FCSR, vector registers and their progress indices. Every other
register of the hart stands, and so do memory, the tiles and the other harts, but for lane groups that they are granted. -/
def PostedFrame (s t : State) (back : Hart → Hart) : Prop :=
  { back t.h with v := s.h.v, vpi := s.h.vpi, fcsr := s.h.fcsr, pc := s.h.pc, lc0 := s.h.lc0, lc1 := s.h.lc1, nextEid := s.h.nextEid,
                  vstart := s.h.vstart, pfxValid := s.h.pfxValid, pfxNext := s.h.pfxNext, status := s.h.status,
                  laneServed := s.h.laneServed, matrixServed := s.h.matrixServed, tok := s.h.tok } = s.h ∧
  t.mem = s.mem ∧ t.core.tiles = s.core.tiles ∧ t.h.vstart = 0#32 ∧ t.h.pfxNext = false ∧
  ∀ j : Fin 4, j ≠ s.cur → { t.harts[j] with laneServed := s.harts[j].laneServed, vtype := s.harts[j].vtype } = s.harts[j]

/-- Whether a write is unmasked and starts at VSTART 0, so that it is not relaid before a write that covers its elements and rows (R237). -/
def wholeWrite (s : State) (p : Posted) : Bool := (s.h.newEntry p).cap.unmasked && (s.h.newEntry p).first == 0

/-- What element (k, x) of a destination shows where it is not written: the element relaid, or, of a register that the write covers, the bits that stand there (R237, R243). -/
def keptElem (s : State) (old : VReg) (et : ETCode) (whole : Bool) (k x : Nat) : Nat :=
  if whole = true ∧ old.len ≤ s.h.vl ∧ old.nrows ≤ s.h.vrows then
    if old.valid = true ∧ k < old.nrows then rowGet (rowKeep (old.row k) (old.len * etBits old.et)) (etBits et) x else 0
  else (old.relaid et (vtGroups s.h.vtype)).elem (etBits et) k x

/-- Register `n` after a write (R237, R243): of type `et` and the captured lane map, element (k, x) of the captured shape is the value that `f` gives, or the one
that `old` shows there at that layout where it gives none. -/
def RegWritten (s t : State) (n : VNum) (et : ETCode) (old : VReg) (whole : Bool) (f : Nat → Nat → Option Nat) : Prop :=
  (t.h.vreg n).valid = true ∧ (t.h.vreg n).et = et ∧ (t.h.vreg n).lmap = vtGroups s.h.vtype ∧
  ∀ k x, k < 16 → (x + 1) * etBits et ≤ 8192 → k < s.h.vrows → x < s.h.vl →
    (t.h.vreg n).elem (etBits et) k x = match f k x with | some v => v % 2 ^ etBits et | none => keptElem s old et whole k x

/-- The vector registers after `p`: each destination takes what `f` gives, every other register is as reading the sources leaves it (`rd`). -/
def VecResult (s t : State) (p : Posted) (et : ETCode) (rd : VNum → VReg) (f : Nat → Nat → Option Nat) : Prop :=
  (∀ n, n = p.d ∨ (s.h.newEntry p).copy = some n → RegWritten s t n et (rd n) (wholeWrite s p) f) ∧
  (∀ n, n ≠ p.d → (s.h.newEntry p).copy ≠ some n → t.h.vreg n = rd n)

/-- The instruction `i`, which posts `p`, completes in its step. Each destination has type `et` and the captured lane map; element (k, x) of
the captured shape is the value that `f` gives, or the old value where it gives none; every other vector register is as reading the sources
leaves it (`rd`); and FCSR takes the flags. -/
def VecWritesAt (s : State) (i : Instr) (p : Posted) (et : ETCode) (rd : VNum → VReg) (f : Nat → Nat → Option Nat) (fl : Flags) : Prop :=
  Runs s p → s.h.vl * s.h.vrows ≠ 0 → ∃ t, exec i s = .next t ∧ PostedFrame s t id ∧ t.h.fcsr = s.h.fcsr ||| (fl ++ 0#4) ∧ VecResult s t p et rd f

/-- The same for an instruction whose destination has the captured type. -/
def VecWrites (s : State) (i : Instr) (p : Posted) (f : Nat → Nat → Option Nat) (fl : Flags) : Prop :=
  VecWritesAt s i p (vtEt s.h.vtype) (readSources s p) f fl

/-- An elementwise integer instruction: the new element from operands a and b, the old element, and the index. -/
def IntWrites (s : State) (i : Instr) (p : Posted) (f : Nat → Nat → Nat → Nat → Nat) : Prop :=
  VecWrites s i p (fun k x => if executes s p k x then some (f (opdA s p k x) (opdB s p k x) (opdD s p k x) x) else none) 0#5

/-- The number of set bits below bit `w`. -/
def onesIn (w n : Nat) : Nat := (List.range w).countP fun j => n.testBit j

/-- R264 for signed division of patterns. -/
def quotS (w a b : Nat) : Int :=
  if sval w b = 0 then (if sval w a < 0 then -(2 ^ (w - 1)) else 2 ^ (w - 1) - 1)
  else if sval w a = -(2 ^ (w - 1)) ∧ sval w b = -1 then 2 ^ (w - 1) - 1 else Int.tdiv (sval w a) (sval w b)
/-- R264 for the signed remainder of patterns. -/
def remS' (w a b : Nat) : Int :=
  if sval w b = 0 then 0 else if sval w a = -(2 ^ (w - 1)) ∧ sval w b = -1 then 0 else Int.tmod (sval w a) (sval w b)

/-- The field that the control of `vext` and `vins` names (R514). -/
def fieldPos (w c : Nat) : Nat := c % w
/-- Its length. -/
def fieldLen (w c : Nat) : Nat := min (c / w) (w - c % w)

/-- An elementwise floating-point instruction: the new element and its flags from operands a and b and the old element. -/
def FpElems (s : State) (i : Instr) (p : Posted) (g : Nat → Nat → Nat → Nat × Flags) : Prop :=
  VecWrites s i p (fun k x => if executes s p k x then some (g (opdA s p k x) (opdB s p k x) (opdD s p k x)).1 else none)
    (flagsOf s (executes s p) fun k x => (g (opdA s p k x) (opdB s p k x) (opdD s p k x)).2)

/-- R283: what vfsat makes of a pattern. -/
def saturated (f : Fmt) (a : Nat) : Nat :=
  if (fpDecode f a).isNaN then canonNaN f
  else if fpDecode f a = .inf false then fmtMax f
  else if fpDecode f a = .inf true then 2 ^ (fmtBits f - 1) + fmtMax f
  else a

/-- The type that a conversion gives: the tag of vd, or the captured type when vd is not VALID (R520). -/
def convTarget (s : State) (p : Posted) : ETCode := if (s.h.vreg p.d).valid then (s.h.vreg p.d).et else vtEt s.h.vtype

/-- A conversion under a mode: executed elements below the VLMAX of the target are converted (R520, R521). -/
def Converts (s : State) (i : Instr) (p : Posted) (m : RMode) : Prop :=
  let dt := convTarget s p
  let ok (k x : Nat) : Bool := executes s p k x && decide (x < vlmaxOf (groupCount (vtGroups s.h.vtype)) dt)
  let r (k x : Nat) : Nat × Flags := convertPat (vtEt s.h.vtype) dt m s.h.sat (opdA s p k x)
  VecWritesAt s i p dt (readSources s p) (fun k x => if ok k x then some (r k x).1 else none) (flagsOf s ok fun k x => (r k x).2)

/-- The instruction `i`, which posts `p`, completes in its step and writes mask `d`: bit (k, x) of the captured shape is what `f` gives, or the
old bit where it gives none; every other bit and every other mask stands; FCSR takes the flags, and GATEF the gate. -/
def MaskWrites (s : State) (i : Instr) (p : Posted) (d : MNum) (f : Nat → Nat → Option Bool) (fl : Flags) (gate : Prop) : Prop :=
  Runs s p → s.h.vl * s.h.vrows ≠ 0 → ∃ t, exec i s = .next t ∧ PostedFrame s t (fun h => { h with m := s.h.m, gatef := s.h.gatef }) ∧
    t.h.fcsr = s.h.fcsr ||| (fl ++ 0#4) ∧ (t.h.gatef = true ↔ s.h.gatef = true ∨ gate) ∧
    (∀ k x, k < 16 → x < 2048 →
      (t.h.mask d).bit k x = (if k < s.h.vrows ∧ x < s.h.vl then (f k x).getD ((s.h.mask d).bit k x) else (s.h.mask d).bit k x)) ∧
    (∀ n, n ≠ d → t.h.mask n = s.h.mask n) ∧ ∀ n, t.h.vreg n = readSources s p n

/-- A mask instruction, which ignores VSTART and writes its active bits (R527, R533). -/
def MaskBits (s : State) (i : Instr) (p : Posted) (d : MNum) (f : Nat → Nat → Bool) : Prop :=
  MaskWrites s i p d (fun k x => if activeAt s p k x then some (f k x) else none) 0#5 False

/-- The tile index of position (k, x) is the least whose element is active and whose bit of `a` is set, or the number of tile indices. -/
def firstHit (s : State) (p : Posted) (a : MNum) (n : Nat) : Prop :=
  let hit (t : Nat) : Prop := activeAt s p (t / s.h.vl) (t % s.h.vl) = true ∧ (s.h.mask a).bit (t / s.h.vl) (t % s.h.vl) = true
  n ≤ s.h.vl * s.h.vrows ∧ (∀ t < n, ¬ hit t) ∧ (n < s.h.vl * s.h.vrows → hit n)

/-- A permute that writes active elements of the rows from VSTART's on (R527, R534). -/
def Permutes (s : State) (i : Instr) (p : Posted) (f : Nat → Nat → Nat) : Prop :=
  VecWrites s i p (fun k x => if (s.h.newEntry p).prog / s.h.vl ≤ k ∧ activeAt s p k x = true then some (f k x) else none) 0#5

/-- Element x of row k of a source, 0 at or above VL (R534). -/
def rowElem (s : State) (n : VNum) (k x : Nat) : Nat := if x < s.h.vl then srcElem s n k x else 0

/-- The number of active elements of row k below x. -/
def activesBelow (s : State) (p : Posted) (k x : Nat) : Nat := (List.range x).countP fun j => activeAt s p k j

/-- The active elements of row k of a source, in index order, after the initial value of a reduction, which v0 stands for none of (R537). -/
def redInput (s : State) (p : Posted) (k : Nat) : List Nat :=
  (if p.b = 0#5 then [] else [srcElem s p.b k 0]) ++
  (((List.range s.h.vl).filter fun x => activeAt s p k x).map fun x => srcElem s p.a k x)

/-- A reduction without segments writes element 0 of each row from VSTART's on (R537). -/
def Reduces (s : State) (i : Instr) (p : Posted) (f : List Nat → Nat) : Prop :=
  s.h.vseg.getLsbD 3 = false →
    VecWrites s i p (fun k x => if (s.h.newEntry p).prog / s.h.vl ≤ k ∧ x = 0 then some (f (redInput s p k)) else none) 0#5

/-- The combination of a list in index order by a rounding operation, with the OR of its flags (R288, R539). -/
def orderedSum (f : Fmt) (m : RMode) : List Nat → Nat × Flags
  | [] => (0, 0#5)
  | x :: xs => xs.foldl (fun acc y => ((fpAdd f m acc.1 y).1, acc.2 ||| (fpAdd f m acc.1 y).2)) (x, 0#5)

/-! ### Plain storage -/

/-- A byte of the storage. -/
def byteAt (s : State) (k : Nat) : Byte := cellGet s.mem.cells k

/-- A half byte of the storage, by twice its key and whether it is the high one. -/
def nibAt (s : State) (q : Nat) : Nat := (byteAt s (q / 2)).toNat / 16 ^ (q % 2) % 16

/-- No word that bytes touch is uncorrectable in its storage or in a way (R316, R317). -/
def Sound (s : State) (k n : Nat) : Prop := ∀ w ∈ wordsOf k n, w ∉ s.mem.eccBad ∧ ∀ l ∈ s.mem.ways, w ∉ l.bad

/-- Memory is canonical and holds no unit sealed and no addition pending, and no store or request is on its way. -/
def Quiet (s : State) : Prop :=
  s.mem.wf = true ∧ s.mem.sca = [] ∧ s.mem.sealed = [] ∧ s.h.stbuf = [] ∧ s.h.late = [] ∧ s.fab.outstanding = [] ∧ s.fab.waiting = []

/-- The bytes at a VA lie in plain storage at key `k` and may be accessed so at a level: they lie in a scratchpad bank that is open, or in a page of HBM that is neither
protected nor encrypted, that the tables and every TLB entry translate alike, through table entries that hold no uncorrectable word and none of the bytes `D`
(R293 to R303). -/
def PlainAt (s : State) (lvl : Level) (D : Nat → Prop) (va n : Nat) (kind : AccKind) (path : AccPath) (k : Nat) : Prop :=
  0 < n ∧ va % 4096 + n ≤ 4096 ∧
  ((spadBase ≤ va ∧ va < spadBase + 2 ^ 25 ∧ kind ≠ .fetch ∧ k = spadKey s.die (va - spadBase) ∧
      ∃ b, s.bank s.die ((va - spadBase) / 2 ^ 18) = some b ∧ b.busy = false ∧ b.cur = .spad) ∨
   (va < 2 ^ 48 ∧ ∃ c e, s.ctx s.h.ctxid.toNat = some c ∧ e.va ≤ va ∧ va < e.va + e.size ∧ e.enc = false ∧ e.p = false ∧
      s.pageAllows e lvl kind path va n = true ∧ k = e.pa + (va - e.va) ∧ k + n ≤ hbmEnd ∧
      ∀ v, e.va ≤ v → v < e.va + e.size → s.walk s.h.ctxid.toNat v = .page e ∧ (∀ x ∈ s.tlbHits c.asid v, x = e) ∧
        ∀ q ∈ (s.walkAll s.h.ctxid.toNat v).2, Sound s q 8 ∧ ∀ a, q ≤ a → a < q + 8 → ¬ D a))

/-- No byte. -/
def noByte (_ : Nat) : Prop := False

/-- What a posted instruction that accesses plain storage may change of the harts beside its destinations, which `back` puts back: what `PostedFrame` names, and
reservations, which a store may lose (R341). -/
def MemFrame (s t : State) (back : Hart → Hart) : Prop :=
  { back t.h with v := s.h.v, vpi := s.h.vpi, fcsr := s.h.fcsr, pc := s.h.pc, lc0 := s.h.lc0, lc1 := s.h.lc1, nextEid := s.h.nextEid,
                  vstart := s.h.vstart, pfxValid := s.h.pfxValid, pfxNext := s.h.pfxNext, status := s.h.status,
                  laneServed := s.h.laneServed, matrixServed := s.h.matrixServed, tok := s.h.tok, resv := s.h.resv } = s.h ∧
  t.core.tiles = s.core.tiles ∧ t.h.vstart = 0#32 ∧ t.h.pfxNext = false ∧ t.h.fcsr = s.h.fcsr ∧
  ∀ j : Fin 4, j ≠ s.cur →
    { t.harts[j] with laneServed := s.harts[j].laneServed, vtype := s.harts[j].vtype, resv := s.harts[j].resv } = s.harts[j]

/-! ### Vector accesses to plain storage -/

/-- Tile index `j` is executed (R408, R419). -/
def runsAt (s : State) (p : Posted) (j : Nat) : Bool := decide (j < s.h.vl * s.h.vrows) && executes s p (j / s.h.vl) (j % s.h.vl)

/-- The executed tile indices below a bound, in their order. -/
def runsBelow (s : State) (p : Posted) (n : Nat) : List Nat := (List.range n).filter (runsAt s p)

/-- The index register of an indexed access as it is read (R481). -/
def indexReg (s : State) (n : VNum) : VReg := (s.h.vreg n).relaid (idxType (vtEt s.h.vtype)) (vtGroups s.h.vtype)

/-- The vector registers once an index register has been read (R243, R481). -/
def afterIndex (s : State) (p : Posted) (mode : VMode) (n : VNum) : VReg := if mode.isIndexed = true ∧ n = p.b then indexReg s n else s.h.vreg n

/-- The same once the data register has been read too. -/
def afterData (s : State) (p : Posted) (mode : VMode) (n : VNum) : VReg :=
  if n = p.d then (afterIndex s p mode n).relaid (vtEt s.h.vtype) (vtGroups s.h.vtype) else afterIndex s p mode n

/-- The VA of element `j` (R481). -/
def elemVa (s : State) (p : Posted) (mode : VMode) (w j : Nat) : Nat := elemAddr mode (s.h.newEntry p) (indexReg s p.b) w j

/-- Element `j` of the data register. -/
def dataElem (s : State) (p : Posted) (mode : VMode) (j : Nat) : Nat := (afterData s p mode p.d).elem (width s) (j / s.h.vl) (j % s.h.vl)

/-- A load whose executed elements lie in plain storage, element `j` at `key j`, completes: each takes the value at its bytes, of a 4-bit type its half byte, extended by its sign
for the .s form, and no byte changes. -/
def LoadsElems (s : State) (i : Instr) (p : Posted) (mode : VMode) (mw : BitVec 2) (sx : BitVec 1) : Prop :=
  let w := memBits (vtEt s.h.vtype) mw
  let n := (w + 7) / 8
  ∀ key : Nat → Nat, Runs s p → Quiet s → s.h.vl * s.h.vrows ≠ 0 →
    (∀ j, runsAt s p j = true → PlainAt s s.h.level noByte (elemVa s p mode w j) n .load .vector (key j) ∧ Sound s (key j) n) →
    let value (j : Nat) : Nat :=
      let v := leNat (s.mem.peek (key j) n) / (if w = 4 ∧ j % 2 = 1 then 16 else 1) % 2 ^ w
      if sx = 1#1 ∧ w < width s then wrap (width s) (sval w v) else v
    ∃ t, exec i s = .next t ∧ MemFrame s t id ∧ (∀ a, byteAt t a = byteAt s a) ∧
      VecResult s t p (vtEt s.h.vtype) (afterIndex s p mode)
        fun k x => if executes s p k x then some (value (k * s.h.vl + x)) else none

/-- A store whose executed elements lie in plain storage, element `j` at `key j`, completes: every half byte that executed elements name holds what one of them stores there, under an ordered
form the last; NCNT and the word at VNOTA follow under the .n form (R485), that word at `kn`; every other byte stands. -/
def StoresElems (s : State) (i : Instr) (p : Posted) (mode : VMode) (mw : BitVec 2) (nf : BitVec 1) : Prop :=
  let w := memBits (vtEt s.h.vtype) mw
  let n := (w + 7) / 8
  let count : Word := s.h.ncnt + BitVec.ofNat 64 (s.h.vl * s.h.vrows)
  ∀ (key : Nat → Nat) (kn : Nat),
    let word : Prop := nf = 1#1 ∧ s.h.vnota ≠ 0#64
    let first (j : Nat) : Nat := 2 * key j + (if w = 4 then j % 2 else 0)
    let names (j q : Nat) : Prop := runsAt s p j = true ∧ first j ≤ q ∧ q < first j + w / 4
    let note (q : Nat) : Prop := word ∧ 2 * kn ≤ q ∧ q < 2 * kn + 16
    let D (a : Nat) : Prop := (∃ j, runsAt s p j = true ∧ key j ≤ a ∧ a < key j + n) ∨ (word ∧ kn ≤ a ∧ a < kn + 8)
    Runs s p → Quiet s → s.h.vl * s.h.vrows ≠ 0 →
    (∀ j, runsAt s p j = true → PlainAt s s.h.level D (elemVa s p mode w j) n .store .vector (key j) ∧
      (w = 4 → PlainAt s s.h.level D (elemVa s p mode w j) n .load .vector (key j) ∧ Sound s (key j) n)) →
    (word → PlainAt s s.h.level D s.h.vnota.toNat 8 .store .aux kn) →
    ∃ t, exec i s = .next t ∧ MemFrame s t (fun h => { h with ncnt := s.h.ncnt }) ∧ t.h.ncnt = (if nf = 1#1 then count else s.h.ncnt) ∧
      (∀ m, t.h.vreg m = afterData s p mode m) ∧
      ∀ q, (note q → nibAt t q = count.toNat / 16 ^ (q - 2 * kn) % 16) ∧
        (¬ note q → (∃ j, names j q) → ∃ j, names j q ∧ (mode = .ordered → ∀ l, names l q → l ≤ j) ∧
          nibAt t q = dataElem s p mode j % 2 ^ w / 16 ^ (q - first j) % 16) ∧
        (¬ note q → (∀ j, ¬ names j q) → nibAt t q = nibAt s q)

/-- A mask load or store: bit (k, x) at or above VSTART lies in byte x div 8 of row k, 256 bytes apart (R488); byte (k, x) is accessed when such a bit lies in it. -/
def maskByte (s : State) (p : Posted) (k y : Nat) : Prop :=
  k < s.h.vrows ∧ 8 * y < s.h.vl ∧ (s.h.newEntry p).prog < k * s.h.vl + min s.h.vl (8 * y + 8)

/-- The VA of byte (k, y) of a mask in memory (R488). -/
def maskVa (s : State) (p : Posted) (k y : Nat) : Nat := ((s.h.newEntry p).opa.toNat + 256 * k + y) % 2 ^ 64

/-- Memory as a function of the key, once the elements of a list have performed in its order: each replaces its `n` bytes by a function of their value and its operand. -/
def afterAtomics (n : Nat) (f : Nat → Nat → Nat) (key opnd : Nat → Nat) : List Nat → (Nat → Byte) → Nat → Byte
  | [], m => m
  | j :: js, m => afterAtomics n f key opnd js fun a =>
      if key j ≤ a ∧ a < key j + n then (natLe n (f (leNat ((List.range n).map fun o => m (key j + o))) (opnd j))).getD (a - key j) 0#8 else m a

/-- The value that an atomic stores (R454). -/
def amoStored (op : AmoOp) (n old b cmp : Nat) : Nat :=
  match op with
  | .add => (old + b) % 2 ^ (8 * n)
  | .and => old &&& b
  | .or => old ||| b
  | .xor => old ^^^ b
  | .min => wrap (8 * n) (min (sval (8 * n) old) (sval (8 * n) b))
  | .max => wrap (8 * n) (max (sval (8 * n) old) (sval (8 * n) b))
  | .minu => min old b
  | .maxu => max old b
  | .swap => b
  | .cas => if old = cmp then b else old
  | .fadd => (fpAdd (if n = 4 then .f32 else .f64) .rne old b).1

/-- A vector atomic on aligned elements of plain storage, element `j` at `key j`, completes: the executed elements perform in increasing index, each on what those before it leave, and take the
values that they find (R597, R598). -/
def AtomicElems (s : State) (i : Instr) (p : Posted) (op : AmoOp) : Prop :=
  let n := width s / 8
  let N := s.h.vl * s.h.vrows
  ∀ key : Nat → Nat,
    let D (a : Nat) : Prop := ∃ j, runsAt s p j = true ∧ key j ≤ a ∧ a < key j + n
    let mem (l : List Nat) : Nat → Byte := afterAtomics n (fun old b => amoStored op n old b 0) key (dataElem s p .indexed) l (byteAt s)
    Runs s p → Quiet s → N ≠ 0 →
    (∀ j, runsAt s p j = true → elemVa s p .indexed (width s) j % n = 0 ∧
      PlainAt s s.h.level D (elemVa s p .indexed (width s) j) n .atomic .atomic (key j) ∧ Sound s (key j) n) →
    ∃ t, exec i s = .next t ∧ MemFrame s t id ∧ (∀ a, byteAt t a = mem (runsBelow s p N) a) ∧
      VecResult s t p (vtEt s.h.vtype) (afterIndex s p .indexed) fun k x =>
        let j := k * s.h.vl + x
        if executes s p k x then some (leNat ((List.range n).map fun o => mem (runsBelow s p j) (key j + o))) else none

/-- The combination of a list by a function, from the left; `z` for the empty one. -/
def combine (z : Nat) (f : Nat → Nat → Nat) : List Nat → Nat
  | [] => z
  | x :: xs => xs.foldl f x

/-- What two values make under a scatter-accumulate (R600). -/
def scaMade (op : ScaOp) (et : ETCode) (a b : Nat) : Nat :=
  match op, etFmt et with
  | .max, some f => (fpMinMax f true a b).1
  | .min, some f => (fpMinMax f false a b).1
  | _, some f => (fpAdd f .rne a b).1
  | .max, none => if etSigned et = true then wrap (etBits et) (max (sval (etBits et) a) (sval (etBits et) b)) else max a b
  | .min, none => if etSigned et = true then wrap (etBits et) (min (sval (etBits et) a) (sval (etBits et) b)) else min a b
  | _, none => (a + b) % 2 ^ etBits et

/-- A scatter-accumulate on aligned elements of plain storage, element `j` at `key j`, elements of different addresses apart, completes: the values of one address are combined in index order and
then with what stands there; those of `vscao` wait in the combining store, the latest first, with rank and index (R600 to R603). -/
def AccumulatesElems (s : State) (i : Instr) (p : Posted) (op : ScaOp) : Prop :=
  let et := vtEt s.h.vtype
  let n := width s / 8
  let N := s.h.vl * s.h.vrows
  ∀ key : Nat → Nat,
    let va (j : Nat) : Nat := elemVa s p .indexed (width s) j
    let D (a : Nat) : Prop := op ≠ .ordered ∧ ∃ j, runsAt s p j = true ∧ key j ≤ a ∧ a < key j + n
    Runs s p → Quiet s → N ≠ 0 → N ≤ 32768 →
    (∀ j, runsAt s p j = true → va j % n = 0 ∧ PlainAt s s.h.level D (va j) n .atomic .atomic (key j) ∧ Sound s (key j) n) →
    (op ≠ .ordered → ∀ j l, runsAt s p j = true → runsAt s p l = true → va j = va l ∨ key j + n ≤ key l ∨ key l + n ≤ key j) →
    ∃ t, exec i s = .next t ∧ MemFrame s t id ∧ (∀ m, t.h.vreg m = afterData s p .indexed m) ∧ (∀ a, ¬ D a → byteAt t a = byteAt s a) ∧
      (op ≠ .ordered → t.mem.sca = [] ∧ ∀ j o, runsAt s p j = true → o < n → byteAt t (key j + o) =
        (natLe n (scaMade op et (leNat (s.mem.peek (key j) n))
          (combine 0 (scaMade op et) (((runsBelow s p N).filter fun l => va l == va j).map (dataElem s p .indexed))))).getD o 0#8) ∧
      (op = .ordered → t.mem.sca.map (fun x => (x.key, x.et, x.value, x.grank, x.index)) =
        (runsBelow s p N).reverse.map fun j => (key j, et, dataElem s p .indexed j, s.h.grank, j))

/-- `capp` with its queue in plain storage, the descriptor at `kd` and byte `o` of the ring at `ring o`, completes once there is room and the older reservations are written (R503, R504): the executed tile indices
are appended as keys, HEAD and WRITTEN move on, a completed batch without a template is counted and sets EV, and the number of keys is the result. -/
def Appends (s : State) (i : Instr) (p : Posted) : Prop :=
  let e := s.h.newEntry p
  let act := runsBelow s p (s.h.vl * s.h.vrows)
  ∀ (kd : Nat) (ring : Nat → Nat),
    let d := s.mem.peek kd 64
    let cap := 2 ^ sliceNat d 8 1
    let pos := sliceNat d 16 8
    let batches := (pos + act.length) / 2 ^ sliceNat d 9 1 - pos / 2 ^ sliceNat d 9 1
    let D (a : Nat) : Prop := (kd ≤ a ∧ a < kd + 64) ∨ ∃ o, o < 4 * cap ∧ a = ring o
    let at_ (kind : AccKind) (path : AccPath) : Prop := PlainAt s s.h.level D e.opa.toNat 64 kind path kd
    Runs s p → Quiet s → e.opa.toNat < spadBase → e.opa.toNat % 64 = 0 →
    at_ .load .vector → at_ .load .engine → at_ .store .vector → at_ .store .engine → Sound s kd 64 →
    cappBad d act.length = false → sliceNat d 24 8 = pos → pos + act.length - sliceNat d 32 8 ≤ cap →
    (∀ o, o < 4 * cap → PlainAt s s.h.level D (sliceNat d 0 8 + o) 1 .store .vector (ring o) ∧ (ring o < kd ∨ kd + 64 ≤ ring o)) →
    (∀ o q, o < 4 * cap → q < 4 * cap → ring o = ring q → o = q) → (batches = 0 ∨ sliceNat d 40 8 = 0) →
    ∃ t, exec i s = .next t ∧ MemFrame s t (fun h => { h with x := s.h.x, ev := s.h.ev }) ∧ t.h.v = s.h.v ∧
      t.h.x = (match p.xd with | some r => xPut s.h.x r (BitVec.ofNat 64 act.length) | none => s.h.x) ∧
      t.h.ev = (s.h.ev || decide (batches ≠ 0)) ∧ (∀ a, ¬ D a → byteAt t a = byteAt s a) ∧
      (∀ o, o < 64 → byteAt t (kd + o) =
        if 16 ≤ o ∧ o < 32 then (natLe 8 (pos + act.length)).getD (o % 8) 0#8
        else if 48 ≤ o ∧ o < 56 then (natLe 8 (sliceNat d 48 8 + batches)).getD (o - 48) 0#8 else byteAt s (kd + o)) ∧
      ∀ o, o < 4 * cap →
        let x := (o / 4 + (cap - pos % cap)) % cap
        byteAt t (ring o) = if x < act.length then (natLe 4 (e.opb.toNat + act.getD x 0)).getD (o % 4) 0#8 else byteAt s (ring o)

/-! ### Streams and copies -/

/-- A copy within plain storage by a plan of rows, byte `o` of copy order read at `ks o` and written at `kd o`, completes: every destination byte takes its source byte, no other byte changes, and the bits of the
completion mask are set (R247, R493, R495 to R497). -/
def Copies (s t : State) (p : Posted) (plan : CopyPlan) (kd ks : Nat → Nat) : Prop :=
  (∀ o, o < plan.total → byteAt t (kd o) = byteAt s (ks o)) ∧ (∀ a, (∀ o, o < plan.total → a ≠ kd o) → byteAt t a = byteAt s a) ∧
  ∀ (n : MNum) (k x : Nat), k < 16 → x < 2048 →
    (t.h.mask n).bit k x = ((s.h.mask n).bit k x || decide (n = p.m ∧ n ≠ 0#3 ∧ 2048 * k + x < plan.chunks))

/-- The bytes of a copy lie in plain storage, those read and those written apart, and the copy engine of the core has chunks to spare (R220). -/
def CopyPlaced (s : State) (p : Posted) (plan : CopyPlan) (kd ks : Nat → Nat) : Prop :=
  let D (a : Nat) : Prop := ∃ o, o < plan.total ∧ a = kd o
  (∀ o, o < plan.total →
    PlainAt s s.h.level D ((plan.src (o / plan.len) + o % plan.len) % 2 ^ 64) 1 .load .engine (ks o) ∧ Sound s (ks o) 1 ∧
    PlainAt s s.h.level D ((plan.dst (o / plan.len) + o % plan.len) % 2 ^ 64) 1 .store .engine (kd o)) ∧
  (∀ o q, o < plan.total → q < plan.total → kd o ≠ ks q ∧ (kd o = kd q → o = q)) ∧
  s.chunksOut s.cur (s.h.newEntry p) < 32

/-- `cpy` or `cpyr` of KIND 0 with its descriptor in plain storage at `k`, valid, naming rows in plain storage (R493, R494, R496). -/
def BulkCopies (s : State) (i : Instr) (p : Posted) (remote : Bool) : Prop :=
  ∀ (k : Nat) (kd ks : Nat → Nat),
    let d := leNat (s.mem.peek k 64)
    let plan := bulkPlan d
    Runs s p → Quiet s → (s.h.newEntry p).opa.toNat % 8 = 0 →
    PlainAt s s.h.level (fun a => ∃ o, o < plan.total ∧ a = kd o) (s.h.newEntry p).opa.toNat 64 .load .engine k → Sound s k 64 →
    copyKind d = 0 → copyBad remote (decide (s.h.level = .u)) (decide (p.m ≠ 0#3)) d = false → CopyPlaced s p plan kd ks →
    ∃ t, exec i s = .next t ∧ MemFrame s t (fun h => { h with m := s.h.m }) ∧ t.h.v = s.h.v ∧ Copies s t p plan kd ks

/-- `gsp` or `ssp` with its rows in plain storage, the scratchpad side within the window (R495). -/
def GatherCopies (s : State) (i : Instr) (p : Posted) (scatter : Bool) : Prop :=
  ∀ kd ks : Nat → Nat,
    let e := s.h.newEntry p
    let plan := gatherPlan scatter s.h e
    Runs s p → Quiet s → s.h.vl * s.h.vrows ≠ 0 → inWindow (if scatter then e.opb else e.opa).toNat plan.total = true → CopyPlaced s p plan kd ks →
    ∃ t, exec i s = .next t ∧ MemFrame s t (fun h => { h with m := s.h.m }) ∧ Copies s t p plan kd ks ∧
      ∀ n, t.h.vreg n = if n = p.b then source s n else s.h.vreg n

/-! ### Reductions over the fixed tree, and blocks -/

/-- Node (l, i) of the tree of R107 over leaves, each with the flags below it; an absent node leaves the other unchanged (R289). -/
def treeNode (f : Nat → Nat → Nat × Flags) (leaf : Nat → Option (Nat × Flags)) : Nat → Nat → Option (Nat × Flags)
  | 0, i => leaf i
  | l + 1, i =>
    match treeNode f leaf l (2 * i), treeNode f leaf l (2 * i + 1) with
    | some a, some b => some ((f a.1 b.1).1, a.2 ||| b.2 ||| (f a.1 b.1).2)
    | some a, none => some a
    | none, b => b

/-- A reduction of a row over the fixed tree, behind its initial value; `z` where nothing is active (R289). -/
def treeRow (s : State) (p : Posted) (f : Nat → Nat → Nat × Flags) (z k : Nat) : Nat × Flags :=
  let leaf (i : Nat) : Option (Nat × Flags) := if i < s.h.vl ∧ activeAt s p k i = true then some (srcElem s p.a k i, 0#5) else none
  match (if p.b = 0#5 then none else some (srcElem s p.b k 0)), treeNode f leaf (Nat.log2 s.h.vl + 1) 0 with
  | some v, some x => ((f v x.1).1, x.2 ||| (f v x.1).2)
  | some v, none => (v, 0#5)
  | none, some x => x
  | none, none => (z, 0#5)

/-- A NaN as the canonical one (R268). -/
def canonical (f : Fmt) (a : Nat) : Nat := if (fpDecode f a).isNaN = true then canonNaN f else a

/-- A floating-point reduction over the fixed tree without segments writes element 0 of each row from VSTART's on, and raises the flags of every combine (R539). -/
def TreeReduces (s : State) (i : Instr) (p : Posted) (f : Fmt) (g : Nat → Nat → Nat × Flags) (z : Nat) : Prop :=
  let row (k x : Nat) : Bool := decide ((s.h.newEntry p).prog / s.h.vl ≤ k) && x == 0
  s.h.vseg.getLsbD 3 = false →
    VecWrites s i p (fun k x => if row k x then some (canonical f (treeRow s p g z k).1) else none) (flagsOf s row fun k _ => (treeRow s p g z k).2)

/-- The scale of a block of values (R271): 255 with a NaN or an infinity among them, 127 for zeros only, else from the exponent of the largest magnitude. -/
def blockScale (top : Int) (vs : List FpVal) : Nat :=
  if vs.any (fun v => match v with | .num _ _ _ => false | _ => true) = true then 255
  else
    match vs.filterMap fun v => match v with | .num _ m e => if m = 0 then none else some (e + Int.ofNat (Nat.log2 m)) | _ => none with
    | [] => 127
    | l :: ls => (max (-127) (min 127 (ls.foldl max l - top)) + 127).toNat

/-- Every vector register but those of a list stands, and FCSR does. -/
def KeepsV (s t : State) (l : List VNum) : Prop := t.h.fcsr = s.h.fcsr ∧ ∀ n, n ∉ l → t.h.vreg n = s.h.vreg n

/-- What a fibre instruction that reaches no memory leaves: beside the fibre registers of a list, everything that `PostedFrame` names;
ESTATUS.FOVF may be set where an input is relaid (R249). -/
def FibreFrame (s t : State) (l : List FNum) : Prop :=
  PostedFrame s t (fun h => { h with f := s.h.f, estatus := s.h.estatus }) ∧ (t.h.estatus = s.h.estatus ∨ t.h.estatus = s.h.estatus ||| 4#3) ∧
  ∀ n, n ∉ l → t.h.freg n = s.h.freg n

/-- What a matrix instruction that reaches no memory leaves: beside the tiles, everything that `PostedFrame` names; MSTAT becomes `m`. -/
def TileFrame (s t : State) (m : BitVec 10) : Prop :=
  PostedFrame s { t with core := { t.core with tiles := s.core.tiles } } (fun h => { h with mstat := s.h.mstat }) ∧ t.h.mstat = m

/-- The TIU bit of a tile. -/
def tiuBit (n : BitVec 2) : BitVec 10 := 1#10 <<< (1 + n.toNat)

/-- The entries of a fibre input, relaid to the captured lane map (R248, R249, R548). -/
def fibreIn (s : State) (n : FNum) : List (Nat × Nat) := ((s.h.freg n).relaid (vtGroups s.h.vtype)).1.read
/-- The value type of a fibre input. -/
def fibreType (s : State) (n : FNum) : ETCode := (s.h.freg n).et

/-- Coordinates that rise strictly. -/
def Rising (es : List (Nat × Nat)) : Prop := es.Pairwise fun x y => x.1 < y.1

/-! ### What a fibre instruction writes -/

/-- Entries that are appended together, behind the cursors that they stand at, with the flags of their combines (R551, R553 to R555). -/
abbrev FGroup := Nat × List (Nat × Nat) × Flags

/-- The groups that fit into `m` entries: up to the first that does not. -/
def fitting : Nat → List FGroup → List FGroup
  | _, [] => []
  | m, g :: gs => if g.2.1.length ≤ m then g :: fitting (m - g.2.1.length) gs else []

/-- Whether the relayout of a fibre input discards entries (R249). -/
def lossy (s : State) (n : FNum) : Bool := ((s.h.freg n).relaid (vtGroups s.h.vtype)).2

/-- The machine but for VSTART, FCSR and the fibre registers of `s`: the inputs `ins` are relaid, `d` is written (R248, R249). With `mem` plain storage is read. -/
def FibFrame (s t : State) (ins : List FNum) (d : Option FNum) (mem : Bool) : Prop :=
  let u := t.mod fun h => { h with vstart := 0#32, fcsr := s.h.fcsr }
  let back (h : Hart) : Hart := { h with f := s.h.f, estatus := s.h.estatus }
  (if mem = true then MemFrame s u back ∧ ∀ a, byteAt t a = byteAt s a else PostedFrame s u back) ∧
  ∀ n, some n ≠ d → t.h.freg n = if n ∈ ins then ((s.h.freg n).relaid (vtGroups s.h.vtype)).1 else s.h.freg n

/-- What a fibre instruction that appends groups to its result leaves: the groups that fit stand in `d`, with the flags of their combines; where not all fit it overflows, which sets FOVF and leaves
the cursors in VSTART (R547, R548, R551). -/
def FibResult (s t : State) (p : Posted) (d : FNum) (ins : List FNum) (et : ETCode) (gs : List FGroup) (mem : Bool) : Prop :=
  let l := vtGroups s.h.vtype
  let fit := fitting (fmaxOf et l) gs
  FibFrame s t ins (some d) mem ∧ (∀ n, t.h.vreg n = readSources s p n) ∧ (t.h.freg d).valid = true ∧ (t.h.freg d).et = et ∧ (t.h.freg d).lmap = l ∧
  (t.h.freg d).read = (fit.flatMap fun g => g.2.1).map (fun x => (x.1 % 2 ^ 32, x.2 % 2 ^ etBits et)) ∧
  t.h.fcsr = s.h.fcsr ||| (fit.foldl (fun f g => f ||| g.2.2) 0#5 ++ 0#4) ∧
  t.h.vstart = (match gs[fit.length]? with | some g => BitVec.ofNat 32 g.1 | none => 0#32) ∧
  t.h.estatus = s.h.estatus ||| (if fit.length < gs.length ∨ ins.any (lossy s) = true then 4#3 else 0#3)

/-- A fibre instruction completes and appends its groups. -/
def FibWrites (s : State) (i : Instr) (p : Posted) (d : FNum) (ins : List FNum) (et : ETCode) (gs : List FGroup) : Prop :=
  Runs s p → ∃ t, exec i s = .next t ∧ FibResult s t p d ins et gs false

/-- The two inputs of a set operation walked in coordinate order from cursors (i, j) (R553): `side` names which of two entries comes first, or both; `fa`, `fb` and `fe` what a side appends. -/
def setWalk (fa fb : Nat × Nat → List (Nat × Nat)) (fe : Nat × Nat → Nat × Nat → List (Nat × Nat) × Flags) (side : Nat × Nat → Nat × Nat → Ordering) :
    Nat → Nat → Nat → List (Nat × Nat) → List (Nat × Nat) → List FGroup
  | n + 1, i, j, x :: xs, y :: ys =>
    match side x y with
    | .lt => (i + 65536 * j, fa x, 0#5) :: setWalk fa fb fe side n (i + 1) j xs (y :: ys)
    | .gt => (i + 65536 * j, fb y, 0#5) :: setWalk fa fb fe side n i (j + 1) (x :: xs) ys
    | .eq => (i + 65536 * j, fe x y) :: setWalk fa fb fe side n (i + 1) (j + 1) xs ys
  | n + 1, i, j, x :: xs, [] => (i + 65536 * j, fa x, 0#5) :: setWalk fa fb fe side n (i + 1) j xs []
  | n + 1, i, j, [], y :: ys => (i + 65536 * j, fb y, 0#5) :: setWalk fa fb fe side n i (j + 1) [] ys
  | _, _, _, _, _ => []

/-- The entries of an `fisectb` word pair (R555). -/
def bitPairs (x y : Nat × Nat) : List (Nat × Nat) :=
  let both (t : Nat) : Bool := x.2.testBit t && y.2.testBit t
  ((List.range 64).filter both).map fun t =>
    (64 * x.1 + t, onesIn t x.2 + 64 * onesIn t y.2 + (if (List.range t).any both = true then 0 else 4096))

/-- The runs of equal coordinates from position `j` on, each folded in entry order (R554). -/
def runsOf (c : Nat) (et : ETCode) (es : List (Nat × Nat)) (j : Nat) : List FGroup :=
  ((List.range es.length).filter fun k => decide (j ≤ k) && (k == j || (es.getD (k - 1) (0, 0)).1 != (es.getD k (0, 0)).1)).map fun k =>
    let x := es.getD k (0, 0)
    let r := ((es.drop (k + 1)).takeWhile fun y => y.1 == x.1).foldl
      (fun (a : Nat × Flags) y => ((fibCombine c et a.1 y.2).1, a.2 ||| (fibCombine c et a.1 y.2).2)) (x.2, 0#5)
    (k, [(x.1, r.1)], r.2)

/-- The strip of `fsetl` from rows of given lengths, the first of which has lost `off` elements, behind `n` elements (R565): the rows consumed, the new offset, the length, whether a row was cut, and the
starts of its segments. -/
def stripOf (mx : Nat) : List Nat → Nat → Nat → Nat × Nat × Nat × Bool × List Nat
  | [], off, n => (0, off, n, false, [])
  | l :: ls, off, n =>
    let r := min l 65535 - off
    if mx ≤ n then (0, off, n, false, [])
    else if r = 0 then ((stripOf mx ls 0 n).1 + 1, (stripOf mx ls 0 n).2)
    else if mx - n < r then (if 0 < n then (0, off, n, false, []) else (0, off + mx, mx, true, [0]))
    else
      let q := stripOf mx ls 0 (n + r)
      (q.1 + 1, q.2.1, q.2.2.1, q.2.2.2.1, n :: q.2.2.2.2)

/-- Where a binary search of R562 for `k` ends, over coordinates `c`. -/
def lowerBound (c : Nat → Nat) (k : Nat) : Nat → Nat → Nat → Nat
  | 0, lo, _ => lo
  | n + 1, lo, hi =>
    if lo < hi then (if c (lo + (hi - lo) / 2) < k then lowerBound c k n (lo + (hi - lo) / 2 + 1) hi else lowerBound c k n lo (lo + (hi - lo) / 2)) else lo

/-- A compressed level in plain storage: its descriptor, in order, at `kd`, POS entry p at `kp p`, coordinate n at `kc n` and value n at `kv n` (R559, R563). -/
structure PlacedLevel where
  kd : Nat
  kp : Nat → Nat
  kc : Nat → Nat
  kv : Nat → Nat
  desc : LevelDesc

/-- The descriptor of a level is read at its VA. -/
def PlacedLevel.placed (v : PlacedLevel) (s : State) (p : Posted) (path : AccPath) (D : Nat → Prop) : Prop :=
  (s.h.newEntry p).opa.toNat % 8 = 0 ∧ PlainAt s s.h.level D (s.h.newEntry p).opa.toNat 64 .load path v.kd ∧ Sound s v.kd 64 ∧
  descOf (leNat (s.mem.peek v.kd 64)) = some v.desc

/-- POS entry `q` of a level may be read. -/
def PlacedLevel.posAt (v : PlacedLevel) (s : State) (D : Nat → Prop) (q : Nat) : Prop :=
  PlainAt s s.h.level D ((v.desc.pos + 8 * q) % 2 ^ 64) 8 .load .pointer (v.kp q) ∧ Sound s (v.kp q) 8

/-- POS entry `q`. -/
def PlacedLevel.pos (v : PlacedLevel) (s : State) (q : Nat) : Nat := leNat (s.mem.peek (v.kp q) 8)

/-- Coordinate `n`. -/
def PlacedLevel.crd (v : PlacedLevel) (s : State) (n : Nat) : Nat := leNat (s.mem.peek (v.kc n) 4)

/-- The bytes of a value. -/
def PlacedLevel.size (v : PlacedLevel) : Nat := (etBits v.desc.et + 7) / 8

/-- Value `n`; its place where the level has no values (R559, R232). -/
def PlacedLevel.val (v : PlacedLevel) (s : State) (n : Nat) : Nat :=
  if v.desc.val = 0 then n % 2 ^ 32
  else leNat (s.mem.peek (v.kv n) v.size) / (if etBits v.desc.et = 4 ∧ n % 2 = 1 then 16 else 1) % 2 ^ etBits v.desc.et

/-- Coordinate `n` may be accessed. -/
def PlacedLevel.crdAt (v : PlacedLevel) (s : State) (D : Nat → Prop) (kind : AccKind) (path : AccPath) (n : Nat) : Prop :=
  PlainAt s s.h.level D ((v.desc.crd + 4 * n) % 2 ^ 64) 4 kind path (v.kc n)

/-- Value `n`, where the level has values, may be accessed. -/
def PlacedLevel.valAt (v : PlacedLevel) (s : State) (D : Nat → Prop) (kind : AccKind) (path : AccPath) (n : Nat) : Prop :=
  v.desc.val ≠ 0 → PlainAt s s.h.level D ((v.desc.val + n * etBits v.desc.et / 8) % 2 ^ 64) v.size kind path (v.kv n)

/-- The type of the values of a level (R548). -/
def PlacedLevel.type (v : PlacedLevel) : ETCode := if v.desc.val = 0 then 6#4 else v.desc.et

/-! ### What an outer product writes -/

/-- Element `e` of row `k` of a source read at a type (R236, R243). -/
def readAt (s : State) (et : ETCode) (n : VNum) (k e : Nat) : Nat := ((s.h.vreg n).relaid et (vtGroups s.h.vtype)).elem (etBits et) k e

/-- The products of accumulator row `i` in step `k` in their order: the position in B's group and the index in A's group (R285, R572, R573). -/
def outerPairs (s : State) (op : MatOp) (a : VNum) (c : MNum) (K k i : Nat) : List (Nat × Nat) :=
  let at_ (p q : Nat) : Bool :=
    if op ≠ .ops then p == q
    else if c = 0#3 then readAt s 4#4 (a + 2#5) k (i * K + q) == p
    else (s.h.mask c).bit k (2 * K * i + p) && (List.range p).countP (fun j => (s.h.mask c).bit k (2 * K * i + j)) == q
  (List.range (if op = .ops then 2 * K else K)).flatMap fun p => ((List.range K).filter (at_ p)).map fun q => (p, q)

/-- An operand value of an outer product, scaled under bs (R270, R286, R570). -/
def outerValue (s : State) (n : VNum) (et : ETCode) (bs : Bool) (k e : Nat) : FpVal :=
  let v := fpDecode (fmtEt et) (readAt s et n k e)
  let x := readAt s 4#4 (n + 1#5) k (e / 256)
  if bs = false then v else if x = 255 then .nan false else scaleVal v (Int.ofNat x - 127)

/-- Accumulator element (i, j) after step `k` (R285 to R287, R572, R573). -/
def outerStepAt (s : State) (op : MatOp) (a b : VNum) (c : MNum) (mf : MatFmt) (bs : Bool) (i j old k : Nat) : Nat :=
  let ax (p : Nat × Nat) : Nat := i * mf.k + p.2
  let bx (p : Nat × Nat) : Nat := j * (if op = .ops then 2 * mf.k else mf.k) + p.1
  let ps := outerPairs s op a c mf.k k i
  let w := etBits mf.et
  if mf.fp = false then wrap 32 (Int.ofNat old + (ps.map fun p => sval w (readAt s mf.et a k (ax p)) * sval w (readAt s mf.et b k (bx p))).sum)
  else
    let xy := ps.map fun p => (outerValue s a mf.et bs k (ax p), outerValue s b mf.et bs k (bx p))
    if op = .opr then sumF32 (fpDecode .f32 old :: xy.map fun x => (mulVal x.1 x.2).1) else xy.foldl (fun t x => mopoStep t x.1 x.2) old

/-- The vector registers after some have been read at types, in turn (R243). -/
def AllRelaid (s t : State) (l : List (VNum × ETCode)) : Prop :=
  t.h.fcsr = s.h.fcsr ∧ ∀ n, t.h.vreg n = l.foldl (fun v x => if x.1 = n then v.relaid x.2 (vtGroups s.h.vtype) else v) (s.h.vreg n)

/-- An outer product completes: TIU is set where there is a step; the elements whose predicates hold, below MR and MC, take their steps in turn, from the hart's own registers but in a co-tile, where a row of another
core may enter; every other element and tile stands (R250, R570, R572, R573, R580). -/
def OuterWrites (s : State) (i : Instr) (p : Posted) (op : MatOp) (n : ANum) (a b : VNum) (r c f : BitVec 3) (bs : Bool) : Prop :=
  let mf := matFmt f
  let takes (x y : Nat) : Bool := decide (x < s.h.mr) && decide (y < s.h.mc) && (s.h.mask r).bit 0 x && (op == .ops || (s.h.mask c).bit 0 y)
  let tile (t : State) (q : ANum) (x y : Nat) : Nat := (t.core.tile q).get x y
  Runs s p → ∃ t, exec i s = .next t ∧ TileFrame s t (if s.h.vrows = 0 then s.h.mstat else s.h.mstat ||| tiuBit n) ∧ (∀ q, q ≠ n → t.core.tile q = s.core.tile q) ∧
    AllRelaid s t ([(a, mf.et), (b, mf.et)] ++ (if bs = true then [(a + 1#5, 4#4), (b + 1#5, 4#4)] else []) ++ if op = .ops ∧ c = 0#3 then [(a + 2#5, 4#4)] else []) ∧
    ∀ x y, x < 128 → y < 128 →
      (takes x y = false → tile t n x y = tile s n x y) ∧
      (takes x y = true → s.aElsewhere s.cur = false → s.bElsewhere s.cur = false →
        tile t n x y = (List.range s.h.vrows).foldl (outerStepAt s op a b c mf bs x y) (tile s n x y))

/-- The VA of element (x, y) of the region of `mld` and `mst` (R577). -/
def regionVa (s : State) (p : Posted) (x y : Nat) : Nat :=
  ((Int.ofNat (s.h.newEntry p).opa.toNat + Int.ofNat x * (s.h.newEntry p).opb.toInt + 4 * Int.ofNat y) % 2 ^ 64).toNat

/-! ### Scalar accesses to plain storage -/

/-- On a canonical memory, the bytes at a VA lie in one page of unprotected, unencrypted HBM or in a scratchpad bank, at storage key `k`; `u` is the state once they are
translated (R293 to R302). -/
def PlacedAt (s : State) (va n : Nat) (kind : AccKind) (path : AccPath) (k : Nat) (u : State) : Prop :=
  s.mem.wf = true ∧ va % 4096 + n ≤ 4096 ∧ va < 2 ^ 63 ∧ s.mem.sca = [] ∧ s.mem.sealed = [] ∧
  ((∃ g, s.locate s.whoScalar va n kind path = .ok (.hbm k false false g, u)) ∨ s.locate s.whoScalar va n kind path = .ok (.spad k, u))

/-- No store of the hart waits in its buffer, and the schedule is eager (assumption 1). -/
def NoStores (s : State) : Prop := s.eager = true ∧ s.h.stbuf = []

/-- What a scalar memory instruction may change of its hart beside `x`: the program counter and loop counts, the issue state, and the
notes of remote accesses; and of the other harts their reservations. -/
def ScalarFrame (s t : State) : Prop :=
  { t.h with x := s.h.x, pc := s.h.pc, lc0 := s.h.lc0, lc1 := s.h.lc1, status := s.h.status, laneServed := s.h.laneServed,
             matrixServed := s.h.matrixServed, scalarRemote := s.h.scalarRemote, resv := s.h.resv } = s.h ∧
  (∀ j : Fin 4, j ≠ s.cur → { t.harts[j] with resv := s.harts[j].resv } = s.harts[j]) ∧
  t.core.tiles = s.core.tiles ∧ t.core.lanes = s.core.lanes ∧ t.fab = s.fab ∧ t.clock = s.clock ∧ t.host = s.host

/-- The value of a load of R448. -/
def loadValue (w : BitVec 3) (v : Nat) : Word :=
  if w.toNat < 3 then BitVec.ofInt 64 (sval (8 * 2 ^ w.toNat) v) else BitVec.ofNat 64 v

/-- An atomic with nothing in its way: a misaligned address traps ALIGN; on aligned bytes of plain storage, with nothing that its release waits for, one
indivisible read and write. The destination is an operand of the compare-and-swap alone. -/
def Atomic (s : State) (i : Instr) (op : AmoOp) (d a b : XNum) (z l : BitVec 1) (c : BitVec 3) : Prop :=
  let n := if z = 1#1 then 8 else 4
  Clear s (if op = .cas then [a, b, d] else [a, b]) →
  ((s.x a).toNat % n ≠ 0 → exec i s = .next (s.trapHere cALIGN (s.x a))) ∧
  ∀ (u : State) (k : Nat), s.h.stbuf = [] → s.sameBytes true (s.x a).toNat n = false → (s.x a).toNat % n = 0 →
    (l = 1#1 → s.performed s.cur (if c = 0#3 then 1 else c.toNat) = true) →
    PlacedAt s (s.x a).toNat n .atomic .atomic k u → Sound s k n →
    let old := leNat (s.mem.peek k n)
    let new := natLe n (amoStored op n old ((s.x b).toNat % 2 ^ (8 * n)) ((s.x d).toNat % 2 ^ (8 * n)))
    ∃ t, exec i s = .next t ∧
      t.h.x = xPut s.h.x d (if n = 8 ∨ op = .fadd then BitVec.ofNat 64 old else BitVec.ofInt 64 (sval 32 old)) ∧
      t.h.pc = s.h.afterPc ∧ ScalarFrame s t ∧ (∀ i, i < n → byteAt t (k + i) = new.getD i 0#8) ∧
      ∀ a, a < k ∨ k + n ≤ a → byteAt t a = byteAt s a

/-! ### Control flow -/

/-- The machine goes on at `t`, and nothing else changes. -/
def GoesTo (s : State) (i : Instr) (t : Word) : Prop := exec i s = .next (s.goTo t)

/-- A retired form in the way of nothing: its queues are neither held nor full of work, no emulation runs and a frame is named (R376, R379). -/
def RetiredReady (s : State) : Prop :=
  s.h.held = false ∧ s.h.level ≠ .e ∧ (s.h.level = .s → s.h.emulating = false) ∧ s.h.queue = [] ∧ s.h.emuf ≠ 0#64

/-- The mask area of a frame (R377). -/
def maskArea (m : MReg) : List Byte := (List.range 4096).map fun o => (m[o / 256]?.getD 0#2048).extractLsb' (8 * (o % 256)) 8
/-- A row area of a frame: the rows of a register at the captured type (R232, R377). -/
def rowArea (s : State) (n : VNum) (rows : Nat) : List Byte :=
  (List.range (1024 * rows)).map fun o => ((source s n).readRow (o / 1024)).extractLsb' (8 * (o % 1024)) 8
/-- The tile block of a frame, row by row (R377). -/
def tileArea (t : Tile) : List Byte := (List.range 16384).map fun o => BitVec.ofNat 8 (t.get (o / 256) (o / 4 % 64) / 256 ^ (o % 4))

/-- The parts of the frame that the device writes for word `w` of a class (R377). -/
def frameParts (s : State) (w : IWord) (cls : Nat) (opa opb : Word) (areas : List (Nat × List Byte)) : List (Nat × List Byte) :=
  [(0x40, natLe 4 w.toNat), (0x44, natLe 4 (if s.h.pfxNext = true then s.h.pfx.toNat else 0)), (0x48, natLe 8 s.h.pc.toNat), (0x50, natLe 8 opa.toNat),
   (0x58, natLe 8 opb.toNat), (0x60, natLe 2 s.h.vl), (0x62, natLe 1 s.h.vrows), (0x63, natLe 1 cls), (0x64, natLe 2 s.h.vtype.toNat),
   (0x66, natLe 1 (match s.h.level with | .u => 0 | .s => 1 | .e => 2)), (0x68, natLe 4 s.h.vstart.toNat), (0x6C, natLe 4 s.h.fcsr.toNat)] ++ areas

/-- A retired form with nothing in its way and its frame in plain storage, byte `o` at `key o`, writes the frame with S permissions and enters the handler at E; no other byte changes, and nothing else of its hart (R376, R377). -/
def Emulates (s : State) (i : Instr) (w : IWord) (cls : Nat) (opa opb : Word) (areas : List (Nat × List Byte)) : Prop :=
  ∀ key : Nat → Nat,
    let holds (o : Nat) (b : Byte) : Prop := ∃ q ∈ frameParts s w cls opa opb areas, q.1 ≤ o ∧ o < q.1 + q.2.length ∧ b = q.2.getD (o - q.1) 0#8
    let D (a : Nat) : Prop := ∃ o b, holds o b ∧ a = key o
    RetiredReady s → Quiet s → (∀ o b, holds o b → PlainAt s .s D (s.h.emuf.toNat + o) 1 .store .aux (key o)) →
    (∀ o q b c, holds o b → holds q c → key o = key q → o = q) →
    ∃ t, exec i s = .next t ∧ (∀ o b, holds o b → byteAt t (key o) = b) ∧ (∀ a, ¬ D a → byteAt t a = byteAt s a) ∧
      t.h = { s.h with level := .e, pc := s.h.etvec + 0x80#64, resv := none, emulating := true, inHandler := true, pfxNext := false, status := .running } ∧
      (∀ j : Fin 4, j ≠ s.cur → { t.harts[j] with resv := s.harts[j].resv } = s.harts[j]) ∧ t.core.tiles = s.core.tiles

/-! ### Events -/

/-- Hart `h`, which is not stopped by a pre-emption, waits with word `w`, neither for an answer over the fabric nor at a barrier. -/
def WaitsWith (s : State) (h : Fin 4) (w : IWord) : Prop :=
  s.harts[h].frozen = false ∧ ∃ k, s.harts[h].status = .waiting k w ∧ k ≠ .remote ∧ ∀ c, k ≠ .barrier c

/-- For a hart that waits with the word of `i`, the event is `i`, executed by that hart. -/
def Resumes (s : State) (ev : Instr) (h : Fin 4) (i : Instr) : Prop :=
  ∀ w, encode i = some w → WaitsWith s h w → ∃ t, exec i { s with cur := h } = .next t ∧ exec ev s = .next { t with cur := s.cur }

/-- Entry `e` of hart `h` may run, meets no fault and nothing to wait for, and leaves `t`: it has retired, or stands further on. -/
def EntryRuns (s : State) (h : Fin 4) (e : QEntry) (hi : QEntry → Nat) (t : State) : Prop :=
  let b := if e.started = true then (s.harts[h], e) else s.harts[h].beginEntry e
  s.harts[h].entry e.eid = some e ∧ s.mayRun h e = true ∧ e.pend = none ∧ b.2.strips = [] ∧
  ∃ r x, bodyRun h (hi b.2) b.2 ((s.modHart h fun _ => b.1).served h e.post.eng) = (r, x) ∧
    ((∃ u e', r = .done u e' ∧ t = u.entryDone h e' x) ∨ (∃ u e', r = .part u e' ∧ t = u.putEntry h e'))

/-- The event lets the oldest entry with a property run, where its lane groups do not stand apart. -/
def Tries (s : State) (ev : Instr) (h : Fin 4) (p : QEntry → Bool) : Prop :=
  ∀ e t, s.harts[h].queue.find? p = some e → e.apart = false → EntryRuns s h e QEntry.total t → exec ev s = .next t

/-- The event lets the head of an engine's queue run, where its lane groups do not stand apart. -/
def Heads (s : State) (ev : Instr) (h : Fin 4) (g : Engine) : Prop :=
  ∀ e t, s.harts[h].headOf g = some e → e.apart = false → EntryRuns s h e QEntry.total t → exec ev s = .next t

/-- The event lets an entry begin, and its engine has then served the hart (R167). -/
def Begins (s : State) (ev : Instr) (h : Fin 4) (o : Option QEntry) : Prop :=
  ∀ e, o = some e → s.harts[h].entry e.eid = some e → e.started = false → s.mayRun h e = true →
    exec ev s = .next ((s.modHart h fun x => (x.beginEntry e).1).served h e.post.eng)

/-- One vector instruction stands in the queue of hart `h`; lane group `g` is one of those that it captured, and its lanes may take it up. -/
def LoneVector (s : State) (h g : Fin 4) (e : QEntry) : Prop :=
  s.harts[h].queue = [e] ∧ e.post.eng = .vector ∧ (vtGroups e.vtype).getLsbD g.val = true ∧ e.pend = none ∧ e.strips = []

/-- Lane group `g` stands before pass `p` of an instruction, when `done` names what it is through with. -/
def NextPass (s : State) (h g : Fin 4) (e : QEntry) (done : LanePos → Nat) (p : LPass) : Prop :=
  e.passAfter (e.passes (s.feat 7) s.harts[h] g.val) (done (e.at_ g)) = some p ∧ p.whole = false

/-- Bytes `k` to `k + bs.length - 1` of the storage are `bs` in `t`, and every other byte is as in `s`. -/
def BytesWritten (s t : State) (k : Nat) (bs : List Byte) : Prop :=
  (∀ i, i < bs.length → byteAt t (k + i) = bs.getD i 0#8) ∧ ∀ a, a < k ∨ k + bs.length ≤ a → byteAt t a = byteAt s a

/-- No instant of a pending record is still to come. -/
def NoInstants (s : State) : Prop := ∀ g ∈ s.sched.gangs, g.passed = true ∨ g.t * 65536 ≤ s.clock.gtime

/-- The other members of the gang have come to the matrix instruction at the head of the queue. -/
def Joins (s : State) (ev : Instr) (h : Fin 4) (op : MatOp) : Prop :=
  ∀ e t, s.harts[h].headOf .matrix = some e → (∃ a b c d, e.post.body = .mat op a b c d) →
    EntryRuns (s.putEntry h { e with aux := 1 }) h { e with aux := 1 } QEntry.total t → exec ev s = .next t

/-- A packet that meets none of the bars of a home (R67, R74, R76, R78, R104): not too old with its stay, of the device's own domain unless it may cross,
current at the JOB entry of context `c`, and opened to `d`. -/
def AtHome (s : State) (p : Packet) (cross : Bool) (c : Nat) (d : List Byte) : Prop :=
  tooOld p = false ∧ (cross = true ∨ domainOf p.src = domainOf s.fab.epid) ∧ s.homeCtx p = some c ∧ s.openPacket p = some d

/-- A request that a home turns away: a packet against R67 is dropped and counted, one that is too old dropped, and the others answered with the status
of their bar. -/
def TurnsAway (i : Packet → Instr) (ok : Packet → Bool) (cross : Bool) (answer : Packet → Nat → State → State) : Prop :=
  ∀ (s : State) (p : Packet),
    (ok p = false → exec (i p) s = .next (s.dropPacket p)) ∧
    (ok p = true → tooOld p = true → exec (i p) s = .next s) ∧
    (ok p = true → tooOld p = false →
      (cross = false → domainOf p.src ≠ domainOf s.fab.epid → exec (i p) s = .next (answer p 5 s)) ∧
      (cross = true ∨ domainOf p.src = domainOf s.fab.epid →
        (s.homeCtx p = none → exec (i p) s = .next (answer p 4 s)) ∧
        (∀ c, s.homeCtx p = some c → s.openPacket p = none → exec (i p) s = .next (answer p 7 s))))

/-- An answer of the device's own request `o`: it completes it with its status and data. -/
def Completes (i : Packet → Instr) (ok : Packet → Bool) : Prop :=
  ∀ (s : State) (p : Packet), (ok p = false → exec (i p) s = .next (s.dropPacket p)) ∧
    (ok p = true → tooOld p = true → exec (i p) s = .next s) ∧
    (ok p = true → tooOld p = false → s.fab.outstanding.find? (·.tag = p.tag.toNat) = none → exec (i p) s = .next s) ∧
    (∀ o, ok p = true → tooOld p = false → s.fab.outstanding.find? (·.tag = p.tag.toNat) = some o →
      (∀ d, s.openPacket p = some d → exec (i p) s = .next (s.answered o (p.spec16.toNat % 16) d)) ∧
      (s.openPacket p = none → exec (i p) s = .next (s.answered o 7 [])))

/-- The record `rec` is next, of kind `opc`, its header in order, and its zero fields zero but for bytes `lo` to `hi`; the device may process it. -/
def NextIs (s : State) (rec : List Byte) (opc lo hi : Nat) : Prop :=
  s.nextRecord = some rec ∧ sliceNat rec 0 1 = opc ∧ (s.host.state = .ready ∨ opc = 1 ∨ opc = 2 ∨ opc = 7) ∧ headerOk rec = true ∧
  recordZeros rec lo hi = true

end Sys2Proof.Claims

open Sys2Proof Sys2Proof.Machine Sys2Proof.Claims

/-- For every instruction with an encoding, every operand at every value that keeps the field rules of R439, the decoder reads from
the encoder's word exactly that instruction: no bit of an encoding is dropped or read into another field. (R402, R436, R439,
R440) -/
def Obligations.DecodeOfEncode : Prop :=
  ∀ (i : Instr) (w : IWord), i.wf = true → encode i = some w → decodeWord w = .ok i

/-- A word that the decoder accepts is the encoder's word of the instruction read, and that instruction keeps the field rules: each
word has one meaning, and no accepted word has a bit that its instruction does not name. (R404, R436, R439) -/
def Obligations.EncodeOfDecode : Prop :=
  ∀ (w : IWord) (i : Instr), decodeWord w = .ok i → encode i = some w ∧ i.wf = true

/-- The table of reserved words and the decoder agree on every 32-bit word. (R436, R439) -/
def Obligations.ReservedWordsAreThoseWithoutInstruction : Prop :=
  ∀ w : IWord, isReserved w = true ↔ ∃ r, decodeWord w = .error r

/-- Words that the manual prints decode as it says: addi, lhi, ori, add, two loops, tdone, crw, crr, amoadd.d.acq.dom, vrsub, vaadd,
tmop; and the words it calls reserved do not decode. (R436, R441, R452, R463, R464) -/
def Obligations.PrintedWordsDecode : Prop :=
  decodeWord 0x0CA00003#32 = .ok (.addi 5#5 0#5 3#16) ∧
  decodeWord 0x09083800#32 = .ok (.add 8#5 8#5 7#5) ∧
  decodeWord 0x64500003#32 = .ok (.loop 0#1 5#5 3#20) ∧
  decodeWord 0x66600002#32 = .ok (.loop 1#1 6#5 2#20) ∧
  decodeWord 0xC8000005#32 = .ok .tdone ∧
  decodeWord 0x6C064001#32 = .ok (.crw 0#5 6#5 1#12) ∧
  decodeWord 0x6CA00010#32 = .ok (.crr 5#5 0x10#12) ∧
  decodeWord 0x3C6526A0#32 = .ok (.amoadd 3#5 5#5 4#5 1#1 1#1 0#1 5#3) ∧
  decodeWord 0x94000002#32 = .ok (.vrsubVx 0#5 0#5 0#5 0#3) ∧
  decodeWord 0x90221A3C#32 = .ok (.vaaddVv 1#5 2#5 3#5 2#3) ∧
  decodeWord 0xF9214000#32 = .ok (.tmop 1#2 4#5 5#5) ∧
  decodeWord 0x00000000#32 = .error .major ∧ decodeWord 0x74000000#32 = .error .major ∧
  decodeWord 0x90000002#32 = .error .function ∧ decodeWord 0xB40001C0#32 = .error .field

/-- With no arrival and no packet of the device's own pending, a step takes the next word of the core, after what the device does on
its own, decodes it, and is the meaning of the decoded instruction; a word that decodes to none traps ILL; without a word the
step ends in the state the device leaves. The fetch reads the four bytes at the physical place of the program counter, and the
word is their little-endian value. The oldest pending event is executed when it lands now, which is open and holds for each
value of the free choice, and leaves the list; else a packet that the device has sent to itself may be performed (R294), or the
core takes its step (assumption 2). (R8, R401, R436, R165) -/
def Obligations.StepRunsDecodedInstruction : Prop :=
  (∀ s w t i, s.arrivals = [] → s.fab.turned = [] → s.nextWord = .ok (w, t) → decodeWord w = .ok i → step s = exec i t) ∧
  (∀ s w t r, s.arrivals = [] → s.fab.turned = [] → s.nextWord = .ok (w, t) → decodeWord w = .error r → step s = .next (t.ill w)) ∧
  (∀ s t, s.arrivals = [] → s.fab.turned = [] → s.nextWord = .error t → step s = .next t) ∧
  (∀ (s t t' : State) k enc p g bs, s.h.pc.toNat % 4 = 0 →
    s.locate s.whoScalar s.h.pc.toNat 4 .fetch .scalar = .ok (.hbm k enc p g, t) → t.icacheRead t.whoScalar enc k = (some bs, t') →
    s.fetch = .ok (BitVec.ofNat 32 (leNat bs), t')) ∧
  (∀ s e rest, s.arrivals = e :: rest → Config.landsNow s.free = true →
    step s = exec e { s with arrivals := rest, free := s.free + 1 }) ∧
  (∀ s e rest, s.arrivals = e :: rest → Config.landsNow s.free = false →
    step s = State.ownStep { s with free := s.free + 1 }) ∧
  (∀ s, s.arrivals = [] → s.fab.turned ≠ [] → step s =
    if Config.landsNow s.free = true then .next (State.turnBack { s with free := s.free + 1 }) else State.coreStep { s with free := s.free + 1 })

/-- After module reset DEVSTAT.STATE is RESET, the ring counts are zero, no feature is accepted, no context is live, no hart runs
and no lane group is held, device time is FREE with UNC saturated, and every cache and queue is empty. (R87, R118, R119, R120,
R121, R312) -/
def Obligations.ResetLeavesDeviceInReset : Prop :=
  State.reset.host.state = .reset ∧ State.reset.host.crqtail = 0#8 ∧ State.reset.host.crqhead = 0#8 ∧
  State.reset.host.cqprod = 0#8 ∧ State.reset.host.evprod = 0#16 ∧
  (∀ k, State.reset.feat k = false) ∧ State.reset.ctxs = [] ∧
  (∀ i : Fin 4, State.reset.harts[i].status = .idle) ∧
  (∀ g : Fin 4, State.reset.core.lanes[g] = .free) ∧ State.reset.core.matrix = none ∧
  State.reset.timeState = .free ∧ State.reset.uncNow = 0xFFFFF ∧ State.reset.core.dcache = [] ∧ State.reset.core.icache = [] ∧
  State.reset.sched.queue = [] ∧ State.reset.sched.tasks = []

/-- After reset memory lists nothing, so that it has the canonical form and every byte reads as the model's choice for unwritten
memory, zero (assumption 4). (R310) -/
def Obligations.ResetMemoryIsCanonical : Prop :=
  State.reset.mem.wf = true ∧ ∀ k, cellGet State.reset.mem.cells k = 0#8

/-- From every state whose memory lists rising addresses and no zero byte, a step, of an instruction or of an event of any kind,
answers a state whose memory does. Equal memories are therefore equal data. (R296, R317, R327) -/
def Obligations.EveryStepKeepsMemoryCanonical : Prop :=
  ∀ s t : State, s.mem.wf = true → step s = .next t → t.mem.wf = true

/-- On a canonical memory, a write of bytes at a place is read back whole, every byte outside it reads as before, and two canonical
memories that read alike are equal. (R327, R317) -/
def Obligations.StoredBytesReadBack : Prop :=
  (∀ (m : Memory) (k : Nat) (bs : List Byte), m.wf = true → (m.poke k bs).peek k bs.length = bs) ∧
  (∀ (m : Memory) (k a : Nat) (bs : List Byte), m.wf = true → (a < k ∨ k + bs.length ≤ a) →
    cellGet (m.poke k bs).cells a = cellGet m.cells a) ∧
  (∀ m n : Memory, m.wf = true → n.wf = true → (∀ a, cellGet m.cells a = cellGet n.cells a) → m.cells = n.cells)

/-- Each two-operand instruction of major 0x02 writes the value of R443 to its destination, both operands read before the write, and
goes on; division and remainder by zero and the quotient that does not fit give the values of R264, without a trap. clz and ctz
give the number of zero bits above or below the outermost set bit, 64 for zero; popc gives the number of set bits; brev gives
the reversed word. (R443, R264, R442) -/
def Obligations.ScalarAluResults : Prop :=
  ∀ d a b : XNum,
  Writes (.add d a b) [a, b] d (fun s => s.x a + s.x b) ∧
  Writes (.sub d a b) [a, b] d (fun s => s.x a - s.x b) ∧
  Writes (.and d a b) [a, b] d (fun s => s.x a &&& s.x b) ∧
  Writes (.or d a b) [a, b] d (fun s => s.x a ||| s.x b) ∧
  Writes (.xor d a b) [a, b] d (fun s => s.x a ^^^ s.x b) ∧
  Writes (.sll d a b) [a, b] d (fun s => BitVec.ofNat 64 ((s.x a).toNat * 2 ^ ((s.x b).toNat % 64))) ∧
  Writes (.srl d a b) [a, b] d (fun s => BitVec.ofNat 64 ((s.x a).toNat / 2 ^ ((s.x b).toNat % 64))) ∧
  Writes (.sra d a b) [a, b] d (fun s => BitVec.ofInt 64 (signed (s.x a) / 2 ^ ((s.x b).toNat % 64))) ∧
  Writes (.slt d a b) [a, b] d (fun s => asWord (decide (signed (s.x a) < signed (s.x b)))) ∧
  Writes (.sltu d a b) [a, b] d (fun s => asWord (decide ((s.x a).toNat < (s.x b).toNat))) ∧
  Writes (.min d a b) [a, b] d (fun s => BitVec.ofInt 64 (min (signed (s.x a)) (signed (s.x b)))) ∧
  Writes (.max d a b) [a, b] d (fun s => BitVec.ofInt 64 (max (signed (s.x a)) (signed (s.x b)))) ∧
  Writes (.minu d a b) [a, b] d (fun s => BitVec.ofNat 64 (min (s.x a).toNat (s.x b).toNat)) ∧
  Writes (.maxu d a b) [a, b] d (fun s => BitVec.ofNat 64 (max (s.x a).toNat (s.x b).toNat)) ∧
  Writes (.mul d a b) [a, b] d (fun s => BitVec.ofNat 64 ((s.x a).toNat * (s.x b).toNat)) ∧
  Writes (.mulh d a b) [a, b] d (fun s => BitVec.ofInt 64 (signed (s.x a) * signed (s.x b) / 2 ^ 64)) ∧
  Writes (.mulhu d a b) [a, b] d (fun s => BitVec.ofNat 64 ((s.x a).toNat * (s.x b).toNat / 2 ^ 64)) ∧
  Writes (.div d a b) [a, b] d (fun s => divSigned (s.x a) (s.x b)) ∧
  Writes (.divu d a b) [a, b] d (fun s => divUnsigned (s.x a) (s.x b)) ∧
  Writes (.rem d a b) [a, b] d (fun s => remSigned (s.x a) (s.x b)) ∧
  Writes (.remu d a b) [a, b] d (fun s => remUnsigned (s.x a) (s.x b)) ∧
  Writes (.sext d a b) [a, b] d (fun s =>
    let n := (s.x b).toNat % 64
    if n = 0 then s.x a else ((s.x a).setWidth n).signExtend 64) ∧
  Writes (.zext d a b) [a, b] d (fun s =>
    let n := (s.x b).toNat % 64
    if n = 0 then s.x a else ((s.x a).setWidth n).setWidth 64) ∧
  (∀ s : State, Clear s [a] →
  (∃ n, exec (.clz d a) s = .next (s.setX d (BitVec.ofNat 64 n)).retire ∧ n ≤ 64 ∧ (∀ j < n, (s.x a).getLsbD (63 - j) = false) ∧
    (n < 64 → (s.x a).getLsbD (63 - n) = true)) ∧
  (∃ n, exec (.ctz d a) s = .next (s.setX d (BitVec.ofNat 64 n)).retire ∧ n ≤ 64 ∧ (∀ j < n, (s.x a).getLsbD j = false) ∧
    (n < 64 → (s.x a).getLsbD n = true)) ∧
  exec (.popc d a) s = .next (s.setX d (BitVec.ofNat 64 ((List.range 64).countP fun j => (s.x a).getLsbD j))).retire ∧
  (∃ v : Word, exec (.brev d a) s = .next (s.setX d v).retire ∧ ∀ j < 64, v.getLsbD j = (s.x a).getLsbD (63 - j)))

/-- The instructions of majors 0x03 to 0x0B write the values of R444 and R446: immediates are sign-extended for addi, slti, sltiu,
lhi and adpc and zero-extended for the logical ones; adpc adds whole pages to the page of the instruction. (R442, R444, R445,
R446) -/
def Obligations.ScalarImmediateResults : Prop :=
  ∀ (d a : XNum) (i : BitVec 16) (n : BitVec 6),
  Writes (.addi d a i) [a] d (fun s => s.x a + i.signExtend 64) ∧
  Writes (.andi d a i) [a] d (fun s => s.x a &&& i.setWidth 64) ∧
  Writes (.ori d a i) [a] d (fun s => s.x a ||| i.setWidth 64) ∧
  Writes (.xori d a i) [a] d (fun s => s.x a ^^^ i.setWidth 64) ∧
  Writes (.slti d a i) [a] d (fun s => asWord (decide (signed (s.x a) < i.toInt))) ∧
  Writes (.sltiu d a i) [a] d (fun s => asWord (decide ((s.x a).toNat < (i.signExtend 64 : Word).toNat))) ∧
  Writes (.lhi d i) [] d (fun _ => BitVec.ofInt 64 (i.toInt * 65536)) ∧
  Writes (.adpc d i) [] d (fun s => BitVec.ofInt 64 ((s.h.pc.toNat - s.h.pc.toNat % 4096 : Nat) + i.toInt * 4096)) ∧
  Writes (.slli d a n) [a] d (fun s => BitVec.ofNat 64 ((s.x a).toNat * 2 ^ n.toNat)) ∧
  Writes (.srli d a n) [a] d (fun s => BitVec.ofNat 64 ((s.x a).toNat / 2 ^ n.toNat)) ∧
  Writes (.srai d a n) [a] d (fun s => BitVec.ofInt 64 (signed (s.x a) / 2 ^ n.toNat)) ∧
  Writes (.roli d a n) [a] d (fun s => (s.x a).rotateLeft n.toNat)

/-- When an instruction of majors 0x02 to 0x0B that nothing stands in the way of goes on, every register but its destination, every
vector, mask, fibre, special and exception register, every other hart, all of memory and every device unit stand; the program
counter and the loop counts are the loop-end step's. (R442, R443, R444, R446, R462) -/
def Obligations.ScalarResultsLeaveTheRest : Prop :=
  ∀ (d a b : XNum) (i : BitVec 16) (n : BitVec 6) (s : State), s.h.pfxNext = false → s.h.queue = [] →
  ∀ j ∈ ([.add d a b, .sub d a b, .and d a b, .or d a b, .xor d a b, .sll d a b, .srl d a b, .sra d a b, .slt d a b, .sltu d a b, .min d a b,
      .max d a b, .minu d a b, .maxu d a b, .mul d a b, .mulh d a b, .mulhu d a b, .div d a b, .divu d a b, .rem d a b, .remu d a b, .sext d a b,
      .zext d a b, .clz d a, .ctz d a, .popc d a, .brev d a, .addi d a i, .andi d a i, .ori d a i, .xori d a i, .slti d a i, .sltiu d a i,
      .lhi d i, .adpc d i, .slli d a n, .srli d a n, .srai d a n, .roli d a n] : List Instr),
    ∃ t, exec j s = .next t ∧ OnlyReg d s t

/-- A read of x0 gives zero in every state, and an instruction whose destination is x0 leaves every register as it was. (R229, R442) -/
def Obligations.RegisterZeroIsHardWired : Prop :=
  (∀ s : State, s.x 0#5 = 0#64) ∧ (∀ (s : State) (v : Word), s.setX 0#5 v = s) ∧
  (∀ (a b : XNum) (s : State), Clear s [a, b] → exec (.add 0#5 a b) s = .next s.retire) ∧
  (∀ (n m : XNum) (s : State) (v : Word), (s.setX n v).x m = if m = n ∧ n ≠ 0#5 then v else s.x m)

/-- Wherever an instruction completes and would continue at the next address, a scalar one (retire, as addi shows) or a posted one,
the loop-end step runs: level 1 first; while its count stays above zero control returns to LS1; when it reaches zero, or level 1
does not end there, level 0 is treated in the same way; otherwise the hart goes on at the next address. LS and LE stand. (R462) -/
def Obligations.LoopEndStepRule : Prop :=
  (∀ s : State, LoopEnd s.h s.retire.h) ∧ (∀ (h : Hart) (p : Posted), LoopEnd h (h.post p)) ∧
  (∀ (s : State) (d a : XNum) (i : BitVec 16), Clear s [a] → ∃ t, exec (.addi d a i) s = .next t ∧ LoopEnd s.h t.h ∧
    t.h.ls0 = s.h.ls0 ∧ t.h.le0 = s.h.le0 ∧ t.h.ls1 = s.h.ls1 ∧ t.h.le1 = s.h.le1)

/-- Behind a prefix a scalar instruction traps ILL; while a register that it reads is the destination of a queued instruction it
waits, with its operands and destination as they were; x0 is never pending. (R204, R406) -/
def Obligations.ScalarWaitsForPendingRegister : Prop :=
  ∀ (s : State) (d a b : XNum),
  (s.h.pfxNext = true → exec (.add d a b) s = .next (s.ill (wAdd d a b))) ∧
  (s.h.pfxNext = false → s.h.anyPending [a, b] = true → exec (.add d a b) s = .next (s.wait .retry (wAdd d a b))) ∧
  s.h.anyPending [0#5] = false

/-- Each instruction of major 0x0C reads its operands at the width of its format, writes its result zero-extended and raises its
flags in FCSR; those that round use the encoded mode or FCSR.RM. (R230, R272, R273, R274, R276, R277, R278, R280, R447) -/
def Obligations.ScalarFloatingPointResults : Prop :=
  ∀ (s : State) (d a b : XNum) (t f : BitVec 2) (r : BitVec 3) (i : BitVec 4),
  (∀ m, Mode s r m →
    FpWrites (.fadd d a b t r) [a, b] d (fun s => fpAdd (fmtOf t) m (low s a t) (low s b t)) s ∧
    FpWrites (.fsub d a b t r) [a, b] d (fun s => fpSub (fmtOf t) m (low s a t) (low s b t)) s ∧
    FpWrites (.fmul d a b t r) [a, b] d (fun s => fpMul (fmtOf t) m (low s a t) (low s b t)) s ∧
    FpWrites (.fdiv d a b t r) [a, b] d (fun s => fpDiv (fmtOf t) m (low s a t) (low s b t)) s ∧
    FpWrites (.fsqrt d a t r) [a] d (fun s => fpSqrt (fmtOf t) m (low s a t)) s ∧
    FpWrites (.fmadd d a b t r) [a, b, d] d (fun s => fpFma (fmtOf t) m false false (low s a t) (low s b t) (low s d t)) s ∧
    FpWrites (.fcvif d a i t r) [a] d (fun s =>
      intToFp (fmtOf t) m s.h.sat (if itSigned i then sval (itBits i) ((s.x a).toNat % 2 ^ itBits i) else Int.ofNat ((s.x a).toNat % 2 ^ itBits i))) s ∧
    FpWrites (.fcvfi d a i t r) [a] d (fun s =>
      let z := fpToInt (fmtOf t) (itSigned i) (itBits i) m (low s a t)
      (if itSigned i then wrap 64 (sval (itBits i) z.1) else z.1, z.2)) s ∧
    FpWrites (.fcvff d a f t r) [a] d (fun s => fpToFp (fmtOf f) (fmtOf t) m s.h.sat (low s a f)) s) ∧
  FpWrites (.fmin d a b t) [a, b] d (fun s => fpMinMax (fmtOf t) false (low s a t) (low s b t)) s ∧
  FpWrites (.fmax d a b t) [a, b] d (fun s => fpMinMax (fmtOf t) true (low s a t) (low s b t)) s ∧
  FpWrites (.feq d a b t) [a, b] d (fun s => cmpResult (fpCompare (fmtOf t) .eq (low s a t) (low s b t))) s ∧
  FpWrites (.flt d a b t) [a, b] d (fun s => cmpResult (fpCompare (fmtOf t) .lt (low s a t) (low s b t))) s ∧
  FpWrites (.fle d a b t) [a, b] d (fun s => cmpResult (fpCompare (fmtOf t) .le (low s a t) (low s b t))) s ∧
  FpWrites (.fclass d a t) [a] d (fun s => (fpClass (fmtOf t) (low s a t), 0#5)) s ∧
  (rmode r s.h.rm = none → exec (.fadd d a b t r) s = .next (s.ill (wFadd d a b t r)))

/-- Minimum and maximum order minus zero below plus zero, take the number beside a NaN, make two NaNs canonical and raise NV for a
signalling one. Equality, unequal, ordered and unordered raise NV only for a signalling NaN, the ordered comparisons for any;
with a NaN equality and order are false; minus zero equals plus zero. fmin, feq and flt, and the vector forms, use these
operations. (R274, R280) -/
def Obligations.ComparisonsFollowIeeeOrder : Prop :=
  ∀ (f : Fmt) (a b : Nat), a < 2 ^ fmtBits f → b < 2 ^ fmtBits f →
  let x := fpDecode f a
  let y := fpDecode f b
  let sig : Flags := if x.isSNaN = true ∨ y.isSNaN = true then flNV else 0#5
  (∀ mx, (x.isNaN = true → y.isNaN = true → fpMinMax f mx a b = (canonNaN f, sig)) ∧
    (x.isNaN = true → y.isNaN = false → fpMinMax f mx a b = (b, sig)) ∧ (x.isNaN = false → y.isNaN = true → fpMinMax f mx a b = (a, sig)) ∧
    (x.isZero = true → y.isZero = true → a ≠ b → fpMinMax f mx a b = (if mx then (min a b, 0#5) else (max a b, 0#5))) ∧
    (x.isNaN = false → y.isNaN = false → (fpCompare f .lt a b).1 = true → fpMinMax f mx a b = (if mx then b else a, 0#5)) ∧
    (x.isNaN = false → y.isNaN = false → (fpCompare f .lt b a).1 = true → fpMinMax f mx a b = (if mx then a else b, 0#5))) ∧
  (fpCompare f .eq a b).2 = sig ∧ (fpCompare f .ne a b).2 = sig ∧ (fpCompare f .uno a b).2 = sig ∧ (fpCompare f .ord a b).2 = sig ∧
  (x.isNaN = true ∨ y.isNaN = true →
    (fpCompare f .eq a b).1 = false ∧ (fpCompare f .uno a b).1 = true ∧ (fpCompare f .ord a b).1 = false ∧
    ∀ c ∈ ([.lt, .le, .gt, .ge] : List FpRel), fpCompare f c a b = (false, flNV)) ∧
  (x.isZero = true → y.isZero = true →
    fpCompare f .eq a b = (true, 0#5) ∧ (fpCompare f .lt a b).1 = false ∧ (fpCompare f .le a b).1 = true)

/-- Each instruction of majors 0x24 and 0x25, posted at an idle hart under the eager schedule (assumption 1), completes in its step:
every executed element of its destination takes the value of R512 to R515 modulo 2^w, every other element keeps its value, and
nothing else of the machine changes but the sources' layout. (R237, R243, R264, R408, R414, R419, R506, R508, R512, R513, R514,
R515) -/
def Obligations.VectorIntegerResults : Prop :=
  ∀ s : State, let w := width s; let sg := etSigned (vtEt s.h.vtype)
  (∀ (d : BitVec 5) (a : BitVec 5) (b : BitVec 5) (m : BitVec 3) (p : BitVec 2), IntWrites s (.vaddVv d a b m p) (pVaddVv d a b m p) fun a b _ _ => a + b) ∧
  (∀ (d : BitVec 5) (a : BitVec 5) (x : BitVec 5) (m : BitVec 3), IntWrites s (.vaddVx d a x m) (pVaddVx d a x m) fun a b _ _ => a + b) ∧
  (∀ (d : BitVec 5) (a : BitVec 5) (b : BitVec 5) (m : BitVec 3) (p : BitVec 2), IntWrites s (.vsubVv d a b m p) (pVsubVv d a b m p) fun a b _ _ => a + 2 ^ w - b) ∧
  (∀ (d : BitVec 5) (a : BitVec 5) (x : BitVec 5) (m : BitVec 3), IntWrites s (.vsubVx d a x m) (pVsubVx d a x m) fun a b _ _ => a + 2 ^ w - b) ∧
  (∀ (d : BitVec 5) (a : BitVec 5) (x : BitVec 5) (m : BitVec 3), IntWrites s (.vrsubVx d a x m) (pVrsubVx d a x m) fun a b _ _ => b + 2 ^ w - a) ∧
  (∀ (d : BitVec 5) (a : BitVec 5) (b : BitVec 5) (m : BitVec 3) (p : BitVec 2), IntWrites s (.vmulVv d a b m p) (pVmulVv d a b m p) fun a b _ _ => a * b) ∧
  (∀ (d : BitVec 5) (a : BitVec 5) (x : BitVec 5) (m : BitVec 3), IntWrites s (.vmulVx d a x m) (pVmulVx d a x m) fun a b _ _ => a * b) ∧
  (∀ (d : BitVec 5) (a : BitVec 5) (b : BitVec 5) (m : BitVec 3) (p : BitVec 2), IntWrites s (.vmulhVv d a b m p) (pVmulhVv d a b m p) fun a b _ _ => wrap w (sval w a * sval w b / 2 ^ w)) ∧
  (∀ (d : BitVec 5) (a : BitVec 5) (x : BitVec 5) (m : BitVec 3), IntWrites s (.vmulhVx d a x m) (pVmulhVx d a x m) fun a b _ _ => wrap w (sval w a * sval w b / 2 ^ w)) ∧
  (∀ (d : BitVec 5) (a : BitVec 5) (b : BitVec 5) (m : BitVec 3) (p : BitVec 2), IntWrites s (.vmulhuVv d a b m p) (pVmulhuVv d a b m p) fun a b _ _ => a * b / 2 ^ w) ∧
  (∀ (d : BitVec 5) (a : BitVec 5) (x : BitVec 5) (m : BitVec 3), IntWrites s (.vmulhuVx d a x m) (pVmulhuVx d a x m) fun a b _ _ => a * b / 2 ^ w) ∧
  (∀ (d : BitVec 5) (a : BitVec 5) (b : BitVec 5) (m : BitVec 3) (p : BitVec 2), IntWrites s (.vdivVv d a b m p) (pVdivVv d a b m p) fun a b _ _ => wrap w (quotS w a b)) ∧
  (∀ (d : BitVec 5) (a : BitVec 5) (x : BitVec 5) (m : BitVec 3), IntWrites s (.vdivVx d a x m) (pVdivVx d a x m) fun a b _ _ => wrap w (quotS w a b)) ∧
  (∀ (d : BitVec 5) (a : BitVec 5) (b : BitVec 5) (m : BitVec 3) (p : BitVec 2), IntWrites s (.vdivuVv d a b m p) (pVdivuVv d a b m p) fun a b _ _ => if b = 0 then 2 ^ w - 1 else a / b) ∧
  (∀ (d : BitVec 5) (a : BitVec 5) (x : BitVec 5) (m : BitVec 3), IntWrites s (.vdivuVx d a x m) (pVdivuVx d a x m) fun a b _ _ => if b = 0 then 2 ^ w - 1 else a / b) ∧
  (∀ (d : BitVec 5) (a : BitVec 5) (b : BitVec 5) (m : BitVec 3) (p : BitVec 2), IntWrites s (.vremVv d a b m p) (pVremVv d a b m p) fun a b _ _ => wrap w (remS' w a b)) ∧
  (∀ (d : BitVec 5) (a : BitVec 5) (x : BitVec 5) (m : BitVec 3), IntWrites s (.vremVx d a x m) (pVremVx d a x m) fun a b _ _ => wrap w (remS' w a b)) ∧
  (∀ (d : BitVec 5) (a : BitVec 5) (b : BitVec 5) (m : BitVec 3) (p : BitVec 2), IntWrites s (.vremuVv d a b m p) (pVremuVv d a b m p) fun a b _ _ => if b = 0 then 0 else a % b) ∧
  (∀ (d : BitVec 5) (a : BitVec 5) (x : BitVec 5) (m : BitVec 3), IntWrites s (.vremuVx d a x m) (pVremuVx d a x m) fun a b _ _ => if b = 0 then 0 else a % b) ∧
  (∀ (d : BitVec 5) (a : BitVec 5) (b : BitVec 5) (m : BitVec 3) (p : BitVec 2), IntWrites s (.vminVv d a b m p) (pVminVv d a b m p) fun a b _ _ => wrap w (min (sval w a) (sval w b))) ∧
  (∀ (d : BitVec 5) (a : BitVec 5) (x : BitVec 5) (m : BitVec 3), IntWrites s (.vminVx d a x m) (pVminVx d a x m) fun a b _ _ => wrap w (min (sval w a) (sval w b))) ∧
  (∀ (d : BitVec 5) (a : BitVec 5) (b : BitVec 5) (m : BitVec 3) (p : BitVec 2), IntWrites s (.vmaxVv d a b m p) (pVmaxVv d a b m p) fun a b _ _ => wrap w (max (sval w a) (sval w b))) ∧
  (∀ (d : BitVec 5) (a : BitVec 5) (x : BitVec 5) (m : BitVec 3), IntWrites s (.vmaxVx d a x m) (pVmaxVx d a x m) fun a b _ _ => wrap w (max (sval w a) (sval w b))) ∧
  (∀ (d : BitVec 5) (a : BitVec 5) (b : BitVec 5) (m : BitVec 3) (p : BitVec 2), IntWrites s (.vminuVv d a b m p) (pVminuVv d a b m p) fun a b _ _ => min a b) ∧
  (∀ (d : BitVec 5) (a : BitVec 5) (x : BitVec 5) (m : BitVec 3), IntWrites s (.vminuVx d a x m) (pVminuVx d a x m) fun a b _ _ => min a b) ∧
  (∀ (d : BitVec 5) (a : BitVec 5) (b : BitVec 5) (m : BitVec 3) (p : BitVec 2), IntWrites s (.vmaxuVv d a b m p) (pVmaxuVv d a b m p) fun a b _ _ => max a b) ∧
  (∀ (d : BitVec 5) (a : BitVec 5) (x : BitVec 5) (m : BitVec 3), IntWrites s (.vmaxuVx d a x m) (pVmaxuVx d a x m) fun a b _ _ => max a b) ∧
  (∀ (d : BitVec 5) (a : BitVec 5) (b : BitVec 5) (m : BitVec 3) (p : BitVec 2), IntWrites s (.vandVv d a b m p) (pVandVv d a b m p) fun a b _ _ => a &&& b) ∧
  (∀ (d : BitVec 5) (a : BitVec 5) (x : BitVec 5) (m : BitVec 3), IntWrites s (.vandVx d a x m) (pVandVx d a x m) fun a b _ _ => a &&& b) ∧
  (∀ (d : BitVec 5) (a : BitVec 5) (b : BitVec 5) (m : BitVec 3) (p : BitVec 2), IntWrites s (.vorVv d a b m p) (pVorVv d a b m p) fun a b _ _ => a ||| b) ∧
  (∀ (d : BitVec 5) (a : BitVec 5) (x : BitVec 5) (m : BitVec 3), IntWrites s (.vorVx d a x m) (pVorVx d a x m) fun a b _ _ => a ||| b) ∧
  (∀ (d : BitVec 5) (a : BitVec 5) (b : BitVec 5) (m : BitVec 3) (p : BitVec 2), IntWrites s (.vxorVv d a b m p) (pVxorVv d a b m p) fun a b _ _ => a ^^^ b) ∧
  (∀ (d : BitVec 5) (a : BitVec 5) (x : BitVec 5) (m : BitVec 3), IntWrites s (.vxorVx d a x m) (pVxorVx d a x m) fun a b _ _ => a ^^^ b) ∧
  (∀ (d : BitVec 5) (a : BitVec 5) (b : BitVec 5) (m : BitVec 3) (p : BitVec 2), IntWrites s (.vsllVv d a b m p) (pVsllVv d a b m p) fun a b _ _ => a * 2 ^ (b % w)) ∧
  (∀ (d : BitVec 5) (a : BitVec 5) (x : BitVec 5) (m : BitVec 3), IntWrites s (.vsllVx d a x m) (pVsllVx d a x m) fun a b _ _ => a * 2 ^ (b % w)) ∧
  (∀ (d : BitVec 5) (a : BitVec 5) (b : BitVec 5) (m : BitVec 3) (p : BitVec 2), IntWrites s (.vsrlVv d a b m p) (pVsrlVv d a b m p) fun a b _ _ => a / 2 ^ (b % w)) ∧
  (∀ (d : BitVec 5) (a : BitVec 5) (x : BitVec 5) (m : BitVec 3), IntWrites s (.vsrlVx d a x m) (pVsrlVx d a x m) fun a b _ _ => a / 2 ^ (b % w)) ∧
  (∀ (d : BitVec 5) (a : BitVec 5) (b : BitVec 5) (m : BitVec 3) (p : BitVec 2), IntWrites s (.vsraVv d a b m p) (pVsraVv d a b m p) fun a b _ _ => wrap w (sval w a / 2 ^ (b % w))) ∧
  (∀ (d : BitVec 5) (a : BitVec 5) (x : BitVec 5) (m : BitVec 3), IntWrites s (.vsraVx d a x m) (pVsraVx d a x m) fun a b _ _ => wrap w (sval w a / 2 ^ (b % w))) ∧
  (∀ (d : BitVec 5) (a : BitVec 5) (b : BitVec 5) (m : BitVec 3) (p : BitVec 2), IntWrites s (.vsaddVv d a b m p) (pVsaddVv d a b m p) fun a b _ _ => wrap w (max (-(2 ^ (w - 1))) (min (2 ^ (w - 1) - 1) (sval w a + sval w b)))) ∧
  (∀ (d : BitVec 5) (a : BitVec 5) (x : BitVec 5) (m : BitVec 3), IntWrites s (.vsaddVx d a x m) (pVsaddVx d a x m) fun a b _ _ => wrap w (max (-(2 ^ (w - 1))) (min (2 ^ (w - 1) - 1) (sval w a + sval w b)))) ∧
  (∀ (d : BitVec 5) (a : BitVec 5) (b : BitVec 5) (m : BitVec 3) (p : BitVec 2), IntWrites s (.vsadduVv d a b m p) (pVsadduVv d a b m p) fun a b _ _ => min (2 ^ w - 1) (a + b)) ∧
  (∀ (d : BitVec 5) (a : BitVec 5) (x : BitVec 5) (m : BitVec 3), IntWrites s (.vsadduVx d a x m) (pVsadduVx d a x m) fun a b _ _ => min (2 ^ w - 1) (a + b)) ∧
  (∀ (d : BitVec 5) (a : BitVec 5) (b : BitVec 5) (m : BitVec 3) (p : BitVec 2), IntWrites s (.vssubVv d a b m p) (pVssubVv d a b m p) fun a b _ _ => wrap w (max (-(2 ^ (w - 1))) (min (2 ^ (w - 1) - 1) (sval w a - sval w b)))) ∧
  (∀ (d : BitVec 5) (a : BitVec 5) (x : BitVec 5) (m : BitVec 3), IntWrites s (.vssubVx d a x m) (pVssubVx d a x m) fun a b _ _ => wrap w (max (-(2 ^ (w - 1))) (min (2 ^ (w - 1) - 1) (sval w a - sval w b)))) ∧
  (∀ (d : BitVec 5) (a : BitVec 5) (b : BitVec 5) (m : BitVec 3) (p : BitVec 2), IntWrites s (.vssubuVv d a b m p) (pVssubuVv d a b m p) fun a b _ _ => a - b) ∧
  (∀ (d : BitVec 5) (a : BitVec 5) (x : BitVec 5) (m : BitVec 3), IntWrites s (.vssubuVx d a x m) (pVssubuVx d a x m) fun a b _ _ => a - b) ∧
  (∀ (d : BitVec 5) (a : BitVec 5) (m : BitVec 3), IntWrites s (.vabs d a m) (pVabs d a m) fun a _ _ _ => wrap w (Int.ofNat (sval w a).natAbs)) ∧
  (∀ (d : BitVec 5) (a : BitVec 5) (b : BitVec 5) (m : BitVec 3) (p : BitVec 2), IntWrites s (.vmaccVv d a b m p) (pVmaccVv d a b m p) fun a b d _ => d + a * b) ∧
  (∀ (d : BitVec 5) (a : BitVec 5) (x : BitVec 5) (m : BitVec 3), IntWrites s (.vmaccVx d a x m) (pVmaccVx d a x m) fun a b d _ => d + a * b) ∧
  (∀ (d : BitVec 5) (a : BitVec 5) (b : BitVec 5) (m : BitVec 3) (p : BitVec 2), VecWrites s (.vselVv d a b m p) (pVselVv d a b m p) (fun k x => if decide ((s.h.newEntry (pVselVv d a b m p)).prog ≤ k * s.h.vl + x) then
      some (if (s.h.mask m).bit k x then opdA s (pVselVv d a b m p) k x else opdB s (pVselVv d a b m p) k x) else none) 0#5) ∧
  (∀ (d : BitVec 5) (a : BitVec 5) (x : BitVec 5) (m : BitVec 3), VecWrites s (.vselVx d a x m) (pVselVx d a x m) (fun k x => if decide ((s.h.newEntry (pVselVx d a x m)).prog ≤ k * s.h.vl + x) then
      some (if (s.h.mask m).bit k x then opdA s (pVselVx d a x m) k x else opdB s (pVselVx d a x m) k x) else none) 0#5) ∧
  (∀ (d : BitVec 5) (a : BitVec 5) (m : BitVec 3), IntWrites s (.vmvVv d a m) (pVmvVv d a m) fun a _ _ _ => a) ∧
  (∀ (d : BitVec 5) (x : BitVec 5) (m : BitVec 3), IntWrites s (.vmvVx d x m) (pVmvVx d x m) fun _ b _ _ => b) ∧
  (∀ (d : BitVec 5) (a : BitVec 5) (m : BitVec 3), IntWrites s (.vpopc d a m) (pVpopc d a m) fun a _ _ _ => onesIn w a) ∧
  (∀ (d : BitVec 5) (a : BitVec 5) (m : BitVec 3), IntWrites s (.vclz d a m) (pVclz d a m) fun a _ _ _ => if a = 0 then w else w - 1 - Nat.log2 a) ∧
  (∀ (d : BitVec 5) (a : BitVec 5) (m : BitVec 3), VecWrites s (.vpcp d a m) (pVpcp d a m) (fun k x => if executes s (pVpcp d a m) k x then
      some (((List.range x).map fun j => onesIn w (opdA s (pVpcp d a m) k j)).sum) else none) 0#5) ∧
  (∀ (d : BitVec 5) (m : BitVec 3), IntWrites s (.vid d m) (pVid d m) fun _ _ _ x => x) ∧
  (∀ (d : BitVec 5) (a : BitVec 5) (b : BitVec 5) (m : BitVec 3) (p : BitVec 2), IntWrites s (.vextVv d a b m p) (pVextVv d a b m p) fun a b _ _ => if fieldLen w b = 0 then 0 else if sg then wrap w (sval (fieldLen w b) (a / 2 ^ fieldPos w b % 2 ^ fieldLen w b)) else a / 2 ^ fieldPos w b % 2 ^ fieldLen w b) ∧
  (∀ (d : BitVec 5) (a : BitVec 5) (x : BitVec 5) (m : BitVec 3), IntWrites s (.vextVx d a x m) (pVextVx d a x m) fun a b _ _ => if fieldLen w b = 0 then 0 else if sg then wrap w (sval (fieldLen w b) (a / 2 ^ fieldPos w b % 2 ^ fieldLen w b)) else a / 2 ^ fieldPos w b % 2 ^ fieldLen w b) ∧
  (∀ (d : BitVec 5) (a : BitVec 5) (b : BitVec 5) (m : BitVec 3) (p : BitVec 2), IntWrites s (.vinsVv d a b m p) (pVinsVv d a b m p) fun a b d _ => d - d / 2 ^ fieldPos w b % 2 ^ fieldLen w b * 2 ^ fieldPos w b + a % 2 ^ fieldLen w b * 2 ^ fieldPos w b) ∧
  (∀ (d : BitVec 5) (a : BitVec 5) (x : BitVec 5) (m : BitVec 3), IntWrites s (.vinsVx d a x m) (pVinsVx d a x m) fun a b d _ => d - d / 2 ^ fieldPos w b % 2 ^ fieldLen w b * 2 ^ fieldPos w b + a % 2 ^ fieldLen w b * 2 ^ fieldPos w b) ∧
  (∀ (d : BitVec 5) (a : BitVec 5) (b : BitVec 5) (m : BitVec 3) (p : BitVec 2), IntWrites s (.vabsdVv d a b m p) (pVabsdVv d a b m p) fun a b _ _ => if sg then wrap w (Int.ofNat (sval w a - sval w b).natAbs) else max a b - min a b) ∧
  (∀ (d : BitVec 5) (a : BitVec 5) (x : BitVec 5) (m : BitVec 3), IntWrites s (.vabsdVx d a x m) (pVabsdVx d a x m) fun a b _ _ => if sg then wrap w (Int.ofNat (sval w a - sval w b).natAbs) else max a b - min a b)

/-- Each arithmetic instruction of majors 0x26 and 0x27, posted at an idle hart under the eager schedule (assumption 1), completes
in its step: every executed element takes the value of R517 at the format of the element type, rounded under FCSR.RM where it
rounds, and FCSR takes the OR of the flags of the executed elements. (R256, R274, R408, R414, R419, R506, R516, R517, R518,
R519, R525) -/
def Obligations.VectorFloatingPointResults : Prop :=
  ∀ (s : State) (f : Fmt), etFmt (vtEt s.h.vtype) = some f →
  (∀ m : RMode, rmodeOf s.h.rm.toNat = some m →
  (∀ (d : BitVec 5) (a : BitVec 5) (b : BitVec 5) (q : BitVec 3) (p : BitVec 2), FpElems s (.vfaddVv d a b q p) (pVfaddVv d a b q p) fun a b _ => fpAdd f m a b) ∧
  (∀ (d : BitVec 5) (a : BitVec 5) (x : BitVec 5) (q : BitVec 3), FpElems s (.vfaddVx d a x q) (pVfaddVx d a x q) fun a b _ => fpAdd f m a b) ∧
  (∀ (d : BitVec 5) (a : BitVec 5) (b : BitVec 5) (q : BitVec 3) (p : BitVec 2), FpElems s (.vfsubVv d a b q p) (pVfsubVv d a b q p) fun a b _ => fpSub f m a b) ∧
  (∀ (d : BitVec 5) (a : BitVec 5) (x : BitVec 5) (q : BitVec 3), FpElems s (.vfsubVx d a x q) (pVfsubVx d a x q) fun a b _ => fpSub f m a b) ∧
  (∀ (d : BitVec 5) (a : BitVec 5) (x : BitVec 5) (q : BitVec 3), FpElems s (.vfrsubVx d a x q) (pVfrsubVx d a x q) fun a b _ => fpSub f m b a) ∧
  (∀ (d : BitVec 5) (a : BitVec 5) (b : BitVec 5) (q : BitVec 3) (p : BitVec 2), FpElems s (.vfmulVv d a b q p) (pVfmulVv d a b q p) fun a b _ => fpMul f m a b) ∧
  (∀ (d : BitVec 5) (a : BitVec 5) (x : BitVec 5) (q : BitVec 3), FpElems s (.vfmulVx d a x q) (pVfmulVx d a x q) fun a b _ => fpMul f m a b) ∧
  (∀ (d : BitVec 5) (a : BitVec 5) (b : BitVec 5) (q : BitVec 3) (p : BitVec 2), FpElems s (.vfdivVv d a b q p) (pVfdivVv d a b q p) fun a b _ => fpDiv f m a b) ∧
  (∀ (d : BitVec 5) (a : BitVec 5) (x : BitVec 5) (q : BitVec 3), FpElems s (.vfdivVx d a x q) (pVfdivVx d a x q) fun a b _ => fpDiv f m a b) ∧
  (∀ (d : BitVec 5) (a : BitVec 5) (x : BitVec 5) (q : BitVec 3), FpElems s (.vfrdivVx d a x q) (pVfrdivVx d a x q) fun a b _ => fpDiv f m b a) ∧
  (∀ (d : BitVec 5) (a : BitVec 5) (q : BitVec 3), FpElems s (.vfsqrt d a q) (pVfsqrt d a q) fun a _ _ => fpSqrt f m a) ∧
  (∀ (d : BitVec 5) (a : BitVec 5) (b : BitVec 5) (q : BitVec 3) (p : BitVec 2), FpElems s (.vfmaVv d a b q p) (pVfmaVv d a b q p) fun a b d => fpFma f m false false a b d) ∧
  (∀ (d : BitVec 5) (a : BitVec 5) (x : BitVec 5) (q : BitVec 3), FpElems s (.vfmaVx d a x q) (pVfmaVx d a x q) fun a b d => fpFma f m false false a b d) ∧
  (∀ (d : BitVec 5) (a : BitVec 5) (b : BitVec 5) (q : BitVec 3) (p : BitVec 2), FpElems s (.vfmsVv d a b q p) (pVfmsVv d a b q p) fun a b d => fpFma f m false true a b d) ∧
  (∀ (d : BitVec 5) (a : BitVec 5) (x : BitVec 5) (q : BitVec 3), FpElems s (.vfmsVx d a x q) (pVfmsVx d a x q) fun a b d => fpFma f m false true a b d) ∧
  (∀ (d : BitVec 5) (a : BitVec 5) (b : BitVec 5) (q : BitVec 3) (p : BitVec 2), FpElems s (.vfnmaVv d a b q p) (pVfnmaVv d a b q p) fun a b d => fpFma f m true false a b d) ∧
  (∀ (d : BitVec 5) (a : BitVec 5) (x : BitVec 5) (q : BitVec 3), FpElems s (.vfnmaVx d a x q) (pVfnmaVx d a x q) fun a b d => fpFma f m true false a b d) ∧
  (∀ (d : BitVec 5) (a : BitVec 5) (q : BitVec 3), FpElems s (.vfexp2 d a q) (pVfexp2 d a q) fun a _ _ => fpExp2 f m a) ∧
  (∀ (d : BitVec 5) (a : BitVec 5) (q : BitVec 3), FpElems s (.vflog2 d a q) (pVflog2 d a q) fun a _ _ => fpLog2 f m a)) ∧
  (∀ (d : BitVec 5) (a : BitVec 5) (b : BitVec 5) (q : BitVec 3) (p : BitVec 2), FpElems s (.vfminVv d a b q p) (pVfminVv d a b q p) fun a b _ => fpMinMax f false a b) ∧
  (∀ (d : BitVec 5) (a : BitVec 5) (x : BitVec 5) (q : BitVec 3), FpElems s (.vfminVx d a x q) (pVfminVx d a x q) fun a b _ => fpMinMax f false a b) ∧
  (∀ (d : BitVec 5) (a : BitVec 5) (b : BitVec 5) (q : BitVec 3) (p : BitVec 2), FpElems s (.vfmaxVv d a b q p) (pVfmaxVv d a b q p) fun a b _ => fpMinMax f true a b) ∧
  (∀ (d : BitVec 5) (a : BitVec 5) (x : BitVec 5) (q : BitVec 3), FpElems s (.vfmaxVx d a x q) (pVfmaxVx d a x q) fun a b _ => fpMinMax f true a b) ∧
  (∀ (d : BitVec 5) (a : BitVec 5) (q : BitVec 3), FpElems s (.vfabs d a q) (pVfabs d a q) fun a _ _ => (fpAbs f a, 0#5)) ∧
  (∀ (d : BitVec 5) (a : BitVec 5) (q : BitVec 3), FpElems s (.vfneg d a q) (pVfneg d a q) fun a _ _ => (fpNeg f a, 0#5)) ∧
  (∀ (d : BitVec 5) (a : BitVec 5) (q : BitVec 3), FpElems s (.vfrcp d a q) (pVfrcp d a q) fun a _ _ => fpRcp f a) ∧
  (∀ (d : BitVec 5) (a : BitVec 5) (q : BitVec 3), FpElems s (.vfrsqrt d a q) (pVfrsqrt d a q) fun a _ _ => fpRsqrt f a) ∧
  (∀ (d : BitVec 5) (a : BitVec 5) (b : BitVec 5) (q : BitVec 3) (p : BitVec 2), FpElems s (.vfsgnVv d a b q p) (pVfsgnVv d a b q p) fun a b _ => (fpSgn f a b, 0#5)) ∧
  (∀ (d : BitVec 5) (a : BitVec 5) (x : BitVec 5) (q : BitVec 3), FpElems s (.vfsgnVx d a x q) (pVfsgnVx d a x q) fun a b _ => (fpSgn f a b, 0#5)) ∧
  (∀ (d : BitVec 5) (a : BitVec 5) (q : BitVec 3), FpElems s (.vfclass d a q) (pVfclass d a q) fun a _ _ => (fpClass f a, 0#5))

/-- vfsat, posted at an idle hart under the eager schedule (assumption 1), completes in its step: every executed element that is +∞
becomes +largest finite, one that is −∞ becomes −largest finite, a NaN becomes the canonical NaN and a finite value is
unchanged; FCSR is unchanged, no flag being raised. (R283) -/
def Obligations.SaturationRule : Prop :=
  ∀ (s : State) (f : Fmt) (d a : BitVec 5) (q : BitVec 3), etFmt (vtEt s.h.vtype) = some f →
  VecWrites s (.vfsat d a q) (pVfsat d a q)
    (fun k x => if executes s (pVfsat d a q) k x then some (saturated f (opdA s (pVfsat d a q) k x)) else none) 0#5

/-- vcvt converts each executed element to the type of its destination under FCSR.RM, vcvtr under the encoded mode; vdqbs multiplies
each quantised element by the scale of its block, a scale of 0xFF giving the canonical NaN; each completes in its step at an
idle hart under the eager schedule (assumption 1). (R271, R276, R277, R278, R279, R520, R521, R523) -/
def Obligations.VectorConversionResults : Prop :=
  ∀ (s : State) (d a b : BitVec 5) (q r : BitVec 3),
  (∀ m, rmodeOf s.h.rm.toNat = some m → Converts s (.vcvt d a q) (pVcvt d a q) m) ∧
  (∀ m, rmodeOf r.toNat = some m → Converts s (.vcvtr d a r q) (pVcvtr d a r q) m) ∧
  (let p := pVdqbs d a b q
   let et := vtEt s.h.vtype
   let dt : ETCode := if (s.h.vreg d).valid && etArith (s.h.vreg d).et then (s.h.vreg d).et else 13#4
   let rd (n : VNum) : VReg := if n = b then (if n = a then source s n else s.h.vreg n).relaid 4#4 (vtGroups s.h.vtype)
     else if n = a then source s n else s.h.vreg n
   let ok (k x : Nat) : Bool := executes s p k x && decide (x < vlmaxOf (groupCount (vtGroups s.h.vtype)) dt)
   let res (k x : Nat) : Nat × Flags :=
     let sc := (rd b).elem 8 k (x / 256)
     if sc = 0xFF then (canonNaN (fmtEt dt), 0#5)
     else cvtVal (fmtEt dt) .rne s.h.sat (scaleVal (fpDecode (fmtEt et) (srcElem s a k x)) (Int.ofNat sc - 127))
   VecWritesAt s (.vdqbs d a b q) p dt rd (fun k x => if ok k x then some (res k x).1 else none) (flagsOf s ok fun k x => (res k x).2))

/-- vcmp writes the bit of every executed element by its condition and type: signed, unsigned, IEEE with flags, or the NaN-low
order, where a NaN operand sets GATEF; other bits keep their values. (R246, R274, R280, R414, R530, R531) -/
def Obligations.VectorComparisonResults : Prop :=
  ∀ (s : State) (d m c : BitVec 3) (a b x : BitVec 5) (p t : BitVec 2),
  let Cmp (i : Instr) (q : Posted) : Prop :=
    let et := vtEt s.h.vtype
    let r (k e : Nat) : Bool × Flags := cmpElem c t et (opdA s q k e) (opdB s q k e)
    let isn (n : Nat) : Prop := (fpDecode (fmtEt et) n).isNaN = true
    MaskWrites s i q d (fun k e => if executes s q k e then some (r k e).1 else none) (flagsOf s (executes s q) fun k e => (r k e).2)
      (t = 3#2 ∧ ∃ k e, k < s.h.vrows ∧ e < s.h.vl ∧ executes s q k e = true ∧ (isn (opdA s q k e) ∨ isn (opdB s q k e)))
  Cmp (.vcmpVv d a b m p c t) (pVcmpVv d a b m p c t) ∧ Cmp (.vcmpVx d a x m c t) (pVcmpVx d a x m c t)

/-- The logical mask instructions write their function of the source bits to every active bit of the captured shape; mbefore, mincl
and monly mark the positions before, up to and at the first active set bit; vtom writes whether an element is non-zero; every
other bit and mask stands. (R246, R408, R527, R532, R533) -/
def Obligations.MaskInstructionResults : Prop :=
  ∀ (s : State) (d a b m : BitVec 3) (v : BitVec 5),
  let A (k x : Nat) : Bool := (s.h.mask a).bit k x
  let B (k x : Nat) : Bool := (s.h.mask b).bit k x
  MaskBits s (.mand d a b m) (pMand d a b m) d (fun k x => A k x && B k x) ∧
  MaskBits s (.mor d a b m) (pMor d a b m) d (fun k x => A k x || B k x) ∧
  MaskBits s (.mxor d a b m) (pMxor d a b m) d (fun k x => A k x ^^ B k x) ∧
  MaskBits s (.mandn d a b m) (pMandn d a b m) d (fun k x => A k x && !B k x) ∧
  MaskBits s (.mnot d a m) (pMnot d a m) d (fun k x => !A k x) ∧
  MaskBits s (.mmv d a m) (pMmv d a m) d A ∧
  MaskBits s (.mset d m) (pMset d m) d (fun _ _ => true) ∧
  MaskBits s (.mclr d m) (pMclr d m) d (fun _ _ => false) ∧
  (∀ n, firstHit s (pMbefore d a m) a n → MaskBits s (.mbefore d a m) (pMbefore d a m) d (fun k x => decide (k * s.h.vl + x < n))) ∧
  (∀ n, firstHit s (pMincl d a m) a n → MaskBits s (.mincl d a m) (pMincl d a m) d (fun k x => decide (k * s.h.vl + x ≤ n))) ∧
  (∀ n, firstHit s (pMonly d a m) a n → MaskBits s (.monly d a m) (pMonly d a m) d (fun k x => decide (k * s.h.vl + x = n))) ∧
  MaskBits s (.vtom d v m) (pVtom d v m) d (fun k x =>
    match etFmt (vtEt s.h.vtype) with
    | some f => !(fpDecode f (srcElem s v k x)).isZero
    | none => srcElem s v k x != 0)

/-- mpop writes the number of active set bits of the captured shape; mfirst and mlast the lowest and highest tile index of one, or
all ones; mtov writes 1 or 0 of the element type to each active element. At an idle hart under the eager schedule (assumption 1)
they complete in their step. (R204, R231, R408, R527, R533) -/
def Obligations.MaskScalarResults : Prop :=
  ∀ (s : State) (d : BitVec 5) (a m : BitVec 3),
  let n := s.h.vl * s.h.vrows
  let hit (p : Posted) (t : Nat) : Bool := activeAt s p (t / s.h.vl) (t % s.h.vl) && (s.h.mask a).bit (t / s.h.vl) (t % s.h.vl)
  let Gives (i : Instr) (p : Posted) (v : Word → Prop) : Prop :=
    Runs s p → ∃ t w, v w ∧ exec i s = .next t ∧ t.h.x = xPut s.h.x d w ∧ PostedFrame s t (fun h => { h with x := s.h.x }) ∧
      t.h.v = s.h.v ∧ t.h.fcsr = s.h.fcsr
  Gives (.mpop d a m) (pMpop d a m) (fun w => w = BitVec.ofNat 64 ((List.range n).countP (hit (pMpop d a m)))) ∧
  Gives (.mfirst d a m) (pMfirst d a m) (fun w =>
    (∃ t < n, w = BitVec.ofNat 64 t ∧ hit (pMfirst d a m) t = true ∧ ∀ u < t, hit (pMfirst d a m) u = false) ∨
    (w = BitVec.allOnes 64 ∧ ∀ u < n, hit (pMfirst d a m) u = false)) ∧
  Gives (.mlast d a m) (pMlast d a m) (fun w =>
    (∃ t < n, w = BitVec.ofNat 64 t ∧ hit (pMlast d a m) t = true ∧ ∀ u < n, t < u → hit (pMlast d a m) u = false) ∨
    (w = BitVec.allOnes 64 ∧ ∀ u < n, hit (pMlast d a m) u = false)) ∧
  VecWrites s (.mtov d a m) (pMtov d a m) (fun k x => if activeAt s (pMtov d a m) k x then
    some (if (s.h.mask a).bit k x then oneOf (vtEt s.h.vtype) else 0) else none) 0#5

/-- Each permute writes the active elements of its destination with the source element that R534 names, reading 0 at or above VL;
vcompress packs the active elements to the front and leaves the elements above them. (R506, R527, R534) -/
def Obligations.PermuteResults : Prop :=
  ∀ (s : State) (d a b x : BitVec 5) (m : BitVec 3),
  let sh := (s.x x).toNat
  VecWrites s (.vcompress d a m) (pVcompress d a m) (fun k e =>
    if (s.h.newEntry (pVcompress d a m)).prog / s.h.vl ≤ k then
      (((List.range s.h.vl).filter fun j => activeAt s (pVcompress d a m) k j)[e]?).map (srcElem s a k) else none) 0#5 ∧
  Permutes s (.vexpand d a m) (pVexpand d a m) (fun k e => rowElem s a k (activesBelow s (pVexpand d a m) k e)) ∧
  Permutes s (.vrev d a m) (pVrev d a m) (fun k e => rowElem s a k (s.h.vl - 1 - e)) ∧
  Permutes s (.vtr d a m) (pVtr d a m) (fun k e => srcElem s a e k) ∧
  Permutes s (.vunzip d a m) (pVunzip d a m) (fun k e =>
    rowElem s a k (if e < (s.h.vl + 1) / 2 then 2 * e else 2 * (e - (s.h.vl + 1) / 2) + 1)) ∧
  Permutes s (.vzip d a b m) (pVzip d a b m) (fun k e => if e % 2 = 0 then rowElem s a k (e / 2) else srcElem s b k (e / 2)) ∧
  VecWrites s (.vslideup d a x m) (pVslideup d a x m) (fun k e =>
    if (s.h.newEntry (pVslideup d a x m)).prog / s.h.vl ≤ k ∧ activeAt s (pVslideup d a x m) k e = true ∧ sh ≤ e then
      some (rowElem s a k (e - sh)) else none) 0#5 ∧
  Permutes s (.vslidedn d a x m) (pVslidedn d a x m) (fun k e => rowElem s a k (e + sh)) ∧
  Permutes s (.vrowmv d a x m) (pVrowmv d a x m) (fun k e => srcElem s a ((k + sh) % 16) e)

/-- vgath writes to each active element the source element that its index names, 0 at or above VL; the index is read at the integer
type of its register, or at the unsigned type of the element width. vrelay gives its register the captured type and lane map and
changes no other register. (R243, R534, R535) -/
def Obligations.GatherAndRelayResults : Prop :=
  ∀ (s : State) (d a b : BitVec 5) (m : BitVec 3),
  (let p := pVgath d a b m
   let et := vtEt s.h.vtype
   let b1 : VReg := if b = a then source s b else s.h.vreg b
   let it : ETCode := if b1.valid = false then zType (etBits et) else if etFloat b1.et = false then b1.et
     else if etBits et = 4 then 15#4 else zType (etBits et)
   let vi := b1.relaid it (vtGroups s.h.vtype)
   VecWritesAt s (.vgath d a b m) p et (fun n => if n = a then source s n else if n = b then vi else s.h.vreg n)
     (fun k e => if (s.h.newEntry p).prog / s.h.vl ≤ k ∧ activeAt s p k e = true then some (rowElem s a k (vi.elem (etBits it) k e)) else none) 0#5) ∧
  (Runs s (pVrelay d) → ∃ t, exec (.vrelay d) s = .next t ∧ PostedFrame s t id ∧ t.h.fcsr = s.h.fcsr ∧
    ∀ n, t.h.vreg n = if n = d then source s n else s.h.vreg n)

/-- Without segments an integer reduction writes to element 0 of each row the combination of the initial value and the row's active
elements, or the identity where there is none; an inclusive or exclusive scan writes to each active element the sum of the
initial value and the active elements up to or before it. The fixed tree gives what the combination in index order gives. (R107,
R289, R527, R537, R539, R540) -/
def Obligations.IntegerReductionResults : Prop :=
  ∀ (s : State) (d a b : BitVec 5) (m : BitVec 3), let w := width s
  Reduces s (.vredsum d a b m) (pVredsum d a b m) (fun l => l.sum) ∧
  Reduces s (.vredsumt d a b m) (pVredsumt d a b m) (fun l => l.sum) ∧
  Reduces s (.vredmin d a b m) (pVredmin d a b m) (combine (2 ^ (w - 1) - 1) fun x y => wrap w (min (sval w x) (sval w y))) ∧
  Reduces s (.vredmax d a b m) (pVredmax d a b m) (combine (2 ^ (w - 1)) fun x y => wrap w (max (sval w x) (sval w y))) ∧
  Reduces s (.vredminu d a b m) (pVredminu d a b m) (combine (2 ^ w - 1) min) ∧
  Reduces s (.vredmaxu d a b m) (pVredmaxu d a b m) (combine 0 max) ∧
  Reduces s (.vredand d a b m) (pVredand d a b m) (combine (2 ^ w - 1) fun x y => x &&& y) ∧
  Reduces s (.vredor d a b m) (pVredor d a b m) (combine 0 fun x y => x ||| y) ∧
  Reduces s (.vredxor d a b m) (pVredxor d a b m) (combine 0 fun x y => x ^^^ y) ∧
  (s.h.vseg.getLsbD 3 = false →
    (let p := pVscan d a b m
     VecWrites s (.vscan d a b m) p (fun k x => if (s.h.newEntry p).prog / s.h.vl ≤ k ∧ activeAt s p k x = true then
       some ((if b = 0#5 then 0 else srcElem s b k 0) + (((List.range (x + 1)).filter fun j => activeAt s p k j).map fun j => srcElem s a k j).sum)
       else none) 0#5) ∧
    (let p := pVscanx d a b m
     VecWrites s (.vscanx d a b m) p (fun k x => if (s.h.newEntry p).prog / s.h.vl ≤ k ∧ activeAt s p k x = true then
       some ((if b = 0#5 then 0 else srcElem s b k 0) + (((List.range x).filter fun j => activeAt s p k j).map fun j => srcElem s a k j).sum)
       else none) 0#5))

/-- Without segments, vfredsum writes to element 0 of each row the sum of the initial value and the active elements in index order,
each addition rounded under FCSR.RM, a NaN made canonical, zero where there is none; the flags of every addition are raised.
(R268, R274, R288, R537, R539) -/
def Obligations.OrderedFloatingPointSum : Prop :=
  ∀ (s : State) (d a b : BitVec 5) (q : BitVec 3) (f : Fmt) (m : RMode), etFmt (vtEt s.h.vtype) = some f → rmodeOf s.h.rm.toNat = some m →
  s.h.vseg.getLsbD 3 = false →
  let p := pVfredsum d a b q
  let row (k x : Nat) : Bool := decide ((s.h.newEntry p).prog / s.h.vl ≤ k) && x == 0
  VecWrites s (.vfredsum d a b q) p (fun k x => if row k x then
      some (let r := (orderedSum f m (redInput s p k)).1; if (fpDecode f r).isNaN then canonNaN f else r) else none)
    (flagsOf s row fun k _ => (orderedSum f m (redInput s p k)).2)

/-- On inputs whose coordinates rise, from VSTART 0, with room for the first input, fisect writes for each coordinate that both hold
the combination of the two values, and fdiff the entries of the first input whose coordinate the second does not hold, in rising
order, at the type of the first input. (R547, R548, R553) -/
def Obligations.FibreIntersectionAndDifference : Prop :=
  ∀ (s : State) (d a b : BitVec 4) (c : BitVec 5),
  let as := fibreIn s a
  let bs := fibreIn s b
  let et := fibreType s a
  s.h.vstart = 0#32 → Rising as → Rising bs → as.length ≤ fmaxOf et (vtGroups s.h.vtype) →
  (Runs s (pFisect d a b c) → ∃ t, exec (.fisect d a b c) s = .next t ∧ FibreFrame s t [d, a, b] ∧ (∀ n, t.h.vreg n = s.h.vreg n) ∧ (t.h.freg d).et = et ∧
    (t.h.freg d).read = as.filterMap fun x => (bs.find? fun y => y.1 == x.1).map fun y =>
      (x.1, (fibCombine c.toNat et x.2 (y.2 % 2 ^ etBits et)).1 % 2 ^ etBits et)) ∧
  (Runs s (pFdiff d a b) → ∃ t, exec (.fdiff d a b) s = .next t ∧ FibreFrame s t [d, a, b] ∧ KeepsV s t [] ∧ (t.h.freg d).et = et ∧
    (t.h.freg d).read = as.filter fun x => !bs.any fun y => y.1 == x.1)

/-- fmv gives fd the entries of its input; fclr leaves fd empty at the captured type; focc writes the number of entries; fcoord and
fval write coordinate or value of each entry below VL to row 0 of vd. (R248, R548, R557) -/
def Obligations.FibreMovesAndCounts : Prop :=
  ∀ (s : State) (d f : BitVec 4) (v x : BitVec 5),
  (Runs s (pFmv d f) → ∃ t, exec (.fmv d f) s = .next t ∧ FibreFrame s t [d, f] ∧ KeepsV s t [] ∧ (t.h.freg d).read = fibreIn s f) ∧
  (Runs s (pFclr d) → ∃ t, exec (.fclr d) s = .next t ∧ FibreFrame s t [d] ∧ KeepsV s t [] ∧ (t.h.freg d).read = [] ∧ (t.h.freg d).valid = true ∧ (t.h.freg d).et = vtEt s.h.vtype) ∧
  (Runs s (pFocc f x) → ∃ t, exec (.focc f x) s = .next t ∧ KeepsV s t [] ∧ t.mem = s.mem ∧ (∀ n, n ≠ f → t.h.freg n = s.h.freg n) ∧ t.h.x = xPut s.h.x x (BitVec.ofNat 64 (fibreIn s f).length)) ∧
  (Runs s (pFcoord f v) → ∃ t, exec (.fcoord f v) s = .next t ∧ FibreFrame s t [f] ∧ KeepsV s t [v] ∧
    ∀ e, e < s.h.vl → e < vlmaxOf (groupCount (vtGroups s.h.vtype)) 6#4 → (e + 1) * 32 ≤ 8192 → e < (fibreIn s f).length →
      (t.h.vreg v).elem 32 0 e = ((fibreIn s f).getD e (0, 0)).1) ∧
  (Runs s (pFval f v) → ∃ t, exec (.fval f v) s = .next t ∧ FibreFrame s t [f] ∧ KeepsV s t [v] ∧
    let et := fibreType s f
    ∀ e, e < s.h.vl → e < vlmaxOf (groupCount (vtGroups s.h.vtype)) et → (e + 1) * etBits et ≤ 8192 → e < (fibreIn s f).length →
      (t.h.vreg v).elem (etBits et) 0 e = ((fibreIn s f).getD e (0, 0)).2)

/-- Posted at an idle hart under the eager schedule (assumption 1), each set operation, pack, strip and level access of majors 0x2D
and 0x2E and each outer product, tile load and store and gang instruction of major 0x2F completes in its step: a fibre result
takes the entries of the pseudocode up to FMAX, an overflow sets FOVF and leaves its cursors in VSTART, an accumulator takes its
steps in turn, and a level or a tile in plain storage is read or written; nothing else changes. mgang and mgsync complete so
alone, or with nothing to do. (R285, R547, R548, R551, R553, R554, R555, R560, R561, R562, R572, R577) -/
def Obligations.FibreAndMatrixInstructionsComplete : Prop :=
  ∀ (s : State) (d a b2 : BitVec 4) (v b x c5 : BitVec 5) (m r c f : BitVec 3) (n : BitVec 2) (a2 : BitVec 4),
  (let et := fibreType s a
   let as := fibreIn s a
   let bs := (fibreIn s b2).map fun y => (y.1, y.2 % 2 ^ etBits et)
   let i0 := s.h.vstart.toNat % 65536
   let j0 := s.h.vstart.toNat / 65536
   let walk := fun fa fb fe side => setWalk fa fb fe side (as.length + bs.length) i0 j0 (as.drop i0) (bs.drop j0)
   let comb := fun x y => ([(x.1, (fibCombine c5.toNat et x.2 y.2).1)], (fibCombine c5.toNat et x.2 y.2).2)
   let none_ (_ : Nat × Nat) : List (Nat × Nat) := []
   let self_ (x : Nat × Nat) : List (Nat × Nat) := [x]
   let order (x y : Nat × Nat) : Ordering := compare x.1 y.1
   let act (p : Posted) (j : Nat) : Bool := activeAt s p 0 j
   let zero (v : Nat) : Bool := match etFmt et with | some f => (fpDecode f v).isZero | none => v == 0
   FibWrites s (.fisect d a b2 c5) (pFisect d a b2 c5) d [a, b2] et (walk none_ none_ comb order) ∧
   FibWrites s (.funion d a b2 c5) (pFunion d a b2 c5) d [a, b2] et (walk self_ self_ comb order) ∧
   FibWrites s (.fdiff d a b2) (pFdiff d a b2) d [a, b2] et (walk self_ none_ (fun _ _ => ([], 0#5)) order) ∧
   FibWrites s (.fmerge d a b2 c5) (pFmerge d a b2 c5) d [a, b2] et (walk self_ self_ comb fun x y =>
     if x.1 ≠ y.1 then order x y
     else if c5 = 3#5 ∨ (c5 = 4#5 ∧ fibRank et y.2 x.2 < 0) ∨ (c5 = 5#5 ∧ 0 < fibRank et y.2 x.2) then .gt else .lt) ∧
   FibWrites s (.fisectb d a b2) (pFisectb d a b2) d [a, b2] 6#4 (walk none_ none_ (fun x y => (bitPairs x y, 0#5)) order) ∧
   (∀ l : List (Nat × Nat), l.Pairwise (fun x y => x.1 ≤ y.1) → (∀ k, l.filter (fun x => x.1 == k) = as.filter fun x => x.1 == k) →
     FibWrites s (.fsort d a) (pFsort d a) d [a] et [(0, l, 0#5)]) ∧
   FibWrites s (.fcompact d a m) (pFcompact d a m) d [a] et
     ((as.zipIdx.filter fun x => decide (i0 ≤ x.2) && act (pFcompact d a m) x.2 && !zero x.1.2).map fun x => (x.2, [x.1], 0#5)) ∧
   FibWrites s (.fdedup d a c5) (pFdedup d a c5) d [a] et (runsOf c5.toNat et as i0) ∧
   (let p := pFpack d m v
    FibWrites s (.fpack d m v) p d [] (vtEt s.h.vtype) (((List.range s.h.vl).filter fun e => decide (i0 ≤ e) && act p e).map fun e => (e, [(e, srcElem s v 0 e)], 0#5))) ∧
   (let bit (t : Nat) : Bool := (((source s v).elem 64 0 (t / 64)).testBit (t % 64))
    FibWrites s (.fbm d v) (pFbm d v) d [] 6#4 (((List.range (64 * s.h.vl)).filter fun t => decide (i0 ≤ t) && bit t).map fun t =>
      (t, [(t, (List.range t).countP bit)], 0#5))) ∧
   (Runs s (pFexpand a v) → ∃ t, exec (.fexpand a v) s = .next t ∧ FibreFrame s t [a] ∧ KeepsV s t [v] ∧
     ∀ e, e < s.h.vl → e < vlmaxOf (groupCount (vtGroups s.h.vtype)) et → (e + 1) * etBits et ≤ 8192 →
       (t.h.vreg v).elem (etBits et) 0 e = (match (as.filter fun x => x.1 == e).getLast? with | some x => x.2 | none => 0)) ∧
   (m ≠ 0#3 → Runs s (pFsetl a m x) → let mx := vlmaxOf (groupCount (vtGroups s.h.vtype)) (vtEt s.h.vtype)
     let q := stripOf mx ((as.drop i0).map fun y => y.2) j0 0
     ∃ t, exec (.fsetl a m x) s = .next t ∧ PostedFrame s t (fun h => { h with f := s.h.f, estatus := s.h.estatus, m := s.h.m, vl := s.h.vl, vseg := s.h.vseg, x := s.h.x }) ∧
       t.h.v = s.h.v ∧ t.h.fcsr = s.h.fcsr ∧ t.h.vl = q.2.2.1 ∧ t.h.vseg = 1#1 ++ m ∧
       t.h.x = xPut s.h.x x (BitVec.ofNat 64 (i0 + q.1 + 2 ^ 16 * q.2.1 + 2 ^ 32 * q.1 + (if q.2.2.2.1 = true then 2 ^ 62 else 0) + (if 0 < j0 then 2 ^ 63 else 0))) ∧
       (∀ n, n ≠ m → t.h.mask n = s.h.mask n) ∧
       ∀ k e, k < 16 → e < 2048 → (t.h.mask m).bit k e = if k = 0 ∧ e < mx then decide (e ∈ q.2.2.2.2) else (s.h.mask m).bit k e)) ∧
  (∀ v : PlacedLevel, let p := pFld d a2
    let q0 := s.h.vstart.toNat
    let k := (s.h.newEntry p).opb.toNat
    let st := v.pos s k
    let n := if k < v.desc.npos then v.pos s (k + 1) - st else 0
    Runs s p → Quiet s → v.placed s p .vector noByte → (k < v.desc.npos → v.posAt s noByte k ∧ v.posAt s noByte (k + 1)) →
    (∀ q, q0 ≤ q → q < n → q < q0 + fmaxOf v.type (vtGroups s.h.vtype) → v.crdAt s noByte .load .vector (st + q) ∧ Sound s (v.kc (st + q)) 4 ∧
      v.valAt s noByte .load .vector (st + q) ∧ (v.desc.val ≠ 0 → Sound s (v.kv (st + q)) v.size)) →
    ∃ t, exec (.fld d a2) s = .next t ∧ FibResult s t p d [] v.type
      ((List.range (n - q0)).map fun o => (q0 + o, [(v.crd s (st + (q0 + o)), v.val s (st + (q0 + o)))], 0#5)) true) ∧
  (∀ v : PlacedLevel, let p := pFst a a2
    let es := fibreIn s a
    let j0 := s.h.vstart.toNat % 65536
    let d0 := s.h.vstart.toNat / 65536
    let k := (s.h.newEntry p).opb.toNat
    let st := v.pos s k + d0
    let room := v.pos s (k + 1) - v.pos s k - d0
    let n := if k < v.desc.npos then min (es.length - j0) room else 0
    let w := etBits v.desc.et
    let first (o : Nat) : Nat := 2 * v.kv (st + o) + (if w = 4 then (st + o) % 2 else 0)
    let inCrd (o q : Nat) : Prop := o < n ∧ 2 * v.kc (st + o) ≤ q ∧ q < 2 * v.kc (st + o) + 8
    let inVal (o q : Nat) : Prop := o < n ∧ v.desc.val ≠ 0 ∧ first o ≤ q ∧ q < first o + w / 4
    let D (x : Nat) : Prop := ∃ o, inCrd o (2 * x) ∨ inVal o (2 * x) ∨ inVal o (2 * x + 1)
    Runs s p → Quiet s → v.placed s p .vector D → (k < v.desc.npos → v.posAt s D k ∧ v.posAt s D (k + 1)) →
    (∀ o, o < n → v.crdAt s D .store .vector (st + o) ∧ v.valAt s D .store .vector (st + o) ∧
      (w = 4 → v.valAt s D .load .vector (st + o) ∧ (v.desc.val ≠ 0 → Sound s (v.kv (st + o)) 1))) →
    (∀ o j q, (inCrd o q → ¬ inVal j q) ∧ (inCrd o q → inCrd j q → o = j) ∧ (inVal o q → inVal j q → o = j)) →
    ∃ t, exec (.fst a a2) s = .next t ∧ MemFrame s t (fun h => { h with f := s.h.f, estatus := s.h.estatus }) ∧ t.h.v = s.h.v ∧
      (∀ n, t.h.freg n = if n = a then ((s.h.freg a).relaid (vtGroups s.h.vtype)).1 else s.h.freg n) ∧
      t.h.estatus = s.h.estatus ||| (if lossy s a = true ∨ (k < v.desc.npos ∧ room < es.length - j0) then 4#3 else 0#3) ∧
      ∀ q, (∀ o, inCrd o q → nibAt t q = (es.getD (j0 + o) (0, 0)).1 / 16 ^ (q - 2 * v.kc (st + o)) % 16) ∧
        (∀ o, inVal o q → nibAt t q = (es.getD (j0 + o) (0, 0)).2 % 2 ^ w / 16 ^ (q - first o) % 16) ∧
        ((∀ o, ¬ inCrd o q ∧ ¬ inVal o q) → nibAt t q = nibAt s q)) ∧
  (∀ v : PlacedLevel, let p := pFwalk d a a2
    let es := fibreIn s a
    let key := (s.h.newEntry p).opb.toNat % 2 ^ 32
    let found (x : Nat) : Option Nat :=
      let q := lowerBound (v.crd s) key 65 (v.pos s x) (v.pos s (x + 1))
      if x < v.desc.npos ∧ q < v.pos s (x + 1) ∧ v.crd s q = key then some (v.val s q) else none
    Runs s p → Quiet s → v.placed s p .engine noByte →
    (∀ y ∈ es, y.2 < v.desc.npos → v.posAt s noByte y.2 ∧ v.posAt s noByte (y.2 + 1) ∧
      ∀ q, v.pos s y.2 ≤ q → q < v.pos s (y.2 + 1) → v.crdAt s noByte .load .pointer q ∧ Sound s (v.kc q) 4 ∧
        v.valAt s noByte .load .engine q ∧ (v.desc.val ≠ 0 → Sound s (v.kv q) v.size)) →
    ∃ t, exec (.fwalk d a a2) s = .next t ∧ FibResult s t p d [a] v.type
      ((es.zipIdx.filter fun x => decide (s.h.vstart.toNat % 65536 ≤ x.2)).filterMap fun x => (found x.1.2).map fun y => (x.2, [(x.1.1, y)], 0#5)) true) ∧
  OuterWrites s (.mopo n v b r c f) (pMopo n v b r c f) .opo n v b r c f false ∧
  OuterWrites s (.mopob n v b r c f) (pMopob n v b r c f) .opo n v b r c f true ∧
  OuterWrites s (.mopr n v b r c f) (pMopr n v b r c f) .opr n v b r c f false ∧
  OuterWrites s (.moprb n v b r c f) (pMoprb n v b r c f) .opr n v b r c f true ∧
  (∀ g : BitVec 1, OuterWrites s (.mopi n v b r c g) (pMopi n v b r c g) .opi n v b r c (3#2 ++ g) false) ∧
  OuterWrites s (.mops n v b r c f) (pMops n v b r c f) .ops n v b r c f false ∧
  OuterWrites s (.mopsb n v b r c f) (pMopsb n v b r c f) .ops n v b r c f true ∧
  (∀ key : Nat → Nat → Nat, let p := pMld n v b
    let inside (x y : Nat) : Prop := x < s.h.mr ∧ y < s.h.mc
    Runs s p → Quiet s → (∀ x y, inside x y → PlainAt s s.h.level noByte (regionVa s p x y) 4 .load .engine (key x y) ∧ Sound s (key x y) 4) →
    ∃ t, exec (.mld n v b) s = .next t ∧ MemFrame s { t with core := { t.core with tiles := s.core.tiles } } (fun h => { h with mstat := s.h.mstat }) ∧ t.h.v = s.h.v ∧
      t.h.mstat = s.h.mstat ||| tiuBit n ∧ (∀ a, byteAt t a = byteAt s a) ∧ (∀ q, q ≠ n → t.core.tile q = s.core.tile q) ∧
      ∀ x y, x < 128 → y < 128 → (inside x y → (t.core.tile n).get x y = leNat (s.mem.peek (key x y) 4)) ∧
        (¬ inside x y → (t.core.tile n).get x y = (s.core.tile n).get x y)) ∧
  (∀ key : Nat → Nat → Nat, let p := pMst n v b
    let inside (x y : Nat) : Prop := x < s.h.mr ∧ y < s.h.mc
    let D (a : Nat) : Prop := ∃ x y, inside x y ∧ key x y ≤ a ∧ a < key x y + 4
    Runs s p → Quiet s → (∀ x y, inside x y → PlainAt s s.h.level D (regionVa s p x y) 4 .store .engine (key x y)) →
    (∀ x y i j, inside x y → inside i j → (x, y) = (i, j) ∨ key x y + 4 ≤ key i j ∨ key i j + 4 ≤ key x y) →
    ∃ t, exec (.mst n v b) s = .next t ∧ MemFrame s t id ∧ t.h.v = s.h.v ∧ (∀ a, ¬ D a → byteAt t a = byteAt s a) ∧
      ∀ x y o, inside x y → o < 4 → byteAt t (key x y + o) = (natLe 4 ((s.core.tile n).get x y)).getD o 0#8) ∧
  (Runs s pMgang → s.h.gangBound = true ∨ (s.gangMembers s.cur).length ≤ 1 →
    ∃ t, exec .mgang s = .next t ∧ TileFrame s t (s.h.mstat ||| 0x020#10) ∧ t.core.tiles = s.core.tiles ∧ t.h.v = s.h.v ∧ t.h.fcsr = s.h.fcsr) ∧
  (Runs s pMgsync → s.h.gangBound = false ∨ (s.gangMembers s.cur).length ≤ 1 →
    ∃ t, exec .mgsync s = .next t ∧ TileFrame s t s.h.mstat ∧ t.core.tiles = s.core.tiles ∧ t.h.v = s.h.v ∧ t.h.fcsr = s.h.fcsr)

/-- mzero makes its tile zero and no other; mtv and mtvc write row or column (OPB + k) mod 128 of the tile to row k of vd; mvt and
mvtc write row k of va there, a later row over an earlier one. (R575, R576) -/
def Obligations.TileSliceMoves : Prop :=
  ∀ (s : State) (n : BitVec 2) (v x : BitVec 5),
  let at_ (k : Nat) : Nat := ((s.x x).toNat + k) % 128
  let tt : ETCode := if s.h.mstat.getLsbD (6 + n.toNat) then 2#4 else 13#4
  let old := s.core.tile n
  (Runs s (pMzero n) → ∃ t, exec (.mzero n) s = .next t ∧ TileFrame s t (s.h.mstat &&& ~~~tiuBit n) ∧ KeepsV s t [] ∧ ∀ q, t.core.tile q = if q = n then zeroTile else s.core.tile q) ∧
  (Runs s (pMtv n v x) → ∃ t, exec (.mtv n v x) s = .next t ∧ TileFrame s t s.h.mstat ∧ KeepsV s t [v] ∧ t.core.tiles = s.core.tiles ∧
    ∀ k e, k < 16 → k < s.h.vrows → e < 128 → (t.h.vreg v).elem 32 k e = old.get (at_ k) e) ∧
  (Runs s (pMtvc n v x) → ∃ t, exec (.mtvc n v x) s = .next t ∧ TileFrame s t s.h.mstat ∧ KeepsV s t [v] ∧ t.core.tiles = s.core.tiles ∧
    ∀ k e, k < 16 → k < s.h.vrows → e < 128 → (t.h.vreg v).elem 32 k e = old.get e (at_ k)) ∧
  (Runs s (pMvt n v x) → ∃ t, exec (.mvt n v x) s = .next t ∧ TileFrame s t (if s.h.vrows = 0 then s.h.mstat else s.h.mstat ||| tiuBit n) ∧ KeepsV s t [v] ∧ (∀ q, q ≠ n → t.core.tile q = s.core.tile q) ∧
    (∀ k e, k < s.h.vrows → s.h.vrows ≤ k + 128 → e < 128 →
      (t.core.tile n).get (at_ k) e = ((s.h.vreg v).relaid tt (vtGroups s.h.vtype)).elem 32 k e) ∧
    ∀ r e, e < 128 → (∀ k < s.h.vrows, at_ k ≠ r) → (t.core.tile n).get r e = old.get r e) ∧
  (Runs s (pMvtc n v x) → ∃ t, exec (.mvtc n v x) s = .next t ∧ TileFrame s t (if s.h.vrows = 0 then s.h.mstat else s.h.mstat ||| tiuBit n) ∧ KeepsV s t [v] ∧ (∀ q, q ≠ n → t.core.tile q = s.core.tile q) ∧
    (∀ k e, k < s.h.vrows → s.h.vrows ≤ k + 128 → e < 128 →
      (t.core.tile n).get e (at_ k) = ((s.h.vreg v).relaid tt (vtGroups s.h.vtype)).elem 32 k e) ∧
    ∀ r e, e < 128 → (∀ k < s.h.vrows, at_ k ≠ r) → (t.core.tile n).get e r = old.get e r)

/-- With one row, VSTART 0, no mask and no gang, mopi adds to each accumulator element below MR and MC the sum of the K products of
its row group of A and column group of B, modulo 2^32; every other element and tile stands. (R285, R287, R570, R572, R573) -/
def Obligations.IntegerOuterProduct : Prop :=
  ∀ (s : State) (n : BitVec 2) (a b : BitVec 5) (f : BitVec 1), Runs s (pMopi n a b 0#3 0#3 f) → s.h.gangBound = false → s.h.vrows = 1 → s.h.vstart = 0#32 →
  let mf := matFmt (3#2 ++ f)
  let el (v : VNum) (e : Nat) : Int :=
    sval (etBits mf.et) (rowGet (((s.h.vreg v).relaid mf.et (vtGroups s.h.vtype)).readRow 0) (etBits mf.et) e)
  ∃ t, exec (.mopi n a b 0#3 0#3 f) s = .next t ∧ TileFrame s t (s.h.mstat ||| tiuBit n) ∧ KeepsV s t [a, b] ∧ (∀ q, q ≠ n → t.core.tile q = s.core.tile q) ∧
    ∀ i j, i < 128 → j < 128 → (t.core.tile n).get i j =
      if i < s.h.mr ∧ j < s.h.mc then
        wrap 32 (Int.ofNat ((s.core.tile n).get i j) + ((List.range mf.k).map fun q => el a (i * mf.k + q) * el b (j * mf.k + q)).sum)
      else (s.core.tile n).get i j

/-- Posted at an idle hart under the eager schedule (assumption 1), with nothing on its way and its bytes in plain storage, each of
these completes in its step with the effect that the spec gives it: vector and mask loads and stores, capp, vector atomics,
scatter-accumulates; sbind, sunbind, spos; cpy, cpyr, gsp, ssp, cwait; the tree reductions, vfscan, vqbs and the index-carrying
swaps. No other byte, register or hart changes. (R268, R289, R481, R482, R485, R488, R490, R495, R496, R504, R539, R598) -/
def Obligations.MemoryCopyAndRegisterBodiesComplete : Prop :=
  ∀ (s : State) (d b r v : BitVec 5) (m g : BitVec 3) (c n x : BitVec 1) (w : BitVec 2),
  LoadsElems s (.vld d b m c w x) (pVld d b m c w x) .unit w x ∧
  LoadsElems s (.vlds d b r m w x) (pVlds d b r m w x) .strided w x ∧
  LoadsElems s (.vldx d b r m w x) (pVldx d b r m w x) .indexed w x ∧
  LoadsElems s (.vldxo d b r m c w x) (pVldxo d b r m c w x) .ordered w x ∧
  StoresElems s (.vst d b m c n w) (pVst d b m c n w) .unit w n ∧
  StoresElems s (.vsts d b r m n w) (pVsts d b r m n w) .strided w n ∧
  StoresElems s (.vstx d b r m n w) (pVstx d b r m n w) .indexed w n ∧
  StoresElems s (.vstxo d b r m c n w) (pVstxo d b r m c n w) .ordered w n ∧
  AtomicElems s (.vamoadd d b r m) (pVamoadd d b r m) .add ∧
  AtomicElems s (.vamoand d b r m) (pVamoand d b r m) .and ∧
  AtomicElems s (.vamoor d b r m) (pVamoor d b r m) .or ∧
  AtomicElems s (.vamoxor d b r m) (pVamoxor d b r m) .xor ∧
  AtomicElems s (.vamomin d b r m) (pVamomin d b r m) .min ∧
  AtomicElems s (.vamomax d b r m) (pVamomax d b r m) .max ∧
  AtomicElems s (.vamominu d b r m) (pVamominu d b r m) .minu ∧
  AtomicElems s (.vamomaxu d b r m) (pVamomaxu d b r m) .maxu ∧
  AtomicElems s (.vamoswap d b r m) (pVamoswap d b r m) .swap ∧
  AtomicElems s (.vamofadd d b r m) (pVamofadd d b r m) .fadd ∧
  AccumulatesElems s (.vsca d b r m) (pVsca d b r m) .add ∧
  AccumulatesElems s (.vscamax d b r m) (pVscamax d b r m) .max ∧
  AccumulatesElems s (.vscamin d b r m) (pVscamin d b r m) .min ∧
  AccumulatesElems s (.vscao d b r m) (pVscao d b r m) .ordered ∧
  Appends s (.capp d b r m) (pCapp d b r m) ∧
  (∀ key : Nat → Nat → Nat, let p := pVlm g b
    Runs s p → Quiet s → s.h.vl * s.h.vrows ≠ 0 →
    (∀ k y, maskByte s p k y → PlainAt s s.h.level noByte (maskVa s p k y) 1 .load .vector (key k y) ∧ Sound s (key k y) 1) →
    ∃ t, exec (.vlm g b) s = .next t ∧ MemFrame s t (fun h => { h with m := s.h.m }) ∧ t.h.v = s.h.v ∧ (∀ a, byteAt t a = byteAt s a) ∧
      (∀ q, q ≠ g → t.h.mask q = s.h.mask q) ∧ ∀ k e, k < 16 → e < 2048 → (t.h.mask g).bit k e =
        if k < s.h.vrows ∧ e < s.h.vl ∧ (s.h.newEntry p).prog ≤ k * s.h.vl + e then (byteAt s (key k (e / 8))).getLsbD (e % 8) else (s.h.mask g).bit k e) ∧
  (∀ key : Nat → Nat → Nat, let p := pVsm g b; let D (a : Nat) : Prop := ∃ k y, maskByte s p k y ∧ a = key k y
    Runs s p → Quiet s → s.h.vl * s.h.vrows ≠ 0 →
    (∀ k y, maskByte s p k y → PlainAt s s.h.level D (maskVa s p k y) 1 .store .vector (key k y)) →
    ∃ t, exec (.vsm g b) s = .next t ∧ MemFrame s t id ∧ t.h.v = s.h.v ∧ (∀ a, ¬ D a → byteAt t a = byteAt s a) ∧
      ∀ a, D a → ∃ k y, maskByte s p k y ∧ a = key k y ∧
        ∀ j, j < 8 → (byteAt t a).getLsbD j = (decide (8 * y + j < s.h.vl) && (s.h.mask g).bit k (8 * y + j))) ∧
  (∀ (k : Nat) (z : Fin 4) (bd : Binding), let p := pSbind v b; let va := (s.x b).toNat; let c := s.mem.peek k 64
    let back (h : Hart) : Hart := { h with sb := s.h.sb, fetched := s.h.fetched }
    Runs s p → Quiet s → s.h.bindSlot v = some z → va < spadBase → va % 64 = 0 → PlainAt s s.h.level noByte va 64 .load .aux k → Sound s k 64 →
    bindingOf s.h.vtype v (s.x b) c = some bd → (s.core.boundEngines.length < 4 ∧ s.core.streamWaiters = []) ∨ (s.cur, v) ∈ s.core.boundEngines →
    ∃ t, exec (.sbind v b) s = .next t ∧ MemFrame s t back ∧ t.h.v = s.h.v ∧ (∀ a, byteAt t a = byteAt s a) ∧ t.h.sb = s.h.sb.set z bd ∧
      t.h.fetched = s.h.fetched.set z [] ∧ (s.cur, v) ∈ t.core.boundEngines ∧ bd.valid = true ∧ bd.reg = v ∧ bd.pos = 0 ∧ bd.base = BitVec.ofNat 64 (sliceNat c 0 8) ∧
      bd.index = BitVec.ofNat 64 (sliceNat c 8 8) ∧ bd.count = sliceNat c 16 8 ∧ bd.stride = BitVec.ofNat 64 (sliceNat c 24 8)) ∧
  (let Rebinds (i : Instr) (p : Posted) (f : Binding → Binding) (kept : Prop) : Prop := Runs s p →
     ∃ t, exec i s = .next t ∧ PostedFrame s t (fun h => { h with sb := s.h.sb, fetched := s.h.fetched }) ∧ t.h.v = s.h.v ∧ t.h.fcsr = s.h.fcsr ∧
       (∀ z : Fin 4, if s.h.sb[z].valid = true ∧ s.h.sb[z].reg = v then t.h.sb[z] = f s.h.sb[z] ∧ t.h.fetched[z] = []
         else t.h.sb[z] = s.h.sb[z] ∧ t.h.fetched[z] = s.h.fetched[z]) ∧ ((s.cur, v) ∈ t.core.boundEngines ↔ kept ∧ (s.cur, v) ∈ s.core.boundEngines)
   Rebinds (.sunbind v) (pSunbind v) (fun z => { z with valid := false }) False ∧
   Rebinds (.spos v b) (pSpos v b) (fun z => { z with pos := min (s.x b).toNat z.count }) True) ∧
  BulkCopies s (.cpy b g) (pCpy b g) false ∧ BulkCopies s (.cpyr b g) (pCpyr b g) true ∧
  GatherCopies s (.gsp b r v g) (pGsp b r v g) false ∧ GatherCopies s (.ssp b r v g) (pSsp b r v g) true ∧
  (Runs s (pCwait d) → ∃ t, exec (.cwait d) s = .next t ∧ PostedFrame s t (fun h => { h with x := s.h.x, cfails := s.h.cfails }) ∧ t.h.v = s.h.v ∧
    t.h.x = xPut s.h.x d (BitVec.ofNat 64 s.h.cfails) ∧ t.h.cfails = 0) ∧
  (∀ (f : Fmt) (q : RMode) (up down : Nat), etFmt (vtEt s.h.vtype) = some f → rmodeOf s.h.rm.toNat = some q →
    up < 2 ^ fmtBits f → down < 2 ^ fmtBits f → fpDecode f up = .inf false → fpDecode f down = .inf true →
    TreeReduces s (.vfredsumt d b r m) (pVfredsumt d b r m) f (fpAdd f q) 0 ∧
    TreeReduces s (.vfredmax d b r m) (pVfredmax d b r m) f (fpMinMax f true) down ∧
    TreeReduces s (.vfredmin d b r m) (pVfredmin d b r m) f (fpMinMax f false) up ∧
    (let p := pVfscan d b r m
     let row (k : Nat) : Bool := decide ((s.h.newEntry p).prog / s.h.vl ≤ k)
     let upTo (k x : Nat) : Nat × Flags := orderedSum f q ((if r = 0#5 then [] else [srcElem s r k 0]) ++
       ((List.range (x + 1)).filter fun j => activeAt s p k j).map fun j => srcElem s b k j)
     s.h.vseg.getLsbD 3 = false → VecWrites s (.vfscan d b r m) p
       (fun k x => if row k && activeAt s p k x then some (canonical f (upTo k x).1) else none)
       (flagsOf s (fun k x => row k && activeAt s p k x) fun k x => (upTo k x).2)) ∧
    (let p := pVqbs d b r m
     let dt : ETCode := if (s.h.vreg d).valid = true ∧ ((s.h.vreg d).et = 8#4 ∨ (s.h.vreg d).et = 9#4 ∨ (s.h.vreg d).et = 10#4) then (s.h.vreg d).et else 8#4
     let top : Int := if dt = 10#4 then 2 else if dt = 8#4 then 8 else 15
     let prog := (s.h.newEntry p).prog
     let runs (k j : Nat) : Bool := decide (prog - prog % s.h.vl % 256 ≤ k * s.h.vl + 256 * j)
     let vals (k j : Nat) : List FpVal := (((List.range s.h.vl).filter fun e => e / 256 == j && activeAt s p k e).map fun e => fpDecode f (srcElem s b k e))
     let el (k e : Nat) : Nat × Flags :=
       if blockScale top (vals k (e / 256)) = 255 then (0, flNV)
       else cvtVal (fmtEt dt) .rne true (scaleVal (fpDecode f (srcElem s b k e)) (127 - Int.ofNat (blockScale top (vals k (e / 256)))))
     let ok (k e : Nat) : Bool := runs k (e / 256) && activeAt s p k e && decide (e < vlmaxOf (groupCount (vtGroups s.h.vtype)) dt)
     Runs s p → s.h.vl * s.h.vrows ≠ 0 → prog < s.h.vl * s.h.vrows → ∃ t, exec (.vqbs d b r m) s = .next t ∧ PostedFrame s t id ∧
       t.h.fcsr = s.h.fcsr ||| (flagsOf s ok (fun k e => (el k e).2) ++ 0#4) ∧
       (∀ n, n = d ∨ (s.h.newEntry p).copy = some n → RegWritten s t n dt (s.h.vreg n) (wholeWrite s p) fun k e => if ok k e then some (el k e).1 else none) ∧
       RegWritten s t r 4#4 (s.h.vreg r) false (fun k j => if runs k j && decide (256 * j < s.h.vl) && !(vals k j).isEmpty then some (blockScale top (vals k j)) else none) ∧
       ∀ n, n ≠ d → (s.h.newEntry p).copy ≠ some n → n ≠ r → t.h.vreg n = if n = b then source s b else s.h.vreg n)) ∧
  (let et := vtEt s.h.vtype
   let zt : ETCode := zType (width s)
   let Swaps (i : Instr) (p : Posted) (cr : VNum) (ci : Nat → Nat → Nat) (always : Bool) : Prop :=
     let idx (n : VNum) (k x : Nat) : Nat := ((s.h.vreg n).relaid zt (vtGroups s.h.vtype)).elem (width s) k x
     let up (k x : Nat) : Bool :=
       let rel (c : BitVec 3) : Bool := (cmpElem c (if etFloat et then 3#2 else if etSigned et then 0#2 else 1#2) et (srcElem s p.a k x) (srcElem s d k x)).1
       rel 4#3 || (rel 0#3 && decide (ci k x < idx (d + 1#5) k x))
     let sw (v : Nat → Nat → Nat) (k x : Nat) : Option Nat := if executes s p k x && up k x then some (v k x) else none
     let isn (n : Nat) : Prop := (fpDecode (fmtEt et) n).isNaN = true
     Runs s p → s.h.vl * s.h.vrows ≠ 0 → ∃ t, exec i s = .next t ∧ PostedFrame s t (fun h => { h with gatef := s.h.gatef }) ∧ t.h.fcsr = s.h.fcsr ∧
       RegWritten s t d et (s.h.vreg d) false (sw (srcElem s p.a)) ∧ RegWritten s t (d + 1#5) zt (s.h.vreg (d + 1#5)) false (sw ci) ∧
       RegWritten s t p.a et (s.h.vreg p.a) false (sw (srcElem s d)) ∧
       RegWritten s t cr zt (s.h.vreg cr) false (fun k x => if always && executes s p k x && !up k x then some (ci k x) else sw (idx (d + 1#5)) k x) ∧
       (t.h.gatef = true ↔ s.h.gatef = true ∨ (etFloat et = true ∧ ∃ k x, k < s.h.vrows ∧ x < s.h.vl ∧ executes s p k x = true ∧
         (isn (srcElem s d k x) ∨ isn (srcElem s p.a k x)))) ∧
       ∀ n, n ≠ d → n ≠ d + 1#5 → n ≠ p.a → n ≠ cr → t.h.vreg n = s.h.vreg n
   Swaps (.vkswap d b r m) (pVkswap d b r m) r (fun k x => ((s.h.vreg r).relaid zt (vtGroups s.h.vtype)).elem (width s) k x) false ∧
   Swaps (.vkswapi d b r m) (pVkswapi d b r m) (b + 1#5) (fun _ _ => (s.x r).toNat % 2 ^ width s) true)

/-- An instruction that no check at issue stops is posted: its entry captures its scalar operands, VL, VROWS, VTYPE, VSEG, the
rounding mode and the level, VSTART becomes 0, and a later write of a source register does not change the entry. While the
queues are held, or where a check fails, it traps ILL; while a scalar operand is pending it waits. (R202, R203, R204, R363,
R436) -/
def Obligations.PostCapturesAndQueues : Prop :=
  ∀ (s : State) (d a x : BitVec 5) (m : BitVec 3), let p := pVaddVx d a x m
  (Postable s p → s.eager = false → (s.h.newEntry p).strips = [] → ∃ t e, exec (.vaddVx d a x m) s = .next t ∧ t.h.queue = s.h.queue ++ [e] ∧
    e.opb = s.x x ∧ e.vl = s.h.vl ∧ e.vrows = s.h.vrows ∧ e.vtype = s.h.vtype ∧ e.vseg = s.h.vseg ∧ e.rm = s.h.rm ∧ e.level = s.h.level ∧
    e.pc = s.h.pc ∧ e.prog = s.h.vstart.toNat ∧ t.h.vstart = 0#32 ∧ t.h.v = s.h.v ∧ t.mem = s.mem ∧
    ∀ (n : XNum) (w : Word), (t.setX n w).h.queue = s.h.queue ++ [e]) ∧
  (s.h.held = true → exec (.vaddVx d a x m) s = .next (s.ill (wVaddVx d a x m))) ∧
  (s.postBad p = true → exec (.vaddVx d a x m) s = .next (s.ill (wVaddVx d a x m))) ∧
  (s.postBad p = false → s.h.anyPending [x] = true → exec (.vaddVx d a x m) s = .next (s.wait .retry (wVaddVx d a x m)))

/-- Where the bytes of a load lie in plain storage, none is uncorrectable, cached, in the store buffer or about to be written, ld
completes, writes their little-endian value, sign-extended for b, h and w, and leaves memory and every other register. (R312,
R329, R401, R448, R450) -/
def Obligations.ScalarLoadReadsItsBytes : Prop :=
  ∀ (s u : State) (d b : XNum) (w : BitVec 3) (o : BitVec 13) (k : Nat), let va := (s.x b + o.signExtend 64).toNat; let n := 2 ^ (w.toNat % 4)
  Clear s [b] → s.h.stbuf = [] → s.sameBytes false va n = false → PlacedAt s va n .load .scalar k u → Sound s k n →
  (∀ l ∈ s.core.dcache, l.line ∉ linesOf k n) →
  ∃ t, exec (.ld d b w o) s = .next t ∧ t.h.x = xPut s.h.x d (loadValue w (leNat (s.mem.peek k n))) ∧
    t.h.pc = s.h.afterPc ∧ ScalarFrame s t ∧ t.h.resv = s.h.resv ∧ ∀ a, byteAt t a = byteAt s a

/-- Where the bytes of a store lie in plain storage and no earlier access to them is still to perform, st completes under the eager
schedule (assumption 1): the low bytes of the register stand there, every other byte and every register is unchanged, and a
reservation on a line that it touches is lost. (R327, R341, R401, R448, R450) -/
def Obligations.ScalarStoreWritesItsBytes : Prop :=
  ∀ (s u : State) (r b : XNum) (w : BitVec 2) (o : BitVec 13) (k : Nat), let va := (s.x b + o.signExtend 64).toNat; let n := 2 ^ w.toNat
  Clear s [r, b] → NoStores s → s.sameBytes true va n = false → PlacedAt s va n .store .scalar k u →
  ∃ t, exec (.st r b w o) s = .next t ∧ t.h.x = s.h.x ∧ t.h.pc = s.h.afterPc ∧ ScalarFrame s t ∧
    (∀ i, i < n → byteAt t (k + i) = (natLe n (s.x r).toNat).getD i 0#8) ∧
    (∀ a, a < k ∨ k + n ≤ a → byteAt t a = byteAt s a) ∧
    ∀ (j : Fin 4) (l : Nat), s.harts[j].resv = some l → l ∈ linesOf k n → t.harts[j].resv = none

/-- On aligned bytes of plain storage every AMO returns the old value, sign-extended but for amofadd, and stores the value of R454;
amocas stores only when the old value equals the old destination register; every other byte stands. A misaligned address traps
ALIGN before anything else. (R327, R339, R453, R454) -/
def Obligations.AtomicResults : Prop :=
  ∀ (s : State) (d a b : XNum) (z q l : BitVec 1) (c : BitVec 3),
  Atomic s (.amoadd d a b z q l c) .add d a b z l c ∧
  Atomic s (.amoand d a b z q l c) .and d a b z l c ∧
  Atomic s (.amoor d a b z q l c) .or d a b z l c ∧
  Atomic s (.amoxor d a b z q l c) .xor d a b z l c ∧
  Atomic s (.amomin d a b z q l c) .min d a b z l c ∧
  Atomic s (.amomax d a b z q l c) .max d a b z l c ∧
  Atomic s (.amominu d a b z q l c) .minu d a b z l c ∧
  Atomic s (.amomaxu d a b z q l c) .maxu d a b z l c ∧
  Atomic s (.amoswap d a b z q l c) .swap d a b z l c ∧
  Atomic s (.amocas d a b z q l c) .cas d a b z l c ∧
  Atomic s (.amofadd d a b z q l c) .fadd d a b z l c

/-- On aligned bytes of plain storage ldr returns the sign-extended value and sets the reservation of its line; stc writes its bytes
and 0 when the reservation covers the line, and otherwise writes nothing and 1; either way no reservation remains. A misaligned
address traps ALIGN, and a fabric address of the device's own domain PROT. (R341, R448, R455) -/
def Obligations.ReservationRule : Prop :=
  ∀ (s u : State) (d a b : XNum) (z : BitVec 1) (k : Nat), let n := if z = 1#1 then 8 else 4; let va := (s.x a).toNat
  s.h.stbuf = [] → s.sameBytes true va n = false →
  (va % n ≠ 0 → (Clear s [a] → exec (.ldr d a z) s = .next (s.trapHere cALIGN (s.x a))) ∧
    (Clear s [a, b] → exec (.stc d a b z) s = .next (s.trapHere cALIGN (s.x a)))) ∧
  (va % n = 0 → Clear s [a] → PlacedAt s va n .load .atomic k u → Sound s k n →
    ∃ t, exec (.ldr d a z) s = .next t ∧ t.h.x = xPut s.h.x d (BitVec.ofInt 64 (sval (8 * n) (leNat (s.mem.peek k n)))) ∧
      t.h.resv = some (k / 64) ∧ ScalarFrame s t ∧ ∀ a, byteAt t a = byteAt s a) ∧
  (va % n = 0 → Clear s [a, b] → PlacedAt s va n .atomic .atomic k u →
    ∃ t, exec (.stc d a b z) s = .next t ∧ t.h.resv = none ∧ ScalarFrame s t ∧
      (if s.h.resv = some (k / 64) then
        t.h.x = xPut s.h.x d 0#64 ∧ (∀ i, i < n → byteAt t (k + i) = (natLe n (s.x b).toNat).getD i 0#8) ∧
          ∀ a, a < k ∨ k + n ≤ a → byteAt t a = byteAt s a
      else t.h.x = xPut s.h.x d 1#64 ∧ ∀ a, byteAt t a = byteAt s a)) ∧
  (Clear s [a] → va % n = 0 → 2 ^ 63 ≤ va → domainOf (BitVec.ofNat 19 (va / 2 ^ 44)) = domainOf s.fab.epid →
    exec (.ldr d a z) s = .next (s.trapHere cPROT (s.x a))) ∧
  (Clear s [a, b] → va % n = 0 → 2 ^ 63 ≤ va → domainOf (BitVec.ofNat 19 (va / 2 ^ 44)) = domainOf s.fab.epid →
    exec (.stc d a b z) s = .next (s.trapHere cPROT (s.x a)))

/-- Each branch goes to its target when its condition on the two registers holds, without a loop-end step, and otherwise completes
as any instruction does; no register changes. (R403, R457) -/
def Obligations.BranchRule : Prop :=
  ∀ (s : State) (a b : XNum) (i : BitVec 16), Clear s [a, b] →
  let target : Word := BitVec.ofInt 64 (Int.ofNat s.h.pc.toNat + 4 * i.toInt)
  let Br (j : Instr) (c : Prop) : Prop := (c → GoesTo s j target) ∧ (¬ c → exec j s = .next s.retire)
  Br (.beq a b i) (s.x a = s.x b) ∧ Br (.bne a b i) (s.x a ≠ s.x b) ∧
  Br (.blt a b i) ((s.x a).toInt < (s.x b).toInt) ∧ Br (.bge a b i) ((s.x b).toInt ≤ (s.x a).toInt) ∧
  Br (.bltu a b i) ((s.x a).toNat < (s.x b).toNat) ∧ Br (.bgeu a b i) ((s.x b).toNat ≤ (s.x a).toNat)

/-- jmp goes to its target; jalr writes PC + 4 and goes to the old value of its source; call and callr, with room on chip, push PC +
4, write it to x1 and go to the target, read before any write; ret pops its target and reads no register. (R458, R374, R403) -/
def Obligations.JumpsCallsAndReturns : Prop :=
  ∀ (s : State) (d a : XNum) (i : BitVec 26),
  let target : Word := BitVec.ofInt 64 (Int.ofNat s.h.pc.toNat + 4 * i.toInt)
  (Clear s [] → GoesTo s (.jmp i) target) ∧
  (Clear s [a] → exec (.jalr d a) s = .next ((s.setX d (s.h.pc + 4#64)).goTo (s.x a))) ∧
  (Clear s [] → s.h.rs.length < 16 → ∃ t, exec (.call i) s = .next t ∧ t.h.pc = target ∧ t.h.rs = (s.h.pc + 4#64) :: s.h.rs ∧
    t.h.x = xPut s.h.x 1#5 (s.h.pc + 4#64) ∧ t.mem = s.mem) ∧
  (Clear s [a] → s.h.rs.length < 16 → ∃ t, exec (.callr a) s = .next t ∧ t.h.pc = s.x a ∧ t.h.rs = (s.h.pc + 4#64) :: s.h.rs ∧
    t.h.x = xPut s.h.x 1#5 (s.h.pc + 4#64) ∧ t.mem = s.mem) ∧
  (∀ r rest, Clear s [] → s.h.rs = r :: rest → ∃ t, exec .ret s = .next t ∧ t.h.pc = r ∧ t.h.rs = rest ∧ t.h.x = s.h.x ∧ t.mem = s.mem) ∧
  (Clear s [] → s.h.rs.length = 16 → s.h.emuf = 0#64 → exec (.call i) s = .next (s.trapHere cPROT 0#64)) ∧
  (Clear s [] → s.h.rs = [] → s.h.emuf = 0#64 → exec .ret s = .next (s.trapHere cPROT 0#64))

/-- loop sets LS and LE of its level, takes the count, and goes on after itself, or behind the body when the count is zero; at the
end of an active loop it traps ILL and changes nothing else. (R461) -/
def Obligations.HardwareLoopRule : Prop :=
  ∀ (s : State) (l : BitVec 1) (c : XNum) (n : BitVec 20), Clear s [c] →
  let le : Word := BitVec.ofInt 64 (Int.ofNat s.h.pc.toNat + 4 * n.toNat)
  let pc' : Word := if s.x c = 0#64 then le + 4#64 else s.h.pc + 4#64
  if (s.h.pc = s.h.le0 ∧ s.h.lc0 ≠ 0#64) ∨ (s.h.pc = s.h.le1 ∧ s.h.lc1 ≠ 0#64) then exec (.loop l c n) s = .next (s.ill (wLoop l c n))
  else if l = 0#1 then
    exec (.loop l c n) s = .next ((s.mod fun h => { h with ls0 := s.h.pc + 4#64, le0 := le, lc0 := s.x c }).goTo pc')
  else exec (.loop l c n) s = .next ((s.mod fun h => { h with ls1 := s.h.pc + 4#64, le1 := le, lc1 := s.x c }).goTo pc')

/-- A trap to S of a hart with a handler sets ESTATUS.PPL to the level, EPC, ECAUSE and ETVAL, the level to S and the PC to ETVEC,
keeps PFXS, loses the reservation, and leaves memory, the other harts and every other register; without a handler the context is
killed with the cause; at E any cause but a page fault kills it with EMU_NEST. (R341, R365, R367, R379) -/
def Obligations.TrapEntryRule : Prop :=
  ∀ (s : State) (c : BitVec 8) (v epc : Word),
  ((s.h.level ≠ .e ∨ c = cPFFETCH ∨ c = cPFLOAD ∨ c = cPFSTORE) → s.h.etvec ≠ 0#64 →
    let t := s.takeTrap ⟨c, v⟩ epc
    t.h.epc = epc ∧ t.h.ecause = c ∧ t.h.etval = v ∧ t.h.level = .s ∧ t.h.pc = s.h.etvec ∧
    t.h.estatus.extractLsb' 0 2 = (match s.h.level with | .u => 0#2 | .s => 1#2 | .e => 2#2) ∧ t.h.estatus.getLsbD 2 = s.h.estatus.getLsbD 2 ∧
    t.h.pfx = s.h.pfx ∧ t.h.pfxValid = s.h.pfxValid ∧ t.h.resv = none ∧ t.h.x = s.h.x ∧ t.h.v = s.h.v ∧ t.h.m = s.h.m ∧ t.h.f = s.h.f ∧
    t.h.queue = s.h.queue ∧ t.h.etvec = s.h.etvec ∧ t.mem = s.mem ∧ ∀ j : Fin 4, j ≠ s.cur → t.harts[j] = s.harts[j]) ∧
  ((s.h.level ≠ .e ∨ c = cPFFETCH ∨ c = cPFLOAD ∨ c = cPFSTORE) → s.h.etvec = 0#64 →
    s.takeTrap ⟨c, v⟩ epc = s.killContext s.h.ctxid.toNat c) ∧
  (s.h.level = .e → c ≠ cPFFETCH → c ≠ cPFLOAD → c ≠ cPFSTORE →
    s.takeTrap ⟨c, v⟩ epc = s.killContext s.h.ctxid.toNat cEMUNEST)

/-- svc takes its trap with EPC at the instruction that the loop-end step selects, brk at itself, both with the immediate in ETVAL;
eret traps ILL at U and for a PPL that names no level, and otherwise goes to EPC at the level of PPL, gives a kept prefix to the
instruction there, and releases the held queues. (R363, R368, R463, R466) -/
def Obligations.SystemCallsBreakpointsAndReturn : Prop :=
  ∀ (s : State) (i : BitVec 8), Clear s [] →
  (s.h.level ≠ .e → s.h.etvec ≠ 0#64 → ∃ t, exec (.svc i) s = .next t ∧ t.h.epc = s.h.afterPc ∧ t.h.ecause = cSVC ∧ t.h.etval = i.setWidth 64 ∧
    t.h.level = .s ∧ t.h.pc = s.h.etvec ∧ t.h.x = s.h.x ∧ t.mem = s.mem) ∧
  (s.h.level ≠ .e → s.h.etvec ≠ 0#64 → ∃ t, exec (.brk i) s = .next t ∧ t.h.epc = s.h.pc ∧ t.h.ecause = cBRK ∧ t.h.etval = i.setWidth 64 ∧
    t.h.level = .s ∧ t.h.pc = s.h.etvec ∧ t.h.x = s.h.x ∧ t.mem = s.mem) ∧
  (let ppl := s.h.estatus.extractLsb' 0 2
   if s.h.level = .u ∨ ppl = 3#2 ∨ (ppl = 2#2 ∧ s.h.emulating = false) then exec .eret s = .next (s.ill wEret)
   else ∃ t, exec .eret s = .next (if s.eager then t.drain s.cur else t) ∧ t.h.pc = s.h.epc ∧
     t.h.level = (if ppl = 0#2 then Level.u else if ppl = 1#2 then Level.s else Level.e) ∧ t.h.held = false ∧ t.h.pfxNext = s.h.pfxValid ∧
     t.h.pfx = s.h.pfx ∧ t.h.x = s.h.x ∧ t.h.queue = s.h.queue ∧ t.mem = s.mem)

/-- pfx puts its word into PFXS, marks it valid and goes on with no loop-end step and no other effect; the next instruction takes
it: a scalar one traps ILL. (R405, R406, R412) -/
def Obligations.PrefixIsKeptForItsSuccessor : Prop :=
  ∀ (s : State) (p : BitVec 3) (n c : BitVec 1) (v : BitVec 5) (g : BitVec 1) (f : BitVec 3) (t : BitVec 1) (e : BitVec 3) (z : BitVec 8) (d a : XNum) (i : BitVec 16),
  Clear s [] → ∃ u, exec (.pfx p n c v g f t e z) s = .next u ∧ u.h.pfx = wPfx p n c v g f t e z ∧ u.h.pfxValid = true ∧ u.h.pfxNext = true ∧
    u.h.pc = s.h.pc + 4#64 ∧ u.h.x = s.h.x ∧ u.h.v = s.h.v ∧ u.h.queue = s.h.queue ∧ u.h.lc0 = s.h.lc0 ∧ u.h.lc1 = s.h.lc1 ∧ u.mem = s.mem ∧
    exec (.addi d a i) u = .next (u.ill (wAddi d a i))

/-- wfe clears EV and goes on, or waits; ifence, once earlier accesses have performed at scope clu, empties the instruction cache;
tinv drops the translations of its page, and the cached bindings where its address lies in the binding table, and tinva all of
both, above U; evsig sends its signal with the hart's context; yield in native mode has no other effect. (R466, R467, R468,
R469, R470, R471) -/
def Obligations.WaitsFencesAndSignals : Prop :=
  ∀ (s : State) (a : XNum),
  (Clear s [] → s.h.ev = true → exec .wfe s = .next (s.mod fun h => { h with ev := false }).retire) ∧
  (Clear s [] → s.h.ev = false → exec .wfe s = .next (s.wait .wfe wWfe)) ∧
  (Clear s [] → s.performed s.cur 3 = true → exec .ifence s = .next (State.retire { s with core := { s.core with icache := [] } })) ∧
  (let tables (t : State) (gone : TlbEntry → Prop) (bound : Bool) : Prop :=
     t.h = s.retire.h ∧ { t with harts := s.harts, sched := s.sched, mem := { t.mem with dieTlb := s.mem.dieTlb }, core := { t.core with tlb := s.core.tlb } } = s ∧
     (∀ j : Fin 4, j ≠ s.cur → t.harts[j] = s.harts[j]) ∧
     t.sched = { s.sched with bindings := if bound = true then [] else s.sched.bindings } ∧
     ∀ e, (e ∈ t.mem.dieTlb ↔ e ∈ s.mem.dieTlb ∧ ¬ gone e) ∧ ∀ (q : Fin 4) (i : Fin 64), t.core.tlb[q].slots[i] = some e ↔ s.core.tlb[q].slots[i] = some e ∧ ¬ gone e
   s.h.level ≠ .u →
   (Clear s [a] → ∃ t, exec (.tinv a) s = .next t ∧ tables t (fun e => e.va ≤ (s.x a).toNat ∧ (s.x a).toNat < e.va + e.size)
     (decide (bindBase ≤ (s.x a).toNat ∧ (s.x a).toNat < bindBase + 0x80000))) ∧
   (Clear s [] → ∃ t, exec .tinva s = .next t ∧ tables t (fun _ => True) true)) ∧
  (s.h.level = .u → Clear s [] → exec (.tinv a) s = .next (s.ill (wTinv a)) ∧ exec .tinva s = .next (s.ill wTinva)) ∧
  (Clear s [a] → ∃ t, exec (.evsig a) s = .next t ∧ t.h = s.retire.h ∧ t.sched.signals = s.sched.signals ++ [((s.x a).setWidth 11, s.h.ctxid)] ∧ t.mem = s.mem) ∧
  (Clear s [] → (∀ c, s.myCtx = some c → c.compat ≠ some true ∨ c.preempted = false) → exec .yield s = .next s.retire)

/-- An access that R254 forbids traps ILL; otherwise, once the queues that R255 names are empty, crr returns the register, and crw,
crs and crc also write it with x(ra), its OR, or its AND NOT; for each of FCSR, VSTART, ETVEC, EMUF, EPC and the loop registers
the new value is stored as the register's layout states. (R253, R254, R255, R464) -/
def Obligations.ControlRegisterRule : Prop :=
  ∀ (s : State) (d a : XNum) (c : BitVec 12), let n := c.toNat; let v := s.x a
  (crIllegal n false s.h.level = true → exec (.crr d c) s = .next (s.ill (wCrr d c))) ∧
  (crIllegal n true s.h.level = true → exec (.crw d a c) s = .next (s.ill (wCrw d a c)) ∧ exec (.crs d a c) s = .next (s.ill (wCrs d a c)) ∧
    exec (.crc d a c) s = .next (s.ill (wCrc d a c))) ∧
  (crIllegal n false s.h.level = false → Clear s [] → (crWaits n = true → s.h.queue = []) → n ≠ 0xC04 →
    exec (.crr d c) s = .next (s.setX d (s.crRead n)).retire) ∧
  (crIllegal n true s.h.level = false → Clear s [a] → (crWaits n = true → s.h.queue = []) → n ≠ 0xC04 →
    exec (.crw d a c) s = .next ((s.crWrite n v).setX d (s.crRead n)).retire ∧
    exec (.crs d a c) s = .next ((s.crWrite n (s.crRead n ||| v)).setX d (s.crRead n)).retire ∧
    exec (.crc d a c) s = .next ((s.crWrite n (s.crRead n &&& ~~~v)).setX d (s.crRead n)).retire) ∧
  (s.h.level = .u → crIllegal 0x100 false .u = true ∧ crIllegal 0x103 true .u = true ∧ crIllegal 0x008 false .u = true) ∧
  (∀ l, crIllegal 0x010 true l = true ∧ crIllegal 0x012 true l = true ∧ crIllegal 0x010 false l = false ∧ crIllegal 0x003 false l = true) ∧
  (s.crWrite 0x001 v).h.fcsr = v.setWidth 9 ∧ (s.crWrite 0x013 v).h.vstart = v.setWidth 32 ∧ (s.crWrite 0x103 v).h.etvec = v &&& ~~~255#64 ∧
  (s.crWrite 0x105 v).h.emuf = v &&& ~~~63#64 ∧ (s.crWrite 0x100 v).h.epc = v ∧ (s.crWrite 0x040 v).h.lc0 = v ∧ (s.crWrite 0x045 v).h.le1 = v

/-- Each retired form, with nothing in its way and its frame in plain storage, writes the frame at EMUF and enters E at ETVEC +
0x80; with EMUF zero it traps EMU with its word; while the queues are held it traps ILL; at E, or at S in an emulation, it kills
the context with EMU_NEST. At E, once the handler's accesses have performed and, for a vector or tile result, its queued
instructions have retired, emuret reads the frame, takes the scalar, vector or tile result of its class and the flags, and goes
on behind the retired word at the saved level; below E it traps ILL. (R376, R377, R378, R379, R436, R440) -/
def Obligations.EmulationRule : Prop :=
  (∀ (s : State) (d a b : BitVec 5) (m : BitVec 3) (n : BitVec 2),
  (Emulates s (.smac d a b) (wSmac d a b) 0 (s.x a) (s.x b) []) ∧
  (Emulates s (.smacz d a b) (wSmacz d a b) 0 (s.x a) (s.x b) []) ∧
  ((vtEt s.h.vtype).toNat ≤ 7 → Emulates s (.vaaddVv d a b m) (wVaaddVv d a b m) 1 0#64 0#64 [(0x80, maskArea (s.h.mask m)), (0x1080, rowArea s a 16), (0x5080, rowArea s b 16)]) ∧
  ((vtEt s.h.vtype).toNat ≤ 7 → Emulates s (.vaadduVv d a b m) (wVaadduVv d a b m) 1 0#64 0#64 [(0x80, maskArea (s.h.mask m)), (0x1080, rowArea s a 16), (0x5080, rowArea s b 16)]) ∧
  ((vtEt s.h.vtype).toNat ≤ 7 → Emulates s (.vasubVv d a b m) (wVasubVv d a b m) 1 0#64 0#64 [(0x80, maskArea (s.h.mask m)), (0x1080, rowArea s a 16), (0x5080, rowArea s b 16)]) ∧
  ((vtEt s.h.vtype).toNat ≤ 7 → Emulates s (.vasubuVv d a b m) (wVasubuVv d a b m) 1 0#64 0#64 [(0x80, maskArea (s.h.mask m)), (0x1080, rowArea s a 16), (0x5080, rowArea s b 16)]) ∧
  ((vtEt s.h.vtype).toNat ≤ 7 → Emulates s (.vaaddVx d a b m) (wVaaddVx d a b m) 1 0#64 (s.x b) [(0x80, maskArea (s.h.mask m)), (0x1080, rowArea s a 16)]) ∧
  ((vtEt s.h.vtype).toNat ≤ 7 → Emulates s (.vaadduVx d a b m) (wVaadduVx d a b m) 1 0#64 (s.x b) [(0x80, maskArea (s.h.mask m)), (0x1080, rowArea s a 16)]) ∧
  ((vtEt s.h.vtype).toNat ≤ 7 → Emulates s (.vasubVx d a b m) (wVasubVx d a b m) 1 0#64 (s.x b) [(0x80, maskArea (s.h.mask m)), (0x1080, rowArea s a 16)]) ∧
  ((vtEt s.h.vtype).toNat ≤ 7 → Emulates s (.vasubuVx d a b m) (wVasubuVx d a b m) 1 0#64 (s.x b) [(0x80, maskArea (s.h.mask m)), (0x1080, rowArea s a 16)]) ∧
  (s.h.matrixOn = true → Emulates s (.tmop n a b) (wTmop n a b) 2 0#64 0#64 [(0x1080, rowArea s a 1), (0x5080, rowArea s b 1), (0x9080, tileArea (s.core.tile n))]) ∧
  (s.h.matrixOn = true → Emulates s (.tmzero n) (wTmzero n) 2 0#64 0#64 [(0x9080, tileArea (s.core.tile n))]) ∧
  (s.h.held = true → exec (.smac d a b) s = .next (s.ill (wSmac d a b))) ∧
  (s.h.held = false → s.h.level = .e ∨ (s.h.level = .s ∧ s.h.emulating = true) →
    exec (.smac d a b) s = .next (s.killContext s.h.ctxid.toNat cEMUNEST)) ∧
  (s.h.held = false → s.h.level = .u → s.h.queue = [] → s.h.stbuf = [] → s.h.emuf = 0#64 →
    exec (.smac d a b) s = .next (s.trapHere cEMU ((wSmac d a b).setWidth 64)))) ∧
  (∀ (s : State) (k : Nat) (km kr : Nat → Nat), Clear s [] →
  (s.h.level ≠ .e → exec .emuret s = .next (s.ill wEmuret)) ∧
  (let f (off n : Nat) : Nat := sliceNat (s.mem.peek k 64) (off - 0x40) n
   let w : IWord := BitVec.ofNat 32 (f 0x40 4)
   let cls := f 0x63 1
   let vt : BitVec 9 := BitVec.ofNat 9 (f 0x64 2)
   let vl := f 0x60 2
   let vr := min 16 (f 0x62 1)
   let d : VNum := w.extractLsb' 21 5
   let q : ANum := w.extractLsb' 24 2
   let b := etBits (vtEt vt)
   let reads (va : Nat) (key : Nat) : Prop := PlainAt s .s noByte va 1 .load .aux key ∧ Sound s key 1
   s.h.level = .e → s.performed s.cur 1 = true → Quiet s → PlainAt s .s noByte (s.h.emuf.toNat + 0x40) 64 .load .aux k → Sound s k 64 →
   (cls = 1 → ∀ o, (o < 256 * vr → reads (s.h.emuf.toNat + 0x80 + o) (km o)) ∧ (o < 1024 * vr → reads (s.h.emuf.toNat + 0x9080 + o) (kr o))) →
   (cls = 2 → ∀ o, o < 16384 → reads (s.h.emuf.toNat + 0x9080 + o) (kr o)) → (∀ c, s.myCtx = some c → c.preempted = false) →
   (cls ≠ 0 → s.h.queue = []) →
   ∃ t, exec .emuret s = .next t ∧
     { t.h with x := s.h.x, v := s.h.v, mstat := s.h.mstat, fcsr := s.h.fcsr, level := s.h.level, pc := s.h.pc, emulating := s.h.emulating, inHandler := s.h.inHandler,
                pfxValid := s.h.pfxValid, pfxNext := s.h.pfxNext, status := s.h.status } = s.h ∧
     (∀ a, byteAt t a = byteAt s a) ∧ (∀ j : Fin 4, j ≠ s.cur → t.harts[j] = s.harts[j]) ∧
     t.h.pc = BitVec.ofNat 64 (f 0x48 8) + 4#64 ∧ t.h.level = levelOf (BitVec.ofNat 2 (f 0x66 1)) ∧ t.h.status = .running ∧
     t.h.fcsr = s.h.fcsr ||| (BitVec.ofNat 5 (f 0x78 1) ++ 0#4) ∧ t.h.emulating = false ∧ t.h.pfxValid = false ∧
     t.h.x = (if cls = 0 then xPut s.h.x d (BitVec.ofNat 64 (f 0x70 8)) else s.h.x) ∧
     (∀ n, (cls ≠ 1 ∨ n ≠ d ∨ vl * vr = 0) → t.h.vreg n = s.h.vreg n) ∧
     (cls = 1 → vl * vr ≠ 0 → (t.h.vreg d).valid = true ∧ (t.h.vreg d).et = vtEt vt ∧ (t.h.vreg d).lmap = vtGroups vt ∧
       ∀ i x, i < vr → x < vl → (x + 1) * b ≤ 8192 → (t.h.vreg d).elem b i x =
         if (i ≠ 0 ∨ f 0x68 4 ≤ x) ∧ (byteAt s (km (256 * i + x / 8))).getLsbD (x % 8) = true then
           leNat ((List.range ((b + 7) / 8)).map fun y => byteAt s (kr (1024 * i + x * b / 8 + y))) / (if b = 4 ∧ x % 2 = 1 then 16 else 1) % 2 ^ b
         else ((s.h.vreg d).relaid (vtEt vt) (vtGroups vt)).elem b i x) ∧
     t.h.mstat = (if cls = 2 then s.h.mstat ||| tiuBit q else s.h.mstat) ∧ (∀ n, cls ≠ 2 ∨ n ≠ q → t.core.tile n = s.core.tile n) ∧
     (cls = 2 → ∀ i x, i < 128 → x < 128 → (t.core.tile q).get i x =
       if i < 64 ∧ x < 64 then leNat ((List.range 4).map fun y => byteAt s (kr (256 * i + 4 * x + y))) else (s.core.tile q).get i x))) 

/-- An element of a vector register reads as zero when the register is not VALID, when the element lies at or above LEN, or when its
row lies at or above ROWS; inside, it is the field of its row. (R236) -/
def Obligations.ElementReadsZero : Prop :=
  ∀ (r : VReg) (b k e : Nat), (r.valid = false ∨ r.len ≤ e ∨ r.nrows ≤ k → r.elem b k e = 0) ∧
  (r.valid = true → e < r.len → k < r.nrows → r.elem b k e = ((r.row k).extractLsb' (e * b) b).toNat)

/-- Once served with lane groups, setvl and setlens set VTYPE and VL = min(x(ra), VLMAX) and, with td = 0, grant the largest row
count up to the one asked for whose W fits; a hart that gets no group waits; with td = 1 and no older instruction in its queues
they also release the rows and elements above the granted shape. setvlp sets VL from the progress word; vrelease gives up every
group and, with td = 1, every row. (R160, R162, R240, R241, R242, R474, R475, R476) -/
def Obligations.VectorShapeRule : Prop :=
  ∀ (s : State) (d a b : XNum) (e : BitVec 4) (g : BitVec 2) (t : BitVec 1),
  let s1 := (s.askLanes (lgCount g)).1
  let fits (n : Nat) : Prop := s.h.rowsWanted n ≤ s.rowsFree + s.h.quota
  let shape (u : State) (m : Nat) : Prop :=
    u.h.vtype = t ++ vtGroups s1.h.vtype ++ e ∧ u.h.vl = min (s.x a).toNat (vlmaxOf (groupCount (vtGroups s1.h.vtype)) e) ∧
    u.h.pc = s.h.afterPc ∧ u.mem = s.mem ∧
    (t = 0#1 → u.h.v = s.h.v ∧ u.h.vrows ≤ m ∧ (u.h.vrows ≠ 0 → fits u.h.vrows) ∧ (∀ n, u.h.vrows < n → n ≤ m → ¬ fits n) ∧
      u.h.quota = (if u.h.vrows = 0 then s.h.quota else s.h.rowsWanted u.h.vrows)) ∧
    (t = 1#1 → s.h.queue = [] → s.h.releases = [] → u.h.releases = [] ∧ u.h.vrows ≤ m ∧ ∀ (n : VNum) k x, let r := s.h.vreg n
      (x + 1) * etBits r.et ≤ 8192 → (u.h.vreg n).elem (etBits r.et) k x =
        if k < (if u.h.vrows = 0 then m else u.h.vrows) ∧ x < u.h.vl then r.elem (etBits r.et) k x else 0)
  (vtGroups s1.h.vtype ≠ 0#4 →
    (Clear s [a] → ∃ u, exec (.setvl d a e g t) s = .next u ∧ shape u (max s.h.vrows 1) ∧ u.h.x = xPut s.h.x d (BitVec.ofNat 64 u.h.vl)) ∧
    (Clear s [a, b] → ∃ u, exec (.setlens d a b e g t) s = .next u ∧ shape u (min (s.x b).toNat 16) ∧
      u.h.x = xPut s.h.x d (BitVec.ofNat 64 u.h.vrows))) ∧
  (vtGroups s1.h.vtype = 0#4 → Clear s [a] →
    ∃ n, exec (.setvl d a e g t) s = .next (s.wait (.lanes n) (wSetvl d a e g t)) ∧ n = (if g = 0#2 then 1 else lgCount g)) ∧
  (∀ (u : State) k, let va := (s.x a &&& ~~~7#64).toNat
    Clear s [a, b] → s.h.stbuf = [] → PlacedAt s va 8 .load .aux k u → Sound s k 8 → s.sameBytes false va 8 = false →
    let n := min (vlmaxOf (groupCount (vtGroups s.h.vtype)) (vtEt s.h.vtype)) ((leNat (s.mem.peek k 8) - (s.x b).toNat) / max s.h.vrows 1)
    ∃ v, exec (.setvlp d a b) s = .next v ∧ v.h.vl = n ∧ v.h.x = xPut s.h.x d (BitVec.ofNat 64 n) ∧ v.h.vtype = s.h.vtype ∧
      v.h.vrows = s.h.vrows ∧ ∀ a, byteAt v a = byteAt s a) ∧
  (Clear s [] → s.h.status = .running → (t = 1#1 → s.h.queue = []) → ∃ u, exec (.vrelease d t) s = .next u ∧
    u.h.vtype = t ++ 0#4 ++ vtEt s.h.vtype ∧ u.h.vl = 0 ∧ u.core.heldBy s.cur = 0#4 ∧ u.mem = s.mem ∧
    u.h.x = xPut s.h.x d (BitVec.ofNat 64 (groupCount (s.core.heldBy s.cur))) ∧
    (if t = 1#1 then (∀ n, (u.h.vreg n).valid = false) ∧ u.h.vrows = 0 ∧ u.h.quota = 32
     else u.h.v = s.h.v ∧ u.h.vrows = s.h.vrows ∧ u.h.quota = s.h.quota))

/-- mstart does nothing for the holder, waits while another hart holds matrix mode, and else takes it with its own kept tiles or
zeroed ones, which clears the TIU bits of the hart that had kept some; mstop zeroes or keeps the tiles and gives it up; mcfg
sets ACCT, traps TILE without matrix mode, and TILECFG when a tile in use would change type without td; without FEAT0.MX all
trap ILL. (R168, R251, R438, R477) -/
def Obligations.MatrixModeRule : Prop :=
  ∀ (s : State) (a : XNum) (t : BitVec 1),
  let held : Bool := s.core.matrix = some s.cur
  (s.feat 3 = false → (Clear s [] → exec .mstart s = .next (s.ill wMstart) ∧ exec (.mstop t) s = .next (s.ill (wMstop t))) ∧
    exec (.mcfg a t) s = .next (s.ill (wMcfg a t))) ∧
  (s.feat 3 = true → Clear s [] →
    (held = true → exec .mstart s = .next s.retire) ∧
    (s.core.matrix = none → s.core.matrixWaiters = [] → s.core.matrixResv = false → ∃ u, exec .mstart s = .next u ∧
      u.core.matrix = some s.cur ∧ u.h.mstat.getLsbD 0 = true ∧ u.h.pc = s.h.afterPc ∧ u.core.kept = none ∧
      ((∃ k, s.core.kept = some k ∧ k.hart = s.cur) → u.core.tiles = s.core.tiles ∧ u.h.mstat = s.h.mstat ||| 1#10) ∧
      ((∀ k, s.core.kept = some k → k.hart ≠ s.cur) → u.core.tiles = Vector.replicate 4 zeroTile ∧ u.h.mstat = (s.h.mstat &&& ~~~0x01E#10) ||| 1#10) ∧
      (∀ k, s.core.kept = some k → k.hart ≠ s.cur → u.harts[k.hart].mstat = s.harts[k.hart].mstat &&& ~~~0x01E#10)) ∧
    (∀ j, s.core.matrix = some j → j ≠ s.cur → ∃ u, exec .mstart s = .next u ∧ u.h.status = .waiting .matrixMode wMstart ∧ u.h.pc = s.h.pc ∧
      s.cur ∈ u.core.matrixWaiters ∧ u.core.matrix = some j) ∧
    (s.h.matrixIdle = true → held = true → s.core.matrixWaiters = [] → ∃ u, exec (.mstop t) s = .next u ∧ u.core.matrix = none ∧
      u.h.mstat.getLsbD 0 = false ∧ u.h.pc = s.h.afterPc ∧
      (if t = 1#1 then u.core.tiles = s.core.tiles ∧ u.core.kept = some ⟨s.cur, s.h.mstat.extractLsb' 1 4⟩ ∧
         u.h.mstat = s.h.mstat &&& ~~~0x021#10
       else u.core.tiles = Vector.replicate 4 zeroTile ∧ u.core.kept = none ∧ u.h.mstat = 0#10)) ∧
    (s.h.matrixIdle = true → held = false → exec (.mstop t) s = .next s.retire) ∧
    (s.h.matrixIdle = false → exec (.mstop t) s = .next (s.wait .retry (wMstop t)))) ∧
  (s.feat 3 = true → Clear s [a] →
    let v : BitVec 4 := (s.x a).setWidth 4
    let dd := (v ^^^ s.h.mstat.extractLsb' 6 4) &&& s.h.mstat.extractLsb' 1 4
    (s.h.matrixOn = false → exec (.mcfg a t) s = .next (s.trapHere cTILE ((wMcfg a t).setWidth 64))) ∧
    (s.h.matrixOn = true → s.h.matrixIdle = true → dd ≠ 0#4 → t = 0#1 → exec (.mcfg a t) s = .next (s.trapHere cTILECFG ((wMcfg a t).setWidth 64))) ∧
    (s.h.matrixOn = true → s.h.matrixIdle = true → dd = 0#4 ∨ t = 1#1 → ∃ u, exec (.mcfg a t) s = .next u ∧ u.h.mstat.extractLsb' 6 4 = v ∧
      u.h.mstat.extractLsb' 1 4 = s.h.mstat.extractLsb' 1 4 &&& ~~~dd ∧ u.h.pc = s.h.afterPc ∧
      ∀ n : BitVec 2, u.core.tile n = if dd.getLsbD n.toNat = true then zeroTile else s.core.tile n))

/-- A fence completes once every earlier access of the hart has performed at its scope and, at clu or wider, empties the scalar data
cache and discards the strips that its engines hold unpopped; until then the hart waits. fsc goes on to wait for the next
heartbeat tick. A hart alone in its region passes gbar at once, and waits there for one that has not come. acqm waits for the
copies with its mask; drainw answers the depth of the error queue. (R336, R338, R344, R348, R585, R586, R587, R588) -/
def Obligations.FencesAndBarriers : Prop :=
  ∀ (s : State) (q : BitVec 3) (d : XNum) (m : MNum),
  let passed (u : State) (c : Nat) : Prop := u.h = (if 3 ≤ c then s.retire.h.dropStrips else s.retire.h) ∧ u.mem = s.mem ∧
    u.core.dcache = (if 3 ≤ c then [] else s.core.dcache)
  (Clear s [] → (q = 6#3 → s.feat 8 = true) →
    (s.performed s.cur q.toNat = true → ∃ u, exec (.fence q) s = .next u ∧ passed u q.toNat) ∧
    (s.performed s.cur q.toNat = false → exec (.fence q) s = .next (s.wait .fence (wFence q)))) ∧
  (Clear s [] → s.feat 8 = false → exec (.fence 6#3) s = .next (s.ill (wFence 6#3))) ∧
  (Clear s [] → s.performed s.cur 1 = true → exec .lsync s = .next s.retire) ∧
  (ClearSync s [] → s.feat 13 = true →
    (s.h.status = .running → (s.h.held || s.h.idleQueues) = true → s.performed s.cur 4 = true → exec .fsc s = .next (s.wait (.tick s.clock.hbeat.toNat) wFsc)) ∧
    (∀ n w, s.h.status = .waiting (.tick n) w → n < s.clock.hbeat.toNat → ∃ u, exec .fsc s = .next u ∧ passed u 3)) ∧
  (ClearSync s [] → 2 ≤ q.toNat → q.toNat ≤ 4 → s.performed s.cur q.toNat = true →
    ∀ k, s.sched.tasks.find? (·.id = s.h.task) = some k → s.cur ∈ k.here →
    ((∀ j ∈ k.here, j = s.cur) → k.others = 0 → ∃ u, exec (.gbar q) s = .next u ∧ passed u q.toNat) ∧
    (∀ j, j ≠ s.cur → s.takesPart k j = true → s.harts[j].arrived q.toNat = false →
      exec (.gbar q) s = .next (s.wait (.barrier q.toNat) (wGbar q)))) ∧
  (ClearSync s [] → (q.toNat < 2 ∨ 4 < q.toNat) → exec (.gbar q) s = .next (s.ill (wGbar q))) ∧
  (ClearSync s [] → m ≠ 0#3 → s.h.held = false →
    exec (.acqm m) s = .next (if s.h.maskDone m = true then s.retire else s.wait .acqm (wAcqm m))) ∧
  (ClearSync s [] → s.drained s.cur = true →
    exec (.drainw d) s = .next (s.setX d ((s.h.eqtail - s.h.eqhead).setWidth 64)).retire) ∧
  (s.h.level = .e → exec .fsc s = .next (s.ill wFsc) ∧ exec (.gbar q) s = .next (s.ill (wGbar q)) ∧ exec (.drainw d) s = .next (s.ill (wDrainw d)))

/-- wfp returns a progress word in plain storage once it is at least its operand, and waits below it. eqpop answers 0 from an empty
error queue, and otherwise stores its oldest entry, moves EQHEAD on and answers 1. (R155, R371, R593, R594) -/
def Obligations.ProgressWaitAndErrorQueue : Prop :=
  ∀ (s u : State) (a b d : XNum) (k : Nat), let va := (s.x a &&& ~~~7#64).toNat; let n := leNat (s.mem.peek k 8)
  (ClearSync s [a, b] → s.h.status = .running → s.h.stbuf = [] → PlacedAt s va 8 .load .aux k u → Sound s k 8 → s.sameBytes false va 8 = false →
    ∃ t, exec (.wfp a b d) s = .next t ∧ (∀ j, byteAt t j = byteAt s j) ∧
      (if (s.x b).toNat ≤ n then t.h.x = xPut s.h.x d (BitVec.ofNat 64 n) ∧ t.h.pc = s.h.afterPc ∧ t.h.status = .running
       else t.h.x = s.h.x ∧ t.h.pc = s.h.pc ∧ t.h.status = .waiting .wfp (wWfp a b d))) ∧
  (ClearSync s [a] → s.h.eqtail = s.h.eqhead → exec (.eqpop a d) s = .next (s.setX d 0#64).retire) ∧
  (∀ kd : Nat, let D (a : Nat) : Prop := kd ≤ a ∧ a < kd + 64
    ClearSync s [a] → s.h.eqLog ≠ 0 → s.h.eqtail ≠ s.h.eqhead → Quiet s → s.h.queue = [] →
    PlainAt s .s D (s.h.eqSlot s.h.eqhead) 64 .load .scalar k → Sound s k 64 → (∀ l ∈ s.core.dcache, l.line ∉ linesOf k 64) →
    PlainAt s s.h.level D (s.x a).toNat 64 .store .scalar kd →
    ∃ t, exec (.eqpop a d) s = .next t ∧ t.h.eqhead = s.h.eqhead + 1#32 ∧ t.h.x = xPut s.h.x d 1#64 ∧ t.h.pc = s.h.afterPc ∧
      (∀ i, i < 64 → byteAt t (kd + i) = byteAt s (k + i)) ∧ ∀ j, ¬ D j → byteAt t j = byteAt s j)

/-- tsk answers the code of R135 for its record, or 3 for a bad operand; tqget takes the next chunk of the task's range, after those
that harts on other cores have taken; gtime reads device time, which never falls; gwait and hbeat return once their target is
reached, and wait until then; gwait traps CLOCK in FREE; tdone stops the hart once it has drained and frees what it held. (R86,
R92, R135, R144, R149, R604, R605, R606, R607, R609) -/
def Obligations.TaskAndTimeResults : Prop :=
  ∀ (s : State) (a b c d : XNum),
  (ClearSync s [a, b] → s.performed s.cur 4 = true →
    ((s.x a).toNat % 256 ≠ 0 ∨ 7 < (s.x b).toNat → exec (.tsk a b d) s = .next (s.setX d 3#64).retire) ∧
    ((s.x a).toNat % 256 = 0 → (s.x b).toNat ≤ 7 → spadBase ≤ (s.x a).toNat → exec (.tsk a b d) s = .next (s.trapHere cPROT (s.x a))) ∧
    (∀ bs u, (s.x a).toNat % 256 = 0 → (s.x b).toNat ≤ 7 → (s.x a).toNat < spadBase →
      s.load s.whoScalar (s.x a).toNat 256 .engine = .ok bs u →
      ∃ t, exec (.tsk a b d) s = .next t ∧ t.mem = u.mem ∧
        let code :=
          if (u.ctx (recCtx bs)).isNone = true then 1
          else if u.h.level = .u ∧ u.h.ctxid.toNat ≠ recCtx bs then 2
          else if taskBad bs = true then 3
          else if 4096 ≤ u.sched.queue.length ∨ 1024 ≤ (u.sched.queue.filter fun r => recCtx r.raw = recCtx bs).length then 4 else 0
        t.h.x = xPut u.h.x d (BitVec.ofNat 64 code) ∧
        (code ≠ 0 → t.sched = u.sched) ∧
        (code = 0 → ∃ r, t.sched.queue = u.sched.queue ++ [r] ∧ r.raw = bs ∧ r.prio = (s.x b).toNat))) ∧
  (ClearSync s [] → c ≠ d ∨ c = 0#5 → s.stopsHere true = false →
    (∀ k, s.sched.tasks.find? (·.id = s.h.task) = some k → k.hasQueue = true → ∃ t n, exec (.tqget c d) s = .next t ∧ (k.others = 0 → n = 0) ∧ let q := k.pulled n
      t.h.x = xPut (xPut s.h.x d (BitVec.ofNat 64 q.next)) c (BitVec.ofNat 64 q.chunk) ∧
      t.sched.tasks.find? (·.id = s.h.task) = some { q with next := q.next + q.chunk, rem := q.rem - q.chunk }) ∧
    ((∀ k, s.sched.tasks.find? (·.id = s.h.task) = some k → k.hasQueue = false) → exec (.tqget c d) s = .next ((s.setX d 0#64).setX c 0#64).retire)) ∧
  (ClearSync s [] → c = d → c ≠ 0#5 → exec (.tqget c d) s = .next (s.ill (wTqget c d))) ∧
  (ClearSync s [] → ∃ t, exec (.gtime d) s = .next t ∧ s.clock.gtime ≤ t.clock.gtime ∧
    t.h.x = xPut s.h.x d (BitVec.ofNat 64 (t.clock.gtime / 65536)) ∧ t.h.pc = s.h.afterPc ∧ t.mem = s.mem) ∧
  (s.feat 10 = true → ClearSync s [a] →
    (s.timeState = .free → exec (.gwait a d) s = .next (s.trapHere cCLOCK 0#64)) ∧
    (s.timeState ≠ .free → (s.x a).toNat ≤ s.passTime.gtimeNs → ∃ t, exec (.gwait a d) s = .next t ∧
      t.h.x = xPut s.h.x d (BitVec.ofNat 64 t.gtimeNs) ∧ t.h.pc = s.h.afterPc ∧ t.mem = s.mem) ∧
    (s.timeState ≠ .free → s.passTime.gtimeNs < (s.x a).toNat → ∃ t, exec (.gwait a d) s = .next t ∧ t.h.status = .waiting .gwait (wGwait a d) ∧
      t.h.pc = s.h.pc ∧ t.h.x = s.h.x)) ∧
  (s.feat 10 = false → exec (.gwait a d) s = .next (s.ill (wGwait a d))) ∧
  (ClearSync s [a] → (s.x a).toNat ≤ s.clock.hbeat.toNat → exec (.hbeat a d) s = .next (s.setX d s.clock.hbeat).retire) ∧
  (ClearSync s [a] → s.clock.hbeat.toNat < (s.x a).toNat → exec (.hbeat a d) s = .next (s.wait (.tick s.clock.hbeat.toNat) (wHbeat a d))) ∧
  (ClearSync s [] → s.h.queue = [] → s.performed s.cur 4 = true → s.hartRemote s.cur = false → s.h.status = .running → s.sched.starts = [] →
    ∃ t, exec .tdone s = .next t ∧ (t.h.status = .done ∨ t.h.status = .idle) ∧ t.core.heldBy s.cur = 0#4 ∧ t.core.matrix ≠ some s.cur ∧
      t.h.resv = none ∧ t.mem = s.mem) ∧
  (ClearSync s [] → s.h.queue ≠ [] → exec .tdone s = .next (s.wait .fence wTdone))

/-- For a hart that waits with the word of an instruction, the event that ends that wait executes the instruction as that hart: a
retired form, a fence, a barrier's arrival, acqm, drainw, tdone, wfp, wfe, gwait, an access at a FIFO, an invalidation. For a
hart that runs, these events do nothing. (R164, R311, R336, R348, R376, R467, R470, R589, R593, R595, R607, R609) -/
def Obligations.WaitEventsRunTheWaitingInstruction : Prop :=
  ∀ (s : State) (h : Fin 4) (d a b : BitVec 5) (m : BitVec 3) (n : BitVec 2) (w : BitVec 3) (o : BitVec 13),
  Resumes s (.emulationEntry h) h (.smac d a b) ∧
  Resumes s (.emulationEntry h) h (.smacz d a b) ∧
  Resumes s (.emulationEntry h) h (.vaaddVv d a b m) ∧
  Resumes s (.emulationEntry h) h (.vaadduVv d a b m) ∧
  Resumes s (.emulationEntry h) h (.vasubVv d a b m) ∧
  Resumes s (.emulationEntry h) h (.vasubuVv d a b m) ∧
  Resumes s (.emulationEntry h) h (.vaaddVx d a b m) ∧
  Resumes s (.emulationEntry h) h (.vaadduVx d a b m) ∧
  Resumes s (.emulationEntry h) h (.vasubVx d a b m) ∧
  Resumes s (.emulationEntry h) h (.vasubuVx d a b m) ∧
  Resumes s (.emulationEntry h) h (.tmop n a b) ∧
  Resumes s (.emulationEntry h) h (.tmzero n) ∧
  Resumes s (.fenceComplete h) h (.fence m) ∧
  Resumes s (.fenceComplete h) h (.lsync) ∧
  Resumes s (.fenceComplete h) h (.ifence) ∧
  Resumes s (.barrierArrival h) h (.gbar m) ∧
  Resumes s (.acqmComplete h) h (.acqm m) ∧
  Resumes s (.drainwComplete h) h (.drainw d) ∧
  Resumes s (.tdoneStop h) h (.tdone) ∧
  Resumes s (.wfpWake h) h (.wfp a b d) ∧
  Resumes s (.wfeWake h) h (.wfe) ∧
  Resumes s (.gwaitWake h) h (.gwait a d) ∧
  Resumes s (.fifoWaitServed h) h (.ld d a w o) ∧
  Resumes s (.fifoWaitServed h) h (.st d a n o) ∧
  Resumes s (.tlbInvalidateDone h) h (.tinv a) ∧
  Resumes s (.tlbInvalidateDone h) h (.tinva) ∧
  (s.harts[h].status = .running → ∀ ev ∈ ([.emulationEntry h, .fenceComplete h, .barrierArrival h, .acqmComplete h, .drainwComplete h, .tdoneStop h, .wfpWake h, .wfeWake h, .gwaitWake h, .fifoWaitServed h, .tlbInvalidateDone h] : List Instr), exec ev s = .next s)

/-- An event of an engine lets the entry it is about begin, write a pass, or retire; a trap in queue or an asynchronous trap is
taken when it is due; stores perform; translations are kept; lane groups and matrix mode go to their waiters; barriers release;
signals set EV; the heartbeat counts and wakes its waiters; the dispatch unit decides. (R90, R141, R162, R168, R208, R303, R327,
R363, R365, R436, R468, R589) -/
def Obligations.EngineAndUnitEvents : Prop :=
  ∀ (s : State) (h : Fin 4),
  Begins s (.intersectStart h) h (s.harts[h].headOf .intersect) ∧
  Begins s (.matrixStepEntry h) h (s.harts[h].headOf .matrix) ∧
  Begins s (.copyBegin h) h (s.harts[h].queue.find? fun e => e.post.eng == .copy && !e.started) ∧
  Heads s (.matrixStepWrite h) h .matrix ∧ (∀ g : Fin 5, Heads s (.engineRetire h g) h (engineOf g)) ∧
  (∀ g e, LoneVector s h g e → s.harts[h].laneMay e = true →
    (e.laned = false → e.started = false → exec (.vectorPassEntry ⟨h, g⟩) s = .next (s.byEvents.modHart h fun x => (x.beginEntry e).1)) ∧
    (∀ p, e.laneBody.isSome = true → NextPass s h g e LanePos.entered p → s.harts[h].passMask e p = true → ∃ t, exec (.vectorPassEntry ⟨h, g⟩) s = .next t ∧
      t.mem = s.mem ∧ t.harts[h].v = s.harts[h].v ∧ t.harts[h].m = s.harts[h].m ∧ ∃ x, t.harts[h].queue = [x] ∧ x.eid = e.eid ∧ x.started = true ∧
        (x.at_ g).entered = p.hi ∧ x.prog = e.prog)) ∧
  (∀ g e, LoneVector s h g e → e.started = true →
    (∀ u e' x, e.laned = false → s.harts[h].held = false → s.harts[h].frozen = false →
      (bodyRun h e.wholeEnd e s.byEvents = (.part u e', x) → exec (.vectorPassWrite ⟨h, g⟩) s = .next (u.putEntry h e')) ∧
      (bodyRun h e.wholeEnd e s.byEvents = (.done u e', x) → exec (.vectorPassWrite ⟨h, g⟩) s = .next (u.entryDone h e' x))) ∧
    (∀ f p, e.laneBody = some f → e.post.body ≠ .cvt none → NextPass s h g e LanePos.wrote p → p.hi ≤ (e.at_ g).entered → p.lo ≤ e.prog → e.ahead = [] →
      s.harts[h].releases = [] → let r := f (max p.lo e.prog) p.hi s.harts[h]
      ∃ t, exec (.vectorPassWrite ⟨h, g⟩) s = .next t ∧ t.mem = s.mem ∧ t.harts[h].v = r.v ∧ t.harts[h].m = r.m ∧ t.harts[h].fcsr = r.fcsr ∧
        (e.total ≤ p.hi → t.harts[h].queue = []) ∧
        (p.hi < e.total → ∃ x, t.harts[h].queue = [x] ∧ x.eid = e.eid ∧ x.prog = p.hi ∧ (x.at_ g).wrote = p.hi))) ∧
  (∀ e mode mw sx sc x l1 l2, s.harts[h].queue = [e] → e.post.body = .load mode mw sx sc → e.slots = l1 ++ x :: l2 → (∀ y ∈ l1, y.data ≠ none) →
    x.data = none → x ∉ l1 → x ∉ l2 → Quiet { s with cur := h } →
    let w := memBits e.cap.et mw
    let act := ((List.range (x.hi - x.lo)).map (x.lo + ·)).filter fun j => e.cap.active s.harts[h] (j / e.vl) (j % e.vl)
    ∀ key : Nat → Nat,
      (∀ j ∈ act, let va := elemAddr mode e (s.harts[h].vreg e.post.b) w j
        PlainAt { s with cur := h } e.level noByte va ((w + 7) / 8) .load .vector (key j) ∧ Sound s (key j) ((w + 7) / 8)) →
      ∃ t, exec (.loadDataArrival ⟨h, 0⟩) s = .next t ∧ (∀ a, byteAt t a = byteAt s a) ∧ t.harts[h].v = s.harts[h].v ∧ ∃ e', t.harts[h].queue = [e'] ∧
        e'.slots = l1 ++ { x with data := some (act.map fun j =>
          (j, let v := leNat (s.mem.peek (key j) ((w + 7) / 8)); if w = 4 then v / 16 ^ (j % 2) % 16 else v), none) } :: l2) ∧
  Tries s (.notifyStore h) h QEntry.notifies ∧ Tries s (.copyChunkComplete h) h (fun e => e.post.body.isCopy && e.started) ∧
  Tries s (.verifyHashDone h) h (fun e => e.post.body.isCopy && e.started && copyKind (e.memo.headD 0) == 1) ∧
  Tries s (.cwaitRetire h) h (fun e => e.post.body == .cwait) ∧ Tries s (.cappAppend h) h (fun e => e.post.body == .capp) ∧
  Tries s (.sbindEngineClaim h) h (fun e => e.post.body == .sbind) ∧
  Joins s (.mgangBind h) h .gang ∧ Joins s (.mgsyncRelease h) h .gsync ∧
  (∀ (b : Fin 4) e u e' l o, s.harts[h].queue.find? (fun e => e.strips.any fun x => x.reg == s.harts[h].sb[b].reg) = some e →
    s.harts[h].frozen = false → stripsLoop h e.strips s e [] = (u, e', l, o) → (∀ t, o ≠ .trap t) → exec (.streamStripFetch h b) s = .next (u.putEntry h { e' with strips := l })) ∧
  (∀ e rest t, s.harts[h].queue = e :: rest → (∀ x ∈ rest, e.eid < x.eid) → e.pend = some t → e.apart = false → s.mayRun h e = true → s.harts[h].canTrap = true →
    s.harts[h].level ≠ .e → s.harts[h].etvec ≠ 0#64 → ∃ u, exec (.trapInQueue h) s = .next u ∧ u.harts[h].ecause = t.cause ∧ u.harts[h].etval = t.tval ∧
      u.harts[h].epc = s.harts[h].pc ∧ u.harts[h].level = .s ∧ u.harts[h].pc = s.harts[h].etvec ∧ u.harts[h].held = true ∧ u.mem = s.mem) ∧
  (∀ t rest, s.harts[h].asyncs = t :: rest → s.harts[h].asyncDue = true → s.harts[h].etvec ≠ 0#64 → ∃ u, exec (.asyncTrapDelivery h) s = .next u ∧
    u.harts[h].ecause = t.cause ∧ u.harts[h].etval = t.tval ∧ u.harts[h].epc = s.harts[h].pc ∧ u.harts[h].level = .s ∧
    u.harts[h].pc = s.harts[h].etvec ∧ u.harts[h].asyncs = rest ∧ u.mem = s.mem) ∧
  (∀ w, isReserved w = true → s.harts[h].status = .running → exec (.reservedEncoding h w) s = .next { State.ill { s with cur := h } w with cur := s.cur }) ∧
  (∀ t, s.harts[h].status = .running → State.fetch { s with cur := h } = .error t →
    exec (.pfFetch h s.harts[h].pc) s = .next { t with cur := s.cur }) ∧
  (∀ b rest k va bs, s.harts[h].stbuf = b :: rest → s.mem.wf = true → s.mem.sca = [] → s.mem.sealed = [] → s.bankMode b.va.toNat = b.mode →
    PlainAt { s with cur := h } b.level (fun a => k ≤ a ∧ a < k + b.size) b.va.toNat b.size .store .scalar k →
    ∃ t, exec (.storePerform (.buffer h) va bs) s = .next t ∧ BytesWritten s t k (natLe b.size b.data.toNat) ∧ t.harts[h].stbuf = rest) ∧
  (∀ a o b k va bs, (∃ g, a = .lane h g ∧ o = some g) ∨ (a = .copy h ∧ o = none) → s.harts[h].late.find? (·.lane == o) = some b →
    s.harts[h].lateReady b = true → s.mem.wf = true → s.mem.sca = [] → s.mem.sealed = [] → s.bankMode b.va.toNat = b.mode →
    PlainAt { s with cur := h } b.level (fun a => k ≤ a ∧ a < k + b.bytes.length) b.va.toNat b.bytes.length .store .engine k →
    ∃ t, exec (.storePerform a va bs) s = .next t ∧ BytesWritten s t k b.bytes ∧ t.harts[h].late = s.harts[h].late.erase b) ∧
  (∀ (c : BitVec 32) va k bs, s.mem.wf = true → s.mem.sca = [] → s.mem.sealed = [] →
    PlainAt (s.mod fun x => { x with ctxid := c }) .s (fun a => k ≤ a ∧ a < k + bs.length) va.toNat bs.length .store .engine k →
    ∃ t, exec (.storePerform (.agent c.toNat) va bs) s = .next t ∧ BytesWritten s t k bs ∧
      ∀ (j : Fin 4) l, s.harts[j].resv = some l → l ∈ linesOf k bs.length → t.harts[j].resv = none) ∧
  (∀ va (kind : Fin 4) e, s.harts[h].isRunning = true → va.toNat < 2 ^ 48 → s.walk s.harts[h].ctxid.toNat va.toNat = .page e →
    ∃ t, exec (.tableWalkDone h va kind) s = .next t ∧ e ∈ t.tlbHits e.asid va.toNat ∧ { t with mem := s.mem, core := s.core } = s ∧ t.mem.cells = s.mem.cells) ∧
  (s.sched.starts = [] → ∃ t, exec .laneGroupGrant s = .next t ∧ t.mem = s.mem ∧ (∀ i : Fin 4, laneAsk s.harts[i] = none → t.harts[i] = s.harts[i]) ∧
    (s.settleLanes.core.anyFree = true → ∀ i n, s.firstLaneWaiter = some (i, n) → t.harts[i].laneServed = true)) ∧
  (∀ i rest, s.sched.starts = [] → s.core.matrix = none → s.core.matrixResv = false → s.core.matrixWaiters = i :: rest → ∃ t, exec .matrixModeGrant s = .next t ∧
    t.core.matrix = some i ∧ t.core.matrixWaiters = rest ∧ t.harts[i].mstat.getLsbD 0 = true ∧ t.harts[i].matrixServed = true) ∧
  (∀ id (c : BitVec 3) k, s.sched.tasks.find? (·.id = id) = some k → (∃ i, s.takesPart k i = true) →
    (∀ i, s.takesPart k i = true → s.harts[i].arrived c.toNat = true) → ∃ t, exec (.barrierRelease id c) s = .next t ∧ t.mem = s.mem ∧
    (3 ≤ c.toNat → t.core.dcache = []) ∧ t.sched.tasks = (s.sched.tasks.map fun x => if x.id = k.id then { x with arrived := 0 } else x) ∧
    ∀ i : Fin 4, t.harts[i] = if s.takesPart k i = true then
        let x := if 3 ≤ c.toNat then s.harts[i].dropStrips else s.harts[i]
        { x.loopStep x.pc with status := .running, laneServed := false, matrixServed := false }
      else s.harts[i]) ∧
  (∀ id c, ∃ t, exec (.eventSignalArrival id c) s = .next t ∧ t.mem = s.mem ∧ t.sched.signals = s.sched.signals.erase (id, c) ∧
    ∀ i : Fin 4, t.harts[i] = if s.hartId i = id.toNat ∧ s.harts[i].isRunning = true ∧ s.harts[i].ctxid = c then { s.harts[i] with ev := true } else s.harts[i]) ∧
  (∀ adv, let u : State := { s with clock := { s.clock with gtime := s.clock.gtime + adv, hbeat := s.clock.hbeat + 1#64 }, sched := { s.sched with now := s.sched.now + 256 } }
    (s.host.state ≠ .ready → exec (.heartbeatTick adv) s = .next s) ∧
    ((∀ g ∈ s.sched.gangs, g.passed = true ∨ g.t * 65536 ≤ s.clock.gtime ∨ s.clock.gtime + adv < g.t * 65536) →
    (s.host.state = .ready → (∀ (i : Fin 4) n w, s.harts[i].status ≠ .waiting (.tick n) w) → exec (.heartbeatTick adv) s = .next u) ∧
    (s.host.state = .ready → (∀ (i : Fin 4) n w, i ≠ h → s.harts[i].status ≠ .waiting (.tick n) w) →
      ∀ (n : Nat) (a d : XNum), s.harts[h].frozen = false → s.harts[h].status = .waiting (.tick n) (wHbeat a d) →
        ∃ t, exec (.hbeat a d) { u with cur := h } = .next t ∧ exec (.heartbeatTick adv) s = .next { t with cur := s.cur }))) ∧
  (∀ r, (∀ k ∈ s.sched.tasks, k.others = 0 ∧ s.taskOver k = false) → s.sched.starts = [] → s.decision = some r →
    exec .taskDispatch s = .next (s.dispatchRec r))

/-- A request is checked for form, age, domain, generation and tag in this order, then performed and answered with its type's
answer, addressed to its source under its tag; an answer completes the outstanding request of its tag. A store's answer ends the
request; a request without an answer completes with TIMEOUT and holds its tag. (R63, R64, R65, R67, R72, R73, R74, R76, R78,
R104, R323, R642) -/
def Obligations.HomeRequestsAndAnswers : Prop :=
  TurnsAway .ldreq pktReadOk false (fun p st s => s.reply p 0x02 st 0#64 []) ∧ TurnsAway .cpyrd pktReadOk true (fun p st s => s.reply p 0x11 st p.spec64 []) ∧
  TurnsAway .streq pktWriteOk false (fun p st s => s.reply p 0x04 st 0#64 []) ∧ TurnsAway .cpywr pktWriteOk true (fun p st s => s.reply p 0x13 st 0#64 []) ∧
  TurnsAway .amoreq pktAmoOk false (fun p st s => s.reply p 0x06 st 0#64 []) ∧ TurnsAway .scareq pktScaOk false (fun p st s => s.reply p 0x08 st 0#64 []) ∧
  TurnsAway .pdelta pktDeltaOk false (fun p st s => s.reply p 0x0A st 0#64 []) ∧
  (∀ (s : State) (p : Packet) c d,
    (pktReadOk p = true → AtHome s p false c d →
      (∀ bs u, s.homeRead c (pktOff p) (pktSize p) = .ok (bs, u) → exec (.ldreq p) s = .next (u.reply p 0x02 0 0#64 bs)) ∧
      (∀ st, s.homeRead c (pktOff p) (pktSize p) = .error st → exec (.ldreq p) s = .next (s.reply p 0x02 st 0#64 []))) ∧
    (pktReadOk p = true → AtHome s p true c d →
      (∀ bs u, s.homeCopyRead c (pktOff p) (pktSize p) = .ok (bs, u) → exec (.cpyrd p) s = .next (u.reply p 0x11 0 p.spec64 bs)) ∧
      (∀ st, s.homeCopyRead c (pktOff p) (pktSize p) = .error st → exec (.cpyrd p) s = .next (s.reply p 0x11 st p.spec64 []))) ∧
    (pktWriteOk p = true → AtHome s p false c d →
      (∀ t, s.homeWrite c (pktOff p) (d.take (pktSize p)) = .ok t → exec (.streq p) s = .next (t.replyHeld p 0x04 s.fab.nextReq)) ∧
      (∀ st, s.homeWrite c (pktOff p) (d.take (pktSize p)) = .error st → exec (.streq p) s = .next (s.reply p 0x04 st 0#64 []))) ∧
    (pktWriteOk p = true → AtHome s p true c d →
      (∀ t, s.homeCopyWrite c (pktOff p) (d.take (pktSize p)) = .ok t → exec (.cpywr p) s = .next (t.replyHeld p 0x13 s.fab.nextReq)) ∧
      (∀ st, s.homeCopyWrite c (pktOff p) (d.take (pktSize p)) = .error st → exec (.cpywr p) s = .next (s.reply p 0x13 st 0#64 []))) ∧
    (pktAmoOk p = true → AtHome s p false c d →
      (∀ old u, s.homeAmo c p d = .ok (old, u) → exec (.amoreq p) s = .next (u.reply p 0x06 0 0#64 (natLe 8 old ++ List.replicate 8 0#8))) ∧
      (∀ st, s.homeAmo c p d = .error st → exec (.amoreq p) s = .next (s.reply p 0x06 st 0#64 []))) ∧
    (pktScaOk p = true → AtHome s p false c d → ∀ op, scaOfCode (p.spec16.toNat % 8) = some op →
      let n := p.dbeats.toNat - (if p.enc then 1 else 0)
      let es := (List.range n).map fun i => scaEntryOf (p.spec16.extractLsb' 4 4) (slice d (16 * i) 16)
      let r := scaEach c op (p.spec16.extractLsb' 4 4) (p.spec64.extractLsb' 0 32) es none s
      exec (.scareq p) s = .next (r.2.reply p 0x08 (match r.1 with | some b => b.2 | none => 0) 0#64 [])) ∧
    (pktDeltaOk p = true → AtHome s p false c d →
      let n := 16 * (p.dbeats.toNat - (if p.enc then 1 else 0))
      (2 ^ 44 < pktOff p + n → exec (.pdelta p) s = .next (s.reply p 0x0A 1 0#64 [])) ∧
      (pktOff p + n ≤ 2 ^ 44 → ∀ st u, s.applyDelta c (p.spec16.toNat % 256) (pktOff p) (d.take n) = (st, u) →
        exec (.pdelta p) s = .next (u.reply p 0x0A st 0#64 [])))) ∧
  (∀ (s : State) (p : Packet) ty st v bs, ∃ r,
    (p.src ≠ s.fab.epid → (s.reply p ty st v bs).fab.sent = s.fab.sent ++ [r] ∧ (s.reply p ty st v bs).fab.turned = s.fab.turned) ∧
    (p.src = s.fab.epid → (s.reply p ty st v bs).fab.turned = s.fab.turned ++ [r] ∧ (s.reply p ty st v bs).fab.sent = s.fab.sent) ∧ r.dst = p.src ∧ r.src = s.fab.epid ∧ r.tag = p.tag ∧
    r.job = p.job ∧ r.gen = p.gen ∧ r.flow = p.flow ∧ r.spec16 = BitVec.ofNat 16 st ∧ r.ptype = BitVec.ofNat 8 ty ∧ r.age = 0#8) ∧
  Completes .ldrsp (fun p => pktData p 1 16 && p.spec64 == 0#64) ∧ Completes .stcmp pktBare ∧ Completes .amorsp (fun p => pktData p 1 1 && p.spec64 == 0#64) ∧
  Completes .scacmp pktBare ∧ Completes .pdack pktBare ∧ Completes .cpydat (fun p => pktData p 1 16 && decide (p.spec64.toNat < 2 ^ 44)) ∧
  Completes .cpycmp pktBare ∧
  (∀ (s : State) (p : Packet) o, p.zerosOk = true → p.spec16.toNat < 128 → p.spec64.toNat < 2 ^ 32 → pktBeats p 0 = true → tooOld p = false →
    s.fab.outstanding.find? (·.tag = p.tag.toNat) = some o → exec (.tlack p) s = .next (s.answered o p.spec16.toNat [])) ∧
  (∀ (s : State) (p : Packet) o h va n, pktBare p = true → p.spec16 = 0#16 → tooOld p = false → p.enc = false → s.fab.waiting = [] →
    s.fab.outstanding.find? (·.tag = p.tag.toNat) = some o → o.purpose = .store h va n →
    ∃ t, exec (.stcmp p) s = .next t ∧ t.fab.outstanding = s.fab.outstanding.filter (·.rid != o.rid) ∧ t.harts = s.harts ∧ t.mem = s.mem) ∧
  (∀ (s : State) tag o, s.fab.outstanding.find? (·.tag = tag) = some o →
    exec (.requestTimeout tag) s = .next (State.answered { s with fab := { s.fab with heldTags := s.fab.heldTags ++ [tag] } } o 8 [])) ∧
  (∀ (s : State) tag, s.fab.waiting = [] → exec (.tagRelease tag) s =
    .next { s with fab := { s.fab with heldTags := s.fab.heldTags.filter (· != tag) } })

/-- Each message of the gang protocol and each of its instants has its effect on the record it names; packets of reductions are used
or held; keys end at their expiry; SPDM fragments are put together; Bellwethers gather offsets, follow their grandmaster, and
leave LOCKED for HOLDOVER and UNCERTAIN. (R84, R87, R95, R96, R100, R103, R109, R111, R175, R177, R196, R641) -/
def Obligations.GangTrustAndTimeEvents : Prop :=
  ∀ (s : State) (p : Packet) (gid : BitVec 32) (t : Nat),
  (pktRedOk p = true → tooOld p = false → exec (.reduce p) s = .next (s.reduceArrive p) ∧ exec (.redres p) s = .next (s.reduceArrive p)) ∧
  (∀ e d, s.jobEntry p.job = some e → e.gen = p.gen → e.state ≠ .quarantine → s.openPacket p = some d → s.reduction p.job (p.spec64.extractLsb' 0 32) = none →
    s.trust.retiredRids.contains (p.job, p.spec64.extractLsb' 0 32) = false → (s.trust.held.map fun x => heldSize x.pkt).sum + heldSize p ≤ 65536 →
    (s.reduceArrive p).trust.held = s.trust.held ++ [⟨p⟩]) ∧
  (∀ i, exec (.reduceHoldTimeout i) s = .next { s with trust := { s.trust with held := s.trust.held.eraseIdx i } }) ∧
  (∀ job rid, (∀ r, s.reduction job rid = some r → exec (.reductionTimeout job rid) s = .next (s.failReduction r)) ∧
    (s.reduction job rid = none → exec (.reductionTimeout job rid) s = .next s)) ∧
  (∀ job k, s.jobKey job = some k → ∃ u, exec (.jobkeyExpiry job) s = .next u ∧ u.jobKey job = none ∧
    (NoInstants s → (k.expiry + 1) * 65536 ≤ u.clock.gtime) ∧
    ∀ j, j ≠ job → u.jobKey j = s.jobKey j) ∧
  (pktSpdmOk p = true → tooOld p = false → exec (.spdmmsg p) s = .next (s.spdmFragment p.src p.data)) ∧
  (∀ src q, ∃ u, exec (.spdmReassemblyTimeout src q) s = .next u ∧ ∀ x, x ∈ u.trust.spdm ↔ x ∈ s.trust.spdm ∧ ¬ (x.src = src ∧ x.mseq = q)) ∧
  (p.zerosOk = true → p.spec16 = 0#16 → p.spec64 = 0#64 → p.dbeats = 12#5 → p.enc = false → tooOld p = false →
    let raw := p.data.take 192
    let gang : BitVec 64 := (recGang raw).setWidth 64
    (s.recBad raw = true → exec (.tlrec p) s = .next (s.reply p 0x0E 9 gang [])) ∧
    (s.recBad raw = false → s.homeCtx p = none → exec (.tlrec p) s = .next (s.reply p 0x0E (4 + s.recFlags raw) gang [])) ∧
    (s.recBad raw = false → (s.homeCtx p).isSome = true → ∀ st u, s.takeRecord raw p.job (recCoord raw) = (st, u) →
      exec (.tlrec p) s = .next (u.reply p 0x0E st gang []))) ∧
  (tooOld p = false → s.record p.itag p.spec64.toNat = none →
    (pktCtl p 0 1 = true → exec (.gangctlArm p) s = .next s) ∧ (pktCtl p 3 0 = true → exec (.gangctlGo p) s = .next s) ∧
    (pktCtl p 2 0 = true → exec (.gangctlCancel p) s = .next (s.sendCtl p.src p.job p.itag p.spec64.toNat 33))) ∧
  (tooOld p = false → ∀ g, s.record p.itag p.spec64.toNat = some g → g.coord = p.src →
    (pktCtl p 0 1 = true → exec (.gangctlArm p) s = .next (s.arm g (p.spec16.getLsbD 4))) ∧
    (pktCtl p 2 0 = true → g.acted = false → exec (.gangctlCancel p) s = .next ((s.dropRecord g).sendCtl p.src p.job p.itag p.spec64.toNat 33)) ∧
    (pktCtl p 2 0 = true → g.acted = true → exec (.gangctlCancel p) s = .next (s.sendCtl g.coord g.job g.gangid g.t 4)) ∧
    (pktCtl p 3 0 = true → g.armed = true → g.wave = true → g.acted = false → exec (.gangctlGo p) s = .next (s.act g))) ∧
  (pktCtl p 1 2 = true → tooOld p = false → (∀ i : Fin 4, s.harts[i].frozen = false) → ∃ u, exec (.gangctlAcknowledge p) s = .next u ∧ u.mem = s.mem ∧
    ∀ i : Fin 4, u.harts[i].queue = s.harts[i].queue.map fun e => if ackFor p e = true then { e with memo := e.memo ++ [1] } else e) ∧
  (∀ e, pktCtl p 4 0 = true → tooOld p = false → s.jobEntry p.job = some e → exec (.gangctlStraggler p) s = .next (s.errorToCollector e.ctxid
    { va := 0#64, peer := p.src, itag := 0#32, kind := 7, st := 0, attr := 0#8, hart := none, job := p.job, aux := p.itag.toNat, data := [] })) ∧
  (∀ g, s.record gid t = some g → exec (.gangPreparationDone gid t) s = .next (s.prepare g)) ∧
  (∀ g0, s.record gid t = some g0 →
    (g0.passed = true → exec (.switchInstant gid t) s = .next s) ∧
    (g0.passed = false → s.due t = [g0] → g0.acted = false →
      let g := { g0 with passed := true }
      let u := { s.putRecord g with clock := { s.clock with gtime := max s.clock.gtime (t * 65536) } }
      (g.armed = true → g.wave = false → exec (.switchInstant gid t) s = .next (u.act g)) ∧
      (g.armed = true → g.wave = true → s.offer gid t = none → exec (.switchInstant gid t) s = .next u) ∧
      (g.armed = false → g.told = false → exec (.switchInstant gid t) s =
        .next (((u.raiseAsync (stragglerTrap gid)).tellStraggler g).dropRecord g)))) ∧
  (∀ o, s.offer gid t = some o →
    (o.mode = 0 → (∃ e ∈ o.members, ∀ a ∈ o.acks, a.1 = e → a.2 ≠ 0 ∧ a.2 ≠ 16) → exec (.modeDecision gid t) s = .next ((s.reach (t - 10000)).cancelOffer o)) ∧
    (o.mode = 0 → (∀ e ∈ o.members, (e, 0) ∈ o.acks) → ∃ u, exec (.modeDecision gid t) s = .next u ∧
      (s.record gid t = none → u.sched.offers = s.sched.offers.map fun x => if x.gangid = gid ∧ x.t = t then { x with mode := 1 } else x)) ∧
    (o.mode = 1 ∨ o.mode = 2 → o.armAcks = [] → exec (.armAckDeadline gid t) s = .next ((s.reach (t - 4000)).cancelOffer o)) ∧
    (o.mode = 3 → s.gtimeNs < t → o.members = [p.src] → o.cancelAcks = [] →
      exec (.cancelResend gid t) s = .next (s.sendCtl p.src (s.jobOf o.ctxid.toNat) gid t 2)) ∧
    (o.mode = 3 → ∃ u, exec (.gangReoffer gid t) s = .next u ∧ ∃ x, x ∈ u.sched.offers ∧ x.round = o.round + 1 ∧ x.mode = 0 ∧
      x.raw = splice o.raw 32 (natLe 8 (t + 100000)))) ∧
  (∀ g c, s.preempting gid t = some (g, c) →
    (c.isCompat = false → c.drain ≠ 0 → exec (.stragglerLimit gid t) s = .next ((s.reach (g.startTime + 50000)).raiseAsync (stragglerTrap gid))) ∧
    (c.isCompat = true → s.allStopped g.ctxid = false → exec (.watchdogExpiry gid t) s =
      .next ((((s.reach (g.startTime + 1000 * s.wdlimit g)).tellStraggler g).killContext g.ctxid.toNat cWDOG).raiseAsync ⟨cWDOG, g.ctxid.setWidth 64⟩)) ∧
    (c.drain = 0 → s.allStopped g.ctxid = true → (∀ i : Fin 4, s.harts[i].stbuf = [] ∧ s.harts[i].late = [] ∧ s.harts[i].eqWait = []) →
      s.imageWaits g = false → exec (.saveImageWrite gid t) s =
        .next ((((s.settleFreeze.writeImage g c).tick.switchOut g).putRecord { g with finished := true }).tick))) ∧
  (∀ (die : Fin 2) raw ptp syncs, let b := s.clock.bell[die]
    (∀ x rest, syncs.filter b.valid = x :: rest → let off : Int := raw - b.delays[x.port]
      ∃ u, exec (.ptpSync die raw ptp syncs) s = .next u ∧ u.mem = s.mem ∧ u.harts = s.harts ∧
        u.clock.bell[die].offsets = (off.natAbs :: b.offsets).take 16 ∧ u.clock.bell[die].missed = 0 ∧
        u.clock.bell[die].good = (if off.natAbs < 50 then b.good + 1 else 0) ∧
        (off.natAbs < 50 → 15 ≤ b.good → (s.clock.src ≠ die ∨ b.tstate ≠ .free ∨ s.host.state ≠ .ready ∨ s.clock.gtime ≤ ptp) →
          u.clock.bell[die].tstate = .locked) ∧
        (s.clock.src = die → b.tstate = .free → off.natAbs < 50 → 15 ≤ b.good → s.host.state ≠ .ready → u.clock.gtime = ptp)) ∧
    (syncs.filter b.valid = [] → ∃ u, exec (.ptpSync die raw ptp syncs) s = .next u ∧ u.mem = s.mem ∧ u.harts = s.harts ∧ u.clock.gtime = s.clock.gtime ∧
      u.clock.bell[die].good = 0 ∧ u.clock.bell[die].missed = b.missed + 1 ∧
      u.clock.bell[die].tstate = (if b.tstate = .locked ∧ 3 ≤ b.missed then .holdover else b.tstate))) ∧
  (∀ (die : Fin 2) (port : Fin 12) a, let b := s.clock.bell[die]
    let ms := (port, a) :: b.masters.filter (·.1 ≠ port)
    (a.domain ≠ 0 → exec (.ptpAnnounce die ⟨port, a⟩) s = .next s) ∧
    (a.domain = 0 → ∃ u, exec (.ptpAnnounce die ⟨port, a⟩) s = .next u ∧ u.mem = s.mem ∧ u.clock.bell[die].masters = ms ∧
      u.clock.bell[die].tstate =
        (if b.grandmaster ≠ none ∧ { b with masters := ms }.grandmaster ≠ b.grandmaster ∧ b.tstate = .locked then .holdover else b.tstate))) ∧
  (∀ (die : Fin 2) (port : Fin 12) (t1 t2 t3 t4 : Int), ∃ u, exec (.ptpPdelay ⟨die, port⟩ ⟨t1, t2, t3, t4⟩) s = .next u ∧ { u with clock := s.clock } = s ∧
    u.clock.bell[die].delays[port] = ((t4 - t1) - (t3 - t2)) / 2 ∧
    (∀ q : Fin 12, q ≠ port → u.clock.bell[die].delays[q] = s.clock.bell[die].delays[q]) ∧ u.clock.bell[die].tstate = s.clock.bell[die].tstate) ∧
  (∀ die : Fin 2, s.clock.bell[die].tstate = .locked → ∃ u, exec (.syncLossTimeout die) s = .next u ∧ u.clock.bell[die].tstate = .holdover ∧
    u.clock.bell[die].good = 0 ∧ u.mem = s.mem ∧ u.harts = s.harts) ∧
  (∀ die : Fin 2, s.clock.bell[die].tstate = .holdover → s.clock.src ≠ die ∨ NoInstants s → ∃ u, exec (.holdoverToUncertain die) s = .next u ∧
    u.clock.bell[die].tstate = .uncertain ∧ u.mem = s.mem ∧ u.harts = s.harts)

/-- A record that is next and in order has its effect and completes with its code; out-of-range ring counts are ignored and
reported; the dies come up in order and the checked firmware is chosen by its SVN; a warning is reported, and a trip kills every
context and leaves FAILED with its cause; while the link is down no write of the host lands. (R18, R19, R20, R26, R77, R115,
R120, R121, R122, R125, R127, R130) -/
def Obligations.HostInterfaceEvents : Prop :=
  ∀ (s : State) (rec : List Byte),
  (NextIs s rec 1 16 16 → exec .nop s = .next (s.complete rec 0 0)) ∧
  (s.nextRecord = some rec → sliceNat rec 0 1 = 0 ∨ 7 < sliceNat rec 0 1 → exec .badopc s = .next (s.complete rec 1 0)) ∧
  (s.host.cqFull = false → ∀ st v, (s.complete rec st v).host.cqprod = s.host.cqprod + 1#8 ∧ (s.complete rec st v).host.crqhead = s.host.crqhead + 1#8 ∧
    (s.host.cqprod.toNat % 64, completionOf rec st v) ∈ (s.complete rec st v).host.cq ∧ (s.complete rec st v).host.msix = s.host.msix ++ [0]) ∧
  (NextIs s rec 2 16 32 → s.host.state ≠ .reset → s.host.state ≠ .powerup → s.host.featAcked = false → featBad (featWords rec) = false →
    let u := s.acceptWords (featWords rec)
    (s.host.cqFull = false → exec .featack s = .next ((u.boot u.runtimeObject).complete rec 0 0)) ∧
    (s.host.cqFull = true → exec .featack s = .next ((u.complete rec 0 0).modHost fun h => { h with bootHeld := true }))) ∧
  (NextIs s rec 2 16 32 → s.host.state ≠ .reset → s.host.state ≠ .powerup → s.host.featAcked = true →
    exec .featack s = .next ((s.modHost fun h => { h with featAcked := true }).complete rec 2 0)) ∧
  (NextIs s rec 3 16 20 → s.ctxnewBad rec = false → s.quarantined (BitVec.ofNat 16 (sliceNat rec 16 2)) = false → ∃ t, exec .ctxnew s = .next t ∧
    ∃ c, t.ctxs = c :: s.ctxs.filter (·.ctxid ≠ c.ctxid) ∧ c.ctxid = recordCtx rec ∧ c.live = true ∧ c.job = BitVec.ofNat 16 (sliceNat rec 16 2) ∧
      c.asid = BitVec.ofNat 16 (sliceNat rec 18 2) ∧ c.root = 0 ∧ c.valid = false ∧ c.preempted = false ∧ c.compat = none) ∧
  (NextIs s rec 4 16 16 → (s.ctx (recordCtx rec)).isSome = true → exec .ctxkill s = .next ((s.killContext (recordCtx rec) cKILLED).complete rec 0 0)) ∧
  (NextIs s rec 4 16 16 → s.ctx (recordCtx rec) = none → exec .ctxkill s = .next (s.complete rec 3 0)) ∧
  (NextIs s rec 5 16 208 → recCtx (slice rec 16 192) = recordCtx rec → (s.ctx (recordCtx rec)).isSome = true → recKind (slice rec 16 192) = 0 →
    recNmem (slice rec 16 192) = 1 → recMidx (slice rec 16 192) = 0 →
    (recT (slice rec 16 192) = 0 → ∀ u, s.admitRecord (slice rec 16 192) (sliceNat rec 1 1) none = (0, u) →
      exec .launch s = .next (u.complete rec 0 0) ∧ exec .fullAdmissionRetry s = .next (u.complete rec 0 0)) ∧
    (recT (slice rec 16 192) ≠ 0 → s.recBad (slice rec 16 192) = false →
      exec .launch s = .next ((s.offerLaunch (slice rec 16 192) (s.jobOf (recordCtx rec)) 1).complete rec 0 0))) ∧
  (NextIs s rec 6 16 128 → let n := sliceNat rec 20 2; let i := sliceNat rec 18 2
    i < n → sliceNat rec 22 42 = 0 → ∃ t, exec .policy s = .next t ∧ ∃ q, q ∈ t.trust.policies ∧ q.job = BitVec.ofNat 16 (sliceNat rec 16 2) ∧
      q.count = n ∧ (i, slice rec 64 64) ∈ q.entries) ∧
  (NextIs s rec 7 16 20 → let n := sliceNat rec 16 4; let img := (List.range (min n 4194304)).map fun i => cellGet s.host.staging i
    (n ≤ 4194304 → fwValid s.host.fuseSvn.toNat img = true → exec .fwstage s =
      .next ((s.modHost fun h => if h.slot = true then { h with flashA := img } else { h with flashB := img }).complete rec 0 0)) ∧
    (4194304 < n ∨ fwValid s.host.fuseSvn.toNat img = false → exec .fwstage s = .next (s.complete rec 5 0))) ∧
  (∀ job e, s.jobEntry job = some e → e.state = .quarantine → s.nextRecord = none → ∃ t, exec (.quarantineExpiry job) s = .next t ∧
    (NoInstants s → e.stamp + 64000 * 65536 ≤ t.clock.gtime ∧ t.quarantined job = false) ∧ t.mem = s.mem) ∧
  (∀ v, s.host.linkUp = true → let n : BitVec 8 := v.extractLsb' 0 8; let k : BitVec 16 := v.extractLsb' 0 16
    ((n - s.host.crqhead).toNat ≤ 64 → exec (.crqtailWrite v) s = .next (s.modHost fun h => { h with crqtail := n })) ∧
    (64 < (n - s.host.crqhead).toNat → exec (.crqtailWrite v) s = .next (s.modHost fun h => { h with ringerr := true })) ∧
    ((s.host.cqprod - n).toNat ≤ 64 → s.host.heldCompletion = none → exec (.cqconsWrite v) s = .next (s.modHost fun h => { h with cqcons := n })) ∧
    (64 < (s.host.cqprod - n).toNat → exec (.cqconsWrite v) s = .next (s.modHost fun h => { h with ringerr := true })) ∧
    ((s.host.evprod - k).toNat ≤ 256 → exec (.evconsWrite v) s = .next (s.modHost fun h => { h with evcons := k })) ∧
    (256 < (s.host.evprod - k).toNat → exec (.evconsWrite v) s = .next (s.modHost fun h => { h with ringerr := true })) ∧
    (∀ o, 0x10000 ≤ o → o < 0x14000 → o % 4 = 0 → exec (.registerWrite o (natLe 4 v.toNat)) s =
      .next (s.modHost fun h => h.putSlot ((o - 0x10000) / 256) (o % 256) (natLe 4 v.toNat))) ∧
    exec (.registerWrite 0x18 (natLe 4 v.toNat)) s = exec (.crqtailWrite v) s) ∧
  (s.host.linkUp = false → ∀ v o bs d k, exec (.crqtailWrite v) s = .next s ∧ exec (.cqconsWrite v) s = .next s ∧ exec (.evconsWrite v) s = .next s ∧
    exec (.registerWrite o bs) s = .next s ∧ exec (.monitorClear d k) s = .next s ∧ exec (.monitorConfigWrite d k v) s = .next s) ∧
  (∀ (d : Fin 14) (k : Fin 8) v n, s.host.linkUp = true →
    (∃ t, exec (.monitorClear d.val k.val) s = .next t ∧ t.host.monitors[d][k].cnt = 0 ∧ t.host.monitors[d][k].mn = 0xFFFFFFFF ∧
      t.host.monitors[d][k].mx = 0 ∧ t.host.monitors[d][k].ctl = s.host.monitors[d][k].ctl) ∧
    (∃ t, exec (.monitorConfigWrite d.val k.val v) s = .next t ∧ t.host.monitors[d][k].ctl = v &&& ~~~0xC#32) ∧
    (∃ t, exec (.monitorSample d.val k.val n) s = .next t ∧ let m := s.host.monitors[d][k]
      (m.records d.val = true → m.sel ≠ 3 →
        let v := if m.sel = 4 then s.dieRetries d.val else n
        t.host.monitors[d][k].mn = min m.mn v ∧ t.host.monitors[d][k].cnt = min 0xFFFFFFFF (m.cnt + 1)) ∧
      (m.records d.val = false ∨ m.sel = 3 → t.host.monitors[d][k] = m))) ∧
  s.readBar 0x10 4 = 0 ∧ s.readBar 0x00 4 = devid ∧ s.readBar 0x18 4 = s.host.crqtail.toNat ∧ s.readBar 0x30 4 = s.timestat.toNat ∧
  (let v : BitVec 32 := BitVec.ofNat 32 (s.readBar 0x08 4);
    (v.extractLsb' 0 3).toNat = s.host.state.code ∧ v.extractLsb' 3 4 = 0#4 ∧ v.getLsbD 7 = s.host.slot ∧ v.extractLsb' 8 8 = s.host.svn ∧
    v.getLsbD 16 = s.host.ringerr ∧ v.extractLsb' 17 3 = 0#3 ∧ v.extractLsb' 20 4 = s.host.die ∧ v.extractLsb' 24 8 = s.host.cause) ∧
  exec .pcieLinkDown s = .next (s.modHost fun h => { h with linkUp := false }) ∧ exec .pcieLinkUp s = .next (s.modHost fun h => { h with linkUp := true }) ∧
  (∃ t, exec .powerOn s = .next t ∧ t.host.state = .reset ∧ t.host.linkUp = true ∧ t.mem = State.reset.mem ∧ t.harts = State.reset.harts ∧
    t.host.flashA = s.host.flashA ∧ t.host.flashB = s.host.flashB ∧ t.host.fuseSvn = s.host.fuseSvn) ∧
  (∀ v, v.extractLsb' 16 16 = 0xA5F0#16 → v.getLsbD 0 = true → ∃ t, exec (.moduleReset v) s = .next t ∧ t.host.state = .reset ∧
    t.host.linkUp = s.host.linkUp ∧ t.mem = State.reset.mem ∧ t.ctxs = [] ∧ t.harts = State.reset.harts ∧ t.host.crq = s.host.crq ∧ t.host.flashA = s.host.flashA) ∧
  (∀ v, v.extractLsb' 16 16 ≠ 0xA5F0#16 ∨ v.getLsbD 0 = false → exec (.moduleReset v) s = .next s) ∧
  (s.host.state = .reset → exec .resetToPowerup s = .next (s.modHost fun h => { h with state := .powerup })) ∧
  (∀ die, s.host.state = .powerup → s.host.fwDone = false → die < 12 →
    (s.host.dieUp.getLsbD (if die = 0 then 13 else die - 1) = true → ∃ t, exec (.diePowerUp die) s = .next t ∧ t.host.diePower = s.host.diePower ||| (1#14 <<< die) ∧
      t.host.dieUp = s.host.dieUp) ∧
    (s.host.diePower.getLsbD die = true → ∃ t, exec (.diePowerGood die) s = .next t ∧ t.host.dieUp = s.host.dieUp ||| (1#14 <<< die)) ∧
    (s.host.diePower.getLsbD die = true → s.host.dieUp.getLsbD die = false → ∃ t, exec (.powerGoodTimeout die) s = .next t ∧ t.host.state = .failed ∧
      t.host.cause = 1#8 ∧ t.host.die = BitVec.ofNat 4 die)) ∧
  (s.host.state = .powerup → s.host.fwDone = false → let f := s.host.fuseSvn.toNat
    (fwValid f s.host.flashA = false → fwValid f s.host.flashB = false → ∃ t, exec .firmwareCheckDone s = .next t ∧ t.host.state = .failed ∧ t.host.cause = 2#8) ∧
    (fwValid f s.host.flashA = true → fwValid f s.host.flashB = true → ∃ t, exec .firmwareCheckDone s = .next t ∧ t.host.fwDone = true ∧
      t.host.slot = decide (fwSvn s.host.flashA < fwSvn s.host.flashB)) ∧
    (fwValid f s.host.flashA = true → fwValid f s.host.flashB = false → ∃ t, exec .firmwareCheckDone s = .next t ∧ t.host.fwDone = true ∧ t.host.slot = false ∧
      t.host.state = (if s.host.dieUp = 0x3FFF#14 then .featwait else .powerup))) ∧
  exec .powerWarn s = .next (s.postEvent 2 (natLe 1 12)) ∧ (∀ die, exec (.thermalWarn die) s = .next (s.postEvent 3 (natLe 1 die))) ∧
  (s.host.state ≠ .failed → (∃ t, exec .powerTrip s = .next t ∧ t.host.state = .failed ∧ t.host.cause = 3#8) ∧
    ∀ die, ∃ t, exec (.thermalTrip die) s = .next t ∧ t.host.state = .failed ∧ t.host.cause = 4#8)

/-- A bank that changes its mode empties and opens; a remapped line takes a spare or withdraws its bank; a rebuild starts, and its
unit is solved and written; a flit in order is taken and a damaged one asked for again; a port or module is served, demoted,
remapped and enabled again by a matching record. (R33, R34, R36, R37, R38, R40, R53, R71, R309, R315, R318, R325) -/
def Obligations.BankAndLinkEvents : Prop :=
  ∀ s : State,
  (∀ die bank b md v, s.bank die bank = some b → b.wdrawn = false → modeOf (v.extractLsb' 0 3).toNat = some md →
    ∃ t, exec (.bankmodeWrite die bank v) s = .next t ∧ t.mem.cells = s.mem.cells ∧
      t.bank die bank = some (if b.busy = true then { b with mode := md, again := true }
        else if md = b.cur then { b with mode := md } else { b with mode := md, target := md, busy := true, again := false })) ∧
  (∀ (die : Fin 12) (bank : Fin 128) b, s.bank die.val bank.val = some b → b.busy = true → (∀ i : Fin 4, s.harts[i].late = [] ∧ s.harts[i].eqWait = []) →
    ∃ t, exec (.bankModeChangeDone die.val bank.val) s = .next t ∧
      t.bank die.val bank.val = some { b with cur := b.target, fifo := [], target := b.mode, again := false,
                                              busy := b.again && (b.wdrawn || decide (b.mode ≠ b.target)) } ∧
      (∀ o, o < 2 ^ 18 → byteAt t (spadKey die.val (bank.val * 2 ^ 18) + o) = 0#8)) ∧
  (∀ die bank line b, s.bank die bank = some b → b.wdrawn = false → line < 4096 → 0 < b.spares → ∃ t, exec (.lineRemap die bank line) s = .next t ∧
    t.bank die bank = some { b with spares := b.spares - 1, remapped := natInsert b.remapped line } ∧ t.mem.cells = s.mem.cells) ∧
  (∀ die bank line b, s.bank die bank = some b → b.wdrawn = false → line < 4096 → b.spares = 0 → ∃ t, exec (.lineRemap die bank line) s = .next t ∧
    ∃ c, t.bank die bank = some c ∧ c.wdrawn = true ∧ c.mode = .off ∧ c.busy = true ∧ c.again = b.busy ∧ (b.busy = false → c.target = .off)) ∧
  (∀ gi v g, gi < 256 → s.group gi = some g → ∃ t q, exec (.rebuildGo gi v) s = .next t ∧ t.group gi = some q ∧ t.mem = s.mem ∧
    let w := PGroup.ofBytes g (splice g.bytes 96 (natLe 8 (v ||| 0x10000000#64).toNat))
    (g.busy = true → q.busy = true ∧ q.ndone = g.ndone) ∧
    (g.busy = false → w.m < w.lostCount → q.fail = true ∧ q.busy = false) ∧
    (g.busy = false → w.lostCount ≤ w.m → q.fail = false ∧ q.ndone = 0#32 ∧ q.busy = decide (w.myStripes ≠ 0) ∧ q.done = decide (w.myStripes = 0))) ∧
  (∀ gi k g, s.group gi = some g → g.busy = true →
    (∀ slot newep, k ≠ g.nextStripe ∨ slot ≠ g.slot ∨ newep ≠ g.newep ∨ g.writing = true ∨ s.rebuildOut gi = true →
      exec (.rebuildUnitDone gi k slot newep) s = .next s) ∧
    (k = g.nextStripe → g.writing = false → s.rebuildOut gi = false →
      (g.got = [] → exec (.rebuildUnitDone gi k g.slot g.newep) s = .next ((g.needed k).foldl (State.askUnit gi k) s)) ∧
      (g.got ≠ [] → (∀ i ∈ g.needed k, 16 ≤ (g.got.filter fun x => x.1 = i).length) →
        exec (.rebuildUnitDone gi k g.slot g.newep) s = .next ((s.setGroup gi { g with writing := true }).writeUnit gi g k (g.rebuilt k g.unitOf))))) ∧
  (∀ n p f, s.fab.ports[n]? = some p → p.enabled = true → f.length = 256 → (p.service ≠ 0 → exec (.flitReceive n f) s = .next s) ∧ (p.service = 0 →
    (flitCrc f = sliceNat f 248 8 → sliceNat f 0 2 = p.rxseq.toNat → exec (.flitReceive n f) s = .next (s.takeFlit n p f)) ∧
    (flitCrc f = sliceNat f 248 8 → sliceNat f 0 2 ≠ p.rxseq.toNat → exec (.flitReceive n f) s = .next s) ∧
    (flitCrc f ≠ sliceNat f 248 8 → ∃ t, exec (.flitReceive n f) s = .next t ∧ ∃ q, t.fab.ports[n]? = some q ∧ q.retries = p.retries + 1 ∧ q.rxseq = p.rxseq))) ∧
  (∀ port n m x, s.trainee port n m = some x →
    (x.enabled = true → x.service ≠ 3 → x.service ≠ 4 → exec (.flitRetryLimit port n m) s = .next (s.demote port n m x)) ∧
    (let y := { x with clear := decide (x.service = 0) };
      (x.deferred = false ∨ s.instantNear = true → exec (.retryWindowBoundary port n m) s = .next (s.putTrainee port n m y)) ∧
      (x.deferred = true → s.instantNear = false → exec (.retryWindowBoundary port n m) s = .next ((s.putTrainee port n m y).startService port n m y))) ∧
    (x.service = 1 → x.mustRetrain port n = true → exec (.linkDrainDone port n m) s = .next (s.demote port n m x)) ∧
    (x.service = 1 → x.mustRetrain port n = false → exec (.linkDrainDone port n m) s = .next (s.putTrainee port n m { x with service := 2 })) ∧
    (x.service = 1 → exec (.linkDrainTimeout port n m) s = .next (s.demote port n m x)) ∧
    (x.service = 3 → x.disabled port = false → exec (.linkRetrainDone port n m) s = .next (s.putTrainee port n m { x with service := 4 })) ∧
    (∀ r, x.service = 4 → x.agrees port n m r = true → exec (.configRecord port n m r) s =
      .next (s.putTrainee port n m { x with enabled := true, service := 0, attempt := 0, deferred := false, clear := true })) ∧
    (∀ r, x.service = 4 → x.agrees port n m r = false → exec (.configRecord port n m r) s = .next (s.mismatch port n m x)) ∧
    (x.service = 4 → exec (.configRecordTimeout port n m) s = .next (s.mismatch port n m x)) ∧
    (∀ k, port = false → x.service = 2 → freeLane n x.lmap = some k → ∃ t, exec (.linkRemapDone port n m) s = .next t ∧
      ∃ y, t.trainee port n m = some y ∧ y.service = 4 ∧ y.attempt = 0 ∧ y.enabled = x.enabled ∧ y.step = x.step ∧
        ∀ j, j < 4 → j ≠ k → y.lmap.extractLsb' (8 * j) 8 = x.lmap.extractLsb' (8 * j) 8)) ∧
  (∀ port n m errs x, let u := s.countErrors port n m errs
    u.trainee port n m = some x →
    (x.enabled = false ∨ x.service ≠ 0 ∨ x.limit = false → exec (.linkServiceStart port n ⟨m, errs⟩) s = .next u) ∧
    (x.enabled = true → x.service = 0 → x.limit = true →
      (x.mustRetrain port n = true → s.instantNear = true → exec (.linkServiceStart port n ⟨m, errs⟩) s = .next (u.putTrainee port n m { x with deferred := true })) ∧
      (x.mustRetrain port n = false ∨ s.instantNear = false → exec (.linkServiceStart port n ⟨m, errs⟩) s = .next (u.startService port n m x)))) ∧
  (∀ flow dst down, let f := { s.fab with down := (dst, down) :: s.fab.down.filter (·.1 ≠ dst) }
    (f.flowOut flow dst = true → exec (.flowRepin flow ⟨dst, down⟩) s = .next { s with fab := f }) ∧
    (f.flowOut flow dst = false → (∃ q ∈ s.fab.pins, q.flow = flow ∧ q.dst = dst) → s.fab.waiting = [] →
      exec (.flowRepin flow ⟨dst, down⟩) s =
        .next { s with fab := { f with pins := ⟨flow, dst, f.portFor flow dst⟩ :: f.pins.filter (fun q => !(q.flow = flow && q.dst = dst)) } }))
end

