-- ==== Sys2Proof/Laws/Cells.lean ====
section
/-! SUPPORT. The canonical form of memory: every operation on cells keeps it, a read after a write gives what was written, other
bytes stand, and two canonical memories that read alike are one list. -/

namespace Sys2Proof.Machine

/-- An address lies above a bound. -/
def above : Option Nat → Nat → Prop
  | none, _ => True
  | some l, a => l < a

theorem cellsAbove_cons (lo : Option Nat) (a : Nat) (b : Byte) (cs : List Host.Cell) :
    cellsAbove lo ((a, b) :: cs) = true ↔ above lo a ∧ b ≠ 0#8 ∧ cellsAbove (some a) cs = true := by
  cases lo <;> simp [cellsAbove, above, and_assoc]

theorem above_trans {lo : Option Nat} {a b : Nat} (h : above lo a) (hab : a < b) : above lo b := by
  cases lo with
  | none => trivial
  | some l => exact Nat.lt_trans h hab

theorem cellsAbove_lower {lo : Option Nat} {a : Nat} (h : above lo a) :
    ∀ {cs : List Host.Cell}, cellsAbove (some a) cs = true → cellsAbove lo cs = true
  | [], _ => by cases lo <;> rfl
  | (c, d) :: cs, hc => by
    rw [cellsAbove_cons] at hc ⊢
    exact ⟨above_trans h hc.1, hc.2⟩

/-- A byte below every listed one is unlisted. -/
theorem cellGet_below {k : Nat} : ∀ {cs : List Host.Cell} {l : Nat}, cellsAbove (some l) cs = true → k ≤ l → cellGet cs k = 0#8
  | [], _, _, _ => rfl
  | (a, b) :: cs, l, h, hk => by
    have h1 : l < a := ((cellsAbove_cons (some l) a b cs).1 h).1
    simp [cellGet, show a ≠ k by omega, show k < a by omega]

/-- A write keeps the form. -/
theorem cellsAbove_cellPut {k : Nat} {v : Byte} :
    ∀ {cs : List Host.Cell} {lo : Option Nat}, cellsAbove lo cs = true → above lo k → cellsAbove lo (cellPut cs k v) = true
  | [], lo, _, hk => by
    unfold cellPut
    split
    · cases lo <;> rfl
    · exact (cellsAbove_cons _ _ _ _).2 ⟨hk, ‹_›, rfl⟩
  | (a, b) :: cs, lo, h, hk => by
    have ⟨h1, h2, h3⟩ := (cellsAbove_cons lo a b cs).1 h
    unfold cellPut
    split
    · rename_i hak
      split
      · exact cellsAbove_lower h1 h3
      · exact (cellsAbove_cons _ _ _ _).2 ⟨hk, ‹_›, hak ▸ h3⟩
    · split
      · split
        · exact h
        · exact (cellsAbove_cons _ _ _ _).2 ⟨hk, ‹_›, (cellsAbove_cons _ _ _ _).2 ⟨‹_›, h2, h3⟩⟩
      · rename_i hak hka
        exact (cellsAbove_cons _ _ _ _).2 ⟨h1, h2, cellsAbove_cellPut h3 (show a < k by omega)⟩

/-- A write of several bytes keeps the form. -/
theorem cellsAbove_cellWrite : ∀ (bs : List Byte) {cs : List Host.Cell} {k : Nat},
    cellsAbove none cs = true → cellsAbove none (cellWrite cs k bs) = true
  | [], _, _, h => h
  | _ :: bs, _, _, h => cellsAbove_cellWrite bs (cellsAbove_cellPut h trivial)

/-- A choice among the listed bytes keeps the form. -/
theorem cellsAbove_filter (p : Host.Cell → Bool) :
    ∀ {cs : List Host.Cell} {lo : Option Nat}, cellsAbove lo cs = true → cellsAbove lo (cs.filter p) = true
  | [], lo, _ => by cases lo <;> rfl
  | (a, b) :: cs, lo, h => by
    have ⟨h1, h2, h3⟩ := (cellsAbove_cons lo a b cs).1 h
    rw [List.filter_cons]
    split
    · exact (cellsAbove_cons _ _ _ _).2 ⟨h1, h2, cellsAbove_filter p h3⟩
    · exact cellsAbove_lower h1 (cellsAbove_filter p h3)

/-- A read after a write of one byte (R310, R327). -/
theorem cellGet_cellPut {k j : Nat} {v : Byte} :
    ∀ {cs : List Host.Cell} {lo : Option Nat}, cellsAbove lo cs = true →
      cellGet (cellPut cs k v) j = if j = k then v else cellGet cs j
  | [], _, _ => by
    unfold cellPut
    split <;> simp [cellGet] <;> grind
  | (a, b) :: cs, lo, h => by
    have ⟨_, _, h3⟩ := (cellsAbove_cons lo a b cs).1 h
    have ih := cellGet_cellPut (k := k) (j := j) (v := v) h3
    have hb : ∀ {i}, i ≤ a → cellGet cs i = 0#8 := fun hi => cellGet_below h3 hi
    unfold cellPut
    split
    · rename_i hak
      subst hak
      by_cases hj : j = a
      · subst hj
        split
        · simp [*]
        · simp [cellGet]
      · split
        · by_cases hlt : j < a
          · simp [cellGet, hlt, Ne.symm hj, hb (Nat.le_of_lt hlt)]
          · simp [cellGet, hlt, Ne.symm hj]
        · by_cases hlt : j < a <;> simp [cellGet, hlt, Ne.symm hj]
    · split
      · split
        · by_cases hj : j = k
          · subst hj
            simp [cellGet, *]
          · simp [hj]
        · by_cases hj : j = k
          · subst hj
            simp [cellGet]
          · by_cases hlt : j < k
            · simp [cellGet, hj, hlt, Ne.symm hj, show a ≠ j by omega, show j < a by omega]
            · simp [cellGet, hj, hlt, Ne.symm hj]
      · by_cases hj : j = k
        · subst hj
          simp [cellGet, *]
        · simp [cellGet, ih, hj]

/-- A byte outside a write stands. -/
theorem cellGet_cellWrite_outside : ∀ (bs : List Byte) {cs : List Host.Cell} {k j : Nat}, cellsAbove none cs = true →
    (j < k ∨ k + bs.length ≤ j) → cellGet (cellWrite cs k bs) j = cellGet cs j
  | [], _, _, _, _, _ => rfl
  | b :: bs, cs, k, j, h, hj => by
    have hl : (b :: bs).length = bs.length + 1 := rfl
    rw [cellWrite, cellGet_cellWrite_outside bs (cellsAbove_cellPut h trivial) (by omega), cellGet_cellPut h, if_neg (by omega)]

/-- Byte `i` of a write reads as written. -/
theorem cellGet_cellWrite_inside : ∀ (bs : List Byte) {cs : List Host.Cell} {k i : Nat}, cellsAbove none cs = true →
    i < bs.length → cellGet (cellWrite cs k bs) (k + i) = bs.getD i 0#8
  | b :: bs, cs, k, 0, h, _ => by
    rw [cellWrite, cellGet_cellWrite_outside bs (cellsAbove_cellPut h trivial) (by omega), cellGet_cellPut h]
    simp
  | b :: bs, cs, k, i + 1, h, hi => by
    have := cellGet_cellWrite_inside bs (k := k + 1) (i := i) (cellsAbove_cellPut (k := k) (v := b) h trivial) (by simpa using hi)
    rw [cellWrite, show k + (i + 1) = k + 1 + i by omega, this]
    simp

theorem cellRead_length (cs : List Host.Cell) : ∀ (n k : Nat), (cellRead cs k n).length = n
  | 0, _ => rfl
  | n + 1, k => by simp [cellRead, cellRead_length cs n]

/-- A read of what was written gives it back. -/
theorem cellRead_cellWrite (bs : List Byte) {cs : List Host.Cell} {k : Nat} (h : cellsAbove none cs = true) :
    cellRead (cellWrite cs k bs) k bs.length = bs := by
  have key : ∀ (n i : Nat), i + n = bs.length → cellRead (cellWrite cs k bs) (k + i) n = bs.drop i := by
    intro n
    induction n with
    | zero => intro i hi; simp [cellRead, ← hi]
    | succ n ih =>
      intro i hi
      have h1 := cellGet_cellWrite_inside bs (k := k) (i := i) h (by omega)
      rw [cellRead, show k + i + 1 = k + (i + 1) by omega, ih (i + 1) (by omega), h1, List.drop_eq_getElem_cons (show i < bs.length by omega)]
      simp [List.getD_eq_getElem?_getD, show i < bs.length by omega]
  simpa using key bs.length 0 (by omega)

/-- Canonical lists that read alike are equal. -/
theorem cells_ext : ∀ {cs ds : List Host.Cell} {lo lo' : Option Nat}, cellsAbove lo cs = true → cellsAbove lo' ds = true →
    (∀ k, cellGet cs k = cellGet ds k) → cs = ds
  | [], [], _, _, _, _, _ => rfl
  | [], (a, b) :: ds, _, lo', _, hd, h => by
    have ⟨_, hb, _⟩ := (cellsAbove_cons lo' a b ds).1 hd
    have := h a
    simp [cellGet] at this
    exact absurd this.symm hb
  | (a, b) :: cs, [], lo, _, hc, _, h => by
    have ⟨_, hb, _⟩ := (cellsAbove_cons lo a b cs).1 hc
    have := h a
    simp [cellGet] at this
    exact absurd this hb
  | (a, b) :: cs, (c, d) :: ds, lo, lo', hc, hd, h => by
    have ⟨_, hb, hcs⟩ := (cellsAbove_cons lo a b cs).1 hc
    have ⟨_, hd', hds⟩ := (cellsAbove_cons lo' c d ds).1 hd
    have e1 := h a
    have e2 := h c
    have hac : a = c := by
      rcases Nat.lt_trichotomy a c with hl | he | hl
      · simp [cellGet, show ¬ c = a by omega, hl] at e1
        exact absurd e1 hb
      · exact he
      · simp [cellGet, show ¬ a = c by omega, hl] at e2
        exact absurd e2.symm hd'
    subst hac
    simp [cellGet] at e1
    subst e1
    rw [cells_ext hcs hds]
    intro k
    have := h k
    by_cases hk : a = k
    · subst hk
      rw [cellGet_below hcs (Nat.le_refl _), cellGet_below hds (Nat.le_refl _)]
    · by_cases hlt : k < a
      · rw [cellGet_below hcs (Nat.le_of_lt hlt), cellGet_below hds (Nat.le_of_lt hlt)]
      · simpa [cellGet, hk, hlt] using this

/-- Storage writes keep the canonical form (R317). -/
theorem Memory.poke_wf {m : Memory} (h : m.wf = true) (k : Nat) (bs : List Byte) : (m.poke k bs).wf = true :=
  cellsAbove_cellWrite bs h

theorem Memory.reset_wf : Memory.reset.wf = true := rfl

end Sys2Proof.Machine
end

