-- ==== Sys2Proof/Laws/State.lean ====
section
/-! SUPPORT. What each update of the state leaves of each field: one lemma a field and an update, true by unfolding. -/

namespace Sys2Proof.Machine

variable (s : State)

/-! ### `modHart` -/

@[simp] theorem State.modHart_cur (i : Fin 4) (f : Hart → Hart) : (s.modHart i f).cur = s.cur := rfl
@[simp] theorem State.modHart_core (i : Fin 4) (f : Hart → Hart) : (s.modHart i f).core = s.core := rfl
@[simp] theorem State.modHart_mem (i : Fin 4) (f : Hart → Hart) : (s.modHart i f).mem = s.mem := rfl
@[simp] theorem State.modHart_ctxs (i : Fin 4) (f : Hart → Hart) : (s.modHart i f).ctxs = s.ctxs := rfl
@[simp] theorem State.modHart_jobs (i : Fin 4) (f : Hart → Hart) : (s.modHart i f).jobs = s.jobs := rfl
@[simp] theorem State.modHart_groups (i : Fin 4) (f : Hart → Hart) : (s.modHart i f).groups = s.groups := rfl
@[simp] theorem State.modHart_fab (i : Fin 4) (f : Hart → Hart) : (s.modHart i f).fab = s.fab := rfl
@[simp] theorem State.modHart_clock (i : Fin 4) (f : Hart → Hart) : (s.modHart i f).clock = s.clock := rfl
@[simp] theorem State.modHart_trust (i : Fin 4) (f : Hart → Hart) : (s.modHart i f).trust = s.trust := rfl
@[simp] theorem State.modHart_sched (i : Fin 4) (f : Hart → Hart) : (s.modHart i f).sched = s.sched := rfl
@[simp] theorem State.modHart_host (i : Fin 4) (f : Hart → Hart) : (s.modHart i f).host = s.host := rfl
@[simp] theorem State.modHart_arrivals (i : Fin 4) (f : Hart → Hart) : (s.modHart i f).arrivals = s.arrivals := rfl
@[simp] theorem State.modHart_eager (i : Fin 4) (f : Hart → Hart) : (s.modHart i f).eager = s.eager := rfl
@[simp] theorem State.modHart_free (i : Fin 4) (f : Hart → Hart) : (s.modHart i f).free = s.free := rfl

/-! ### `mod` -/

@[simp] theorem State.mod_cur (f : Hart → Hart) : (s.mod f).cur = s.cur := rfl
@[simp] theorem State.mod_core (f : Hart → Hart) : (s.mod f).core = s.core := rfl
@[simp] theorem State.mod_mem (f : Hart → Hart) : (s.mod f).mem = s.mem := rfl
@[simp] theorem State.mod_ctxs (f : Hart → Hart) : (s.mod f).ctxs = s.ctxs := rfl
@[simp] theorem State.mod_jobs (f : Hart → Hart) : (s.mod f).jobs = s.jobs := rfl
@[simp] theorem State.mod_groups (f : Hart → Hart) : (s.mod f).groups = s.groups := rfl
@[simp] theorem State.mod_fab (f : Hart → Hart) : (s.mod f).fab = s.fab := rfl
@[simp] theorem State.mod_clock (f : Hart → Hart) : (s.mod f).clock = s.clock := rfl
@[simp] theorem State.mod_trust (f : Hart → Hart) : (s.mod f).trust = s.trust := rfl
@[simp] theorem State.mod_sched (f : Hart → Hart) : (s.mod f).sched = s.sched := rfl
@[simp] theorem State.mod_host (f : Hart → Hart) : (s.mod f).host = s.host := rfl
@[simp] theorem State.mod_arrivals (f : Hart → Hart) : (s.mod f).arrivals = s.arrivals := rfl
@[simp] theorem State.mod_eager (f : Hart → Hart) : (s.mod f).eager = s.eager := rfl
@[simp] theorem State.mod_free (f : Hart → Hart) : (s.mod f).free = s.free := rfl

/-! ### `setX` -/

@[simp] theorem State.setX_cur (n : XNum) (v : Word) : (s.setX n v).cur = s.cur := rfl
@[simp] theorem State.setX_core (n : XNum) (v : Word) : (s.setX n v).core = s.core := rfl
@[simp] theorem State.setX_mem (n : XNum) (v : Word) : (s.setX n v).mem = s.mem := rfl
@[simp] theorem State.setX_ctxs (n : XNum) (v : Word) : (s.setX n v).ctxs = s.ctxs := rfl
@[simp] theorem State.setX_jobs (n : XNum) (v : Word) : (s.setX n v).jobs = s.jobs := rfl
@[simp] theorem State.setX_groups (n : XNum) (v : Word) : (s.setX n v).groups = s.groups := rfl
@[simp] theorem State.setX_fab (n : XNum) (v : Word) : (s.setX n v).fab = s.fab := rfl
@[simp] theorem State.setX_clock (n : XNum) (v : Word) : (s.setX n v).clock = s.clock := rfl
@[simp] theorem State.setX_trust (n : XNum) (v : Word) : (s.setX n v).trust = s.trust := rfl
@[simp] theorem State.setX_sched (n : XNum) (v : Word) : (s.setX n v).sched = s.sched := rfl
@[simp] theorem State.setX_host (n : XNum) (v : Word) : (s.setX n v).host = s.host := rfl
@[simp] theorem State.setX_arrivals (n : XNum) (v : Word) : (s.setX n v).arrivals = s.arrivals := rfl
@[simp] theorem State.setX_eager (n : XNum) (v : Word) : (s.setX n v).eager = s.eager := rfl
@[simp] theorem State.setX_free (n : XNum) (v : Word) : (s.setX n v).free = s.free := rfl

/-! ### `setPc` -/

@[simp] theorem State.setPc_cur (v : Word) : (s.setPc v).cur = s.cur := rfl
@[simp] theorem State.setPc_core (v : Word) : (s.setPc v).core = s.core := rfl
@[simp] theorem State.setPc_mem (v : Word) : (s.setPc v).mem = s.mem := rfl
@[simp] theorem State.setPc_ctxs (v : Word) : (s.setPc v).ctxs = s.ctxs := rfl
@[simp] theorem State.setPc_jobs (v : Word) : (s.setPc v).jobs = s.jobs := rfl
@[simp] theorem State.setPc_groups (v : Word) : (s.setPc v).groups = s.groups := rfl
@[simp] theorem State.setPc_fab (v : Word) : (s.setPc v).fab = s.fab := rfl
@[simp] theorem State.setPc_clock (v : Word) : (s.setPc v).clock = s.clock := rfl
@[simp] theorem State.setPc_trust (v : Word) : (s.setPc v).trust = s.trust := rfl
@[simp] theorem State.setPc_sched (v : Word) : (s.setPc v).sched = s.sched := rfl
@[simp] theorem State.setPc_host (v : Word) : (s.setPc v).host = s.host := rfl
@[simp] theorem State.setPc_arrivals (v : Word) : (s.setPc v).arrivals = s.arrivals := rfl
@[simp] theorem State.setPc_eager (v : Word) : (s.setPc v).eager = s.eager := rfl
@[simp] theorem State.setPc_free (v : Word) : (s.setPc v).free = s.free := rfl

/-! ### `retire` -/

@[simp] theorem State.retire_cur : (s.retire).cur = s.cur := rfl
@[simp] theorem State.retire_core : (s.retire).core = s.core := rfl
@[simp] theorem State.retire_mem : (s.retire).mem = s.mem := rfl
@[simp] theorem State.retire_ctxs : (s.retire).ctxs = s.ctxs := rfl
@[simp] theorem State.retire_jobs : (s.retire).jobs = s.jobs := rfl
@[simp] theorem State.retire_groups : (s.retire).groups = s.groups := rfl
@[simp] theorem State.retire_fab : (s.retire).fab = s.fab := rfl
@[simp] theorem State.retire_clock : (s.retire).clock = s.clock := rfl
@[simp] theorem State.retire_trust : (s.retire).trust = s.trust := rfl
@[simp] theorem State.retire_sched : (s.retire).sched = s.sched := rfl
@[simp] theorem State.retire_host : (s.retire).host = s.host := rfl
@[simp] theorem State.retire_arrivals : (s.retire).arrivals = s.arrivals := rfl
@[simp] theorem State.retire_eager : (s.retire).eager = s.eager := rfl
@[simp] theorem State.retire_free : (s.retire).free = s.free := rfl

/-! ### `goTo` -/

@[simp] theorem State.goTo_cur (t : Word) : (s.goTo t).cur = s.cur := rfl
@[simp] theorem State.goTo_core (t : Word) : (s.goTo t).core = s.core := rfl
@[simp] theorem State.goTo_mem (t : Word) : (s.goTo t).mem = s.mem := rfl
@[simp] theorem State.goTo_ctxs (t : Word) : (s.goTo t).ctxs = s.ctxs := rfl
@[simp] theorem State.goTo_jobs (t : Word) : (s.goTo t).jobs = s.jobs := rfl
@[simp] theorem State.goTo_groups (t : Word) : (s.goTo t).groups = s.groups := rfl
@[simp] theorem State.goTo_fab (t : Word) : (s.goTo t).fab = s.fab := rfl
@[simp] theorem State.goTo_clock (t : Word) : (s.goTo t).clock = s.clock := rfl
@[simp] theorem State.goTo_trust (t : Word) : (s.goTo t).trust = s.trust := rfl
@[simp] theorem State.goTo_sched (t : Word) : (s.goTo t).sched = s.sched := rfl
@[simp] theorem State.goTo_host (t : Word) : (s.goTo t).host = s.host := rfl
@[simp] theorem State.goTo_arrivals (t : Word) : (s.goTo t).arrivals = s.arrivals := rfl
@[simp] theorem State.goTo_eager (t : Word) : (s.goTo t).eager = s.eager := rfl
@[simp] theorem State.goTo_free (t : Word) : (s.goTo t).free = s.free := rfl

/-! ### `wait` -/

@[simp] theorem State.wait_cur (k : WaitKind) (w : IWord) : (s.wait k w).cur = s.cur := rfl
@[simp] theorem State.wait_core (k : WaitKind) (w : IWord) : (s.wait k w).core = s.core := rfl
@[simp] theorem State.wait_mem (k : WaitKind) (w : IWord) : (s.wait k w).mem = s.mem := rfl
@[simp] theorem State.wait_ctxs (k : WaitKind) (w : IWord) : (s.wait k w).ctxs = s.ctxs := rfl
@[simp] theorem State.wait_jobs (k : WaitKind) (w : IWord) : (s.wait k w).jobs = s.jobs := rfl
@[simp] theorem State.wait_groups (k : WaitKind) (w : IWord) : (s.wait k w).groups = s.groups := rfl
@[simp] theorem State.wait_fab (k : WaitKind) (w : IWord) : (s.wait k w).fab = s.fab := rfl
@[simp] theorem State.wait_clock (k : WaitKind) (w : IWord) : (s.wait k w).clock = s.clock := rfl
@[simp] theorem State.wait_trust (k : WaitKind) (w : IWord) : (s.wait k w).trust = s.trust := rfl
@[simp] theorem State.wait_sched (k : WaitKind) (w : IWord) : (s.wait k w).sched = s.sched := rfl
@[simp] theorem State.wait_host (k : WaitKind) (w : IWord) : (s.wait k w).host = s.host := rfl
@[simp] theorem State.wait_arrivals (k : WaitKind) (w : IWord) : (s.wait k w).arrivals = s.arrivals := rfl
@[simp] theorem State.wait_eager (k : WaitKind) (w : IWord) : (s.wait k w).eager = s.eager := rfl
@[simp] theorem State.wait_free (k : WaitKind) (w : IWord) : (s.wait k w).free = s.free := rfl

/-! ### `endRemote` -/

@[simp] theorem State.endRemote_cur : (s.endRemote).cur = s.cur := rfl
@[simp] theorem State.endRemote_core : (s.endRemote).core = s.core := rfl
@[simp] theorem State.endRemote_mem : (s.endRemote).mem = s.mem := rfl
@[simp] theorem State.endRemote_ctxs : (s.endRemote).ctxs = s.ctxs := rfl
@[simp] theorem State.endRemote_jobs : (s.endRemote).jobs = s.jobs := rfl
@[simp] theorem State.endRemote_groups : (s.endRemote).groups = s.groups := rfl
@[simp] theorem State.endRemote_fab : (s.endRemote).fab = s.fab := rfl
@[simp] theorem State.endRemote_clock : (s.endRemote).clock = s.clock := rfl
@[simp] theorem State.endRemote_trust : (s.endRemote).trust = s.trust := rfl
@[simp] theorem State.endRemote_sched : (s.endRemote).sched = s.sched := rfl
@[simp] theorem State.endRemote_host : (s.endRemote).host = s.host := rfl
@[simp] theorem State.endRemote_arrivals : (s.endRemote).arrivals = s.arrivals := rfl
@[simp] theorem State.endRemote_eager : (s.endRemote).eager = s.eager := rfl
@[simp] theorem State.endRemote_free : (s.endRemote).free = s.free := rfl

/-! ### `putEntry` -/

@[simp] theorem State.putEntry_cur (i : Fin 4) (e : QEntry) : (s.putEntry i e).cur = s.cur := rfl
@[simp] theorem State.putEntry_core (i : Fin 4) (e : QEntry) : (s.putEntry i e).core = s.core := rfl
@[simp] theorem State.putEntry_mem (i : Fin 4) (e : QEntry) : (s.putEntry i e).mem = s.mem := rfl
@[simp] theorem State.putEntry_ctxs (i : Fin 4) (e : QEntry) : (s.putEntry i e).ctxs = s.ctxs := rfl
@[simp] theorem State.putEntry_jobs (i : Fin 4) (e : QEntry) : (s.putEntry i e).jobs = s.jobs := rfl
@[simp] theorem State.putEntry_groups (i : Fin 4) (e : QEntry) : (s.putEntry i e).groups = s.groups := rfl
@[simp] theorem State.putEntry_fab (i : Fin 4) (e : QEntry) : (s.putEntry i e).fab = s.fab := rfl
@[simp] theorem State.putEntry_clock (i : Fin 4) (e : QEntry) : (s.putEntry i e).clock = s.clock := rfl
@[simp] theorem State.putEntry_trust (i : Fin 4) (e : QEntry) : (s.putEntry i e).trust = s.trust := rfl
@[simp] theorem State.putEntry_sched (i : Fin 4) (e : QEntry) : (s.putEntry i e).sched = s.sched := rfl
@[simp] theorem State.putEntry_host (i : Fin 4) (e : QEntry) : (s.putEntry i e).host = s.host := rfl
@[simp] theorem State.putEntry_arrivals (i : Fin 4) (e : QEntry) : (s.putEntry i e).arrivals = s.arrivals := rfl
@[simp] theorem State.putEntry_eager (i : Fin 4) (e : QEntry) : (s.putEntry i e).eager = s.eager := rfl
@[simp] theorem State.putEntry_free (i : Fin 4) (e : QEntry) : (s.putEntry i e).free = s.free := rfl

/-! ### `tick` -/

@[simp] theorem State.tick_harts : (s.tick).harts = s.harts := rfl
@[simp] theorem State.tick_cur : (s.tick).cur = s.cur := rfl
@[simp] theorem State.tick_core : (s.tick).core = s.core := rfl
@[simp] theorem State.tick_mem : (s.tick).mem = s.mem := rfl
@[simp] theorem State.tick_ctxs : (s.tick).ctxs = s.ctxs := rfl
@[simp] theorem State.tick_jobs : (s.tick).jobs = s.jobs := rfl
@[simp] theorem State.tick_groups : (s.tick).groups = s.groups := rfl
@[simp] theorem State.tick_fab : (s.tick).fab = s.fab := rfl
@[simp] theorem State.tick_clock : (s.tick).clock = s.clock := rfl
@[simp] theorem State.tick_trust : (s.tick).trust = s.trust := rfl
@[simp] theorem State.tick_sched : (s.tick).sched = s.sched := rfl
@[simp] theorem State.tick_host : (s.tick).host = s.host := rfl
@[simp] theorem State.tick_arrivals : (s.tick).arrivals = s.arrivals := rfl
@[simp] theorem State.tick_eager : (s.tick).eager = s.eager := rfl

/-! ### `modCtx` -/

@[simp] theorem State.modCtx_harts (n : Nat) (f : Context → Context) : (s.modCtx n f).harts = s.harts := rfl
@[simp] theorem State.modCtx_cur (n : Nat) (f : Context → Context) : (s.modCtx n f).cur = s.cur := rfl
@[simp] theorem State.modCtx_core (n : Nat) (f : Context → Context) : (s.modCtx n f).core = s.core := rfl
@[simp] theorem State.modCtx_mem (n : Nat) (f : Context → Context) : (s.modCtx n f).mem = s.mem := rfl
@[simp] theorem State.modCtx_jobs (n : Nat) (f : Context → Context) : (s.modCtx n f).jobs = s.jobs := rfl
@[simp] theorem State.modCtx_groups (n : Nat) (f : Context → Context) : (s.modCtx n f).groups = s.groups := rfl
@[simp] theorem State.modCtx_fab (n : Nat) (f : Context → Context) : (s.modCtx n f).fab = s.fab := rfl
@[simp] theorem State.modCtx_clock (n : Nat) (f : Context → Context) : (s.modCtx n f).clock = s.clock := rfl
@[simp] theorem State.modCtx_trust (n : Nat) (f : Context → Context) : (s.modCtx n f).trust = s.trust := rfl
@[simp] theorem State.modCtx_sched (n : Nat) (f : Context → Context) : (s.modCtx n f).sched = s.sched := rfl
@[simp] theorem State.modCtx_host (n : Nat) (f : Context → Context) : (s.modCtx n f).host = s.host := rfl
@[simp] theorem State.modCtx_arrivals (n : Nat) (f : Context → Context) : (s.modCtx n f).arrivals = s.arrivals := rfl
@[simp] theorem State.modCtx_eager (n : Nat) (f : Context → Context) : (s.modCtx n f).eager = s.eager := rfl
@[simp] theorem State.modCtx_free (n : Nat) (f : Context → Context) : (s.modCtx n f).free = s.free := rfl

/-! ### `modJob` -/

@[simp] theorem State.modJob_harts (j : BitVec 16) (f : JobEntry → JobEntry) : (s.modJob j f).harts = s.harts := rfl
@[simp] theorem State.modJob_cur (j : BitVec 16) (f : JobEntry → JobEntry) : (s.modJob j f).cur = s.cur := rfl
@[simp] theorem State.modJob_core (j : BitVec 16) (f : JobEntry → JobEntry) : (s.modJob j f).core = s.core := rfl
@[simp] theorem State.modJob_mem (j : BitVec 16) (f : JobEntry → JobEntry) : (s.modJob j f).mem = s.mem := rfl
@[simp] theorem State.modJob_ctxs (j : BitVec 16) (f : JobEntry → JobEntry) : (s.modJob j f).ctxs = s.ctxs := rfl
@[simp] theorem State.modJob_groups (j : BitVec 16) (f : JobEntry → JobEntry) : (s.modJob j f).groups = s.groups := rfl
@[simp] theorem State.modJob_fab (j : BitVec 16) (f : JobEntry → JobEntry) : (s.modJob j f).fab = s.fab := rfl
@[simp] theorem State.modJob_clock (j : BitVec 16) (f : JobEntry → JobEntry) : (s.modJob j f).clock = s.clock := rfl
@[simp] theorem State.modJob_trust (j : BitVec 16) (f : JobEntry → JobEntry) : (s.modJob j f).trust = s.trust := rfl
@[simp] theorem State.modJob_sched (j : BitVec 16) (f : JobEntry → JobEntry) : (s.modJob j f).sched = s.sched := rfl
@[simp] theorem State.modJob_host (j : BitVec 16) (f : JobEntry → JobEntry) : (s.modJob j f).host = s.host := rfl
@[simp] theorem State.modJob_arrivals (j : BitVec 16) (f : JobEntry → JobEntry) : (s.modJob j f).arrivals = s.arrivals := rfl
@[simp] theorem State.modJob_eager (j : BitVec 16) (f : JobEntry → JobEntry) : (s.modJob j f).eager = s.eager := rfl
@[simp] theorem State.modJob_free (j : BitVec 16) (f : JobEntry → JobEntry) : (s.modJob j f).free = s.free := rfl

/-! ### `modHost` -/

@[simp] theorem State.modHost_harts (f : HostIf → HostIf) : (s.modHost f).harts = s.harts := rfl
@[simp] theorem State.modHost_cur (f : HostIf → HostIf) : (s.modHost f).cur = s.cur := rfl
@[simp] theorem State.modHost_core (f : HostIf → HostIf) : (s.modHost f).core = s.core := rfl
@[simp] theorem State.modHost_mem (f : HostIf → HostIf) : (s.modHost f).mem = s.mem := rfl
@[simp] theorem State.modHost_ctxs (f : HostIf → HostIf) : (s.modHost f).ctxs = s.ctxs := rfl
@[simp] theorem State.modHost_jobs (f : HostIf → HostIf) : (s.modHost f).jobs = s.jobs := rfl
@[simp] theorem State.modHost_groups (f : HostIf → HostIf) : (s.modHost f).groups = s.groups := rfl
@[simp] theorem State.modHost_fab (f : HostIf → HostIf) : (s.modHost f).fab = s.fab := rfl
@[simp] theorem State.modHost_clock (f : HostIf → HostIf) : (s.modHost f).clock = s.clock := rfl
@[simp] theorem State.modHost_trust (f : HostIf → HostIf) : (s.modHost f).trust = s.trust := rfl
@[simp] theorem State.modHost_sched (f : HostIf → HostIf) : (s.modHost f).sched = s.sched := rfl
@[simp] theorem State.modHost_arrivals (f : HostIf → HostIf) : (s.modHost f).arrivals = s.arrivals := rfl
@[simp] theorem State.modHost_eager (f : HostIf → HostIf) : (s.modHost f).eager = s.eager := rfl
@[simp] theorem State.modHost_free (f : HostIf → HostIf) : (s.modHost f).free = s.free := rfl

/-! ### `raiseMsix` -/

@[simp] theorem State.raiseMsix_harts (v : Nat) : (s.raiseMsix v).harts = s.harts := rfl
@[simp] theorem State.raiseMsix_cur (v : Nat) : (s.raiseMsix v).cur = s.cur := rfl
@[simp] theorem State.raiseMsix_core (v : Nat) : (s.raiseMsix v).core = s.core := rfl
@[simp] theorem State.raiseMsix_mem (v : Nat) : (s.raiseMsix v).mem = s.mem := rfl
@[simp] theorem State.raiseMsix_ctxs (v : Nat) : (s.raiseMsix v).ctxs = s.ctxs := rfl
@[simp] theorem State.raiseMsix_jobs (v : Nat) : (s.raiseMsix v).jobs = s.jobs := rfl
@[simp] theorem State.raiseMsix_groups (v : Nat) : (s.raiseMsix v).groups = s.groups := rfl
@[simp] theorem State.raiseMsix_fab (v : Nat) : (s.raiseMsix v).fab = s.fab := rfl
@[simp] theorem State.raiseMsix_clock (v : Nat) : (s.raiseMsix v).clock = s.clock := rfl
@[simp] theorem State.raiseMsix_trust (v : Nat) : (s.raiseMsix v).trust = s.trust := rfl
@[simp] theorem State.raiseMsix_sched (v : Nat) : (s.raiseMsix v).sched = s.sched := rfl
@[simp] theorem State.raiseMsix_arrivals (v : Nat) : (s.raiseMsix v).arrivals = s.arrivals := rfl
@[simp] theorem State.raiseMsix_eager (v : Nat) : (s.raiseMsix v).eager = s.eager := rfl
@[simp] theorem State.raiseMsix_free (v : Nat) : (s.raiseMsix v).free = s.free := rfl

/-! ### `modBell` -/

@[simp] theorem State.modBell_harts (d : Fin 2) (f : Bellwether → Bellwether) : (s.modBell d f).harts = s.harts := rfl
@[simp] theorem State.modBell_cur (d : Fin 2) (f : Bellwether → Bellwether) : (s.modBell d f).cur = s.cur := rfl
@[simp] theorem State.modBell_core (d : Fin 2) (f : Bellwether → Bellwether) : (s.modBell d f).core = s.core := rfl
@[simp] theorem State.modBell_mem (d : Fin 2) (f : Bellwether → Bellwether) : (s.modBell d f).mem = s.mem := rfl
@[simp] theorem State.modBell_ctxs (d : Fin 2) (f : Bellwether → Bellwether) : (s.modBell d f).ctxs = s.ctxs := rfl
@[simp] theorem State.modBell_jobs (d : Fin 2) (f : Bellwether → Bellwether) : (s.modBell d f).jobs = s.jobs := rfl
@[simp] theorem State.modBell_groups (d : Fin 2) (f : Bellwether → Bellwether) : (s.modBell d f).groups = s.groups := rfl
@[simp] theorem State.modBell_fab (d : Fin 2) (f : Bellwether → Bellwether) : (s.modBell d f).fab = s.fab := rfl
@[simp] theorem State.modBell_trust (d : Fin 2) (f : Bellwether → Bellwether) : (s.modBell d f).trust = s.trust := rfl
@[simp] theorem State.modBell_sched (d : Fin 2) (f : Bellwether → Bellwether) : (s.modBell d f).sched = s.sched := rfl
@[simp] theorem State.modBell_host (d : Fin 2) (f : Bellwether → Bellwether) : (s.modBell d f).host = s.host := rfl
@[simp] theorem State.modBell_arrivals (d : Fin 2) (f : Bellwether → Bellwether) : (s.modBell d f).arrivals = s.arrivals := rfl
@[simp] theorem State.modBell_eager (d : Fin 2) (f : Bellwether → Bellwether) : (s.modBell d f).eager = s.eager := rfl
@[simp] theorem State.modBell_free (d : Fin 2) (f : Bellwether → Bellwether) : (s.modBell d f).free = s.free := rfl

/-! ### `passTime` -/

@[simp] theorem State.passTime_harts : (s.passTime).harts = s.harts := rfl
@[simp] theorem State.passTime_cur : (s.passTime).cur = s.cur := rfl
@[simp] theorem State.passTime_core : (s.passTime).core = s.core := rfl
@[simp] theorem State.passTime_mem : (s.passTime).mem = s.mem := rfl
@[simp] theorem State.passTime_ctxs : (s.passTime).ctxs = s.ctxs := rfl
@[simp] theorem State.passTime_jobs : (s.passTime).jobs = s.jobs := rfl
@[simp] theorem State.passTime_groups : (s.passTime).groups = s.groups := rfl
@[simp] theorem State.passTime_fab : (s.passTime).fab = s.fab := rfl
@[simp] theorem State.passTime_trust : (s.passTime).trust = s.trust := rfl
@[simp] theorem State.passTime_sched : (s.passTime).sched = s.sched := rfl
@[simp] theorem State.passTime_host : (s.passTime).host = s.host := rfl
@[simp] theorem State.passTime_arrivals : (s.passTime).arrivals = s.arrivals := rfl
@[simp] theorem State.passTime_eager : (s.passTime).eager = s.eager := rfl

/-! ### `addLate` -/

@[simp] theorem State.addLate_cur (i : Fin 4) (b : LateStore) : (s.addLate i b).cur = s.cur := rfl
@[simp] theorem State.addLate_core (i : Fin 4) (b : LateStore) : (s.addLate i b).core = s.core := rfl
@[simp] theorem State.addLate_mem (i : Fin 4) (b : LateStore) : (s.addLate i b).mem = s.mem := rfl
@[simp] theorem State.addLate_ctxs (i : Fin 4) (b : LateStore) : (s.addLate i b).ctxs = s.ctxs := rfl
@[simp] theorem State.addLate_jobs (i : Fin 4) (b : LateStore) : (s.addLate i b).jobs = s.jobs := rfl
@[simp] theorem State.addLate_groups (i : Fin 4) (b : LateStore) : (s.addLate i b).groups = s.groups := rfl
@[simp] theorem State.addLate_fab (i : Fin 4) (b : LateStore) : (s.addLate i b).fab = s.fab := rfl
@[simp] theorem State.addLate_clock (i : Fin 4) (b : LateStore) : (s.addLate i b).clock = s.clock := rfl
@[simp] theorem State.addLate_trust (i : Fin 4) (b : LateStore) : (s.addLate i b).trust = s.trust := rfl
@[simp] theorem State.addLate_sched (i : Fin 4) (b : LateStore) : (s.addLate i b).sched = s.sched := rfl
@[simp] theorem State.addLate_host (i : Fin 4) (b : LateStore) : (s.addLate i b).host = s.host := rfl
@[simp] theorem State.addLate_arrivals (i : Fin 4) (b : LateStore) : (s.addLate i b).arrivals = s.arrivals := rfl
@[simp] theorem State.addLate_eager (i : Fin 4) (b : LateStore) : (s.addLate i b).eager = s.eager := rfl
@[simp] theorem State.addLate_free (i : Fin 4) (b : LateStore) : (s.addLate i b).free = s.free := rfl

/-! ### `setTile` -/

@[simp] theorem State.setTile_harts (n : ANum) (t : Tile) : (s.setTile n t).harts = s.harts := rfl
@[simp] theorem State.setTile_cur (n : ANum) (t : Tile) : (s.setTile n t).cur = s.cur := rfl
@[simp] theorem State.setTile_mem (n : ANum) (t : Tile) : (s.setTile n t).mem = s.mem := rfl
@[simp] theorem State.setTile_ctxs (n : ANum) (t : Tile) : (s.setTile n t).ctxs = s.ctxs := rfl
@[simp] theorem State.setTile_jobs (n : ANum) (t : Tile) : (s.setTile n t).jobs = s.jobs := rfl
@[simp] theorem State.setTile_groups (n : ANum) (t : Tile) : (s.setTile n t).groups = s.groups := rfl
@[simp] theorem State.setTile_fab (n : ANum) (t : Tile) : (s.setTile n t).fab = s.fab := rfl
@[simp] theorem State.setTile_clock (n : ANum) (t : Tile) : (s.setTile n t).clock = s.clock := rfl
@[simp] theorem State.setTile_trust (n : ANum) (t : Tile) : (s.setTile n t).trust = s.trust := rfl
@[simp] theorem State.setTile_sched (n : ANum) (t : Tile) : (s.setTile n t).sched = s.sched := rfl
@[simp] theorem State.setTile_host (n : ANum) (t : Tile) : (s.setTile n t).host = s.host := rfl
@[simp] theorem State.setTile_arrivals (n : ANum) (t : Tile) : (s.setTile n t).arrivals = s.arrivals := rfl
@[simp] theorem State.setTile_eager (n : ANum) (t : Tile) : (s.setTile n t).eager = s.eager := rfl
@[simp] theorem State.setTile_free (n : ANum) (t : Tile) : (s.setTile n t).free = s.free := rfl

/-! ### `modBank` -/

@[simp] theorem State.modBank_harts (die bank : Nat) (f : Bank → Bank) : (s.modBank die bank f).harts = s.harts := by simp only [State.modBank]
@[simp] theorem State.modBank_cur (die bank : Nat) (f : Bank → Bank) : (s.modBank die bank f).cur = s.cur := by simp only [State.modBank]
@[simp] theorem State.modBank_core (die bank : Nat) (f : Bank → Bank) : (s.modBank die bank f).core = s.core := by simp only [State.modBank]
@[simp] theorem State.modBank_ctxs (die bank : Nat) (f : Bank → Bank) : (s.modBank die bank f).ctxs = s.ctxs := by simp only [State.modBank]
@[simp] theorem State.modBank_jobs (die bank : Nat) (f : Bank → Bank) : (s.modBank die bank f).jobs = s.jobs := by simp only [State.modBank]
@[simp] theorem State.modBank_groups (die bank : Nat) (f : Bank → Bank) : (s.modBank die bank f).groups = s.groups := by simp only [State.modBank]
@[simp] theorem State.modBank_fab (die bank : Nat) (f : Bank → Bank) : (s.modBank die bank f).fab = s.fab := by simp only [State.modBank]
@[simp] theorem State.modBank_clock (die bank : Nat) (f : Bank → Bank) : (s.modBank die bank f).clock = s.clock := by simp only [State.modBank]
@[simp] theorem State.modBank_trust (die bank : Nat) (f : Bank → Bank) : (s.modBank die bank f).trust = s.trust := by simp only [State.modBank]
@[simp] theorem State.modBank_sched (die bank : Nat) (f : Bank → Bank) : (s.modBank die bank f).sched = s.sched := by simp only [State.modBank]
@[simp] theorem State.modBank_host (die bank : Nat) (f : Bank → Bank) : (s.modBank die bank f).host = s.host := by simp only [State.modBank]
@[simp] theorem State.modBank_arrivals (die bank : Nat) (f : Bank → Bank) : (s.modBank die bank f).arrivals = s.arrivals := by simp only [State.modBank]
@[simp] theorem State.modBank_eager (die bank : Nat) (f : Bank → Bank) : (s.modBank die bank f).eager = s.eager := by simp only [State.modBank]
@[simp] theorem State.modBank_free (die bank : Nat) (f : Bank → Bank) : (s.modBank die bank f).free = s.free := by simp only [State.modBank]

/-! ### `clearBank` -/

@[simp] theorem State.clearBank_harts (die bank : Nat) : (s.clearBank die bank).harts = s.harts := rfl
@[simp] theorem State.clearBank_cur (die bank : Nat) : (s.clearBank die bank).cur = s.cur := rfl
@[simp] theorem State.clearBank_core (die bank : Nat) : (s.clearBank die bank).core = s.core := rfl
@[simp] theorem State.clearBank_ctxs (die bank : Nat) : (s.clearBank die bank).ctxs = s.ctxs := rfl
@[simp] theorem State.clearBank_jobs (die bank : Nat) : (s.clearBank die bank).jobs = s.jobs := rfl
@[simp] theorem State.clearBank_groups (die bank : Nat) : (s.clearBank die bank).groups = s.groups := rfl
@[simp] theorem State.clearBank_fab (die bank : Nat) : (s.clearBank die bank).fab = s.fab := rfl
@[simp] theorem State.clearBank_clock (die bank : Nat) : (s.clearBank die bank).clock = s.clock := rfl
@[simp] theorem State.clearBank_trust (die bank : Nat) : (s.clearBank die bank).trust = s.trust := rfl
@[simp] theorem State.clearBank_sched (die bank : Nat) : (s.clearBank die bank).sched = s.sched := rfl
@[simp] theorem State.clearBank_host (die bank : Nat) : (s.clearBank die bank).host = s.host := rfl
@[simp] theorem State.clearBank_arrivals (die bank : Nat) : (s.clearBank die bank).arrivals = s.arrivals := rfl
@[simp] theorem State.clearBank_eager (die bank : Nat) : (s.clearBank die bank).eager = s.eager := rfl
@[simp] theorem State.clearBank_free (die bank : Nat) : (s.clearBank die bank).free = s.free := rfl

/-! ### `setCtxEntry` -/

@[simp] theorem State.setCtxEntry_harts (c : Context) : (s.setCtxEntry c).harts = s.harts := rfl
@[simp] theorem State.setCtxEntry_cur (c : Context) : (s.setCtxEntry c).cur = s.cur := rfl
@[simp] theorem State.setCtxEntry_core (c : Context) : (s.setCtxEntry c).core = s.core := rfl
@[simp] theorem State.setCtxEntry_mem (c : Context) : (s.setCtxEntry c).mem = s.mem := rfl
@[simp] theorem State.setCtxEntry_jobs (c : Context) : (s.setCtxEntry c).jobs = s.jobs := rfl
@[simp] theorem State.setCtxEntry_groups (c : Context) : (s.setCtxEntry c).groups = s.groups := rfl
@[simp] theorem State.setCtxEntry_fab (c : Context) : (s.setCtxEntry c).fab = s.fab := rfl
@[simp] theorem State.setCtxEntry_clock (c : Context) : (s.setCtxEntry c).clock = s.clock := rfl
@[simp] theorem State.setCtxEntry_trust (c : Context) : (s.setCtxEntry c).trust = s.trust := rfl
@[simp] theorem State.setCtxEntry_sched (c : Context) : (s.setCtxEntry c).sched = s.sched := rfl
@[simp] theorem State.setCtxEntry_host (c : Context) : (s.setCtxEntry c).host = s.host := rfl
@[simp] theorem State.setCtxEntry_arrivals (c : Context) : (s.setCtxEntry c).arrivals = s.arrivals := rfl
@[simp] theorem State.setCtxEntry_eager (c : Context) : (s.setCtxEntry c).eager = s.eager := rfl
@[simp] theorem State.setCtxEntry_free (c : Context) : (s.setCtxEntry c).free = s.free := rfl

/-! ### `setGroup` -/

@[simp] theorem State.setGroup_harts (n : Nat) (g : PGroup) : (s.setGroup n g).harts = s.harts := rfl
@[simp] theorem State.setGroup_cur (n : Nat) (g : PGroup) : (s.setGroup n g).cur = s.cur := rfl
@[simp] theorem State.setGroup_core (n : Nat) (g : PGroup) : (s.setGroup n g).core = s.core := rfl
@[simp] theorem State.setGroup_mem (n : Nat) (g : PGroup) : (s.setGroup n g).mem = s.mem := rfl
@[simp] theorem State.setGroup_ctxs (n : Nat) (g : PGroup) : (s.setGroup n g).ctxs = s.ctxs := rfl
@[simp] theorem State.setGroup_jobs (n : Nat) (g : PGroup) : (s.setGroup n g).jobs = s.jobs := rfl
@[simp] theorem State.setGroup_fab (n : Nat) (g : PGroup) : (s.setGroup n g).fab = s.fab := rfl
@[simp] theorem State.setGroup_clock (n : Nat) (g : PGroup) : (s.setGroup n g).clock = s.clock := rfl
@[simp] theorem State.setGroup_trust (n : Nat) (g : PGroup) : (s.setGroup n g).trust = s.trust := rfl
@[simp] theorem State.setGroup_sched (n : Nat) (g : PGroup) : (s.setGroup n g).sched = s.sched := rfl
@[simp] theorem State.setGroup_host (n : Nat) (g : PGroup) : (s.setGroup n g).host = s.host := rfl
@[simp] theorem State.setGroup_arrivals (n : Nat) (g : PGroup) : (s.setGroup n g).arrivals = s.arrivals := rfl
@[simp] theorem State.setGroup_eager (n : Nat) (g : PGroup) : (s.setGroup n g).eager = s.eager := rfl
@[simp] theorem State.setGroup_free (n : Nat) (g : PGroup) : (s.setGroup n g).free = s.free := rfl

/-! ### `setModule` -/

@[simp] theorem State.setModule_harts (n m : Nat) (x : LinkModule) : (s.setModule n m x).harts = s.harts := by simp only [State.setModule]
@[simp] theorem State.setModule_cur (n m : Nat) (x : LinkModule) : (s.setModule n m x).cur = s.cur := by simp only [State.setModule]
@[simp] theorem State.setModule_core (n m : Nat) (x : LinkModule) : (s.setModule n m x).core = s.core := by simp only [State.setModule]
@[simp] theorem State.setModule_mem (n m : Nat) (x : LinkModule) : (s.setModule n m x).mem = s.mem := by simp only [State.setModule]
@[simp] theorem State.setModule_ctxs (n m : Nat) (x : LinkModule) : (s.setModule n m x).ctxs = s.ctxs := by simp only [State.setModule]
@[simp] theorem State.setModule_jobs (n m : Nat) (x : LinkModule) : (s.setModule n m x).jobs = s.jobs := by simp only [State.setModule]
@[simp] theorem State.setModule_groups (n m : Nat) (x : LinkModule) : (s.setModule n m x).groups = s.groups := by simp only [State.setModule]
@[simp] theorem State.setModule_clock (n m : Nat) (x : LinkModule) : (s.setModule n m x).clock = s.clock := by simp only [State.setModule]
@[simp] theorem State.setModule_trust (n m : Nat) (x : LinkModule) : (s.setModule n m x).trust = s.trust := by simp only [State.setModule]
@[simp] theorem State.setModule_sched (n m : Nat) (x : LinkModule) : (s.setModule n m x).sched = s.sched := by simp only [State.setModule]
@[simp] theorem State.setModule_host (n m : Nat) (x : LinkModule) : (s.setModule n m x).host = s.host := by simp only [State.setModule]
@[simp] theorem State.setModule_arrivals (n m : Nat) (x : LinkModule) : (s.setModule n m x).arrivals = s.arrivals := by simp only [State.setModule]
@[simp] theorem State.setModule_eager (n m : Nat) (x : LinkModule) : (s.setModule n m x).eager = s.eager := by simp only [State.setModule]
@[simp] theorem State.setModule_free (n m : Nat) (x : LinkModule) : (s.setModule n m x).free = s.free := by simp only [State.setModule]

/-! ### `setPort` -/

@[simp] theorem State.setPort_harts (n : Nat) (x : Port) : (s.setPort n x).harts = s.harts := by simp only [State.setPort]
@[simp] theorem State.setPort_cur (n : Nat) (x : Port) : (s.setPort n x).cur = s.cur := by simp only [State.setPort]
@[simp] theorem State.setPort_core (n : Nat) (x : Port) : (s.setPort n x).core = s.core := by simp only [State.setPort]
@[simp] theorem State.setPort_mem (n : Nat) (x : Port) : (s.setPort n x).mem = s.mem := by simp only [State.setPort]
@[simp] theorem State.setPort_ctxs (n : Nat) (x : Port) : (s.setPort n x).ctxs = s.ctxs := by simp only [State.setPort]
@[simp] theorem State.setPort_jobs (n : Nat) (x : Port) : (s.setPort n x).jobs = s.jobs := by simp only [State.setPort]
@[simp] theorem State.setPort_groups (n : Nat) (x : Port) : (s.setPort n x).groups = s.groups := by simp only [State.setPort]
@[simp] theorem State.setPort_clock (n : Nat) (x : Port) : (s.setPort n x).clock = s.clock := by simp only [State.setPort]
@[simp] theorem State.setPort_trust (n : Nat) (x : Port) : (s.setPort n x).trust = s.trust := by simp only [State.setPort]
@[simp] theorem State.setPort_sched (n : Nat) (x : Port) : (s.setPort n x).sched = s.sched := by simp only [State.setPort]
@[simp] theorem State.setPort_host (n : Nat) (x : Port) : (s.setPort n x).host = s.host := by simp only [State.setPort]
@[simp] theorem State.setPort_arrivals (n : Nat) (x : Port) : (s.setPort n x).arrivals = s.arrivals := by simp only [State.setPort]
@[simp] theorem State.setPort_eager (n : Nat) (x : Port) : (s.setPort n x).eager = s.eager := by simp only [State.setPort]
@[simp] theorem State.setPort_free (n : Nat) (x : Port) : (s.setPort n x).free = s.free := by simp only [State.setPort]

/-! ### `setReduction` -/

@[simp] theorem State.setReduction_harts (r : Reduction) : (s.setReduction r).harts = s.harts := rfl
@[simp] theorem State.setReduction_cur (r : Reduction) : (s.setReduction r).cur = s.cur := rfl
@[simp] theorem State.setReduction_core (r : Reduction) : (s.setReduction r).core = s.core := rfl
@[simp] theorem State.setReduction_mem (r : Reduction) : (s.setReduction r).mem = s.mem := rfl
@[simp] theorem State.setReduction_ctxs (r : Reduction) : (s.setReduction r).ctxs = s.ctxs := rfl
@[simp] theorem State.setReduction_jobs (r : Reduction) : (s.setReduction r).jobs = s.jobs := rfl
@[simp] theorem State.setReduction_groups (r : Reduction) : (s.setReduction r).groups = s.groups := rfl
@[simp] theorem State.setReduction_fab (r : Reduction) : (s.setReduction r).fab = s.fab := rfl
@[simp] theorem State.setReduction_clock (r : Reduction) : (s.setReduction r).clock = s.clock := rfl
@[simp] theorem State.setReduction_sched (r : Reduction) : (s.setReduction r).sched = s.sched := rfl
@[simp] theorem State.setReduction_host (r : Reduction) : (s.setReduction r).host = s.host := rfl
@[simp] theorem State.setReduction_arrivals (r : Reduction) : (s.setReduction r).arrivals = s.arrivals := rfl
@[simp] theorem State.setReduction_eager (r : Reduction) : (s.setReduction r).eager = s.eager := rfl
@[simp] theorem State.setReduction_free (r : Reduction) : (s.setReduction r).free = s.free := rfl

/-! ### `setPeer` -/

@[simp] theorem State.setPeer_harts (ep : Epid) (x : Option SpdmPeer) : (s.setPeer ep x).harts = s.harts := rfl
@[simp] theorem State.setPeer_cur (ep : Epid) (x : Option SpdmPeer) : (s.setPeer ep x).cur = s.cur := rfl
@[simp] theorem State.setPeer_core (ep : Epid) (x : Option SpdmPeer) : (s.setPeer ep x).core = s.core := rfl
@[simp] theorem State.setPeer_mem (ep : Epid) (x : Option SpdmPeer) : (s.setPeer ep x).mem = s.mem := rfl
@[simp] theorem State.setPeer_ctxs (ep : Epid) (x : Option SpdmPeer) : (s.setPeer ep x).ctxs = s.ctxs := rfl
@[simp] theorem State.setPeer_jobs (ep : Epid) (x : Option SpdmPeer) : (s.setPeer ep x).jobs = s.jobs := rfl
@[simp] theorem State.setPeer_groups (ep : Epid) (x : Option SpdmPeer) : (s.setPeer ep x).groups = s.groups := rfl
@[simp] theorem State.setPeer_fab (ep : Epid) (x : Option SpdmPeer) : (s.setPeer ep x).fab = s.fab := rfl
@[simp] theorem State.setPeer_clock (ep : Epid) (x : Option SpdmPeer) : (s.setPeer ep x).clock = s.clock := rfl
@[simp] theorem State.setPeer_sched (ep : Epid) (x : Option SpdmPeer) : (s.setPeer ep x).sched = s.sched := rfl
@[simp] theorem State.setPeer_host (ep : Epid) (x : Option SpdmPeer) : (s.setPeer ep x).host = s.host := rfl
@[simp] theorem State.setPeer_arrivals (ep : Epid) (x : Option SpdmPeer) : (s.setPeer ep x).arrivals = s.arrivals := rfl
@[simp] theorem State.setPeer_eager (ep : Epid) (x : Option SpdmPeer) : (s.setPeer ep x).eager = s.eager := rfl
@[simp] theorem State.setPeer_free (ep : Epid) (x : Option SpdmPeer) : (s.setPeer ep x).free = s.free := rfl

/-! ### `eraseKey` -/

@[simp] theorem State.eraseKey_harts (job : BitVec 16) : (s.eraseKey job).harts = s.harts := rfl
@[simp] theorem State.eraseKey_cur (job : BitVec 16) : (s.eraseKey job).cur = s.cur := rfl
@[simp] theorem State.eraseKey_core (job : BitVec 16) : (s.eraseKey job).core = s.core := rfl
@[simp] theorem State.eraseKey_mem (job : BitVec 16) : (s.eraseKey job).mem = s.mem := rfl
@[simp] theorem State.eraseKey_ctxs (job : BitVec 16) : (s.eraseKey job).ctxs = s.ctxs := rfl
@[simp] theorem State.eraseKey_jobs (job : BitVec 16) : (s.eraseKey job).jobs = s.jobs := rfl
@[simp] theorem State.eraseKey_groups (job : BitVec 16) : (s.eraseKey job).groups = s.groups := rfl
@[simp] theorem State.eraseKey_fab (job : BitVec 16) : (s.eraseKey job).fab = s.fab := rfl
@[simp] theorem State.eraseKey_clock (job : BitVec 16) : (s.eraseKey job).clock = s.clock := rfl
@[simp] theorem State.eraseKey_sched (job : BitVec 16) : (s.eraseKey job).sched = s.sched := rfl
@[simp] theorem State.eraseKey_host (job : BitVec 16) : (s.eraseKey job).host = s.host := rfl
@[simp] theorem State.eraseKey_arrivals (job : BitVec 16) : (s.eraseKey job).arrivals = s.arrivals := rfl
@[simp] theorem State.eraseKey_eager (job : BitVec 16) : (s.eraseKey job).eager = s.eager := rfl
@[simp] theorem State.eraseKey_free (job : BitVec 16) : (s.eraseKey job).free = s.free := rfl

/-! ### `putRecord` -/

@[simp] theorem State.putRecord_harts (g : GangRec) : (s.putRecord g).harts = s.harts := rfl
@[simp] theorem State.putRecord_cur (g : GangRec) : (s.putRecord g).cur = s.cur := rfl
@[simp] theorem State.putRecord_core (g : GangRec) : (s.putRecord g).core = s.core := rfl
@[simp] theorem State.putRecord_mem (g : GangRec) : (s.putRecord g).mem = s.mem := rfl
@[simp] theorem State.putRecord_ctxs (g : GangRec) : (s.putRecord g).ctxs = s.ctxs := rfl
@[simp] theorem State.putRecord_jobs (g : GangRec) : (s.putRecord g).jobs = s.jobs := rfl
@[simp] theorem State.putRecord_groups (g : GangRec) : (s.putRecord g).groups = s.groups := rfl
@[simp] theorem State.putRecord_fab (g : GangRec) : (s.putRecord g).fab = s.fab := rfl
@[simp] theorem State.putRecord_clock (g : GangRec) : (s.putRecord g).clock = s.clock := rfl
@[simp] theorem State.putRecord_trust (g : GangRec) : (s.putRecord g).trust = s.trust := rfl
@[simp] theorem State.putRecord_host (g : GangRec) : (s.putRecord g).host = s.host := rfl
@[simp] theorem State.putRecord_arrivals (g : GangRec) : (s.putRecord g).arrivals = s.arrivals := rfl
@[simp] theorem State.putRecord_eager (g : GangRec) : (s.putRecord g).eager = s.eager := rfl
@[simp] theorem State.putRecord_free (g : GangRec) : (s.putRecord g).free = s.free := rfl

/-! ### `modOffer` -/

@[simp] theorem State.modOffer_harts (gangid : BitVec 32) (t : Nat) (f : Offer → Offer) : (s.modOffer gangid t f).harts = s.harts := rfl
@[simp] theorem State.modOffer_cur (gangid : BitVec 32) (t : Nat) (f : Offer → Offer) : (s.modOffer gangid t f).cur = s.cur := rfl
@[simp] theorem State.modOffer_core (gangid : BitVec 32) (t : Nat) (f : Offer → Offer) : (s.modOffer gangid t f).core = s.core := rfl
@[simp] theorem State.modOffer_mem (gangid : BitVec 32) (t : Nat) (f : Offer → Offer) : (s.modOffer gangid t f).mem = s.mem := rfl
@[simp] theorem State.modOffer_ctxs (gangid : BitVec 32) (t : Nat) (f : Offer → Offer) : (s.modOffer gangid t f).ctxs = s.ctxs := rfl
@[simp] theorem State.modOffer_jobs (gangid : BitVec 32) (t : Nat) (f : Offer → Offer) : (s.modOffer gangid t f).jobs = s.jobs := rfl
@[simp] theorem State.modOffer_groups (gangid : BitVec 32) (t : Nat) (f : Offer → Offer) : (s.modOffer gangid t f).groups = s.groups := rfl
@[simp] theorem State.modOffer_fab (gangid : BitVec 32) (t : Nat) (f : Offer → Offer) : (s.modOffer gangid t f).fab = s.fab := rfl
@[simp] theorem State.modOffer_clock (gangid : BitVec 32) (t : Nat) (f : Offer → Offer) : (s.modOffer gangid t f).clock = s.clock := rfl
@[simp] theorem State.modOffer_trust (gangid : BitVec 32) (t : Nat) (f : Offer → Offer) : (s.modOffer gangid t f).trust = s.trust := rfl
@[simp] theorem State.modOffer_host (gangid : BitVec 32) (t : Nat) (f : Offer → Offer) : (s.modOffer gangid t f).host = s.host := rfl
@[simp] theorem State.modOffer_arrivals (gangid : BitVec 32) (t : Nat) (f : Offer → Offer) : (s.modOffer gangid t f).arrivals = s.arrivals := rfl
@[simp] theorem State.modOffer_eager (gangid : BitVec 32) (t : Nat) (f : Offer → Offer) : (s.modOffer gangid t f).eager = s.eager := rfl
@[simp] theorem State.modOffer_free (gangid : BitVec 32) (t : Nat) (f : Offer → Offer) : (s.modOffer gangid t f).free = s.free := rfl

/-! ### `putBinding` -/

@[simp] theorem State.putBinding_harts (ctxid : Nat) (hash : List Byte) (r : Option Bound) : (s.putBinding ctxid hash r).harts = s.harts := rfl
@[simp] theorem State.putBinding_cur (ctxid : Nat) (hash : List Byte) (r : Option Bound) : (s.putBinding ctxid hash r).cur = s.cur := rfl
@[simp] theorem State.putBinding_core (ctxid : Nat) (hash : List Byte) (r : Option Bound) : (s.putBinding ctxid hash r).core = s.core := rfl
@[simp] theorem State.putBinding_mem (ctxid : Nat) (hash : List Byte) (r : Option Bound) : (s.putBinding ctxid hash r).mem = s.mem := rfl
@[simp] theorem State.putBinding_ctxs (ctxid : Nat) (hash : List Byte) (r : Option Bound) : (s.putBinding ctxid hash r).ctxs = s.ctxs := rfl
@[simp] theorem State.putBinding_jobs (ctxid : Nat) (hash : List Byte) (r : Option Bound) : (s.putBinding ctxid hash r).jobs = s.jobs := rfl
@[simp] theorem State.putBinding_groups (ctxid : Nat) (hash : List Byte) (r : Option Bound) : (s.putBinding ctxid hash r).groups = s.groups := rfl
@[simp] theorem State.putBinding_fab (ctxid : Nat) (hash : List Byte) (r : Option Bound) : (s.putBinding ctxid hash r).fab = s.fab := rfl
@[simp] theorem State.putBinding_clock (ctxid : Nat) (hash : List Byte) (r : Option Bound) : (s.putBinding ctxid hash r).clock = s.clock := rfl
@[simp] theorem State.putBinding_trust (ctxid : Nat) (hash : List Byte) (r : Option Bound) : (s.putBinding ctxid hash r).trust = s.trust := rfl
@[simp] theorem State.putBinding_host (ctxid : Nat) (hash : List Byte) (r : Option Bound) : (s.putBinding ctxid hash r).host = s.host := rfl
@[simp] theorem State.putBinding_arrivals (ctxid : Nat) (hash : List Byte) (r : Option Bound) : (s.putBinding ctxid hash r).arrivals = s.arrivals := rfl
@[simp] theorem State.putBinding_eager (ctxid : Nat) (hash : List Byte) (r : Option Bound) : (s.putBinding ctxid hash r).eager = s.eager := rfl
@[simp] theorem State.putBinding_free (ctxid : Nat) (hash : List Byte) (r : Option Bound) : (s.putBinding ctxid hash r).free = s.free := rfl

/-! ### `modMonitor` -/

@[simp] theorem State.modMonitor_harts (die k : Nat) (f : Monitor → Monitor) : (s.modMonitor die k f).harts = s.harts := by simp only [State.modMonitor]
@[simp] theorem State.modMonitor_cur (die k : Nat) (f : Monitor → Monitor) : (s.modMonitor die k f).cur = s.cur := by simp only [State.modMonitor]
@[simp] theorem State.modMonitor_core (die k : Nat) (f : Monitor → Monitor) : (s.modMonitor die k f).core = s.core := by simp only [State.modMonitor]
@[simp] theorem State.modMonitor_mem (die k : Nat) (f : Monitor → Monitor) : (s.modMonitor die k f).mem = s.mem := by simp only [State.modMonitor]
@[simp] theorem State.modMonitor_ctxs (die k : Nat) (f : Monitor → Monitor) : (s.modMonitor die k f).ctxs = s.ctxs := by simp only [State.modMonitor]
@[simp] theorem State.modMonitor_jobs (die k : Nat) (f : Monitor → Monitor) : (s.modMonitor die k f).jobs = s.jobs := by simp only [State.modMonitor]
@[simp] theorem State.modMonitor_groups (die k : Nat) (f : Monitor → Monitor) : (s.modMonitor die k f).groups = s.groups := by simp only [State.modMonitor]
@[simp] theorem State.modMonitor_fab (die k : Nat) (f : Monitor → Monitor) : (s.modMonitor die k f).fab = s.fab := by simp only [State.modMonitor]
@[simp] theorem State.modMonitor_clock (die k : Nat) (f : Monitor → Monitor) : (s.modMonitor die k f).clock = s.clock := by simp only [State.modMonitor]
@[simp] theorem State.modMonitor_trust (die k : Nat) (f : Monitor → Monitor) : (s.modMonitor die k f).trust = s.trust := by simp only [State.modMonitor]
@[simp] theorem State.modMonitor_sched (die k : Nat) (f : Monitor → Monitor) : (s.modMonitor die k f).sched = s.sched := by simp only [State.modMonitor]
@[simp] theorem State.modMonitor_arrivals (die k : Nat) (f : Monitor → Monitor) : (s.modMonitor die k f).arrivals = s.arrivals := by simp only [State.modMonitor]
@[simp] theorem State.modMonitor_eager (die k : Nat) (f : Monitor → Monitor) : (s.modMonitor die k f).eager = s.eager := by simp only [State.modMonitor]
@[simp] theorem State.modMonitor_free (die k : Nat) (f : Monitor → Monitor) : (s.modMonitor die k f).free = s.free := by simp only [State.modMonitor]

/-! ### `putEvent` -/

@[simp] theorem State.putEvent_harts (code : Nat) (args : List Byte) : (s.putEvent code args).harts = s.harts := rfl
@[simp] theorem State.putEvent_cur (code : Nat) (args : List Byte) : (s.putEvent code args).cur = s.cur := rfl
@[simp] theorem State.putEvent_core (code : Nat) (args : List Byte) : (s.putEvent code args).core = s.core := rfl
@[simp] theorem State.putEvent_mem (code : Nat) (args : List Byte) : (s.putEvent code args).mem = s.mem := rfl
@[simp] theorem State.putEvent_ctxs (code : Nat) (args : List Byte) : (s.putEvent code args).ctxs = s.ctxs := rfl
@[simp] theorem State.putEvent_jobs (code : Nat) (args : List Byte) : (s.putEvent code args).jobs = s.jobs := rfl
@[simp] theorem State.putEvent_groups (code : Nat) (args : List Byte) : (s.putEvent code args).groups = s.groups := rfl
@[simp] theorem State.putEvent_fab (code : Nat) (args : List Byte) : (s.putEvent code args).fab = s.fab := rfl
@[simp] theorem State.putEvent_clock (code : Nat) (args : List Byte) : (s.putEvent code args).clock = s.clock := rfl
@[simp] theorem State.putEvent_trust (code : Nat) (args : List Byte) : (s.putEvent code args).trust = s.trust := rfl
@[simp] theorem State.putEvent_sched (code : Nat) (args : List Byte) : (s.putEvent code args).sched = s.sched := rfl
@[simp] theorem State.putEvent_arrivals (code : Nat) (args : List Byte) : (s.putEvent code args).arrivals = s.arrivals := rfl
@[simp] theorem State.putEvent_eager (code : Nat) (args : List Byte) : (s.putEvent code args).eager = s.eager := rfl
@[simp] theorem State.putEvent_free (code : Nat) (args : List Byte) : (s.putEvent code args).free = s.free := rfl

/-! ### `putCompletion` -/

@[simp] theorem State.putCompletion_harts (c : List Byte) : (s.putCompletion c).harts = s.harts := rfl
@[simp] theorem State.putCompletion_cur (c : List Byte) : (s.putCompletion c).cur = s.cur := rfl
@[simp] theorem State.putCompletion_core (c : List Byte) : (s.putCompletion c).core = s.core := rfl
@[simp] theorem State.putCompletion_mem (c : List Byte) : (s.putCompletion c).mem = s.mem := rfl
@[simp] theorem State.putCompletion_ctxs (c : List Byte) : (s.putCompletion c).ctxs = s.ctxs := rfl
@[simp] theorem State.putCompletion_jobs (c : List Byte) : (s.putCompletion c).jobs = s.jobs := rfl
@[simp] theorem State.putCompletion_groups (c : List Byte) : (s.putCompletion c).groups = s.groups := rfl
@[simp] theorem State.putCompletion_fab (c : List Byte) : (s.putCompletion c).fab = s.fab := rfl
@[simp] theorem State.putCompletion_clock (c : List Byte) : (s.putCompletion c).clock = s.clock := rfl
@[simp] theorem State.putCompletion_trust (c : List Byte) : (s.putCompletion c).trust = s.trust := rfl
@[simp] theorem State.putCompletion_sched (c : List Byte) : (s.putCompletion c).sched = s.sched := rfl
@[simp] theorem State.putCompletion_arrivals (c : List Byte) : (s.putCompletion c).arrivals = s.arrivals := rfl
@[simp] theorem State.putCompletion_eager (c : List Byte) : (s.putCompletion c).eager = s.eager := rfl
@[simp] theorem State.putCompletion_free (c : List Byte) : (s.putCompletion c).free = s.free := rfl

/-! ### `byEvents` -/

@[simp] theorem State.byEvents_harts : (s.byEvents).harts = s.harts := rfl
@[simp] theorem State.byEvents_cur : (s.byEvents).cur = s.cur := rfl
@[simp] theorem State.byEvents_core : (s.byEvents).core = s.core := rfl
@[simp] theorem State.byEvents_mem : (s.byEvents).mem = s.mem := rfl
@[simp] theorem State.byEvents_ctxs : (s.byEvents).ctxs = s.ctxs := rfl
@[simp] theorem State.byEvents_jobs : (s.byEvents).jobs = s.jobs := rfl
@[simp] theorem State.byEvents_groups : (s.byEvents).groups = s.groups := rfl
@[simp] theorem State.byEvents_fab : (s.byEvents).fab = s.fab := rfl
@[simp] theorem State.byEvents_clock : (s.byEvents).clock = s.clock := rfl
@[simp] theorem State.byEvents_trust : (s.byEvents).trust = s.trust := rfl
@[simp] theorem State.byEvents_sched : (s.byEvents).sched = s.sched := rfl
@[simp] theorem State.byEvents_host : (s.byEvents).host = s.host := rfl
@[simp] theorem State.byEvents_arrivals : (s.byEvents).arrivals = s.arrivals := rfl
@[simp] theorem State.byEvents_free : (s.byEvents).free = s.free := rfl

/-! ### `served` -/

@[simp] theorem State.served_harts (i : Fin 4) (eng : Engine) : (s.served i eng).harts = s.harts := by cases eng <;> rfl
@[simp] theorem State.served_cur (i : Fin 4) (eng : Engine) : (s.served i eng).cur = s.cur := by cases eng <;> rfl
@[simp] theorem State.served_mem (i : Fin 4) (eng : Engine) : (s.served i eng).mem = s.mem := by cases eng <;> rfl
@[simp] theorem State.served_ctxs (i : Fin 4) (eng : Engine) : (s.served i eng).ctxs = s.ctxs := by cases eng <;> rfl
@[simp] theorem State.served_jobs (i : Fin 4) (eng : Engine) : (s.served i eng).jobs = s.jobs := by cases eng <;> rfl
@[simp] theorem State.served_groups (i : Fin 4) (eng : Engine) : (s.served i eng).groups = s.groups := by cases eng <;> rfl
@[simp] theorem State.served_fab (i : Fin 4) (eng : Engine) : (s.served i eng).fab = s.fab := by cases eng <;> rfl
@[simp] theorem State.served_clock (i : Fin 4) (eng : Engine) : (s.served i eng).clock = s.clock := by cases eng <;> rfl
@[simp] theorem State.served_trust (i : Fin 4) (eng : Engine) : (s.served i eng).trust = s.trust := by cases eng <;> rfl
@[simp] theorem State.served_sched (i : Fin 4) (eng : Engine) : (s.served i eng).sched = s.sched := by cases eng <;> rfl
@[simp] theorem State.served_host (i : Fin 4) (eng : Engine) : (s.served i eng).host = s.host := by cases eng <;> rfl
@[simp] theorem State.served_arrivals (i : Fin 4) (eng : Engine) : (s.served i eng).arrivals = s.arrivals := by cases eng <;> rfl
@[simp] theorem State.served_eager (i : Fin 4) (eng : Engine) : (s.served i eng).eager = s.eager := by cases eng <;> rfl
@[simp] theorem State.served_free (i : Fin 4) (eng : Engine) : (s.served i eng).free = s.free := by cases eng <;> rfl

/-! ### The hart an update reaches -/

theorem State.modHart_same (i : Fin 4) (f : Hart → Hart) : (s.modHart i f).harts[i] = f s.harts[i] := by
  simp [State.modHart]

/-- The same with the index as `simp` writes it. -/
@[simp] theorem State.modHart_val (i : Fin 4) (f : Hart → Hart) : (s.modHart i f).harts[i.val] = f s.harts[i.val] :=
  State.modHart_same s i f

theorem State.modHart_other (i j : Fin 4) (f : Hart → Hart) (h : j ≠ i) : (s.modHart i f).harts[j] = s.harts[j] := by
  have hv : i.val ≠ j.val := fun e => h (Fin.ext e.symm)
  simp [State.modHart, Vector.getElem_set_ne, hv]

@[simp] theorem State.mod_h (f : Hart → Hart) : (s.mod f).h = f s.h := State.modHart_same s s.cur f

theorem State.mod_other (j : Fin 4) (f : Hart → Hart) (h : j ≠ s.cur) : (s.mod f).harts[j] = s.harts[j] :=
  State.modHart_other s s.cur j f h

theorem State.mod_mod (f g : Hart → Hart) : (s.mod f).mod g = s.mod (g ∘ f) := by
  simp [State.mod, State.modHart]

/-- What a change of the issuing hart leaves: everything but that hart. -/
theorem State.mod_frame (f : Hart → Hart) : { s.mod f with harts := s.harts } = s := rfl

@[simp] theorem State.setX_h (n : XNum) (v : Word) : (s.setX n v).h = { s.h with x := xPut s.h.x n v } := State.mod_h s _

@[simp] theorem State.retire_h :
    s.retire.h = { s.h.loopStep s.h.pc with status := .running, laneServed := false, matrixServed := false } := State.mod_h s _

@[simp] theorem State.goTo_h (t : Word) :
    (s.goTo t).h = { s.h with pc := t, status := .running, laneServed := false, matrixServed := false } := State.mod_h s _

@[simp] theorem State.wait_h (k : WaitKind) (w : IWord) : (s.wait k w).h = { s.h with status := .waiting k w } := State.mod_h s _

@[simp] theorem State.endRemote_h : s.endRemote.h = { s.h with scalarRemote := ⟨[], [], none⟩ } := State.mod_h s _

end Sys2Proof.Machine
end

