-- ==== Sys2Proof/Laws/Registers.lean ====
section
/-! SUPPORT. The register files: what a read gives after a write, for scalar, vector, fibre and mask registers, with the hard-wired x0
and m0; the loop-end step; and the frame of a scalar instruction. -/

namespace Sys2Proof.Machine

/-! ### Scalar registers (R229) -/

@[simp] theorem xGet_zero (x : Vector Word 32) : xGet x 0#5 = 0#64 := rfl

@[simp] theorem xPut_zero (x : Vector Word 32) (v : Word) : xPut x 0#5 v = x := rfl

theorem xGet_xPut (x : Vector Word 32) (n m : XNum) (v : Word) :
    xGet (xPut x n v) m = if m = n ∧ n ≠ 0#5 then v else xGet x m := by
  unfold xGet xPut
  by_cases hm : m = 0#5
  · subst hm
    by_cases hn : n = 0#5 <;> simp [hn, eq_comm]
  · by_cases hn : n = 0#5
    · simp [hm, hn]
    · by_cases hmn : m = n
      · subst hmn
        simp [hm]
      · have : n.toNat ≠ m.toNat := fun e => hmn (BitVec.eq_of_toNat_eq e.symm)
        simp [hm, hn, hmn, Vector.getElem_set_ne, this]

@[simp] theorem xGet_xPut_same (x : Vector Word 32) (n : XNum) (v : Word) (h : n ≠ 0#5) : xGet (xPut x n v) n = v := by
  simp [xGet_xPut, h]

@[simp] theorem xGet_xPut_other (x : Vector Word 32) (n m : XNum) (v : Word) (h : m ≠ n) : xGet (xPut x n v) m = xGet x m := by
  simp [xGet_xPut, h]

/-! ### Masks (R246) -/

@[simp] theorem Hart.mask_zero (h : Hart) : h.mask 0#3 = Vector.replicate 16 (BitVec.allOnes 2048) := rfl

@[simp] theorem Hart.setMask_zero (h : Hart) (r : MReg) : h.setMask 0#3 r = h := rfl

@[simp] theorem Hart.mask_setMask_same (h : Hart) (n : MNum) (r : MReg) (hn : n ≠ 0#3) : (h.setMask n r).mask n = r := by
  simp [Hart.mask, Hart.setMask, hn]

@[simp] theorem Hart.mask_setMask_other (h : Hart) (n m : MNum) (r : MReg) (hm : m ≠ n) : (h.setMask n r).mask m = h.mask m := by
  unfold Hart.mask Hart.setMask
  by_cases h0 : n = 0#3
  · simp [h0]
  · have : n.toNat ≠ m.toNat := fun e => hm (BitVec.eq_of_toNat_eq e.symm)
    simp [h0, Vector.getElem_set_ne, this]

/-! ### Vector and fibre registers -/

@[simp] theorem Hart.vreg_setVreg_same (h : Hart) (n : VNum) (r : VReg) : (h.setVreg n r).vreg n = r := by
  simp [Hart.vreg, Hart.setVreg]

@[simp] theorem Hart.vreg_setVreg_other (h : Hart) (n m : VNum) (r : VReg) (hm : m ≠ n) : (h.setVreg n r).vreg m = h.vreg m := by
  have : n.toNat ≠ m.toNat := fun e => hm (BitVec.eq_of_toNat_eq e.symm)
  simp [Hart.vreg, Hart.setVreg, Vector.getElem_set_ne, this]

@[simp] theorem Hart.freg_setFreg_same (h : Hart) (n : FNum) (r : FReg) : (h.setFreg n r).freg n = r := by
  simp [Hart.freg, Hart.setFreg]

@[simp] theorem Hart.freg_setFreg_other (h : Hart) (n m : FNum) (r : FReg) (hm : m ≠ n) : (h.setFreg n r).freg m = h.freg m := by
  have : n.toNat ≠ m.toNat := fun e => hm (BitVec.eq_of_toNat_eq e.symm)
  simp [Hart.freg, Hart.setFreg, Vector.getElem_set_ne, this]

/-- A change of a vector register leaves the rest of the hart. -/
theorem Hart.setVreg_frame (h : Hart) (n : VNum) (r : VReg) : { h.setVreg n r with v := h.v } = h := rfl

/-- A change of a fibre register leaves the rest of the hart. -/
theorem Hart.setFreg_frame (h : Hart) (n : FNum) (r : FReg) : { h.setFreg n r with f := h.f } = h := rfl

/-- A change of a mask leaves the rest of the hart. -/
theorem Hart.setMask_frame (h : Hart) (n : MNum) (r : MReg) : { h.setMask n r with m := h.m } = h := by
  unfold Hart.setMask
  split <;> rfl

/-! ### The loop-end step (R462) -/

/-- It changes the program counter and the two loop counts, and nothing else. -/
theorem Hart.loopStep_frame (h : Hart) (a : Word) : { h.loopStep a with pc := h.pc, lc0 := h.lc0, lc1 := h.lc1 } = h := by
  unfold Hart.loopStep
  dsimp only
  repeat' split
  all_goals rfl

/-- With both counts zero the hart goes on at the next word. -/
theorem Hart.loopStep_plain (h : Hart) (a : Word) (h0 : h.lc0 = 0#64) (h1 : h.lc1 = 0#64) : h.loopStep a = { h with pc := a + 4#64 } := by
  simp [Hart.loopStep, h0, h1]

/-! ### The frame of a scalar instruction -/

/-- Nothing stands in the way: its effect. -/
@[simp] theorem scalarInstr_clear (w : IWord) (rs : List XNum) (s : State) (k : State → State) (hp : s.h.pfxNext = false)
    (hr : s.h.anyPending rs = false) : scalarInstr w rs s k = .next (k s) := by
  simp [scalarInstr, hp, hr]

/-- Behind a prefix it traps ILL (R406). -/
theorem scalarInstr_prefixed (w : IWord) (rs : List XNum) (s : State) (k : State → State) (hp : s.h.pfxNext = true) :
    scalarInstr w rs s k = .next (s.ill w) := by
  simp [scalarInstr, hp]

/-- A register that an engine has still to write makes it wait (R204). -/
theorem scalarInstr_pending (w : IWord) (rs : List XNum) (s : State) (k : State → State) (hp : s.h.pfxNext = false)
    (hr : s.h.anyPending rs = true) : scalarInstr w rs s k = .next (s.wait .retry w) := by
  simp [scalarInstr, hp, hr]

/-- Everything a scalar instruction can come to. -/
theorem scalarInstr_cases (w : IWord) (rs : List XNum) (s : State) (k : State → State) :
    (s.h.pfxNext = true ∧ scalarInstr w rs s k = .next (s.ill w)) ∨
    (s.h.pfxNext = false ∧ s.h.anyPending rs = true ∧ scalarInstr w rs s k = .next (s.wait .retry w)) ∨
    (s.h.pfxNext = false ∧ s.h.anyPending rs = false ∧ scalarInstr w rs s k = .next (k s)) := by
  unfold scalarInstr
  cases s.h.pfxNext <;> cases s.h.anyPending rs <;> simp

/-- An empty queue has no register pending. -/
theorem Hart.anyPending_nil (h : Hart) (hq : h.queue = []) (rs : List XNum) : h.anyPending rs = false := by
  simp [Hart.anyPending, Hart.pendingX, hq]

end Sys2Proof.Machine
end

