-- ==== Sys2Proof/Laws/Issue.lean ====
section
/-! SUPPORT. What the post of an instruction comes to: the checks passed, and the run of its entry at an idle hart. -/

namespace Sys2Proof.Machine

/-- With nothing in its way an instruction is posted, and its queues run. -/
theorem issueWith_postable {s : State} {p : Posted} (h : Postable s p) (f : State → State) : issueWith f p s = .next (f s) := by
  obtain ⟨hb, hr, hq, hl, hm⟩ := h
  have hlane : s.withLane p f = f s := by
    unfold State.withLane
    by_cases hn : p.needsLane = true
    · simp [hn, hl hn]
    · simp [hn]
  unfold issueWith
  rw [if_neg (by simp [hb]), if_neg (by simp [hr])]
  congr 1
  split
  · rename_i c hc
    exfalso
    split at hc
    · rename_i hbody
      rw [hm _ _ _ _ _ hbody] at hc
      cases hc
    · cases hc
  · simp [hq, hlane]

theorem issue_postable {s : State} {p : Posted} (h : Postable s p) : issue p s = .next (s.postNow p) := issueWith_postable h _

/-- The entry just posted is the only one. -/
theorem Hart.post_queue (h : Hart) (p : Posted) (hq : h.queue = []) : (h.post p).queue = [h.newEntry p] := by
  simp [Hart.post, hq]

/-- An empty queue has nothing to run. -/
theorem State.drainLoop_empty (s : State) (i : Fin 4) (n : Nat) (h : s.harts[i].queue = []) : s.drainLoop i n = s := by
  cases n with
  | zero => rfl
  | succ n => simp [State.drainLoop, State.drainPass, h, -Fin.getElem_fin]

/-- One entry that has not begun, tried: it begins, its strips come in, and its body runs. -/
theorem State.tryEntry_begins (s : State) (i : Fin 4) (hi : QEntry → Nat) (e : QEntry) (hq : s.harts[i].queue = [e])
    (hm : s.mayRun i e = true) (hs : e.started = false) (hp : e.pend = none) :
    s.tryEntry i hi e.eid =
      match (if (s.harts[i].beginEntry e).2.strips.isEmpty then
            Ran.done ((s.modHart i fun _ => (s.harts[i].beginEntry e).1).served i e.post.eng) (s.harts[i].beginEntry e).2
          else fetchStrips i ((s.modHart i fun _ => (s.harts[i].beginEntry e).1).served i e.post.eng) (s.harts[i].beginEntry e).2) with
      | .done s2 e2 => State.applyRan i (bodyRun i (hi e2) e2 s2).2 (bodyRun i (hi e2) e2 s2).1
      | o => State.applyRan i none o := by
  have he : s.harts[i].entry e.eid = some e := by simp [Hart.entry, hq, -Fin.getElem_fin]
  unfold State.tryEntry
  simp only [he, hm, hs, hp, if_true, Bool.false_eq_true, if_false] <;> rfl

/-- A posted instruction that runs to its end at an idle hart has its whole effect in the step that issues it. -/
theorem postNow_runsTo {s t : State} {p : Posted} (h : RunsTo s p t) : s.postNow p = t := by
  obtain ⟨-, he, hq, hm, u, e, x, hr, ht, htq⟩ := h
  have hq1 : (s.mod fun h => h.post p).harts[s.cur].queue = [s.h.newEntry p] := by
    show (s.mod fun h => h.post p).h.queue = _
    rw [State.mod_h]
    exact Hart.post_queue _ _ hq
  have htry := State.tryEntry_begins (s.mod fun h => h.post p) s.cur QEntry.total (s.h.newEntry p) hq1 hm rfl rfl
  have hpass : (s.mod fun h => h.post p).drainPass s.cur = t := by
    unfold State.drainPass
    rw [hq1]
    simp only [List.map_cons, List.map_nil, List.foldl_cons, List.foldl_nil]
    rw [htry, ht]
    unfold State.runPosted at hr
    revert hr
    show (match (if (s.begun p).2.strips.isEmpty then Ran.done (s.begun p).1 (s.begun p).2 else fetchStrips s.cur (s.begun p).1 (s.begun p).2) with
      | .done s2 e2 => bodyRun s.cur e2.total e2 s2
      | o => (o, none)) = _ →
      (match (if (s.begun p).2.strips.isEmpty then Ran.done (s.begun p).1 (s.begun p).2 else fetchStrips s.cur (s.begun p).1 (s.begun p).2) with
      | .done s2 e2 => State.applyRan s.cur (bodyRun s.cur e2.total e2 s2).2 (bodyRun s.cur e2.total e2 s2).1
      | o => State.applyRan s.cur none o) = _
    generalize (if (s.begun p).2.strips.isEmpty then Ran.done (s.begun p).1 (s.begun p).2 else fetchStrips s.cur (s.begun p).1 (s.begun p).2) = r
    intro hr
    cases r <;> simp_all [State.applyRan]
  have hs : (s.mod fun h => h.post p).eager = true := he
  have hc : (s.mod fun h => h.post p).cur = s.cur := rfl
  unfold State.postNow
  dsimp only
  rw [if_pos hs, hc]
  unfold State.drain
  rw [if_neg (by rw [hq1]; simp), hq1]
  show State.drainLoop s.cur 2 _ = t
  unfold State.drainLoop
  dsimp only
  rw [hpass, htq, State.drainLoop_empty _ _ _ htq]
  simp

/-- The whole effect of a posted instruction in its step. -/
theorem issue_runsTo {s t : State} {p : Posted} (h : RunsTo s p t) : issue p s = .next t := by
  rw [issue_postable h.1, postNow_runsTo h]

end Sys2Proof.Machine
end

