-- ==== Sys2Proof/Laws/Lanes.lean ====
section
/-! SUPPORT. What serving freed lane groups leaves of the harts (R161, R162), and the run of an instruction that needs no memory. -/

namespace Sys2Proof.Machine

@[simp] theorem State.settleLanes_harts (s : State) : s.settleLanes.harts = s.harts := rfl
@[simp] theorem State.settleLanes_mem (s : State) : s.settleLanes.mem = s.mem := rfl
@[simp] theorem State.settleLanes_cur (s : State) : s.settleLanes.cur = s.cur := rfl

/-- The waiter that is served asks for groups. -/
theorem State.firstLaneWaiter_asks (s : State) (i : Fin 4) (n : Nat) (h : s.firstLaneWaiter = some (i, n)) : laneAsk s.harts[i] = some n := by
  have key : ∀ (l : List (Fin 4)) (b : Option (Fin 4 × Nat)), (∀ j m, b = some (j, m) → laneAsk s.harts[j] = some m) →
      ∀ j m, l.foldl (fun best i =>
        match laneAsk s.harts[i] with
        | none => best
        | some n =>
          match best with
          | none => some (i, n)
          | some (j, _) => if s.harts[j].prio < s.harts[i].prio then some (i, n) else best) b = some (j, m) → laneAsk s.harts[j] = some m := by
    intro l
    induction l with
    | nil => intro b hb j m h; exact hb j m h
    | cons a l ih =>
      intro b hb j m h
      refine ih _ ?_ j m h
      intro j' m' h'
      revert h'
      dsimp only
      cases ha : laneAsk s.harts[a] with
      | none => exact hb j' m'
      | some k =>
        cases b with
        | none => intro h'; cases h'; exact ha
        | some q =>
          obtain ⟨q1, q2⟩ := q
          dsimp only
          split
          · intro h'; cases h'; exact ha
          · exact hb j' m'
  exact key _ _ (by intro j m hc; cases hc) i n h

/-- A grant changes a hart that asks for groups, and of it only the groups that VTYPE names and the note that it was served. -/
theorem State.grantOnce_hart (s : State) (i : Fin 4) : ∃ b vt, s.grantOnce.harts[i] = { s.harts[i] with laneServed := b, vtype := vt } := by
  unfold State.grantOnce
  split
  · exact ⟨_, _, rfl⟩
  · rename_i j n h
    split
    · dsimp only
      by_cases hij : i = j
      · subst hij
        rw [State.modHart_same]
        exact ⟨_, _, rfl⟩
      · rw [State.modHart_other _ _ _ _ hij]
        exact ⟨_, _, rfl⟩
    · exact ⟨_, _, rfl⟩

theorem State.grantOnce_still (s : State) (i : Fin 4) (h : laneAsk s.harts[i] = none) : s.grantOnce.harts[i] = s.harts[i] := by
  unfold State.grantOnce
  split
  · rfl
  · rename_i j n hj
    split
    · have hij : i ≠ j := by
        intro hc
        subst hc
        rw [State.firstLaneWaiter_asks _ _ _ hj] at h
        cases h
      dsimp only
      rw [State.modHart_other _ _ _ _ hij]
    · rfl

/-- A grant touches the harts and the core alone. -/
theorem State.grantOnce_frame (s : State) : ∃ hs c, s.grantOnce = { s with harts := hs, core := c } := by
  unfold State.grantOnce
  split
  · exact ⟨s.harts, s.core, rfl⟩
  · split
    · exact ⟨_, _, rfl⟩
    · exact ⟨s.harts, s.core, rfl⟩

/-- Serving freed groups changes, of a hart, only the groups that VTYPE names and the note that it was served. -/
theorem State.serveLanes_hart (s : State) (i : Fin 4) : ∃ b vt, s.serveLanes.harts[i] = { s.harts[i] with laneServed := b, vtype := vt } := by
  unfold State.serveLanes
  obtain ⟨b1, v1, h1⟩ := State.grantOnce_hart s.settleLanes i
  obtain ⟨b2, v2, h2⟩ := State.grantOnce_hart s.settleLanes.grantOnce i
  obtain ⟨b3, v3, h3⟩ := State.grantOnce_hart s.settleLanes.grantOnce.grantOnce i
  obtain ⟨b4, v4, h4⟩ := State.grantOnce_hart s.settleLanes.grantOnce.grantOnce.grantOnce i
  exact ⟨b4, v4, by rw [h4, h3, h2, h1]; rfl⟩

/-- A hart that does not ask for groups stands. -/
theorem State.serveLanes_still (s : State) (i : Fin 4) (h : laneAsk s.harts[i] = none) : s.serveLanes.harts[i] = s.harts[i] := by
  unfold State.serveLanes
  have h1 : s.settleLanes.grantOnce.harts[i] = s.harts[i] := State.grantOnce_still _ _ h
  have h2 : s.settleLanes.grantOnce.grantOnce.harts[i] = s.harts[i] := by rw [State.grantOnce_still _ _ (by rw [h1]; exact h), h1]
  have h3 : s.settleLanes.grantOnce.grantOnce.grantOnce.harts[i] = s.harts[i] := by rw [State.grantOnce_still _ _ (by rw [h2]; exact h), h2]
  rw [State.grantOnce_still _ _ (by rw [h3]; exact h), h3]

/-- Serving freed groups touches the harts and the core alone. -/
theorem State.serveLanes_frame (s : State) : ∃ hs c, s.serveLanes = { s with harts := hs, core := c } := by
  have h : ∀ (u : State), (∃ hs c, u = { s with harts := hs, core := c }) → ∃ hs c, u.grantOnce = { s with harts := hs, core := c } := by
    rintro u ⟨hs, c, hu⟩
    obtain ⟨hs', c', hg⟩ := State.grantOnce_frame u
    exact ⟨hs', c', by rw [hg, hu]⟩
  exact h _ (h _ (h _ (h _ ⟨s.harts, _, rfl⟩)))

@[simp] theorem State.serveLanes_mem (s : State) : s.serveLanes.mem = s.mem := by
  obtain ⟨hs, c, h⟩ := s.serveLanes_frame
  rw [h]

@[simp] theorem State.serveLanes_cur (s : State) : s.serveLanes.cur = s.cur := by
  obtain ⟨hs, c, h⟩ := s.serveLanes_frame
  rw [h]

/-- The releases that take effect leave the queue (R242). -/
@[simp] theorem Hart.settleRows_queue (h : Hart) : h.settleRows.queue = h.queue := by
  unfold Hart.settleRows
  suffices H : ∀ (l : List RowRelease) (g : Hart), g.queue = h.queue →
      (l.foldl (fun h r => if h.heldBack r then h else { h.releaseTails r.thr r.vl with releases := h.releases.erase r }) g).queue = h.queue from
    H _ _ rfl
  intro l
  induction l with
  | nil => exact fun g hg => hg
  | cons r l ih =>
    intro g hg
    refine ih _ ?_
    dsimp only
    split
    · exact hg
    · exact hg

/-- With no release to come nothing is released. -/
theorem Hart.settleRows_none (h : Hart) (hr : h.releases = []) : h.settleRows = h := by
  unfold Hart.settleRows
  rw [hr]
  rfl

/-- What an instruction that may begin leaves when its body runs to its end. -/
theorem Runs.runsTo {s u : State} {p : Posted} {e : QEntry} {x : Option Word} (h : Runs s p)
    (hb : bodyRun s.cur (s.begun p).2.total (s.begun p).2 (s.begun p).1 = (.done u e, x))
    (hq : (u.harts[s.cur].queue.filter fun y => y.eid != e.eid) = []) : RunsTo s p (u.entryDone s.cur e x) := by
  obtain ⟨hp, he, h0, hs, hm, -⟩ := h
  have hst : (s.begun p).2.strips = [] := by
    show ((s.mod fun h => h.post p).h.beginEntry (s.h.newEntry p)).2.strips = []
    exact hs
  refine ⟨hp, he, h0, hm, u, e, x, ?_, rfl, ?_⟩
  · unfold State.runPosted
    simp only [hst, List.isEmpty_nil, if_true]
    exact hb
  · unfold State.entryDone
    obtain ⟨b, vt, hh⟩ := State.serveLanes_hart (u.modHart s.cur fun h => (h.retireEntry e x).settleRows) s.cur
    rw [hh, State.modHart_same]
    show (u.harts[s.cur].retireEntry e x).settleRows.queue = []
    rw [Hart.settleRows_queue]
    unfold Hart.retireEntry
    dsimp only
    have hk : ∀ (g : Hart) p c n, (Hart.setTokens g p c n).queue = g.queue := by
      intro g p c n
      unfold Hart.setTokens
      split <;> rfl
    split <;> split <;> (try split) <;> simp [hk, hq, -Fin.getElem_fin]

end Sys2Proof.Machine
end

