-- ==== Sys2Proof/Laws/Memory.lean ====
section
/-! SUPPORT. Every operation that changes the bytes of memory keeps the canonical form of its list. -/

namespace Sys2Proof.Machine

/-- A fold of operations that each keep a property keeps it. -/
theorem foldl_keeps {α β : Type} (P : β → Prop) (f : β → α → β) (h : ∀ b a, P b → P (f b a)) : ∀ (l : List α) (b : β), P b → P (l.foldl f b)
  | [], _, hb => hb
  | a :: l, b, hb => foldl_keeps P f h l (f b a) (h b a hb)

/-- Opening a sealed unit leaves the listed bytes or writes bytes of the unit (R319). -/
theorem Memory.openUnit_cells (m : Memory) (enc write : Bool) (key u : Nat) :
    (m.openUnit enc write key u).cells = m.cells ∨ ∃ k bs, (m.openUnit enc write key u).cells = cellWrite m.cells k bs := by
  unfold Memory.openUnit
  generalize (List.range 32).foldl (fun l i => natInsert l (u * 32 + i)) m.eccBad = ecc
  generalize m.rawUnit (u * 256) 256 = raw
  cases m.sealOf u with
  | none =>
    simp only []
    split <;> exact .inl rfl
  | some x =>
    simp only []
    split
    · split <;> exact .inl rfl
    · split
      · exact .inl rfl
      · split
        · exact .inr ⟨_, _, rfl⟩
        · exact .inl rfl

/-- Opening a sealed unit keeps the form (R319). -/
theorem Memory.openUnit_wf {m : Memory} (h : m.wf = true) (enc write : Bool) (key u : Nat) : (m.openUnit enc write key u).wf = true := by
  unfold Memory.wf at *
  rcases Memory.openUnit_cells m enc write key u with e | ⟨k, bs, e⟩ <;> rw [e]
  · exact h
  · exact cellsAbove_cellWrite bs h

theorem Memory.openUnits_wf {m : Memory} (h : m.wf = true) (enc write : Bool) (key k n : Nat) :
    (m.openUnits enc write key k n).wf = true := by
  unfold Memory.openUnits
  split
  · exact h
  · exact foldl_keeps (fun m : Memory => m.wf = true) _ (fun m _ hm => Memory.openUnit_wf hm ..) _ _ h

@[simp] theorem State.touchDcache_mem (s : State) (k : Nat) (bs : List Byte) : (s.touchDcache k bs).mem = s.mem := by
  unfold State.touchDcache
  simp only []
  split <;> rfl

@[simp] theorem State.loseReservations_mem (s : State) (k n : Nat) : (s.loseReservations k n).mem = s.mem := rfl

/-- The storage takes bytes, and the ways of the home die look them up; nothing else of memory changes (R307, R327, R341). -/
@[simp] theorem State.pokeKey_mem (s : State) (own : Bool) (k : Nat) (bs : List Byte) :
    (s.pokeKey own k bs).mem = (s.mem.touchWrite k bs.length).poke k bs := by
  unfold State.pokeKey
  cases own <;> simp

/-- A bank that changes its mode keeps the form (R309). -/
theorem State.clearBank_wf {s : State} (h : s.mem.wf = true) (die bank : Nat) : (s.clearBank die bank).mem.wf = true :=
  cellsAbove_filter _ h

/-- What bring-up writes for context 0 keeps the form (R123). -/
theorem State.bootMemory_wf {s : State} (h : s.mem.wf = true) (o : CodeObject) : cellsAbove none (s.bootMemory o) = true := by
  unfold State.bootMemory Memory.wf at *
  simp only []
  generalize s.bootBlock o = a
  generalize o.bindEntry = b
  generalize o.relocated rtBase = c
  generalize bootTables o = d
  refine cellsAbove_cellWrite c (cellsAbove_cellWrite b (cellsAbove_cellWrite a ?_))
  exact foldl_keeps (fun cs => cellsAbove none cs = true) _ (fun _ _ hm => cellsAbove_cellWrite _ hm) _ _ (cellsAbove_filter _ h)

/-- A word placed for the next fetch keeps the form. -/
theorem State.placeWord_wf {s : State} (h : s.mem.wf = true) (w : Nat) : (s.placeWord w).mem.wf = true := by
  unfold State.placeWord Memory.wf at *
  simp only []
  exact cellsAbove_cellWrite _ (foldl_keeps (fun cs => cellsAbove none cs = true) _ (fun _ _ hm => cellsAbove_cellWrite _ hm) _ _ h)

end Sys2Proof.Machine
end

