-- ==== Sys2Proof/Laws/Rows.lean ====
section
/-! SUPPORT. Rows of elements: what reading an element gives after elements are written, relaid or cut off, and what a write of a
vector register leaves (R232, R236, R237, R243). -/

namespace Sys2Proof.Machine

/-! ### Elements of a row -/

/-- Bit `i` of an element. -/
theorem rowGet_testBit (r : Row) (b e i : Nat) : (rowGet r b e).testBit i = (decide (i < b) && r.getLsbD (e * b + i)) := by
  simp [rowGet, BitVec.testBit_toNat]

/-- An element fits its width. -/
theorem rowGet_lt (r : Row) (b e : Nat) : rowGet r b e < 2 ^ b := (r.extractLsb' (e * b) b).isLt

theorem mul_block {b e f i : Nat} (hi : i < b) (h : e * b ≤ f * b + i) (h' : f * b + i < (e + 1) * b) : f = e := by
  have hb : 0 < b := by omega
  have h1 : f < e + 1 := Nat.lt_of_mul_lt_mul_right (a := b) (by omega)
  have h2 : e < f + 1 := Nat.lt_of_mul_lt_mul_right (a := b) (by rw [Nat.add_mul f 1 b]; omega)
  omega

/-- Bit `j` of a row after element `e` is written. -/
theorem rowPut_getLsbD (r : Row) (b e v j : Nat) (hj : j < 8192) : (rowPut r b e v).getLsbD j =
    if e * b ≤ j ∧ j < (e + 1) * b then v.testBit (j - e * b) else r.getLsbD j := by
  have hm : (e + 1) * b = e * b + b := by rw [Nat.add_mul, Nat.one_mul]
  unfold rowPut
  by_cases h1 : e * b ≤ j
  · by_cases h2 : j < (e + 1) * b
    · have hb : j - e * b < b := by omega
      have hx : (BitVec.ofNat b v)[j - e * b] = v.testBit (j - e * b) := by
        rw [← BitVec.getLsbD_eq_getElem, BitVec.getLsbD_ofNat]
        simp [hb]
      simp [hj, h1, h2, show ¬ j < e * b by omega, hb, hx]
    · have hx : (BitVec.ofNat b v).getLsbD (j - e * b) = false := BitVec.getLsbD_of_ge _ _ (by omega)
      simp [hj, h1, h2, show ¬ j < e * b by omega, show ¬ j - e * b < b by omega, hx]
  · simp [hj, h1, show j < e * b by omega]

/-- A read of an element after a write of one (R232). -/
theorem rowGet_rowPut (r : Row) (b e f v : Nat) (hf : (f + 1) * b ≤ 8192) :
    rowGet (rowPut r b e v) b f = if f = e then v % 2 ^ b else rowGet r b f := by
  have hm : (f + 1) * b = f * b + b := by rw [Nat.add_mul, Nat.one_mul]
  apply Nat.eq_of_testBit_eq
  intro i
  rw [rowGet_testBit]
  by_cases hi : i < b
  · rw [rowPut_getLsbD _ _ _ _ _ (by omega)]
    by_cases hfe : f = e
    · subst hfe
      simp [hi, hm, Nat.testBit_mod_two_pow]
    · rw [if_neg (fun h => hfe (mul_block hi h.1 h.2)), if_neg hfe, rowGet_testBit]
  · by_cases hfe : f = e
    · simp [hi, hfe, Nat.testBit_mod_two_pow]
    · simp [hi, hfe, rowGet_testBit]

/-- A read of an element after the first `n` are written by a function. -/
theorem rowGet_mapRow (b : Nat) (g : Nat → Nat → Nat) (r : Row) (f : Nat) (hf : (f + 1) * b ≤ 8192) :
    ∀ n, rowGet (mapRow b g n r) b f = if f < n then g f (rowGet r b f) % 2 ^ b else rowGet r b f
  | 0 => by simp [mapRow]
  | n + 1 => by
    rw [mapRow, rowGet_rowPut _ _ _ _ _ hf, rowGet_mapRow b g r f hf n]
    by_cases h : f = n
    · subst h
      simp
    · by_cases h2 : f < n
      · simp [h, h2, show f < n + 1 by omega]
      · simp [h, h2, show ¬ f < n + 1 by omega]

theorem rowKeep_getLsbD (r : Row) (n j : Nat) (hj : j < 8192) : (rowKeep r n).getLsbD j = (decide (j < n) && r.getLsbD j) := by
  simp [rowKeep, hj]
  grind

/-- A row cut off after `n` elements. -/
theorem rowGet_rowKeep (r : Row) (b n f : Nat) (hf : (f + 1) * b ≤ 8192) :
    rowGet (rowKeep r (n * b)) b f = if f < n then rowGet r b f else 0 := by
  have hm : (f + 1) * b = f * b + b := by rw [Nat.add_mul, Nat.one_mul]
  apply Nat.eq_of_testBit_eq
  intro i
  rw [rowGet_testBit]
  by_cases hi : i < b
  · rw [rowKeep_getLsbD _ _ _ (by omega)]
    by_cases h : f < n
    · have : (f + 1) * b ≤ n * b := Nat.mul_le_mul_right b h
      simp [h, hi, rowGet_testBit, show f * b + i < n * b by omega]
    · have : n * b ≤ f * b := Nat.mul_le_mul_right b (by omega)
      simp [h, show ¬ f * b + i < n * b by omega]
  · by_cases h : f < n <;> simp [h, hi, rowGet_testBit]

/-! ### Elements of a register -/

/-- An element fits its width. -/
theorem VReg.elem_lt (r : VReg) (b k e : Nat) : r.elem b k e < 2 ^ b := by
  unfold VReg.elem
  split
  · exact rowGet_lt _ _ _
  · exact Nat.two_pow_pos b

/-- The tag that a destination takes (R237). -/
theorem VReg.dest_tag (r : VReg) (et : ETCode) (l : BitVec 4) (vl vrows : Nat) (c : Bool) :
    (r.dest et l vl vrows c).valid = true ∧ (r.dest et l vl vrows c).et = et ∧ (r.dest et l vl vrows c).lmap = l := by
  unfold VReg.dest
  dsimp only
  generalize (if r.valid = true then r else emptyVReg) = q
  split <;> exact ⟨rfl, rfl, rfl⟩

/-- A destination covers VL and VROWS. -/
theorem VReg.dest_covers (r : VReg) (et : ETCode) (l : BitVec 4) (vl vrows : Nat) (c : Bool) :
    vl ≤ (r.dest et l vl vrows c).len ∧ vrows ≤ (r.dest et l vl vrows c).nrows := by
  unfold VReg.dest
  dsimp only
  generalize (if r.valid = true then r else emptyVReg) = q
  split
  · exact ⟨Nat.le_refl _, Nat.le_refl _⟩
  · exact ⟨Nat.le_max_right _ _, Nat.le_max_right _ _⟩

/-- Where the write does not cover the register, an element keeps its value, read at the new type (R237, R243). -/
theorem VReg.elem_dest (r : VReg) (et : ETCode) (l : BitVec 4) (vl vrows k e : Nat) (hk : k < 16) (he : (e + 1) * etBits et ≤ 8192) :
    (r.dest et l vl vrows false).elem (etBits et) k e = (r.relaid et l).elem (etBits et) k e := by
  unfold VReg.dest
  simp only [Bool.false_and, Bool.false_eq_true, if_false]
  by_cases hv : r.valid = true
  · have hrv : (r.relaid et l).valid = true := by
      unfold VReg.relaid
      split <;> simp [hv]
    simp only [hv, if_true]
    unfold VReg.elem VReg.row
    simp only [hrv]
    simp only [Vector.getElem?_ofFn, hk, dif_pos, Option.getD_some]
    by_cases h1 : e < (r.relaid et l).len
    · by_cases h2 : k < (r.relaid et l).nrows
      · simp [h1, h2, rowGet_rowKeep _ _ _ _ he, hk]
      · simp [h2, rowGet]
    · by_cases h2 : k < (r.relaid et l).nrows
      · simp [h1, h2, rowGet_rowKeep _ _ _ _ he]
      · simp [h2, rowGet]
  · have h0 : (VReg.relaid emptyVReg et l) = emptyVReg := by simp [VReg.relaid, emptyVReg, VReg.none]
    have h1 : r.relaid et l = r := by simp [VReg.relaid, hv]
    simp only [hv, Bool.false_eq_true, if_false, h0, h1]
    unfold VReg.elem VReg.row
    simp [hv, emptyVReg, VReg.none, rowGet, hk]

/-- A row cut off twice. -/
theorem rowKeep_min (r : Row) (m n : Nat) : rowKeep r (min m n) = rowKeep (rowKeep r m) n := by
  apply BitVec.eq_of_getLsbD_eq
  intro j hj
  rw [rowKeep_getLsbD _ _ _ hj, rowKeep_getLsbD _ _ _ hj, rowKeep_getLsbD _ _ _ hj, ← Bool.and_assoc]
  congr 1
  by_cases h1 : j < m <;> by_cases h2 : j < n <;> simp [h1, h2] <;> omega

/-- Where the write covers the register, an element below VL shows the bits that stand in its row below LEN (R237). -/
theorem VReg.elem_dest_whole (r : VReg) (et : ETCode) (l : BitVec 4) (vl vrows k e : Nat) (hk : k < 16) (he : (e + 1) * etBits et ≤ 8192) (hkr : k < vrows)
    (hel : e < vl) (hl : r.len ≤ vl) (hn : r.nrows ≤ vrows) :
    (r.dest et l vl vrows true).elem (etBits et) k e =
      if r.valid = true ∧ k < r.nrows then rowGet (rowKeep (r.row k) (r.len * etBits r.et)) (etBits et) e else 0 := by
  unfold VReg.dest
  by_cases hv : r.valid = true
  · simp only [hv, if_true, Bool.true_and, hl, hn, decide_true]
    unfold VReg.elem VReg.row
    simp only [hel, hkr, decide_true, Bool.true_and, if_true, Vector.getElem?_ofFn, hk, dif_pos, Option.getD_some, true_and]
    by_cases h2 : k < r.nrows
    · simp [h2, rowKeep_min, rowGet_rowKeep _ _ _ _ he, hel, hk]
    · simp [h2, rowGet]
  · simp only [hv]
    unfold VReg.elem VReg.row
    simp [emptyVReg, VReg.none, rowGet, hk]

/-- Elements after a write (R237, R419): those that the function names, and the others as they stood. -/
theorem VReg.elem_write (r : VReg) (b vl vrows : Nat) (f : Nat → Nat → Option Nat) (k e : Nat) (hk : k < 16) (he : (e + 1) * b ≤ 8192)
    (hv : r.valid = true) (hl : vl ≤ r.len) (hn : vrows ≤ r.nrows) :
    (r.write b vl vrows f).elem b k e =
      if k < vrows ∧ e < vl then (match f k e with | .some v => v % 2 ^ b | .none => r.elem b k e) else r.elem b k e := by
  unfold VReg.elem VReg.write VReg.row
  simp only [hv]
  simp only [Vector.getElem?_ofFn, hk, dif_pos, Option.getD_some]
  have hr : r.rows[k]?.getD 0#8192 = r.rows[k] := by simp [hk]
  rw [hr]
  by_cases h1 : k < vrows
  · by_cases h2 : e < vl
    · have h3 : e < r.len := by omega
      have h4 : k < r.nrows := by omega
      simp only [h1, h2, h3, h4, decide_true, Bool.true_and, if_true, and_self]
      simp only [Fin.getElem_fin, rowGet_mapRow _ _ _ _ he, h2, if_true]
      cases hf : f k e <;> simp [Nat.mod_eq_of_lt (rowGet_lt _ _ _)]
    · simp [h1, h2, rowGet_mapRow _ _ _ _ he]
  · simp [h1]

end Sys2Proof.Machine
end

