-- ==== Sys2Proof/Laws/Posted.lean ====
section
/-! SUPPORT. Posted instructions that run element by element at an idle hart: what the post and the begin change, the elements and
tags after a write, and what the retirement leaves. -/

namespace Sys2Proof.Machine

/-- An instruction that pops no stream captures the shape of its hart (R202). -/
theorem Hart.newEntry_shape (h : Hart) (p : Posted) (hs : (h.newEntry p).strips = []) :
   (h.newEntry p).vl = h.vl ∧ (h.newEntry p).vrows = h.vrows := by
  have hx : h.popStrips p.vsrc = [] := hs
  simp [Hart.newEntry, hx, Hart.capturedShape]

/-- A relayout to a type and lane map that a register has leaves it. -/
theorem VReg.relaid_relaid (r : VReg) (et l) : (r.relaid et l).relaid et l = r.relaid et l := by
  unfold VReg.relaid
  split
  · simp
  · simp_all

/-- Reading sources relays those registers and no others (R243). -/
theorem Hart.relayAll_vreg (et l) : ∀ (ns : List VNum) (h : Hart) (n : VNum),
    (h.relayAll et l ns).vreg n = if n ∈ ns then (h.vreg n).relaid et l else h.vreg n
  | [], h, n => by simp [Hart.relayAll]
  | a :: ns, h, n => by
    have ih := Hart.relayAll_vreg et l ns (h.setVreg a (h.readAs a et l)) n
    unfold Hart.relayAll at ih ⊢
    rw [List.foldl_cons, ih]
    by_cases hn : n = a
    · subst hn
      simp [Hart.readAs, VReg.relaid_relaid]
    · simp [hn, Hart.vreg_setVreg_other _ _ _ _ hn]

/-- Reading sources changes the vector registers alone. -/
theorem Hart.relayAll_frame (et l) : ∀ (ns : List VNum) (h : Hart), { h.relayAll et l ns with v := h.v } = h
  | [], h => rfl
  | a :: ns, h => by
    have ih := Hart.relayAll_frame et l ns (h.setVreg a (h.readAs a et l))
    have : (h.relayAll et l (a :: ns)) = (h.setVreg a (h.readAs a et l)).relayAll et l ns := rfl
    rw [this]
    have h2 := congrArg (fun g : Hart => { g with v := h.v }) ih
    exact h2

/-- Setting the tokens of a FIFO changes the tokens alone. -/
theorem Hart.setTokens_only (h : Hart) (p c n) : ∃ tok, h.setTokens p c n = { h with tok := tok } := by
  unfold Hart.setTokens; split
  · exact ⟨_, rfl⟩
  · exact ⟨h.tok, rfl⟩

/-- A begin changes the tokens and the entry alone (R222). -/
theorem Hart.beginEntry_hart (h : Hart) (e : QEntry) : ∃ tok, (h.beginEntry e).1 = ({ h with tok := tok } : Hart).putEntry (h.beginEntry e).2 := by
  unfold Hart.beginEntry
  dsimp only
  cases e.pfx with
  | none => exact ⟨h.tok, rfl⟩
  | some w =>
    dsimp only
    by_cases hc : (pfxTe w && !e.taken) = true
    · obtain ⟨tok, ht⟩ := Hart.setTokens_only h (pfxTf w) (engineNo e.post.eng) (h.tokens (pfxTf w) (engineNo e.post.eng) - 1)
      exact ⟨tok, by rw [if_pos hc, ht]⟩
    · exact ⟨h.tok, by rw [if_neg hc]⟩

/-- A begin marks the entry (R222). -/
theorem Hart.beginEntry_entry (h : Hart) (e : QEntry) : ∃ a, (h.beginEntry e).2 = { e with started := true, taken := a } := ⟨_, rfl⟩

/-- Without a bound source no stream moves (R491). -/
theorem Hart.popBindings_none (h : Hart) (p : Posted) (hs : (h.newEntry p).strips = []) : h.popBindings p.vsrc = h := by
  have hx : h.popStrips p.vsrc = [] := hs
  unfold Hart.popStrips at hx
  rw [List.map_eq_nil_iff, List.filter_eq_nil_iff] at hx
  have hk : ∀ k : Fin 4, (h.sb[k].valid && p.vsrc.contains h.sb[k].reg) = false := by
    intro k
    have hl : k.val < (h.sb.toList.zip h.fetched.toList).length := by simp
    have := hx _ (List.getElem_mem hl)
    simpa using this
  have hx' : ∀ b ∈ h.sb, (b.valid && p.vsrc.contains b.reg) = false := by
    intro b hb
    obtain ⟨n, hn, rfl⟩ := Vector.getElem_of_mem hb
    exact hk ⟨n, hn⟩
  unfold Hart.popBindings
  have h3 : (Vector.ofFn fun (k : Fin 4) =>
      if h.sb[k].valid && p.vsrc.contains h.sb[k].reg then h.fetched[k].drop 1 else h.fetched[k]) = h.fetched := by
    apply Vector.ext
    intro i hi
    have := hk ⟨i, hi⟩
    simp_all
  have h1 : (h.sb.map fun b => if b.valid && p.vsrc.contains b.reg then b.pop.1 else b) = h.sb := by
    apply Vector.ext
    intro i hi
    simp only [Vector.getElem_map]
    rw [if_neg]
    have := hx' h.sb[i] (by simp)
    simp_all
  have h2 : (h.sb.toList.any fun b => b.valid && p.vsrc.contains b.reg && b.pop.2.2.2) = false := by
    rw [List.any_eq_false]
    intro b hb
    have := hx' b (by simpa using hb)
    simp_all
  rw [h1, h2, h3]; simp

/-- The loop-end step changes the program counter and the loop counts alone (R462). -/
theorem Hart.loopStep_only (h : Hart) (a : Word) : ∃ pc c0 c1, h.loopStep a = { h with pc := pc, lc0 := c0, lc1 := c1 } :=
  ⟨(h.loopStep a).pc, (h.loopStep a).lc0, (h.loopStep a).lc1, congrArg (fun k : Hart => { k with pc := (h.loopStep a).pc, lc0 := (h.loopStep a).lc0, lc1 := (h.loopStep a).lc1 }) (Hart.loopStep_frame h a)⟩

/-- The same behind a prefix (R412). -/
theorem Hart.stepPosted_only (h : Hart) : ∃ pc c0 c1, h.stepPosted = { h with pc := pc, lc0 := c0, lc1 := c1 } := by
  unfold Hart.stepPosted
  dsimp only
  generalize hg : ({ h with le0 := _, le1 := _ } : Hart) = g
  obtain ⟨pc, c0, c1, h1⟩ := Hart.loopStep_only g h.pc
  refine ⟨pc, c0, c1, ?_⟩
  rw [h1, ← hg]

/-- What a post changes (R202). -/
theorem Hart.post_only (h : Hart) (p : Posted) (hs : (h.newEntry p).strips = []) : ∃ pc c0 c1 pv,
    h.post p = { h with pc := pc, lc0 := c0, lc1 := c1, queue := h.queue ++ [h.newEntry p], nextEid := h.nextEid + 1, vstart := 0#32, pfxValid := pv, pfxNext := false, status := .running, laneServed := false, matrixServed := false } := by
  unfold Hart.post
  rw [Hart.popBindings_none h p hs]
  obtain ⟨pc, c0, c1, h1⟩ := Hart.stepPosted_only h
  refine ⟨pc, c0, c1, h.pfxValid && !h.pfxNext, ?_⟩
  dsimp only
  rw [if_pos (by simp [hs]), h1]

/-- What a post and the begin of its entry change at an idle hart. -/
theorem Hart.begun_only (h : Hart) (p : Posted) (hs : (h.newEntry p).strips = []) (hq : h.queue = []) : ∃ pc c0 c1 pv tok,
    ((h.post p).beginEntry (h.newEntry p)).1 = { h with pc := pc, lc0 := c0, lc1 := c1, queue := [((h.post p).beginEntry (h.newEntry p)).2], nextEid := h.nextEid + 1, vstart := 0#32, pfxValid := pv, pfxNext := false, status := .running, laneServed := false, matrixServed := false, tok := tok } := by
  obtain ⟨pc, c0, c1, pv, h1⟩ := Hart.post_only h p hs
  obtain ⟨tok, h2⟩ := Hart.beginEntry_hart (h.post p) (h.newEntry p)
  obtain ⟨a, h3⟩ := Hart.beginEntry_entry (h.post p) (h.newEntry p)
  refine ⟨pc, c0, c1, pv, tok, ?_⟩
  rw [h2, h3, h1]
  simp [Hart.putEntry, hq]
/-- Setting progress indices changes them alone (R211). -/
theorem Hart.setVpis_only (h : Hart) (d : VNum) (c : Option VNum) (t : Nat) : ∃ vpi, h.setVpis d c t = { h with vpi := vpi } := by
  unfold Hart.setVpis Hart.setVpi
  cases c <;> exact ⟨_, rfl⟩

/-- A write of elements changes the vector registers alone. -/
theorem Hart.writeVec_only (h : Hart) (d c et cp cov f) : ∃ v, h.writeVec d c et cp cov f = { h with v := v } := by
  unfold Hart.writeVec Hart.setVreg
  cases c <;> exact ⟨_, rfl⟩

/-- Reading sources changes the vector registers alone. -/
theorem Hart.relayAll_only (h : Hart) (et l ns) : ∃ v, h.relayAll et l ns = { h with v := v } :=
  ⟨_, (congrArg (fun k : Hart => { k with v := (h.relayAll et l ns).v }) (Hart.relayAll_frame et l ns h))⟩

/-- The registers after a write of elements to vd and, under a copy, to vc (R237, R409). -/
theorem Hart.writeVec_vreg (h : Hart) (d : VNum) (c : Option VNum) (et cp cov f) (hc : c ≠ some d) (n : VNum) :
    (h.writeVec d c et cp cov f).vreg n =
      if n = d ∨ c = some n then ((h.vreg n).dest et cp.lmap cp.vl cp.vrows cov).write (etBits et) cp.vl cp.vrows f else h.vreg n := by
  unfold Hart.writeVec
  cases c with
  | none =>
    by_cases hn : n = d
    · subst hn; simp
    · simp [hn, Hart.vreg_setVreg_other _ _ _ _ hn]
  | some m =>
    have hm : m ≠ d := fun h => hc (by rw [h])
    by_cases hn : n = m
    · subst hn
      simp [Hart.vreg_setVreg_other _ _ _ _ hm]
    · by_cases hd : n = d
      · subst hd
        simp [Hart.vreg_setVreg_other _ _ _ _ hn]
      · have : ¬ m = n := fun h => hn h.symm
        simp [Hart.vreg_setVreg_other _ _ _ _ hn, Hart.vreg_setVreg_other _ _ _ _ hd, hd, this]

/-- Elements after a write over a relaid register: those that the function names, and the others as they read before (R237, R419). -/
theorem VReg.elem_written (r : VReg) (et : ETCode) (l : BitVec 4) (vl vrows : Nat) (cov : Bool) (f : Nat → Nat → Option Nat) (k x : Nat)
    (hc : cov = true → (f k x).isSome = true) (hk : k < 16) (hx : (x + 1) * etBits et ≤ 8192) (hkr : k < vrows) (hxl : x < vl) :
    ((r.dest et l vl vrows cov).write (etBits et) vl vrows f).elem (etBits et) k x =
      match f k x with | .some v => v % 2 ^ etBits et | .none => (r.relaid et l).elem (etBits et) k x := by
  have ht := VReg.dest_tag r et l vl vrows cov
  have hcv := VReg.dest_covers r et l vl vrows cov
  rw [VReg.elem_write _ _ _ _ _ _ _ hk hx ht.1 hcv.1 hcv.2, if_pos ⟨hkr, hxl⟩]
  cases hf : f k x with
  | some v => rfl
  | none =>
    cases cov with
    | true =>
      have := hc rfl
      simp [hf] at this
    | false => exact VReg.elem_dest _ _ _ _ _ _ _ hk hx

/-- The same where the write covers the register (R237). -/
theorem VReg.elem_written_whole (r : VReg) (et : ETCode) (l : BitVec 4) (vl vrows : Nat) (f : Nat → Nat → Option Nat) (k x : Nat)
    (hk : k < 16) (hx : (x + 1) * etBits et ≤ 8192) (hkr : k < vrows) (hxl : x < vl) (hl : r.len ≤ vl) (hn : r.nrows ≤ vrows) :
    ((r.dest et l vl vrows true).write (etBits et) vl vrows f).elem (etBits et) k x =
      match f k x with
      | .some v => v % 2 ^ etBits et
      | .none => if r.valid = true ∧ k < r.nrows then rowGet (rowKeep (r.row k) (r.len * etBits r.et)) (etBits et) x else 0 := by
  have ht := VReg.dest_tag r et l vl vrows true
  have hcv := VReg.dest_covers r et l vl vrows true
  rw [VReg.elem_write _ _ _ _ _ _ _ hk hx ht.1 hcv.1 hcv.2, if_pos ⟨hkr, hxl⟩]
  cases hf : f k x with
  | some v => rfl
  | none => exact VReg.elem_dest_whole _ _ _ _ _ _ _ hk hx hkr hxl hl hn

/-- The tag after a write. -/
theorem VReg.written_tag (r : VReg) (et : ETCode) (l : BitVec 4) (vl vrows : Nat) (cov : Bool) (f : Nat → Nat → Option Nat) :
    ((r.dest et l vl vrows cov).write (etBits et) vl vrows f).valid = true ∧ ((r.dest et l vl vrows cov).write (etBits et) vl vrows f).et = et ∧
    ((r.dest et l vl vrows cov).write (etBits et) vl vrows f).lmap = l := by
  have ht := VReg.dest_tag r et l vl vrows cov
  exact ht

/-- What an entry that has just begun at an idle hart is, and its hart. -/
structure Begun (s : State) (p : Posted) (h : Hart) (e : QEntry) : Prop where
  post : e.post = p
  prog : e.prog = (s.h.newEntry p).prog
  vl : e.vl = s.h.vl
  vrows : e.vrows = s.h.vrows
  vtype : e.vtype = s.h.vtype
  cap : e.cap = (s.h.newEntry p).cap
  copy : e.copy = (s.h.newEntry p).copy
  opb : e.opb = (s.h.newEntry p).opb
  rm : e.rm = s.h.rm
  queue : h.queue = [e]
  only : ∃ pc c0 c1 pv tok, h = { s.h with pc := pc, lc0 := c0, lc1 := c1, queue := [e], nextEid := s.h.nextEid + 1, vstart := 0#32, pfxValid := pv, pfxNext := false, status := .running, laneServed := false, matrixServed := false, tok := tok }

/-- A service of an engine changes the core's turns alone (R167). -/
theorem State.served_frame (s : State) (i : Fin 4) (eng : Engine) :
    ∃ a b, s.served i eng = { s with core := { s.core with copyLast := a, fibLast := b } } := by
  unfold State.served
  cases eng <;> exact ⟨_, _, rfl⟩

@[simp] theorem State.served_h (s : State) (i : Fin 4) (eng : Engine) : (s.served i eng).h = s.h := by
  obtain ⟨a, b, h⟩ := s.served_frame i eng
  rw [h]
  rfl

/-- An instruction that begins at once (R222). -/
theorem Runs.begun {s : State} {p : Posted} (h : Runs s p) : Begun s p (s.begun p).1.h (s.begun p).2 ∧
    (s.begun p).1 = (s.mod (fun _ => (s.begun p).1.h)).served s.cur p.eng := by
  obtain ⟨hp, he, h0, hs, hm, hr⟩ := h
  have hsh := Hart.newEntry_shape s.h p hs
  have e1 : (s.begun p).2 = ((s.h.post p).beginEntry (s.h.newEntry p)).2 := by
    unfold State.begun; dsimp only; rw [State.mod_h]
  have e2 : (s.begun p).1 = (s.mod (fun _ => ((s.h.post p).beginEntry (s.h.newEntry p)).1)).served s.cur p.eng := by
    unfold State.begun; dsimp only; rw [State.mod_h, State.mod_mod]; rfl
  have e3 : (s.begun p).1.h = ((s.h.post p).beginEntry (s.h.newEntry p)).1 := by rw [e2, State.served_h, State.mod_h]
  obtain ⟨a, h3⟩ := Hart.beginEntry_entry (s.h.post p) (s.h.newEntry p)
  obtain ⟨pc, c0, c1, pv, tok, hB⟩ := Hart.begun_only s.h p hs h0
  refine ⟨?_, by rw [e3]; exact e2⟩
  rw [e3, e1]
  constructor
  · rw [h3]; rfl
  · rw [h3]
  · rw [h3]; exact hsh.1
  · rw [h3]; exact hsh.2
  · rw [h3]; rfl
  · rw [h3]; rfl
  · rw [h3]; rfl
  · rw [h3]
  · rw [h3]; rfl
  · rw [hB]
  · exact ⟨pc, c0, c1, pv, tok, hB⟩

/-- A copy register is not the destination (R406). -/
theorem Postable.copy_ne {s : State} {p : Posted} (h : Postable s p) : (s.h.newEntry p).copy ≠ some p.d := by
  have hb := h.1
  intro hc
  unfold QEntry.copy Hart.newEntry at hc
  dsimp only at hc
  cases hn : s.h.pfxNext with
  | false => simp [hn] at hc
  | true =>
    simp only [hn, if_true] at hc
    split at hc
    · rename_i hd
      unfold State.postBad at hb
      simp only [hn, Bool.true_and, Bool.or_eq_false_iff] at hb
      have := hb.1.1.1.1.2
      unfold pfxBad at this
      simp only [Bool.or_eq_false_iff] at this
      have h2 := this.1.1.2
      simp only [hd, Bool.true_and, Bool.or_eq_false_iff, beq_eq_false_iff_ne] at h2
      exact h2.2 (Option.some.inj hc)
    · cases hc

/-- Serving freed groups leaves the accumulator tiles. -/
theorem State.serveLanes_tiles (s : State) : s.serveLanes.core.tiles = s.core.tiles := by
  have hl : ∀ (keep : Nat) (i : Fin 4) (l : List (Fin 4)) (n : Nat) (c : Core), (c.grantLanes keep i l n).tiles = c.tiles := by
    intro keep i l
    induction l with
    | nil => intro n c; cases n <;> rfl
    | cons g l ih =>
      intro n c
      cases n with
      | zero => rfl
      | succ n =>
        unfold Core.grantLanes
        split
        · split
          · rfl
          · rw [ih]
        · rw [ih]
  have h1 : ∀ u : State, u.grantOnce.core.tiles = u.core.tiles := by
    intro u
    unfold State.grantOnce
    split
    · rfl
    · split
      · exact hl _ _ _ _ _
      · rfl
  unfold State.serveLanes
  rw [h1, h1, h1, h1]
  rfl

/-- A run over elements reaches the end of an entry that no completion mask holds up. -/
theorem runElems_whole (f : QEntry → Nat → Nat → Hart → Hart) (g : Grain) (hg : ∀ n, n ≤ g.up n) (i : Fin 4) (e : QEntry) (s : State)
    (hq : s.harts[i].queue = [e]) : ∃ hi, (e.total ≤ e.prog → hi = e.prog) ∧ (e.prog < e.total → hi = e.total) ∧
    ∃ e2, e2.eid = e.eid ∧ e2.post = e.post ∧ e2.pfx = e.pfx ∧ runElems f g i e.total e s = .done (s.modHart i (f e e.prog hi)) e2 := by
  unfold runElems
  by_cases h : e.total ≤ e.prog
  · exact ⟨e.prog, fun _ => rfl, fun h2 => absurd h2 (by omega), e, rfl, rfl, rfl, by rw [if_pos h]⟩
  · have hu : min e.total (g.up e.total) = e.total := Nat.min_eq_left (hg _)
    have hm : s.harts[i].maskBusy e = false := by
      unfold Hart.maskBusy
      rw [hq]
      simp
    have hl : s.harts[i].runLimit e e.total = e.total := by unfold Hart.runLimit; rw [hm]; rfl
    refine ⟨e.total, fun h2 => absurd h2 h, fun _ => rfl, { e with prog := e.total }, rfl, rfl, rfl, ?_⟩
    rw [if_neg h]
    simp only [hu, hl, if_true]
    rw [if_neg (by omega), if_pos (Nat.le_refl _)]

/-- What an instruction leaves that changes the vector registers, their progress indices and FCSR, and retires: of its hart only these,
the issue state and the tokens; nothing else of the machine but the lane groups that other harts are granted. -/
theorem Begun.retires {s : State} {p : Posted} {h : Hart} {e : QEntry} (hb : Begun s p h e) (hs : s.h.queue = []) (hr : s.h.releases = []) (hx : p.xd = none)
    {h' : Hart} (hh : ∃ v vpi fl, h' = { h with v := v, vpi := vpi, fcsr := fl }) (e' : QEntry) (he' : e'.eid = e.eid) (hep : e'.post = p) :
    ∃ t, t = (s.mod fun _ => h').entryDone s.cur e' none ∧
    ({ t.h with v := s.h.v, vpi := s.h.vpi, fcsr := s.h.fcsr, pc := s.h.pc, lc0 := s.h.lc0, lc1 := s.h.lc1, nextEid := s.h.nextEid,
                vstart := s.h.vstart, pfxValid := s.h.pfxValid, pfxNext := s.h.pfxNext, status := s.h.status,
                laneServed := s.h.laneServed, matrixServed := s.h.matrixServed, tok := s.h.tok } = s.h ∧
      t.mem = s.mem ∧ t.core.tiles = s.core.tiles ∧ t.h.vstart = 0#32 ∧ t.h.pfxNext = false ∧
      ∀ j : Fin 4, j ≠ s.cur → { t.harts[j] with laneServed := s.harts[j].laneServed, vtype := s.harts[j].vtype } = s.harts[j]) ∧
    (∀ n, t.h.vreg n = h'.vreg n) ∧ t.h.fcsr = h'.fcsr := by
  obtain ⟨v, vpi, fl, rfl⟩ := hh
  obtain ⟨pc, c0, c1, pv, tok, hfr⟩ := hb.only
  have hret : ∃ tok', Hart.retireEntry { h with v := v, vpi := vpi, fcsr := fl } e' none = { h with v := v, vpi := vpi, fcsr := fl, queue := [], tok := tok' } := by
    unfold Hart.retireEntry
    dsimp only
    have : h.queue.filter (fun x => x.eid != e'.eid) = [] := by rw [hb.queue]; simp [he']
    rw [this, hep, hx]
    cases e'.pfx with
    | none => exact ⟨h.tok, rfl⟩
    | some w =>
      dsimp only
      split
      · obtain ⟨t, ht⟩ := Hart.setTokens_only { h with v := v, vpi := vpi, fcsr := fl, queue := [] } (engineNo p.eng) (pfxGf w) (min 15 (Hart.tokens { h with v := v, vpi := vpi, fcsr := fl, queue := [] } (engineNo p.eng) (pfxGf w) + 1))
        exact ⟨t, ht⟩
      · exact ⟨h.tok, rfl⟩
  obtain ⟨tok', hret⟩ := hret
  have hret2 : (Hart.retireEntry { h with v := v, vpi := vpi, fcsr := fl } e' none).settleRows =
      { h with v := v, vpi := vpi, fcsr := fl, queue := [], tok := tok' } := by
    rw [hret, Hart.settleRows_none]
    rw [hfr]
    exact hr
  generalize hu : ((s.mod fun _ => ({ h with v := v, vpi := vpi, fcsr := fl } : Hart)).modHart s.cur fun h => (h.retireEntry e' none).settleRows) = u
  have huh : u.harts[s.cur] = { h with v := v, vpi := vpi, fcsr := fl, queue := [], tok := tok' } := by
    rw [← hu, State.modHart_same]
    rw [← hret2]
    congr 2
    exact State.mod_h _ _
  have hstill : laneAsk u.harts[s.cur] = none := by
    rw [huh, hfr]; rfl
  have hser := State.serveLanes_still u s.cur hstill
  have hth : ((s.mod fun _ => ({ h with v := v, vpi := vpi, fcsr := fl } : Hart)).entryDone s.cur e' none).h = { h with v := v, vpi := vpi, fcsr := fl, queue := [], tok := tok' } := by
    unfold State.entryDone
    rw [hu]
    have hc : u.serveLanes.cur = s.cur := by rw [State.serveLanes_cur, ← hu]; rfl
    have key : ∀ (w : State) (i : Fin 4), w.cur = i → w.h = w.harts[i] := by rintro w _ rfl; rfl
    rw [key _ _ hc, hser, huh]
  refine ⟨_, rfl, ⟨?_, ?_, ?_, ?_, ?_, ?_⟩, ?_, ?_⟩
  · rw [hth, hfr]
    show ({ s.h with queue := [] } : Hart) = s.h
    calc ({ s.h with queue := [] } : Hart) = { s.h with queue := s.h.queue } := by rw [hs]
      _ = s.h := rfl
  · unfold State.entryDone; rw [State.serveLanes_mem]; rfl
  · unfold State.entryDone; rw [State.serveLanes_tiles]; rfl
  · rw [hth, hfr]
  · rw [hth, hfr]
  · intro j hj
    unfold State.entryDone
    rw [hu]
    obtain ⟨b, vt, hh⟩ := State.serveLanes_hart u j
    have : u.harts[j] = s.harts[j] := by
      rw [← hu]
      rw [State.modHart_other _ _ _ _ hj]
      unfold State.mod
      rw [State.modHart_other _ _ _ _ hj]
    rw [hh, this]
  · intro n; rw [hth]; rfl
  · rw [hth]

/-- An OR of flags starts from any flags. -/
theorem orFlags_start (g : Nat → Flags) : ∀ (l : List Nat) (a : Flags), l.foldl (fun fl t => fl ||| g t) a = a ||| l.foldl (fun fl t => fl ||| g t) 0#5
  | [], a => by simp
  | t :: l, a => by
    simp only [List.foldl_cons]
    rw [orFlags_start g l (a ||| g t), orFlags_start g l (0#5 ||| g t)]
    simp [BitVec.or_assoc]

/-- An OR of no flags. -/
theorem orFlags_zero (g : Nat → Flags) (l : List Nat) (h : ∀ t ∈ l, g t = 0#5) : l.foldl (fun fl t => fl ||| g t) 0#5 = 0#5 := by
  induction l with
  | nil => rfl
  | cons t l ih =>
    rw [List.foldl_cons, h t (by simp)]
    simpa using ih (fun t ht => h t (by simp [ht]))

/-- Where the indices below `lo` raise nothing, the OR over all indices is that from `lo` on (R274). -/
theorem orFlags_from (g : Nat → Flags) (lo n : Nat) (hlo : ∀ t, t < lo → g t = 0#5) (hn : lo ≤ n) :
    (List.range n).foldl (fun fl t => fl ||| g t) 0#5 = (List.range (n - lo)).foldl (fun fl j => fl ||| g (lo + j)) 0#5 := by
  obtain ⟨m, rfl⟩ := Nat.exists_eq_add_of_le hn
  rw [List.range_add, List.foldl_append, orFlags_zero g (List.range lo) (fun t ht => hlo t (by simpa using ht)), List.foldl_map]
  congr 2
  omega

/-- What an entry that pops no stream captures (R202). -/
theorem Runs.captured {s : State} {p : Posted} (h : Runs s p) : (s.h.newEntry p).cap.vl = s.h.vl ∧ (s.h.newEntry p).cap.vrows = s.h.vrows ∧
    (s.h.newEntry p).cap.et = vtEt s.h.vtype ∧ (s.h.newEntry p).cap.lmap = vtGroups s.h.vtype := by
  have hs := Hart.newEntry_shape s.h p h.2.2.2.1
  generalize hc : (s.h.newEntry p).cap = c
  unfold QEntry.cap at hc
  dsimp only at hc
  rw [hs.1, hs.2] at hc
  split at hc
  · split at hc <;> (rw [← hc]; exact ⟨rfl, rfl, rfl, rfl⟩)
  · rw [← hc]; exact ⟨rfl, rfl, rfl, rfl⟩

/-- Reading sources leaves the masks. -/
theorem Hart.relayAll_mask (h : Hart) (et : ETCode) (l : BitVec 4) (ns : List VNum) (m : MNum) : (h.relayAll et l ns).mask m = h.mask m := by
  obtain ⟨v, hv⟩ := Hart.relayAll_only h et l ns
  rw [hv]; rfl

end Sys2Proof.Machine
end

