-- ==== Sys2Proof/Tests/Slice0.lean ====
section
/-! SUPPORT. Tests: an ill-formed term for each field rule, the decoding of a word of every instruction, small steps, and a witness for the
hypotheses of every statement. Expected values come from spec/. -/

namespace Sys2Proof.Tests
open Sys2Proof Sys2Proof.Machine Sys2Proof.Claims

set_option Elab.async false

/-! ### Ill-formed terms (R404, R439) -/

/-- Rounding modes 5 and 6 are reserved. -/
theorem test_illFormed_rounding :
    (Instr.fadd 1 2 3 0 5).wf = false ∧ (Instr.fsub 1 2 3 0 6).wf = false ∧ (Instr.fmul 1 2 3 0 5).wf = false ∧
    (Instr.fdiv 1 2 3 0 6).wf = false ∧ (Instr.fsqrt 1 2 0 5).wf = false ∧ (Instr.fmadd 1 2 3 0 6).wf = false ∧
    (Instr.fcvif 1 2 3 0 5).wf = false ∧ (Instr.fcvfi 1 2 3 0 6).wf = false ∧ (Instr.fcvff 1 2 3 0 5).wf = false := by decide

/-- Integer types other than 2, 3, 6 and 7, equal formats of a conversion, width 7, and a loop of length 0. -/
theorem test_illFormed_scalar :
    (Instr.fcvif 1 2 1 0 0).wf = false ∧ (Instr.fcvfi 1 2 5 0 0).wf = false ∧ (Instr.fcvff 1 2 3 3 0).wf = false ∧
    (Instr.ld 1 2 7 0).wf = false ∧ (Instr.loop 0 1 0).wf = false := by decide

/-- Control-register numbers that R253 does not list. -/
theorem test_illFormed_register :
    (Instr.crr 1 0x000).wf = false ∧ (Instr.crw 1 2 0xC07).wf = false ∧ (Instr.crs 1 2 0x01A).wf = false ∧
    (Instr.crc 1 2 0x109).wf = false := by decide

/-- A load of 64 bits has no sign extension; a comparison writes no m0 and has no integer condition 6 or 7; `vcvtr` has modes 0 to 4. -/
theorem test_illFormed_vector :
    (Instr.vld 1 2 0 0 3 1).wf = false ∧ (Instr.vlds 1 2 3 0 3 1).wf = false ∧ (Instr.vldx 1 2 3 0 3 1).wf = false ∧
    (Instr.vldxo 1 2 3 0 0 3 1).wf = false ∧ (Instr.vcmpVv 0 1 2 0 0 0 0).wf = false ∧ (Instr.vcmpVv 1 1 2 0 0 6 1).wf = false ∧
    (Instr.vcmpVx 0 1 2 0 0 0).wf = false ∧ (Instr.vcmpVx 1 1 2 0 7 0).wf = false ∧ (Instr.vcvtr 1 2 5 0).wf = false := by decide

/-- Combine codes end at 5; formats 6 and 7 are none of `mopo` and `mopr`; block scales go with formats 2 to 4. -/
theorem test_illFormed_fibre_matrix :
    (Instr.fisect 1 2 3 6).wf = false ∧ (Instr.funion 1 2 3 31).wf = false ∧ (Instr.fmerge 1 2 3 6).wf = false ∧
    (Instr.fdedup 1 2 6).wf = false ∧ (Instr.mopo 0 1 2 0 0 6).wf = false ∧ (Instr.mopr 0 1 2 0 0 7).wf = false ∧
    (Instr.mopob 0 1 2 0 0 1).wf = false ∧ (Instr.moprb 0 1 2 0 0 5).wf = false ∧ (Instr.mopsb 0 1 2 0 0 0).wf = false := by decide

/-! ### Words (R402, R435): each written field by field from the tables of its chapter -/

/-- Format S3. -/
def s3 (major : BitVec 6) (d a b : BitVec 5) (fn : BitVec 11) : IWord := major ++ d ++ a ++ b ++ fn
/-- Format SI. -/
def si (major : BitVec 6) (d a : BitVec 5) (i : BitVec 16) : IWord := major ++ d ++ a ++ i
/-- Format V. -/
def v (major : BitVec 6) (d a b : BitVec 5) (m : BitVec 3) (rp : BitVec 2) (fn : BitVec 6) : IWord := major ++ d ++ a ++ b ++ m ++ rp ++ fn

/-- The decoder reads the instruction from the word. -/
def Reads (x : IWord × Instr) : Prop := decodeWord x.1 = .ok x.2

/-- Major 0x02: the function codes of R443. -/
theorem decode_scalarAlu_1 : ([(s3 0x02#6 17#5 2#5 30#5 0x0#11, .add 17 2 30),
    (s3 0x02#6 17#5 2#5 30#5 0x1#11, .sub 17 2 30),
    (s3 0x02#6 17#5 2#5 30#5 0x2#11, .and 17 2 30),
    (s3 0x02#6 17#5 2#5 30#5 0x3#11, .or 17 2 30),
    (s3 0x02#6 17#5 2#5 30#5 0x4#11, .xor 17 2 30),
    (s3 0x02#6 17#5 2#5 30#5 0x5#11, .sll 17 2 30),
    (s3 0x02#6 17#5 2#5 30#5 0x6#11, .srl 17 2 30),
    (s3 0x02#6 17#5 2#5 30#5 0x7#11, .sra 17 2 30),
    (s3 0x02#6 17#5 2#5 30#5 0x8#11, .slt 17 2 30),
    (s3 0x02#6 17#5 2#5 30#5 0x9#11, .sltu 17 2 30),
    (s3 0x02#6 17#5 2#5 30#5 0xa#11, .min 17 2 30),
    (s3 0x02#6 17#5 2#5 30#5 0xb#11, .max 17 2 30),
    (s3 0x02#6 17#5 2#5 30#5 0xc#11, .minu 17 2 30),
    (s3 0x02#6 17#5 2#5 30#5 0xd#11, .maxu 17 2 30),
    (s3 0x02#6 17#5 2#5 30#5 0x10#11, .mul 17 2 30),
    (s3 0x02#6 17#5 2#5 30#5 0x11#11, .mulh 17 2 30),
    (s3 0x02#6 17#5 2#5 30#5 0x12#11, .mulhu 17 2 30),
    (s3 0x02#6 17#5 2#5 30#5 0x13#11, .div 17 2 30),
    (s3 0x02#6 17#5 2#5 30#5 0x14#11, .divu 17 2 30),
    (s3 0x02#6 17#5 2#5 30#5 0x15#11, .rem 17 2 30),
    (s3 0x02#6 17#5 2#5 30#5 0x16#11, .remu 17 2 30),
    (s3 0x02#6 17#5 2#5 30#5 0x1b#11, .sext 17 2 30),
    (s3 0x02#6 17#5 2#5 30#5 0x1c#11, .zext 17 2 30),
    (s3 0x02#6 17#5 2#5 0#5 0x18#11, .clz 17 2)] : List (IWord × Instr)).Forall Reads := by
  simp only [List.Forall, Reads]; decide +kernel

/-- Major 0x02: the function codes of R443. -/
theorem decode_scalarAlu_2 : ([(s3 0x02#6 17#5 2#5 0#5 0x19#11, .ctz 17 2),
    (s3 0x02#6 17#5 2#5 0#5 0x1a#11, .popc 17 2),
    (s3 0x02#6 17#5 2#5 0#5 0x1d#11, .brev 17 2)] : List (IWord × Instr)).Forall Reads := by
  simp only [List.Forall, Reads]; decide +kernel

/-- Majors 0x03 to 0x0B (R435, R444 to R446). -/
theorem decode_scalarImmediate : ([(si 0x3#6 17#5 2#5 0x8001#16, .addi 17 2 0x8001),
    (si 0x4#6 17#5 2#5 0x8001#16, .andi 17 2 0x8001),
    (si 0x5#6 17#5 2#5 0x8001#16, .ori 17 2 0x8001),
    (si 0x6#6 17#5 2#5 0x8001#16, .xori 17 2 0x8001),
    (si 0x7#6 17#5 2#5 0x8001#16, .slti 17 2 0x8001),
    (si 0x8#6 17#5 2#5 0x8001#16, .sltiu 17 2 0x8001),
    (si 0x9#6 17#5 0#5 0x8001#16, .lhi 17 0x8001),
    (si 0xa#6 17#5 0#5 0x8001#16, .adpc 17 0x8001),
    (0x0B#6 ++ 17#5 ++ 2#5 ++ 0#2 ++ 33#6 ++ 0#8, .slli 17 2 33),
    (0x0B#6 ++ 17#5 ++ 2#5 ++ 1#2 ++ 33#6 ++ 0#8, .srli 17 2 33),
    (0x0B#6 ++ 17#5 ++ 2#5 ++ 2#2 ++ 33#6 ++ 0#8, .srai 17 2 33),
    (0x0B#6 ++ 17#5 ++ 2#5 ++ 3#2 ++ 33#6 ++ 0#8, .roli 17 2 33)] : List (IWord × Instr)).Forall Reads := by
  simp only [List.Forall, Reads]; decide +kernel

/-- Major 0x0C: fn11 is fmt, rm and op (R447); the integer type and the source format stand in rb. -/
theorem decode_scalarFloat : ([(0x0C#6 ++ 17#5 ++ 2#5 ++ 30#5 ++ 2#2 ++ 4#3 ++ 0x0#6, .fadd 17 2 30 2 4),
    (0x0C#6 ++ 17#5 ++ 2#5 ++ 30#5 ++ 2#2 ++ 4#3 ++ 0x1#6, .fsub 17 2 30 2 4),
    (0x0C#6 ++ 17#5 ++ 2#5 ++ 30#5 ++ 2#2 ++ 4#3 ++ 0x2#6, .fmul 17 2 30 2 4),
    (0x0C#6 ++ 17#5 ++ 2#5 ++ 30#5 ++ 2#2 ++ 4#3 ++ 0x3#6, .fdiv 17 2 30 2 4),
    (0x0C#6 ++ 17#5 ++ 2#5 ++ 30#5 ++ 2#2 ++ 4#3 ++ 0x7#6, .fmadd 17 2 30 2 4),
    (0x0C#6 ++ 17#5 ++ 2#5 ++ 0#5 ++ 2#2 ++ 4#3 ++ 0x4#6, .fsqrt 17 2 2 4),
    (0x0C#6 ++ 17#5 ++ 2#5 ++ 30#5 ++ 2#2 ++ 0#3 ++ 0x5#6, .fmin 17 2 30 2),
    (0x0C#6 ++ 17#5 ++ 2#5 ++ 30#5 ++ 2#2 ++ 0#3 ++ 0x6#6, .fmax 17 2 30 2),
    (0x0C#6 ++ 17#5 ++ 2#5 ++ 30#5 ++ 2#2 ++ 0#3 ++ 0x8#6, .feq 17 2 30 2),
    (0x0C#6 ++ 17#5 ++ 2#5 ++ 30#5 ++ 2#2 ++ 0#3 ++ 0x9#6, .flt 17 2 30 2),
    (0x0C#6 ++ 17#5 ++ 2#5 ++ 30#5 ++ 2#2 ++ 0#3 ++ 0xa#6, .fle 17 2 30 2),
    (0x0C#6 ++ 17#5 ++ 2#5 ++ 0#5 ++ 2#2 ++ 0#3 ++ 0xb#6, .fclass 17 2 2),
    (0x0C#6 ++ 17#5 ++ 2#5 ++ (0#1 ++ 6#4) ++ 2#2 ++ 4#3 ++ 0x10#6, .fcvif 17 2 6 2 4),
    (0x0C#6 ++ 17#5 ++ 2#5 ++ (0#1 ++ 3#4) ++ 2#2 ++ 4#3 ++ 0x11#6, .fcvfi 17 2 3 2 4),
    (0x0C#6 ++ 17#5 ++ 2#5 ++ (0#3 ++ 1#2) ++ 2#2 ++ 4#3 ++ 0x12#6, .fcvff 17 2 1 2 4)] : List (IWord × Instr)).Forall Reads := by
  simp only [List.Forall, Reads]; decide +kernel

/-- Majors 0x0D to 0x0F (R402, R448, R452, R453). -/
theorem decode_scalarMemory : ([(0x0D#6 ++ 17#5 ++ 2#5 ++ 5#3 ++ 0x1FFF#13, .ld 17 2 5 0x1FFF),
    (0x0E#6 ++ 17#5 ++ 2#5 ++ 0#1 ++ 3#2 ++ 0x1000#13, .st 17 2 3 0x1000),
    (0x0F#6 ++ 17#5 ++ 2#5 ++ 30#5 ++ 1#1 ++ 0#1 ++ 1#1 ++ 5#3 ++ 0x0#5, .amoadd 17 2 30 1 0 1 5),
    (0x0F#6 ++ 17#5 ++ 2#5 ++ 30#5 ++ 1#1 ++ 0#1 ++ 1#1 ++ 5#3 ++ 0x1#5, .amoand 17 2 30 1 0 1 5),
    (0x0F#6 ++ 17#5 ++ 2#5 ++ 30#5 ++ 1#1 ++ 0#1 ++ 1#1 ++ 5#3 ++ 0x2#5, .amoor 17 2 30 1 0 1 5),
    (0x0F#6 ++ 17#5 ++ 2#5 ++ 30#5 ++ 1#1 ++ 0#1 ++ 1#1 ++ 5#3 ++ 0x3#5, .amoxor 17 2 30 1 0 1 5),
    (0x0F#6 ++ 17#5 ++ 2#5 ++ 30#5 ++ 1#1 ++ 0#1 ++ 1#1 ++ 5#3 ++ 0x4#5, .amomin 17 2 30 1 0 1 5),
    (0x0F#6 ++ 17#5 ++ 2#5 ++ 30#5 ++ 1#1 ++ 0#1 ++ 1#1 ++ 5#3 ++ 0x5#5, .amomax 17 2 30 1 0 1 5),
    (0x0F#6 ++ 17#5 ++ 2#5 ++ 30#5 ++ 1#1 ++ 0#1 ++ 1#1 ++ 5#3 ++ 0x6#5, .amominu 17 2 30 1 0 1 5),
    (0x0F#6 ++ 17#5 ++ 2#5 ++ 30#5 ++ 1#1 ++ 0#1 ++ 1#1 ++ 5#3 ++ 0x7#5, .amomaxu 17 2 30 1 0 1 5),
    (0x0F#6 ++ 17#5 ++ 2#5 ++ 30#5 ++ 1#1 ++ 0#1 ++ 1#1 ++ 5#3 ++ 0x8#5, .amoswap 17 2 30 1 0 1 5),
    (0x0F#6 ++ 17#5 ++ 2#5 ++ 30#5 ++ 1#1 ++ 0#1 ++ 1#1 ++ 5#3 ++ 0x9#5, .amocas 17 2 30 1 0 1 5),
    (0x0F#6 ++ 17#5 ++ 2#5 ++ 30#5 ++ 1#1 ++ 0#1 ++ 1#1 ++ 5#3 ++ 0xa#5, .amofadd 17 2 30 1 0 1 5),
    (0x0F#6 ++ 17#5 ++ 2#5 ++ 0#5 ++ 1#1 ++ 0#1 ++ 0#1 ++ 0#3 ++ 0xc#5, .ldr 17 2 1),
    (0x0F#6 ++ 17#5 ++ 2#5 ++ 30#5 ++ 1#1 ++ 0#1 ++ 0#1 ++ 0#3 ++ 0xd#5, .stc 17 2 30 1)] : List (IWord × Instr)).Forall Reads := by
  simp only [List.Forall, Reads]; decide +kernel

/-- Majors 0x10 to 0x19 (R402, R457, R458, R461). -/
theorem decode_control : ([(0x10#6 ++ 17#5 ++ 2#5 ++ 0x8001#16, .beq 17 2 0x8001),
    (0x11#6 ++ 17#5 ++ 2#5 ++ 0x8001#16, .bne 17 2 0x8001),
    (0x12#6 ++ 17#5 ++ 2#5 ++ 0x8001#16, .blt 17 2 0x8001),
    (0x13#6 ++ 17#5 ++ 2#5 ++ 0x8001#16, .bge 17 2 0x8001),
    (0x14#6 ++ 17#5 ++ 2#5 ++ 0x8001#16, .bltu 17 2 0x8001),
    (0x15#6 ++ 17#5 ++ 2#5 ++ 0x8001#16, .bgeu 17 2 0x8001),
    (0x16#6 ++ 0x2000001#26, .jmp 0x2000001),
    (0x17#6 ++ 0x2000001#26, .call 0x2000001),
    (s3 0x18#6 17#5 2#5 0#5 0#11, .jalr 17 2),
    (s3 0x18#6 0#5 0#5 0#5 1#11, .ret),
    (s3 0x18#6 0#5 2#5 0#5 2#11, .callr 2),
    (0x19#6 ++ 1#1 ++ 17#5 ++ 0x80001#20, .loop 1 17 0x80001)] : List (IWord × Instr)).Forall Reads := by
  simp only [List.Forall, Reads]; decide +kernel

/-- Majors 0x1A and 0x1B, the prefix word, and the retired forms (R405, R440, R464, R466). -/
theorem decode_system_1 : ([(0x1A#6 ++ 0#5 ++ 0#5 ++ 200#8 ++ 0x1#8, .svc 200),
    (0x1A#6 ++ 0#5 ++ 0#5 ++ 200#8 ++ 0x2#8, .brk 200),
    (0x1A#6 ++ 0#5 ++ 0#5 ++ 0#8 ++ 0x3#8, .eret),
    (0x1A#6 ++ 0#5 ++ 0#5 ++ 0#8 ++ 0x4#8, .wfe),
    (0x1A#6 ++ 0#5 ++ 0#5 ++ 0#8 ++ 0x5#8, .ifence),
    (0x1A#6 ++ 0#5 ++ 17#5 ++ 0#8 ++ 0x6#8, .tinv 17),
    (0x1A#6 ++ 0#5 ++ 0#5 ++ 0#8 ++ 0x7#8, .tinva),
    (0x1A#6 ++ 0#5 ++ 0#5 ++ 0#8 ++ 0x8#8, .emuret),
    (0x1A#6 ++ 0#5 ++ 17#5 ++ 0#8 ++ 0x9#8, .evsig 17),
    (0x1A#6 ++ 0#5 ++ 0#5 ++ 0#8 ++ 0xa#8, .yield),
    (0x1B#6 ++ 17#5 ++ 0#5 ++ 0#2 ++ 0#2 ++ 0x103#12, .crr 17 0x103),
    (0x1B#6 ++ 17#5 ++ 2#5 ++ 1#2 ++ 0#2 ++ 0x103#12, .crw 17 2 0x103),
    (0x1B#6 ++ 17#5 ++ 2#5 ++ 2#2 ++ 0#2 ++ 0x103#12, .crs 17 2 0x103),
    (0x1B#6 ++ 17#5 ++ 2#5 ++ 3#2 ++ 0#2 ++ 0x103#12, .crc 17 2 0x103),
    (0x01#6 ++ 5#3 ++ 1#1 ++ 0#1 ++ 17#5 ++ 1#1 ++ 4#3 ++ 0#1 ++ 3#3 ++ 0#8, .pfx 5 1 0 17 1 4 0 3 0),
    (s3 0x1C#6 17#5 2#5 30#5 0#11, .smac 17 2 30),
    (s3 0x1C#6 17#5 2#5 30#5 1#11, .smacz 17 2 30),
    (0x3E#6 ++ 3#2 ++ 17#5 ++ 30#5 ++ 0#14, .tmop 3 17 30),
    (0x3F#6 ++ 3#2 ++ 0#24, .tmzero 3),
    (v 0x24#6 17#5 2#5 30#5 5#3 0#2 0x3c#6, .vaaddVv 17 2 30 5),
    (v 0x25#6 17#5 2#5 30#5 5#3 0#2 0x3c#6, .vaaddVx 17 2 30 5),
    (v 0x24#6 17#5 2#5 30#5 5#3 0#2 0x3d#6, .vaadduVv 17 2 30 5),
    (v 0x25#6 17#5 2#5 30#5 5#3 0#2 0x3d#6, .vaadduVx 17 2 30 5),
    (v 0x24#6 17#5 2#5 30#5 5#3 0#2 0x3e#6, .vasubVv 17 2 30 5)] : List (IWord × Instr)).Forall Reads := by
  simp only [List.Forall, Reads]; decide +kernel

/-- Majors 0x1A and 0x1B, the prefix word, and the retired forms (R405, R440, R464, R466). -/
theorem decode_system_2 : ([(v 0x25#6 17#5 2#5 30#5 5#3 0#2 0x3e#6, .vasubVx 17 2 30 5),
    (v 0x24#6 17#5 2#5 30#5 5#3 0#2 0x3f#6, .vasubuVv 17 2 30 5),
    (v 0x25#6 17#5 2#5 30#5 5#3 0#2 0x3f#6, .vasubuVx 17 2 30 5)] : List (IWord × Instr)).Forall Reads := by
  simp only [List.Forall, Reads]; decide +kernel

/-- Majors 0x20 to 0x23 (R473, R479, R488, R490, R494, R501, R504). -/
theorem decode_configMemory_1 : ([(0x20#6 ++ 17#5 ++ 2#5 ++ 0#5 ++ 13#4 ++ 2#2 ++ 1#1 ++ 0#1 ++ 0#3, .setvl 17 2 13 2 1),
    (0x20#6 ++ 17#5 ++ 2#5 ++ 30#5 ++ 13#4 ++ 2#2 ++ 1#1 ++ 0#1 ++ 1#3, .setlens 17 2 30 13 2 1),
    (0x20#6 ++ 17#5 ++ 2#5 ++ 30#5 ++ 0#4 ++ 0#2 ++ 0#1 ++ 0#1 ++ 2#3, .setvlp 17 2 30),
    (0x20#6 ++ 0#5 ++ 0#5 ++ 0#5 ++ 0#4 ++ 0#2 ++ 0#1 ++ 0#1 ++ 3#3, .mstart),
    (0x20#6 ++ 0#5 ++ 0#5 ++ 0#5 ++ 0#4 ++ 0#2 ++ 1#1 ++ 0#1 ++ 4#3, .mstop 1),
    (0x20#6 ++ 0#5 ++ 2#5 ++ 0#5 ++ 0#4 ++ 0#2 ++ 1#1 ++ 0#1 ++ 5#3, .mcfg 2 1),
    (0x20#6 ++ 17#5 ++ 0#5 ++ 0#5 ++ 0#4 ++ 0#2 ++ 1#1 ++ 0#1 ++ 6#3, .vrelease 17 1),
    (0x21#6 ++ 17#5 ++ 2#5 ++ 0#5 ++ 5#3 ++ 0#2 ++ 1#1 ++ 0#1 ++ 2#2 ++ 1#1 ++ 0#1, .vld 17 2 5 1 2 1),
    (0x21#6 ++ 17#5 ++ 2#5 ++ 30#5 ++ 5#3 ++ 1#2 ++ 0#1 ++ 0#1 ++ 2#2 ++ 1#1 ++ 0#1, .vlds 17 2 30 5 2 1),
    (0x21#6 ++ 17#5 ++ 2#5 ++ 30#5 ++ 5#3 ++ 2#2 ++ 0#1 ++ 0#1 ++ 2#2 ++ 1#1 ++ 0#1, .vldx 17 2 30 5 2 1),
    (0x21#6 ++ 17#5 ++ 2#5 ++ 30#5 ++ 5#3 ++ 3#2 ++ 1#1 ++ 0#1 ++ 2#2 ++ 1#1 ++ 0#1, .vldxo 17 2 30 5 1 2 1),
    (0x22#6 ++ 17#5 ++ 2#5 ++ 0#5 ++ 5#3 ++ 0#2 ++ 1#1 ++ 1#1 ++ 3#2 ++ 0#1 ++ 0#1, .vst 17 2 5 1 1 3),
    (0x22#6 ++ 17#5 ++ 2#5 ++ 30#5 ++ 5#3 ++ 1#2 ++ 0#1 ++ 1#1 ++ 3#2 ++ 0#1 ++ 0#1, .vsts 17 2 30 5 1 3),
    (0x22#6 ++ 17#5 ++ 2#5 ++ 30#5 ++ 5#3 ++ 2#2 ++ 0#1 ++ 1#1 ++ 3#2 ++ 0#1 ++ 0#1, .vstx 17 2 30 5 1 3),
    (0x22#6 ++ 17#5 ++ 2#5 ++ 30#5 ++ 5#3 ++ 3#2 ++ 1#1 ++ 1#1 ++ 3#2 ++ 0#1 ++ 0#1, .vstxo 17 2 30 5 1 1 3),
    (v 0x23#6 17#5 2#5 0#5 0#3 0#2 0x0#6, .sbind 17 2),
    (v 0x23#6 17#5 0#5 0#5 0#3 0#2 0x1#6, .sunbind 17),
    (v 0x23#6 17#5 2#5 0#5 0#3 0#2 0x2#6, .spos 17 2),
    (v 0x23#6 17#5 2#5 30#5 5#3 0#2 0x4#6, .gsp 17 2 30 5),
    (v 0x23#6 17#5 2#5 30#5 5#3 0#2 0x5#6, .ssp 17 2 30 5),
    (v 0x23#6 0#5 2#5 0#5 5#3 0#2 0x6#6, .cpy 2 5),
    (v 0x23#6 0#5 2#5 0#5 5#3 0#2 0x7#6, .cpyr 2 5),
    (v 0x23#6 17#5 2#5 30#5 5#3 0#2 0x8#6, .capp 17 2 30 5),
    (v 0x23#6 (0#2 ++ 5#3) 2#5 0#5 0#3 0#2 0xa#6, .vlm 5 2)] : List (IWord × Instr)).Forall Reads := by
  simp only [List.Forall, Reads]; decide +kernel

/-- Majors 0x20 to 0x23 (R473, R479, R488, R490, R494, R501, R504). -/
theorem decode_configMemory_2 : ([(v 0x23#6 (0#2 ++ 5#3) 2#5 0#5 0#3 0#2 0xb#6, .vsm 5 2),
    (v 0x23#6 17#5 0#5 0#5 0#3 0#2 0xc#6, .cwait 17)] : List (IWord × Instr)).Forall Reads := by
  simp only [List.Forall, Reads]; decide +kernel

/-- Majors 0x24 and 0x25: the function codes of R512. -/
theorem decode_vectorInteger_1 : ([(v 0x24#6 17#5 2#5 30#5 5#3 3#2 0x0#6, .vaddVv 17 2 30 5 3),
    (v 0x25#6 17#5 2#5 30#5 5#3 0#2 0x0#6, .vaddVx 17 2 30 5),
    (v 0x24#6 17#5 2#5 30#5 5#3 3#2 0x1#6, .vsubVv 17 2 30 5 3),
    (v 0x25#6 17#5 2#5 30#5 5#3 0#2 0x1#6, .vsubVx 17 2 30 5),
    (v 0x25#6 17#5 2#5 30#5 5#3 0#2 0x2#6, .vrsubVx 17 2 30 5),
    (v 0x24#6 17#5 2#5 30#5 5#3 3#2 0x3#6, .vmulVv 17 2 30 5 3),
    (v 0x25#6 17#5 2#5 30#5 5#3 0#2 0x3#6, .vmulVx 17 2 30 5),
    (v 0x24#6 17#5 2#5 30#5 5#3 3#2 0x4#6, .vmulhVv 17 2 30 5 3),
    (v 0x25#6 17#5 2#5 30#5 5#3 0#2 0x4#6, .vmulhVx 17 2 30 5),
    (v 0x24#6 17#5 2#5 30#5 5#3 3#2 0x5#6, .vmulhuVv 17 2 30 5 3),
    (v 0x25#6 17#5 2#5 30#5 5#3 0#2 0x5#6, .vmulhuVx 17 2 30 5),
    (v 0x24#6 17#5 2#5 30#5 5#3 3#2 0x6#6, .vdivVv 17 2 30 5 3),
    (v 0x25#6 17#5 2#5 30#5 5#3 0#2 0x6#6, .vdivVx 17 2 30 5),
    (v 0x24#6 17#5 2#5 30#5 5#3 3#2 0x7#6, .vdivuVv 17 2 30 5 3),
    (v 0x25#6 17#5 2#5 30#5 5#3 0#2 0x7#6, .vdivuVx 17 2 30 5),
    (v 0x24#6 17#5 2#5 30#5 5#3 3#2 0x8#6, .vremVv 17 2 30 5 3),
    (v 0x25#6 17#5 2#5 30#5 5#3 0#2 0x8#6, .vremVx 17 2 30 5),
    (v 0x24#6 17#5 2#5 30#5 5#3 3#2 0x9#6, .vremuVv 17 2 30 5 3),
    (v 0x25#6 17#5 2#5 30#5 5#3 0#2 0x9#6, .vremuVx 17 2 30 5),
    (v 0x24#6 17#5 2#5 30#5 5#3 3#2 0xa#6, .vminVv 17 2 30 5 3),
    (v 0x25#6 17#5 2#5 30#5 5#3 0#2 0xa#6, .vminVx 17 2 30 5),
    (v 0x24#6 17#5 2#5 30#5 5#3 3#2 0xb#6, .vmaxVv 17 2 30 5 3),
    (v 0x25#6 17#5 2#5 30#5 5#3 0#2 0xb#6, .vmaxVx 17 2 30 5),
    (v 0x24#6 17#5 2#5 30#5 5#3 3#2 0xc#6, .vminuVv 17 2 30 5 3)] : List (IWord × Instr)).Forall Reads := by
  simp only [List.Forall, Reads]; decide +kernel

/-- Majors 0x24 and 0x25: the function codes of R512. -/
theorem decode_vectorInteger_2 : ([(v 0x25#6 17#5 2#5 30#5 5#3 0#2 0xc#6, .vminuVx 17 2 30 5),
    (v 0x24#6 17#5 2#5 30#5 5#3 3#2 0xd#6, .vmaxuVv 17 2 30 5 3),
    (v 0x25#6 17#5 2#5 30#5 5#3 0#2 0xd#6, .vmaxuVx 17 2 30 5),
    (v 0x24#6 17#5 2#5 30#5 5#3 3#2 0xe#6, .vandVv 17 2 30 5 3),
    (v 0x25#6 17#5 2#5 30#5 5#3 0#2 0xe#6, .vandVx 17 2 30 5),
    (v 0x24#6 17#5 2#5 30#5 5#3 3#2 0xf#6, .vorVv 17 2 30 5 3),
    (v 0x25#6 17#5 2#5 30#5 5#3 0#2 0xf#6, .vorVx 17 2 30 5),
    (v 0x24#6 17#5 2#5 30#5 5#3 3#2 0x10#6, .vxorVv 17 2 30 5 3),
    (v 0x25#6 17#5 2#5 30#5 5#3 0#2 0x10#6, .vxorVx 17 2 30 5),
    (v 0x24#6 17#5 2#5 30#5 5#3 3#2 0x11#6, .vsllVv 17 2 30 5 3),
    (v 0x25#6 17#5 2#5 30#5 5#3 0#2 0x11#6, .vsllVx 17 2 30 5),
    (v 0x24#6 17#5 2#5 30#5 5#3 3#2 0x12#6, .vsrlVv 17 2 30 5 3),
    (v 0x25#6 17#5 2#5 30#5 5#3 0#2 0x12#6, .vsrlVx 17 2 30 5),
    (v 0x24#6 17#5 2#5 30#5 5#3 3#2 0x13#6, .vsraVv 17 2 30 5 3),
    (v 0x25#6 17#5 2#5 30#5 5#3 0#2 0x13#6, .vsraVx 17 2 30 5),
    (v 0x24#6 17#5 2#5 30#5 5#3 3#2 0x14#6, .vsaddVv 17 2 30 5 3),
    (v 0x25#6 17#5 2#5 30#5 5#3 0#2 0x14#6, .vsaddVx 17 2 30 5),
    (v 0x24#6 17#5 2#5 30#5 5#3 3#2 0x15#6, .vsadduVv 17 2 30 5 3),
    (v 0x25#6 17#5 2#5 30#5 5#3 0#2 0x15#6, .vsadduVx 17 2 30 5),
    (v 0x24#6 17#5 2#5 30#5 5#3 3#2 0x16#6, .vssubVv 17 2 30 5 3),
    (v 0x25#6 17#5 2#5 30#5 5#3 0#2 0x16#6, .vssubVx 17 2 30 5),
    (v 0x24#6 17#5 2#5 30#5 5#3 3#2 0x17#6, .vssubuVv 17 2 30 5 3),
    (v 0x25#6 17#5 2#5 30#5 5#3 0#2 0x17#6, .vssubuVx 17 2 30 5),
    (v 0x24#6 17#5 2#5 30#5 5#3 3#2 0x19#6, .vmaccVv 17 2 30 5 3)] : List (IWord × Instr)).Forall Reads := by
  simp only [List.Forall, Reads]; decide +kernel

/-- Majors 0x24 and 0x25: the function codes of R512. -/
theorem decode_vectorInteger_3 : ([(v 0x25#6 17#5 2#5 30#5 5#3 0#2 0x19#6, .vmaccVx 17 2 30 5),
    (v 0x24#6 17#5 2#5 30#5 5#3 3#2 0x1a#6, .vselVv 17 2 30 5 3),
    (v 0x25#6 17#5 2#5 30#5 5#3 0#2 0x1a#6, .vselVx 17 2 30 5),
    (v 0x24#6 17#5 2#5 30#5 5#3 3#2 0x20#6, .vextVv 17 2 30 5 3),
    (v 0x25#6 17#5 2#5 30#5 5#3 0#2 0x20#6, .vextVx 17 2 30 5),
    (v 0x24#6 17#5 2#5 30#5 5#3 3#2 0x21#6, .vinsVv 17 2 30 5 3),
    (v 0x25#6 17#5 2#5 30#5 5#3 0#2 0x21#6, .vinsVx 17 2 30 5),
    (v 0x24#6 17#5 2#5 30#5 5#3 3#2 0x22#6, .vabsdVv 17 2 30 5 3),
    (v 0x25#6 17#5 2#5 30#5 5#3 0#2 0x22#6, .vabsdVx 17 2 30 5),
    (v 0x24#6 17#5 2#5 0#5 5#3 0#2 0x18#6, .vabs 17 2 5),
    (v 0x24#6 17#5 2#5 0#5 5#3 0#2 0x1b#6, .vmvVv 17 2 5),
    (v 0x24#6 17#5 2#5 0#5 5#3 0#2 0x1c#6, .vpopc 17 2 5),
    (v 0x24#6 17#5 2#5 0#5 5#3 0#2 0x1d#6, .vclz 17 2 5),
    (v 0x24#6 17#5 2#5 0#5 5#3 0#2 0x1e#6, .vpcp 17 2 5),
    (v 0x25#6 17#5 0#5 30#5 5#3 0#2 0x1b#6, .vmvVx 17 30 5),
    (v 0x24#6 17#5 0#5 0#5 5#3 0#2 0x1f#6, .vid 17 5)] : List (IWord × Instr)).Forall Reads := by
  simp only [List.Forall, Reads]; decide +kernel

/-- Majors 0x26, 0x27 and 0x2C: the function codes of R517 and R520 to R523. -/
theorem decode_vectorFloat_1 : ([(v 0x26#6 17#5 2#5 30#5 5#3 3#2 0x0#6, .vfaddVv 17 2 30 5 3),
    (v 0x27#6 17#5 2#5 30#5 5#3 0#2 0x0#6, .vfaddVx 17 2 30 5),
    (v 0x26#6 17#5 2#5 30#5 5#3 3#2 0x1#6, .vfsubVv 17 2 30 5 3),
    (v 0x27#6 17#5 2#5 30#5 5#3 0#2 0x1#6, .vfsubVx 17 2 30 5),
    (v 0x26#6 17#5 2#5 30#5 5#3 3#2 0x3#6, .vfmulVv 17 2 30 5 3),
    (v 0x27#6 17#5 2#5 30#5 5#3 0#2 0x3#6, .vfmulVx 17 2 30 5),
    (v 0x26#6 17#5 2#5 30#5 5#3 3#2 0x4#6, .vfdivVv 17 2 30 5 3),
    (v 0x27#6 17#5 2#5 30#5 5#3 0#2 0x4#6, .vfdivVx 17 2 30 5),
    (v 0x26#6 17#5 2#5 30#5 5#3 3#2 0x7#6, .vfmaVv 17 2 30 5 3),
    (v 0x27#6 17#5 2#5 30#5 5#3 0#2 0x7#6, .vfmaVx 17 2 30 5),
    (v 0x26#6 17#5 2#5 30#5 5#3 3#2 0x8#6, .vfmsVv 17 2 30 5 3),
    (v 0x27#6 17#5 2#5 30#5 5#3 0#2 0x8#6, .vfmsVx 17 2 30 5),
    (v 0x26#6 17#5 2#5 30#5 5#3 3#2 0x9#6, .vfnmaVv 17 2 30 5 3),
    (v 0x27#6 17#5 2#5 30#5 5#3 0#2 0x9#6, .vfnmaVx 17 2 30 5),
    (v 0x26#6 17#5 2#5 30#5 5#3 3#2 0xa#6, .vfminVv 17 2 30 5 3),
    (v 0x27#6 17#5 2#5 30#5 5#3 0#2 0xa#6, .vfminVx 17 2 30 5),
    (v 0x26#6 17#5 2#5 30#5 5#3 3#2 0xb#6, .vfmaxVv 17 2 30 5 3),
    (v 0x27#6 17#5 2#5 30#5 5#3 0#2 0xb#6, .vfmaxVx 17 2 30 5),
    (v 0x26#6 17#5 2#5 30#5 5#3 3#2 0x10#6, .vfsgnVv 17 2 30 5 3),
    (v 0x27#6 17#5 2#5 30#5 5#3 0#2 0x10#6, .vfsgnVx 17 2 30 5),
    (v 0x27#6 17#5 2#5 30#5 5#3 0#2 0x2#6, .vfrsubVx 17 2 30 5),
    (v 0x27#6 17#5 2#5 30#5 5#3 0#2 0x5#6, .vfrdivVx 17 2 30 5),
    (v 0x26#6 17#5 2#5 0#5 5#3 0#2 0x6#6, .vfsqrt 17 2 5),
    (v 0x26#6 17#5 2#5 0#5 5#3 0#2 0xc#6, .vfabs 17 2 5)] : List (IWord × Instr)).Forall Reads := by
  simp only [List.Forall, Reads]; decide +kernel

/-- Majors 0x26, 0x27 and 0x2C: the function codes of R517 and R520 to R523. -/
theorem decode_vectorFloat_2 : ([(v 0x26#6 17#5 2#5 0#5 5#3 0#2 0xd#6, .vfneg 17 2 5),
    (v 0x26#6 17#5 2#5 0#5 5#3 0#2 0xe#6, .vfrcp 17 2 5),
    (v 0x26#6 17#5 2#5 0#5 5#3 0#2 0xf#6, .vfrsqrt 17 2 5),
    (v 0x26#6 17#5 2#5 0#5 5#3 0#2 0x11#6, .vfclass 17 2 5),
    (v 0x26#6 17#5 2#5 0#5 5#3 0#2 0x12#6, .vfexp2 17 2 5),
    (v 0x26#6 17#5 2#5 0#5 5#3 0#2 0x13#6, .vflog2 17 2 5),
    (v 0x26#6 17#5 2#5 0#5 5#3 0#2 0x14#6, .vfsat 17 2 5),
    (v 0x2C#6 17#5 2#5 0#5 5#3 0#2 0x0#6, .vcvt 17 2 5),
    (v 0x2C#6 17#5 2#5 (0#2 ++ 3#3) 5#3 0#2 0x1#6, .vcvtr 17 2 3 5),
    (v 0x2C#6 17#5 2#5 30#5 5#3 0#2 0x2#6, .vqbs 17 2 30 5),
    (v 0x2C#6 17#5 2#5 30#5 5#3 0#2 0x3#6, .vdqbs 17 2 30 5)] : List (IWord × Instr)).Forall Reads := by
  simp only [List.Forall, Reads]; decide +kernel

/-- Majors 0x28 to 0x2B: the function codes of R530, R532, R534, R539, R540, R541 and R542. -/
theorem decode_vectorMasks_1 : ([(0x28#6 ++ 0#2 ++ 5#3 ++ 2#5 ++ 30#5 ++ 6#3 ++ 1#2 ++ 4#3 ++ 1#2 ++ 0#1, .vcmpVv 5 2 30 6 1 4 1),
    (0x28#6 ++ 0#2 ++ 5#3 ++ 2#5 ++ 30#5 ++ 6#3 ++ 0#2 ++ 7#3 ++ 3#2 ++ 1#1, .vcmpVx 5 2 30 6 7 3),
    (v 0x29#6 (0#2 ++ 5#3) (0#2 ++ 2#3) (0#2 ++ 3#3) 6#3 0#2 0x0#6, .mand 5 2 3 6),
    (v 0x29#6 (0#2 ++ 5#3) (0#2 ++ 2#3) (0#2 ++ 3#3) 6#3 0#2 0x1#6, .mor 5 2 3 6),
    (v 0x29#6 (0#2 ++ 5#3) (0#2 ++ 2#3) (0#2 ++ 3#3) 6#3 0#2 0x2#6, .mxor 5 2 3 6),
    (v 0x29#6 (0#2 ++ 5#3) (0#2 ++ 2#3) (0#2 ++ 3#3) 6#3 0#2 0x3#6, .mandn 5 2 3 6),
    (v 0x29#6 (0#2 ++ 5#3) (0#2 ++ 2#3) 0#5 6#3 0#2 0x4#6, .mnot 5 2 6),
    (v 0x29#6 (0#2 ++ 5#3) (0#2 ++ 2#3) 0#5 6#3 0#2 0x5#6, .mmv 5 2 6),
    (v 0x29#6 (0#2 ++ 5#3) (0#2 ++ 2#3) 0#5 6#3 0#2 0xb#6, .mbefore 5 2 6),
    (v 0x29#6 (0#2 ++ 5#3) (0#2 ++ 2#3) 0#5 6#3 0#2 0xc#6, .mincl 5 2 6),
    (v 0x29#6 (0#2 ++ 5#3) (0#2 ++ 2#3) 0#5 6#3 0#2 0xd#6, .monly 5 2 6),
    (v 0x29#6 (0#2 ++ 5#3) 0#5 0#5 6#3 0#2 0x6#6, .mset 5 6),
    (v 0x29#6 (0#2 ++ 5#3) 0#5 0#5 6#3 0#2 0x7#6, .mclr 5 6),
    (v 0x29#6 17#5 (0#2 ++ 2#3) 0#5 6#3 0#2 0x8#6, .mpop 17 2 6),
    (v 0x29#6 17#5 (0#2 ++ 2#3) 0#5 6#3 0#2 0x9#6, .mfirst 17 2 6),
    (v 0x29#6 17#5 (0#2 ++ 2#3) 0#5 6#3 0#2 0xa#6, .mlast 17 2 6),
    (v 0x29#6 17#5 (0#2 ++ 2#3) 0#5 6#3 0#2 0xe#6, .mtov 17 2 6),
    (v 0x29#6 (0#2 ++ 5#3) 17#5 0#5 6#3 0#2 0xf#6, .vtom 5 17 6),
    (v 0x2A#6 17#5 2#5 0#5 6#3 0#2 0x0#6, .vcompress 17 2 6),
    (v 0x2A#6 17#5 2#5 0#5 6#3 0#2 0x1#6, .vexpand 17 2 6),
    (v 0x2A#6 17#5 2#5 0#5 6#3 0#2 0x5#6, .vrev 17 2 6),
    (v 0x2A#6 17#5 2#5 0#5 6#3 0#2 0x6#6, .vtr 17 2 6),
    (v 0x2A#6 17#5 2#5 0#5 6#3 0#2 0x9#6, .vunzip 17 2 6),
    (v 0x2A#6 17#5 2#5 30#5 6#3 0#2 0x2#6, .vslideup 17 2 30 6)] : List (IWord × Instr)).Forall Reads := by
  simp only [List.Forall, Reads]; decide +kernel

/-- Majors 0x28 to 0x2B: the function codes of R530, R532, R534, R539, R540, R541 and R542. -/
theorem decode_vectorMasks_2 : ([(v 0x2A#6 17#5 2#5 30#5 6#3 0#2 0x3#6, .vslidedn 17 2 30 6),
    (v 0x2A#6 17#5 2#5 30#5 6#3 0#2 0x4#6, .vgath 17 2 30 6),
    (v 0x2A#6 17#5 2#5 30#5 6#3 0#2 0x8#6, .vzip 17 2 30 6),
    (v 0x2A#6 17#5 2#5 30#5 6#3 0#2 0xa#6, .vrowmv 17 2 30 6),
    (v 0x2A#6 17#5 0#5 0#5 0#3 0#2 0x7#6, .vrelay 17),
    (v 0x2B#6 17#5 2#5 30#5 6#3 0#2 0x0#6, .vredsum 17 2 30 6),
    (v 0x2B#6 17#5 2#5 30#5 6#3 0#2 0x1#6, .vredsumt 17 2 30 6),
    (v 0x2B#6 17#5 2#5 30#5 6#3 0#2 0x2#6, .vredmin 17 2 30 6),
    (v 0x2B#6 17#5 2#5 30#5 6#3 0#2 0x3#6, .vredmax 17 2 30 6),
    (v 0x2B#6 17#5 2#5 30#5 6#3 0#2 0x4#6, .vredand 17 2 30 6),
    (v 0x2B#6 17#5 2#5 30#5 6#3 0#2 0x5#6, .vredor 17 2 30 6),
    (v 0x2B#6 17#5 2#5 30#5 6#3 0#2 0x6#6, .vredxor 17 2 30 6),
    (v 0x2B#6 17#5 2#5 30#5 6#3 0#2 0x7#6, .vredminu 17 2 30 6),
    (v 0x2B#6 17#5 2#5 30#5 6#3 0#2 0x8#6, .vredmaxu 17 2 30 6),
    (v 0x2B#6 17#5 2#5 30#5 6#3 0#2 0x9#6, .vfredsum 17 2 30 6),
    (v 0x2B#6 17#5 2#5 30#5 6#3 0#2 0xa#6, .vfredsumt 17 2 30 6),
    (v 0x2B#6 17#5 2#5 30#5 6#3 0#2 0xb#6, .vfredmax 17 2 30 6),
    (v 0x2B#6 17#5 2#5 30#5 6#3 0#2 0xc#6, .vfredmin 17 2 30 6),
    (v 0x2B#6 17#5 2#5 30#5 6#3 0#2 0x10#6, .vscan 17 2 30 6),
    (v 0x2B#6 17#5 2#5 30#5 6#3 0#2 0x11#6, .vscanx 17 2 30 6),
    (v 0x2B#6 17#5 2#5 30#5 6#3 0#2 0x12#6, .vfscan 17 2 30 6),
    (v 0x2B#6 17#5 2#5 30#5 6#3 0#2 0x18#6, .vkswap 17 2 30 6),
    (v 0x2B#6 17#5 2#5 30#5 6#3 0#2 0x19#6, .vkswapi 17 2 30 6)] : List (IWord × Instr)).Forall Reads := by
  simp only [List.Forall, Reads]; decide +kernel

/-- Majors 0x2D and 0x2E: the fields and function codes of R545. -/
theorem decode_fibres : ([(0x2D#6 ++ 9#4 ++ 2#4 ++ 14#4 ++ 0#3 ++ 5#5 ++ 0x0#6, .fisect 9 2 14 5),
    (0x2D#6 ++ 9#4 ++ 2#4 ++ 14#4 ++ 0#3 ++ 5#5 ++ 0x1#6, .funion 9 2 14 5),
    (0x2D#6 ++ 9#4 ++ 2#4 ++ 14#4 ++ 0#3 ++ 5#5 ++ 0x2#6, .fmerge 9 2 14 5),
    (0x2D#6 ++ 9#4 ++ 2#4 ++ 14#4 ++ 1#3 ++ 0#5 ++ 0x0#6, .fisectb 9 2 14),
    (0x2D#6 ++ 9#4 ++ 2#4 ++ 0#4 ++ 0#3 ++ 0#5 ++ 0x3#6, .fsort 9 2),
    (0x2D#6 ++ 9#4 ++ 2#4 ++ 0#4 ++ 6#3 ++ 0#5 ++ 0x4#6, .fcompact 9 2 6),
    (0x2D#6 ++ 9#4 ++ 2#4 ++ 14#4 ++ 0#3 ++ 0#5 ++ 0x5#6, .fdiff 9 2 14),
    (0x2D#6 ++ 9#4 ++ 2#4 ++ 0#4 ++ 0#3 ++ 5#5 ++ 0x6#6, .fdedup 9 2 5),
    (0x2E#6 ++ 9#4 ++ 0#4 ++ 0#4 ++ 0#3 ++ (11#4 ++ 0#1) ++ 0x0#6, .fld 9 11),
    (0x2E#6 ++ 0#4 ++ 2#4 ++ 0#4 ++ 0#3 ++ (11#4 ++ 0#1) ++ 0x1#6, .fst 2 11),
    (0x2E#6 ++ 9#4 ++ 0#4 ++ 0#4 ++ 0#3 ++ 17#5 ++ 0x2#6, .fbm 9 17),
    (0x2E#6 ++ 9#4 ++ 2#4 ++ 0#4 ++ 0#3 ++ (11#4 ++ 0#1) ++ 0x3#6, .fwalk 9 2 11),
    (0x2E#6 ++ 0#4 ++ 2#4 ++ 0#4 ++ 0#3 ++ 17#5 ++ 0x4#6, .fexpand 2 17),
    (0x2E#6 ++ 9#4 ++ 0#4 ++ 0#4 ++ 6#3 ++ 17#5 ++ 0x5#6, .fpack 9 6 17),
    (0x2E#6 ++ 0#4 ++ 2#4 ++ 0#4 ++ 6#3 ++ 17#5 ++ 0x6#6, .fsetl 2 6 17),
    (0x2E#6 ++ 0#4 ++ 2#4 ++ 0#4 ++ 0#3 ++ 17#5 ++ 0x7#6, .focc 2 17),
    (0x2E#6 ++ 0#4 ++ 2#4 ++ 0#4 ++ 0#3 ++ 17#5 ++ 0x8#6, .fcoord 2 17),
    (0x2E#6 ++ 0#4 ++ 2#4 ++ 0#4 ++ 0#3 ++ 17#5 ++ 0x9#6, .fval 2 17),
    (0x2E#6 ++ 9#4 ++ 2#4 ++ 0#4 ++ 0#3 ++ 0#5 ++ 0xa#6, .fmv 9 2),
    (0x2E#6 ++ 9#4 ++ 0#4 ++ 0#4 ++ 0#3 ++ 0#5 ++ 0xb#6, .fclr 9)] : List (IWord × Instr)).Forall Reads := by
  simp only [List.Forall, Reads]; decide +kernel

/-- Major 0x2F: the fields of R567 and the format codes of R568. -/
theorem decode_matrix : ([(0x2F#6 ++ 3#2 ++ 0#5 ++ 0#5 ++ 0#3 ++ 0#3 ++ 0#3 ++ 0#1 ++ 0x0#4, .mzero 3),
    (0x2F#6 ++ 3#2 ++ 17#5 ++ 30#5 ++ 5#3 ++ 6#3 ++ 4#3 ++ 0#1 ++ 0x1#4, .mopo 3 17 30 5 6 4),
    (0x2F#6 ++ 3#2 ++ 17#5 ++ 30#5 ++ 5#3 ++ 6#3 ++ 3#3 ++ 1#1 ++ 0x1#4, .mopob 3 17 30 5 6 3),
    (0x2F#6 ++ 3#2 ++ 17#5 ++ 30#5 ++ 5#3 ++ 6#3 ++ 4#3 ++ 0#1 ++ 0x2#4, .mopr 3 17 30 5 6 4),
    (0x2F#6 ++ 3#2 ++ 17#5 ++ 30#5 ++ 5#3 ++ 6#3 ++ 3#3 ++ 1#1 ++ 0x2#4, .moprb 3 17 30 5 6 3),
    (0x2F#6 ++ 3#2 ++ 17#5 ++ 30#5 ++ 5#3 ++ 6#3 ++ 7#3 ++ 0#1 ++ 0x3#4, .mopi 3 17 30 5 6 1),
    (0x2F#6 ++ 3#2 ++ 17#5 ++ 30#5 ++ 5#3 ++ 6#3 ++ 7#3 ++ 0#1 ++ 0x4#4, .mops 3 17 30 5 6 7),
    (0x2F#6 ++ 3#2 ++ 17#5 ++ 30#5 ++ 5#3 ++ 6#3 ++ 3#3 ++ 1#1 ++ 0x4#4, .mopsb 3 17 30 5 6 3),
    (0x2F#6 ++ 3#2 ++ 17#5 ++ 30#5 ++ 0#3 ++ 0#3 ++ 0#3 ++ 0#1 ++ 0x5#4, .mtv 3 17 30),
    (0x2F#6 ++ 3#2 ++ 17#5 ++ 30#5 ++ 0#3 ++ 0#3 ++ 1#3 ++ 0#1 ++ 0x5#4, .mtvc 3 17 30),
    (0x2F#6 ++ 3#2 ++ 17#5 ++ 30#5 ++ 0#3 ++ 0#3 ++ 0#3 ++ 0#1 ++ 0x6#4, .mvt 3 17 30),
    (0x2F#6 ++ 3#2 ++ 17#5 ++ 30#5 ++ 0#3 ++ 0#3 ++ 1#3 ++ 0#1 ++ 0x6#4, .mvtc 3 17 30),
    (0x2F#6 ++ 3#2 ++ 17#5 ++ 30#5 ++ 0#3 ++ 0#3 ++ 0#3 ++ 0#1 ++ 0x7#4, .mld 3 17 30),
    (0x2F#6 ++ 3#2 ++ 17#5 ++ 30#5 ++ 0#3 ++ 0#3 ++ 0#3 ++ 0#1 ++ 0x8#4, .mst 3 17 30),
    (0x2F#6 ++ 0#2 ++ 0#5 ++ 0#5 ++ 0#3 ++ 0#3 ++ 0#3 ++ 0#1 ++ 0x9#4, .mgang),
    (0x2F#6 ++ 0#2 ++ 0#5 ++ 0#5 ++ 0#3 ++ 0#3 ++ 0#3 ++ 0#1 ++ 0xa#4, .mgsync)] : List (IWord × Instr)).Forall Reads := by
  simp only [List.Forall, Reads]; decide +kernel

/-- Majors 0x30 to 0x32: the fields of R584, the codes of R596 and R600. -/
theorem decode_syncTask_1 : ([(0x30#6 ++ 0#5 ++ 0#5 ++ 5#3 ++ 0#5 ++ 0x0#8, .fence 5),
    (0x30#6 ++ 0#5 ++ 0#5 ++ 0#3 ++ 0#5 ++ 0x1#8, .fsc),
    (0x30#6 ++ 0#5 ++ 0#5 ++ 0#3 ++ 0#5 ++ 0x2#8, .lsync),
    (0x30#6 ++ 0#5 ++ 0#5 ++ 4#3 ++ 0#5 ++ 0x3#8, .gbar 4),
    (0x30#6 ++ 2#5 ++ 30#5 ++ 0#3 ++ 17#5 ++ 0x4#8, .wfp 2 30 17),
    (0x30#6 ++ 2#5 ++ 0#5 ++ 0#3 ++ 17#5 ++ 0x5#8, .eqpop 2 17),
    (0x30#6 ++ (0#2 ++ 6#3) ++ 0#5 ++ 0#3 ++ 0#5 ++ 0x6#8, .acqm 6),
    (0x30#6 ++ 0#5 ++ 0#5 ++ 0#3 ++ 17#5 ++ 0x7#8, .drainw 17),
    (0x32#6 ++ 2#5 ++ 30#5 ++ 0#3 ++ 17#5 ++ 0x0#8, .tsk 2 30 17),
    (0x32#6 ++ 2#5 ++ 0#5 ++ 0#3 ++ 17#5 ++ 0x1#8, .tqget 2 17),
    (0x32#6 ++ 0#5 ++ 0#5 ++ 0#3 ++ 17#5 ++ 0x2#8, .gtime 17),
    (0x32#6 ++ 2#5 ++ 0#5 ++ 0#3 ++ 17#5 ++ 0x3#8, .gwait 2 17),
    (0x32#6 ++ 2#5 ++ 0#5 ++ 0#3 ++ 17#5 ++ 0x4#8, .hbeat 2 17),
    (0x32#6 ++ 0#5 ++ 0#5 ++ 0#3 ++ 0#5 ++ 0x5#8, .tdone),
    (v 0x31#6 17#5 2#5 30#5 5#3 0#2 0x0#6, .vamoadd 17 2 30 5),
    (v 0x31#6 17#5 2#5 30#5 5#3 0#2 0x1#6, .vamoand 17 2 30 5),
    (v 0x31#6 17#5 2#5 30#5 5#3 0#2 0x2#6, .vamoor 17 2 30 5),
    (v 0x31#6 17#5 2#5 30#5 5#3 0#2 0x3#6, .vamoxor 17 2 30 5),
    (v 0x31#6 17#5 2#5 30#5 5#3 0#2 0x4#6, .vamomin 17 2 30 5),
    (v 0x31#6 17#5 2#5 30#5 5#3 0#2 0x5#6, .vamomax 17 2 30 5),
    (v 0x31#6 17#5 2#5 30#5 5#3 0#2 0x6#6, .vamominu 17 2 30 5),
    (v 0x31#6 17#5 2#5 30#5 5#3 0#2 0x7#6, .vamomaxu 17 2 30 5),
    (v 0x31#6 17#5 2#5 30#5 5#3 0#2 0x8#6, .vamoswap 17 2 30 5),
    (v 0x31#6 17#5 2#5 30#5 5#3 0#2 0x9#6, .vamofadd 17 2 30 5)] : List (IWord × Instr)).Forall Reads := by
  simp only [List.Forall, Reads]; decide +kernel

/-- Majors 0x30 to 0x32: the fields of R584, the codes of R596 and R600. -/
theorem decode_syncTask_2 : ([(v 0x31#6 17#5 2#5 30#5 5#3 0#2 0x10#6, .vsca 17 2 30 5),
    (v 0x31#6 17#5 2#5 30#5 5#3 0#2 0x11#6, .vscamax 17 2 30 5),
    (v 0x31#6 17#5 2#5 30#5 5#3 0#2 0x12#6, .vscamin 17 2 30 5),
    (v 0x31#6 17#5 2#5 30#5 5#3 0#2 0x13#6, .vscao 17 2 30 5)] : List (IWord × Instr)).Forall Reads := by
  simp only [List.Forall, Reads]; decide +kernel

/-! ### Checkers of the hypotheses, and what they show -/

/-- Whether a post meets nothing in its way. -/
def postableOk (s : State) (p : Posted) : Bool :=
  !s.postBad p && !s.h.anyPending (p.opa.toList ++ p.opb.toList) && s.h.queueRoom p.eng && (!p.needsLane || vtGroups s.h.vtype != 0#4) &&
  (match p.body with
   | .mat op _ mcol fmt bs => (s.matCheck s.cur op mcol fmt bs p).isNone
   | _ => true)

/-- A post that the checker accepts meets nothing in its way. -/
theorem postable_of_ok {s : State} {p : Posted} (h : postableOk s p = true) : Postable s p := by
  unfold postableOk at h
  simp only [Bool.and_eq_true, Bool.not_eq_true', Bool.or_eq_true, bne_iff_ne, ne_eq] at h
  obtain ⟨⟨⟨⟨h1, h2⟩, h3⟩, h4⟩, h5⟩ := h
  refine ⟨h1, h2, h3, fun hn => h4.resolve_left (by simp [hn]), ?_⟩
  intro op mrow mcol fmt bs hb
  rw [hb] at h5
  simpa using h5

/-- Whether an instruction begins at once when it is posted. -/
def runsOk (s : State) (p : Posted) : Bool :=
  postableOk s p && s.eager && s.h.queue.isEmpty && (s.h.newEntry p).strips.isEmpty &&
  (s.mod fun h => h.post p).mayRun s.cur (s.h.newEntry p) && s.h.releases.isEmpty

/-- An instruction that the checker accepts begins at once. -/
theorem run_of_ok {s : State} {p : Posted} (h : runsOk s p = true) : Runs s p := by
  unfold runsOk at h
  simp only [Bool.and_eq_true, List.isEmpty_iff] at h
  exact ⟨postable_of_ok h.1.1.1.1.1, h.1.1.1.1.2, h.1.1.1.2, h.1.1.2, h.1.2, h.2⟩

/-- The same of several instructions. -/
theorem runs_of_ok {s : State} {ps : List Posted} (h : ps.all (runsOk s) = true) : ∀ p ∈ ps, Runs s p :=
  fun p hp => run_of_ok (List.all_eq_true.mp h p hp)

/-- Whether an access of a scalar instruction lies in plain storage at a key. -/
def placedOk (s : State) (va n : Nat) (kind : AccKind) (path : AccPath) (k : Nat) : Bool :=
  s.mem.wf && decide (va % 4096 + n ≤ 4096) && decide (va < 2 ^ 63) && s.mem.sca.isEmpty && s.mem.sealed.isEmpty &&
  (match s.locate s.whoScalar va n kind path with
   | .ok (.hbm q false false _, _) => q == k
   | .ok (.spad q, _) => q == k
   | _ => false)

/-- An access that the checker accepts lies in plain storage. -/
theorem placed_of_ok {s : State} {va n : Nat} {kind : AccKind} {path : AccPath} {k : Nat} (h : placedOk s va n kind path k = true) :
    ∃ u, PlacedAt s va n kind path k u := by
  unfold placedOk at h
  simp only [Bool.and_eq_true, decide_eq_true_eq, List.isEmpty_iff] at h
  obtain ⟨⟨⟨⟨⟨h1, h2⟩, h3⟩, h4⟩, h5⟩, h6⟩ := h
  split at h6
  · rename_i q g u hl
    exact ⟨u, h1, h2, h3, h4, h5, .inl ⟨g, by rw [hl, eq_of_beq h6]⟩⟩
  · rename_i q u hl
    exact ⟨u, h1, h2, h3, h4, h5, .inr (by rw [hl, eq_of_beq h6])⟩
  · cases h6

/-- Whether no word is uncorrectable. -/
def soundOk (s : State) : Bool := s.mem.eccBad.isEmpty && s.mem.ways.isEmpty

/-- Then every byte is sound. -/
theorem sound_of_ok {s : State} (h : soundOk s = true) (k n : Nat) : Sound s k n := by
  unfold soundOk at h
  simp only [Bool.and_eq_true, List.isEmpty_iff] at h
  intro w _
  simp [h.1, h.2]

/-- Whether bytes lie in an open scratchpad bank at a key. -/
def spadOk (s : State) (va n k : Nat) : Bool :=
  decide (0 < n) && decide (va % 4096 + n ≤ 4096) && decide (spadBase ≤ va) && decide (va < spadBase + 2 ^ 25) && decide (k = spadKey s.die (va - spadBase)) &&
  (match s.bank s.die ((va - spadBase) / 2 ^ 18) with
   | some b => !b.busy && b.cur == .spad
   | none => false)

/-- Bytes that the checker accepts are plain storage. -/
theorem spad_of_ok {s : State} {va n k : Nat} (h : spadOk s va n k = true) (lvl : Level) (D : Nat → Prop) {kind : AccKind} (hk : kind ≠ .fetch)
    (path : AccPath) : PlainAt s lvl D va n kind path k := by
  unfold spadOk at h
  simp only [Bool.and_eq_true, decide_eq_true_eq] at h
  obtain ⟨⟨⟨⟨⟨h1, h2⟩, h3⟩, h4⟩, h5⟩, h6⟩ := h
  refine ⟨h1, h2, .inl ⟨h3, h4, hk, h5, ?_⟩⟩
  split at h6
  · rename_i b hb
    simp only [Bool.and_eq_true, Bool.not_eq_true', beq_iff_eq] at h6
    exact ⟨b, hb, h6.1, h6.2⟩
  · cases h6

/-- The page of the first GiB that the test states map. -/
def lowPage : TlbEntry :=
  { asid := 0#16, va := 0, size := 2 ^ 30, pa := 0, r := true, w := true, x := true, u := true, p := false, enc := false, pgrp := 0#8 }

/-- Whether a state maps the first GiB so, with empty TLBs and no uncorrectable word. -/
def lowOk (s : State) : Bool :=
  (s.ctx s.h.ctxid.toNat == some fetchCtx) && soundOk s && s.mem.dieTlb.isEmpty && (s.core.tlb.toList.flatMap TlbSection.entries).isEmpty &&
  (leNat (s.mem.rawUnit 0x40000000 8) == 0x40001001) && (leNat (s.mem.rawUnit 0x40001000 8) == 0x1F) &&
  !pteMalformed (s.feat 9) (s.feat 8) 0x40001001#64 3 && !pteMalformed (s.feat 9) (s.feat 8) 0x1F#64 2

/-- A word of a state without errors is not hit. -/
theorem no_ecc {s : State} (h : soundOk s = true) (k n : Nat) : eccHit s.mem k n = none := by
  unfold soundOk at h
  simp only [Bool.and_eq_true, List.isEmpty_iff] at h
  unfold eccHit Memory.wordBad
  simp [h.1, h.2]

/-- The walk of an address of the first GiB. -/
theorem low_walk {s : State} (h : lowOk s = true) {v : Nat} (hv : v < 2 ^ 30) :
    s.walkAll s.h.ctxid.toNat v = (.page lowPage, [0x40000000, 0x40001000]) := by
  unfold lowOk at h
  simp only [Bool.and_eq_true, beq_iff_eq, Bool.not_eq_true'] at h
  obtain ⟨⟨⟨⟨⟨⟨⟨h1, h2⟩, -⟩, -⟩, h5⟩, h6⟩, h7⟩, h8⟩ := h
  have d39 : v / 549755813888 = 0 := Nat.div_eq_of_lt (by omega)
  have d30 : v / 1073741824 = 0 := Nat.div_eq_of_lt (by omega)
  unfold State.walkAll
  rw [h1]
  have e3 : BitVec.extractLsb' 12 40 (BitVec.ofNat 64 (leNat (s.mem.rawUnit 1073741824 8))) = 0x40001#40 := by rw [h5]; decide
  have a : ∀ asid, walkFrom s.mem (s.feat 9) (s.feat 8) asid v 2 0x40001000 = (.page { lowPage with asid := asid }, [0x40001000]) := by
    intro asid
    unfold walkFrom
    simp only [show 12 + 9 * 2 = 30 from rfl, Nat.reducePow, d30, Nat.zero_mod, Nat.mul_zero, Nat.add_zero, no_ecc h2, h6]
    simp [h8, lowPage, pageSize, d30]
  simp only [fetchCtx, if_true]
  unfold walkFrom
  simp only [show 12 + 9 * 3 = 39 from rfl, Nat.reducePow, d39, Nat.zero_mod, Nat.mul_zero, Nat.add_zero, Nat.reduceMul, no_ecc h2, h5]
  simp [h7]
  simp [a, lowPage]

/-- Every access is in order in that page. -/
theorem low_allows (s : State) (lvl : Level) (kind : AccKind) (path : AccPath) {va : Nat} (n : Nat) (h : va < 2 ^ 30) :
    s.pageAllows lowPage lvl kind path va n = true := by
  have hp : va < hbmEnd := Nat.lt_of_lt_of_le h (by decide)
  unfold State.pageAllows
  cases kind <;> simp [lowPage, hp]

/-- The key of bytes in the first GiB or the scratchpad. -/
def plainKey (s : State) (va : Nat) : Nat := if va < spadBase then va else spadKey s.die (va - spadBase)

/-- Whether bytes lie there, in plain storage. -/
def plainOk (s : State) (va n : Nat) : Bool :=
  if va < spadBase then lowOk s && decide (0 < n) && decide (va % 4096 + n ≤ 4096) && decide (va + n ≤ 2 ^ 30) else spadOk s va n (plainKey s va)

/-- A set of bytes that holds no table entry of the test states. -/
def Apart (D : Nat → Prop) : Prop := ∀ a, D a → a < 2 ^ 30 ∨ 2 ^ 31 ≤ a

/-- Bytes that the checker accepts hold no table entry. -/
theorem key_of_ok {s : State} {va n : Nat} (h : plainOk s va n = true) : plainKey s va + n ≤ 2 ^ 30 ∨ 2 ^ 31 ≤ plainKey s va := by
  unfold plainOk at h
  unfold plainKey spadKey
  split at h
  · simp only [Bool.and_eq_true, decide_eq_true_eq] at h
    rw [if_pos ‹_›]; exact .inl h.2
  · rw [if_neg ‹_›]; exact .inr (by omega)

/-- Sets of bytes that the checker accepts hold none. -/
theorem apart_of_ok {s : State} {D : Nat → Prop} (h : ∀ a, D a → ∃ va n, plainOk s va n = true ∧ plainKey s va ≤ a ∧ a < plainKey s va + n) : Apart D := by
  intro a ha
  obtain ⟨va, n, h1, h2, h3⟩ := h a ha
  have := key_of_ok h1
  omega

/-- No byte is apart. -/
theorem apart_none : Apart noByte := fun _ h => h.elim

/-- Bytes that the checker accepts are plain storage, unless the access writes the tables. -/
theorem plain_of_ok {s : State} {va n : Nat} (h : plainOk s va n = true) (lvl : Level) {D : Nat → Prop} (hD : Apart D) {kind : AccKind}
    (hk : kind ≠ .fetch) (path : AccPath) : PlainAt s lvl D va n kind path (plainKey s va) := by
  unfold plainOk at h
  split at h
  case isFalse hs => exact spad_of_ok h lvl D hk path
  case isTrue hs =>
    simp only [Bool.and_eq_true, decide_eq_true_eq] at h
    obtain ⟨⟨⟨h1, h2⟩, h3⟩, h4⟩ := h
    have hl := h1
    unfold lowOk at hl
    simp only [Bool.and_eq_true, beq_iff_eq, Bool.not_eq_true', List.isEmpty_iff] at hl
    have hkey : plainKey s va = va := by unfold plainKey; rw [if_pos hs]
    have hend : 2 ^ 30 ≤ hbmEnd := by decide
    rw [hkey]
    refine ⟨h2, h3, .inr ⟨by omega, fetchCtx, lowPage, hl.1.1.1.1.1.1.1, by simp [lowPage], by simp only [lowPage]; omega, rfl, rfl,
      low_allows s lvl kind path n (by omega), by simp [lowPage], by omega, ?_⟩⟩
    intro v _ hv
    have hw := low_walk h1 (v := v) (by simpa [lowPage] using hv)
    refine ⟨by unfold State.walk; rw [hw], ?_, ?_⟩
    · intro x hx
      simp [State.tlbHits, Core.tlbHits, hl.1.1.1.1.1.2, hl.1.1.1.1.2] at hx
    · rw [hw]
      intro q hq
      refine ⟨sound_of_ok hl.1.1.1.1.1.1.2 _ _, ?_⟩
      intro a h1 h2 hd
      simp only [List.mem_cons, List.not_mem_nil, or_false] at hq
      have := hD a hd
      omega

/-- Whether memory is quiet. -/
def quietOk (s : State) : Bool :=
  s.mem.wf && s.mem.sca.isEmpty && s.mem.sealed.isEmpty && s.h.stbuf.isEmpty && s.h.late.isEmpty && s.fab.outstanding.isEmpty && s.fab.waiting.isEmpty

/-- A state that the checker accepts is quiet. -/
theorem quiet_of_ok {s : State} (h : quietOk s = true) : Quiet s := by
  unfold quietOk at h
  simp only [Bool.and_eq_true, List.isEmpty_iff] at h
  obtain ⟨⟨⟨⟨⟨⟨h1, h2⟩, h3⟩, h4⟩, h5⟩, h6⟩, h7⟩ := h
  exact ⟨h1, h2, h3, h4, h5, h6, h7⟩

/-! ### Small states -/

/-- Hart 0 runs at address 0 in context 0, at level S with a handler, with the first GiB mapped. -/
def base : State := (State.reset.withFetchWord 32 0).modHart 0 fun h => { h with level := .s, etvec := 0x4000#64, emuf := 0x8000#64 }

/-- The same hart with four lane groups, a shape, a type, and matrix mode. -/
def shaped (et : ETCode) (vl vrows : Nat) (mstat : BitVec 10) : State :=
  let s := base.modHart 0 fun h => { h with vtype := 0#1 ++ 15#4 ++ et, vl := vl, vrows := vrows, mstat := mstat, mvl := 0x1010#16, quota := 32 }
  { s with core := { s.core with lanes := Vector.replicate 4 (.held 0), matrix := some 0 } }

/-- Some scalar registers written. -/
def withX (s : State) (l : List (XNum × Word)) : State := l.foldl (fun s x => s.setX x.1 x.2) s

/-- Some bytes of memory written. -/
def withBytes (s : State) (k : Nat) (bs : List Byte) : State := { s with mem := s.mem.poke k bs }

/-- Bank 0 of the die a scratchpad. -/
def withSpad (s : State) : State :=
  { s with mem := { s.mem with banks := s.mem.banks.set 0 (s.mem.banks[0].set 0 { Bank.reset with mode := .spad, cur := .spad, target := .spad }) } }

/-- Four rows of four 32-bit integers. -/
def ints : State := shaped 2 4 4 1
/-- The same with floating-point elements. -/
def floats : State := shaped 13 4 4 1
/-- Integer accumulators. -/
def tiles : State := shaped 2 4 1 (1#10 ||| 0x3C0#10)

/-- The first byte of the scratchpad window. -/
def pad : Word := 0x7E00000000000000#64

/-- Addresses in the scratchpad in the scalar registers that the tests use as bases, some of them misaligned in no way, and x6 a stride. -/
def mems : State := withX (withSpad (shaped 2 4 2 1)) ((6, 8#64) :: [5, 8, 10, 11, 12].map fun n => (n, pad + 0x100#64))
/-- The same with floating-point elements. -/
def memf : State := withX (withSpad (shaped 13 4 2 1)) ([5, 8, 10, 11, 12].map fun n => (n, pad + 0x100#64))
/-- The same with 4-bit elements. -/
def nibs : State := withX (withSpad (shaped 15 5 2 1)) ((6, 8#64) :: [5, 8, 10, 11, 12].map fun n => (n, pad + 0x100#64))

/-- A row of elements of `b` bits. -/
def rowOf (b : Nat) (es : List Nat) : Row := BitVec.ofNat 8192 (es.foldr (fun e acc => acc * 2 ^ b + e) 0)

/-- A state in which some vector registers hold a row of four elements of a type, in four lane groups. -/
def withV (s : State) (et : ETCode) (b : Nat) (l : List (Fin 32 × List Nat)) : State :=
  let r (es : List Nat) : VReg := { VReg.none with valid := true, et := et, lmap := 15#4, len := 4, nrows := 1, rows := VReg.none.rows.set 0 (rowOf b es) }
  s.mod fun h => { h with v := l.foldl (fun v x => v.set x.1 (r x.2)) h.v }

/-! ### Posted instructions -/

/-- Each instruction may begin at once in a small state. -/
theorem witness_VectorIntegerResults_1 : ∀ p ∈ ([pVaddVv 8 10 12 0 0, pVaddVx 8 10 5 0, pVsubVv 8 10 12 0 0, pVsubVx 8 10 5 0, pVrsubVx 8 10 5 0, pVmulVv 8 10 12 0 0, pVmulVx 8 10 5 0,
      pVmulhVv 8 10 12 0 0, pVmulhVx 8 10 5 0, pVmulhuVv 8 10 12 0 0, pVmulhuVx 8 10 5 0, pVdivVv 8 10 12 0 0, pVdivVx 8 10 5 0, pVdivuVv 8 10 12
      0 0, pVdivuVx 8 10 5 0, pVremVv 8 10 12 0 0, pVremVx 8 10 5 0, pVremuVv 8 10 12 0 0, pVremuVx 8 10 5 0, pVminVv 8 10 12 0 0, pVminVx 8 10 5
      0, pVmaxVv 8 10 12 0 0, pVmaxVx 8 10 5 0, pVminuVv 8 10 12 0 0, pVminuVx 8 10 5 0, pVmaxuVv 8 10 12 0 0, pVmaxuVx 8 10 5 0, pVandVv 8 10 12
      0 0, pVandVx 8 10 5 0, pVorVv 8 10 12 0 0, pVorVx 8 10 5 0, pVxorVv 8 10 12 0 0] : List Posted), Runs ints p :=
  runs_of_ok (by decide +kernel)

/-- Each instruction may begin at once in a small state. -/
theorem witness_VectorIntegerResults_2 : ∀ p ∈ ([pVxorVx 8 10 5 0, pVsllVv 8 10 12 0 0, pVsllVx 8 10 5 0, pVsrlVv 8 10 12 0 0, pVsrlVx 8 10 5 0, pVsraVv 8 10 12 0 0, pVsraVx 8 10 5 0,
      pVsaddVv 8 10 12 0 0, pVsaddVx 8 10 5 0, pVsadduVv 8 10 12 0 0, pVsadduVx 8 10 5 0, pVssubVv 8 10 12 0 0, pVssubVx 8 10 5 0, pVssubuVv 8 10
      12 0 0, pVssubuVx 8 10 5 0, pVabs 8 10 0, pVmaccVv 8 10 12 0 0, pVmaccVx 8 10 5 0, pVselVv 8 10 12 0 0, pVselVx 8 10 5 0, pVmvVv 8 10 0,
      pVmvVx 8 5 0, pVpopc 8 10 0, pVclz 8 10 0, pVpcp 8 10 0, pVid 8 0, pVextVv 8 10 12 0 0, pVextVx 8 10 5 0, pVinsVv 8 10 12 0 0, pVinsVx 8 10
      5 0, pVabsdVv 8 10 12 0 0, pVabsdVx 8 10 5 0] : List Posted), Runs ints p :=
  runs_of_ok (by decide +kernel)

/-- Each instruction may begin at once in a small state. -/
theorem witness_VectorFloatingPointResults : ∀ p ∈ ([pVfaddVv 8 10 12 0 0, pVfaddVx 8 10 5 0, pVfsubVv 8 10 12 0 0, pVfsubVx 8 10 5 0, pVfrsubVx 8 10 5 0, pVfmulVv 8 10 12 0 0, pVfmulVx 8 10 5
      0, pVfdivVv 8 10 12 0 0, pVfdivVx 8 10 5 0, pVfrdivVx 8 10 5 0, pVfsqrt 8 10 0, pVfmaVv 8 10 12 0 0, pVfmaVx 8 10 5 0, pVfmsVv 8 10 12 0 0,
      pVfmsVx 8 10 5 0, pVfnmaVv 8 10 12 0 0, pVfnmaVx 8 10 5 0, pVfexp2 8 10 0, pVflog2 8 10 0, pVfminVv 8 10 12 0 0, pVfminVx 8 10 5 0, pVfmaxVv
      8 10 12 0 0, pVfmaxVx 8 10 5 0, pVfabs 8 10 0, pVfneg 8 10 0, pVfrcp 8 10 0, pVfrsqrt 8 10 0, pVfsgnVv 8 10 12 0 0, pVfsgnVx 8 10 5 0,
      pVfclass 8 10 0, pVfsat 8 10 0] : List Posted), Runs floats p :=
  runs_of_ok (by decide +kernel)

/-- Each instruction may begin at once in a small state. -/
theorem witness_VectorConversionResults : ∀ p ∈ ([pVcvt 8 10 0, pVcvtr 8 10 1 0] : List Posted), Runs floats p :=
  runs_of_ok (by decide +kernel)

/-- Each instruction may begin at once in a small state. -/
theorem witness_VectorConversionResults_dequantise : ∀ p ∈ ([pVdqbs 8 10 12 0] : List Posted), Runs (shaped 8 4 4 1) p :=
  runs_of_ok (by decide +kernel)

/-- Each instruction may begin at once in a small state. -/
theorem witness_VectorComparisonResults : ∀ p ∈ ([pVcmpVv 3 10 12 0 0 0 0, pVcmpVx 3 10 5 0 0 0] : List Posted), Runs ints p :=
  runs_of_ok (by decide +kernel)

/-- Each instruction may begin at once in a small state. -/
theorem witness_VectorComparisonResults_float : ∀ p ∈ ([pVcmpVv 3 10 12 0 0 6 3, pVcmpVx 3 10 5 0 6 3] : List Posted), Runs floats p :=
  runs_of_ok (by decide +kernel)

/-- Each instruction may begin at once in a small state. -/
theorem witness_MaskInstructionResults : ∀ p ∈ ([pMand 3 1 2 0, pMor 3 1 2 0, pMxor 3 1 2 0, pMandn 3 1 2 0, pMnot 3 1 0, pMmv 3 1 0, pMset 3 0, pMclr 3 0, pMbefore 3 1 0, pMincl 3 1 0,
      pMonly 3 1 0, pVtom 3 10 0] : List Posted), Runs ints p :=
  runs_of_ok (by decide +kernel)

/-- Each instruction may begin at once in a small state. -/
theorem witness_MaskScalarResults : ∀ p ∈ ([pMpop 8 1 0, pMfirst 8 1 0, pMlast 8 1 0, pMtov 8 1 0] : List Posted), Runs ints p :=
  runs_of_ok (by decide +kernel)

/-- Each instruction may begin at once in a small state. -/
theorem witness_PermuteResults : ∀ p ∈ ([pVcompress 8 10 0, pVexpand 8 10 0, pVrev 8 10 0, pVtr 8 10 0, pVunzip 8 10 0, pVzip 8 10 12 0, pVslideup 8 10 5 0, pVslidedn 8 10 5 0,
      pVrowmv 8 10 5 0] : List Posted), Runs ints p :=
  runs_of_ok (by decide +kernel)

/-- Each instruction may begin at once in a small state. -/
theorem witness_GatherAndRelayResults : ∀ p ∈ ([pVgath 8 10 12 0, pVrelay 8] : List Posted), Runs ints p :=
  runs_of_ok (by decide +kernel)

/-- Each instruction may begin at once in a small state. -/
theorem witness_IntegerReductionResults : ∀ p ∈ ([pVredsum 8 10 12 0, pVredsumt 8 10 12 0, pVredmin 8 10 12 0, pVredmax 8 10 12 0, pVredminu 8 10 12 0, pVredmaxu 8 10 12 0, pVredand 8 10 12
      0, pVredor 8 10 12 0, pVredxor 8 10 12 0, pVscan 8 10 12 0, pVscanx 8 10 12 0] : List Posted), Runs ints p :=
  runs_of_ok (by decide +kernel)

/-- Each instruction may begin at once in a small state. -/
theorem witness_OrderedFloatingPointSum : ∀ p ∈ ([pVfredsum 8 10 12 0] : List Posted), Runs floats p :=
  runs_of_ok (by decide +kernel)

/-- Each instruction may begin at once in a small state. -/
theorem witness_FibreAndMatrixInstructionsComplete : ∀ p ∈ ([pFisect 4 5 6 0, pFisectb 4 5 6, pFunion 4 5 6 0, pFmerge 4 5 6 0, pFsort 4 5, pFcompact 4 5 0, pFdiff 4 5 6, pFdedup 4 5 0, pFexpand 5 14,
      pFpack 4 0 14, pFsetl 5 1 5, pFocc 5 5, pFcoord 5 14, pFval 5 14, pFmv 4 5, pFclr 4, pMzero 0, pMopo 0 10 12 0 0 0, pMopob 0 10 12 0 0 2,
      pMopr 0 10 12 0 0 0, pMoprb 0 10 12 0 0 2, pMops 0 10 12 0 0 0, pMopsb 0 10 12 0 0 2, pMtv 0 8 5, pMtvc 0 8 5, pMvt 0 10 5, pMvtc 0 10 5,
      pMgang, pMgsync] : List Posted), Runs floats p :=
  runs_of_ok (by decide +kernel)

/-- Each instruction may begin at once in a small state. -/
theorem witness_FibreAndMatrixInstructionsComplete_bitmap : ∀ p ∈ ([pFbm 4 14] : List Posted), Runs (shaped 3 4 4 1) p :=
  runs_of_ok (by decide +kernel)

/-- Each instruction may begin at once in a small state. -/
theorem witness_FibreAndMatrixInstructionsComplete_integer : ∀ p ∈ ([pMopi 0 10 12 0 0 0] : List Posted), Runs tiles p :=
  runs_of_ok (by decide +kernel)

/-- Each instruction may begin at once in a small state. -/
theorem witness_MemoryCopyAndRegisterBodiesComplete_body : ∀ p ∈ ([pVfredsumt 8 10 12 0, pVfredmax 8 10 12 0, pVfredmin 8 10 12 0, pVfscan 8 10 12 0, pVqbs 8 10 12 0] : List Posted), Runs floats p :=
  runs_of_ok (by decide +kernel)

/-- Each instruction may begin at once in a small state. -/
theorem witness_MemoryCopyAndRegisterBodiesComplete_swap : ∀ p ∈ ([pVkswap 8 10 12 0, pVkswapi 8 10 5 0] : List Posted), Runs ints p :=
  runs_of_ok (by decide +kernel)

/-! ### Accesses to plain storage -/

/-- Whether the executed elements of an access of `n` bytes lie in the scratchpad. -/
def elemsOk (s : State) (p : Posted) (mode : VMode) (w n : Nat) : Bool :=
  (List.range (s.h.vl * s.h.vrows)).all fun j => !runsAt s p j || spadOk s (elemVa s p mode w j) n (plainKey s (elemVa s p mode w j))

/-- The hypotheses of the statements on elements, whatever the access writes: the instruction begins, memory is quiet, the shape has elements, and every executed
element lies in plain storage. -/
def ElemsPlaced (s : State) (p : Posted) (mode : VMode) (w n : Nat) : Prop :=
  Runs s p ∧ Quiet s ∧ s.h.vl * s.h.vrows ≠ 0 ∧ (∃ j, runsAt s p j = true) ∧ ∃ key : Nat → Nat, ∀ j, runsAt s p j = true →
    ∀ D kind path, kind ≠ .fetch → PlainAt s s.h.level D (elemVa s p mode w j) n kind path (key j) ∧ Sound s (key j) n

/-- An access that the checkers accept meets them. -/
theorem elems_of_ok {s : State} {p : Posted} {mode : VMode} {w n : Nat}
    (h : (runsOk s p && quietOk s && soundOk s && (s.h.vl * s.h.vrows != 0) && (List.range (s.h.vl * s.h.vrows)).any (runsAt s p) && elemsOk s p mode w n) = true) :
    ElemsPlaced s p mode w n := by
  simp only [Bool.and_eq_true, bne_iff_ne, ne_eq, List.any_eq_true] at h
  obtain ⟨⟨⟨⟨⟨h1, h2⟩, h3⟩, h4⟩, ⟨j, -, h5⟩⟩, h6⟩ := h
  refine ⟨run_of_ok h1, quiet_of_ok h2, h4, ⟨j, h5⟩, fun j => plainKey s (elemVa s p mode w j), ?_⟩
  intro j hj D kind path hk
  have hlt : j < s.h.vl * s.h.vrows := by
    unfold runsAt at hj
    simp only [Bool.and_eq_true, decide_eq_true_eq] at hj
    exact hj.1
  have := List.all_eq_true.mp h6 j (List.mem_range.mpr hlt)
  rw [hj, Bool.not_true, Bool.false_or] at this
  exact ⟨spad_of_ok this _ _ hk _, sound_of_ok h3 _ _⟩

/-- The same of several accesses of one width. -/
def elemsAll (s : State) (w n : Nat) (l : List (Posted × VMode)) : Bool :=
  l.all fun x => runsOk s x.1 && quietOk s && soundOk s && (s.h.vl * s.h.vrows != 0) && (List.range (s.h.vl * s.h.vrows)).any (runsAt s x.1) && elemsOk s x.1 x.2 w n

/-- Accesses that the checker accepts meet them. -/
theorem elemsAll_of_ok {s : State} {w n : Nat} {l : List (Posted × VMode)} (h : elemsAll s w n l = true) : ∀ x ∈ l, ElemsPlaced s x.1 x.2 w n :=
  fun x hx => elems_of_ok (List.all_eq_true.mp h x hx)

/-- Indices of a multiple of 4 in v12, two of them equal, and of v5. -/
def indexed (s : State) : State := withV s 6 32 [(12, [0, 4, 4, 8]), (5, [0, 4, 4, 8])]

/-- Loads and stores of 32-bit elements in each mode. -/
theorem witness_MemoryCopyAndRegisterBodiesComplete : ∀ x ∈ ([(pVld 8 12 0 0 2 0, .unit), (pVlds 8 12 6 0 2 0, .strided), (pVldx 8 12 12 0 2 0, .indexed),
      (pVldxo 8 12 12 0 0 2 0, .ordered), (pVst 5 12 0 0 0 2, .unit), (pVsts 5 12 6 0 0 2, .strided), (pVstx 5 12 12 0 0 2, .indexed),
      (pVstxo 5 12 12 0 0 0 2, .ordered)] : List (Posted × VMode)), ElemsPlaced (indexed mems) x.1 x.2 32 4 := elemsAll_of_ok (by decide +kernel)

/-- The same under a mask that is not full. -/
theorem witness_MemoryCopyAndRegisterBodiesComplete_masked : ∀ x ∈ ([(pVld 8 12 2 0 2 0, .unit), (pVst 5 12 2 0 0 2, .unit)] : List (Posted × VMode)),
    ElemsPlaced (mems.mod fun h => { h with m := h.m.set 2 ((Vector.replicate 16 0#2048).set 0 0b101#2048) }) x.1 x.2 32 4 := elemsAll_of_ok (by decide +kernel)

/-- Elements of 4 bits, two to a byte. -/
theorem witness_MemoryCopyAndRegisterBodiesComplete_nibbles : memBits (vtEt nibs.h.vtype) 0 = 4 ∧
    ∀ x ∈ ([(pVld 8 12 0 0 0 0, .unit), (pVst 5 12 0 0 0 0, .unit)] : List (Posted × VMode)), ElemsPlaced nibs x.1 x.2 4 1 :=
  ⟨by decide +kernel, elemsAll_of_ok (by decide +kernel)⟩

/-- A narrow load that extends the sign, and a store that counts and writes the word at VNOTA. -/
theorem witness_MemoryCopyAndRegisterBodiesComplete_narrow : (memBits (vtEt mems.h.vtype) 0 = 8 ∧ 8 < width mems ∧ ElemsPlaced mems (pVld 8 12 0 0 0 1) .unit 8 1) ∧
    let s := mems.mod fun h => { h with vnota := pad + 0x800#64 }
    ElemsPlaced s (pVst 5 12 0 0 1 2) .unit 32 4 ∧ s.h.vnota ≠ 0#64 ∧ ∀ D, PlainAt s s.h.level D s.h.vnota.toNat 8 .store .aux (plainKey s s.h.vnota.toNat) :=
  ⟨⟨by decide +kernel, by decide +kernel, elems_of_ok (by decide +kernel)⟩, elems_of_ok (by decide +kernel), by decide +kernel,
    fun D => spad_of_ok (by decide +kernel) _ D (by decide) _⟩

/-- Atomics on aligned elements, two of them at one address. -/
theorem witness_MemoryCopyAndRegisterBodiesComplete_atomics : (∀ x ∈ ([pVamoadd 8 10 5 0, pVamoand 8 10 5 0, pVamoor 8 10 5 0, pVamoxor 8 10 5 0, pVamomin 8 10 5 0,
      pVamomax 8 10 5 0, pVamominu 8 10 5 0, pVamomaxu 8 10 5 0, pVamoswap 8 10 5 0, pVsca 8 10 5 0, pVscamax 8 10 5 0, pVscamin 8 10 5 0] : List Posted),
      ElemsPlaced (indexed mems) x .indexed 32 4) ∧ (∀ x ∈ ([pVamofadd 8 10 5 0, pVscao 8 10 5 0] : List Posted), ElemsPlaced (indexed memf) x .indexed 32 4) := by
  have h := elemsAll_of_ok (s := indexed mems) (w := 32) (n := 4) (l := [pVamoadd 8 10 5 0, pVamoand 8 10 5 0, pVamoor 8 10 5 0, pVamoxor 8 10 5 0, pVamomin 8 10 5 0,
      pVamomax 8 10 5 0, pVamominu 8 10 5 0, pVamomaxu 8 10 5 0, pVamoswap 8 10 5 0, pVsca 8 10 5 0, pVscamax 8 10 5 0, pVscamin 8 10 5 0].map (·, .indexed)) (by decide +kernel)
  have g := elemsAll_of_ok (s := indexed memf) (w := 32) (n := 4) (l := [pVamofadd 8 10 5 0, pVscao 8 10 5 0].map (·, .indexed)) (by decide +kernel)
  exact ⟨fun x hx => h (x, .indexed) (List.mem_map_of_mem hx), fun x hx => g (x, .indexed) (List.mem_map_of_mem hx)⟩

/-- Their elements are aligned, and those of different addresses apart. -/
theorem witness_MemoryCopyAndRegisterBodiesComplete_aligned : ∀ p ∈ [pVamoadd 8 10 5 0, pVsca 8 10 5 0], ∀ j ∈ List.range 8, ∀ l ∈ List.range 8,
    let s := indexed mems
    let va (j : Nat) : Nat := elemVa s p .indexed 32 j
    va j % 4 = 0 ∧ (va j = va l ∨ plainKey s (va j) + 4 ≤ plainKey s (va l) ∨ plainKey s (va l) + 4 ≤ plainKey s (va j)) := by decide +kernel

/-- Whether the bytes of a mask access lie in the scratchpad. -/
def maskOk (s : State) (p : Posted) : Bool :=
  (List.range s.h.vrows).all fun k => (List.range s.h.vl).all fun y => spadOk s (maskVa s p k y) 1 (plainKey s (maskVa s p k y))

/-- They are then plain storage. -/
theorem mask_of_ok {s : State} {p : Posted} (h : maskOk s p = true) {k y : Nat} (hm : maskByte s p k y) (D : Nat → Prop) {kind : AccKind} (hk : kind ≠ .fetch) :
    PlainAt s s.h.level D (maskVa s p k y) 1 kind .vector (plainKey s (maskVa s p k y)) := by
  unfold maskOk at h
  obtain ⟨h1, h2, -⟩ := hm
  exact spad_of_ok (List.all_eq_true.mp (List.all_eq_true.mp h k (List.mem_range.mpr h1)) y (List.mem_range.mpr (by omega))) _ _ hk _

/-- A mask is loaded and stored. -/
theorem witness_MemoryCopyAndRegisterBodiesComplete_mask : (∀ p ∈ [pVlm 1 10, pVsm 1 10], Runs mems p) ∧ Quiet mems ∧ mems.h.vl * mems.h.vrows ≠ 0 ∧
    maskByte mems (pVlm 1 10) 1 0 ∧ maskByte mems (pVsm 1 10) 0 0 ∧
    (∀ k y, maskByte mems (pVlm 1 10) k y → PlainAt mems mems.h.level noByte (maskVa mems (pVlm 1 10) k y) 1 .load .vector (plainKey mems (maskVa mems (pVlm 1 10) k y)) ∧
      Sound mems (plainKey mems (maskVa mems (pVlm 1 10) k y)) 1) ∧
    ∀ k y, maskByte mems (pVsm 1 10) k y → ∀ D, PlainAt mems mems.h.level D (maskVa mems (pVsm 1 10) k y) 1 .store .vector (plainKey mems (maskVa mems (pVsm 1 10) k y)) :=
  ⟨runs_of_ok (by decide +kernel), quiet_of_ok (by decide +kernel), by decide +kernel, by unfold maskByte; decide +kernel, by unfold maskByte; decide +kernel,
    fun k y h => ⟨mask_of_ok (by decide +kernel) h _ (by decide), sound_of_ok (by decide +kernel) _ _⟩,
    fun k y h D => mask_of_ok (by decide +kernel) h D (by decide)⟩

/-! ### Levels, tiles, queues, streams and copies in plain storage -/

/-- f5 with the entries (3, 0) and (5, 9); in the scratchpad a compressed level of one row, with the coordinates 3 and 5 and the values 7 and 9, its descriptor at x10,
whose row x11 names; MR and MC 2. -/
def levels : State :=
  let s := (withX mems [(10, pad + 0x200#64), (11, 0#64)]).modHart 0 fun h =>
    { h with mvl := 0x0202#16
             f := h.f.set 5 { valid := true, et := 2#4, lmap := 15#4, occ := 2, coords := 0x0000000500000003#8192, vals := 0x0000000900000000#8192 } }
  withBytes s (spadKey 0 0x200) (natLe 8 (pad.toNat + 0x400) ++ natLe 8 (pad.toNat + 0x500) ++ natLe 8 (pad.toNat + 0x600) ++ natLe 8 1 ++ natLe 8 2 ++
    List.replicate 0x1D8 0#8 ++ natLe 8 0 ++ natLe 8 2 ++ List.replicate 0xF0 0#8 ++ natLe 4 3 ++ natLe 4 5 ++ List.replicate 0xF8 0#8 ++ natLe 4 7 ++ natLe 4 9)

/-- That level. -/
def level : PlacedLevel :=
  { kd := spadKey 0 0x200, kp := fun q => spadKey 0 0x400 + 8 * q, kc := fun q => spadKey 0 0x500 + 4 * q, kv := fun q => spadKey 0 0x600 + 4 * q
    desc := { pos := pad.toNat + 0x400, crd := pad.toNat + 0x500, val := pad.toNat + 0x600, npos := 1, et := 2#4 } }

/-- Whether the descriptor of the level is where an instruction reads it, and its POS entries, coordinates and values may be accessed. -/
def levelOk (p : Posted) : Bool :=
  runsOk levels p && quietOk levels && soundOk levels && decide ((levels.h.newEntry p).opa.toNat % 8 = 0) &&
  spadOk levels (levels.h.newEntry p).opa.toNat 64 level.kd && (descOf (leNat (levels.mem.peek level.kd 64)) == some level.desc) &&
  (List.range 2).all fun q => spadOk levels ((level.desc.pos + 8 * q) % 2 ^ 64) 8 (level.kp q) && spadOk levels ((level.desc.crd + 4 * q) % 2 ^ 64) 4 (level.kc q) &&
    spadOk levels ((level.desc.val + q * etBits level.desc.et / 8) % 2 ^ 64) level.size (level.kv q)

/-- What the checker shows. -/
theorem level_of_ok {p : Posted} (h : levelOk p = true) : Runs levels p ∧ Quiet levels ∧ (∀ path D, level.placed levels p path D) ∧ (∀ k n, Sound levels k n) ∧
    ∀ q, q < 2 → ∀ D, level.posAt levels D q ∧ ∀ kind path, kind ≠ .fetch → level.crdAt levels D kind path q ∧ level.valAt levels D kind path q := by
  unfold levelOk at h
  simp only [Bool.and_eq_true, beq_iff_eq, decide_eq_true_eq] at h
  obtain ⟨⟨⟨⟨⟨⟨h1, h2⟩, h3⟩, h4⟩, h5⟩, h6⟩, h7⟩ := h
  have hs := sound_of_ok h3
  refine ⟨run_of_ok h1, quiet_of_ok h2, fun path D => ⟨h4, spad_of_ok h5 _ D (by decide) path, hs _ _, h6⟩, hs, ?_⟩
  intro q hq D
  have := List.all_eq_true.mp h7 q (List.mem_range.mpr hq)
  simp only [Bool.and_eq_true] at this
  exact ⟨⟨spad_of_ok this.1.1 _ D (by decide) _, hs _ _⟩, fun kind path hk => ⟨spad_of_ok this.1.2 _ D hk path, fun _ => spad_of_ok this.2 _ D hk path⟩⟩

/-- POS, and the lengths that follow from it. -/
theorem level_pos : level.pos levels 0 = 0 ∧ level.pos levels 1 = 2 ∧ (levels.h.newEntry (pFld 4 5)).opb.toNat = 0 ∧ (levels.h.newEntry (pFst 5 5)).opb.toNat = 0 ∧
    levels.h.vstart = 0#32 ∧ fibreIn levels 5 = [(3, 0), (5, 9)] := by decide +kernel

/-- A fibre of two entries is loaded from a row of that level. -/
theorem witness_FibreAndMatrixInstructionsComplete_load : let p := pFld 4 5
    Runs levels p ∧ Quiet levels ∧ level.placed levels p .vector noByte ∧ 0 < level.desc.npos ∧ level.posAt levels noByte 0 ∧ level.posAt levels noByte 1 ∧
    level.pos levels 0 = 0 ∧ level.pos levels 1 = 2 ∧
    ∀ q, q < 2 → level.crdAt levels noByte .load .vector (0 + q) ∧ Sound levels (level.kc (0 + q)) 4 ∧ level.valAt levels noByte .load .vector (0 + q) ∧
      (level.desc.val ≠ 0 → Sound levels (level.kv (0 + q)) level.size) := by
  obtain ⟨h1, h2, h3, h4, h5⟩ := level_of_ok (p := pFld 4 5) (by decide +kernel)
  refine ⟨h1, h2, h3 _ _, by decide, (h5 0 (by decide) _).1, (h5 1 (by decide) _).1, level_pos.1, level_pos.2.1, fun q hq => ?_⟩
  rw [Nat.zero_add]
  exact ⟨((h5 q hq _).2 .load .vector (by decide)).1, h4 _ _, ((h5 q hq _).2 .load .vector (by decide)).2, fun _ => h4 _ _⟩

/-- Two entries are stored there. -/
theorem witness_FibreAndMatrixInstructionsComplete_store : let p := pFst 5 5
    let inCrd (o q : Nat) : Prop := o < 2 ∧ 2 * level.kc o ≤ q ∧ q < 2 * level.kc o + 8
    let inVal (o q : Nat) : Prop := o < 2 ∧ level.desc.val ≠ 0 ∧ 2 * level.kv o ≤ q ∧ q < 2 * level.kv o + 8
    Runs levels p ∧ Quiet levels ∧ (∀ D, level.placed levels p .vector D) ∧ (∀ D, level.posAt levels D 0 ∧ level.posAt levels D 1) ∧
    (∀ o, o < 2 → ∀ D, level.crdAt levels D .store .vector o ∧ level.valAt levels D .store .vector o) ∧ etBits level.desc.et ≠ 4 ∧
    ∀ o j q, (inCrd o q → ¬ inVal j q) ∧ (inCrd o q → inCrd j q → o = j) ∧ (inVal o q → inVal j q → o = j) := by
  obtain ⟨h1, h2, h3, h4, h5⟩ := level_of_ok (p := pFst 5 5) (by decide +kernel)
  refine ⟨h1, h2, fun D => h3 _ D, fun D => ⟨(h5 0 (by decide) D).1, (h5 1 (by decide) D).1⟩, fun o ho D => (h5 o ho D).2 .store .vector (by decide), by decide, ?_⟩
  intro o j q
  simp only [level, spadKey]
  omega

/-- A coordinate is looked up in the row that the first entry names; the row of the second does not exist. -/
theorem witness_FibreAndMatrixInstructionsComplete_lookUp : let p := pFwalk 4 5 5
    Runs levels p ∧ Quiet levels ∧ level.placed levels p .engine noByte ∧
    ∀ y ∈ fibreIn levels 5, y.2 < level.desc.npos → level.posAt levels noByte y.2 ∧ level.posAt levels noByte (y.2 + 1) ∧
      ∀ q, level.pos levels y.2 ≤ q → q < level.pos levels (y.2 + 1) → level.crdAt levels noByte .load .pointer q ∧ Sound levels (level.kc q) 4 ∧
        level.valAt levels noByte .load .engine q ∧ (level.desc.val ≠ 0 → Sound levels (level.kv q) level.size) := by
  obtain ⟨h1, h2, h3, h4, h5⟩ := level_of_ok (p := pFwalk 4 5 5) (by decide +kernel)
  refine ⟨h1, h2, h3 _ _, ?_⟩
  rw [level_pos.2.2.2.2.2]
  intro y hy hn
  simp only [List.mem_cons, List.not_mem_nil, or_false] at hy
  have h0 : y.2 = 0 := by
    have : y.2 < 1 := hn
    omega
  rw [h0, level_pos.1, level_pos.2.1]
  exact ⟨(h5 0 (by decide) _).1, (h5 1 (by decide) _).1, fun q _ hq =>
    ⟨((h5 q hq _).2 .load .pointer (by decide)).1, h4 _ _, ((h5 q hq _).2 .load .engine (by decide)).2, fun _ => h4 _ _⟩⟩

/-- A tile of two by two elements in the scratchpad, its rows 8 bytes apart. -/
def tiled : State := withX levels [(10, pad + 0x200#64), (12, 8#64)]

/-- It is loaded and stored. -/
theorem witness_FibreAndMatrixInstructionsComplete_tile : let key (p : Posted) (x y : Nat) : Nat := plainKey tiled (regionVa tiled p x y)
    (∀ p ∈ [pMld 0 10 12, pMst 0 10 12], Runs tiled p) ∧ Quiet tiled ∧ tiled.h.mr = 2 ∧ tiled.h.mc = 2 ∧
    ∀ p ∈ [pMld 0 10 12, pMst 0 10 12], (∀ x y, x < 2 → y < 2 → (∀ D kind, kind ≠ .fetch → PlainAt tiled tiled.h.level D (regionVa tiled p x y) 4 kind .engine (key p x y)) ∧
      Sound tiled (key p x y) 4) ∧
      ∀ x ∈ List.range 2, ∀ y ∈ List.range 2, ∀ i ∈ List.range 2, ∀ j ∈ List.range 2, (x, y) = (i, j) ∨ key p x y + 4 ≤ key p i j ∨ key p i j + 4 ≤ key p x y := by
  refine ⟨runs_of_ok (by decide +kernel), quiet_of_ok (by decide +kernel), by decide +kernel, by decide +kernel, fun p hp => ⟨fun x y hx hy => ⟨fun D kind hk => ?_, ?_⟩, ?_⟩⟩
  · have h : ([pMld 0 10 12, pMst 0 10 12].all fun p => (List.range 2).all fun x => (List.range 2).all fun y =>
        spadOk tiled (regionVa tiled p x y) 4 (plainKey tiled (regionVa tiled p x y))) = true := by decide +kernel
    exact spad_of_ok (List.all_eq_true.mp (List.all_eq_true.mp (List.all_eq_true.mp h p hp) x (List.mem_range.mpr hx)) y (List.mem_range.mpr hy)) _ D hk _
  · exact sound_of_ok (by decide +kernel) _ _
  · revert p hp; decide +kernel

/-- A hart ready for copies: CPROW 8, a scratchpad address in x8, and addresses of memory in x10 and x11. -/
def copies : State := (withX (withSpad (shaped 2 1 1 1)) [(8, pad), (10, 0x10000#64), (11, 0x11000#64)]).modHart 0 fun h => { h with cprow := 8#32 }

/-- Whether the bytes of a plan lie in plain storage, those read and those written apart, and the hart has chunks to spare. -/
def copyOk (s : State) (p : Posted) (plan : CopyPlan) : Bool :=
  let src (o : Nat) : Nat := (plan.src (o / plan.len) + o % plan.len) % 2 ^ 64
  let dst (o : Nat) : Nat := (plan.dst (o / plan.len) + o % plan.len) % 2 ^ 64
  runsOk s p && quietOk s && soundOk s && decide (s.chunksOut s.cur (s.h.newEntry p) < 32) &&
  (List.range plan.total).all (fun o => plainOk s (src o) 1 && plainOk s (dst o) 1) &&
  (List.range plan.total).all fun o => (List.range plan.total).all fun q =>
    decide (plainKey s (dst o) ≠ plainKey s (src q)) && decide (plainKey s (dst o) = plainKey s (dst q) → o = q)

/-- The key of byte `o` of a side. -/
def sideKey (s : State) (len : Nat) (side : Nat → Nat) (o : Nat) : Nat := plainKey s ((side (o / len) + o % len) % 2 ^ 64)

/-- What the checker shows. -/
theorem copy_of_ok {s : State} {p : Posted} {plan : CopyPlan} (h : copyOk s p plan = true) :
    Runs s p ∧ Quiet s ∧ CopyPlaced s p plan (sideKey s plan.len plan.dst) (sideKey s plan.len plan.src) ∧
    Apart fun a => ∃ o, o < plan.total ∧ a = sideKey s plan.len plan.dst o := by
  unfold copyOk at h
  simp only [Bool.and_eq_true, decide_eq_true_eq] at h
  obtain ⟨⟨⟨⟨⟨h1, h2⟩, h3⟩, h4⟩, h5⟩, h6⟩ := h
  have hb : ∀ o, o < plan.total → plainOk s ((plan.src (o / plan.len) + o % plan.len) % 2 ^ 64) 1 = true ∧
      plainOk s ((plan.dst (o / plan.len) + o % plan.len) % 2 ^ 64) 1 = true := fun o ho => by
    have := List.all_eq_true.mp h5 o (List.mem_range.mpr ho)
    simpa [Bool.and_eq_true] using this
  have hD : Apart fun a => ∃ o, o < plan.total ∧ a = sideKey s plan.len plan.dst o := apart_of_ok (s := s) fun a ⟨o, ho, ha⟩ =>
    ⟨_, 1, (hb o ho).2, by rw [ha]; exact Nat.le_refl _, by rw [ha]; exact Nat.lt_succ_self _⟩
  refine ⟨run_of_ok h1, quiet_of_ok h2, ⟨fun o ho => ⟨plain_of_ok (hb o ho).1 _ hD (by decide) _, sound_of_ok h3 _ _, plain_of_ok (hb o ho).2 _ hD (by decide) _⟩, ?_, h4⟩, hD⟩
  intro o q ho hq
  have := List.all_eq_true.mp (List.all_eq_true.mp h6 o (List.mem_range.mpr ho)) q (List.mem_range.mpr hq)
  rw [Bool.and_eq_true, decide_eq_true_eq, decide_eq_true_eq] at this
  exact this

/-- A gather of rows into the scratchpad, and a scatter out of it. -/
theorem witness_MemoryCopyAndRegisterBodiesComplete_rows : copies.h.vl * copies.h.vrows ≠ 0 ∧
    (let p := pGsp 8 10 12 0; let plan := gatherPlan false copies.h (copies.h.newEntry p)
     Runs copies p ∧ Quiet copies ∧ inWindow (copies.h.newEntry p).opa.toNat plan.total = true ∧ ∃ kd ks, CopyPlaced copies p plan kd ks) ∧
    (let p := pSsp 10 8 12 0; let plan := gatherPlan true copies.h (copies.h.newEntry p)
     Runs copies p ∧ Quiet copies ∧ inWindow (copies.h.newEntry p).opb.toNat plan.total = true ∧ ∃ kd ks, CopyPlaced copies p plan kd ks) := by
  have g := copy_of_ok (s := copies) (p := pGsp 8 10 12 0) (plan := gatherPlan false copies.h (copies.h.newEntry (pGsp 8 10 12 0))) (by decide +kernel)
  have k := copy_of_ok (s := copies) (p := pSsp 10 8 12 0) (plan := gatherPlan true copies.h (copies.h.newEntry (pSsp 10 8 12 0))) (by decide +kernel)
  exact ⟨by decide +kernel, ⟨g.1, g.2.1, by decide +kernel, _, _, g.2.2.1⟩, k.1, k.2.1, by decide +kernel, _, _, k.2.2.1⟩

/-- The descriptor of a bulk copy of two rows of 4 bytes, 8 bytes apart. -/
def bulkDesc : List Byte := natLe 8 0 ++ natLe 8 0x11000 ++ natLe 8 0x12000 ++ natLe 8 4 ++ natLe 8 2 ++ natLe 8 8 ++ natLe 8 8

/-- A bulk copy, posted by either copy instruction. -/
theorem witness_MemoryCopyAndRegisterBodiesComplete_bulk : let s := withBytes copies 0x10000 bulkDesc
    let d := leNat (s.mem.peek 0x10000 64)
    ∀ x ∈ [(pCpy 10 0, false), (pCpyr 10 0, true)], Runs s x.1 ∧ Quiet s ∧ (s.h.newEntry x.1).opa.toNat % 8 = 0 ∧ Sound s 0x10000 64 ∧ copyKind d = 0 ∧
      copyBad x.2 (decide (s.h.level = .u)) (decide (x.1.m ≠ 0#3)) d = false ∧ (bulkPlan d).total = 8 ∧ ∃ kd ks, CopyPlaced s x.1 (bulkPlan d) kd ks ∧
      PlainAt s s.h.level (fun a => ∃ o, o < (bulkPlan d).total ∧ a = kd o) (s.h.newEntry x.1).opa.toNat 64 .load .engine 0x10000 := by
  intro s d x hx
  have h : [(pCpy 10 0, false), (pCpyr 10 0, true)].all (fun x => copyOk s x.1 (bulkPlan d) && decide ((s.h.newEntry x.1).opa = 0x10000#64) &&
      !copyBad x.2 (decide (s.h.level = .u)) (decide (x.1.m ≠ 0#3)) d) = true := by decide +kernel
  have hx := List.all_eq_true.mp h x hx
  simp only [Bool.and_eq_true, decide_eq_true_eq, Bool.not_eq_true'] at hx
  have g := copy_of_ok hx.1.1
  have hp : plainOk s 0x10000 64 = true := by decide +kernel
  refine ⟨g.1, g.2.1, by rw [hx.1.2]; decide, sound_of_ok (by decide +kernel) _ _, by decide +kernel, hx.2, by decide +kernel, _, _, g.2.2.1, ?_⟩
  rw [hx.1.2]
  exact plain_of_ok hp _ g.2.2.2 (by decide) _

/-- A queue of 64 entries with its descriptor and its ring in memory. -/
def queued : State := withBytes copies 0x10000 (natLe 8 0x11000 ++ natLe 2 6)

/-- Byte `o` of the ring lies in memory. -/
theorem ring_placed (D : Nat → Prop) (hD : Apart D) (o : Nat) (h : o < 256) : PlainAt queued queued.h.level D (0x11000 + o) 1 .store .vector (0x11000 + o) := by
  have hp : plainOk queued (0x11000 + o) 1 = true := by
    have hl : lowOk queued = true := by decide +kernel
    unfold plainOk spadBase
    rw [if_pos (by omega), hl]
    simp only [Bool.true_and, Bool.and_eq_true, decide_eq_true_eq]
    omega
  have hk : plainKey queued (0x11000 + o) = 0x11000 + o := by unfold plainKey spadBase; rw [if_pos (by omega)]
  have := plain_of_ok hp queued.h.level hD (kind := .store) (by decide) .vector
  rwa [hk] at this

/-- One entry is appended. -/
theorem witness_MemoryCopyAndRegisterBodiesComplete_append : let p := pCapp 9 10 11 0; let s := queued; let e := s.h.newEntry p
    let act := runsBelow s p (s.h.vl * s.h.vrows); let d := s.mem.peek 0x10000 64; let ring (o : Nat) : Nat := 0x11000 + o
    let D (a : Nat) : Prop := (0x10000 ≤ a ∧ a < 0x10000 + 64) ∨ ∃ o, o < 4 * 64 ∧ a = ring o
    Runs s p ∧ Quiet s ∧ e.opa.toNat = 0x10000 ∧ 0x10000 < spadBase ∧
    (∀ kind path, kind ≠ .fetch → PlainAt s s.h.level D 0x10000 64 kind path 0x10000) ∧ Sound s 0x10000 64 ∧ act.length = 1 ∧ cappBad d act.length = false ∧
    2 ^ sliceNat d 8 1 = 64 ∧ sliceNat d 16 8 = 0 ∧ sliceNat d 24 8 = 0 ∧ sliceNat d 32 8 = 0 ∧ sliceNat d 0 8 = 0x11000 ∧
    (∀ o, o < 4 * 64 → PlainAt s s.h.level D (0x11000 + o) 1 .store .vector (ring o) ∧ (ring o < 0x10000 ∨ 0x10000 + 64 ≤ ring o)) ∧
    (∀ o q, o < 4 * 64 → q < 4 * 64 → ring o = ring q → o = q) ∧ sliceNat d 40 8 = 0 := by
  intro p s e act d ring D
  have hD : Apart D := by
    rintro a (h | ⟨o, h, rfl⟩)
    · exact .inl (by omega)
    · exact .inl (by show 0x11000 + o < _; omega)
  have hp : plainOk s 0x10000 64 = true := by decide +kernel
  have hk : plainKey s 0x10000 = 0x10000 := by unfold plainKey; rw [if_pos (by decide)]
  refine ⟨run_of_ok (by decide +kernel), quiet_of_ok (by decide +kernel), by decide +kernel, by decide, fun kind path hf => ?_, sound_of_ok (by decide +kernel) _ _, by decide +kernel,
    by decide +kernel, by decide +kernel, by decide +kernel, by decide +kernel, by decide +kernel, by decide +kernel, fun o ho => ⟨ring_placed D hD o ho, ?_⟩, ?_, by decide +kernel⟩
  · have := plain_of_ok hp s.h.level hD hf path
    rwa [hk] at this
  · exact .inr (by show _ ≤ 0x11000 + o; omega)
  · intro o q _ _ h
    have : 0x11000 + o = 0x11000 + q := h
    omega

/-- A control block of 8 elements of i32 in strips of 4. -/
def bound : State := withBytes copies 0x10000 (natLe 8 0x11000 ++ natLe 8 0 ++ natLe 8 8 ++ natLe 8 4 ++ natLe 2 4 ++ natLe 1 2)

/-- It is bound to v9, with an engine free. -/
theorem witness_MemoryCopyAndRegisterBodiesComplete_bind : ∃ bd, Runs bound (pSbind 9 10) ∧ Quiet bound ∧ bound.h.bindSlot 9 = some 0 ∧ (bound.x 10).toNat = 0x10000 ∧
    PlainAt bound bound.h.level noByte 0x10000 64 .load .aux 0x10000 ∧ Sound bound 0x10000 64 ∧ bindingOf bound.h.vtype 9 (bound.x 10) (bound.mem.peek 0x10000 64) = some bd ∧
    bound.core.boundEngines.length < 4 ∧ bound.core.streamWaiters = [] := by
  have h : (bindingOf bound.h.vtype 9 (bound.x 10) (bound.mem.peek 0x10000 64)).isSome = true := by decide +kernel
  obtain ⟨bd, hb⟩ := Option.isSome_iff_exists.mp h
  have hk : plainKey bound 0x10000 = 0x10000 := by unfold plainKey; rw [if_pos (by decide)]
  have hp := plain_of_ok (s := bound) (va := 0x10000) (n := 64) (by decide +kernel) bound.h.level apart_none (kind := .load) (by decide) .aux
  rw [hk] at hp
  exact ⟨bd, run_of_ok (by decide +kernel), quiet_of_ok (by decide +kernel), by decide +kernel, by decide +kernel, hp, sound_of_ok (by decide +kernel) _ _, hb, by decide +kernel, by decide +kernel⟩

/-- A binding may be ended and moved. -/
theorem witness_MemoryCopyAndRegisterBodiesComplete_position : (∀ p ∈ [pSunbind 9, pSpos 9 10, pCwait 8], Runs bound p) := runs_of_ok (by decide +kernel)

/-! ### Further hypotheses of the statements on vector instructions -/

/-- The shapes of the test states have elements. -/
theorem witness_shapes : ints.h.vl * ints.h.vrows ≠ 0 ∧ floats.h.vl * floats.h.vrows ≠ 0 ∧ tiles.h.vrows = 1 := by decide +kernel

/-- A floating-point type, and a rounding mode of FCSR. -/
theorem witness_FloatingPoint_modes : etFmt (vtEt floats.h.vtype) = some .f32 ∧ rmodeOf floats.h.rm.toNat = some .rne ∧
    rmodeOf (4#3).toNat = some .rtz := by decide +kernel

/-- No position of an empty mask is hit. -/
theorem witness_MaskInstructionResults_first : firstHit ints (pMbefore 3 1 0) 1 16 ∧ firstHit ints (pMincl 3 1 0) 1 16 ∧
    firstHit ints (pMonly 3 1 0) 1 16 := by
  unfold firstHit; decide +kernel

/-- Segments are off. -/
theorem witness_reductions : ints.h.vseg.getLsbD 3 = false ∧ floats.h.vseg.getLsbD 3 = false := by decide +kernel

/-- Two entries in f5. -/
def fibred : State := floats.modHart 0 fun h =>
  { h with f := h.f.set 5 { valid := true, et := 2#4, lmap := 15#4, occ := 2, coords := 0x0000000500000003#8192, vals := 0x0000000900000007#8192 } }

/-- f5 holds the pairs (3, 7) and (5, 9), and f6 none. -/
theorem witness_FibreIntersectionAndDifference : fibreIn fibred 5 = [(3, 7), (5, 9)] ∧ fibreIn fibred 6 = [] ∧
    Rising (fibreIn fibred 5) ∧ Rising (fibreIn fibred 6) ∧ fibred.h.vstart = 0#32 ∧
    (fibreIn fibred 5).length ≤ fmaxOf (fibreType fibred 5) (vtGroups fibred.h.vtype) := by
  unfold Rising; decide +kernel

/-- The instructions of that statement may begin there. -/
theorem witness_FibreIntersectionAndDifference_runs : ∀ p ∈ ([pFisect 4 5 6 0, pFdiff 4 5 6] : List Posted), Runs fibred p :=
  runs_of_ok (by decide +kernel)

/-- The entries of f5 in the order of their coordinates, those of each coordinate in the order that they have. -/
theorem witness_FibreAndMatrixInstructionsComplete_sort : (fibreIn fibred 5).Pairwise (fun x y => x.1 ≤ y.1) ∧
    ∀ k, (fibreIn fibred 5).filter (fun x => x.1 == k) = (fibreIn fibred 5).filter fun x => x.1 == k := ⟨by decide +kernel, fun _ => rfl⟩

/-- The infinities of a format; a shape in which `vqbs` has an element to do. -/
theorem witness_MemoryCopyAndRegisterBodiesComplete_infinities : 0x7F800000 < 2 ^ fmtBits .f32 ∧ 0xFF800000 < 2 ^ fmtBits .f32 ∧ fpDecode .f32 0x7F800000 = .inf false ∧
    fpDecode .f32 0xFF800000 = .inf true ∧ (floats.h.newEntry (pVqbs 8 10 12 0)).prog < floats.h.vl * floats.h.vrows := by decide +kernel

/-- A hart that is alone, in no gang, and the rows of a slice. -/
theorem witness_FibreAndMatrixInstructionsComplete_alone : (floats.gangMembers floats.cur).length ≤ 1 ∧ floats.h.gangBound = false ∧
    tiles.h.gangBound = false ∧ tiles.h.vstart = 0#32 := by decide +kernel

/-! ### Decoding, the step and the state -/

/-- Whether the next word of a state is a given one. -/
def nextIs (s : State) (w : IWord) : Bool := match s.nextWord with | .ok (x, _) => x == w | .error _ => false

/-- The state behind the next word, where the checker finds it. -/
theorem nextWord_of_ok {s : State} {w : IWord} (h : nextIs s w = true) : ∃ t, s.nextWord = .ok (w, t) := by
  unfold nextIs at h
  split at h
  · rename_i x t hx; exact ⟨t, by rw [hx, eq_of_beq h]⟩
  · cases h

/-- A well-formed instruction with an encoding, and a word that decodes. -/
theorem witness_DecodeOfEncode_EncodeOfDecode : (Instr.addi 5 0 3).wf = true ∧ encode (.addi 5 0 3) = some 0x0CA00003#32 ∧
    decodeWord 0x0CA00003#32 = .ok (.addi 5 0 3) := by decide +kernel

/-- A placed instruction is the next word and decodes. -/
theorem witness_StepRunsDecodedInstruction : ∃ t, (State.reset.withFetchWord 32 0x0CA00003).arrivals = [] ∧ (State.reset.withFetchWord 32 0x0CA00003).fab.turned = [] ∧
    (State.reset.withFetchWord 32 0x0CA00003).nextWord = .ok (0x0CA00003#32, t) ∧ decodeWord 0x0CA00003#32 = .ok (.addi 5 0 3) := by
  obtain ⟨t, h⟩ := nextWord_of_ok (s := State.reset.withFetchWord 32 0x0CA00003) (w := 0x0CA00003#32) (by decide +kernel)
  exact ⟨t, rfl, rfl, h, witness_DecodeOfEncode_EncodeOfDecode.2.2⟩

/-- A placed word that does not decode. -/
theorem witness_StepRunsDecodedInstruction_reserved : ∃ t, (State.reset.withFetchWord 32 0).nextWord = .ok (0#32, t) ∧
    decodeWord 0#32 = .error .major := by
  obtain ⟨t, h⟩ := nextWord_of_ok (s := State.reset.withFetchWord 32 0) (w := 0#32) (by decide +kernel)
  exact ⟨t, h, by decide +kernel⟩

/-- After reset no hart runs, so that there is no next word. -/
theorem witness_StepRunsDecodedInstruction_none : State.reset.arrivals = [] ∧ State.reset.fab.turned = [] ∧ ∃ t, State.reset.nextWord = .error t := by
  refine ⟨rfl, rfl, ?_⟩
  have h : (match State.reset.nextWord with | .error _ => true | .ok _ => false) = true := by decide +kernel
  split at h
  · rename_i t ht; exact ⟨t, ht⟩
  · cases h

/-- The fetch finds its four bytes in memory. -/
theorem witness_StepRunsDecodedInstruction_fetch : ∃ k enc p g bs t t', base.h.pc.toNat % 4 = 0 ∧
    base.locate base.whoScalar base.h.pc.toNat 4 .fetch .scalar = .ok (.hbm k enc p g, t) ∧ t.icacheRead t.whoScalar enc k = (some bs, t') := by
  have h : (match base.locate base.whoScalar base.h.pc.toNat 4 .fetch .scalar with
      | .ok (.hbm k enc _ _, t) => (t.icacheRead t.whoScalar enc k).1.isSome
      | _ => false) = true := by decide +kernel
  split at h
  · rename_i k enc p g t hl
    obtain ⟨bs, hb⟩ := Option.isSome_iff_exists.mp h
    exact ⟨k, enc, p, g, bs, t, _, by decide +kernel, hl, Prod.ext hb rfl⟩
  · cases h

/-- A pending event lands now, or it does not. -/
theorem witness_StepRunsDecodedInstruction_arrival : ({ State.reset with arrivals := [.powerOn] } : State).arrivals = .powerOn :: [] ∧
    (Config.landsNow 0 = true ∨ Config.landsNow 0 = false) := ⟨rfl, by cases Config.landsNow 0 <;> simp⟩

/-- Memory after reset is canonical, and a step from reset answers a state. -/
theorem witness_EveryStepKeepsMemoryCanonical : State.reset.mem.wf = true ∧ ∃ t, step State.reset = .next t := by
  refine ⟨by decide +kernel, ?_⟩
  obtain ⟨-, -, t, h⟩ := witness_StepRunsDecodedInstruction_none
  refine ⟨t, ?_⟩
  change State.coreStep State.reset = _
  unfold State.coreStep
  rw [h]

/-- Bytes below, at and above a write of two bytes. -/
theorem witness_StoredBytesReadBack : Memory.reset.wf = true ∧ (4 < 5 ∨ 5 + ([1#8, 2#8] : List Byte).length ≤ 4) ∧
    (7 < 5 ∨ 5 + ([1#8, 2#8] : List Byte).length ≤ 7) ∧ ∀ a, cellGet Memory.reset.cells a = cellGet Memory.reset.cells a :=
  ⟨by decide, by decide, by decide, fun _ => rfl⟩

/-! ### Scalar instructions -/

/-- A hart with empty queues and no prefix is in no scalar instruction's way. -/
theorem clear_of_idle {s : State} (hp : s.h.pfxNext = false) (hq : s.h.queue = []) (rs : List XNum) : Clear s rs := by
  refine ⟨hp, ?_⟩
  simp [Hart.anyPending, Hart.pendingX, hq]

/-- The base state is in no scalar instruction's way, whatever it reads. -/
theorem clear_base (rs : List XNum) : Clear base rs := clear_of_idle (by decide +kernel) (by decide +kernel) rs

/-- Nor in that of an instruction of majors 0x30 and 0x32. -/
theorem clearSync_base (rs : List XNum) : ClearSync base rs := ⟨clear_base rs, by decide +kernel⟩

/-- An entry that will write x9 stands in the queue. -/
def pending : State := base.modHart 0 fun h => { h with queue := [h.newEntry (pMpop 9 1 0)] }

/-- A prefix stands before the instruction; or a register that it reads is pending. -/
theorem witness_ScalarWaitsForPendingRegister : (base.mod fun h => { h with pfxNext := true }).h.pfxNext = true ∧
    pending.h.pfxNext = false ∧ pending.h.anyPending [9#5, 3#5] = true := by decide +kernel

/-- An encoded mode, the mode of FCSR, and a field that names none. -/
theorem witness_ScalarFloatingPointResults : Mode base 4 .rtz ∧ Mode base 7 .rne ∧
    rmode 7 (base.mod fun h => { h with fcsr := 5#9 }).h.rm = none ∧ Clear base [1, 2, 3] :=
  ⟨by unfold Mode; decide +kernel, by unfold Mode; decide +kernel, by decide +kernel, clear_base _⟩

/-- NaNs, signalling ones, zeros of both signs and ordered numbers of f32. -/
theorem witness_ComparisonsFollowIeeeOrder : let d := fpDecode .f32
    0x7FC00000 < 2 ^ fmtBits .f32 ∧ (d 0x7FC00000).isNaN = true ∧ (d 0x7F800001).isSNaN = true ∧ (d 0x3F800000).isNaN = false ∧
    (d 0).isZero = true ∧ (d 0x80000000).isZero = true ∧ (0 : Nat) ≠ 0x80000000 ∧ (fpCompare .f32 .lt 0xBF800000 0x3F800000).1 = true ∧
    (d 0xBF800000).isNaN = false := by decide +kernel

/-! ### Loads, stores and atomics -/

/-- x1 holds an aligned address, x2 an odd one, x3 an address of the device's own domain on the fabric, x4 a value, and the hart a
reservation. -/
def addressed : State := withX (base.mod fun h => { h with resv := some 0x400 }) [(1, 0x10000#64), (2, 0x10001#64), (3, 0x8000000000000000#64), (4, 1#64)]

/-- Nothing stands in the way of its scalar instructions. -/
theorem clear_addressed (rs : List XNum) : Clear addressed rs := clear_of_idle (by decide +kernel) (by decide +kernel) rs

/-- A word at the address lies in plain storage, for each kind of access. -/
theorem placed_addressed : (∃ u, PlacedAt addressed 0x10000 8 .load .scalar 0x10000 u) ∧ (∃ u, PlacedAt addressed 0x10000 8 .store .scalar 0x10000 u) ∧
    (∃ u, PlacedAt addressed 0x10000 8 .atomic .atomic 0x10000 u) ∧ (∃ u, PlacedAt addressed 0x10000 8 .load .atomic 0x10000 u) :=
  ⟨placed_of_ok (by decide +kernel), placed_of_ok (by decide +kernel), placed_of_ok (by decide +kernel), placed_of_ok (by decide +kernel)⟩

/-- A load of a double word at the last place of a page. -/
theorem witness_ScalarLoadReadsItsBytes : let va := (addressed.x 1 + (0xFF8#13).signExtend 64).toNat
    Clear addressed [1] ∧ addressed.h.stbuf = [] ∧ va = 0x10FF8 ∧ addressed.sameBytes false va 8 = false ∧
    (∃ u, PlacedAt addressed va (2 ^ ((3#3).toNat % 4)) .load .scalar 0x10FF8 u) ∧ Sound addressed 0x10FF8 8 ∧
    ∀ l ∈ addressed.core.dcache, l.line ∉ linesOf 0x10FF8 8 :=
  ⟨clear_addressed _, by decide +kernel, by decide +kernel, by decide +kernel, placed_of_ok (by decide +kernel), sound_of_ok (by decide +kernel) _ _, by decide +kernel⟩

/-- A store of a byte below the base, and one of a double word on the line of the hart's reservation. -/
theorem witness_ScalarStoreWritesItsBytes : Clear addressed [4, 1] ∧ NoStores addressed ∧ addressed.sameBytes true 0xFFFF 1 = false ∧ addressed.sameBytes true 0x10000 8 = false ∧
    (∃ u, PlacedAt addressed (addressed.x 1 + (0x1FFF#13).signExtend 64).toNat (2 ^ (0#2).toNat) .store .scalar 0xFFFF u) ∧
    (∃ u, PlacedAt addressed (addressed.x 1 + (0#13).signExtend 64).toNat (2 ^ (3#2).toNat) .store .scalar 0x10000 u) ∧
    addressed.harts[(0 : Fin 4)].resv = some 0x400 ∧ 0x400 ∈ linesOf 0x10000 8 :=
  ⟨clear_addressed _, ⟨by decide +kernel, by decide +kernel⟩, by decide +kernel, by decide +kernel, placed_of_ok (by decide +kernel), placed_of_ok (by decide +kernel),
    by decide +kernel, by decide +kernel⟩

/-- A misaligned and an aligned atomic, the latter with a release. -/
theorem witness_AtomicResults : Clear addressed [1, 4, 5] ∧ Clear addressed [1, 4] ∧ (addressed.x 2).toNat % 8 ≠ 0 ∧ addressed.h.stbuf = [] ∧
    (addressed.x 1).toNat % 8 = 0 ∧ addressed.performed addressed.cur 1 = true ∧ addressed.sameBytes true (addressed.x 1).toNat 8 = false ∧ Sound addressed 0x10000 8 ∧
    ∃ u, PlacedAt addressed (addressed.x 1).toNat 8 .atomic .atomic 0x10000 u :=
  ⟨clear_addressed _, clear_addressed _, by decide +kernel, by decide +kernel, by decide +kernel, by decide +kernel, by decide +kernel,
    sound_of_ok (by decide +kernel) _ _, placed_of_ok (by decide +kernel)⟩

/-- A misaligned address, an aligned one with its reservation held and not, and one of the fabric. -/
theorem witness_ReservationRule : Clear addressed [1] ∧ Clear addressed [1, 4] ∧ (addressed.x 2).toNat % 8 ≠ 0 ∧ (addressed.x 1).toNat % 8 = 0 ∧
    addressed.h.stbuf = [] ∧ addressed.h.resv = some (0x10000 / 64) ∧ addressed.h.resv ≠ some (0x10040 / 64) ∧ Sound addressed 0x10000 8 ∧
    (∀ n ∈ [1, 2, 3], addressed.sameBytes true (addressed.x (BitVec.ofNat 5 n)).toNat 8 = false) ∧
    (∃ u, PlacedAt addressed (addressed.x 1).toNat 8 .load .atomic 0x10000 u) ∧ (∃ u, PlacedAt addressed (addressed.x 1).toNat 8 .atomic .atomic 0x10000 u) ∧
    2 ^ 63 ≤ (addressed.x 3).toNat ∧ domainOf (BitVec.ofNat 19 ((addressed.x 3).toNat / 2 ^ 44)) = domainOf addressed.fab.epid :=
  ⟨clear_addressed _, clear_addressed _, by decide +kernel, by decide +kernel, by decide +kernel, by decide +kernel, by decide +kernel,
    sound_of_ok (by decide +kernel) _ _, by decide +kernel, placed_of_ok (by decide +kernel), placed_of_ok (by decide +kernel), by decide +kernel, by decide +kernel⟩

/-! ### Control, traps and system instructions -/

/-- Registers that compare in each way. -/
theorem witness_BranchRule : Clear addressed [1, 2] ∧ addressed.x 5 = addressed.x 6 ∧ addressed.x 1 ≠ addressed.x 2 ∧
    (addressed.x 1).toInt < (addressed.x 2).toInt ∧ ¬ (addressed.x 2).toInt < (addressed.x 1).toInt ∧ (addressed.x 1).toNat < (addressed.x 3).toNat ∧
    ¬ (addressed.x 3).toNat < (addressed.x 1).toNat := ⟨clear_addressed _, by decide +kernel⟩

/-- Return stacks of 0, 15 and 16 entries, with and without a frame. -/
theorem witness_JumpsCallsAndReturns : Clear base [1] ∧ Clear base [] ∧ (List.replicate 15 4#64).length < 16 ∧
    (base.mod fun h => { h with rs := List.replicate 16 4#64, emuf := 0#64 }).h.rs.length = 16 ∧
    (base.mod fun h => { h with rs := [4#64] }).h.rs = 4#64 :: [] ∧ (base.mod fun h => { h with emuf := 0#64 }).h.rs = [] ∧
    (base.mod fun h => { h with emuf := 0#64 }).h.emuf = 0#64 ∧ Clear (base.mod fun h => { h with rs := List.replicate 16 4#64, emuf := 0#64 }) [] :=
  ⟨clear_base _, clear_base _, by decide, by decide +kernel, by decide +kernel, by decide +kernel, by decide +kernel,
    clear_of_idle (by decide +kernel) (by decide +kernel) _⟩

/-- A hart at S with a handler, one without, and one at E. -/
theorem witness_TrapEntryRule : base.h.level ≠ .e ∧ base.h.etvec ≠ 0#64 ∧ (base.mod fun h => { h with etvec := 0#64 }).h.etvec = 0#64 ∧
    (base.mod fun h => { h with level := .e }).h.level = .e ∧ cILL ≠ cPFFETCH ∧ cILL ≠ cPFLOAD ∧ cILL ≠ cPFSTORE := by decide +kernel

/-- A hart that may take the traps of `svc` and `brk`. -/
theorem witness_SystemCallsBreakpointsAndReturn : Clear base [] ∧ base.h.level ≠ .e ∧ base.h.etvec ≠ 0#64 :=
  ⟨clear_base _, by decide +kernel⟩

/-- Scalar instructions in nothing's way, for the statements whose only premise that is. -/
theorem witness_clear : Clear base [] ∧ Clear base [1] ∧ Clear base [1, 2] ∧ base.h.pfxNext = false ∧ base.h.queue = [] :=
  ⟨clear_base _, clear_base _, clear_base _, by decide +kernel, by decide +kernel⟩

/-- EV set and clear, accesses performed, and the levels that may and may not invalidate. -/
theorem witness_WaitsFencesAndSignals : (base.mod fun h => { h with ev := true }).h.ev = true ∧ Clear (base.mod fun h => { h with ev := true }) [] ∧
    base.h.ev = false ∧ base.performed base.cur 3 = true ∧ base.h.level ≠ .u ∧ (base.mod fun h => { h with level := .u }).h.level = .u ∧
    Clear (base.mod fun h => { h with level := .u }) [1] ∧ (∀ c, base.myCtx = some c → c.compat ≠ some true ∨ c.preempted = false) := by
  refine ⟨by decide +kernel, clear_of_idle (by decide +kernel) (by decide +kernel) _, by decide +kernel, by decide +kernel, by decide +kernel, by decide +kernel,
    clear_of_idle (by decide +kernel) (by decide +kernel) _, ?_⟩
  intro c hc
  have h : base.myCtx = some fetchCtx := by decide +kernel
  rw [h] at hc; cases hc; exact .inl (by decide)

/-- A register that may be read and written, one that may not be written, and one that waits for no queue or an empty one. -/
theorem witness_ControlRegisterRule : crIllegal 0x100 true base.h.level = false ∧ crIllegal 0x010 false base.h.level = false ∧
    crIllegal 0x010 true base.h.level = true ∧ crIllegal 0x000 false base.h.level = true ∧ base.h.queue = [] ∧ (0x100 : Nat) ≠ 0xC04 := by decide +kernel

/-- A hart ready for an emulation at S; one whose queues are held; one that emulates; one at U without a frame. -/
theorem witness_EmulationRule : RetiredReady base ∧ RetiredReady ints ∧ (vtEt ints.h.vtype).toNat ≤ 7 ∧ ints.h.matrixOn = true ∧
    (base.mod fun h => { h with held := true }).h.held = true ∧ (base.mod fun h => { h with emulating := true }).h.emulating = true ∧
    (base.mod fun h => { h with emulating := true }).h.level = .s ∧ (base.mod fun h => { h with level := .u, emuf := 0#64 }).h.emuf = 0#64 ∧
    base.h.held = false ∧ base.h.stbuf = [] := by
  unfold RetiredReady; decide +kernel

/-- A retired form writes its frame and enters the handler: ETVEC + 0x80 at E (R376). -/
theorem test_smac_enters : (match exec (.smac 1 2 3) base with | .next t => t.h.pc == 0x4080#64 && t.h.level == .e | _ => false) = true := by decide +kernel

/-- Any byte of a frame of the base state lies in memory, whatever of the first GiB the form writes. -/
theorem frame_plain {s : State} (hl : lowOk s = true) (he : s.h.emuf = 0x8000#64) (D : Nat → Prop) (hD : Apart D) {kind : AccKind} (hk : kind ≠ .fetch) (o : Nat)
    (h : o < 0x10000) : PlainAt s .s D (s.h.emuf.toNat + o) 1 kind .aux (0x8000 + o) := by
  have e : s.h.emuf.toNat = 0x8000 := by rw [he]; rfl
  have hp : plainOk s (0x8000 + o) 1 = true := by
    unfold plainOk spadBase
    rw [if_pos (by omega), hl]
    simp only [Bool.true_and, Bool.and_eq_true, decide_eq_true_eq]
    omega
  have hk' : plainKey s (0x8000 + o) = 0x8000 + o := by unfold plainKey spadBase; rw [if_pos (by omega)]
  have := plain_of_ok hp .s hD hk .aux
  rw [hk'] at this
  rw [e]
  exact this

/-- The parts of a frame end below 64 KiB where its areas do. -/
theorem frame_bound {s : State} {w : IWord} {cls : Nat} {x y : Word} {l : List (Nat × List Byte)} (hl : ∀ q ∈ l, q.1 + q.2.length ≤ 0x10000) :
    ∀ q ∈ frameParts s w cls x y l, q.1 + q.2.length ≤ 0x10000 := by
  intro q hq
  unfold frameParts at hq
  simp only [List.mem_append, List.mem_cons, List.not_mem_nil, or_false] at hq
  rcases hq with (rfl | rfl | rfl | rfl | rfl | rfl | rfl | rfl | rfl | rfl | rfl | rfl) | hq <;> first | exact hl q hq | simp [natLe]

/-- The frame of every retired form of such a state lies in memory: with areas that end below 64 KiB, and those of each form do. -/
theorem witness_EmulationRule_frame : Quiet ints ∧ (∀ (w : IWord) cls (x y : Word) l, (∀ q ∈ l, q.1 + q.2.length ≤ 0x10000) →
      let key (o : Nat) : Nat := 0x8000 + o
      let holds (o : Nat) (b : Byte) : Prop := ∃ q ∈ frameParts ints w cls x y l, q.1 ≤ o ∧ o < q.1 + q.2.length ∧ b = q.2.getD (o - q.1) 0#8
      (∀ o b, holds o b → PlainAt ints .s (fun a => ∃ o b, holds o b ∧ a = key o) (ints.h.emuf.toNat + o) 1 .store .aux (key o)) ∧
      ∀ o q b c, holds o b → holds q c → key o = key q → o = q) ∧
    ∀ (m : MReg) (a b : VNum) (n : BitVec 2), ∀ l ∈ [[], [(0x80, maskArea m), (0x1080, rowArea ints a 16), (0x5080, rowArea ints b 16)],
      [(0x80, maskArea m), (0x1080, rowArea ints a 16)], [(0x1080, rowArea ints a 1), (0x5080, rowArea ints b 1), (0x9080, tileArea (ints.core.tile n))],
      [(0x9080, tileArea (ints.core.tile n))]], ∀ q ∈ l, q.1 + q.2.length ≤ 0x10000 := by
  refine ⟨quiet_of_ok (by decide +kernel), fun w cls x y l hl => ?_, ?_⟩
  · intro key holds
    have hb : ∀ o b, holds o b → o < 0x10000 := fun o b ⟨q, hq, _, h, _⟩ => Nat.lt_of_lt_of_le h (frame_bound hl q hq)
    refine ⟨fun o b h => frame_plain (by decide +kernel) (by decide +kernel) _ ?_ (by decide) o (hb o b h), fun o q b c _ _ h => ?_⟩
    · rintro a ⟨o, b, h, rfl⟩
      have := hb o b h
      exact .inl (by show 0x8000 + o < _; omega)
    · have : 0x8000 + o = 0x8000 + q := h
      omega
  · intro m a b n l hl q hq
    simp only [List.mem_cons, List.not_mem_nil, or_false] at hl
    rcases hl with rfl | rfl | rfl | rfl | rfl <;> simp only [List.mem_cons, List.not_mem_nil, or_false] at hq
    · rcases hq with rfl | rfl | rfl <;> simp [maskArea, rowArea]
    · rcases hq with rfl | rfl <;> simp [maskArea, rowArea]
    · rcases hq with rfl | rfl | rfl <;> simp [rowArea, tileArea]
    · subst hq; simp [tileArea]

/-- A hart at E with a frame of each class: a vector of two rows of four elements, or a tile. -/
def emulated (cls : Byte) : State :=
  withBytes (ints.mod fun h => { h with level := .e, emulating := true }) 0x8060 ([4, 0, 2, cls, 0xF2, 0] ++ List.replicate 4 0)

/-- Its accesses have performed, and its frame can be read. -/
theorem witness_EmulationRule_return : ∀ cls ∈ ([0, 1, 2] : List Byte), let s := emulated cls
    Clear s [] ∧ s.h.level = .e ∧ s.performed s.cur 1 = true ∧ Quiet s ∧ PlainAt s .s noByte (s.h.emuf.toNat + 0x40) 64 .load .aux 0x8040 ∧ (∀ k n, Sound s k n) ∧
    sliceNat (s.mem.peek 0x8040 64) 0x23 1 = cls.toNat ∧ min 16 (sliceNat (s.mem.peek 0x8040 64) 0x22 1) = 2 ∧
    (∀ o, o < 0x10000 → PlainAt s .s noByte (s.h.emuf.toNat + o) 1 .load .aux (0x8000 + o)) ∧ (∀ c, s.myCtx = some c → c.preempted = false) ∧ s.h.queue = [] := by
  intro cls hc s
  have h : ([0, 1, 2] : List Byte).all (fun c => !(emulated c).h.pfxNext && (emulated c).h.queue.isEmpty && ((emulated c).h.level == .e) && (emulated c).performed (emulated c).cur 1 &&
      quietOk (emulated c) && lowOk (emulated c) && ((emulated c).h.emuf == 0x8000#64) && (sliceNat ((emulated c).mem.peek 0x8040 64) 0x23 1 == c.toNat) &&
      (min 16 (sliceNat ((emulated c).mem.peek 0x8040 64) 0x22 1) == 2) && plainOk (emulated c) 0x8040 64 && ((emulated c).myCtx == some fetchCtx)) = true := by decide +kernel
  have h := List.all_eq_true.mp h cls hc
  simp only [Bool.and_eq_true, beq_iff_eq, Bool.not_eq_true', List.isEmpty_iff] at h
  obtain ⟨⟨⟨⟨⟨⟨⟨⟨⟨⟨h1, h2⟩, h3⟩, h4⟩, h5⟩, h6⟩, h7⟩, h8⟩, h9⟩, h10⟩, h11⟩ := h
  have hs : soundOk s = true := by
    unfold lowOk at h6
    simp only [Bool.and_eq_true] at h6
    exact h6.1.1.1.1.1.1.2
  have hk : plainKey s 0x8040 = 0x8040 := by unfold plainKey; rw [if_pos (by decide)]
  have hp := plain_of_ok h10 .s apart_none (kind := .load) (by decide) .aux
  rw [hk] at hp
  refine ⟨clear_of_idle h1 h2 _, h3, h4, quiet_of_ok h5, ?_, fun k n => sound_of_ok hs k n, h8, h9, fun o ho => frame_plain h6 h7 _ apart_none (by decide) o ho, ?_, h2⟩
  · have e : s.h.emuf.toNat = 0x8000 := by rw [h7]; rfl
    rw [e]; exact hp
  · intro c hc
    rw [h11] at hc
    cases hc; rfl

/-- Elements of a register that is not VALID, at or above LEN, and inside. -/
theorem witness_ElementReadsZero : VReg.none.valid = false ∧ (4 : Nat) ≤ 4 ∧ ({ VReg.none with valid := true, len := 4, nrows := 1 } : VReg).valid = true ∧
    3 < ({ VReg.none with valid := true, len := 4, nrows := 1 } : VReg).len ∧ 0 < ({ VReg.none with valid := true, len := 4, nrows := 1 } : VReg).nrows := by decide

/-! ### Lane groups, matrix mode, fences and tasks -/

/-- A shape asked for with groups to grant, at a hart without a queue; and one with none. -/
theorem witness_VectorShapeRule : vtGroups (base.askLanes (lgCount 0)).1.h.vtype ≠ 0#4 ∧ base.h.queue = [] ∧ base.h.releases = [] ∧ base.h.status = .running ∧
    vtGroups (State.askLanes { base with core := { base.core with lanes := Vector.replicate 4 (.held 1) } } (lgCount 0)).1.h.vtype = 0#4 ∧
    Clear base [1] ∧ Clear base [1, 2] ∧ Clear base [] :=
  ⟨by decide +kernel, by decide +kernel, by decide +kernel, by decide +kernel, by decide +kernel, clear_base _, clear_base _, clear_base _⟩

/-- The progress word of `setvlp` lies in plain storage. -/
theorem witness_VectorShapeRule_progress : Clear addressed [1, 4] ∧ addressed.h.stbuf = [] ∧ Sound addressed 0x10000 8 ∧
    addressed.sameBytes false (addressed.x 1 &&& ~~~7#64).toNat 8 = false ∧ ∃ u, PlacedAt addressed (addressed.x 1 &&& ~~~7#64).toNat 8 .load .aux 0x10000 u :=
  ⟨clear_addressed _, by decide +kernel, sound_of_ok (by decide +kernel) _ _, by decide +kernel, placed_of_ok (by decide +kernel)⟩

/-- A state in which an instruction stands in the queue of hart 0. -/
def posted' (s : State) (p : Posted) : State := s.modHart 0 fun h => { h with queue := [h.newEntry p] }

/-- Matrix mode held by this hart, by another, and by none; its feature accepted and not; tiles kept; and a change of accumulator types that
clears and that does not. -/
theorem witness_MatrixModeRule : State.reset.feat 3 = false ∧ base.feat 3 = true ∧ base.core.matrix = none ∧ base.core.matrixWaiters = [] ∧
    base.core.matrixResv = false ∧ ints.core.matrix = some ints.cur ∧ ints.h.matrixIdle = true ∧ base.h.matrixOn = false ∧ ints.h.matrixOn = true ∧
    ({ base with core := { base.core with matrix := some 2 } } : State).core.matrix = some 2 ∧ (2 : Fin 4) ≠ base.cur ∧
    (1#4 ^^^ (shaped 2 4 1 3).h.mstat.extractLsb' 6 4) &&& (shaped 2 4 1 3).h.mstat.extractLsb' 1 4 ≠ 0#4 ∧
    (0#4 ^^^ ints.h.mstat.extractLsb' 6 4) &&& ints.h.mstat.extractLsb' 1 4 = 0#4 ∧
    (∀ j : Fin 4, ({ base with core := { base.core with kept := some ⟨j, 3#4⟩ } } : State).core.kept = some ⟨j, 3#4⟩) ∧ (0 : Fin 4) = base.cur ∧
    ((posted' ints (pMzero 0)).h.matrixIdle = false) := by decide +kernel

/-- Nothing stands in the way of the matrix instructions. -/
theorem witness_MatrixModeRule_clear : Clear ints [1] ∧ Clear State.reset [] :=
  ⟨clear_of_idle (by decide +kernel) (by decide +kernel) _, clear_of_idle (by decide +kernel) (by decide +kernel) _⟩

/-- A task of hart 0 alone, with a work queue. -/
def task : Machine.Task :=
  { id := 0, ctxid := 0#32, gangid := 0#32, prio := 0, harts := 1, cmask := 1#384, here := [0], others := 0, hasQueue := true, next := 5,
    rem := 8, p := 1, minchunk := 1, maxchunk := 4, nmem := 1, map := 0#64, coord := 0#19, sampled := false, arrived := 0 }

/-- Hart 0 runs the task. -/
def tasked : State := { base with sched := { base.sched with tasks := [task] } }

/-- Harts 0 and 1 run a task of two harts. -/
def tasked2 : State :=
  { (tasked.modHart 1 fun h => { h with status := .running }) with sched := { tasked.sched with tasks := [{ task with harts := 2, here := [0, 1] }] } }

/-- Fences of performed accesses and of others; a heartbeat waited for; barriers alone and with a member that has not come; drains. -/
theorem witness_FencesAndBarriers : base.performed base.cur 4 = true ∧ (posted' mems (pVst 5 12 0 0 0 2)).performed 0 4 = false ∧ base.feat 8 = true ∧
    State.reset.feat 8 = false ∧ base.feat 13 = true ∧ base.h.status = .running ∧
    tasked.sched.tasks.find? (·.id = tasked.h.task) = some task ∧ tasked.cur ∈ task.here ∧ (∀ j ∈ task.here, j = tasked.cur) ∧ task.others = 0 ∧
    tasked2.sched.tasks.find? (·.id = tasked2.h.task) = some { task with harts := 2, here := [0, 1] } ∧
    tasked2.takesPart { task with harts := 2, here := [0, 1] } 1 = true ∧ tasked2.harts[(1 : Fin 4)].arrived 2 = false ∧ tasked2.performed tasked2.cur 2 = true ∧ tasked.performed tasked.cur 2 = true ∧ base.h.held = false ∧ base.drained base.cur = true ∧
    (base.mod fun h => { h with level := .e }).h.level = .e := by decide +kernel

/-- Nothing stands in the way of the instructions of majors 0x30 and 0x32 in those states; and a heartbeat that was waited for has come. -/
theorem witness_FencesAndBarriers_clear : ClearSync base [] ∧ ClearSync tasked [] ∧ ClearSync tasked2 [] ∧ Clear (posted' mems (pVst 5 12 0 0 0 2)) [] ∧ Clear State.reset [] ∧
    (let s := { (base.mod fun h => { h with status := .waiting (.tick 4) wFsc }) with clock := { base.clock with hbeat := 5#64 } }
     ClearSync s [] ∧ s.h.status = .waiting (.tick 4) wFsc ∧ 4 < s.clock.hbeat.toNat) :=
  ⟨clearSync_base _, ⟨clear_of_idle (by decide +kernel) (by decide +kernel) _, by decide +kernel⟩,
    ⟨clear_of_idle (by decide +kernel) (by decide +kernel) _, by decide +kernel⟩, ⟨by decide +kernel, by decide +kernel⟩,
    clear_of_idle (by decide +kernel) (by decide +kernel) _, ⟨clear_of_idle (by decide +kernel) (by decide +kernel) _, by decide +kernel⟩,
    by decide +kernel, by decide +kernel⟩

/-- An error queue of 64 entries at address 0x18000 that holds one, and a progress word. -/
def failed : State := addressed.mod fun h => { h with eqbase := 0x18006#64, eqtail := 1#32 }

/-- A progress word that is reached and one that is not; an empty error queue, and one with an entry that is read and stored. -/
theorem witness_ProgressWaitAndErrorQueue : base.h.eqtail = base.h.eqhead ∧ ClearSync failed [1, 4] ∧ ClearSync failed [1] ∧ failed.h.status = .running ∧
    failed.h.eqLog ≠ 0 ∧ failed.h.eqtail ≠ failed.h.eqhead ∧ (addressed.x 0).toNat ≤ leNat (addressed.mem.peek 0x10000 8) ∧
    leNat (addressed.mem.peek 0x10000 8) < (addressed.x 4).toNat ∧ failed.sameBytes false (failed.x 1 &&& ~~~7#64).toNat 8 = false ∧
    (∃ u, PlacedAt failed (failed.x 1 &&& ~~~7#64).toNat 8 .load .aux 0x10000 u) ∧ Quiet failed ∧ failed.h.queue = [] ∧ (∀ k n, Sound failed k n) ∧
    (∀ l ∈ failed.core.dcache, l.line ∉ linesOf 0x18000 64) ∧ let D (a : Nat) : Prop := 0x10000 ≤ a ∧ a < 0x10000 + 64
    PlainAt failed .s D (failed.h.eqSlot failed.h.eqhead) 64 .load .scalar 0x18000 ∧ PlainAt failed failed.h.level D (failed.x 1).toNat 64 .store .scalar 0x10000 := by
  have hc (l : List XNum) : ClearSync failed l := ⟨clear_of_idle (by decide +kernel) (by decide +kernel) _, by decide +kernel⟩
  have hk : plainKey failed 0x18000 = 0x18000 ∧ plainKey failed 0x10000 = 0x10000 := by unfold plainKey; decide
  have hD : Apart fun a => 0x10000 ≤ a ∧ a < 0x10000 + 64 := fun a h => .inl (by omega)
  have h1 := plain_of_ok (s := failed) (va := 0x18000) (n := 64) (by decide +kernel) .s hD (kind := .load) (by decide) .scalar
  have h2 := plain_of_ok (s := failed) (va := 0x10000) (n := 64) (by decide +kernel) failed.h.level hD (kind := .store) (by decide) .scalar
  have e1 : failed.h.eqSlot failed.h.eqhead = 0x18000 := by decide +kernel
  have e2 : (failed.x 1).toNat = 0x10000 := by decide +kernel
  rw [hk.1] at h1
  rw [hk.2] at h2
  refine ⟨by decide +kernel, hc _, hc _, by decide +kernel, by decide +kernel, by decide +kernel, by decide +kernel, by decide +kernel, by decide +kernel, placed_of_ok (by decide +kernel),
    quiet_of_ok (by decide +kernel), by decide +kernel, fun k n => sound_of_ok (by decide +kernel) k n, by decide +kernel, ?_⟩
  rw [e1, e2]
  exact ⟨h1, h2⟩

/-- Operands of `tsk` that are bad, out of reach and good; a record that is read; a work queue and none; targets of time reached and not. -/
theorem witness_TaskAndTimeResults : (addressed.x 2).toNat % 256 ≠ 0 ∧ (addressed.x 1).toNat % 256 = 0 ∧ (addressed.x 4).toNat ≤ 7 ∧
    spadBase ≤ (addressed.x 3).toNat ∧ (addressed.x 1).toNat < spadBase ∧ addressed.performed addressed.cur 4 = true ∧
    tasked.sched.tasks.find? (·.id = tasked.h.task) = some task ∧ task.hasQueue = true ∧ tasked.stopsHere true = false ∧
    (∀ k, base.sched.tasks.find? (·.id = base.h.task) = some k → k.hasQueue = false) ∧ base.feat 10 = true ∧ State.reset.feat 10 = false ∧
    base.timeState = .free ∧ (base.x 1).toNat ≤ base.clock.hbeat.toNat ∧ base.clock.hbeat.toNat < (addressed.x 1).toNat ∧ base.h.queue = [] ∧
    base.performed base.cur 4 = true ∧ base.hartRemote base.cur = false ∧ base.h.status = .running ∧ base.sched.starts = [] ∧ pending.h.queue ≠ [] := by
  refine ⟨by decide +kernel, by decide +kernel, by decide +kernel, by decide +kernel, by decide +kernel, by decide +kernel, by decide +kernel, by decide +kernel,
    by decide +kernel, ?_, by decide +kernel, by decide +kernel, by decide +kernel, by decide +kernel, by decide +kernel, by decide +kernel, by decide +kernel,
    by decide +kernel, by decide +kernel, by decide +kernel, by decide +kernel⟩
  intro k hk
  have h : base.sched.tasks.find? (·.id = base.h.task) = none := by decide +kernel
  rw [h] at hk; cases hk

/-- A record of a task that is read. -/
theorem witness_TaskAndTimeResults_record : ∃ bs u, addressed.load addressed.whoScalar (addressed.x 1).toNat 256 .engine = .ok bs u := by
  have h : (match addressed.load addressed.whoScalar (addressed.x 1).toNat 256 .engine with | .ok _ _ => true | _ => false) = true := by
    decide +kernel
  split at h
  · rename_i bs u hl; exact ⟨bs, u, hl⟩
  · cases h

/-- A record of gang 5 at instant 1,000,000 that waits at this member. -/
def gangRec : GangRec :=
  { raw := [], gangid := 5#32, ctxid := 0#32, job := 0#16, kind := 1, harts := 1, coord := 1#19, t := 1000000, hold := false, prepared := true, told := false,
    refused := false, passed := false, armed := true, wave := false, acted := false, finished := false, startTime := 0, compat := false, starts := [], queue := [] }

/-- Time that is locked: a target reached at once, and one behind the instant of a record, before which time cannot have passed. -/
theorem witness_TaskAndTimeResults_wait :
    let s := { addressed with clock := { addressed.clock with bell := Vector.replicate 2 { Bellwether.reset with tstate := .locked } }
                              sched := { addressed.sched with gangs := [{ gangRec with t := 1 }] } }
    s.timeState ≠ .free ∧ (s.x 0).toNat ≤ s.passTime.gtimeNs ∧ s.passTime.gtimeNs < (s.x 1).toNat := by
  intro s
  refine ⟨by decide +kernel, Nat.zero_le _, ?_⟩
  have hx : (s.x 1).toNat = 0x10000 := by decide +kernel
  have hz : s.clock.gtime = 0 := by decide +kernel
  have h : s.passTime.clock.gtime ≤ 65535 := by
    change max s.clock.gtime (s.sched.gangs.foldl (fun n g => if g.passed || g.t * 65536 ≤ s.clock.gtime then n else min n (g.t * 65536 - 1))
      (s.clock.gtime + Config.timeStep s.free)) ≤ 65535
    rw [hz, show s.sched.gangs = [{ gangRec with t := 1 }] from rfl]
    simp [gangRec]
  rw [hx]
  unfold State.gtimeNs
  omega

/-! ### Posts that wait, and events of harts and engines -/

/-- A schedule that is not eager: an instruction may be posted, its queues are held, a check fails, or an operand is pending. -/
theorem witness_PostCapturesAndQueues : let s : State := { ints with eager := false }
    Postable s (pVaddVx 8 10 5 0) ∧ s.eager = false ∧ (s.h.newEntry (pVaddVx 8 10 5 0)).strips = [] ∧
    (s.mod fun h => { h with held := true }).h.held = true ∧ (s.mod fun h => { h with held := true }).postBad (pVaddVx 8 10 5 0) = true ∧
    s.postBad (pVaddVx 8 10 5 0) = false ∧ (s.modHart 0 fun h => { h with queue := [h.newEntry (pMpop 5 1 0)] }).h.anyPending [5#5] = true :=
  ⟨postable_of_ok (by decide +kernel), by decide +kernel⟩

/-- A hart that waits with a word. -/
def waitsWith (w : IWord) : State := base.modHart 0 fun h => { h with status := .waiting .retry w }

/-- It waits neither for the fabric nor at a barrier. -/
theorem waitsWith_spec (w : IWord) : WaitsWith (waitsWith w) 0 w := by
  have hf : base.harts[(0 : Fin 4)].frozen = false := by decide +kernel
  refine ⟨?_, .retry, ?_, by simp, by simp⟩ <;> unfold waitsWith State.modHart
  · simpa using hf
  · simp

/-- Words of the instructions that may wait. -/
theorem witness_WaitEventsRunTheWaitingInstruction : (∀ i ∈ ([.smac 1 2 3, .smacz 1 2 3, .vaaddVv 1 2 3 0, .vaadduVv 1 2 3 0, .vasubVv 1 2 3 0,
      .vasubuVv 1 2 3 0, .vaaddVx 1 2 3 0, .vaadduVx 1 2 3 0, .vasubVx 1 2 3 0, .vasubuVx 1 2 3 0, .tmop 0 1 2, .tmzero 0, .fence 3, .lsync, .ifence,
      .gbar 3, .acqm 1, .drainw 5, .tdone, .wfp 1 2 3, .wfe, .gwait 1 2, .ld 1 2 3 0, .st 1 2 3 0, .tinv 1, .tinva] : List Instr), (encode i).isSome = true) ∧
    (∀ w, WaitsWith (waitsWith w) 0 w) ∧ base.harts[(0 : Fin 4)].status = .running :=
  ⟨by decide +kernel, waitsWith_spec, by decide +kernel⟩

/-- A hart whose queue holds one entry. -/
def posted (s : State) (p : Posted) (f : QEntry → QEntry) : State := s.modHart 0 fun h => { h with queue := [f (h.newEntry p)] }

/-- Whether an entry runs, to its end or further on. -/
def entryRunsOk (s : State) (h : Fin 4) (e : QEntry) (hi : QEntry → Nat) : Bool :=
  let b := if e.started = true then (s.harts[h], e) else s.harts[h].beginEntry e
  decide (s.harts[h].entry e.eid = some e) && s.mayRun h e && e.pend.isNone && b.2.strips.isEmpty &&
  (match (bodyRun h (hi b.2) b.2 ((s.modHart h fun _ => b.1).served h e.post.eng)).1 with
   | .done _ _ => true
   | .part _ _ => true
   | _ => false)

/-- An entry that the checker accepts runs. -/
theorem entryRuns_of_ok {s : State} {h : Fin 4} {e : QEntry} {hi : QEntry → Nat} (hk : entryRunsOk s h e hi = true) : ∃ t, EntryRuns s h e hi t := by
  unfold entryRunsOk at hk
  simp only [Bool.and_eq_true, decide_eq_true_eq, List.isEmpty_iff, Option.isNone_iff_eq_none] at hk
  obtain ⟨⟨⟨⟨h1, h2⟩, h3⟩, h4⟩, h5⟩ := hk
  split at h5
  · rename_i u e' hr
    exact ⟨_, h1, h2, h3, h4, _, _, rfl, .inl ⟨u, e', hr, rfl⟩⟩
  · rename_i u e' hr
    exact ⟨_, h1, h2, h3, h4, _, _, rfl, .inr ⟨u, e', hr, rfl⟩⟩
  · cases h5

/-- Whether an entry has not begun and may. -/
def beginsOk (s : State) (o : Option QEntry) : Bool :=
  match o with
  | some e => decide (s.harts[(0 : Fin 4)].entry e.eid = some e) && !e.started && s.mayRun 0 e
  | none => false

/-- Entries of the engines that may begin. -/
theorem witness_EngineAndUnitEvents_begins :
    (let s := posted ints (pFsort 4 5) id; beginsOk s (s.harts[(0 : Fin 4)].headOf .intersect) = true) ∧
    (let s := posted ints (pMzero 0) id; beginsOk s (s.harts[(0 : Fin 4)].headOf .matrix) = true) ∧
    (let s := posted copies (pCpy 10 0) id
     beginsOk s (s.harts[(0 : Fin 4)].queue.find? fun e => e.post.eng == .copy && !e.started) = true) := by decide +kernel

/-- Whether the head of an engine's queue has a property and runs. -/
def headRunsOk (s : State) (g : Engine) (hi : QEntry → Nat) (p : QEntry → Bool) : Bool :=
  match s.harts[(0 : Fin 4)].headOf g with
  | some e => p e && !e.apart && entryRunsOk s 0 e hi
  | none => false

/-- Such a head exists where the checker accepts. -/
theorem headRuns_of_ok {s : State} {g : Engine} {hi : QEntry → Nat} {p : QEntry → Bool} (hk : headRunsOk s g hi p = true) :
    ∃ e t, s.harts[(0 : Fin 4)].headOf g = some e ∧ p e = true ∧ e.apart = false ∧ EntryRuns s 0 e hi t := by
  unfold headRunsOk at hk
  split at hk
  · rename_i e he
    simp only [Bool.and_eq_true, Bool.not_eq_true'] at hk
    obtain ⟨t, ht⟩ := entryRuns_of_ok hk.2
    exact ⟨e, t, he, hk.1.1, hk.1.2, ht⟩
  · cases hk

/-- Heads of every engine that run. -/
theorem witness_EngineAndUnitEvents_heads :
    headRunsOk (posted ints (pMzero 0) id) .matrix QEntry.total (fun _ => true) = true ∧
    headRunsOk (posted ints (pVaddVv 8 10 12 0 0) id) (engineOf 0) QEntry.total (fun _ => true) = true ∧
    headRunsOk (posted ints (pMzero 0) id) (engineOf 1) QEntry.total (fun _ => true) = true ∧
    headRunsOk (posted ints (pFsort 4 5) id) (engineOf 2) QEntry.total (fun _ => true) = true ∧
    headRunsOk (posted ints (pSunbind 8) id) (engineOf 3) QEntry.total (fun _ => true) = true ∧
    headRunsOk (posted ints (pCwait 9) id) (engineOf 4) QEntry.total (fun _ => true) = true := by decide +kernel

/-- Whether the oldest entry with a property runs. -/
def triesOk (s : State) (p : QEntry → Bool) : Bool :=
  match s.harts[(0 : Fin 4)].queue.find? p with
  | some e => !e.apart && entryRunsOk s 0 e QEntry.total
  | none => false

/-- Such an entry exists where the checker accepts. -/
theorem tries_of_ok {s : State} {p : QEntry → Bool} (hk : triesOk s p = true) :
    ∃ e t, s.harts[(0 : Fin 4)].queue.find? p = some e ∧ e.apart = false ∧ EntryRuns s 0 e QEntry.total t := by
  unfold triesOk at hk
  split at hk
  · rename_i e he
    simp only [Bool.and_eq_true, Bool.not_eq_true'] at hk
    obtain ⟨t, ht⟩ := entryRuns_of_ok hk.2
    exact ⟨e, t, he, hk.1, ht⟩
  · cases hk

/-- A store that notifies, a copy that has begun, a wait for copies, an append and a bind. -/
theorem witness_EngineAndUnitEvents_tries :
    triesOk (posted mems (pVst 8 12 0 0 1 2) id) QEntry.notifies = true ∧
    triesOk (posted (withBytes copies 0x10000 bulkDesc) (pCpy 10 0) fun e => { e with started := true }) (fun e => e.post.body.isCopy && e.started) = true ∧
    triesOk (posted ints (pCwait 9) id) (fun e => e.post.body == .cwait) = true ∧
    triesOk (posted queued (pCapp 9 10 11 0) id) (fun e => e.post.body == .capp) = true ∧
    triesOk (posted ints (pSbind 8 10) id) (fun e => e.post.body == .sbind) = true := by decide +kernel

/-- A gang instruction whose other members have come. -/
theorem witness_EngineAndUnitEvents_joins :
    headRunsOk (posted ints pMgang fun e => { e with aux := 1 }) .matrix QEntry.total (fun e => e.post.body == .mat .gang 0 0 0 false) = true ∧
    headRunsOk (posted ints pMgsync fun e => { e with aux := 1 }) .matrix QEntry.total (fun e => e.post.body == .mat .gsync 0 0 0 false) = true := by
  decide +kernel

/-! ### Passes of lane groups, and data that arrives -/

/-- An entry that stands alone in the queue of hart 0, in a schedule of events. -/
def alone (s : State) (e : QEntry) : State := { s.modHart 0 (fun h => { h with queue := [e] }) with eager := false }

/-- An integer addition of four rows of four elements. -/
def adds : QEntry := ints.h.newEntry (pVaddVv 8 10 12 0 0)

/-- The one pass of each of its rows. -/
def rowPass (k : Nat) : LPass := ⟨4 * k, 4 * k + 4, false⟩

/-- It may be taken up, and lane group 0 stands before its first pass; a reduction is none of the instructions whose groups stand apart. -/
theorem witness_EngineAndUnitEvents_entry :
    (LoneVector (alone ints adds) 0 0 adds ∧ (alone ints adds).harts[(0 : Fin 4)].laneMay adds = true ∧ adds.laneBody.isSome = true ∧
      NextPass (alone ints adds) 0 0 adds LanePos.entered (rowPass 0) ∧ (alone ints adds).harts[(0 : Fin 4)].passMask adds (rowPass 0) = true) ∧
    (let e := ints.h.newEntry (pVredsum 8 10 12 0)
     LoneVector (alone ints e) 0 0 e ∧ (alone ints e).harts[(0 : Fin 4)].laneMay e = true ∧ e.laned = false ∧ e.started = false) := by
  unfold LoneVector NextPass
  decide +kernel

/-- The addition with its first pass, or its last, entered and to be written. -/
def entered (k : Nat) : QEntry :=
  { adds with started := true, prog := 4 * k, lanes := adds.lanes.set 0 ⟨4 * k + 4, 4 * k⟩ }

/-- A pass that is written, with more to come and as the last; and a reduction that goes on and that ends. -/
theorem witness_EngineAndUnitEvents_write : (∀ k ∈ [0, 3], LoneVector (alone ints (entered k)) 0 0 (entered k) ∧ (entered k).started = true ∧
      (entered k).laneBody.isSome = true ∧ (entered k).post.body ≠ .cvt none ∧ NextPass (alone ints (entered k)) 0 0 (entered k) LanePos.wrote (rowPass k) ∧
      (rowPass k).hi ≤ ((entered k).at_ 0).entered ∧ (rowPass k).lo ≤ (entered k).prog ∧ (entered k).ahead = [] ∧
      (alone ints (entered k)).harts[(0 : Fin 4)].releases = []) ∧ (rowPass 0).hi < adds.total ∧ adds.total ≤ (rowPass 3).hi ∧
    (∀ k ∈ [0, 12], let e := { ints.h.newEntry (pVredsum 8 10 12 0) with started := true, prog := k }
      LoneVector (alone ints e) 0 0 e ∧ e.laned = false ∧ (alone ints e).harts[(0 : Fin 4)].held = false ∧ (alone ints e).harts[(0 : Fin 4)].frozen = false ∧
      (match (bodyRun 0 e.wholeEnd e (alone ints e).byEvents).1 with | .part _ _ => k == 0 | .done _ _ => k == 12 | _ => false) = true) := by
  unfold LoneVector NextPass
  decide +kernel

/-- A load whose pass awaits its data. -/
def staged : QEntry := { mems.h.newEntry (pVld 8 12 0 0 2 0) with started := true, slots := [⟨0, 0, 4, none⟩] }

/-- Its bytes lie in plain storage, and nothing else is under way. -/
theorem witness_EngineAndUnitEvents_data : let s := alone mems staged
    s.harts[(0 : Fin 4)].queue = [staged] ∧ staged.post.body = .load .unit 2 0 false ∧ Quiet { s with cur := 0 } ∧ ∃ key : Nat → Nat,
    ∀ j ∈ ((List.range 4).map (0 + ·)).filter (fun j => staged.cap.active s.harts[(0 : Fin 4)] (j / staged.vl) (j % staged.vl)),
      let va := elemAddr .unit staged (s.harts[(0 : Fin 4)].vreg staged.post.b) 32 j
      PlainAt { s with cur := 0 } staged.level noByte va 4 .load .vector (key j) ∧ Sound s (key j) 4 := by
  intro s
  refine ⟨by decide +kernel, by decide +kernel, quiet_of_ok (by decide +kernel),
    fun j => plainKey s (elemAddr .unit staged (s.harts[(0 : Fin 4)].vreg staged.post.b) 32 j), ?_⟩
  intro j hj
  have h : (((List.range 4).map (0 + ·)).filter (fun j => staged.cap.active s.harts[(0 : Fin 4)] (j / staged.vl) (j % staged.vl))).all
      (fun j => spadOk { s with cur := 0 } (elemAddr .unit staged (s.harts[(0 : Fin 4)].vreg staged.post.b) 32 j) 4
        (plainKey s (elemAddr .unit staged (s.harts[(0 : Fin 4)].vreg staged.post.b) 32 j))) = true := by decide +kernel
  exact ⟨spad_of_ok (List.all_eq_true.mp h j hj) _ _ (by decide) _, sound_of_ok (by decide +kernel) _ _⟩

/-! ### Stores on their way -/

/-- A store of the buffer, one of a lane group's queue and one of a copy, to an address that holds no table entry. -/
def leaving : State := base.modHart 0 fun h => { h with
  stbuf := [⟨0x10000#64, 8, 5#64, 0#64, .s, none⟩]
  late := [⟨0x11000#64, [1#8, 2#8], 0#64, .s, some 0, (9, 0), none, none⟩, ⟨0x12000#64, [3#8], 0#64, .s, none, (9, 0), none, none⟩] }

/-- Each of them may perform, and so may another agent's. -/
theorem witness_EngineAndUnitEvents_stores : leaving.harts[(0 : Fin 4)].stbuf = ⟨0x10000#64, 8, 5#64, 0#64, .s, none⟩ :: [] ∧ leaving.mem.wf = true ∧
    leaving.mem.sca = [] ∧ leaving.mem.sealed = [] ∧ (∀ va ∈ [0x10000, 0x11000, 0x12000], leaving.bankMode va = none) ∧
    (∀ o ∈ [some (0 : Fin 4), none], ∃ b, leaving.harts[(0 : Fin 4)].late.find? (·.lane == o) = some b ∧ leaving.harts[(0 : Fin 4)].lateReady b = true ∧ b.mode = none) ∧
    (∀ va n path, va ∈ [0x10000, 0x11000, 0x12000] → n ∈ [1, 2, 8] → PlainAt { leaving with cur := 0 } .s (fun a => va ≤ a ∧ a < va + n) va n .store path va) ∧
    (addressed.harts[(0 : Fin 4)].resv = some 0x400 ∧ 0x400 ∈ linesOf 0x10000 ([1#8] : List Byte).length ∧ addressed.mem.wf = true ∧ addressed.mem.sca = [] ∧
      addressed.mem.sealed = [] ∧ PlainAt (addressed.mod fun x => { x with ctxid := 0#32 }) .s (fun a => 0x10000 ≤ a ∧ a < 0x10000 + 1) 0x10000 1 .store .engine 0x10000) := by
  have plain {s : State} (hl : lowOk s = true) (va n : Nat) (path : AccPath) (h : va ∈ [0x10000, 0x11000, 0x12000]) (h' : n ∈ [1, 2, 8]) :
      PlainAt s .s (fun a => va ≤ a ∧ a < va + n) va n .store path va := by
    simp only [List.mem_cons, List.not_mem_nil, or_false] at h h'
    have hp : plainOk s va n = true := by
      unfold plainOk spadBase
      rw [if_pos (by omega), hl]
      simp only [Bool.true_and, Bool.and_eq_true, decide_eq_true_eq]
      rcases h with rfl | rfl | rfl <;> rcases h' with rfl | rfl | rfl <;> decide
    have hk : plainKey s va = va := by unfold plainKey spadBase; rw [if_pos (by omega)]
    have := plain_of_ok hp .s (D := fun a => va ≤ a ∧ a < va + n) (fun a h => .inl (by omega)) (kind := .store) (by decide) path
    rwa [hk] at this
  refine ⟨by decide +kernel, by decide +kernel, by decide +kernel, by decide +kernel, by decide +kernel, ?_, fun va n path => plain (by decide +kernel) va n path,
    by decide +kernel, by decide +kernel, by decide +kernel, by decide +kernel, by decide +kernel, plain (by decide +kernel) _ _ _ (by decide) (by decide)⟩
  intro o ho
  simp only [List.mem_cons, List.not_mem_nil, or_false] at ho
  rcases ho with rfl | rfl
  · exact ⟨⟨0x11000#64, [1#8, 2#8], 0#64, .s, some 0, (9, 0), none, none⟩, by decide +kernel, by decide +kernel, rfl⟩
  · exact ⟨⟨0x12000#64, [3#8], 0#64, .s, none, (9, 0), none, none⟩, by decide +kernel, by decide +kernel, rfl⟩

/-- A verified copy whose eight chunks are done. -/
theorem witness_EngineAndUnitEvents_verify : triesOk
    (posted copies (pCpy 10 0) fun e => { e with started := true, memo := [1], aux := 9, prog := 8, chunks := ⟨List.range 8, [], []⟩ })
    (fun e => e.post.body.isCopy && e.started && copyKind (e.memo.headD 0) == 1) = true := by decide +kernel

/-- An entry that pops a stream of four elements in memory. -/
def popping : State :=
  posted (withX (shaped 2 4 1 1) [(11, 0x11000#64)] |>.modHart 0 fun h => { h with
      sb := h.sb.set 0 { Binding.none with valid := true, reg := 9#5, strip := 4, base := 0x11000#64, count := 8, stride := 4#64, et := 2#4 } })
    (pVaddVv 8 9 12 0 0) id

/-- Its strip is found and fetched. -/
theorem witness_EngineAndUnitEvents_strip : ∃ e u e' l o, popping.harts[(0 : Fin 4)].queue.find?
      (fun e => e.strips.any fun x => x.reg == popping.harts[(0 : Fin 4)].sb[(0 : Fin 4)].reg) = some e ∧
    popping.harts[(0 : Fin 4)].frozen = false ∧ stripsLoop 0 e.strips popping e [] = (u, e', l, o) ∧ ∀ t, o ≠ .trap t := by
  have h : (popping.harts[(0 : Fin 4)].queue.find? fun e => e.strips.any fun x => x.reg == popping.harts[(0 : Fin 4)].sb[(0 : Fin 4)].reg).isSome = true := by
    decide +kernel
  obtain ⟨e, he⟩ := Option.isSome_iff_exists.mp h
  have ho : (match popping.harts[(0 : Fin 4)].queue.find? fun e => e.strips.any fun x => x.reg == popping.harts[(0 : Fin 4)].sb[(0 : Fin 4)].reg with
      | some e => (stripsLoop 0 e.strips popping e []).2.2.2 == .finished
      | none => false) = true := by decide +kernel
  rw [he] at ho
  have ho : ((stripsLoop 0 e.strips popping e []).2.2.2 == .finished) = true := ho
  refine ⟨e, _, _, _, _, he, by decide +kernel, rfl, fun t ht => ?_⟩
  have ht : (stripsLoop 0 e.strips popping e []).2.2.2 = .trap t := ht
  rw [ht] at ho
  cases ho

/-- An entry that waits to trap, oldest of its queue. -/
theorem witness_EngineAndUnitEvents_trap : let s := posted ints (pVaddVv 8 10 12 0 0) fun e => { e with pend := some ⟨cALIGN, 5#64⟩ }
    (∃ e, s.harts[(0 : Fin 4)].queue = [e] ∧ e.pend = some ⟨cALIGN, 5#64⟩ ∧ e.apart = false ∧ s.mayRun 0 e = true) ∧ s.harts[(0 : Fin 4)].canTrap = true ∧
    s.harts[(0 : Fin 4)].level ≠ .e ∧ s.harts[(0 : Fin 4)].etvec ≠ 0#64 :=
  ⟨⟨{ ints.h.newEntry (pVaddVv 8 10 12 0 0) with pend := some ⟨cALIGN, 5#64⟩ }, by decide +kernel, by decide +kernel, by decide +kernel, by decide +kernel⟩,
    by decide +kernel, by decide +kernel, by decide +kernel⟩

/-- An asynchronous trap that is due. -/
theorem witness_EngineAndUnitEvents_async : let s := base.modHart 0 fun h => { h with asyncs := [⟨cSTRAGGLER, 0#64⟩] }
    s.harts[(0 : Fin 4)].asyncs = ⟨cSTRAGGLER, 0#64⟩ :: [] ∧ s.harts[(0 : Fin 4)].asyncDue = true ∧ s.harts[(0 : Fin 4)].etvec ≠ 0#64 := by decide +kernel

/-- A reserved word at a running hart, and a fetch that fails. -/
theorem witness_EngineAndUnitEvents_fetch : isReserved 0#32 = true ∧ base.harts[(0 : Fin 4)].status = .running ∧
    ∃ t, State.fetch { (base.modHart 0 fun h => { h with pc := 0x100000000#64 }) with cur := 0 } = .error t := by
  refine ⟨by decide +kernel, by decide +kernel, ?_⟩
  have h : (match State.fetch { (base.modHart 0 fun h => { h with pc := 0x100000000#64 }) with cur := 0 } with | .error _ => true | .ok _ => false) = true := by
    decide +kernel
  split at h
  · rename_i t ht; exact ⟨t, ht⟩
  · cases h

/-- An address that the tables translate. -/
theorem witness_EngineAndUnitEvents_walk : base.harts[(0 : Fin 4)].isRunning = true ∧ (0x10000#64 : Word).toNat < 2 ^ 48 ∧
    ∃ e, base.walk base.harts[(0 : Fin 4)].ctxid.toNat (0x10000#64 : Word).toNat = .page e := by
  refine ⟨by decide +kernel, by decide +kernel, ?_⟩
  have h : (match base.walk base.harts[(0 : Fin 4)].ctxid.toNat (0x10000#64 : Word).toNat with | .page _ => true | _ => false) = true := by decide +kernel
  split at h
  · rename_i e he; exact ⟨e, he⟩
  · cases h

/-- A hart that waits for a lane group while some are free; one that waits for matrix mode; a barrier at which all have arrived. -/
theorem witness_EngineAndUnitEvents_units : let s := base.modHart 0 fun h => { h with status := .waiting (.lanes 1) 0#32 }
    s.settleLanes.core.anyFree = true ∧ s.firstLaneWaiter = some (0, 1) ∧ laneAsk s.harts[(1 : Fin 4)] = none ∧
    ({ base with core := { base.core with matrixWaiters := [1] } } : State).core.matrixWaiters = 1 :: [] ∧ base.core.matrix = none ∧
    base.core.matrixResv = false ∧ s.sched.starts = [] ∧ base.sched.starts = [] ∧
    (let b := tasked.modHart 0 fun h => { h with status := .waiting (.barrier 2) 0#32 }
     b.sched.tasks.find? (·.id = 0) = some task ∧ (∃ i, b.takesPart task i = true) ∧ ∀ i, b.takesPart task i = true → b.harts[i].arrived (2#3 : BitVec 3).toNat = true) := by
  decide +kernel

/-- The status of each hart of the base state. -/
theorem base_status (i : Fin 4) : base.harts[i].status = if i = 0 then .running else .idle := by revert i; decide +kernel

/-- A device that is not ready, one without a hart that waits for a tick, and one with such a hart. -/
theorem witness_EngineAndUnitEvents_tick : State.reset.host.state ≠ .ready ∧ base.host.state = .ready ∧
    (∀ (i : Fin 4) n w, base.harts[i].status ≠ .waiting (.tick n) w) ∧
    (base.modHart 0 fun h => { h with status := .waiting (.tick 7) (wHbeat 1 2) }).harts[(0 : Fin 4)].status = .waiting (.tick 7) (wHbeat 1 2) ∧
    base.sched.gangs = [] ∧ (base.modHart 0 fun h => { h with status := .waiting (.tick 7) (wHbeat 1 2) }).harts[(0 : Fin 4)].frozen = false ∧
    ∀ i : Fin 4, i ≠ 0 → (base.modHart 0 fun h => { h with status := .waiting (.tick 7) (wHbeat 1 2) }).harts[i].status = .idle := by
  refine ⟨by decide +kernel, by decide +kernel, ?_, by decide +kernel, by decide +kernel, by decide +kernel, by decide +kernel⟩
  intro i n w
  rw [base_status]
  split <;> simp

/-- The bytes of a record of a task or gang: gang, context, kind and harts, coordinator, members, instant, hash and cores. -/
def record (gang ctx kind coord nmem t hash mask : Nat) : List Byte :=
  natLe 4 gang ++ natLe 4 ctx ++ natLe 4 kind ++ natLe 4 coord ++ natLe 4 nmem ++ natLe 12 0 ++ natLe 8 t ++ natLe 32 0 ++ natLe 64 hash ++ natLe 48 mask ++ natLe 8 0

/-- A record in the queue that may be dispatched. -/
theorem witness_EngineAndUnitEvents_dispatch :
    let s : State := { State.withFetchWord State.reset 32 0 with sched := { Sched.reset with queue := [⟨0, record 0 0 0 0 1 0 1 1 ++ natLe 64 0, 0, 0, true⟩] } }
    let t := s.modHart 0 fun h => { h with status := .idle }
    (∀ k ∈ t.sched.tasks, k.others = 0 ∧ t.taskOver k = false) ∧ t.sched.starts = [] ∧ t.decision.isSome = true := by decide +kernel

/-! ### Packets -/

/-- A packet from endpoint 1 to this device, of JOB 0 and generation 0. -/
def packet (spec16 : BitVec 16) (spec64 : Word) (beats : Nat) : Packet :=
  { ptype := 0#8, dbeats := BitVec.ofNat 5 beats, dst := 0#19, src := 1#19, vc := 0#2, age := 0#8, job := 0#16, gen := 0#16, tag := 7#12, enc := false,
    flow := 0#16, itag := 0#32, spec16 := spec16, spec64 := spec64, zerosOk := true, data := List.replicate (16 * beats) 0#8,
    nonce := 0, resided := 0 }

/-- A packet that breaks a zero field; one of age 255; one of another domain; one of a JOB without an entry; and a sealed one without a key. -/
theorem witness_HomeRequestsAndAnswers_bars : let p := packet 7 0x10000 0
    pktReadOk { p with zerosOk := false } = false ∧ pktReadOk p = true ∧ ({ p with age := 255#8 } : Packet).age = 255#8 ∧ p.age ≠ 255#8 ∧
    domainOf ({ p with src := 0x2000#19 } : Packet).src ≠ domainOf base.fab.epid ∧ domainOf p.src = domainOf base.fab.epid ∧
    base.homeCtx { p with job := 9#16 } = none ∧ base.homeCtx p = some 0 ∧ base.openPacket { p with enc := true } = none := by decide +kernel

/-- Well-formed requests of every type, and ones that are not. -/
theorem witness_HomeRequestsAndAnswers_forms : pktWriteOk (packet 7 0x10000 1) = true ∧ pktAmoOk (packet 0x20 0x10000 1) = true ∧
    pktScaOk (packet 0x20 0 1) = true ∧ pktDeltaOk (packet 0 0x10000 1) = true ∧ pktWriteOk (packet 7 0x10000 0) = false ∧
    pktAmoOk (packet 0xB 0x10000 1) = false ∧ pktScaOk (packet 4 0 1) = false ∧ pktDeltaOk (packet 0 8 1) = false ∧
    pktWriteOk { packet 7 0x10000 1 with dbeats := 2#5, data := List.replicate 32 0#8, enc := true } = true := by decide +kernel

/-- A request that meets none of the bars, with its plain data. -/
theorem atHome_packet (a : BitVec 16) (b : Word) (n : Nat) : AtHome base (packet a b n) false 0 (List.replicate (16 * n) 0#8) := by
  refine ⟨by simp [packet, tooOld], .inr ?_, ?_, rfl⟩
  · have h : domainOf (1#19) = domainOf base.fab.epid := by decide +kernel
    exact h
  have h : base.homeCtx (packet 0 0 0) = some 0 := by decide +kernel
  exact h

/-- Whether a home performs something. -/
def isOk {α β : Type} : Except α β → Bool
  | .ok _ => true
  | .error _ => false

/-- What it performs, where the checker says so; and what it refuses. -/
theorem ok_of {α β : Type} {x : Except α β} (h : isOk x = true) : ∃ y, x = .ok y := by
  cases x with
  | ok y => exact ⟨y, rfl⟩
  | error _ => cases h

/-- A refusal, where the checker finds one. -/
theorem error_of {α β : Type} {x : Except α β} (h : isOk x = false) : ∃ y, x = .error y := by
  cases x with
  | error y => exact ⟨y, rfl⟩
  | ok _ => cases h

/-- Reads, writes and atomics of a home that are performed, and some that are refused; deltas in reach and beyond. -/
theorem witness_HomeRequestsAndAnswers_home :
    (∃ y, base.homeRead 0 0x10000 8 = .ok y) ∧ (∃ e, base.homeRead 0 (2 ^ 44 - 4) 8 = .error e) ∧
    (∃ y, base.homeWrite 0 0x10000 [1#8] = .ok y) ∧ (∃ e, base.homeWrite 0 0x90000000 [1#8] = .error e) ∧
    (∃ y, base.homeAmo 0 (packet 0x20 0x10000 1) (List.replicate 16 0#8) = .ok y) ∧
    (∃ e, base.homeAmo 0 (packet 0x20 0x10004 1) (List.replicate 16 0#8) = .error e) ∧
    (scaOfCode ((packet 0x20 0 1).spec16.toNat % 8)).isSome = true ∧ 2 ^ 44 < pktOff (packet 0 (0xFFFFFFFFFF0#64) 2) + 32 ∧
    pktOff (packet 0 0x10000 1) + 16 ≤ 2 ^ 44 :=
  ⟨ok_of (by decide +kernel), error_of (by decide +kernel), ok_of (by decide +kernel), error_of (by decide +kernel), ok_of (by decide +kernel),
    error_of (by decide +kernel), by decide +kernel, by decide +kernel, by decide +kernel⟩

/-- A device with a store of hart 0 outstanding under tag 7. -/
def asking : State :=
  { base with fab := { base.fab with outstanding := [⟨true, 0, 7, 0, 1#19, 0#16, .store 0 0x8000100000010000#64 8, 0#32, 0#8, []⟩], nextReq := 1 } }

/-- Answers in order and out of order, of a tag that is outstanding and of one that is not, open and sealed without a key. -/
theorem witness_HomeRequestsAndAnswers_answers :
    (pktData (packet 0 0 1) 1 16 && (packet 0 0 1).spec64 == 0#64) = true ∧ pktBare (packet 0 0 0) = true ∧
    (pktData (packet 0 0 1) 1 1 && (packet 0 0 1).spec64 == 0#64) = true ∧
    (pktData (packet 0 0 1) 1 16 && decide ((packet 0 0 1).spec64.toNat < 2 ^ 44)) = true ∧ pktBare (packet 16 0 0) = false ∧
    (pktData (packet 0 0 0) 1 16 && (packet 0 0 0).spec64 == 0#64) = false ∧
    asking.fab.outstanding.find? (·.tag = (packet 0 0 0).tag.toNat) = some ⟨true, 0, 7, 0, 1#19, 0#16, .store 0 0x8000100000010000#64 8, 0#32, 0#8, []⟩ ∧
    base.fab.outstanding.find? (·.tag = (packet 0 0 0).tag.toNat) = none ∧ asking.openPacket (packet 0 0 0) = some [] ∧
    asking.openPacket { packet 0 0 0 with enc := true } = none ∧ asking.fab.waiting = [] ∧ pktBeats (packet 0 0 0) 0 = true := by decide +kernel

/-- Chunks that a home gives and takes, and some that it refuses; a packet too old with its stay; and one from the device itself. -/
theorem witness_HomeRequestsAndAnswers_copies : (∃ y, base.homeCopyRead 0 0x10000 8 = .ok y) ∧ (∃ e, base.homeCopyRead 0 (2 ^ 44 - 4) 8 = .error e) ∧
    (∃ y, base.homeCopyWrite 0 0x10000 [1#8] = .ok y) ∧ (∃ e, base.homeCopyWrite 0 0x90000000 [1#8] = .error e) ∧
    tooOld { packet 7 0x10000 0 with age := 250#8, resided := 5 } = true ∧ tooOld { packet 7 0x10000 0 with age := 250#8, resided := 4 } = false ∧
    (packet 0 0 0).src ≠ base.fab.epid ∧ ({ packet 0 0 0 with src := 0#19 } : Packet).src = base.fab.epid ∧
    (packet 0 0 0).spec16.toNat < 128 ∧ (packet 0 0 0).spec64.toNat < 2 ^ 32 :=
  ⟨ok_of (by decide +kernel), error_of (by decide +kernel), ok_of (by decide +kernel), error_of (by decide +kernel), by decide +kernel, by decide +kernel,
    by decide +kernel, by decide +kernel, by decide +kernel, by decide +kernel⟩

/-- A device that has a packet for itself. -/
theorem witness_StepRunsDecodedInstruction_turned : let s : State := { base with fab := { base.fab with turned := [packet 7 0x10000 0] } }
    s.arrivals = [] ∧ s.fab.turned ≠ [] := by decide +kernel

/-! ### Gangs, trust and time -/

/-- An offer of gang 5 in some mode, with acknowledgements. -/
def offer (mode : Nat) (acks : List (Epid × Nat)) : Offer :=
  { raw := record 5 0 1 0 1 1000000 0 1, gangid := 5#32, ctxid := 0#32, kind := 1, t := 1000000, members := [1#19], acks := acks, armAcks := [],
    cancelAcks := [], mode := mode, round := 0 }

/-- A device with that record and that offer. -/
def ganged (g : GangRec) (mode : Nat) (acks : List (Epid × Nat)) : State :=
  { base with sched := { base.sched with gangs := [g], offers := [offer mode acks] } }

/-- Packets of reductions and of messages in order; one of a reduction that is not known, which is held. -/
theorem witness_GangTrustAndTimeEvents_packets : let p := packet 0 0x10 1
    pktRedOk p = true ∧ tooOld p = false ∧ base.jobEntry p.job = some { job := 0#16, gen := 0#16, state := .active, ctxid := 0, stamp := 0 } ∧
    base.openPacket p = some (List.replicate 16 0#8) ∧ base.reduction p.job (p.spec64.extractLsb' 0 32) = none ∧
    base.trust.retiredRids.contains (p.job, p.spec64.extractLsb' 0 32) = false ∧
    (base.trust.held.map fun x => heldSize x.pkt).sum + heldSize p ≤ 65536 ∧ pktSpdmOk (packet 0 0 1) = true := by decide +kernel

/-- A reduction of two members. -/
def reduction : Reduction :=
  { h := 0, level := .s, pc := 0#64, ctxid := 0, job := 0#16, rid := 9#32, opet := 0#8, plane := 0, enc := false, n := 2, rank := 0, count := 1,
    dstva := 0x10000#64, status := 0x10040#64, members := [0#19, 1#19], up := [], down := [], src := 0, sent := 0, pend := [], word := none }

/-- A key of JOB 0. -/
def jobKey : JobKey := { job := 0#16, kepoch := 1#32, stag := 0#32, key := [], expiry := 5, counters := Vector.replicate 24 0 }

/-- A reduction that may time out, one that is not there, and a job with a key. -/
theorem witness_GangTrustAndTimeEvents_trust :
    ({ base with trust := { base.trust with reductions := [reduction] } } : State).reduction 0#16 9#32 = some reduction ∧
    base.reduction 0#16 9#32 = none ∧ ({ base with trust := { base.trust with keys := [jobKey] } } : State).jobKey 0#16 = some jobKey := by decide +kernel

/-- A record that a TLREC carries. -/
theorem witness_GangTrustAndTimeEvents_record : let p := { packet 0 0 12 with data := record 5 0 1 1 1 1000000 0 1 }
    p.zerosOk = true ∧ p.spec16 = 0#16 ∧ p.spec64 = 0#64 ∧ p.dbeats = 12#5 ∧ p.enc = false ∧ tooOld p = false ∧ 
    base.recBad (p.data.take 192) = false ∧ base.recBad (List.replicate 192 0#8) = true ∧
    base.homeCtx { p with job := 9#16 } = none ∧ (base.homeCtx p).isSome = true := by decide +kernel

/-- Each message of the gang protocol about that record. -/
theorem witness_GangTrustAndTimeEvents_control : let p (k : BitVec 16) := { packet k 1000000 0 with itag := 5#32 }
    let s := ganged gangRec 0 []
    tooOld (p 0) = false ∧ (s.homeCtx (p 0)).isSome = true ∧ s.record (p 0).itag (p 0).spec64.toNat = some gangRec ∧ gangRec.coord = (p 0).src ∧
    pktCtl (p 0) 0 1 = true ∧ pktCtl (p 2) 2 0 = true ∧ gangRec.acted = false ∧ ({ gangRec with acted := true } : GangRec).acted = true ∧
    pktCtl (p 3) 3 0 = true ∧ gangRec.armed = true ∧ ({ gangRec with wave := true } : GangRec).wave = true ∧ pktCtl (p 1) 1 2 = true ∧
    pktCtl (p 4) 4 0 = true ∧ (s.jobEntry (p 4).job).isSome = true ∧ base.record (p 0).itag (p 0).spec64.toNat = none ∧
    ∀ i : Fin 4, s.harts[i].frozen = false := by decide +kernel

/-- The instants of the protocol, at the record and at the offer, in every mode. -/
theorem witness_GangTrustAndTimeEvents_instants : let s := ganged gangRec 0 []
    s.record 5#32 1000000 = some gangRec ∧ gangRec.armed = true ∧ gangRec.wave = false ∧ gangRec.told = false ∧ (s.offer 5#32 1000000).isSome = true ∧
    (s.offer 5#32 1000000).map (·.mode) = some 0 ∧ ((ganged gangRec 1 []).offer 5#32 1000000).map (·.mode) = some 1 ∧
    ((ganged gangRec 2 []).offer 5#32 1000000).map (·.armAcks) = some [] ∧ ((ganged gangRec 3 []).offer 5#32 1000000).map (·.mode) = some 3 ∧
    ((ganged gangRec 3 []).offer 5#32 1000000).map (·.members) = some [1#19] ∧ ((ganged gangRec 3 []).offer 5#32 1000000).map (·.cancelAcks) = some [] ∧
    (ganged gangRec 3 []).gtimeNs < 1000000 ∧ ((ganged gangRec 0 [(1#19, 0)]).offer 5#32 1000000).map (·.acks) = some [(1#19, 0)] := by decide +kernel

/-- A member that has not answered, and members that all have. -/
theorem witness_GangTrustAndTimeEvents_members : (∃ e ∈ (offer 0 []).members, ∀ a ∈ (offer 0 []).acks, a.1 = e → a.2 ≠ 0 ∧ a.2 ≠ 16) ∧
    ∀ e ∈ (offer 0 [(1#19, 0)]).members, (e, 0) ∈ (offer 0 [(1#19, 0)]).acks :=
  ⟨⟨1#19, by simp [offer], by simp [offer]⟩, by simp [offer]⟩

/-- Reaching the instant leaves the record there. -/
theorem witness_GangTrustAndTimeEvents_reached : (((ganged gangRec 0 []).reach 1000000).record 5#32 1000000).map (·.acted) = some false ∧
    (((ganged { gangRec with armed := false } 0 []).reach 1000000).record 5#32 1000000).map (·.told) = some false := by decide +kernel

/-- A pre-emption under way: its record, of kind 1, has acted, and its context drains, runs in compatibility mode, or has stopped. -/
def preempting (f : Context → Context) (run : Bool) : State :=
  let s := ganged { gangRec with kind := 1, acted := true } 0 []
  { (if run then s else s.modHart 0 fun h => { h with frozen := true }) with ctxs := [f { fetchCtx with preempted := true }] }

/-- Each of these is found, with what its events look at. -/
theorem witness_GangTrustAndTimeEvents_preempting :
    ((preempting (fun c => { c with drain := 3 }) true).preempting 5#32 1000000).map (fun x => (x.2.compat, x.2.drain)) = some (none, 3) ∧
    ((preempting (fun c => { c with compat := some true }) true).preempting 5#32 1000000).map (·.2.compat) = some (some true) ∧
    (preempting (fun c => { c with compat := some true }) true).allStopped 0#32 = false ∧
    (none : Option Bool) ≠ some true ∧ (preempting id false).imageWaits { gangRec with kind := 1, acted := true } = false ∧
    ((preempting id false).preempting 5#32 1000000).map (·.2.drain) = some 0 ∧ (preempting id false).allStopped 0#32 = true ∧
    ∀ i : Fin 4, (preempting id false).harts[i].stbuf = [] ∧ (preempting id false).harts[i].late = [] ∧ (preempting id false).harts[i].eqWait = [] := by decide +kernel

/-- What port 0 announces. -/
def announced : PtpAnnounce :=
  { domain := 0, priority1 := 128, clockClass := 6, accuracy := 33, variance := 0, priority2 := 128, grandmaster := 4, steps := 1 }

/-- Bellwethers in each of the states that the events look at, with 15 good intervals and a grandmaster; Syncs in its domain and not, near and far. -/
theorem witness_GangTrustAndTimeEvents_time : let b (f : Bellwether → Bellwether) : State :=
      { base with clock := { base.clock with bell := Vector.replicate 2 (f { Bellwether.reset with masters := [(0, announced)] }) } }
    let m (f : Bellwether → Bellwether) : Bellwether := (b f).clock.bell[(0 : Fin 2)]
    [⟨0, 0⟩].filter (m id).valid = ⟨0, 0⟩ :: [] ∧ [⟨0, 1⟩, ⟨1, 0⟩].filter (m id).valid = [] ∧
    (49 - (m id).delays[(0 : Fin 12)]).natAbs < 50 ∧ ¬ (50 - (m id).delays[(0 : Fin 12)]).natAbs < 50 ∧ 15 ≤ (m fun x => { x with good := 15 }).good ∧
    (m id).grandmaster = some 4 ∧ ({ m id with masters := (0, { announced with grandmaster := 5 }) :: (m id).masters.filter (·.1 ≠ 0) } : Bellwether).grandmaster = some 5 ∧
    announced.domain = 0 ∧ ({ announced with domain := 1 } : PtpAnnounce).domain ≠ 0 ∧ (m fun x => { x with tstate := .locked }).tstate = .locked ∧
    3 ≤ (m fun x => { x with missed := 3 }).missed ∧ (m fun x => { x with tstate := .holdover }).tstate = .holdover ∧ NoInstants (b id) ∧
    (b id).clock.src = 0 ∧ (m id).tstate = .free ∧ State.reset.host.state ≠ .ready ∧ (b id).clock.gtime ≤ 9 := by
  unfold NoInstants
  decide +kernel

/-- The instant of one record that is due, and of none that has passed. -/
theorem witness_GangTrustAndTimeEvents_due : let s := ganged gangRec 0 []
    s.due 1000000 = [gangRec] ∧ gangRec.passed = false ∧ gangRec.acted = false ∧ ({ gangRec with passed := true } : GangRec).passed = true ∧
    ({ gangRec with armed := false } : GangRec).told = false ∧ ({ s with sched := { s.sched with offers := [] } } : State).offer 5#32 1000000 = none := by decide +kernel

/-! ### The host, bring-up, banks and links -/

/-- A device in some state of bring-up with one record in its command ring. -/
def hosted (st : DevState) (rec : List Byte) (f : HostIf → HostIf) : State :=
  base.modHost fun h => f { h with state := st, crqtail := 1#8, crq := [(0, rec)] }

/-- The bytes of a record: kind, priority, context and body. -/
def command (opc prio ctx : Nat) (body : List Byte) : List Byte := natLe 1 opc ++ natLe 3 prio ++ natLe 4 ctx ++ natLe 8 0 ++ body ++ List.replicate (240 - body.length) 0#8

/-- Whether a record is next, of a kind and in order. -/
def nextRecordOk (s : State) (rec : List Byte) (opc lo hi : Nat) : Bool :=
  s.nextRecord == some rec && decide (sliceNat rec 0 1 = opc) && (s.host.state == .ready || opc == 1 || opc == 2 || opc == 7) && headerOk rec &&
  recordZeros rec lo hi

/-- A record that the checker accepts is next. -/
theorem nextRecord_of_ok {s : State} {rec : List Byte} {opc lo hi : Nat} (h : nextRecordOk s rec opc lo hi = true) : NextIs s rec opc lo hi := by
  unfold nextRecordOk at h
  simp only [Bool.and_eq_true, Bool.or_eq_true, beq_iff_eq, decide_eq_true_eq] at h
  exact ⟨h.1.1.1.1, h.1.1.1.2, by have := h.1.1.2; tauto, h.1.2, h.2⟩

/-- A NOP, and a record of a kind that does not exist. -/
theorem witness_HostInterfaceEvents_nop : NextIs (hosted .ready (command 1 0 0 []) id) (command 1 0 0 []) 1 16 16 ∧
    (hosted .ready (command 8 0 0 []) id).nextRecord = some (command 8 0 0 []) ∧ 7 < sliceNat (command 8 0 0 []) 0 1 ∧
    sliceNat (command 0 0 0 []) 0 1 = 0 ∧ base.host.cqFull = false :=
  ⟨nextRecord_of_ok (by decide +kernel), by decide +kernel, by decide +kernel, by decide +kernel, by decide +kernel⟩

/-- A first FEATACK of offered bits, and a second. -/
theorem witness_HostInterfaceEvents_featack : let r := command 2 0 0 (natLe 4 0x7FFF)
    NextIs (hosted .featwait r fun h => { h with featAcked := false }) r 2 16 32 ∧ (hosted .featwait r fun h => { h with featAcked := false }).host.featAcked = false ∧
    (hosted .featwait r id).host.state ≠ .reset ∧ (hosted .featwait r id).host.state ≠ .powerup ∧ (hosted .featwait r fun h => { h with featAcked := false }).host.cqFull = false ∧
    (hosted .featwait r fun h => { h with featAcked := false, cqcons := h.cqprod - 64#8 }).host.cqFull = true ∧
    NextIs (hosted .featwait r fun h => { h with featAcked := false, cqcons := h.cqprod - 64#8 }) r 2 16 32 ∧
    featBad (featWords r) = false ∧ NextIs (hosted .ready r id) r 2 16 32 ∧ (hosted .ready r id).host.featAcked = true :=
  ⟨nextRecord_of_ok (by decide +kernel), by decide +kernel, by decide +kernel, by decide +kernel, by decide +kernel, by decide +kernel,
    nextRecord_of_ok (by decide +kernel), by decide +kernel, nextRecord_of_ok (by decide +kernel), by decide +kernel⟩

/-- A new context, and the end of one that is live and of one that is not. -/
theorem witness_HostInterfaceEvents_context : let n := command 3 0 5 (natLe 2 5 ++ natLe 2 6)
    NextIs (hosted .ready n id) n 3 16 20 ∧ (hosted .ready n id).ctxnewBad n = false ∧ (hosted .ready n id).quarantined (BitVec.ofNat 16 (sliceNat n 16 2)) = false ∧
    NextIs (hosted .ready (command 4 0 0 []) id) (command 4 0 0 []) 4 16 16 ∧ ((hosted .ready (command 4 0 0 []) id).ctx 0).isSome = true ∧
    NextIs (hosted .ready (command 4 0 9 []) id) (command 4 0 9 []) 4 16 16 ∧ (hosted .ready (command 4 0 9 []) id).ctx 9 = none :=
  ⟨nextRecord_of_ok (by decide +kernel), by decide +kernel, by decide +kernel, nextRecord_of_ok (by decide +kernel), by decide +kernel,
    nextRecord_of_ok (by decide +kernel), by decide +kernel⟩

/-- A launch at once and one at an instant. -/
theorem witness_HostInterfaceEvents_launch : let now := command 5 3 0 (record 0 0 0 0 1 0 1 1)
    let later := command 5 3 0 (record 9 0 0 0 1 1000000 1 1)
    NextIs (hosted .ready now id) now 5 16 208 ∧ recCtx (slice now 16 192) = recordCtx now ∧ ((hosted .ready now id).ctx (recordCtx now)).isSome = true ∧
    recKind (slice now 16 192) = 0 ∧ recNmem (slice now 16 192) = 1 ∧ recMidx (slice now 16 192) = 0 ∧ recT (slice now 16 192) = 0 ∧
    ((hosted .ready now id).admitRecord (slice now 16 192) (sliceNat now 1 1) none).1 = 0 ∧ NextIs (hosted .ready later id) later 5 16 208 ∧
    recT (slice later 16 192) ≠ 0 ∧ (hosted .ready later id).recBad (slice later 16 192) = false :=
  ⟨nextRecord_of_ok (by decide +kernel), by decide +kernel, by decide +kernel, by decide +kernel, by decide +kernel, by decide +kernel, by decide +kernel,
    by decide +kernel, nextRecord_of_ok (by decide +kernel), by decide +kernel, by decide +kernel⟩

/-- A policy entry, and a staged image that is no firmware. (Whether an image is firmware rests on a free value, the signature.) -/
theorem witness_HostInterfaceEvents_policy : let p := command 6 0 0 (natLe 2 3 ++ natLe 2 0 ++ natLe 2 1)
    let w := command 7 0 0 (natLe 4 64)
    NextIs (hosted .ready p id) p 6 16 128 ∧ sliceNat p 18 2 < sliceNat p 20 2 ∧ sliceNat p 22 42 = 0 ∧ NextIs (hosted .ready w id) w 7 16 20 ∧
    sliceNat w 16 4 ≤ 4194304 ∧ fwValid 0 [] = false :=
  ⟨nextRecord_of_ok (by decide +kernel), by decide +kernel, by decide +kernel, nextRecord_of_ok (by decide +kernel), by decide +kernel, by decide +kernel⟩

/-- A JOB entry in quarantine; counts within and beyond a ring; the link up and down; places of the MSI-X table. -/
theorem witness_HostInterfaceEvents_registers : let q : JobEntry := { job := 4#16, gen := 0#16, state := .quarantine, ctxid := 9, stamp := 0 }
    ({ base with jobs := [q] } : State).jobEntry 4#16 = some q ∧ base.nextRecord = none ∧ base.host.linkUp = true ∧
    (base.modHost fun h => { h with linkUp := false }).host.linkUp = false ∧ ((64#8 : BitVec 8) - base.host.crqhead).toNat ≤ 64 ∧
    64 < ((65#8 : BitVec 8) - base.host.crqhead).toNat ∧ (base.host.cqprod - 0xC0#8).toNat ≤ 64 ∧ 64 < (base.host.cqprod - 0xBF#8).toNat ∧
    base.host.heldCompletion = none ∧ (base.host.evprod - 0xFF00#16).toNat ≤ 256 ∧ 256 < (base.host.evprod - 0xFEFF#16).toNat ∧
    0x10000 ≤ 0x13FFC ∧ 0x13FFC < 0x14000 ∧ 0x13FFC % 4 = 0 := by decide +kernel

/-- A monitor that records and one that does not; keys of a module reset that hold and that do not. -/
theorem witness_HostInterfaceEvents_monitors : ({ Monitor.reset with ctl := 0x01000001#32 } : Monitor).records 0 = true ∧
    ({ Monitor.reset with ctl := 0x01000001#32 } : Monitor).sel = 1 ∧ ({ Monitor.reset with ctl := 0x04000001#32 } : Monitor).sel = 4 ∧
    ({ Monitor.reset with ctl := 0x04000001#32 } : Monitor).records 0 = true ∧ ({ Monitor.reset with ctl := 0x03000001#32 } : Monitor).sel = 3 ∧ Monitor.reset.records 0 = false ∧
    (0xA5F00001#32 : BitVec 32).extractLsb' 16 16 = 0xA5F0#16 ∧ (0xA5F00001#32 : BitVec 32).getLsbD 0 = true ∧
    ((0#32 : BitVec 32).extractLsb' 16 16 ≠ 0xA5F0#16 ∨ (0#32 : BitVec 32).getLsbD 0 = false) := by decide +kernel

/-- Bring-up: the states, the dies in their order, and firmware that does not verify. -/
theorem witness_HostInterfaceEvents_bringUp : let s := State.reset.modHost fun h => { h with state := .powerup }
    State.reset.host.state = .reset ∧ s.host.state = .powerup ∧ s.host.fwDone = false ∧
    (s.modHost fun h => { h with dieUp := 0x3000#14 }).host.dieUp.getLsbD (if (0 : Nat) = 0 then 13 else 0 - 1) = true ∧
    (s.modHost fun h => { h with dieUp := 0x3003#14 }).host.dieUp.getLsbD (if (2 : Nat) = 0 then 13 else 2 - 1) = true ∧
    (s.modHost fun h => { h with diePower := 0x3001#14 }).host.diePower.getLsbD 0 = true ∧ s.host.dieUp.getLsbD 0 = false ∧
    fwValid s.host.fuseSvn.toNat s.host.flashA = false ∧ fwValid s.host.fuseSvn.toNat s.host.flashB = false ∧ base.host.state ≠ .failed := by decide +kernel

/-- A bank and its modes; a bank whose change runs; spare lines left and spent. -/
theorem witness_BankAndLinkEvents_banks : let b (x : Bank) : State := { base with mem := { base.mem with banks := base.mem.banks.set 0 (base.mem.banks[0].set 0 x) } }
    base.bank 0 0 = some Bank.reset ∧ Bank.reset.wdrawn = false ∧ Bank.reset.busy = false ∧ modeOf ((3#64 : Word).extractLsb' 0 3).toNat = some .spad ∧
    (b { Bank.reset with busy := true }).bank 0 0 = some { Bank.reset with busy := true } ∧ (∀ i : Fin 4, base.harts[i].late = [] ∧ base.harts[i].eqWait = []) ∧ 0 < Bank.reset.spares ∧
    (b { Bank.reset with spares := 0 }).bank 0 0 = some { Bank.reset with spares := 0 } ∧ 4095 < 4096 := by decide +kernel

/-- A group of three members under rebuild. -/
def group : PGroup :=
  { n := 3, m := 1, state := 3#8, self := 0, ctxid := 0#32, gbase := 0#64, glen := 0x10000#64, lost := 4#16, member := Vector.replicate 16 0#19, ndone := 0#32,
    fail := false, done := false, busy := true, slot := 2#4, newep := 0#19, got := [], writing := false }

/-- The same with the units of its stripe come, and not busy; and one that has lost too many members. -/
theorem witness_BankAndLinkEvents_rebuild : let s (g : PGroup) : State := { base with groups := [(2, g)] }
    let got := (group.needed 0).flatMap fun i => (List.range 16).map fun k => (i, k, ([] : List Byte))
    2 < 256 ∧ (s group).group 2 = some group ∧ group.busy = true ∧ group.nextStripe = 0 ∧ group.writing = false ∧ (s group).rebuildOut 2 = false ∧
    group.got = [] ∧ (s { group with got := got }).group 2 = some { group with got := got } ∧ got ≠ [] ∧
    (∀ i ∈ group.needed 0, 16 ≤ (got.filter fun x => x.1 = i).length) ∧ ({ group with writing := true } : PGroup).writing = true ∧
    (s { group with busy := false }).group 2 = some { group with busy := false } ∧
    (let w := PGroup.ofBytes group (splice group.bytes 96 (natLe 8 ((5#64 : Word) ||| 0x10000000#64).toNat)); w.lostCount ≤ w.m ∧ w.myStripes ≠ 0) ∧
    (let g := { group with lost := 6#16 }; let w := PGroup.ofBytes g (splice g.bytes 96 (natLe 8 ((5#64 : Word) ||| 0x10000000#64).toNat)); w.m < w.lostCount) := by
  decide +kernel

/-- A CRC is below the power of its width. -/
theorem crcBits_lt (w poly : Nat) (hp : poly < 2 ^ w) (bs : List Bool) : ∀ c, c < 2 ^ w → crcBits w poly bs c < 2 ^ w := by
  induction bs with
  | nil => exact fun c h => h
  | cons b bs ih =>
    intro c _
    have h1 : c * 2 % 2 ^ w < 2 ^ w := Nat.mod_lt _ (Nat.two_pow_pos w)
    refine ih _ ?_
    split
    · exact Nat.xor_lt_two_pow h1 hp
    · exact h1

/-- A flit: 248 bytes and the value of its check after them. -/
theorem flit_crc (z : List Byte) (hz : z.length = 248) (v : Nat) :
    (z ++ natLe 8 v).length = 256 ∧ sliceNat (z ++ natLe 8 v) 0 2 = sliceNat z 0 2 ∧ flitCrc (z ++ natLe 8 v) = flitCrc z ∧
    flitCrc z < 2 ^ 64 ∧ sliceNat (z ++ natLe 8 v) 248 8 = v % 2 ^ 64 := by
  have h : slice (z ++ natLe 8 v) 0 248 = slice z 0 248 := by simp [slice, hz]
  refine ⟨by simp [hz, natLe], by simp [sliceNat, slice, List.take_append, hz], by unfold flitCrc; rw [h], crcBits_lt 64 _ (by decide) _ _ (by decide), ?_⟩
  simp [sliceNat, slice, natLe, leNat, hz]
  omega

/-- A port in use, and flits in order, out of order, and damaged. -/
theorem witness_BankAndLinkEvents_flits : let q : Port := { Port.reset with enabled := true, service := 0 }
    let z : List Byte := List.replicate 248 0#8
    (({ base with fab := { base.fab with ports := base.fab.ports.set 3 q } } : State).fab.ports[3]? = some q ∧ q.enabled = true ∧
      ({ q with rxseq := 1#12 } : Port).rxseq.toNat ≠ 0 ∧ Port.reset.service ≠ 0 ∧ q.rxseq.toNat = 0) ∧
    ∀ v, (z ++ natLe 8 v).length = 256 ∧ sliceNat (z ++ natLe 8 v) 0 2 = 0 ∧
      (v = flitCrc z → flitCrc (z ++ natLe 8 v) = sliceNat (z ++ natLe 8 v) 248 8) ∧
      (v = flitCrc z + 1 → flitCrc (z ++ natLe 8 v) ≠ sliceNat (z ++ natLe 8 v) 248 8) := by
  have h := flit_crc (List.replicate 248 0#8) (by decide +kernel)
  have h0 : sliceNat (List.replicate 248 (0#8 : Byte)) 0 2 = 0 := by decide +kernel
  refine ⟨by decide +kernel, fun v => ?_⟩
  obtain ⟨h1, h2, h3, h4, h5⟩ := h v
  refine ⟨h1, h2.trans h0, ?_, ?_⟩ <;>
  · rw [h3, h5]
    omega

/-- A port with some fields. -/
def ported (f : Port → Port) : State := { base with fab := { base.fab with ports := base.fab.ports.set 3 (f Port.reset) } }
/-- A module of a link with some fields. -/
def linked (f : LinkModule → LinkModule) : State :=
  { base with fab := { base.fab with links := base.fab.links.set 0 (base.fab.links[0].set 0 (f LinkModule.reset)) } }

/-- Ports in each step of their service, and what a configuration record says of them. -/
theorem witness_BankAndLinkEvents_ports : let t (f : Port → Port) := (ported f).trainee true 3 0
    t (fun p => { p with enabled := true, service := 0 }) = some ⟨true, 0, 0, 0xFFFFFFFF#32, 0, false, false, false⟩ ∧
    t (fun p => { p with service := 1 }) = some ⟨false, 0, 0, 0xFFFFFFFF#32, 1, false, false, false⟩ ∧ t id = some ⟨false, 0, 0, 0xFFFFFFFF#32, 3, false, false, false⟩ ∧
    t (fun p => { p with enabled := true, service := 0, retries := 32 }) = some ⟨true, 0, 0, 0xFFFFFFFF#32, 0, false, true, false⟩ ∧
    t (fun p => { p with enabled := true, service := 0, deferred := true }) = some ⟨true, 0, 0, 0xFFFFFFFF#32, 0, true, false, false⟩ ∧
    ((ported fun p => { p with enabled := true, service := 0, retries := 30 }).countErrors true 3 0 ⟨2, false, 0, 0⟩).trainee true 3 0 =
      some ⟨true, 0, 0, 0xFFFFFFFF#32, 0, false, true, false⟩ ∧
    t (fun p => { p with service := 4 }) = some ⟨false, 0, 0, 0xFFFFFFFF#32, 4, false, false, false⟩ ∧
    (⟨false, 0, 0, 0xFFFFFFFF#32, 3, false, false, false⟩ : Trainee).disabled true = false ∧ (⟨true, 0, 0, 0xFFFFFFFF#32, 0, false, false, false⟩ : Trainee).mustRetrain true 3 = true ∧
    (⟨false, 0, 0, 0xFFFFFFFF#32, 4, false, false, false⟩ : Trainee).agrees true 3 0 (BitVec.ofNat 128 (18446744069414593281 + 54736 * 2 ^ 112)) = true ∧
    (⟨false, 0, 0, 0xFFFFFFFF#32, 4, false, false, false⟩ : Trainee).agrees true 3 0 0#128 = false ∧ base.instantNear = false ∧
    ({ base with sched := { base.sched with gangs := [{ gangRec with t := 30000 }] } } : State).instantNear = true := by decide +kernel

/-- A module of a link that pauses, one that is remapped, and one without a free lane. -/
theorem witness_BankAndLinkEvents_modules : ∃ n, n < 30 ∧ freeLane n 0xFFFFFFFF#32 = some 0 ∧
    (⟨true, 0, 0, 0xFFFFFFFF#32, 1, false, false, false⟩ : Trainee).mustRetrain false n = false ∧ (⟨true, 0, 0, 0#32, 1, false, false, false⟩ : Trainee).mustRetrain false n = true ∧
    (linked fun x => { x with enabled := true, service := 0, farErrors := Vector.replicate 64 8 }).trainee false 0 0 =
      some ⟨true, 0, 0, 0xFFFFFFFF#32, 0, false, true, false⟩ ∧
    (linked fun x => { x with service := 2 }).trainee false 0 0 = some ⟨false, 0, 0, 0xFFFFFFFF#32, 2, false, false, false⟩ := by decide +kernel

/-- A flow that is pinned and has nothing outstanding. -/
theorem witness_BankAndLinkEvents_flow : let s : State := { base with fab := { base.fab with pins := [⟨1#16, 2#19, 3⟩] } }
    s.fab.flowOut 1#16 2#19 = false ∧ (∃ q ∈ s.fab.pins, q.flow = 1#16 ∧ q.dst = 2#19) ∧ s.fab.waiting = [] ∧
    (let a := asking.fab.outstanding.head?.map fun o => (o.flow, o.dst); a = some (0#16, 1#19)) ∧ asking.fab.flowOut 0#16 1#19 = true := by decide +kernel

/-! ### One step each, with the result that the spec works out or its rule gives -/

/-- Whether an instruction answers a state of which something holds. -/
def after (i : Instr) (s : State) (p : State → Bool) : Bool :=
  match exec i s with
  | .next t => p t
  | _ => false

/-- Whether the first elements of a vector register, of `b` bits, are these. -/
def holds (t : State) (v : Fin 32) (b : Nat) (es : List Nat) : Bool :=
  (List.range es.length).map (fun i => (t.h.v[v].rows[0].extractLsb' (i * b) b).toNat) == es

/-- R444: `lhi x5, 0x1234` and then `ori x5, x5, 0x5678` give 0x12345678. -/
theorem test_lhi_ori : after (.lhi 5 0x1234) base (fun s => after (.ori 5 5 0x5678) s fun t => t.x 5 == 0x12345678#64 && t.h.pc == 8#64) = true := by decide +kernel

/-- R443: the sum is taken modulo 2^64. -/
theorem test_add_wraps : after (.add 3 1 2) (withX base [(1, 0xFFFFFFFFFFFFFFFF#64), (2, 2#64)]) (fun t => t.x 3 == 1#64) = true := by decide +kernel

/-- R442: a write to x0 is discarded. -/
theorem test_x0_discards : after (.addi 0 0 7) base (fun t => t.x 0 == 0#64 && t.h.pc == 4#64) = true := by decide +kernel

/-- R443: an arithmetic shift by b mod 64. -/
theorem test_sra_sign : after (.sra 3 1 2) (withX base [(1, 0x8000000000000000#64), (2, 0x44#64)]) (fun t => t.x 3 == 0xF800000000000000#64) = true := by
  decide +kernel

/-- R264: a division by zero saturates towards the dividend's sign, with no trap. -/
theorem test_div_zero : after (.div 3 1 0) (withX base [(1, 5#64)]) (fun t => t.x 3 == 0x7FFFFFFFFFFFFFFF#64 && t.h.pc == 4#64) = true := by decide +kernel

/-- R264: the most negative number divided by -1 saturates. -/
theorem test_div_overflow : after (.div 3 1 2) (withX base [(1, 0x8000000000000000#64), (2, 0xFFFFFFFFFFFFFFFF#64)]) (fun t => t.x 3 == 0x7FFFFFFFFFFFFFFF#64) = true := by
  decide +kernel

/-- The worked example of R447: the exact value 2^-46 is rounded once, and no flag is set. -/
theorem test_fmadd_once : after (.fmadd 3 4 5 1 7) (withX base [(4, 0x3F800001#64), (5, 0x3F800001#64), (3, 0xBF800002#64)])
    (fun t => t.x 3 == 0x28800000#64 && t.h.fcsr == 0#9) = true := by decide +kernel

/-- R448, R231: a signed byte is extended, from the address below the base. -/
theorem test_ld_sign : after (.ld 3 1 0 0x1FFF) (withX (withBytes base 0xFFFF [0x80]) [(1, 0x10000#64)]) (fun t => t.x 3 == 0xFFFFFFFFFFFFFF80#64) = true := by
  decide +kernel

/-- R448: a store of two bytes, the low one at the lower address. -/
theorem test_st_order : after (.st 3 1 1 0) (withX base [(1, 0x10000#64), (3, 0x12345678#64)]) (fun t => t.mem.peek 0x10000 4 == [0x78, 0x56, 0, 0]) = true := by
  decide +kernel

/-- R453: an atomic addition answers the old value and stores the sum. -/
theorem test_amoadd_old : after (.amoadd 3 1 4 1 0 0 0) (withX (withBytes base 0x10000 [5]) [(1, 0x10000#64), (4, 3#64)])
    (fun t => t.x 3 == 5#64 && t.mem.peek 0x10000 1 == [8]) = true := by decide +kernel

/-- R457: a taken branch goes to PC + 4 * imm. -/
theorem test_beq_back : after (.beq 1 2 0xFFFF) (withX (base.mod fun h => { h with pc := 0x100#64 }) [(1, 7#64), (2, 7#64)]) (fun t => t.h.pc == 0xFC#64) = true := by
  decide +kernel

/-- The worked example of R513: the counts of the elements below, the inactive element's among them; it keeps its own value. -/
theorem test_vpcp_masked : after (.vpcp 6 5 2)
    ((withV (shaped 7 4 1 0) 7 64 [(5, [0xFF, 0, 0x8000000000000001, 0xFFFFFFFFFFFFFFFF]), (6, [9, 9, 9, 9])]).mod fun h =>
      { h with m := h.m.set 2 ((Vector.replicate 16 0#2048).set 0 0b1011#2048) })
    (fun t => holds t 6 64 [0, 8, 9, 10]) = true := by decide +kernel

/-- The worked example of R518: approximate reciprocals of 3.0 and 1.0, and no flag. -/
theorem test_vfrcp_table : after (.vfrcp 7 8 0) (withV (shaped 13 4 1 0) 13 32 [(8, [0x40400000, 0x3F800000, 0x3F800000, 0x3F800000])])
    (fun t => holds t 7 32 [0x3EAAA000, 0x3F7FE000] && t.h.fcsr == 0#9) = true := by decide +kernel

/-- The worked example of R531: a NaN is below every number under `vcmpltn`; the gate flag is set and no other. -/
theorem test_vcmpltn_nan : after (.vcmpVv 2 4 5 0 0 2 3) (withV (shaped 13 4 1 0) 13 32 [(4, [0x7FC00000]), (5, [0xFF800000])])
    (fun t => (t.h.m[2][0]).getLsbD 0 && t.h.gatef && t.h.fcsr == 0#9) = true := by decide +kernel

/-- A step fetches, decodes and runs: the first word `addi x5, x0, 9`. -/
theorem test_step_runs : (match step (State.reset.withFetchWord 32 0x0CA00009) with | .next t => t.x 5 == 9#64 && t.h.pc == 4#64 | _ => false) = true := by
  decide +kernel

/-- `vfsat` may begin at once under f32 with a shape that is not empty; infinities of both signs, a NaN and a finite value. -/
theorem witness_SaturationRule : etFmt (vtEt floats.h.vtype) = some .f32 ∧ (∀ p ∈ [pVfsat 8 10 0], Runs floats p) ∧ floats.h.vl * floats.h.vrows ≠ 0 ∧
    saturated .f32 0x7F800000 = 0x7F7FFFFF ∧ saturated .f32 0xFF800000 = 0xFF7FFFFF ∧ saturated .f32 0x7F800001 = 0x7FC00000 ∧
    saturated .f32 0x80000001 = 0x80000001 :=
  ⟨by decide +kernel, runs_of_ok (by decide +kernel), by decide +kernel, by decide +kernel, by decide +kernel, by decide +kernel, by decide +kernel⟩

/-! ### The remaining hypotheses -/

/-- A word that decodes. -/
theorem witness_EncodeOfDecode : decodeWord 0x0CA00003#32 = .ok (.addi 5#5 0#5 3#16) := by decide +kernel

/-- A word that decodes and one that does not. -/
theorem witness_ReservedWordsAreThoseWithoutInstruction : isReserved 0#32 = true ∧ isReserved 0x0CA00003#32 = false := by decide +kernel

/-- Two operands that nothing stands in the way of. -/
theorem witness_ScalarAluResults : Clear base [1, 2] ∧ Clear base [1] := ⟨clear_base _, clear_base _⟩

/-- One operand, or none. -/
theorem witness_ScalarImmediateResults : Clear base [1] ∧ Clear base [] := ⟨clear_base _, clear_base _⟩

/-- No prefix and an empty queue. -/
theorem witness_ScalarResultsLeaveTheRest : base.h.pfxNext = false ∧ base.h.queue = [] := by decide +kernel

/-- Two operands of an instruction whose destination is x0. -/
theorem witness_RegisterZeroIsHardWired : Clear base [1, 2] := clear_base _

/-- Every way through the loop-end step: neither level, each alone at its last pass and before it, and both on one instruction. -/
theorem witness_LoopEndStepRule : let at_ (c0 c1 : Word) : Hart := { base.h with pc := 8#64, le0 := 8#64, le1 := 8#64, lc0 := c0, lc1 := c1 }
    Clear base [1] ∧ ((at_ 0 0).lc1 = 0#64 ∧ (at_ 0 0).lc0 = 0#64) ∧ ((at_ 0 2).lc1 ≠ 0#64 ∧ (at_ 0 2).pc = (at_ 0 2).le1 ∧ (at_ 0 2).lc1 - 1#64 ≠ 0#64) ∧
    ((at_ 1 1).lc1 - 1#64 = 0#64 ∧ (at_ 1 1).lc0 ≠ 0#64 ∧ (at_ 1 1).pc = (at_ 1 1).le0 ∧ (at_ 1 1).lc0 - 1#64 = 0#64) ∧ (at_ 2 0).lc0 - 1#64 ≠ 0#64 :=
  ⟨clear_base _, by decide +kernel⟩

/-- A loop at the end of an active one of each level; one with a count and one without. -/
theorem witness_HardwareLoopRule : let at0 := base.mod fun h => { h with pc := 8#64, le0 := 8#64, lc0 := 1#64 }
    let at1 := base.mod fun h => { h with pc := 8#64, le1 := 8#64, lc1 := 1#64 }
    Clear base [1] ∧ Clear at0 [1] ∧ Clear at1 [1] ∧ (at0.h.pc = at0.h.le0 ∧ at0.h.lc0 ≠ 0#64) ∧ (at1.h.pc = at1.h.le1 ∧ at1.h.lc1 ≠ 0#64) ∧
    base.h.lc0 = 0#64 ∧ base.h.lc1 = 0#64 ∧ base.x 1 = 0#64 ∧ (withX base [(1, 5#64)]).x 1 ≠ 0#64 :=
  ⟨clear_base _, clear_of_idle (by decide +kernel) (by decide +kernel) _, clear_of_idle (by decide +kernel) (by decide +kernel) _, by decide +kernel⟩

/-- A prefix with nothing in its way. -/
theorem witness_PrefixIsKeptForItsSuccessor : Clear base [] := clear_base _

/-- The instructions may begin, a fibre of two entries is an input, and an entry lies below VL and the shapes' limits. -/
theorem witness_FibreMovesAndCounts : let s := ints.mod fun h => { h with f := h.f.set 4 { FReg.none with valid := true, et := 2#4, lmap := 15#4, occ := 2, coords := 0x0000000700000003#8192 } }
    (∀ p ∈ [pFmv 5 4, pFclr 5, pFocc 4 9, pFcoord 4 8, pFval 4 8], Runs s p) ∧ (fibreIn s 4).length = 2 ∧ 1 < s.h.vl ∧
    1 < vlmaxOf (groupCount (vtGroups s.h.vtype)) 6#4 ∧ 1 < vlmaxOf (groupCount (vtGroups s.h.vtype)) (fibreType s 4) ∧
    (1 + 1) * etBits (fibreType s 4) ≤ 8192 :=
  ⟨runs_of_ok (by decide +kernel), by decide +kernel⟩

/-- The instructions may begin; a row of the tile that a row of va lands on, and one that none does. -/
theorem witness_TileSliceMoves : (∀ p ∈ [pMzero 1, pMtv 1 8 5, pMtvc 1 8 5, pMvt 1 8 5, pMvtc 1 8 5], Runs ints p) ∧ 3 < ints.h.vrows ∧ ints.h.vrows ≤ 3 + 128 ∧
    (∀ k < ints.h.vrows, ((ints.x 5).toNat + k) % 128 ≠ 4) :=
  ⟨runs_of_ok (by decide +kernel), by decide +kernel⟩

/-- An outer product of one row, and elements inside and outside MR and MC. -/
theorem witness_IntegerOuterProduct : (∀ p ∈ [pMopi 1 10 12 0 0 0, pMopi 1 10 12 0 0 1], Runs tiles p) ∧ tiles.h.gangBound = false ∧ tiles.h.vrows = 1 ∧
    tiles.h.vstart = 0#32 ∧ 15 < tiles.h.mr ∧ 15 < tiles.h.mc ∧ tiles.h.mr = 16 :=
  ⟨runs_of_ok (by decide +kernel), by decide +kernel⟩

end Sys2Proof.Tests
end

section
/-! SUPPORT. What a step of the machine is in each case: one equation per case of `coreStep`, `ownStep`, `step` and `fetch`
(R8, R165, R294, R401, R436), and the statement O5 that they make up. -/

namespace Sys2Proof.Machine

/-! ### The core's step: the next word, its instruction and its meaning -/

theorem State.coreStep_of_decoded {s t : State} {w : IWord} {i : Instr} (hw : s.nextWord = .ok (w, t)) (hi : decodeWord w = .ok i) :
    s.coreStep = exec i t := by
  simp [State.coreStep, hw, hi]

theorem State.coreStep_of_reserved {s t : State} {w : IWord} {r : Reserved} (hw : s.nextWord = .ok (w, t)) (hr : decodeWord w = .error r) :
    s.coreStep = .next (t.ill w) := by
  simp [State.coreStep, State.reserved, hw, hr]

theorem State.coreStep_of_no_word {s t : State} (hw : s.nextWord = .error t) : s.coreStep = .next t := by
  simp [State.coreStep, hw]

/-! ### Packets of the device's own -/

theorem State.ownStep_of_turned_nil {s : State} (h : s.fab.turned = []) : s.ownStep = s.coreStep := by
  simp [State.ownStep, h]

theorem State.ownStep_of_turned_ne_nil {s : State} (h : s.fab.turned ≠ []) :
    s.ownStep = if Config.landsNow s.free = true then .next (State.turnBack { s with free := s.free + 1 })
      else State.coreStep { s with free := s.free + 1 } := by
  obtain ⟨p, ps, hp⟩ := List.exists_cons_of_ne_nil h
  simp [State.ownStep, hp]

/-! ### Arrivals -/

theorem step_of_arrivals_nil {s : State} (h : s.arrivals = []) : step s = s.ownStep := by
  simp [step, h]

theorem step_of_arrival_lands {s : State} {e : Instr} {rest : List Instr} (h : s.arrivals = e :: rest) (hl : Config.landsNow s.free = true) :
    step s = exec e { s with arrivals := rest, free := s.free + 1 } := by
  simp [step, h, hl]

theorem step_of_arrival_stays {s : State} {e : Instr} {rest : List Instr} (h : s.arrivals = e :: rest) (hl : Config.landsNow s.free = false) :
    step s = State.ownStep { s with free := s.free + 1 } := by
  simp [step, h, hl]

/-- With nothing pending the step is the core's. -/
theorem step_eq_coreStep {s : State} (ha : s.arrivals = []) (ht : s.fab.turned = []) : step s = s.coreStep :=
  (step_of_arrivals_nil ha).trans (State.ownStep_of_turned_nil ht)

/-! ### The fetch -/

theorem State.fetch_of_icacheRead {s t t' : State} {k : Nat} {enc p : Bool} {g : Nat} {bs : List Byte} (ha : s.h.pc.toNat % 4 = 0)
    (hl : s.locate s.whoScalar s.h.pc.toNat 4 .fetch .scalar = .ok (.hbm k enc p g, t)) (hr : t.icacheRead t.whoScalar enc k = (some bs, t')) :
    s.fetch = .ok (BitVec.ofNat 32 (leNat bs), t') := by
  simp [State.fetch, ha, hl, hr]

/-! ### The statement -/

/-- Settles O5: each clause is the equation of its case of the step or of the fetch. -/
theorem stepRunsDecodedInstruction : Obligations.StepRunsDecodedInstruction := by
  refine ⟨?decoded, ?reserved, ?noWord, ?fetch, ?lands, ?stays, ?turned⟩
  case decoded =>
    intro s w t i ha ht hw hi
    rw [step_eq_coreStep ha ht, State.coreStep_of_decoded hw hi]
  case reserved =>
    intro s w t r ha ht hw hr
    rw [step_eq_coreStep ha ht, State.coreStep_of_reserved hw hr]
  case noWord =>
    intro s t ha ht hw
    rw [step_eq_coreStep ha ht, State.coreStep_of_no_word hw]
  case fetch =>
    intro s t t' k enc p g bs ha hl hr
    exact State.fetch_of_icacheRead ha hl hr
  case lands =>
    intro s e rest ha hl
    exact step_of_arrival_lands ha hl
  case stays =>
    intro s e rest ha hl
    exact step_of_arrival_stays ha hl
  case turned =>
    intro s ha ht
    rw [step_of_arrivals_nil ha, State.ownStep_of_turned_ne_nil ht]

end Sys2Proof.Machine
end

section
/-! SUPPORT. The host interface (R18 to R27, R115 to R132): what a record that is next does, the ring counts, the registers of BAR0, the
monitors, bring-up and trips, one equation per case; and the statement O59 that they make up. -/

namespace Sys2Proof.Machine
open Sys2Proof.Claims

/-! ### Little-endian values -/

theorem natLe_length : ∀ n v, (natLe n v).length = n
  | 0, _ => rfl
  | n + 1, v => by simp [natLe, natLe_length n]

theorem leNat_natLe : ∀ n v, leNat (natLe n v) = v % 256 ^ n
  | 0, v => by simp [natLe, leNat, Nat.mod_one]
  | n + 1, v => by
    simp only [natLe, leNat, leNat_natLe n, BitVec.toNat_ofNat]
    rw [pow_succ' 256]
    exact Nat.mod_mul.symm

theorem slice_all (bs : List Byte) : slice bs 0 bs.length = bs := by simp [slice]

theorem sliceNat_natLe (n v : Nat) : sliceNat (natLe n v) 0 n = v % 256 ^ n := by
  have h := slice_all (natLe n v)
  rw [natLe_length] at h
  rw [sliceNat, h, leNat_natLe]

/-- The four bytes of a word name it. -/
theorem ofNat_sliceNat_natLe (v : BitVec 32) : BitVec.ofNat 32 (sliceNat (natLe 4 v.toNat) 0 4) = v := by
  rw [sliceNat_natLe]
  apply BitVec.eq_of_toNat_eq
  have := v.isLt
  rw [BitVec.toNat_ofNat]
  omega

/-! ### Completions (R129, R130) -/

theorem State.complete_of_room {s : State} (h : s.host.cqFull = false) (rec : List Byte) (st v : Nat) :
    s.complete rec st v = s.putCompletion (completionOf rec st v) := by
  simp [State.complete, h]

/-- A completion, written or held, touches the host interface alone. -/
theorem State.complete_frame (s : State) (rec : List Byte) (st v : Nat) : { s.complete rec st v with host := s.host } = s := by
  unfold State.complete
  split <;> rfl

@[simp] theorem State.complete_ctxs (s : State) (rec : List Byte) (st v : Nat) : (s.complete rec st v).ctxs = s.ctxs :=
  (congrArg State.ctxs (s.complete_frame rec st v) :)

@[simp] theorem State.complete_trust (s : State) (rec : List Byte) (st v : Nat) : (s.complete rec st v).trust = s.trust :=
  (congrArg State.trust (s.complete_frame rec st v) :)

/-- A completion that has room stands in its slot, counts, and raises vector 0. -/
theorem State.putCompletion_ring (s : State) (c : List Byte) :
    (s.putCompletion c).host.cqprod = s.host.cqprod + 1#8 ∧ (s.putCompletion c).host.crqhead = s.host.crqhead + 1#8 ∧
    (s.host.cqprod.toNat % 64, c) ∈ (s.putCompletion c).host.cq ∧ (s.putCompletion c).host.msix = s.host.msix ++ [0] :=
  ⟨rfl, rfl, List.mem_cons_self .., rfl⟩

/-! ### Records (R121, R125 to R128) -/

/-- A record that is next and in order is processed. -/
theorem State.onRecord_of_next {s : State} {rec : List Byte} {opc lo hi : Nat} (h : NextIs s rec opc lo hi) (k : List Byte → State → State) :
    s.onRecord opc lo hi k = .next (k rec s) := by
  obtain ⟨hrec, hopc, hstate, hheader, hzeros⟩ := h
  have hmay : ¬ (s.host.state ≠ .ready && opc ≠ 1 && opc ≠ 2 && opc ≠ 7) = true := by
    simp only [Bool.and_eq_true, decide_eq_true_eq]
    tauto
  simp only [State.onRecord, hrec]
  rw [if_neg (not_not_intro hopc), if_neg hmay, if_neg (by simp [hheader, hzeros])]

theorem execNop_of_next {s : State} {rec : List Byte} (h : NextIs s rec 1 16 16) : execNop s = .next (s.complete rec 0 0) :=
  State.onRecord_of_next h _

theorem execBadopc_of_unknown {s : State} {rec : List Byte} (h : s.nextRecord = some rec) (ho : sliceNat rec 0 1 = 0 ∨ 7 < sliceNat rec 0 1) :
    execBadopc s = .next (s.complete rec 1 0) := by
  simp [execBadopc, h, ho]

/-- A first FEATACK of offered bits alone: the device boots, or holds the completion that will let it. -/
theorem execFeatack_first {s : State} {rec : List Byte} (h : NextIs s rec 2 16 32) (hr : s.host.state ≠ .reset) (hp : s.host.state ≠ .powerup)
    (ha : s.host.featAcked = false) (hb : featBad (featWords rec) = false) :
    let u := s.acceptWords (featWords rec)
    execFeatack s = .next (if s.host.cqFull then (u.complete rec 0 0).modHost fun h => { h with bootHeld := true }
      else (u.boot u.runtimeObject).complete rec 0 0) := by
  have hfull : (s.acceptWords (featWords rec)).host.cqFull = s.host.cqFull := rfl
  simp [execFeatack, State.onRecord_of_next h, hr, hp, ha, hb, hfull]

theorem execFeatack_again {s : State} {rec : List Byte} (h : NextIs s rec 2 16 32) (hr : s.host.state ≠ .reset) (hp : s.host.state ≠ .powerup)
    (ha : s.host.featAcked = true) : execFeatack s = .next ((s.modHost fun h => { h with featAcked := true }).complete rec 2 0) := by
  simp [execFeatack, State.onRecord_of_next h, hr, hp, ha]

theorem execCtxnew_of_next {s : State} {rec : List Byte} (h : NextIs s rec 3 16 20) (hb : s.ctxnewBad rec = false)
    (hq : s.quarantined (BitVec.ofNat 16 (sliceNat rec 16 2)) = false) : execCtxnew s = .next (s.newContext rec) := by
  simp [execCtxnew, State.onRecord_of_next h, hb, hq]

/-- The entry of a new context takes the place of one of its number. -/
theorem State.newContext_ctxs (s : State) (rec : List Byte) :
    (s.newContext rec).ctxs =
      { ctxid := recordCtx rec, live := true, asid := BitVec.ofNat 16 (sliceNat rec 18 2), root := 0, valid := false,
        job := BitVec.ofNat 16 (sliceNat rec 16 2), key := Config.freeChoice s.free, compat := none, drain := 0, preempted := false } ::
      s.ctxs.filter (·.ctxid ≠ recordCtx rec) := by
  unfold State.newContext
  simp only [State.tick_ctxs, State.complete_ctxs]
  rfl

theorem execCtxkill_of_next {s : State} {rec : List Byte} (h : NextIs s rec 4 16 16) :
    execCtxkill s = .next (if (s.ctx (recordCtx rec)).isNone then s.complete rec 3 0
      else (s.killContext (recordCtx rec) cKILLED).complete rec 0 0) :=
  State.onRecord_of_next h _

/-- A launch of its own context, with no other member: it is queued at once or offered for its instant. -/
theorem execLaunch_of_next {s : State} {rec : List Byte} (h : NextIs s rec 5 16 208) (hc : recCtx (slice rec 16 192) = recordCtx rec)
    (hl : (s.ctx (recordCtx rec)).isSome = true) (hk : recKind (slice rec 16 192) = 0) (hn : recNmem (slice rec 16 192) = 1)
    (hm : recMidx (slice rec 16 192) = 0) :
    execLaunch s = .next (if recT (slice rec 16 192) = 0 then s.launchQueued rec (slice rec 16 192) else s.launchTimed rec (slice rec 16 192)) := by
  have hlive : (s.ctx (recordCtx rec)).isNone = false := Option.isNone_eq_false_iff.mpr hl
  refine (State.onRecord_of_next h _).trans ?_
  rw [if_neg (not_not_intro hc), hlive, if_neg Bool.false_ne_true, if_neg (by simp [hk, hn, hm])]

theorem State.launchQueued_admitted {s u : State} {rec raw : List Byte} (h : s.admitRecord raw (sliceNat rec 1 1) none = (0, u)) :
    s.launchQueued rec raw = u.complete rec 0 0 := by
  simp [State.launchQueued, h]

theorem State.launchTimed_good {s : State} {rec raw : List Byte} (h : s.recBad raw = false) :
    s.launchTimed rec raw = (s.offerLaunch raw (s.jobOf (recordCtx rec)) 1).complete rec 0 0 := by
  simp [State.launchTimed, h]

/-- A launch that was held is a launch again. -/
theorem execFullAdmissionRetry_of_next {s : State} {rec : List Byte} (h : NextIs s rec 5 16 208) (ht : recT (slice rec 16 192) = 0) :
    execFullAdmissionRetry s = execLaunch s := by
  obtain ⟨hrec, hopc, -⟩ := h
  simp [execFullAdmissionRetry, hrec, hopc, ht]

theorem execFwstage_of_next {s : State} {rec : List Byte} (h : NextIs s rec 7 16 20) :
    let n := sliceNat rec 16 4
    let img := (List.range (min n 4194304)).map fun i => cellGet s.host.staging i
    execFwstage s = .next (if n ≤ 4194304 && fwValid s.host.fuseSvn.toNat img then
        (s.modHost fun h => if h.slot then { h with flashA := img } else { h with flashB := img }).complete rec 0 0
      else s.complete rec 5 0) :=
  State.onRecord_of_next h _

/-! ### Policies (R102) -/

@[simp] theorem State.bumpKey_policies (s : State) (q : Nat) (p : Packet) : (s.bumpKey q p).trust.policies = s.trust.policies := by
  unfold State.bumpKey
  split <;> rfl

@[simp] theorem State.emit_policies (s : State) (q : Nat) (p : Packet) : (s.emit q p).trust.policies = s.trust.policies :=
  State.bumpKey_policies ..

@[simp] theorem State.sendSpdm_policies (s : State) (dst : Epid) (kinds : Nat) (msg : List Byte) :
    (s.sendSpdm dst kinds msg).trust.policies = s.trust.policies :=
  foldl_keeps (fun t : State => t.trust.policies = s.trust.policies) _ (fun _ _ ht => (State.emit_policies ..).trans ht) _ _ rfl

/-- Attesting the members of a job sends messages; the policies stand. -/
@[simp] theorem State.attest_policies (s : State) (job : BitVec 16) : (s.attest job).trust.policies = s.trust.policies := by
  refine foldl_keeps (fun t : State => t.trust.policies = s.trust.policies) _ (fun t ep ht => ?_) _ _ rfl
  exact (State.sendSpdm_policies (t.setPeer ep _) ..).trans ht

/-- The policy of a job, or a new one of no entries. -/
def State.policyOf (s : State) (job : BitVec 16) (n : Nat) : Policy := (s.trust.policies.find? (·.job = job)).getD ⟨job, n, []⟩

theorem State.policyOf_job (s : State) (job : BitVec 16) (n : Nat) : (s.policyOf job n).job = job := by
  unfold State.policyOf
  cases hf : s.trust.policies.find? (·.job = job) with
  | none => rfl
  | some p => simpa using List.find?_some hf

/-- The entry of a POLICY record joins its job's list. -/
theorem execPolicy_of_next {s : State} {rec : List Byte} (h : NextIs s rec 6 16 128) (hi : sliceNat rec 18 2 < sliceNat rec 20 2)
    (hz : sliceNat rec 22 42 = 0) :
    let job : BitVec 16 := BitVec.ofNat 16 (sliceNat rec 16 2)
    ∃ t, execPolicy s = .next t ∧
      (s.policyOf job (sliceNat rec 20 2)).put (sliceNat rec 20 2) (sliceNat rec 18 2) (slice rec 64 64) ∈ t.trust.policies := by
  intro job
  have hbad : ¬ (sliceNat rec 20 2 = 0 || sliceNat rec 20 2 ≤ sliceNat rec 18 2 || sliceNat rec 22 42 ≠ 0) = true := by
    simp only [Bool.or_eq_true, decide_eq_true_eq]
    omega
  refine ⟨_, State.onRecord_of_next h _, ?_⟩
  rw [if_neg hbad, State.complete_trust]
  split
  · rw [State.attest_policies]
    exact List.mem_cons_self ..
  · exact List.mem_cons_self ..

/-! ### Quarantine (R77) -/

/-- With no instant to come before it, device time reaches its goal. -/
theorem State.le_timeTo {s : State} (h : NoInstants s) (goal : Nat) : goal ≤ (s.timeTo goal).clock.gtime := by
  have hstop : s.sched.gangs.foldl (fun n g =>
      if g.passed || g.t * 65536 ≤ s.clock.gtime then n else min n (g.t * 65536 - 1)) goal = goal := by
    refine List.foldlRecOn _ _ (motive := (· = goal)) rfl fun n hn g hg => ?_
    have hpast := h g hg
    rw [if_pos (by simpa using hpast), hn]
  show goal ≤ max _ _
  rw [hstop]
  exact Nat.le_max_right ..

theorem execQuarantineExpiry_idle {s : State} {job : BitVec 16} {e : JobEntry} (he : s.jobEntry job = some e) (hq : e.state = .quarantine)
    (hn : s.nextRecord = none) : execQuarantineExpiry job s = .next (s.timeTo (e.stamp + 64000 * 65536)) := by
  have hn' : (s.timeTo (e.stamp + 64000 * 65536)).nextRecord = none := hn
  simp [execQuarantineExpiry, he, hq, hn']

/-- A JOB entry whose 64 us have passed is out of quarantine. -/
theorem State.quarantined_of_late {s : State} {job : BitVec 16} {e : JobEntry} (he : s.jobEntry job = some e)
    (ht : e.stamp + 64000 * 65536 ≤ s.clock.gtime) : s.quarantined job = false := by
  simp only [State.quarantined, he]
  rw [decide_eq_false (Nat.not_lt.mpr ht), Bool.and_false]

/-! ### The link (R115) -/

theorem viaLink_up {s : State} (h : s.host.linkUp = true) (k : State → State) : viaLink s k = .next (k s) := by
  simp [viaLink, h]

theorem viaLink_down {s : State} (h : s.host.linkUp = false) (k : State → State) : viaLink s k = .next s := by
  simp [viaLink, h]

/-! ### Ring counts (R125, R130, R132) -/

theorem State.writeCrqtail_in {s : State} {v : BitVec 32} (h : (v.extractLsb' 0 8 - s.host.crqhead).toNat ≤ 64) :
    s.writeCrqtail v = s.modHost fun h => { h with crqtail := v.extractLsb' 0 8 } := if_neg (Nat.not_lt.mpr h)

theorem State.writeCrqtail_out {s : State} {v : BitVec 32} (h : 64 < (v.extractLsb' 0 8 - s.host.crqhead).toNat) :
    s.writeCrqtail v = s.ringError := if_pos h

theorem State.writeCqcons_in {s : State} {v : BitVec 32} (h : (s.host.cqprod - v.extractLsb' 0 8).toNat ≤ 64) (hh : s.host.heldCompletion = none) :
    s.writeCqcons v = s.modHost fun h => { h with cqcons := v.extractLsb' 0 8 } := by
  unfold State.writeCqcons
  simp only [if_neg (Nat.not_lt.mpr h)]
  rw [show (s.modHost fun h => { h with cqcons := v.extractLsb' 0 8 }).host.heldCompletion = none from hh]

theorem State.writeCqcons_out {s : State} {v : BitVec 32} (h : 64 < (s.host.cqprod - v.extractLsb' 0 8).toNat) :
    s.writeCqcons v = s.ringError := if_pos h

theorem State.writeEvcons_in {s : State} {v : BitVec 32} (h : (s.host.evprod - v.extractLsb' 0 16).toNat ≤ 256) :
    s.writeEvcons v = s.modHost fun h => { h with evcons := v.extractLsb' 0 16 } := if_neg (Nat.not_lt.mpr h)

theorem State.writeEvcons_out {s : State} {v : BitVec 32} (h : 256 < (s.host.evprod - v.extractLsb' 0 16).toNat) :
    s.writeEvcons v = s.ringError := if_pos h

/-! ### Registers of BAR0 (R116 to R119) -/

/-- An aligned write of four bytes writes one word. -/
theorem execRegisterWrite_word {s : State} (hl : s.host.linkUp = true) {o : Nat} (ho : o % 4 = 0) (v : BitVec 32) :
    execRegisterWrite o (natLe 4 v.toNat) s = .next (s.writeBarWord o v) := by
  rw [execRegisterWrite, viaLink_up hl]
  simp [natLe_length, ho, ofNat_sliceNat_natLe]

/-- A word of the command ring goes to its slot. -/
theorem State.writeBarWord_slot (s : State) {o : Nat} (hlo : 0x10000 ≤ o) (hhi : o < 0x14000) (v : BitVec 32) :
    s.writeBarWord o v = s.modHost fun h => h.putSlot ((o - 0x10000) / 256) (o % 256) (natLe 4 v.toNat) := by
  have hne : ∀ k < 0x10000, o ≠ k := fun k hk => by omega
  simp only [State.writeBarWord, hne 0x10 (by decide), hne 0x18 (by decide), hne 0x28 (by decide), hne 0x2C (by decide), if_false]
  rw [if_neg (by simp only [Bool.and_eq_true, decide_eq_true_eq]; omega), if_pos (by simp [hlo, hhi])]

theorem DevState.code_lt (d : DevState) : d.code < 8 := by cases d <;> decide

theorem ite_eq_toNat_mul (b : Bool) (n : Nat) : (if b then n else 0) = b.toNat * n := by cases b <;> simp

/-- DEVSTAT as a sum of its fields, which fits a register. -/
theorem HostIf.devstat_toNat (h : HostIf) :
    (BitVec.ofNat 32 h.devstat).toNat =
      h.state.code + h.slot.toNat * 2 ^ 7 + h.svn.toNat * 2 ^ 8 + h.ringerr.toNat * 2 ^ 16 + h.die.toNat * 2 ^ 20 + h.cause.toNat * 2 ^ 24 := by
  have hcode := h.state.code_lt
  have hslot := h.slot.toNat_lt
  have hsvn := h.svn.isLt
  have hring := h.ringerr.toNat_lt
  have hdie := h.die.isLt
  have hcause := h.cause.isLt
  rw [BitVec.toNat_ofNat, HostIf.devstat, ite_eq_toNat_mul, ite_eq_toNat_mul]
  omega

/-- The fields of DEVSTAT (R119), low bits first. -/
theorem HostIf.devstat_fields (h : HostIf) :
    let v : BitVec 32 := BitVec.ofNat 32 h.devstat
    (v.extractLsb' 0 3).toNat = h.state.code ∧ v.extractLsb' 3 4 = 0#4 ∧ v.getLsbD 7 = h.slot ∧ v.extractLsb' 8 8 = h.svn ∧
    v.getLsbD 16 = h.ringerr ∧ v.extractLsb' 17 3 = 0#3 ∧ v.extractLsb' 20 4 = h.die ∧ v.extractLsb' 24 8 = h.cause := by
  intro v
  have hcode := h.state.code_lt
  have hslot := h.slot.toNat_lt
  have hsvn := h.svn.isLt
  have hring := h.ringerr.toNat_lt
  have hdie := h.die.isLt
  have hcause := h.cause.isLt
  have hv := h.devstat_toNat
  have hfield (at_ n : Nat) : (v.extractLsb' at_ n).toNat = v.toNat / 2 ^ at_ % 2 ^ n := by
    rw [BitVec.extractLsb'_toNat, Nat.shiftRight_eq_div_pow]
  have hbit (at_ : Nat) (b : Bool) (hb : v.toNat / 2 ^ at_ % 2 = b.toNat) : v.getLsbD at_ = b := by
    rw [← BitVec.testBit_toNat, Nat.testBit_eq_decide_div_mod_eq, hb]
    cases b <;> rfl
  refine ⟨?_, BitVec.eq_of_toNat_eq ?_, hbit 7 _ ?_, BitVec.eq_of_toNat_eq ?_, hbit 16 _ ?_, BitVec.eq_of_toNat_eq ?_, BitVec.eq_of_toNat_eq ?_,
    BitVec.eq_of_toNat_eq ?_⟩
  · rw [hfield, hv]; omega
  · rw [hfield, hv, BitVec.toNat_ofNat]; omega
  · rw [hv]; omega
  · rw [hfield, hv]; omega
  · rw [hv]; omega
  · rw [hfield, hv, BitVec.toNat_ofNat]; omega
  · rw [hfield, hv]; omega
  · rw [hfield, hv]; omega

/-- A read of one aligned word. -/
theorem State.readBar_word (s : State) {o : Nat} (h : o % 4 = 0) : s.readBar o 4 = s.readBarWord o := by
  simp [State.readBar, h]

/-! ### Monitors (R24 to R27) -/

theorem State.modMonitor_same (s : State) (d : Fin 14) (k : Fin 8) (f : Monitor → Monitor) :
    (s.modMonitor d.val k.val f).host.monitors[d][k] = f s.host.monitors[d][k] := by
  simp [State.modMonitor]

/-- A monitor that records takes the sample; launches are not sampled this way. -/
theorem execMonitorSample_eq (s : State) (die k n : Nat) :
    execMonitorSample die k n s = .next (s.modMonitor die k fun m =>
      if m.records die = true ∧ m.sel ≠ 3 then m.sample (if m.sel = 4 then s.dieRetries die else n) else m) := by
  simp [execMonitorSample]

theorem Monitor.write_ctl (m : Monitor) (v : BitVec 32) : (m.write v).ctl = v &&& ~~~0xC#32 := by
  unfold Monitor.write
  dsimp only
  split <;> rfl

/-! ### Bring-up (R18 to R20, R119 to R122) -/

/-- Coming to FEATWAIT changes DEVSTAT.STATE alone. -/
theorem State.poweredUp_frame (s : State) :
    { s.poweredUp.host with state := s.host.state } = s.host := by
  unfold State.poweredUp
  split <;> rfl

@[simp] theorem State.poweredUp_diePower (s : State) : s.poweredUp.host.diePower = s.host.diePower :=
  (congrArg HostIf.diePower s.poweredUp_frame :)

@[simp] theorem State.poweredUp_dieUp (s : State) : s.poweredUp.host.dieUp = s.host.dieUp := (congrArg HostIf.dieUp s.poweredUp_frame :)

@[simp] theorem State.poweredUp_fwDone (s : State) : s.poweredUp.host.fwDone = s.host.fwDone := (congrArg HostIf.fwDone s.poweredUp_frame :)

@[simp] theorem State.poweredUp_slot (s : State) : s.poweredUp.host.slot = s.host.slot := (congrArg HostIf.slot s.poweredUp_frame :)

theorem State.poweredUp_state {s : State} (hp : s.host.state = .powerup) (hf : s.host.fwDone = true) :
    s.poweredUp.host.state = if s.host.dieUp = 0x3FFF#14 then .featwait else .powerup := by
  unfold State.poweredUp
  by_cases hd : s.host.dieUp = 0x3FFF#14
  · rw [if_pos (by simp [hp, hf, hd]), if_pos hd]; rfl
  · rw [if_neg (by simp [hd]), if_neg hd, hp]

/-- The die before a compute die. -/
theorem dieBefore_compute {die : Nat} (h : die < 12) : dieBefore die = if die = 0 then 13 else die - 1 := if_neg (by omega)

/-- A compute die whose slot has come is powered, and not yet up. -/
theorem execDiePowerUp_compute {s : State} {die : Nat} (hp : s.host.state = .powerup) (hd : die < 12)
    (hb : s.host.dieUp.getLsbD (if die = 0 then 13 else die - 1) = true) :
    execDiePowerUp die s = .next (s.modHost fun h => { h with diePower := h.diePower ||| (1#14 <<< die) }).poweredUp := by
  have hne : die ≠ 13 := by omega
  rw [← dieBefore_compute hd] at hb
  simp [execDiePowerUp, hp, hd, hb, hne]

theorem execDiePowerGood_of_powered {s : State} {die : Nat} (hp : s.host.state = .powerup) (hd : die < 12)
    (hw : s.host.diePower.getLsbD die = true) :
    execDiePowerGood die s = .next (s.modHost fun h => { h with dieUp := h.dieUp ||| (1#14 <<< die) }).poweredUp := by
  simp [execDiePowerGood, hp, hd, hw]

theorem execPowerGoodTimeout_of_dark {s : State} {die : Nat} (hp : s.host.state = .powerup) (hd : die < 12)
    (hw : s.host.diePower.getLsbD die = true) (hu : s.host.dieUp.getLsbD die = false) :
    execPowerGoodTimeout die s = .next (s.failDevice 1 die) := by
  simp [execPowerGoodTimeout, hp, hd, hw, hu]

theorem execModuleReset_eq (s : State) (v : BitVec 32) :
    execModuleReset v s = .next (if v.extractLsb' 16 16 = 0xA5F0#16 ∧ v.getLsbD 0 = true then s.restart false else s) := by
  simp [execModuleReset]

/-- The firmware of a slot runs (R122): the slot is noted, its SVN shown, and the fused value follows it. -/
def State.runSlot (s : State) (slot : Bool) (img : List Byte) : State :=
  (s.modHost fun h =>
    { h with fwDone := true, slot := slot, svn := BitVec.ofNat 8 (fwSvn img),
             fuseSvn := BitVec.ofNat 32 (max s.host.fuseSvn.toNat (fwSvn img)) }).poweredUp

@[simp] theorem State.runSlot_fwDone (s : State) (slot : Bool) (img : List Byte) : (s.runSlot slot img).host.fwDone = true :=
  State.poweredUp_fwDone _

@[simp] theorem State.runSlot_slot (s : State) (slot : Bool) (img : List Byte) : (s.runSlot slot img).host.slot = slot :=
  State.poweredUp_slot _

theorem State.runSlot_state {s : State} (hp : s.host.state = .powerup) (slot : Bool) (img : List Byte) :
    (s.runSlot slot img).host.state = if s.host.dieUp = 0x3FFF#14 then .featwait else .powerup :=
  State.poweredUp_state hp rfl

/-- The valid slot of the higher SVN runs, slot A at a tie; with neither valid the device fails. -/
theorem execFirmwareCheckDone_of_pending {s : State} (hp : s.host.state = .powerup) (hf : s.host.fwDone = false) :
    execFirmwareCheckDone s = .next (
      if fwValid s.host.fuseSvn.toNat s.host.flashA = true ∧
          (fwValid s.host.fuseSvn.toNat s.host.flashB = false ∨ fwSvn s.host.flashB ≤ fwSvn s.host.flashA) then s.runSlot false s.host.flashA
      else if fwValid s.host.fuseSvn.toNat s.host.flashB = true then s.runSlot true s.host.flashB
      else s.failDevice 2 0) := by
  simp [execFirmwareCheckDone, State.runSlot, hp, hf]

/-! ### Trips (R18, R131) -/

/-- A trip of a device that has not failed leaves FAILED with its cause. -/
theorem State.trip_failed {s : State} (h : s.host.state ≠ .failed) (cause event die : Nat) :
    (s.trip cause event die).host.state = .failed ∧ (s.trip cause event die).host.cause = BitVec.ofNat 8 cause := by
  unfold State.trip
  rw [if_neg h]
  exact ⟨rfl, rfl⟩

/-! ### The statement -/

/-- Settles O59: each clause is the equation of its record, register, monitor or event in the case that the clause names. -/
theorem hostInterfaceEvents : Obligations.HostInterfaceEvents := by
  intro s rec
  refine ⟨?nop, ?badopc, ?completion, ?featackFirst, ?featackAgain, ?ctxnew, ?ctxkill, ?ctxkillNone, ?launch, ?policy, ?fwstage,
    ?quarantine, ?counts, ?linkDown, ?monitors, ?devctl, ?devid, ?crqtail, ?timestat, ?devstat, ?down, ?up, ?powerOn, ?moduleReset,
    ?moduleResetNone, ?powerup, ?dies, ?firmware, ?powerWarn, ?thermalWarn, ?trips⟩
  case nop => exact execNop_of_next
  case badopc => exact execBadopc_of_unknown
  case completion =>
    intro hroom st v
    rw [State.complete_of_room hroom]
    exact s.putCompletion_ring _
  case featackFirst =>
    intro h hr hp ha hb
    refine ⟨fun hroom => ?_, fun hfull => ?_⟩
    · exact (execFeatack_first h hr hp ha hb).trans (by rw [hroom]; rfl)
    · exact (execFeatack_first h hr hp ha hb).trans (by rw [hfull]; rfl)
  case featackAgain => exact execFeatack_again
  case ctxnew =>
    intro h hb hq
    exact ⟨_, execCtxnew_of_next h hb hq, _, State.newContext_ctxs s rec, rfl, rfl, rfl, rfl, rfl, rfl, rfl, rfl⟩
  case ctxkill =>
    intro h hl
    refine (execCtxkill_of_next h).trans ?_
    rw [if_neg (by rw [Option.isNone_eq_false_iff.mpr hl]; exact Bool.false_ne_true)]
  case ctxkillNone =>
    intro h hn
    refine (execCtxkill_of_next h).trans ?_
    rw [hn]
    rfl
  case launch =>
    intro h hc hl hk hn hm
    have hlaunch := execLaunch_of_next h hc hl hk hn hm
    refine ⟨fun ht u hu => ?_, fun ht hgood => ?_⟩
    · rw [if_pos ht, State.launchQueued_admitted hu] at hlaunch
      exact ⟨hlaunch, (execFullAdmissionRetry_of_next h ht).trans hlaunch⟩
    · rw [if_neg ht, State.launchTimed_good hgood] at hlaunch
      exact hlaunch
  case policy =>
    intro h n i hi hz
    obtain ⟨t, ht, hmem⟩ := execPolicy_of_next h hi hz
    exact ⟨t, ht, _, hmem, State.policyOf_job .., rfl, List.mem_cons_self ..⟩
  case fwstage =>
    intro h n img
    refine ⟨fun hn hv => (execFwstage_of_next h).trans ?_, fun hbad => (execFwstage_of_next h).trans ?_⟩
    · rw [if_pos (Bool.and_eq_true_iff.mpr ⟨decide_eq_true hn, hv⟩)]
    · have hno : ¬ (decide (n ≤ 4194304) && fwValid s.host.fuseSvn.toNat img) = true := by
        intro hgood
        obtain ⟨hn, hv⟩ := Bool.and_eq_true_iff.mp hgood
        exact hbad.elim (Nat.not_lt.mpr (of_decide_eq_true hn)) fun h => Bool.false_ne_true (h.symm.trans hv)
      rw [if_neg hno]
  case quarantine =>
    intro job e he hq hn
    refine ⟨_, execQuarantineExpiry_idle he hq hn, fun hi => ?_, rfl⟩
    have hlate := State.le_timeTo hi (e.stamp + 64000 * 65536)
    exact ⟨hlate, State.quarantined_of_late he hlate⟩
  case counts =>
    intro v hl n k
    refine ⟨fun h => ?_, fun h => ?_, fun h hh => ?_, fun h => ?_, fun h => ?_, fun h => ?_, fun o hlo hhi ho => ?_, ?_⟩
    · exact (viaLink_up hl (·.writeCrqtail v)).trans (congrArg _ (State.writeCrqtail_in h))
    · exact (viaLink_up hl (·.writeCrqtail v)).trans (congrArg _ (State.writeCrqtail_out h))
    · exact (viaLink_up hl (·.writeCqcons v)).trans (congrArg _ (State.writeCqcons_in h hh))
    · exact (viaLink_up hl (·.writeCqcons v)).trans (congrArg _ (State.writeCqcons_out h))
    · exact (viaLink_up hl (·.writeEvcons v)).trans (congrArg _ (State.writeEvcons_in h))
    · exact (viaLink_up hl (·.writeEvcons v)).trans (congrArg _ (State.writeEvcons_out h))
    · exact (execRegisterWrite_word hl ho v).trans (congrArg _ (s.writeBarWord_slot hlo hhi v))
    · exact (execRegisterWrite_word hl rfl v).trans (viaLink_up hl (·.writeCrqtail v)).symm
  case linkDown =>
    intro hl v o bs d k
    exact ⟨viaLink_down hl (·.writeCrqtail v), viaLink_down hl (·.writeCqcons v), viaLink_down hl (·.writeEvcons v), viaLink_down hl _,
      viaLink_down hl (·.modMonitor d k Monitor.clear), viaLink_down hl (·.modMonitor d k (·.write v))⟩
  case monitors =>
    intro d k v n hl
    refine ⟨⟨_, viaLink_up hl (·.modMonitor d k Monitor.clear), ?_⟩, ⟨_, viaLink_up hl (·.modMonitor d k (·.write v)), ?_⟩,
      ⟨_, execMonitorSample_eq s d k n, ?_, ?_⟩⟩
    · rw [State.modMonitor_same]
      exact ⟨rfl, rfl, rfl, rfl⟩
    · rw [State.modMonitor_same, Monitor.write_ctl]
    · intro hrec hsel
      rw [State.modMonitor_same, if_pos (And.intro hrec hsel)]
      exact ⟨rfl, rfl⟩
    · intro hoff
      rw [State.modMonitor_same, if_neg]
      rintro ⟨hrec, hsel⟩
      exact hoff.elim (fun h => Bool.false_ne_true (h.symm.trans hrec)) hsel
  case devctl => exact s.readBar_word rfl
  case devid => exact s.readBar_word rfl
  case crqtail => exact s.readBar_word rfl
  case timestat => exact s.readBar_word rfl
  case devstat =>
    rw [s.readBar_word rfl]
    exact s.host.devstat_fields
  case down => rfl
  case up => rfl
  case powerOn => exact ⟨_, rfl, rfl, Bool.or_true _, rfl, rfl, rfl, rfl, rfl⟩
  case moduleReset =>
    intro v hkey hreset
    refine ⟨s.restart false, (execModuleReset_eq s v).trans ?_, rfl, Bool.or_false _, rfl, rfl, rfl, rfl, rfl⟩
    rw [if_pos ⟨hkey, hreset⟩]
  case moduleResetNone =>
    intro v hno
    refine (execModuleReset_eq s v).trans ?_
    rw [if_neg]
    rintro ⟨hkey, hreset⟩
    exact hno.elim (· hkey) fun h => Bool.false_ne_true (h.symm.trans hreset)
  case powerup =>
    intro hr
    exact congrArg _ (if_pos hr)
  case dies =>
    intro die hp _ hd
    refine ⟨fun hb => ⟨_, execDiePowerUp_compute hp hd hb, ?_, ?_⟩, fun hw => ⟨_, execDiePowerGood_of_powered hp hd hw, ?_⟩,
      fun hw hu => ⟨_, execPowerGoodTimeout_of_dark hp hd hw hu, rfl, rfl, rfl⟩⟩
    · exact State.poweredUp_diePower _
    · exact State.poweredUp_dieUp _
    · exact State.poweredUp_dieUp _
  case firmware =>
    intro hp hf f
    have hcheck := execFirmwareCheckDone_of_pending hp hf
    have hno {b : Bool} (h : b = false) : ¬ b = true := Bool.eq_false_iff.mp h
    refine ⟨fun ha hb => ⟨_, hcheck, ?_⟩, fun ha hb => ⟨_, hcheck, ?_⟩, fun ha hb => ⟨_, hcheck, ?_⟩⟩
    · rw [if_neg (fun h => hno ha h.1), if_neg (hno hb)]
      exact ⟨rfl, rfl⟩
    · by_cases hle : fwSvn s.host.flashB ≤ fwSvn s.host.flashA
      · rw [if_pos ⟨ha, .inr hle⟩, decide_eq_false (Nat.not_lt.mpr hle)]
        exact ⟨State.runSlot_fwDone .., State.runSlot_slot ..⟩
      · rw [if_neg (fun h => h.2.elim (fun hb' => hno hb' hb) hle), if_pos hb, decide_eq_true (Nat.lt_of_not_le hle)]
        exact ⟨State.runSlot_fwDone .., State.runSlot_slot ..⟩
    · rw [if_pos ⟨ha, .inl hb⟩]
      exact ⟨State.runSlot_fwDone .., State.runSlot_slot .., State.runSlot_state hp ..⟩
  case powerWarn => rfl
  case thermalWarn => exact fun _ => rfl
  case trips =>
    intro hs
    exact ⟨⟨_, rfl, State.trip_failed hs ..⟩, fun die => ⟨_, rfl, State.trip_failed hs ..⟩⟩

end Sys2Proof.Machine
end

section
/-! SUPPORT. Cluster SRAM banks and protection groups (R305 to R325): what a write of BANKMODE, the end of a change, a line that fails, and
each turn of a rebuild leave, one equation per case. -/

namespace Sys2Proof.Machine

/-! ### A bank and the writes that touch it -/

theorem State.bank_eq_some {s : State} {die bank : Nat} {b : Bank} :
    s.bank die bank = some b ↔ ∃ (hd : die < 12) (hb : bank < 128), s.mem.banks[die][bank] = b := by
  simp [State.bank, Option.bind_eq_some_iff, Vector.getElem?_eq_some_iff]

theorem State.bank_modBank {s : State} {die bank : Nat} {b : Bank} (h : s.bank die bank = some b) (f : Bank → Bank) :
    (s.modBank die bank f).bank die bank = some (f b) := by
  obtain ⟨hd, hb, rfl⟩ := State.bank_eq_some.mp h
  exact State.bank_eq_some.mpr ⟨hd, hb, by simp [State.modBank]⟩

@[simp] theorem State.modBank_cells (s : State) (die bank : Nat) (f : Bank → Bank) : (s.modBank die bank f).mem.cells = s.mem.cells := by
  simp only [State.modBank]

/-- A line that leaves its way touches the ways and the marks of uncorrectable words alone. -/
theorem Memory.evict_frame (m : Memory) (l : WayLine) : { m.evict l with ways := m.ways, eccBad := m.eccBad } = m := by
  unfold Memory.evict
  split <;> rfl

/-- So does a bank that empties, line by line. -/
theorem Memory.closeBank_frame (m : Memory) (die bank : Nat) : { m.closeBank die bank with ways := m.ways, eccBad := m.eccBad } = m := by
  refine List.foldlRecOn (motive := fun m' : Memory => { m' with ways := m.ways, eccBad := m.eccBad } = m) _ Memory.evict rfl fun m' ih l _ => ?_
  have hstep := congrArg (fun x : Memory => { x with ways := m.ways, eccBad := m.eccBad }) (m'.evict_frame l)
  exact hstep.trans ih

@[simp] theorem Memory.closeBank_banks (m : Memory) (die bank : Nat) : (m.closeBank die bank).banks = m.banks :=
  (congrArg Memory.banks (m.closeBank_frame die bank) :)

@[simp] theorem Memory.closeBank_cells (m : Memory) (die bank : Nat) : (m.closeBank die bank).cells = m.cells :=
  (congrArg Memory.cells (m.closeBank_frame die bank) :)

/-- A bank is what the storage's bank array says. -/
theorem State.bank_of_banks {s t : State} (h : t.mem.banks = s.mem.banks) (die bank : Nat) : t.bank die bank = s.bank die bank := by
  rw [State.bank, State.bank, h]

/-! ### A write of BANKMODE (R305, R309, R310) -/

@[simp] theorem State.startMode_cells (s : State) (die bank : Nat) (md : BankMode) : (s.startMode die bank md).mem.cells = s.mem.cells := by
  simp [State.startMode]

theorem State.bank_startMode {s : State} {die bank : Nat} {b : Bank} (h : s.bank die bank = some b) (md : BankMode) :
    (s.startMode die bank md).bank die bank = some { b with busy := true, target := md, again := false } :=
  State.bank_modBank (s := { s with mem := s.mem.closeBank die bank }) ((State.bank_of_banks (by simp) die bank).trans h) _

/-- A mode written to a bank that is not withdrawn: recorded while a change runs, shown alone when it is the current one, else a change
starts. -/
theorem State.writeBankMode_eq {s : State} {die bank : Nat} {b : Bank} {md : BankMode} {v : Word} (h : s.bank die bank = some b)
    (hw : b.wdrawn = false) (hv : modeOf (v.extractLsb' 0 3).toNat = some md) :
    s.writeBankMode die bank v =
      if b.busy = true then s.modBank die bank fun b => { b with mode := md, again := true }
      else if md = b.cur then s.modBank die bank fun b => { b with mode := md }
      else (s.modBank die bank fun b => { b with mode := md }).startMode die bank md := by
  simp only [State.writeBankMode, h, hv, hw, Bool.false_eq_true, if_false]

@[simp] theorem State.writeBankMode_cells (s : State) (die bank : Nat) (v : Word) : (s.writeBankMode die bank v).mem.cells = s.mem.cells := by
  unfold State.writeBankMode
  split
  · split
    · rfl
    · split
      · simp
      · dsimp only
        split <;> simp
  · rfl

theorem State.bank_writeBankMode {s : State} {die bank : Nat} {b : Bank} {md : BankMode} {v : Word} (h : s.bank die bank = some b)
    (hw : b.wdrawn = false) (hv : modeOf (v.extractLsb' 0 3).toNat = some md) :
    (s.writeBankMode die bank v).bank die bank =
      some (if b.busy = true then { b with mode := md, again := true }
        else if md = b.cur then { b with mode := md } else { b with mode := md, target := md, busy := true, again := false }) := by
  rw [State.writeBankMode_eq h hw hv]
  split
  · exact State.bank_modBank h _
  · split
    · exact State.bank_modBank h _
    · exact State.bank_startMode (State.bank_modBank h _) md

/-! ### The end of a change (R309, R310) -/

/-- A byte that no cell lists reads zero. -/
theorem cellGet_unlisted {k : Nat} : ∀ {cs : List Host.Cell}, (∀ c ∈ cs, c.1 ≠ k) → cellGet cs k = 0#8
  | [], _ => rfl
  | (a, b) :: cs, h => by
    obtain ⟨ha, hcs⟩ := List.forall_mem_cons.mp h
    rw [cellGet, if_neg ha, cellGet_unlisted hcs, ite_self]

/-- The scratchpad bytes of a cleared bank read zero. -/
theorem State.clearBank_zero (s : State) (die bank : Nat) {o : Nat} (ho : o < 2 ^ 18) :
    cellGet (s.clearBank die bank).mem.cells (spadKey die (bank * 2 ^ 18) + o) = 0#8 := by
  refine cellGet_unlisted fun c hc heq => ?_
  have hout := (List.mem_filter.mp hc).2
  simp only [heq, Bool.not_eq_true', Bool.and_eq_false_iff, decide_eq_false_iff_not] at hout
  omega

theorem State.modHart_of_fixed {s : State} {i : Fin 4} {f : Hart → Hart} (h : f s.harts[i] = s.harts[i]) : s.modHart i f = s := by
  have hset : s.harts.set i s.harts[i] = s.harts := Vector.set_getElem_self i.isLt
  rw [State.modHart, h, hset]

/-- A hart with no store on its way and no error entry that waits leaves the state as it is when a bank opens. -/
theorem State.resume_of_quiet {s : State} {i : Fin 4} (hl : s.harts[i].late = []) (he : s.harts[i].eqWait = []) :
    State.retryErrors (State.drainLate i s) i = s := by
  have hdrain : State.drainLate i s = s := by rw [State.drainLate, hl]; rfl
  rw [hdrain, State.retryErrors, he]
  exact State.modHart_of_fixed (congrArg (fun w => { s.harts[i] with eqWait := w }) he.symm)

/-- A change that ends: the bank is cleared and opens, and with no hart that waits nothing more happens. -/
theorem execBankModeChangeDone_of_quiet {s : State} {die bank : Nat} {b : Bank} (h : s.bank die bank = some b) (hb : b.busy = true)
    (hq : ∀ i : Fin 4, s.harts[i].late = [] ∧ s.harts[i].eqWait = []) :
    execBankModeChangeDone die bank s = .next ((s.clearBank die bank).modBank die bank Bank.changed) := by
  let t := (s.clearBank die bank).modBank die bank Bank.changed
  have hresume (i : Fin 4) : State.retryErrors (State.drainLate i t) i = t := State.resume_of_quiet (hq i).1 (hq i).2
  have hfold : [(0 : Fin 4), 1, 2, 3].foldl (fun s i => State.retryErrors (State.drainLate i s) i) t = t := by
    simp only [List.foldl_cons, List.foldl_nil, hresume]
  simp only [execBankModeChangeDone, h]
  rw [if_pos hb]
  exact congrArg Host.Outcome.next hfold

/-! ### Spare lines (R315, R318) -/

theorem execLineRemap_spare {s : State} {die bank line : Nat} {b : Bank} (h : s.bank die bank = some b) (hw : b.wdrawn = false)
    (hl : line < 4096) (hs : 0 < b.spares) :
    execLineRemap die bank line s =
      .next (s.modBank die bank fun b => { b with spares := b.spares - 1, remapped := natInsert b.remapped line }) := by
  simp [execLineRemap, h, hw, hs, Nat.not_le.mpr hl]

/-- With no spare the bank is withdrawn: it empties at once, or when the change that runs has ended. -/
theorem execLineRemap_withdraw {s : State} {die bank line : Nat} {b : Bank} (h : s.bank die bank = some b) (hw : b.wdrawn = false)
    (hl : line < 4096) (hs : b.spares = 0) :
    execLineRemap die bank line s =
      .next ((State.modBank { s with mem := if b.busy = true then s.mem else s.mem.closeBank die bank } die bank Bank.withdraw).postEvent 0x20
        (natLe 1 die ++ natLe 1 bank)) := by
  simp [execLineRemap, h, hw, hs, Nat.not_le.mpr hl]

/-- An event that is reported touches the host interface alone. -/
theorem State.postEvent_frame (s : State) (code : Nat) (args : List Byte) : { s.postEvent code args with host := s.host } = s := by
  unfold State.postEvent
  dsimp only
  split <;> split <;> rfl

@[simp] theorem State.postEvent_mem (s : State) (code : Nat) (args : List Byte) : (s.postEvent code args).mem = s.mem :=
  (congrArg State.mem (s.postEvent_frame code args) :)

@[simp] theorem State.postEvent_fab (s : State) (code : Nat) (args : List Byte) : (s.postEvent code args).fab = s.fab :=
  (congrArg State.fab (s.postEvent_frame code args) :)

/-! ### Rebuilds (R320, R324, R325) -/

theorem State.group_setGroup (s : State) (n : Nat) (g : PGroup) : (s.setGroup n g).group n = some g := by
  simp [State.group, State.setGroup]

/-- The entry of a group after a write of RBCTL with GO, before GO takes effect. -/
def PGroup.withGo (g : PGroup) (v : Word) : PGroup := PGroup.ofBytes g (splice g.bytes 96 (natLe 8 (v ||| 0x10000000#64).toNat))

@[simp] theorem PGroup.withGo_busy (g : PGroup) (v : Word) : (g.withGo v).busy = g.busy := by simp only [PGroup.withGo, PGroup.ofBytes]

@[simp] theorem PGroup.withGo_ndone (g : PGroup) (v : Word) : (g.withGo v).ndone = g.ndone := by simp only [PGroup.withGo, PGroup.ofBytes]

theorem execRebuildGo_eq {s : State} {gi : Nat} {g : PGroup} (hi : gi < 256) (h : s.group gi = some g) (v : Word) :
    execRebuildGo gi v s = .next (s.setGroup gi (g.withGo v).go) := by
  have hgo : (v ||| 0x10000000#64).getLsbD 28 = true := by simp
  simp only [execRebuildGo, State.writeGroup, h, hgo, Option.getD_some]
  rw [if_pos hi]
  rfl

theorem PGroup.go_of_busy {g : PGroup} (h : g.busy = true) : g.go = g := if_pos h

/-- More lost members than shares: the rebuild fails at once. -/
theorem PGroup.go_of_lost {g : PGroup} (h : g.busy = false) (hl : g.m < g.lostCount) : g.go.fail = true ∧ g.go.busy = false := by
  simp [PGroup.go, h, hl]

/-- A rebuild that can be done starts at its first stripe, and is done where this member has none. -/
theorem PGroup.go_of_live {g : PGroup} (h : g.busy = false) (hl : g.lostCount ≤ g.m) :
    g.go.fail = false ∧ g.go.ndone = 0#32 ∧ g.go.busy = decide (g.myStripes ≠ 0) ∧ g.go.done = decide (g.myStripes = 0) := by
  simp [PGroup.go, h, Nat.not_lt.mpr hl]

/-- What is not the next of the rebuild, or comes while its answers are out, does nothing. -/
theorem execRebuildUnitDone_other {s : State} {gi k : Nat} {g : PGroup} {slot : BitVec 4} {newep : Epid} (h : s.group gi = some g)
    (ho : k ≠ g.nextStripe ∨ slot ≠ g.slot ∨ newep ≠ g.newep ∨ g.writing = true ∨ s.rebuildOut gi = true) :
    execRebuildUnitDone gi k slot newep s = .next s := by
  simp only [execRebuildUnitDone, h, Host.Outcome.next.injEq]
  split
  · rename_i hnext
    simp only [Bool.and_eq_true, decide_eq_true_eq] at hnext
    obtain ⟨⟨⟨_, hslot⟩, hnewep⟩, hk⟩ := hnext
    have hout : g.writing = true ∨ s.rebuildOut gi = true := by tauto
    simp only [State.rebuildStep, h]
    rw [if_pos (by simpa [or_assoc] using Or.inr hout)]
  · rfl

/-- The next stripe of a rebuild with no answer out: its units are asked for. -/
theorem execRebuildUnitDone_ask {s : State} {gi : Nat} {g : PGroup} (h : s.group gi = some g) (hb : g.busy = true) (hw : g.writing = false)
    (ho : s.rebuildOut gi = false) (hg : g.got = []) :
    execRebuildUnitDone gi g.nextStripe g.slot g.newep s = .next ((g.needed g.nextStripe).foldl (State.askUnit gi g.nextStripe) s) := by
  simp [execRebuildUnitDone, State.rebuildStep, h, hb, hw, ho, hg]

/-- Once the units have come, the lost one is solved and written. -/
theorem execRebuildUnitDone_write {s : State} {gi : Nat} {g : PGroup} (h : s.group gi = some g) (hb : g.busy = true) (hw : g.writing = false)
    (ho : s.rebuildOut gi = false) (hg : g.got ≠ []) (hall : ∀ i ∈ g.needed g.nextStripe, 16 ≤ (g.got.filter fun x => x.1 = i).length) :
    execRebuildUnitDone gi g.nextStripe g.slot g.newep s =
      .next ((s.setGroup gi { g with writing := true }).writeUnit gi g g.nextStripe (g.rebuilt g.nextStripe g.unitOf)) := by
  have hready : (g.needed g.nextStripe).all (fun i => 16 ≤ (g.got.filter fun x => x.1 = i).length) = true :=
    List.all_eq_true.mpr fun i hi => decide_eq_true (hall i hi)
  simp only [execRebuildUnitDone, State.rebuildStep, h, hb, hw, ho]
  rw [if_pos (by simp), if_neg (by simp), if_neg (by simpa using hg), if_pos hready]

end Sys2Proof.Machine
end

section
/-! SUPPORT. Links and ports (R29 to R54, R71): what their updates leave, and what each event of flits, of training and of service does, one
equation per case. -/

namespace Sys2Proof.Machine
open Sys2Proof.Claims

/-! ### A port or module and the updates that touch it -/

theorem State.port_setPort {s : State} {n : Nat} {p : Port} (h : s.fab.ports[n]? = some p) (x : Port) :
    (s.setPort n x).fab.ports[n]? = some x := by
  obtain ⟨hn, _⟩ := Vector.getElem?_eq_some_iff.mp h
  exact Vector.getElem?_eq_some_iff.mpr ⟨hn, by simp [State.setPort]⟩

theorem State.linkModule_eq_some {s : State} {n m : Nat} {x : LinkModule} :
    s.linkModule n m = some x ↔ m < linkModules n ∧ ∃ (hn : n < 30) (hm : m < 8), s.fab.links[n][m] = x := by
  simp [State.linkModule, Option.bind_eq_some_iff, Vector.getElem?_eq_some_iff]

theorem State.linkModule_setModule {s : State} {n m : Nat} {x : LinkModule} (h : s.linkModule n m = some x) (y : LinkModule) :
    (s.setModule n m y).linkModule n m = some y := by
  obtain ⟨hlim, hn, hm, _⟩ := State.linkModule_eq_some.mp h
  exact State.linkModule_eq_some.mpr ⟨hlim, hn, hm, by simp [State.setModule]⟩

/-- The trainee of a port. -/
theorem State.trainee_port {s : State} {n : Nat} {p : Port} (h : s.fab.ports[n]? = some p) (m : Nat) :
    s.trainee true n m = some ⟨p.enabled, p.step, p.attempt, 0xFFFFFFFF#32, p.service, p.deferred, p.overLimit, false⟩ := by
  simp [State.trainee, h]

/-- The trainee of a module. -/
theorem State.trainee_module {s : State} {n m : Nat} {x : LinkModule} (h : s.linkModule n m = some x) :
    s.trainee false n m = some ⟨x.enabled, x.step, x.attempt, x.lmap, x.service, x.deferred, x.overLimit, false⟩ := by
  simp [State.trainee, h]

theorem State.linkModule_of_trainee {s : State} {n m : Nat} {t : Trainee} (h : s.trainee false n m = some t) : ∃ x, s.linkModule n m = some x := by
  obtain ⟨x, hx, _⟩ := Option.map_eq_some_iff.mp h
  exact ⟨x, hx⟩

theorem State.setPort_frame (s : State) (n : Nat) (x : Port) : { s.setPort n x with fab := s.fab } = s := by
  simp only [State.setPort]

theorem State.setModule_frame (s : State) (n m : Nat) (x : LinkModule) : { s.setModule n m x with fab := s.fab } = s := by
  simp only [State.setModule]

/-- A trainee that is written back touches the fabric alone. -/
theorem State.putTrainee_frame (s : State) (port : Bool) (n m : Nat) (t : Trainee) : { s.putTrainee port n m t with fab := s.fab } = s := by
  cases port with
  | true =>
    cases hp : s.fab.ports[n]? with
    | none => simp only [State.putTrainee, hp, if_true]
    | some p =>
      simp only [State.putTrainee, hp, if_true]
      exact s.setPort_frame ..
  | false =>
    cases hx : s.linkModule n m with
    | none => simp only [State.putTrainee, hx, Bool.false_eq_true, if_false]
    | some x =>
      simp only [State.putTrainee, hx, Bool.false_eq_true, if_false]
      exact s.setModule_frame ..

/-- So do the counts of a window. -/
theorem State.countErrors_frame (s : State) (port : Bool) (n m : Nat) (e : LinkErrors) : { s.countErrors port n m e with fab := s.fab } = s := by
  cases port with
  | true =>
    cases hp : s.fab.ports[n]? with
    | none => simp only [State.countErrors, hp, if_true]
    | some p =>
      simp only [State.countErrors, hp, if_true]
      exact s.setPort_frame ..
  | false =>
    cases hx : s.linkModule n m with
    | none => simp only [State.countErrors, hx, Bool.false_eq_true, if_false]
    | some x =>
      simp only [State.countErrors, hx, Bool.false_eq_true, if_false]
      split
      · rfl
      · split <;> exact s.setModule_frame ..

/-- Whether a switch instant is near says nothing of the fabric. -/
theorem State.instantNear_of_frame {s t : State} (h : { t with fab := s.fab } = s) : t.instantNear = s.instantNear :=
  (congrArg State.instantNear h :)

@[simp] theorem State.putTrainee_instantNear (s : State) (port : Bool) (n m : Nat) (t : Trainee) :
    (s.putTrainee port n m t).instantNear = s.instantNear :=
  State.instantNear_of_frame (s.putTrainee_frame port n m t)

@[simp] theorem State.countErrors_instantNear (s : State) (port : Bool) (n m : Nat) (e : LinkErrors) :
    (s.countErrors port n m e).instantNear = s.instantNear :=
  State.instantNear_of_frame (s.countErrors_frame port n m e)

/-- A module reads back as it was written, its counts apart. -/
theorem State.trainee_putTrainee_module {s : State} {n m : Nat} {x : LinkModule} (h : s.linkModule n m = some x) (t : Trainee) :
    ∃ y, (s.putTrainee false n m t).trainee false n m = some y ∧ { y with limit := t.limit, clear := t.clear } = t := by
  simp only [State.putTrainee, h, Bool.false_eq_true, if_false]
  exact ⟨_, State.trainee_module (State.linkModule_setModule h _), rfl⟩

/-! ### Service of a port or module (R36, R38, R44, R52) -/

theorem State.serveLink_idle {s : State} {port : Bool} {n m : Nat} {x : Trainee} (h : s.trainee port n m = some x)
    (hi : x.enabled = false ∨ x.service ≠ 0 ∨ x.limit = false) : s.serveLink port n m = s := by
  simp only [State.serveLink, h]
  rw [if_pos (by simpa [or_assoc] using hi)]

theorem State.serveLink_defer {s : State} {port : Bool} {n m : Nat} {x : Trainee} (h : s.trainee port n m = some x) (he : x.enabled = true)
    (hs : x.service = 0) (hl : x.limit = true) (hr : x.mustRetrain port n = true) (hn : s.instantNear = true) :
    s.serveLink port n m = s.putTrainee port n m { x with deferred := true } := by
  simp [State.serveLink, h, he, hs, hl, hr, hn]

theorem State.serveLink_start {s : State} {port : Bool} {n m : Nat} {x : Trainee} (h : s.trainee port n m = some x) (he : x.enabled = true)
    (hs : x.service = 0) (hl : x.limit = true) (hr : x.mustRetrain port n = false ∨ s.instantNear = false) :
    s.serveLink port n m = s.startService port n m x := by
  simp only [State.serveLink, h]
  rw [if_neg (by simp [he, hs, hl]), if_neg (by simpa [imp_iff_not_or] using hr)]

/-- The counts clear in use; a service that was put off starts once no instant is near. -/
theorem execRetryWindowBoundary_eq {s : State} {port : Bool} {n m : Nat} {x : Trainee} (h : s.trainee port n m = some x) :
    let y := { x with clear := decide (x.service = 0) }
    execRetryWindowBoundary port n m s = .next (
      if x.deferred = true ∧ s.instantNear = false then (s.putTrainee port n m y).startService port n m y else s.putTrainee port n m y) := by
  simp [execRetryWindowBoundary, h]

theorem execFlitRetryLimit_of_trained {s : State} {port : Bool} {n m : Nat} {x : Trainee} (h : s.trainee port n m = some x)
    (he : x.enabled = true) (h3 : x.service ≠ 3) (h4 : x.service ≠ 4) : execFlitRetryLimit port n m s = .next (s.demote port n m x) := by
  simp [execFlitRetryLimit, h, he, h3, h4]

theorem execLinkDrainDone_of_draining {s : State} {port : Bool} {n m : Nat} {x : Trainee} (h : s.trainee port n m = some x) (hs : x.service = 1) :
    execLinkDrainDone port n m s =
      .next (if x.mustRetrain port n = true then s.demote port n m x else s.putTrainee port n m { x with service := 2 }) := by
  simp [execLinkDrainDone, h, hs]

theorem execLinkDrainTimeout_of_draining {s : State} {port : Bool} {n m : Nat} {x : Trainee} (h : s.trainee port n m = some x)
    (hs : x.service = 1) : execLinkDrainTimeout port n m s = .next (s.demote port n m x) := by
  simp [execLinkDrainTimeout, h, hs]

theorem execLinkRetrainDone_of_retraining {s : State} {port : Bool} {n m : Nat} {x : Trainee} (h : s.trainee port n m = some x)
    (hs : x.service = 3) (hd : x.disabled port = false) : execLinkRetrainDone port n m s = .next (s.putTrainee port n m { x with service := 4 }) := by
  simp [execLinkRetrainDone, h, hs, hd]

/-! ### The configuration exchange (R33, R34, R51) -/

theorem execConfigRecord_of_exchange {s : State} {port : Bool} {n m : Nat} {x : Trainee} (h : s.trainee port n m = some x) (hs : x.service = 4)
    (r : BitVec 128) :
    execConfigRecord port n m r s = .next (
      if x.agrees port n m r = true then
        s.putTrainee port n m { x with enabled := true, service := 0, attempt := 0, deferred := false, clear := true }
      else s.mismatch port n m x) := by
  simp [execConfigRecord, h, hs]

theorem execConfigRecordTimeout_of_exchange {s : State} {port : Bool} {n m : Nat} {x : Trainee} (h : s.trainee port n m = some x)
    (hs : x.service = 4) : execConfigRecordTimeout port n m s = .next (s.mismatch port n m x) := by
  simp [execConfigRecordTimeout, h, hs]

/-! ### A lane remapped (R33, R38, R46) -/

theorem getD_lt {ls : List Nat} {b : Nat} (hb : 0 < b) (h : ∀ l ∈ ls, l < b) (i : Nat) : ls.getD i 0 < b := by
  rw [List.getD_eq_getElem?_getD]
  cases hl : ls[i]? with
  | none => exact hb
  | some l => exact h l (List.mem_of_getElem? hl)

theorem worstLane_lt (free : Nat) (x : LinkModule) : worstLane free x < 64 :=
  getD_lt (by decide) (fun _ hl => List.mem_range.mp (List.mem_filter.mp hl).1) _

/-- LMAP with the byte of redundant lane `k` naming a lane. -/
def withLane (lmap : BitVec 32) (k lane : Nat) : BitVec 32 := (lmap &&& ~~~(0xFF#32 <<< (8 * k))) ||| (BitVec.ofNat 32 lane <<< (8 * k))

/-- A byte moved to its place has no bit in another. -/
theorem getLsbD_byte_shift {v : Nat} (hv : v < 256) {j k i : Nat} (hjk : j ≠ k) (hi : i < 8) :
    (BitVec.ofNat 32 v <<< (8 * k)).getLsbD (8 * j + i) = false := by
  rcases Nat.lt_or_gt_of_ne hjk with hlt | hgt
  · have hlow : 8 * j + i < 8 * k := by omega
    simp [hlow]
  · have hbit : v.testBit (8 * j + i - 8 * k) = false :=
      Nat.testBit_lt_two_pow (Nat.lt_of_lt_of_le hv (Nat.pow_le_pow_right (n := 2) (by decide) (show 8 ≤ 8 * j + i - 8 * k by omega)))
    simp [BitVec.getLsbD_ofNat, hbit]

theorem withLane_other (lmap : BitVec 32) {j k lane : Nat} (hl : lane < 256) (hjk : j ≠ k) :
    (withLane lmap k lane).extractLsb' (8 * j) 8 = lmap.extractLsb' (8 * j) 8 := by
  refine BitVec.eq_of_getLsbD_eq fun i hi => ?_
  have hmask := getLsbD_byte_shift (v := 0xFF) (by decide) hjk hi
  have hlane := getLsbD_byte_shift hl hjk hi
  rw [BitVec.getLsbD_extractLsb', BitVec.getLsbD_extractLsb', withLane, BitVec.getLsbD_or, BitVec.getLsbD_and, BitVec.getLsbD_not, hmask, hlane]
  by_cases hw : 8 * j + i < 32
  · simp [hw]
  · simp [BitVec.getLsbD_of_ge lmap _ (Nat.le_of_not_lt hw)]

theorem execLinkRemapDone_of_free {s : State} {n m k : Nat} {t : Trainee} {x : LinkModule} (h : s.trainee false n m = some t)
    (hx : s.linkModule n m = some x) (hs : t.service = 2) (hk : freeLane n t.lmap = some k) :
    execLinkRemapDone false n m s =
      .next (s.putTrainee false n m { t with lmap := withLane t.lmap k (worstLane s.free x), service := 4, attempt := 0 }).tick := by
  simp [execLinkRemapDone, withLane, h, hx, hs, hk]

/-! ### Flits (R53, R54) -/

theorem execFlitReceive_in_service {s : State} {n : Nat} {p : Port} (h : s.fab.ports[n]? = some p) (hs : p.service ≠ 0) (f : List Byte) :
    execFlitReceive n f s = .next s := by
  simp [execFlitReceive, h, hs]

/-- A whole flit at a port in use: its check, then its place in the sequence. -/
theorem execFlitReceive_in_use {s : State} {n : Nat} {p : Port} {f : List Byte} (h : s.fab.ports[n]? = some p) (he : p.enabled = true)
    (hs : p.service = 0) (hf : f.length = 256) :
    execFlitReceive n f s = .next (
      if flitCrc f ≠ sliceNat f 248 8 then s.flitFailed n
      else if sliceNat f 0 2 ≠ p.rxseq.toNat then s
      else s.takeFlit n p f) := by
  simp only [execFlitReceive, h]
  rw [if_neg (by simp [he, hs, hf])]

/-- Port `n` of a state has the retries of `p` and expects the same flit (R36, R53). -/
def KeepsFlits (s : State) (n : Nat) (p : Port) : Prop := ∃ q, s.fab.ports[n]? = some q ∧ q.retries = p.retries ∧ q.rxseq = p.rxseq

theorem State.putTrainee_keepsFlits {s : State} {n m : Nat} {p : Port} (h : s.fab.ports[n]? = some p) {t : Trainee} (hc : t.clear = false) :
    KeepsFlits (s.putTrainee true n m t) n p := by
  simp only [State.putTrainee, h, hc, if_true, Bool.false_eq_true, if_false, KeepsFlits]
  exact ⟨_, State.port_setPort h _, rfl, rfl⟩

@[simp] theorem State.reportLadder_fab (s : State) (port : Bool) (n m : Nat) (t : Trainee) : (s.reportLadder port n m t).fab = s.fab := by
  unfold State.reportLadder
  dsimp only
  split
  · split <;> exact State.postEvent_fab ..
  · split <;> exact State.postEvent_fab ..

@[simp] theorem Trainee.demote_clear (port : Bool) (t : Trainee) : (t.demote port).clear = t.clear := by
  unfold Trainee.demote
  dsimp only
  split <;> rfl

theorem State.demote_keepsFlits {s : State} {n m : Nat} {p : Port} (h : s.fab.ports[n]? = some p) {t : Trainee} (hc : t.clear = false) :
    KeepsFlits (s.demote true n m t) n p := by
  obtain ⟨q, hq, hkeep⟩ := State.putTrainee_keepsFlits (m := m) h ((t.demote_clear true).trans hc)
  exact ⟨q, (congrArg (·.ports[n]?) (State.reportLadder_fab ..)).trans hq, hkeep⟩

/-- The start of a port's service keeps its window's counts. -/
theorem State.serveLink_keepsFlits {s : State} {n m : Nat} {p : Port} (h : s.fab.ports[n]? = some p) : KeepsFlits (s.serveLink true n m) n p := by
  simp only [State.serveLink, State.trainee_port h m]
  split
  · exact ⟨p, h, rfl, rfl⟩
  · split
    · exact State.putTrainee_keepsFlits h rfl
    · exact State.demote_keepsFlits h rfl

/-- A damaged flit counts one retry, and the port still expects the same one. -/
theorem State.flitFailed_port {s : State} {n : Nat} {p : Port} (h : s.fab.ports[n]? = some p) :
    ∃ q, (s.flitFailed n).fab.ports[n]? = some q ∧ q.retries = p.retries + 1 ∧ q.rxseq = p.rxseq := by
  simp only [State.flitFailed, State.countErrors, h, if_true]
  exact State.serveLink_keepsFlits (State.port_setPort h _)

/-! ### Flows of a failed path (R71) -/

theorem State.sendWaiting_of_none {s : State} (h : s.fab.waiting = []) : s.sendWaiting = s := by
  have hfab : { s.fab with waiting := [] } = s.fab := congrArg (fun w => { s.fab with waiting := w }) h.symm
  simp only [State.sendWaiting, h, List.foldl_nil, hfab]

/-- The fabric once the planes that do not reach an endpoint are known. -/
def Fabric.noteDown (f : Fabric) (dst : Epid) (down : BitVec 24) : Fabric := { f with down := (dst, down) :: f.down.filter (·.1 ≠ dst) }

theorem execFlowRepin_of_out {s : State} {flow : BitVec 16} {dst : Epid} {down : BitVec 24}
    (h : (s.fab.noteDown dst down).flowOut flow dst = true) :
    execFlowRepin flow ⟨dst, down⟩ s = .next { s with fab := s.fab.noteDown dst down } :=
  congrArg Host.Outcome.next (if_pos (Bool.or_eq_true_iff.mpr (Or.inl h)))

/-- A pinned flow with nothing out and nothing that waits is pinned anew. -/
theorem execFlowRepin_of_pinned {s : State} {flow : BitVec 16} {dst : Epid} {down : BitVec 24}
    (h : (s.fab.noteDown dst down).flowOut flow dst = false) (hp : ∃ q ∈ s.fab.pins, q.flow = flow ∧ q.dst = dst) (hw : s.fab.waiting = []) :
    let f := s.fab.noteDown dst down
    execFlowRepin flow ⟨dst, down⟩ s =
      .next { s with fab := { f with pins := ⟨flow, dst, f.portFor flow dst⟩ :: f.pins.filter (fun q => !(q.flow = flow && q.dst = dst)) } } := by
  have hany : s.fab.pins.any (fun p => p.flow = flow && p.dst = dst) = true := by simpa using hp
  refine congrArg Host.Outcome.next ((if_neg ?_).trans (State.sendWaiting_of_none hw))
  rw [Bool.or_eq_true, not_or]
  exact ⟨Bool.eq_false_iff.mp h, fun hno => Bool.false_ne_true ((congrArg not hany).symm.trans hno)⟩

/-! ### The statement -/

/-- Settles O60: each clause is the equation of its event in the case that the clause names, and what the update of that case leaves. -/
theorem bankAndLinkEvents : Obligations.BankAndLinkEvents := by
  intro s
  refine ⟨?bankmode, ?changeDone, ?spare, ?withdraw, ?go, ?unitDone, ?flit, ?trained, ?served, ?repin⟩
  case bankmode =>
    intro die bank b md v h hw hv
    exact ⟨_, rfl, s.writeBankMode_cells die bank v, State.bank_writeBankMode h hw hv⟩
  case changeDone =>
    intro die bank b h hb hq
    refine ⟨_, execBankModeChangeDone_of_quiet h hb hq, ?_, fun o ho => ?_⟩
    · rw [State.bank_modBank (s := s.clearBank die.val bank.val) h, Bank.changed]
      simp [bne, beq_eq_decide]
    · rw [byteAt, State.modBank_cells]
      exact s.clearBank_zero die.val bank.val ho
  case spare =>
    intro die bank line b h hw hl hs
    exact ⟨_, execLineRemap_spare h hw hl hs, State.bank_modBank h _, s.modBank_cells ..⟩
  case withdraw =>
    intro die bank line b h hw hl hs
    refine ⟨_, execLineRemap_withdraw h hw hl hs, b.withdraw, ?_, rfl, rfl, rfl, rfl, fun hb => ?_⟩
    · rw [State.bank_of_banks (congrArg Memory.banks (State.postEvent_mem ..))]
      refine State.bank_modBank ((State.bank_of_banks ?_ die bank).trans h) _
      dsimp only
      split
      · rfl
      · exact s.mem.closeBank_banks die bank
    · simp [Bank.withdraw, hb]
  case go =>
    intro gi v g hi h
    refine ⟨_, _, execRebuildGo_eq hi h v, s.group_setGroup gi _, rfl, ?_⟩
    have hbusy := g.withGo_busy v
    refine ⟨fun hb => ?_, fun hb => PGroup.go_of_lost (hbusy.trans hb), fun hb => PGroup.go_of_live (hbusy.trans hb)⟩
    rw [PGroup.go_of_busy (hbusy.trans hb)]
    exact ⟨hbusy.trans hb, g.withGo_ndone v⟩
  case unitDone =>
    intro gi k g h hb
    refine ⟨fun slot newep ho => execRebuildUnitDone_other h ho, ?_⟩
    rintro rfl hw ho
    exact ⟨execRebuildUnitDone_ask h hb hw ho, execRebuildUnitDone_write h hb hw ho⟩
  case flit =>
    intro n p f h he hf
    refine ⟨fun hs => execFlitReceive_in_service h hs f, fun hs => ?_⟩
    have hflit := execFlitReceive_in_use h he hs hf
    refine ⟨fun hcrc hseq => hflit.trans ?_, fun hcrc hseq => hflit.trans ?_, fun hcrc => ⟨_, hflit.trans ?_, State.flitFailed_port h⟩⟩
    · rw [if_neg (not_not_intro hcrc), if_neg (not_not_intro hseq)]
    · rw [if_neg (not_not_intro hcrc), if_pos hseq]
    · rw [if_pos hcrc]
  case trained =>
    intro port n m x h
    refine ⟨execFlitRetryLimit_of_trained h, ⟨fun hno => ?_, fun hd hn => ?_⟩, fun hs hr => ?_, fun hs hr => ?_, execLinkDrainTimeout_of_draining h,
      execLinkRetrainDone_of_retraining h, fun r hs ha => ?_, fun r hs ha => ?_, execConfigRecordTimeout_of_exchange h, ?_⟩
    · refine (execRetryWindowBoundary_eq h).trans (congrArg _ (if_neg ?_))
      rintro ⟨hd, hn⟩
      simp [hd, hn] at hno
    · exact (execRetryWindowBoundary_eq h).trans (congrArg _ (if_pos ⟨hd, hn⟩))
    · exact (execLinkDrainDone_of_draining h hs).trans (congrArg _ (if_pos hr))
    · exact (execLinkDrainDone_of_draining h hs).trans (congrArg _ (if_neg (Bool.eq_false_iff.mp hr)))
    · exact (execConfigRecord_of_exchange h hs r).trans (congrArg _ (if_pos ha))
    · exact (execConfigRecord_of_exchange h hs r).trans (congrArg _ (if_neg (Bool.eq_false_iff.mp ha)))
    · rintro k rfl hs hk
      obtain ⟨l, hl⟩ := State.linkModule_of_trainee h
      let w : Trainee := { x with lmap := withLane x.lmap k (worstLane s.free l), service := 4, attempt := 0 }
      obtain ⟨y, hy, heq⟩ := State.trainee_putTrainee_module hl w
      refine ⟨_, execLinkRemapDone_of_free h hl hs hk, y, hy, congrArg Trainee.service heq, congrArg Trainee.attempt heq,
        (congrArg Trainee.enabled heq :), (congrArg Trainee.step heq :), fun j _ hjk => ?_⟩
      have hlmap : y.lmap = withLane x.lmap k (worstLane s.free l) := congrArg Trainee.lmap heq
      rw [hlmap]
      exact withLane_other x.lmap (Nat.lt_trans (worstLane_lt ..) (by decide)) hjk
  case served =>
    intro port n m errs x u h
    have hnear : u.instantNear = s.instantNear := s.countErrors_instantNear port n m errs
    refine ⟨fun hi => congrArg _ (State.serveLink_idle h hi), fun he hs hl => ⟨fun hr hn => ?_, fun hr => ?_⟩⟩
    · exact congrArg _ (State.serveLink_defer h he hs hl hr (hnear.trans hn))
    · rw [← hnear] at hr
      exact congrArg _ (State.serveLink_start h he hs hl hr)
  case repin =>
    intro flow dst down f
    exact ⟨execFlowRepin_of_out, execFlowRepin_of_pinned⟩

end Sys2Proof.Machine
end

section
/-! SUPPORT. The home of a request and the end of one (R62 to R78, R104, R323, R642): what each bar and the performance of a request
come to, what sealing and sending leave of an answer, and what an answer, a time-out and a freed tag do; and the statement O57 that
they make up. The order of the bars is assumption 40, the match of an answer by its tag alone assumption 44. -/

namespace Sys2Proof.Machine
open Sys2Proof.Claims

/-! ### The bars of a home, in their order (R67, R78, R74, R76, R104) -/

section
variable {s : State} {p : Packet} {ok cross : Bool} {answer : Nat → State → State} {k : Nat → List Byte → State → State}

theorem State.atHome_of_malformed (hok : ok = false) : s.atHome p ok cross answer k = .next (s.dropPacket p) := by
  simp [State.atHome, hok]

theorem State.atHome_of_old (hok : ok = true) (hold : tooOld p = true) : s.atHome p ok cross answer k = .next s := by
  simp [State.atHome, hok, hold]

theorem State.atHome_of_foreign (hok : ok = true) (hold : tooOld p = false) (hc : cross = false) (hd : domainOf p.src ≠ domainOf s.fab.epid) :
    s.atHome p ok cross answer k = .next (answer 5 s) := by
  simp [State.atHome, hok, hold, hc, hd]

/-- A packet that may cross domains or comes from the home's own passes the domain's bar. -/
theorem domain_bar_open (hd : cross = true ∨ domainOf p.src = domainOf s.fab.epid) :
    (!cross && domainOf p.src != domainOf s.fab.epid) = false := by
  rcases hd with h | h <;> simp [h]

theorem State.atHome_of_stale (hok : ok = true) (hold : tooOld p = false) (hd : cross = true ∨ domainOf p.src = domainOf s.fab.epid)
    (hg : s.homeCtx p = none) : s.atHome p ok cross answer k = .next (answer 4 s) := by
  simp [State.atHome, hok, hold, domain_bar_open hd, hg]

theorem State.atHome_of_unopened (hok : ok = true) (hold : tooOld p = false) (hd : cross = true ∨ domainOf p.src = domainOf s.fab.epid)
    {c : Nat} (hg : s.homeCtx p = some c) (ho : s.openPacket p = none) : s.atHome p ok cross answer k = .next (answer 7 s) := by
  simp [State.atHome, hok, hold, domain_bar_open hd, hg, ho]

/-- A request that meets no bar is performed at its context with its plain data. -/
theorem State.atHome_of_current (hok : ok = true) {c : Nat} {d : List Byte} (h : AtHome s p cross c d) :
    s.atHome p ok cross answer k = .next (k c d s) := by
  obtain ⟨hold, hd, hg, ho⟩ := h
  simp [State.atHome, hok, hold, domain_bar_open hd, hg, ho]

end

theorem turnsAway_of_atHome {i : Packet → Instr} {ok : Packet → Bool} {cross : Bool} {answer : Packet → Nat → State → State}
    {k : Packet → Nat → List Byte → State → State} (hi : ∀ p s, exec (i p) s = s.atHome p (ok p) cross (answer p) (k p)) :
    TurnsAway i ok cross answer := by
  intro s p
  rw [hi]
  exact ⟨State.atHome_of_malformed, State.atHome_of_old, fun hok hold => ⟨State.atHome_of_foreign hok hold,
    fun hd => ⟨State.atHome_of_stale hok hold hd, fun _ => State.atHome_of_unopened hok hold hd⟩⟩⟩

/-! ### Requests performed (R63 to R65, R72) -/

section
variable {s : State} {p : Packet} {c : Nat} {d : List Byte}

theorem execLdreq_of_current (hok : pktReadOk p = true) (h : AtHome s p false c d) {x : Except Nat (List Byte × State)} :
    s.homeRead c (pktOff p) (pktSize p) = x → execLdreq p s = .next (match x with
      | .ok (bs, u) => u.reply p 0x02 0 0#64 bs
      | .error st => s.reply p 0x02 st 0#64 []) :=
  fun hx => hx ▸ State.atHome_of_current hok h

theorem execCpyrd_of_current (hok : pktReadOk p = true) (h : AtHome s p true c d) {x : Except Nat (List Byte × State)} :
    s.homeCopyRead c (pktOff p) (pktSize p) = x → execCpyrd p s = .next (match x with
      | .ok (bs, u) => u.reply p 0x11 0 p.spec64 bs
      | .error st => s.reply p 0x11 st p.spec64 []) :=
  fun hx => hx ▸ State.atHome_of_current hok h

/-- A store request performed by `write`: its answer may wait for parity deltas (R354). -/
theorem homeStore_of_current {cross : Bool} (hok : pktWriteOk p = true) (h : AtHome s p cross c d) {ty : Nat}
    {write : State → Nat → Nat → List Byte → Except Nat State} {x : Except Nat State} :
    write s c (pktOff p) (d.take (pktSize p)) = x → homeStore p cross ty write s = .next (match x with
      | .ok t => t.replyHeld p ty s.fab.nextReq
      | .error st => s.reply p ty st 0#64 []) :=
  fun hx => hx ▸ State.atHome_of_current hok h

theorem execAmoreq_of_current (hok : pktAmoOk p = true) (h : AtHome s p false c d) {x : Except Nat (Nat × State)} :
    s.homeAmo c p d = x → execAmoreq p s = .next (match x with
      | .ok (old, u) => u.reply p 0x06 0 0#64 (natLe 8 old ++ List.replicate 8 0#8)
      | .error st => s.reply p 0x06 st 0#64 []) :=
  fun hx => hx ▸ State.atHome_of_current hok h

theorem execScareq_of_current (hok : pktScaOk p = true) (h : AtHome s p false c d) {op : ScaOp}
    (hop : scaOfCode (p.spec16.toNat % 8) = some op) :
    let n := p.dbeats.toNat - (if p.enc then 1 else 0)
    let es := (List.range n).map fun i => scaEntryOf (p.spec16.extractLsb' 4 4) (slice d (16 * i) 16)
    let r := scaEach c op (p.spec16.extractLsb' 4 4) (p.spec64.extractLsb' 0 32) es none s
    execScareq p s = .next (r.2.reply p 0x08 (match r.1 with | some b => b.2 | none => 0) 0#64 []) := by
  refine (State.atHome_of_current hok h).trans ?_
  rewrite [hop]
  rfl

theorem execPdelta_of_current (hok : pktDeltaOk p = true) (h : AtHome s p false c d) :
    let n := 16 * (p.dbeats.toNat - (if p.enc then 1 else 0))
    let r := if 2 ^ 44 < pktOff p + n then (1, s) else s.applyDelta c (p.spec16.toNat % 256) (pktOff p) (d.take n)
    execPdelta p s = .next (r.2.reply p 0x0A r.1 0#64 []) :=
  State.atHome_of_current hok h

end

/-! ### An answer on its way (R62, R104, R294) -/

/-- A packet of a job differs from the one in clear in what asks for the seal. -/
theorem State.mkPacket_eq_plain (s : State) (ty : Nat) (dst : Epid) (job gen flow : BitVec 16) (itag : BitVec 32) (spec16 : BitVec 16)
    (spec64 : Word) (bs : List Byte) : ∃ e b, s.mkPacket ty dst job gen flow itag spec16 spec64 bs =
      { s.plainPacket ty dst job gen flow itag spec16 spec64 bs with enc := e, dbeats := b } := by
  unfold State.mkPacket
  dsimp only
  split <;> exact ⟨_, _, rfl⟩

/-- The seal of a packet leaves its header but for DBEATS and the mark of encryption. -/
theorem State.sealOut_eq (s : State) (q : Nat) (p : Packet) :
    ∃ e b n d, s.sealOut q p = { p with enc := e, dbeats := b, nonce := n, data := d } := by
  unfold State.sealOut
  split
  · split <;> exact ⟨_, _, _, _, rfl⟩
  · exact ⟨_, _, _, _, rfl⟩

@[simp] theorem State.sealOut_dst (s : State) (q : Nat) (p : Packet) : (s.sealOut q p).dst = p.dst := by
  obtain ⟨e, b, n, d, h⟩ := s.sealOut_eq q p
  rw [h]

@[simp] theorem State.bumpKey_fab (s : State) (q : Nat) (p : Packet) : (s.bumpKey q p).fab = s.fab := by
  unfold State.bumpKey
  split <;> rfl

theorem State.emit_fab_of_other {s : State} {p : Packet} (h : p.dst ≠ s.fab.epid) (q : Nat) :
    (s.emit q p).fab = { s.fab with sent := s.fab.sent ++ [s.sealOut q p] } := by
  simp [State.emit, h]

theorem State.emit_fab_of_self {s : State} {p : Packet} (h : p.dst = s.fab.epid) (q : Nat) :
    (s.emit q p).fab = { s.fab with turned := s.fab.turned ++ [s.sealOut q p] } := by
  simp [State.emit, h]

/-- What an answer to `p` is before its seal: for the source of `p`, from this device, under the tag of `p`. -/
def State.answerPacket (s : State) (p : Packet) (ty st : Nat) (v : Word) (bs : List Byte) : Packet :=
  { s.mkPacket ty p.src p.job p.gen p.flow p.itag (BitVec.ofNat 16 st) v bs with tag := p.tag }

theorem State.reply_eq_emit (s : State) (p : Packet) (ty st : Nat) (v : Word) (bs : List Byte) :
    s.reply p ty st v bs = s.emit (s.fab.portFor p.flow p.src) (s.answerPacket p ty st v bs) := rfl

/-- What stands in the header of an answer, as it leaves on a port. -/
theorem State.answerPacket_sealed (s : State) (p : Packet) (ty st : Nat) (v : Word) (bs : List Byte) (q : Nat) :
    ∃ e b n d, s.sealOut q (s.answerPacket p ty st v bs) =
      { s.plainPacket ty p.src p.job p.gen p.flow p.itag (BitVec.ofNat 16 st) v bs with
        tag := p.tag, enc := e, dbeats := b, nonce := n, data := d } := by
  obtain ⟨e', b', hplain⟩ := s.mkPacket_eq_plain ty p.src p.job p.gen p.flow p.itag (BitVec.ofNat 16 st) v bs
  obtain ⟨e, b, n, d, hseal⟩ := s.sealOut_eq q (s.answerPacket p ty st v bs)
  exact ⟨e, b, n, d, by rw [hseal, State.answerPacket, hplain]⟩

theorem State.answerPacket_dst (s : State) (p : Packet) (ty st : Nat) (v : Word) (bs : List Byte) :
    (s.answerPacket p ty st v bs).dst = p.src := by
  obtain ⟨e, b, hplain⟩ := s.mkPacket_eq_plain ty p.src p.job p.gen p.flow p.itag (BitVec.ofNat 16 st) v bs
  rw [State.answerPacket, hplain]
  rfl

/-! ### Answers (R72, R73) -/

section
variable {s : State} {p : Packet} {ok : Bool} {o : Outstanding}

theorem State.takeAnswer_of_malformed (hok : ok = false) : s.takeAnswer p ok = .next (s.dropPacket p) := by
  simp [State.takeAnswer, hok]

theorem State.takeAnswer_of_old (hok : ok = true) (hold : tooOld p = true) : s.takeAnswer p ok = .next s := by
  simp [State.takeAnswer, hok, hold]

theorem State.takeAnswer_of_unmatched (hok : ok = true) (hold : tooOld p = false)
    (hf : s.fab.outstanding.find? (·.tag = p.tag.toNat) = none) : s.takeAnswer p ok = .next s := by
  simp only [State.takeAnswer, hok, hold, hf, Bool.not_true, Bool.false_eq_true, if_false]

theorem State.takeAnswer_of_matched (hok : ok = true) (hold : tooOld p = false)
    (hf : s.fab.outstanding.find? (·.tag = p.tag.toNat) = some o) :
    (∀ d, s.openPacket p = some d → s.takeAnswer p ok = .next (s.answered o (p.spec16.toNat % 16) d)) ∧
    (s.openPacket p = none → s.takeAnswer p ok = .next (s.answered o 7 [])) := by
  simp only [State.takeAnswer, hok, hold, hf, Bool.not_true, Bool.false_eq_true, if_false]
  exact ⟨fun d hd => by rw [hd], fun hn => by rw [hn]⟩

end

theorem completes_of_takeAnswer {i : Packet → Instr} {ok : Packet → Bool} (hi : ∀ p s, exec (i p) s = s.takeAnswer p (ok p)) :
    Completes i ok := by
  intro s p
  rw [hi]
  exact ⟨State.takeAnswer_of_malformed, State.takeAnswer_of_old, State.takeAnswer_of_unmatched, fun _ => State.takeAnswer_of_matched⟩

theorem execTlack_of_matched {s : State} {p : Packet} {o : Outstanding} (hz : p.zerosOk = true) (h16 : p.spec16.toNat < 128)
    (h64 : p.spec64.toNat < 2 ^ 32) (hb : pktBeats p 0 = true) (hold : tooOld p = false)
    (hf : s.fab.outstanding.find? (·.tag = p.tag.toNat) = some o) : execTlack p s = .next (s.answered o p.spec16.toNat []) := by
  have hok : (p.zerosOk && decide (p.spec16.toNat < 128) && decide (p.spec64.toNat < 2 ^ 32) && pktBeats p 0) = true := by
    simp only [hz, h16, h64, hb, decide_true, Bool.and_self]
  simp only [execTlack, hok, hold, hf, Bool.not_true, Bool.false_eq_true, if_false]

/-! ### The end of a request (R72, R73, R642) -/

/-- A request that is over is outstanding no more, and counts no more in its context (R80); nothing else changes. -/
theorem State.dropReq_eq (s : State) (o : Outstanding) :
    ∃ cs, s.dropReq o = { s with ctxs := cs, fab := { s.fab with outstanding := s.fab.outstanding.filter (·.rid != o.rid) } } := by
  unfold State.dropReq
  dsimp only
  split <;> exact ⟨_, rfl⟩

/-- A store that succeeded ends with its request: with nothing waiting to be sent, nothing more happens. -/
theorem State.answered_store {s : State} {o : Outstanding} {h : Fin 4} {va : Word} {n : Nat} (ho : o.purpose = .store h va n)
    (hw : s.fab.waiting = []) (d : List Byte) : s.answered o 0 d = s.dropReq o := by
  obtain ⟨cs, hdrop⟩ := s.dropReq_eq o
  simp only [State.answered, ho, if_true]
  exact State.sendWaiting_of_none (by rw [hdrop]; exact hw)

theorem execRequestTimeout_of_outstanding {s : State} {tag : Nat} {o : Outstanding} (hf : s.fab.outstanding.find? (·.tag = tag) = some o) :
    execRequestTimeout tag s =
      .next (State.answered { s with fab := { s.fab with heldTags := s.fab.heldTags ++ [tag] } } o 8 []) := by
  simp only [execRequestTimeout, hf]

theorem execTagRelease_of_none {s : State} (hw : s.fab.waiting = []) (tag : Nat) :
    execTagRelease tag s = .next { s with fab := { s.fab with heldTags := s.fab.heldTags.filter (· != tag) } } :=
  congrArg Host.Outcome.next (State.sendWaiting_of_none hw)

/-! ### The statement -/

/-- Settles O57: the bars are those of `State.atHome`, each request its equation once it has passed them, and every answer
`State.takeAnswer`. -/
theorem homeRequestsAndAnswers : Obligations.HomeRequestsAndAnswers := by
  refine ⟨turnsAway_of_atHome fun _ _ => rfl, turnsAway_of_atHome fun _ _ => rfl, turnsAway_of_atHome fun _ _ => rfl,
    turnsAway_of_atHome fun _ _ => rfl, turnsAway_of_atHome fun _ _ => rfl, turnsAway_of_atHome fun _ _ => rfl,
    turnsAway_of_atHome fun _ _ => rfl, ?performed, ?reply, completes_of_takeAnswer fun _ _ => rfl, completes_of_takeAnswer fun _ _ => rfl,
    completes_of_takeAnswer fun _ _ => rfl, completes_of_takeAnswer fun _ _ => rfl, completes_of_takeAnswer fun _ _ => rfl,
    completes_of_takeAnswer fun _ _ => rfl, completes_of_takeAnswer fun _ _ => rfl, fun _ _ _ => execTlack_of_matched, ?stored,
    fun _ _ _ => execRequestTimeout_of_outstanding, fun _ tag hw => execTagRelease_of_none hw tag⟩
  case performed =>
    intro s p c d
    refine ⟨fun hok h => ⟨fun _ _ => execLdreq_of_current hok h, fun _ => execLdreq_of_current hok h⟩,
      fun hok h => ⟨fun _ _ => execCpyrd_of_current hok h, fun _ => execCpyrd_of_current hok h⟩,
      fun hok h => ⟨fun _ => homeStore_of_current hok h, fun _ => homeStore_of_current hok h⟩,
      fun hok h => ⟨fun _ => homeStore_of_current hok h, fun _ => homeStore_of_current hok h⟩,
      fun hok h => ⟨fun _ _ => execAmoreq_of_current hok h, fun _ => execAmoreq_of_current hok h⟩,
      fun hok h _ => execScareq_of_current hok h, fun hok h => ?pdelta⟩
    have heq := execPdelta_of_current hok h
    exact ⟨fun hfar => heq.trans (by rw [if_pos hfar]), fun hnear st u hr => heq.trans (by rw [if_neg (Nat.not_lt.mpr hnear), hr])⟩
  case reply =>
    intro s p ty st v bs
    rw [State.reply_eq_emit]
    have hdst := s.answerPacket_dst p ty st v bs
    refine ⟨s.sealOut (s.fab.portFor p.flow p.src) (s.answerPacket p ty st v bs), fun hother => ?_, fun hself => ?_, ?_⟩
    · rw [State.emit_fab_of_other (hdst.trans_ne hother)]
      exact ⟨rfl, rfl⟩
    · rw [State.emit_fab_of_self (hdst.trans hself)]
      exact ⟨rfl, rfl⟩
    · obtain ⟨e, b, n, d, hsealed⟩ := s.answerPacket_sealed p ty st v bs (s.fab.portFor p.flow p.src)
      rw [hsealed]
      exact ⟨rfl, rfl, rfl, rfl, rfl, rfl, rfl, rfl, rfl⟩
  case stored =>
    intro s p o h va n hbare hzero hold hclear hw hf hstore
    have hopen : s.openPacket p = some p.data := by simp [State.openPacket, hclear]
    obtain ⟨hopened, -⟩ := State.takeAnswer_of_matched hbare hold hf
    obtain ⟨cs, hdrop⟩ := s.dropReq_eq o
    have hanswered : exec (.stcmp p) s = .next (s.answered o 0 p.data) := (hopened p.data hopen).trans (by rewrite [hzero]; rfl)
    rw [State.answered_store hstore hw, hdrop] at hanswered
    exact ⟨_, hanswered, rfl, rfl, rfl⟩

end Sys2Proof.Machine
end

section
/-! SUPPORT. The state after module reset (R87, R118 to R121, R312), and the statement O6. What reset leaves where the spec is silent is
assumption 5. -/

namespace Sys2Proof.Machine
open Sys2Proof.Claims

/-- No feature is accepted after reset (R121). -/
theorem State.reset_feat (k : Nat) : State.reset.feat k = false := by simp [State.feat, State.reset, HostIf.reset]

/-- Settles O6: the harts, lane groups and device time of the reset state are evaluated, its other fields read off. -/
theorem resetLeavesDeviceInReset : Obligations.ResetLeavesDeviceInReset := by
  refine ⟨rfl, rfl, rfl, rfl, rfl, State.reset_feat, rfl, ?harts, ?lanes, rfl, rfl, ?time, rfl, rfl, rfl, rfl⟩
  case harts => decide
  case lanes => decide
  case time => decide

end Sys2Proof.Machine
end

section
/-! SUPPORT. Reductions and scans over whole rows (R107, R289, R527, R537 to R540): the fixed tree over an associative operation, the
prefixes of a scan, the run of a reduction at an idle hart; and the statement O27. -/

namespace Sys2Proof.Machine
open Sys2Proof.Claims

/-! ### The fixed tree (R107, R289) -/

/-- A node over two present nodes: their combine, with the flags of all three. -/
def joinFlagged (f : Nat → Nat → Flagged) (a b : Flagged) : Flagged := ((f a.1 b.1).1, a.2 ||| b.2 ||| (f a.1 b.1).2)

theorem treeLevel_cons_cons (f : Nat → Nat → Flagged) (x y : Option Flagged) (r : List (Option Flagged)) :
    treeLevel f (x :: y :: r) = Option.merge (joinFlagged f) x y :: treeLevel f r := by
  cases x <;> cases y <;> rfl

theorem treeLevel_length (f : Nat → Nat → Flagged) (l : List (Option Flagged)) : (treeLevel f l).length = (l.length + 1) / 2 := by
  induction l using treeLevel.induct with
  | case1 x y r ih =>
    rw [treeLevel_cons_cons, List.length_cons, ih]
    simp only [List.length_cons]
    omega
  | case2 l hl =>
    match l, hl with
    | [], _ => rfl
    | [_], _ => simp [treeLevel]
    | x :: y :: r, hl => exact absurd rfl (hl x y r)

section
variable {f : Nat → Nat → Flagged} [Std.Associative (joinFlagged f)]

/-- A level of the tree comes to what its nodes come to in index order. -/
theorem foldl_treeLevel (l : List (Option Flagged)) (b : Option Flagged) :
    (treeLevel f l).foldl (Option.merge (joinFlagged f)) b = l.foldl (Option.merge (joinFlagged f)) b := by
  induction l using treeLevel.induct generalizing b with
  | case1 x y r ih =>
    rw [treeLevel_cons_cons, List.foldl_cons, List.foldl_cons, List.foldl_cons, ih]
    congr 1
    exact (Std.Associative.assoc b x y).symm
  | case2 l hl =>
    match l, hl with
    | [], _ => rfl
    | [_], _ => rfl
    | x :: y :: r, hl => exact absurd rfl (hl x y r)

/-- Over an associative operation the fixed tree gives what the combination in index order gives. -/
theorem treeOf_eq_foldl (n : Nat) (l : List (Option Flagged)) (hl : l.length ≤ n + 1) :
    treeOf f n l = l.foldl (Option.merge (joinFlagged f)) none := by
  induction n generalizing l with
  | zero =>
    match l, hl with
    | [], _ => rfl
    | [x], _ => cases x <;> rfl
  | succ n ih =>
    match l with
    | [] => rfl
    | [x] => cases x <;> rfl
    | x :: y :: r =>
      have hlen := treeLevel_length f (x :: y :: r)
      simp only [List.length_cons] at hl hlen
      exact (ih _ (by omega)).trans (foldl_treeLevel _ _)

end

/-! ### Combination in index order -/

section
variable (g : Nat → Nat → Nat)

/-- The combination of a list is the fold of its present values. -/
theorem combine_eq_foldl (z : Nat) (l : List Nat) : combine z g l = ((l.map some).foldl (Option.merge g) none).getD z := by
  have step (l : List Nat) (x : Nat) : (l.map some).foldl (Option.merge g) (some x) = some (l.foldl g x) := by
    induction l generalizing x with
    | nil => rfl
    | cons y l ih => exact ih _
  cases l with
  | nil => rfl
  | cons x l => exact (congrArg (·.getD z) (step l x)).symm

/-- Absent values change no fold. -/
theorem foldl_merge_filterMap (l : List (Option Nat)) (b : Option Nat) :
    ((l.filterMap id).map some).foldl (Option.merge g) b = l.foldl (Option.merge g) b := by
  induction l generalizing b with
  | nil => rfl
  | cons x l ih =>
    cases x with
    | none => cases b <;> exact ih _
    | some v => exact ih _

theorem combine_filterMap (z : Nat) (l : List (Option Nat)) :
    combine z g (l.filterMap id) = (l.foldl (Option.merge g) none).getD z := by
  rw [combine_eq_foldl, foldl_merge_filterMap]

/-- Values without flags fold as the values do. -/
theorem foldl_joinFlagged (l : List (Option Nat)) (b : Option Nat) :
    (l.map (Option.map fun v => ((v, 0#5) : Flagged))).foldl (Option.merge (joinFlagged fun a b => (g a b, 0#5))) (b.map fun v => (v, 0#5)) =
      (l.foldl (Option.merge g) b).map fun v => (v, 0#5) := by
  induction l generalizing b with
  | nil => rfl
  | cons x l ih =>
    rw [List.map_cons, List.foldl_cons, List.foldl_cons, ← ih]
    congr 1
    cases b <;> cases x <;> simp [joinFlagged]

end

/-- Two operations that agree on the values at hand, and stay among them, combine a list alike. -/
theorem combine_congr {f g : Nat → Nat → Nat} {P : Nat → Prop} (hf : ∀ x y, P x → P y → f x y = g x y ∧ P (f x y)) (z : Nat) (l : List Nat)
    (hl : ∀ x ∈ l, P x) : combine z f l = combine z g l := by
  have fold (l : List Nat) (x : Nat) (hx : P x) (hl : ∀ y ∈ l, P y) : l.foldl f x = l.foldl g x := by
    induction l generalizing x with
    | nil => rfl
    | cons y l ih =>
      obtain ⟨heq, hp⟩ := hf x y hx (hl y (by simp))
      rw [List.foldl_cons, List.foldl_cons, ← heq]
      exact ih _ hp fun w hw => hl w (by simp [hw])
  cases l with
  | nil => rfl
  | cons x l => exact fold l x (hl x (by simp)) fun y hy => hl y (by simp [hy])

/-- Additions modulo `m` come to the sum modulo `m`. -/
theorem combine_add_mod (m : Nat) (l : List Nat) : combine 0 (fun a b => (a + b) % m) l % m = l.sum % m := by
  have fold (l : List Nat) (x : Nat) : l.foldl (fun a b => (a + b) % m) x % m = (x + l.sum) % m := by
    induction l generalizing x with
    | nil => rfl
    | cons y l ih => rw [List.foldl_cons, ih, List.sum_cons, Nat.mod_add_mod, Nat.add_assoc]
  cases l with
  | nil => rfl
  | cons x l => exact fold l x

/-! ### A segment that is the whole row (R537 to R540) -/

/-- With segments off a row is one segment (R538). -/
theorem segments_of_off {c : Cap} (h : Hart) (k : Nat) (hoff : c.vseg.getLsbD 3 = false) (hvl : 0 < c.vl) : segments c h k = [(0, c.vl)] := by
  have hstart : ((List.range c.vl).filter fun e => e == 0 || c.segStart h k e) = [0] := by
    obtain ⟨n, hn⟩ := Nat.exists_eq_succ_of_ne_zero hvl.ne'
    rw [hn, List.range_succ_eq_map]
    have hnone (e : Nat) : (c.segStart h k e) = false := by rw [Cap.segStart, hoff, Bool.false_and]
    simp [hnone]
  simp [segments, hstart]

/-- The active values of the first `n` elements of row `k`, behind an initial value. -/
def activeValues (c : Cap) (h : Hart) (va : VReg) (init : Option Nat) (k n : Nat) : List Nat :=
  init.toList ++ ((List.range n).filter fun x => c.active h k x).map fun x => va.elem c.bits k x

/-- The elements of row `k` that are active, each at its position. -/
def rowNode (c : Cap) (h : Hart) (va : VReg) (k i : Nat) : Option Nat := if c.active h k i then some (va.elem c.bits k i) else none

theorem filterMap_rowNode (c : Cap) (h : Hart) (va : VReg) (init : Option Nat) (k n : Nat) :
    (init :: (List.range n).map (rowNode c h va k)).filterMap id = activeValues c h va init k n := by
  have hnodes : ((List.range n).map (rowNode c h va k)).filterMap id =
      ((List.range n).filter fun x => c.active h k x).map fun x => va.elem c.bits k x := by
    rw [List.filterMap_map, ← List.filterMap_eq_map, List.filterMap_filter]
    exact List.filterMap_congr fun i _ => rfl
  cases init with
  | none => exact hnodes
  | some v => exact congrArg (v :: ·) hnodes

/-- What the active values of the first `i` elements of row `k` come to, behind an initial value; none where there is no value. -/
def scanPrefix (g : Nat → Nat → Nat) (c : Cap) (h : Hart) (va : VReg) (init : Option Nat) (k i : Nat) : Option Nat :=
  ((List.range i).map (rowNode c h va k)).foldl (Option.merge g) init

theorem scanPrefix_succ (g : Nat → Nat → Nat) (c : Cap) (h : Hart) (va : VReg) (init : Option Nat) (k i : Nat) :
    scanPrefix g c h va init k (i + 1) = Option.merge g (scanPrefix g c h va init k i) (rowNode c h va k i) := by
  simp [scanPrefix, List.range_succ]

theorem scanPrefix_getD (g : Nat → Nat → Nat) (c : Cap) (h : Hart) (va : VReg) (init : Option Nat) (k i z : Nat) :
    (scanPrefix g c h va init k i).getD z = combine z g (activeValues c h va init k i) := by
  have hinit : Option.merge g none init = init := by cases init <;> rfl
  rw [← filterMap_rowNode, combine_filterMap, List.foldl_cons, hinit, scanPrefix]

section
variable {op : RedOp} {c : Cap} {g : Nat → Nat → Nat} {m : RMode} (hg : redCombine op c.et m = fun a b => (g a b, 0#5)) (hfl : op.isFloat = false)
include hg hfl

/-- An integer reduction of a row combines its initial value and its active values in index order, and raises no flag (R107, R537, R539). -/
theorem redSegment_integer [hassoc : Std.Associative g] (hseq : op.isSeq = false) (h : Hart) (va : VReg) (init : Option Nat) (k n : Nat) :
    redSegment op c h m va init k 0 n = (combine (redIdentity op c.et) g (activeValues c h va init k n), 0#5) := by
  have : Std.Associative (joinFlagged fun a b => (g a b, 0#5)) :=
    ⟨fun a b d => by simp [joinFlagged, hassoc.assoc, BitVec.or_assoc]⟩
  have hroot : treeOf (fun a b => (g a b, 0#5)) (n + 1) ((List.range n).map fun i => (rowNode c h va k i).map fun v => (v, 0#5)) =
      (scanPrefix g c h va none k n).map fun v => (v, 0#5) := by
    rw [treeOf_eq_foldl _ _ (by rw [List.length_map, List.length_range]; omega), scanPrefix, ← foldl_joinFlagged, List.map_map]
    rfl
  have hinit : scanPrefix g c h va init k n = Option.merge g init (scanPrefix g c h va none k n) := by
    rw [scanPrefix, scanPrefix, ← List.foldl_assoc (op := Option.merge g)]
    cases init <;> rfl
  rw [← scanPrefix_getD, hinit]
  unfold redSegment
  simp only [hg, hfl, hseq, Nat.zero_add, Bool.false_eq_true, if_false]
  rw [show (fun i => Option.map (fun v => ((v, 0#5) : Flagged)) (if c.active h k i = true then some (va.elem c.bits k i) else none)) =
    fun i => (rowNode c h va k i).map fun v => (v, 0#5) from rfl, hroot]
  cases init <;> cases scanPrefix g c h va none k n <;> simp

/-- A scan of a row gives each active element what the values up to it come to, or those before it in an exclusive scan (R540). -/
theorem scanSegment_integer (h : Hart) (va : VReg) (init : Option Nat) (k n : Nat) :
    scanSegment op c h m va init k 0 n = (List.range n).map fun i =>
      if c.active h k i then some (combine 0 g (activeValues c h va init k (if op = .scanx then i else i + 1)), 0#5) else none := by
  unfold scanSegment
  simp only [hg, hfl, Nat.zero_add, Bool.false_eq_true, if_false]
  suffices H : ∀ n, (List.range n).foldl _ (init, []) = (scanPrefix g c h va init k n, (List.range n).map fun i =>
      if c.active h k i then some (combine 0 g (activeValues c h va init k (if op = .scanx then i else i + 1)), 0#5) else none) from
    congrArg Prod.snd (H n)
  intro n
  induction n with
  | zero => rfl
  | succ n ih =>
    rw [List.range_succ, List.foldl_append, ih, List.map_append, scanPrefix_succ]
    by_cases hact : c.active h k n = true
    · by_cases hx : op = .scanx <;> cases hp : scanPrefix g c h va init k n <;>
        simp [hact, hx, rowNode, hp, ← scanPrefix_getD, scanPrefix_succ]
    · cases scanPrefix g c h va init k n <;> simp [hact, rowNode]

end

/-! ### The run of a reduction at an idle hart -/

/-- With no copy before it, a run over whole rows reaches the last row. -/
theorem runRowsWhole_whole (f : QEntry → Nat → Nat → Hart → Hart) (i : Fin 4) (e : QEntry) (s : State) (hq : s.harts[i].queue = [e])
    (h0 : e.vl ≠ 0) : ∃ k1, (∀ k, k < e.vrows → (e.prog / e.vl ≤ k → k < k1)) ∧ ∃ e2, e2.eid = e.eid ∧ e2.post = e.post ∧
      runRowsWhole f i e.total e s = .done (s.modHart i (f e (e.prog / e.vl) k1)) e2 := by
  have hvl : 0 < e.vl := Nat.pos_of_ne_zero h0
  have htot : e.total = e.vrows * e.vl := Nat.mul_comm _ _
  unfold runRowsWhole
  by_cases hp : e.total ≤ e.prog
  · refine ⟨e.prog / e.vl, fun k hk hle => ?_, e, rfl, rfl, by rw [if_pos hp]⟩
    have : e.vrows ≤ e.prog / e.vl := (Nat.le_div_iff_mul_le hvl).mpr (htot ▸ hp)
    omega
  · have hup : min e.total ((e.total + e.vl - 1) / e.vl * e.vl) = e.total := by
      refine Nat.min_eq_left ?_
      rw [htot, Nat.add_sub_assoc hvl, Nat.mul_comm, Nat.mul_add_div hvl, Nat.mul_comm e.vl]
      exact Nat.mul_le_mul_right _ (Nat.le_add_right _ _)
    have hlim : s.harts[i].runLimit { e with prog := e.prog / e.vl * e.vl } e.total / e.vl = e.vrows := by
      have hbusy : s.harts[i].maskBusy { e with prog := e.prog / e.vl * e.vl } = false := by simp [Hart.maskBusy, hq, -Fin.getElem_fin]
      rw [Hart.runLimit, hbusy, htot]
      exact Nat.mul_div_cancel _ hvl
    have hk0 : e.prog / e.vl < e.vrows := (Nat.div_lt_iff_lt_mul hvl).mpr (by omega)
    refine ⟨e.vrows, fun k hk _ => hk, { e with prog := e.vrows * e.vl }, rfl, rfl, ?_⟩
    rw [if_neg hp]
    simp only [hup, hlim]
    rw [if_neg (by omega), if_pos (Nat.le_refl _)]

/-- The new element (k, x) of an integer reduction or scan of a row. -/
def redValue (op : RedOp) (g : Nat → Nat → Nat) (c : Cap) (h : Hart) (va : VReg) (init : Option Nat) (k x : Nat) : Option Nat :=
  if op.isScan then
    (if c.active h k x then some (combine 0 g (activeValues c h va init k (if op = .scanx then x else x + 1))) else none)
  else if x = 0 then some (combine (redIdentity op c.et) g (activeValues c h va init k c.vl)) else none

/-- Where the rows of a list raise nothing, their flags are none. -/
theorem rowFlags_zero (rows : List (List (Option Flagged))) (hz : ∀ r ∈ rows, ∀ y ∈ r, ∀ z, y = some z → z.2 = 0#5) :
    rows.foldl (fun fl r => r.foldl (fun fl x => match x with | some y => fl ||| y.2 | none => fl) fl) 0#5 = (0#5 : Flags) := by
  refine List.foldlRecOn (motive := (· = (0#5 : Flags))) rows _ rfl fun fl hfl r hr => ?_
  refine List.foldlRecOn (motive := (· = (0#5 : Flags))) r _ hfl fun fl hfl y hy => ?_
  cases y with
  | none => exact hfl
  | some z => simp [hfl, hz r hr _ hy z rfl]

/-- The results of row `k`, segment by segment (R537). -/
def redRow (op : RedOp) (c : Cap) (h : Hart) (m : RMode) (va : VReg) (init : Nat → Option Nat) (k : Nat) : List (Option Flagged) :=
  if op.isScan then (segments c h k).zipIdx.flatMap fun x => scanSegment op c h m va (init x.2) k x.1.1 x.1.2
  else (segments c h k).zipIdx.map fun x => some (redSegment op c h m va (init x.2) k x.1.1 x.1.2)

section
variable {op : RedOp} {g : Nat → Nat → Nat} [hassoc : Std.Associative g]

/-- Without segments the results of a row are its new elements, and none raises a flag. -/
theorem redRow_integer {c : Cap} {m : RMode} (hg : redCombine op c.et m = fun a b => (g a b, 0#5)) (hfl : op.isFloat = false)
    (hseq : op.isSeq = false) (hoff : c.vseg.getLsbD 3 = false) (hvl : 0 < c.vl) (h : Hart) (va : VReg) (init : Nat → Option Nat) (k : Nat) :
    (∀ y ∈ redRow op c h m va init k, ∀ z, y = some z → z.2 = 0#5) ∧
    ∀ x, x < c.vl → ((redRow op c h m va init k).getD x none).map (·.1) = redValue op g c h va (init 0) k x := by
  unfold redRow
  rw [segments_of_off h k hoff hvl]
  by_cases hscan : op.isScan = true
  · simp only [hscan, if_true, List.zipIdx_cons, List.zipIdx_nil, List.flatMap_cons, List.flatMap_nil, List.append_nil]
    rw [scanSegment_integer hg hfl]
    refine ⟨fun y hy z hz => ?_, fun x hx => ?_⟩
    · obtain ⟨i, -, rfl⟩ := List.mem_map.mp hy
      split at hz <;> cases hz
      rfl
    · rw [redValue, if_pos hscan, List.getD_eq_getElem _ _ (by simpa using hx), List.getElem_map, List.getElem_range]
      split <;> rfl
  · simp only [hscan, if_false, List.zipIdx_cons, List.zipIdx_nil, List.map_cons, List.map_nil, Bool.false_eq_true]
    rw [redSegment_integer hg hfl hseq]
    refine ⟨fun y hy z hz => ?_, fun x hx => ?_⟩
    · cases List.mem_singleton.mp hy
      cases hz
      rfl
    · rw [redValue, if_neg hscan]
      cases x <;> rfl

/-- The results of the rows from `k0` to below `k1` of an entry whose sources are read. -/
def redRows (op : RedOp) (e : QEntry) (k0 k1 : Nat) (h : Hart) : List (List (Option Flagged)) :=
  (List.range e.cap.vrows).map fun k => if k0 ≤ k && k < k1 then redRow op e.cap h e.mode (h.vreg e.post.a)
    (fun s => if e.post.b = 0#5 then none else some ((h.vreg e.post.b).elem e.cap.bits k s)) k else []

theorem redRows_getD (op : RedOp) (e : QEntry) (k0 k1 : Nat) (h : Hart) {k : Nat} (hk : k < e.cap.vrows) :
    (redRows op e k0 k1 h).getD k [] = if k0 ≤ k ∧ k < k1 then redRow op e.cap h e.mode (h.vreg e.post.a)
      (fun s => if e.post.b = 0#5 then none else some ((h.vreg e.post.b).elem e.cap.bits k s)) k else [] := by
  simp [redRows, hk]

/-- An integer reduction or scan without segments: the sources are read, the new elements of its rows are written, and no flag is raised. -/
theorem runRed_integer {e : QEntry} (hg : redCombine op e.cap.et e.mode = fun a b => (g a b, 0#5)) (hfl : op.isFloat = false)
    (hseq : op.isSeq = false) (hoff : e.cap.vseg.getLsbD 3 = false) (hvl : 0 < e.cap.vl) (k0 k1 : Nat) (h : Hart) :
    let h1 := h.relayAll e.cap.et e.cap.lmap e.post.vsrc
    let init (k : Nat) : Option Nat := if e.post.b = 0#5 then none else some ((h1.vreg e.post.b).elem e.cap.bits k 0)
    ∃ F : Nat → Nat → Option Nat,
      (∀ k x, k < e.cap.vrows → x < e.cap.vl →
        F k x = if k0 ≤ k ∧ k < k1 then redValue op g e.cap h1 (h1.vreg e.post.a) (init k) k x else none) ∧
      runRed op e k0 k1 h =
        ((h1.writeVec e.post.d none e.cap.et e.cap (e.cap.covers e.first) F).raise 0#5).setVpi e.post.d (k1 * e.cap.vl) := by
  intro h1 init
  have hflags := rowFlags_zero (redRows op e k0 k1 h1) fun r hr y hy z hz => by
    obtain ⟨k, -, rfl⟩ := List.mem_map.mp hr
    split at hy
    · exact (redRow_integer hg hfl hseq hoff hvl h1 _ _ k).1 y hy z hz
    · cases hy
  refine ⟨fun k x => (((redRows op e k0 k1 h1).getD k []).getD x none).map (·.1), fun k x hk hx => ?_, ?_⟩
  · dsimp only
    rw [redRows_getD _ _ _ _ _ hk]
    by_cases hin : k0 ≤ k ∧ k < k1
    · rw [if_pos hin, if_pos hin]
      exact (redRow_integer hg hfl hseq hoff hvl h1 _ _ k).2 x hx
    · rw [if_neg hin, if_neg hin]
      rfl
  · rw [← hflags]
    rfl

end

/-- An element after a write over a destination that the write may cover: the new one, or what stands there (R237, R243). -/
theorem elem_written_kept (s : State) (r : VReg) (et : ETCode) (whole : Bool) (f : Nat → Nat → Option Nat) (k x : Nat) (hk : k < 16)
    (hx : (x + 1) * etBits et ≤ 8192) (hkr : k < s.h.vrows) (hxl : x < s.h.vl) :
    ((r.dest et (vtGroups s.h.vtype) s.h.vl s.h.vrows whole).write (etBits et) s.h.vl s.h.vrows f).elem (etBits et) k x =
      ((f k x).map (· % 2 ^ etBits et)).getD (keptElem s r et whole k x) := by
  have kept_of_not (hn : ¬ (whole = true ∧ r.len ≤ s.h.vl ∧ r.nrows ≤ s.h.vrows)) :
      keptElem s r et whole k x = (r.relaid et (vtGroups s.h.vtype)).elem (etBits et) k x := if_neg hn
  cases whole with
  | false =>
    rw [VReg.elem_written r et _ _ _ false f k x (by simp) hk hx hkr hxl, kept_of_not (by simp)]
    cases f k x <;> rfl
  | true =>
    by_cases hcov : r.len ≤ s.h.vl ∧ r.nrows ≤ s.h.vrows
    · rw [VReg.elem_written_whole r et _ _ _ f k x hk hx hkr hxl hcov.1 hcov.2]
      simp only [keptElem, hcov, and_self, if_true]
      cases f k x <;> rfl
    · rw [kept_of_not (by simpa using hcov)]
      cases hv : r.valid with
      | true =>
        have hdest : r.dest et (vtGroups s.h.vtype) s.h.vl s.h.vrows true = r.dest et (vtGroups s.h.vtype) s.h.vl s.h.vrows false := by
          have hd : (decide (r.len ≤ s.h.vl) && decide (r.nrows ≤ s.h.vrows)) = false := by simpa using hcov
          simp [VReg.dest, hv, hd]
        rw [hdest, VReg.elem_written r et _ _ _ false f k x (by simp) hk hx hkr hxl]
        cases f k x <;> rfl
      | false =>
        have hdest : r.dest et (vtGroups s.h.vtype) s.h.vl s.h.vrows true = emptyVReg.dest et (vtGroups s.h.vtype) s.h.vl s.h.vrows true := by
          simp [VReg.dest, hv, emptyVReg, VReg.none]
        have hnone : (r.relaid et (vtGroups s.h.vtype)).elem (etBits et) k x = 0 := by simp [VReg.relaid, VReg.elem, hv]
        rw [hdest, VReg.elem_written_whole emptyVReg et _ _ _ f k x hk hx hkr hxl (Nat.zero_le _) (Nat.zero_le _), hnone]
        cases f k x <;> rfl

/-- An instruction that may not copy its result has no copy register (R406, R409). -/
theorem Postable.copy_none {s : State} {p : Posted} (h : Postable s p) (hc : p.copyable = false) : (s.h.newEntry p).copy = none := by
  obtain ⟨hb, -⟩ := h
  unfold QEntry.copy Hart.newEntry
  dsimp only
  cases hn : s.h.pfxNext with
  | false => rfl
  | true =>
    simp only [State.postBad, hn, Bool.true_and, Bool.or_eq_false_iff, pfxBad, hc, Bool.not_false, Bool.true_or, Bool.and_true] at hb
    simp [hb]

/-- The position that an instruction starts at stands in its entry as it begins (R237). -/
theorem State.begun_first (s : State) (p : Posted) : (s.begun p).2.first = (s.h.newEntry p).first := rfl

/-- The active values of a source of `s`, behind the initial value that `p` names. -/
def redPrefix (s : State) (p : Posted) (k n : Nat) : List Nat :=
  (if p.b = 0#5 then [] else [srcElem s p.b k 0]) ++ (((List.range n).filter fun x => activeAt s p k x).map fun x => srcElem s p.a k x)

/-! ### An entry that has begun, once its sources are read -/

section
variable {s : State} {p : Posted} {h : Hart} {e : QEntry} (hb : Begun s p h e)
include hb

theorem Begun.relayAll_mask (et : ETCode) (l : BitVec 4) (n : MNum) : (h.relayAll et l p.vsrc).mask n = s.h.mask n := by
  obtain ⟨pc, c0, c1, pv, tok, hh⟩ := hb.only
  rw [Hart.relayAll_mask, hh]
  rfl

theorem Begun.relayAll_fcsr (et : ETCode) (l : BitVec 4) : (h.relayAll et l p.vsrc).fcsr = s.h.fcsr := by
  obtain ⟨pc, c0, c1, pv, tok, hh⟩ := hb.only
  obtain ⟨v, hv⟩ := Hart.relayAll_only h et l p.vsrc
  rw [hv, hh]

theorem Begun.relayAll_vreg (n : VNum) : (h.relayAll (vtEt s.h.vtype) (vtGroups s.h.vtype) p.vsrc).vreg n = readSources s p n := by
  obtain ⟨pc, c0, c1, pv, tok, hh⟩ := hb.only
  rw [Hart.relayAll_vreg, hh]
  rfl

end

section
variable {s : State} {i : Instr} {w : IWord} {op : RedOp} {d a b : VNum} {m : MNum} {g : Nat → Nat → Nat}

/-- Once the sources are read, the values that a reduction combines are those of the sources before it. -/
theorem activeValues_relayAll {e : QEntry} {h : Hart} {p : Posted} (hb : Begun s p h e) {c : Cap} (hc : c = (s.h.newEntry p).cap)
    (het : c.et = vtEt s.h.vtype) (ha : p.a ∈ p.vsrc) (hpb : p.b ≠ 0#5 → p.b ∈ p.vsrc) (k n : Nat) :
    let h1 := h.relayAll (vtEt s.h.vtype) (vtGroups s.h.vtype) p.vsrc
    activeValues c h1 (h1.vreg p.a) (if p.b = 0#5 then none else some ((h1.vreg p.b).elem c.bits k 0)) k n = redPrefix s p k n := by
  intro h1
  have hsrc (n : VNum) (hn : n ∈ p.vsrc) : h1.vreg n = source s n := (hb.relayAll_vreg n).trans (if_pos hn)
  have hact (x : Nat) : c.active h1 k x = activeAt s p k x := by rw [activeAt, Cap.active, hb.relayAll_mask, hc]; rfl
  have hbits : c.bits = width s := by rw [Cap.bits, het, width]
  unfold activeValues redPrefix
  simp only [hact, hbits, hsrc _ ha]
  by_cases h0 : p.b = 0#5
  · simp [h0, srcElem]
  · rw [if_neg h0, if_neg h0, hsrc _ (hpb h0)]
    rfl

/-- A reduction changes, of its hart, the vector registers, their progress indices and FCSR alone. -/
theorem runRed_only (op : RedOp) (e : QEntry) (k0 k1 : Nat) (h : Hart) : ∃ v vpi fl, runRed op e k0 k1 h = { h with v := v, vpi := vpi, fcsr := fl } := by
  unfold runRed
  dsimp only
  generalize (fun k x => _ : Nat → Nat → Option Nat) = F
  obtain ⟨v1, h1⟩ := Hart.relayAll_only h e.cap.et e.cap.lmap e.post.vsrc
  obtain ⟨v2, h2⟩ := Hart.writeVec_only (h.relayAll e.cap.et e.cap.lmap e.post.vsrc) e.post.d none e.cap.et e.cap (e.cap.covers e.first) F
  rw [h2, h1]
  exact ⟨_, _, _, rfl⟩

/-- The run of a reduction at an idle hart ends in its step: its rows from VSTART's on are done, and it retires (R527). -/
theorem exec_red {p : Posted} (hx : exec i s = issue p s) (hbody : p.body = .red op) (heng : p.eng = .vector) (hxd : p.xd = none)
    (hruns : Runs s p) (hshape : s.h.vl * s.h.vrows ≠ 0) :
    ∃ h e k1 t, Begun s p h e ∧ e.first = (s.h.newEntry p).first ∧ (∀ k, k < s.h.vrows → e.prog / e.vl ≤ k → k < k1) ∧
      exec i s = .next t ∧ PostedFrame s t id ∧ (∀ n, t.h.vreg n = (runRed op e (e.prog / e.vl) k1 h).vreg n) ∧
      t.h.fcsr = (runRed op e (e.prog / e.vl) k1 h).fcsr := by
  obtain ⟨hb, hbegun⟩ := hruns.begun
  rw [heng] at hbegun
  have hbegun : (s.begun p).1 = s.mod fun _ => (s.begun p).1.h := hbegun
  generalize hh : (s.begun p).1.h = h at hb hbegun
  have hfirst := State.begun_first s p
  generalize he : (s.begun p).2 = e at hb hfirst
  have hq : (s.begun p).1.harts[s.cur].queue = [e] := by
    rw [hbegun, State.mod, State.modHart_same]
    exact hb.queue
  obtain ⟨k1, hk1, e2, heid, hpost, hrun⟩ := runRowsWhole_whole (runRed op) s.cur e _ hq (by rw [hb.vl]; exact left_ne_zero_of_mul hshape)
  have hbodyRun : bodyRun s.cur (s.begun p).2.total (s.begun p).2 (s.begun p).1 =
      (.done ((s.begun p).1.modHart s.cur (runRed op e (e.prog / e.vl) k1)) e2, none) := by
    have hidle : ¬ e.total = 0 := by rw [QEntry.total, hb.vl, hb.vrows]; exact hshape
    rw [he, bodyRun, hb.post, hbody]
    simp only [hidle, if_false, hrun]
  have hu : (s.begun p).1.modHart s.cur (runRed op e (e.prog / e.vl) k1) = s.mod fun _ => runRed op e (e.prog / e.vl) k1 h := by
    rw [hbegun]
    exact State.mod_mod s _ _
  rw [hu] at hbodyRun
  have honly := runRed_only op e (e.prog / e.vl) k1 h
  have hempty : ((s.mod fun _ => runRed op e (e.prog / e.vl) k1 h).harts[s.cur].queue.filter fun y => y.eid != e2.eid) = [] := by
    obtain ⟨v, vpi, fl, hv⟩ := honly
    rw [State.mod, State.modHart_same, hv]
    simp [hb.queue, heid]
  obtain ⟨-, -, h0, -, -, hrel⟩ := id hruns
  obtain ⟨t, ht, hframe, hvreg, hfcsr⟩ := hb.retires h0 hrel hxd honly e2 heid (hpost.trans hb.post)
  refine ⟨h, e, k1, t, hb, hfirst, fun k hk => hk1 k (by rw [hb.vrows]; exact hk), ?_, hframe, hvreg, hfcsr⟩
  rw [hx, issue_runsTo (hruns.runsTo hbodyRun hempty), ht]

/-- What is captured of VSEG is what the entry holds (R202). -/
theorem QEntry.cap_vseg (e : QEntry) : e.cap.vseg = e.vseg := by
  unfold QEntry.cap
  dsimp only
  split
  · split <;> rfl
  · rfl

/-- An integer reduction or scan without segments at an idle hart completes in its step: each position takes what the values at hand come to in
index order (R107, R527, R537, R539, R540). -/
theorem vecWrites_red [Std.Associative g] (hx : exec i s = issue (postRed w op d a b m) s)
    (hg : ∀ md, redCombine op (vtEt s.h.vtype) md = fun x y => (g x y, 0#5)) (hfl : op.isFloat = false) (hseq : op.isSeq = false)
    (hoff : s.h.vseg.getLsbD 3 = false) (f : Nat → Nat → Option Nat)
    (hf : ∀ k x, let p := postRed w op d a b m
      (if op.isScan then
        (if activeAt s p k x then some (combine 0 g (redPrefix s p k (if op = .scanx then x else x + 1)) % 2 ^ width s) else none)
      else if x = 0 then some (combine (redIdentity op (vtEt s.h.vtype)) g (redPrefix s p k s.h.vl) % 2 ^ width s) else none) =
      (f k x).map (· % 2 ^ width s)) :
    VecWrites s i (postRed w op d a b m)
      (fun k x => if (s.h.newEntry (postRed w op d a b m)).prog / s.h.vl ≤ k then f k x else none) 0#5 := by
  intro hruns hshape
  obtain ⟨h, e, k1, t, hb, hfirst, hk1, hexec, hframe, hvreg, hfcsr⟩ := exec_red hx rfl rfl rfl hruns hshape
  obtain ⟨hcvl, hcrows, hcet, hclmap⟩ := hruns.captured
  have hprog := hb.prog
  generalize hp : postRed w op d a b m = p at hruns hb hfirst hcvl hcrows hcet hclmap hframe hf hprog ⊢
  have hpa : p.a ∈ p.vsrc := by rw [← hp]; unfold postRed vecPost; split <;> simp
  have hpb : p.b ≠ 0#5 → p.b ∈ p.vsrc := by rw [← hp]; unfold postRed vecPost; intro h0; rw [if_neg h0]; simp
  have hcopy : (s.h.newEntry p).copy = none := hruns.1.copy_none (by rw [← hp]; rfl)
  have hvals := activeValues_relayAll hb rfl hcet hpa hpb
  have hvseg : (s.h.newEntry p).cap.vseg.getLsbD 3 = false := by rw [QEntry.cap_vseg]; exact hoff
  obtain ⟨F, hF, hrun⟩ := runRed_integer (op := op) (g := g) (e := e) (by rw [hb.cap, hcet]; exact hg _) hfl hseq (by rw [hb.cap]; exact hvseg)
    (by rw [hb.cap, hcvl]; exact Nat.pos_of_ne_zero (left_ne_zero_of_mul hshape)) (e.prog / e.vl) k1 h
  rw [hb.post, hb.cap, hcvl, hcrows, hcet, hclmap] at hF
  rw [hb.post, hb.cap, hcvl, hcet, hclmap] at hrun
  rw [hrun] at hvreg hfcsr
  have hvalue (k x : Nat) (hk : k < s.h.vrows) (hxl : x < s.h.vl) : (F k x).map (· % 2 ^ width s) =
      (if (s.h.newEntry p).prog / s.h.vl ≤ k then f k x else none).map (· % 2 ^ width s) := by
    rw [hF k x hk hxl, hprog, hb.vl]
    by_cases hle : (s.h.newEntry p).prog / s.h.vl ≤ k
    · have hact : (s.h.newEntry p).cap.active (h.relayAll (vtEt s.h.vtype) (vtGroups s.h.vtype) p.vsrc) k x = activeAt s p k x := by
        rw [activeAt, Cap.active, hb.relayAll_mask]
        rfl
      rw [if_pos ⟨hle, hk1 k hk (by rw [hprog, hb.vl]; exact hle)⟩, if_pos hle, ← hf k x, redValue, hvals, hvals, hact, hcet, hcvl]
      split
      · split <;> rfl
      · split <;> rfl
    · rw [if_neg hle, if_neg fun h => hle h.1]
  refine ⟨t, hexec, hframe, hfcsr.trans (congrArg (· ||| (0#5 ++ 0#4)) ?_), ?_, ?_⟩
  · obtain ⟨v, hv⟩ := Hart.writeVec_only (h.relayAll (vtEt s.h.vtype) (vtGroups s.h.vtype) p.vsrc) p.d none (vtEt s.h.vtype) (s.h.newEntry p).cap
      ((s.h.newEntry p).cap.covers e.first) F
    rw [hv]
    exact hb.relayAll_fcsr _ _
  · rintro n (rfl | hn)
    · have hreg : t.h.vreg p.d = ((readSources s p p.d).dest (vtEt s.h.vtype) (vtGroups s.h.vtype) s.h.vl s.h.vrows (wholeWrite s p)).write
          (etBits (vtEt s.h.vtype)) s.h.vl s.h.vrows F := by
        rw [hvreg]
        refine (Hart.writeVec_vreg _ _ _ _ _ _ _ (by simp) _).trans ?_
        rw [if_pos (Or.inl rfl), hb.relayAll_vreg, hclmap, hcvl, hcrows, hfirst]
        rfl
      obtain ⟨hvalid, het, hlmap⟩ := VReg.written_tag (readSources s p p.d) (vtEt s.h.vtype) (vtGroups s.h.vtype) s.h.vl s.h.vrows (wholeWrite s p) F
      refine ⟨by rw [hreg]; exact hvalid, by rw [hreg]; exact het, by rw [hreg]; exact hlmap, fun k x hk hx hkr hxl => ?_⟩
      rw [hreg, elem_written_kept s _ _ _ F k x hk hx hkr hxl]
      have hv := hvalue k x hkr hxl
      unfold width at hv
      dsimp only
      generalize (if (s.h.newEntry p).prog / s.h.vl ≤ k then f k x else none) = o at hv ⊢
      rw [hv]
      cases o <;> rfl
    · rw [hcopy] at hn
      cases hn
  · intro n hn _
    rw [hvreg]
    refine (Hart.writeVec_vreg _ _ _ _ _ _ _ (by simp) _).trans ?_
    rw [if_neg (by simp [hn]), hb.relayAll_vreg]

end

/-! ### The operations (R539) -/

theorem sval_of_lt {w n : Nat} (h : n < 2 ^ w) : sval w n = if n < 2 ^ (w - 1) then (n : Int) else n - 2 ^ w := by
  simp [sval, Nat.mod_eq_of_lt h]

/-- A pattern is that of its value (R263). -/
theorem wrap_sval {w n : Nat} (h : n < 2 ^ w) : wrap w (sval w n) = n := by
  have hn : ((n : Int) % 2 ^ w) = n := Int.emod_eq_of_lt (Int.natCast_nonneg n) (by exact_mod_cast h)
  rw [sval_of_lt h, wrap]
  split
  · rw [hn, Int.toNat_natCast]
  · rw [Int.sub_emod_right, hn, Int.toNat_natCast]

/-- Addition modulo a number is associative. -/
theorem addMod_assoc (n : Nat) : Std.Associative fun a b : Nat => (a + b) % n :=
  ⟨fun a b c => by simp only [Nat.mod_add_mod, Nat.add_mod_mod, Nat.add_assoc]⟩

/-- The lesser of two values by a key, the first where they agree, is associative. -/
theorem lesserBy_assoc (v : Nat → Int) : Std.Associative fun a b : Nat => if v b < v a then b else a :=
  ⟨fun a b c => by split_ifs <;> omega⟩

/-- The greater of two values by a key, the first where they agree, is associative. -/
theorem greaterBy_assoc (v : Nat → Int) : Std.Associative fun a b : Nat => if v a < v b then b else a :=
  ⟨fun a b c => by split_ifs <;> omega⟩

/-- The lesser of two patterns is the pattern of the lesser value. -/
theorem lesser_eq_wrap {w x y : Nat} (hx : x < 2 ^ w) (hy : y < 2 ^ w) :
    (if sval w y < sval w x then y else x) = wrap w (min (sval w x) (sval w y)) := by
  split
  · rw [min_eq_right (by omega), wrap_sval hy]
  · rw [min_eq_left (by omega), wrap_sval hx]

/-- The greater of two patterns is the pattern of the greater value. -/
theorem greater_eq_wrap {w x y : Nat} (hx : x < 2 ^ w) (hy : y < 2 ^ w) :
    (if sval w x < sval w y then y else x) = wrap w (max (sval w x) (sval w y)) := by
  split
  · rw [max_eq_right (by omega), wrap_sval hy]
  · rw [max_eq_left (by omega), wrap_sval hx]

/-- An element of a source fits its width. -/
theorem srcElem_lt (s : State) (n : VNum) (k x : Nat) : srcElem s n k x < 2 ^ width s := VReg.elem_lt _ _ _ _

theorem redPrefix_lt (s : State) (p : Posted) (k n v : Nat) (hv : v ∈ redPrefix s p k n) : v < 2 ^ width s := by
  rcases List.mem_append.mp hv with h | h
  · split at h
    · cases h
    · rw [List.mem_singleton.mp h]
      exact srcElem_lt _ _ _ _
  · obtain ⟨x, -, rfl⟩ := List.mem_map.mp h
    exact srcElem_lt _ _ _ _

theorem redPrefix_sum (s : State) (p : Posted) (k n : Nat) : (redPrefix s p k n).sum =
    (if p.b = 0#5 then 0 else srcElem s p.b k 0) + (((List.range n).filter fun j => activeAt s p k j).map fun j => srcElem s p.a k j).sum := by
  rw [redPrefix, List.sum_append]
  split <;> rfl

section
variable {s : State} {i : Instr} {w : IWord} {op : RedOp} {d a b : VNum} {m : MNum} {g : Nat → Nat → Nat}

/-- An integer reduction gives what `f` makes of its values, when `f` is their combination in index order. -/
theorem reduces_red (hassoc : Std.Associative g) (hx : exec i s = issue (postRed w op d a b m) s)
    (hg : ∀ md, redCombine op (vtEt s.h.vtype) md = fun x y => (g x y, 0#5)) (hfl : op.isFloat = false) (hseq : op.isSeq = false)
    (hscan : op.isScan = false) (f : List Nat → Nat)
    (hf : ∀ l : List Nat, (∀ v ∈ l, v < 2 ^ width s) → combine (redIdentity op (vtEt s.h.vtype)) g l % 2 ^ width s = f l % 2 ^ width s) :
    Reduces s i (postRed w op d a b m) f := by
  intro hoff
  have h := vecWrites_red (f := fun k x => if x = 0 then some (f (redInput s (postRed w op d a b m) k)) else none) hx hg hfl hseq hoff
    fun k x => by
      dsimp only
      rw [hscan, if_neg Bool.false_ne_true, hf _ (redPrefix_lt s _ k _)]
      split <;> rfl
  simpa only [ite_and] using h

/-- An integer scan gives each active element the sum of the values up to it, or before it. -/
theorem vecWrites_scan (hx : exec i s = issue (postRed w op d a b m) s)
    (hg : ∀ md, redCombine op (vtEt s.h.vtype) md = fun x y => ((x + y) % 2 ^ width s, 0#5)) (hfl : op.isFloat = false) (hseq : op.isSeq = false)
    (hscan : op.isScan = true) (hoff : s.h.vseg.getLsbD 3 = false) : let p := postRed w op d a b m
    VecWrites s i p (fun k x => if (s.h.newEntry p).prog / s.h.vl ≤ k ∧ activeAt s p k x = true then
      some (redPrefix s p k (if op = .scanx then x else x + 1)).sum else none) 0#5 := by
  intro p
  have := addMod_assoc (2 ^ width s)
  have h := vecWrites_red (f := fun k x => if activeAt s p k x = true then some (redPrefix s p k (if op = .scanx then x else x + 1)).sum else none)
    hx hg hfl hseq hoff fun k x => by
      dsimp only
      rw [if_pos hscan, combine_add_mod]
      split <;> rfl
  simpa only [ite_and] using h

end

/-! ### The statement -/

/-- Settles O27: each reduction is the combination of its values by an associative operation, each scan the sums of their prefixes. -/
theorem integerReductionResults : Obligations.IntegerReductionResults := by
  intro s d a b m w
  have hadd := addMod_assoc (2 ^ width s)
  refine ⟨?sum, ?sumt, ?min, ?max, ?minu, ?maxu, ?and, ?or, ?xor, fun hoff => ⟨?scan, ?scanx⟩⟩
  case sum => exact reduces_red hadd rfl (fun _ => rfl) rfl rfl rfl _ fun l _ => combine_add_mod _ l
  case sumt => exact reduces_red hadd rfl (fun _ => rfl) rfl rfl rfl _ fun l _ => combine_add_mod _ l
  case min =>
    refine reduces_red (lesserBy_assoc (sval w)) rfl (fun _ => rfl) rfl rfl rfl _ fun l hl => congrArg (· % 2 ^ width s) ?_
    refine combine_congr (P := (· < 2 ^ width s)) (fun x y hx hy => ⟨lesser_eq_wrap hx hy, ?_⟩) _ l hl
    split
    · exact hy
    · exact hx
  case max =>
    refine reduces_red (greaterBy_assoc (sval w)) rfl (fun _ => rfl) rfl rfl rfl _ fun l hl => congrArg (· % 2 ^ width s) ?_
    refine combine_congr (P := (· < 2 ^ width s)) (fun x y hx hy => ⟨greater_eq_wrap hx hy, ?_⟩) _ l hl
    split
    · exact hy
    · exact hx
  case minu => exact reduces_red inferInstance rfl (fun _ => rfl) rfl rfl rfl _ fun _ _ => rfl
  case maxu => exact reduces_red inferInstance rfl (fun _ => rfl) rfl rfl rfl _ fun _ _ => rfl
  case and => exact reduces_red inferInstance rfl (fun _ => rfl) rfl rfl rfl _ fun _ _ => rfl
  case or => exact reduces_red inferInstance rfl (fun _ => rfl) rfl rfl rfl _ fun _ _ => rfl
  case xor => exact reduces_red inferInstance rfl (fun _ => rfl) rfl rfl rfl _ fun _ _ => rfl
  case scan =>
    have h := vecWrites_scan (w := wVscan d a b m) (i := .vscan d a b m) (op := .scan) rfl (fun _ => rfl) rfl rfl rfl hoff
    simp only [redPrefix_sum] at h
    exact h
  case scanx =>
    have h := vecWrites_scan (w := wVscanx d a b m) (i := .vscanx d a b m) (op := .scanx) rfl (fun _ => rfl) rfl rfl rfl hoff
    simp only [redPrefix_sum] at h
    exact h

end Sys2Proof.Machine
end

section
/-! SUPPORT. Tasks and time (R86, R92, R135, R144, R149, R604 to R609): what each instruction of a task and of device time comes to, one equation per
case; what a hart that stops leaves; and the statement O54. The draws that a pull takes for other cores are assumption 29. -/

namespace Sys2Proof.Machine
open Sys2Proof.Claims

/-- With nothing in its way an instruction of majors 0x30 and 0x32 has its effect (R585). -/
theorem syncInstr_clear {s : State} {rs : List XNum} (h : ClearSync s rs) (w : IWord) (k : State → State) : syncInstr w rs s k = .next (k s) := by
  obtain ⟨⟨hp, hr⟩, hl⟩ := h
  rw [syncInstr, if_neg hl, scalarInstr_clear w rs s k hp hr]

/-! ### The issuing hart after its register is written and it goes on -/

section
variable (s : State)

theorem State.retire_x : s.retire.h.x = s.h.x := by
  rw [State.retire_h]
  exact (congrArg Hart.x (Hart.loopStep_frame s.h s.h.pc) :)

theorem State.retire_setX_x (d : XNum) (v : Word) : (s.setX d v).retire.h.x = xPut s.h.x d v := by
  rw [State.retire_x, State.setX_h]

theorem State.retire_setX_pc (d : XNum) (v : Word) : (s.setX d v).retire.h.pc = s.h.afterPc := by
  rw [State.retire_h, State.setX_h, Hart.afterPc]
  unfold Hart.loopStep
  dsimp only
  repeat' split
  all_goals rfl

@[simp] theorem State.passTime_h : s.passTime.h = s.h := rfl

/-- Device time does not fall (R86). -/
theorem State.passTime_mono : s.clock.gtime ≤ s.passTime.clock.gtime := Nat.le_max_left _ _

end

/-! ### `tsk` (R135, R604) -/

section
variable {s : State} {a b d : XNum} (h : ClearSync s [a, b]) (hp : s.performed s.cur 4 = true)
include h hp

theorem execTsk_of_bad_operand (hbad : (s.x a).toNat % 256 ≠ 0 ∨ 7 < (s.x b).toNat) : execTsk a b d s = .next (s.setX d 3#64).retire := by
  have hc : (decide ((s.x a).toNat % 256 ≠ 0) || decide (7 < (s.x b).toNat)) = true := by simpa using hbad
  rw [execTsk, syncInstr_clear h]
  simp only [hp, hc, Bool.not_true, Bool.false_eq_true, if_true, if_false]

theorem execTsk_of_far (ha : (s.x a).toNat % 256 = 0) (hb : (s.x b).toNat ≤ 7) (hfar : spadBase ≤ (s.x a).toNat) :
    execTsk a b d s = .next (s.trapHere cPROT (s.x a)) := by
  rw [execTsk, syncInstr_clear h]
  simp only [hp, ha, Nat.not_lt.mpr hb, hfar, Bool.not_true, Bool.false_eq_true, if_true, if_false, ne_eq, not_true, decide_false, Bool.or_self]

theorem execTsk_of_record (ha : (s.x a).toNat % 256 = 0) (hb : (s.x b).toNat ≤ 7) (hnear : (s.x a).toNat < spadBase) {bs : List Byte} {u : State}
    (hload : s.load s.whoScalar (s.x a).toNat 256 .engine = .ok bs u) :
    let r := u.admitRecord bs (s.x b).toNat (if u.h.level = .u then some u.h.ctxid.toNat else none)
    execTsk a b d s = .next (r.2.setX d (BitVec.ofNat 64 r.1)).retire := by
  intro r
  rw [execTsk, syncInstr_clear h]
  simp only [hp, ha, hload, Nat.not_lt.mpr hb, Nat.not_le.mpr hnear, Bool.not_true, Bool.false_eq_true, if_false, ne_eq, not_true, decide_false,
    Bool.or_self]
  rfl

end

/-- The code of R135 for a record of priority 7 at most, offered by hart `h`. -/
def admitCode (u : State) (bs : List Byte) : Nat :=
  if (u.ctx (recCtx bs)).isNone = true then 1
  else if u.h.level = .u ∧ u.h.ctxid.toNat ≠ recCtx bs then 2
  else if taskBad bs = true then 3
  else if 4096 ≤ u.sched.queue.length ∨ 1024 ≤ (u.sched.queue.filter fun r => recCtx r.raw = recCtx bs).length then 4 else 0

/-- An admission answers the code; it queues the record where the code is 0, and changes nothing else (R134, R135). -/
theorem State.admitRecord_eq (u : State) (bs : List Byte) {prio : Nat} (hp : prio ≤ 7) :
    let r := u.admitRecord bs prio (if u.h.level = .u then some u.h.ctxid.toNat else none)
    r.1 = admitCode u bs ∧ { r.2 with sched := u.sched } = u ∧ (admitCode u bs ≠ 0 → r.2.sched = u.sched) ∧
    (admitCode u bs = 0 → ∃ q, r.2.sched.queue = u.sched.queue ++ [q] ∧ q.raw = bs ∧ q.prio = prio) := by
  have huser : ((if u.h.level = .u then some u.h.ctxid.toNat else none).isSome && (if u.h.level = .u then some u.h.ctxid.toNat else none) != some (recCtx bs)) =
      decide (u.h.level = .u ∧ u.h.ctxid.toNat ≠ recCtx bs) := by
    by_cases hl : u.h.level = .u <;> simp [hl, bne, Bool.beq_eq_decide_eq]
  have hbad : (taskBad bs || decide (7 < prio)) = taskBad bs := by simp [Nat.not_lt.mpr hp]
  unfold State.admitRecord admitCode
  simp only [huser, hbad]
  by_cases h1 : (u.ctx (recCtx bs)).isNone = true
  · simp [h1]
  by_cases h2 : u.h.level = .u ∧ u.h.ctxid.toNat ≠ recCtx bs
  · simp [h1, h2]
  by_cases h3 : taskBad bs = true
  · simp [h1, h2, h3]
  by_cases h4 : 4096 ≤ u.sched.queue.length ∨ 1024 ≤ (u.sched.queue.filter fun r => recCtx r.raw = recCtx bs).length
  · simp [h1, h2, h3, h4]
  · simp [h1, h2, h3, h4]

/-! ### `tqget` (R149, R150, R605) -/

/-- A work queue after a chunk of `c` is taken. -/
def Task.advanced (k : Task) (c : Nat) : Task := { k with next := k.next + c, rem := k.rem - c }

theorem Task.pulled_id (k : Task) (n : Nat) : (k.pulled n).id = k.id := by
  induction n generalizing k with
  | zero => rfl
  | succ n ih => exact ih _

theorem Task.pulled_hasQueue (k : Task) (n : Nat) : (k.pulled n).hasQueue = k.hasQueue := by
  induction n generalizing k with
  | zero => rfl
  | succ n ih => exact ih _

/-- A change of the tasks of one number that keeps the number changes the task found under it. -/
theorem find?_map_task (ts : List Task) (id : Nat) (f : Task → Task) (hf : ∀ x, (f x).id = x.id) {k : Task}
    (hk : ts.find? (·.id = id) = some k) : (ts.map fun x => if x.id = k.id then f x else x).find? (·.id = id) = some (f k) := by
  have hid : k.id = id := by simpa using List.find?_some hk
  have hkeep (x : Task) : (if x.id = k.id then f x else x).id = x.id := by split <;> simp [hf]
  rw [List.find?_map, show ((fun x : Task => decide (x.id = id)) ∘ fun x => if x.id = k.id then f x else x) = fun x => decide (x.id = id) from
    funext fun x => by simp [hkeep], hk]
  simp

/-- A pull of a hart whose task has a work queue takes the next chunk, behind `n` pulls of harts on other cores. -/
theorem State.pull_of_queue {s : State} {i : Fin 4} {k : Task} (hk : s.sched.tasks.find? (·.id = s.harts[i].task) = some k) (hq : k.hasQueue = true) :
    ∃ n, (k.others = 0 → n = 0) ∧ let q := k.pulled n
      ∃ u, s.pull i = (q.next, q.chunk, u) ∧ u.harts = s.harts ∧ u.cur = s.cur ∧
        u.sched.tasks.find? (·.id = s.harts[i].task) = some (q.advanced q.chunk) := by
  by_cases ho : k.others = 0
  · refine ⟨0, fun _ => rfl, ?_⟩
    have hother : s.otherPulls k = s := by simp [State.otherPulls, ho]
    unfold State.pull State.taskOf
    simp only [hk, hother, hq, if_true]
    exact ⟨_, rfl, rfl, rfl, find?_map_task _ _ (·.advanced k.chunk) (fun _ => rfl) hk⟩
  · refine ⟨Config.freeChoice s.free, fun h => absurd h ho, ?_⟩
    have hpulled := find?_map_task _ _ (fun x => x.pulled (Config.freeChoice s.free)) (fun x => x.pulled_id _) hk
    have hother : s.otherPulls k = State.tick { s with sched := { s.sched with
        tasks := s.sched.tasks.map fun x => if x.id = k.id then x.pulled (Config.freeChoice s.free) else x } } := by
      simp [State.otherPulls, ho, hq]
    unfold State.pull State.taskOf
    simp only [hk, hother, State.tick_harts, State.tick_sched, hpulled, Task.pulled_hasQueue, hq, if_true]
    exact ⟨_, rfl, rfl, rfl, find?_map_task _ _ (·.advanced (k.pulled (Config.freeChoice s.free)).chunk) (fun _ => rfl) hpulled⟩

/-- A pull of a hart whose task has no work queue, or is gone, answers nothing. -/
theorem State.pull_of_no_queue {s : State} {i : Fin 4} (h : ∀ k, s.sched.tasks.find? (·.id = s.harts[i].task) = some k → k.hasQueue = false) :
    s.pull i = (0, 0, s) := by
  unfold State.pull State.taskOf
  cases hk : s.sched.tasks.find? (·.id = s.harts[i].task) with
  | none => simp only [hk]
  | some k =>
    have hother : s.otherPulls k = s := by simp [State.otherPulls, h k hk]
    simp only [hother, hk, h k hk, Bool.false_eq_true, if_false]

theorem execTqget_of_clear {s : State} {c d : XNum} (h : ClearSync s []) (hne : c ≠ d ∨ c = 0#5) (hb : s.stopsHere true = false) :
    execTqget c d s = .next (((s.pull s.cur).2.2.setX d (BitVec.ofNat 64 (s.pull s.cur).1)).setX c (BitVec.ofNat 64 (s.pull s.cur).2.1)).retire := by
  have hc : (decide (c = d) && decide (c ≠ 0#5)) = false := by
    rcases hne with h | h <;> simp [h]
  rw [execTqget, syncInstr_clear h]
  simp only [hc, Bool.false_eq_true, if_false, State.atBoundary, hb]

theorem execTqget_of_same {s : State} {c d : XNum} (h : ClearSync s []) (he : c = d) (h0 : c ≠ 0#5) :
    execTqget c d s = .next (s.ill (wTqget c d)) := by
  rw [execTqget, syncInstr_clear h, if_pos (by simpa [h0] using he)]

/-! ### `gwait` (R92, R607) -/

section
variable {s : State} {a d : XNum} (hf : s.feat 10 = true) (h : ClearSync s [a])
include hf h

theorem execGwait_of_free (ht : s.timeState = .free) : execGwait a d s = .next (s.trapHere cCLOCK 0#64) := by
  rw [execGwait, if_pos hf, syncInstr_clear h, gwaitStep, if_pos ht]

theorem execGwait_of_reached (ht : s.timeState ≠ .free) (hr : (s.x a).toNat ≤ s.passTime.gtimeNs) :
    execGwait a d s = .next (s.passTime.setX d (BitVec.ofNat 64 s.passTime.gtimeNs)).retire := by
  rw [execGwait, if_pos hf, syncInstr_clear h, gwaitStep, if_neg ht]
  exact congrArg Host.Outcome.next (if_pos hr)

theorem execGwait_of_early (ht : s.timeState ≠ .free) (hr : s.passTime.gtimeNs < (s.x a).toNat) :
    execGwait a d s = .next (s.passTime.wait .gwait (wGwait a d)) := by
  rw [execGwait, if_pos hf, syncInstr_clear h, gwaitStep, if_neg ht]
  exact congrArg Host.Outcome.next (if_neg (Nat.not_le.mpr hr))

end

/-! ### Lane groups and matrix mode given up and granted (R145, R162, R168) -/

/-- A grant gives lane groups to the hart that it serves and to no other. -/
theorem Core.grantLanes_lanes (keep : Nat) (i : Fin 4) (l : List (Fin 4)) (n : Nat) (c : Core) :
    (c.grantLanes keep i l n).matrix = c.matrix ∧
    ∀ (g : Fin 4) (j : Fin 4), (c.grantLanes keep i l n).lanes[g] = .held j → c.lanes[g] = .held j ∨ j = i := by
  induction l generalizing n c with
  | nil => cases n <;> exact ⟨rfl, fun g j h => .inl h⟩
  | cons a l ih =>
    cases n with
    | zero => exact ⟨rfl, fun g j h => .inl h⟩
    | succ n =>
      by_cases ha : c.lanes[a] = .free
      · simp only [Core.grantLanes, ha]
        split
        · exact ⟨rfl, fun g j h => .inl h⟩
        · obtain ⟨hm, hl⟩ := ih n { c with lanes := c.lanes.set a (.held i) }
          refine ⟨hm, fun g j h => ?_⟩
          rcases hl g j h with h | h
          · by_cases hag : g = a
            · subst hag
              simp at h
              exact .inr h.symm
            · have hv : a.val ≠ g.val := fun e => hag (Fin.ext e.symm)
              simp only [Fin.getElem_fin, Vector.getElem_set_ne _ _ hv] at h
              exact .inl h
          · exact .inr h
      · have hskip : c.grantLanes keep i (a :: l) (n + 1) = c.grantLanes keep i l (n + 1) := by
          rw [Core.grantLanes]
          split
          · contradiction
          · rfl
        rw [hskip]
        exact ih _ c

/-- The lane groups of a hart that asks for none, and matrix mode, stand when the waiters are served. -/
theorem State.grantOnce_keeps (s : State) {i : Fin 4} (hi : laneAsk s.harts[i] = none) :
    s.grantOnce.core.matrix = s.core.matrix ∧ ∀ g : Fin 4, s.grantOnce.core.lanes[g] = .held i → s.core.lanes[g] = .held i := by
  unfold State.grantOnce
  split
  · exact ⟨rfl, fun g h => h⟩
  · rename_i j n hj
    split
    · obtain ⟨hm, hl⟩ := Core.grantLanes_lanes s.core.laneResv j [0, 1, 2, 3] n s.core
      refine ⟨hm, fun g h => (hl g i h).resolve_right fun hij => ?_⟩
      rw [hij, State.firstLaneWaiter_asks _ _ _ hj] at hi
      cases hi
    · exact ⟨rfl, fun g h => h⟩

/-- Groups that their hart has released are its no more: settling them gives it none. -/
theorem State.settleLanes_held (s : State) {i : Fin 4} {g : Fin 4} (h : s.settleLanes.core.lanes[g] = .held i) : s.core.lanes[g] = .held i := by
  simp only [State.settleLanes, Fin.getElem_fin, Vector.getElem_ofFn] at h
  split at h
  · split at h <;> cases h
  · exact h

theorem State.serveLanes_keeps (s : State) {i : Fin 4} (hi : laneAsk s.harts[i] = none) :
    s.serveLanes.core.matrix = s.core.matrix ∧ ∀ g : Fin 4, s.serveLanes.core.lanes[g] = .held i → s.core.lanes[g] = .held i := by
  have still {u : State} (hu : laneAsk u.harts[i] = none) : laneAsk u.grantOnce.harts[i] = none := by rw [State.grantOnce_still u i hu]; exact hu
  have h0 : laneAsk s.settleLanes.harts[i] = none := hi
  have h1 := still h0
  have h2 := still h1
  have h3 := still h2
  unfold State.serveLanes
  refine ⟨?_, fun g h => s.settleLanes_held ?_⟩
  · rw [(State.grantOnce_keeps _ h3).1, (State.grantOnce_keeps _ h2).1, (State.grantOnce_keeps _ h1).1, (State.grantOnce_keeps _ h0).1]
    rfl
  · exact (State.grantOnce_keeps _ h0).2 g ((State.grantOnce_keeps _ h1).2 g ((State.grantOnce_keeps _ h2).2 g ((State.grantOnce_keeps _ h3).2 g h)))

/-- Of a hart only MSTAT and the note of its service differ. -/
def OnlyMstat (h g : Hart) : Prop := ∃ m b, g = { h with mstat := m, matrixServed := b }

theorem OnlyMstat.refl (h : Hart) : OnlyMstat h h := ⟨_, _, rfl⟩

theorem OnlyMstat.modHart {h : Hart} {s : State} {i : Fin 4} (hs : OnlyMstat h s.harts[i]) (j : Fin 4) {f : Hart → Hart}
    (hf : ∀ g, OnlyMstat g (f g)) : OnlyMstat h (s.modHart j f).harts[i] := by
  by_cases hij : i = j
  · subst hij
    rw [State.modHart_same]
    obtain ⟨m, b, h1⟩ := hs
    obtain ⟨m', b', h2⟩ := hf s.harts[i]
    exact ⟨m', b', by rw [h2, h1]⟩
  · rw [State.modHart_other _ _ _ _ hij]
    exact hs

/-- A grant of matrix mode changes, of the machine, MSTAT of the harts and their notes of service, and of the core who holds the matrix unit and
its tiles (R168). -/
theorem State.grantMatrix_keeps (s : State) : (∃ hs c, s.grantMatrix = { s with harts := hs, core := c } ∧ c.lanes = s.core.lanes ∧
    ∀ i, c.matrix = some i → s.core.matrix = some i ∨ i ∈ s.core.matrixWaiters) ∧ ∀ i : Fin 4, OnlyMstat s.harts[i] s.grantMatrix.harts[i] := by
  unfold State.grantMatrix
  cases hm : s.core.matrix with
  | some j => exact ⟨⟨_, _, rfl, rfl, fun i h => .inl (hm ▸ h)⟩, fun i => .refl _⟩
  | none =>
    cases hw : (if s.core.matrixResv then [] else s.core.matrixWaiters) with
    | nil => exact ⟨⟨_, _, rfl, rfl, fun i h => .inl (hm ▸ h)⟩, fun i => .refl _⟩
    | cons j rest =>
      have hj : j ∈ s.core.matrixWaiters := by
        split at hw
        · cases hw
        · rw [hw]
          exact List.mem_cons_self
      have granted (i : Fin 4) (h : some j = some i) : none = some i ∨ i ∈ s.core.matrixWaiters := .inr (Option.some.inj h ▸ hj)
      cases hk : s.core.kept with
      | none => exact ⟨⟨_, _, rfl, rfl, granted⟩, fun i => OnlyMstat.modHart (s := { s with core := _ }) (.refl _) j fun g => ⟨_, _, rfl⟩⟩
      | some k =>
        dsimp only
        split
        · exact ⟨⟨_, _, rfl, rfl, granted⟩, fun i => OnlyMstat.modHart (s := { s with core := _ }) (.refl _) j fun g => ⟨_, _, rfl⟩⟩
        · refine ⟨⟨_, _, rfl, rfl, granted⟩, fun i => ?_⟩
          exact OnlyMstat.modHart (s := { s.modHart k.hart _ with core := _ }) (.modHart (.refl _) k.hart fun g => ⟨_, _, rfl⟩) j fun g => ⟨_, _, rfl⟩

/-- The same once the matrix unit is given up with a change of MSTAT of its hart. -/
theorem State.grantMatrix_freed (s : State) (i : Fin 4) {c : Core} (hl : c.lanes = s.core.lanes) (hm : c.matrix = none)
    (hw : c.matrixWaiters = s.core.matrixWaiters) {f : Hart → Hart} (hf : ∀ g, OnlyMstat g (f g)) :
    (∃ hs c', (State.modHart { s with core := c } i f).grantMatrix = { s with harts := hs, core := c' } ∧ c'.lanes = s.core.lanes ∧
      (i ∉ s.core.matrixWaiters → c'.matrix ≠ some i)) ∧
    ∀ j : Fin 4, OnlyMstat s.harts[j] (State.modHart { s with core := c } i f).grantMatrix.harts[j] := by
  obtain ⟨⟨hs, c', heq, hlanes, hmat⟩, honly⟩ := (State.modHart { s with core := c } i f).grantMatrix_keeps
  refine ⟨⟨hs, c', heq, hlanes.trans hl, fun hi h => ?_⟩, fun j => ?_⟩
  · rcases hmat i h with h | h
    · cases hm.symm.trans h
    · exact hi (hw ▸ h)
  · obtain ⟨m, b, h1⟩ := OnlyMstat.modHart (s := { s with core := c }) (.refl s.harts[j]) i hf
    obtain ⟨m', b', h2⟩ := honly j
    exact ⟨m', b', by rw [h2, h1]⟩

/-- A hart that leaves matrix mode holds it no more, if it is not among those that wait for it (R251, R609). -/
theorem State.leaveMatrix_keeps (s : State) (i : Fin 4) (keep : Bool) : (∃ hs c, s.leaveMatrix i keep = { s with harts := hs, core := c } ∧
    c.lanes = s.core.lanes ∧ (i ∉ s.core.matrixWaiters → c.matrix ≠ some i)) ∧ ∀ j : Fin 4, OnlyMstat s.harts[j] (s.leaveMatrix i keep).harts[j] := by
  unfold State.leaveMatrix
  split
  · exact s.grantMatrix_freed i (by cases keep <;> rfl) (by cases keep <;> rfl) (by cases keep <;> rfl) fun g => ⟨_, _, rfl⟩
  · rename_i hne
    exact ⟨⟨_, _, rfl, rfl, fun _ => hne⟩, fun j => .refl _⟩

/-- Lane groups whose hart has no work left are free once it has released them (R161). -/
theorem State.releaseLanes_all (s : State) (i : Fin 4) (g : Fin 4) : (s.releaseLanes i 15#4).core.lanes[g] ≠ .held i := by
  intro h
  have h := State.settleLanes_held _ h
  simp only [Fin.getElem_fin, Vector.getElem_ofFn] at h
  split at h
  · rename_i j _
    split at h
    · cases h
    · rename_i hne
      have hall : ∀ g : Fin 4, (15#4).getLsbD g.val = true := by decide
      cases h
      exact hne (by simp [hall g])
  · rename_i hne
    exact hne _ h

/-! ### A hart that stops (R144, R609) -/

/-- Hart `i` has stopped in `t`: it holds no lane group, not the matrix unit and no reservation, and memory is that of `s`. -/
structure HartStopped (s t : State) (i : Fin 4) : Prop where
  cur : t.cur = s.cur
  mem : t.mem = s.mem
  starts : t.sched.starts = s.sched.starts
  lanes : ∀ g : Fin 4, t.core.lanes[g] ≠ .held i
  matrix : t.core.matrix ≠ some i
  status : t.harts[i].status = .done ∨ t.harts[i].status = .idle
  resv : t.harts[i].resv = none

theorem held_bit {o : LaneOwner} {i : Fin 4} (h : o ≠ .held i) (n : Nat) : (match o with | .held j => if j = i then n else 0 | _ => 0) = 0 := by
  cases o with
  | held j => exact if_neg fun e => h (congrArg _ e)
  | free => rfl
  | releasing j => rfl

theorem Core.heldBy_none {c : Core} {i : Fin 4} (h : ∀ g : Fin 4, c.lanes[g] ≠ .held i) : c.heldBy i = 0#4 :=
  congrArg (BitVec.ofNat 4) (Nat.add_eq_zero_iff.mpr ⟨Nat.add_eq_zero_iff.mpr ⟨Nat.add_eq_zero_iff.mpr
    ⟨held_bit (h 0) _, held_bit (h 1) _⟩, held_bit (h 2) _⟩, held_bit (h 3) _⟩)

theorem laneAsk_of_running {h : Hart} (hr : h.status = .running) : laneAsk h = none := by simp [laneAsk, hr]

theorem Hart.arrived_of_stopped {h : Hart} (hs : h.status = .done ∨ h.status = .idle) (scope : Nat) : h.arrived scope = false := by
  rcases hs with hs | hs <;> simp [Hart.arrived, hs]

/-- A hart that gives up its work and what it holds of itself (R145, R609). -/
def Hart.givenUp (h : Hart) : Hart :=
  { h with queue := [], resv := none, eqWait := [], quota := 0, quotaHeld := 0, releases := [], late := [], stbuf := [],
           scalarRemote := ⟨[], [], none⟩, vtype := h.vtype &&& 0x10F#9, fetched := Vector.replicate 4 [],
           sb := h.sb.map fun b => { b with valid := false } }

/-- What a hart gives up (R145, R609). -/
theorem State.giveUp_stopped (s : State) (i : Fin 4) (hrun : s.harts[i].status = .running) :
    HartStopped s ((s.giveUp i).modHart i fun h => { h with status := .done }) i := by
  unfold State.giveUp
  dsimp only
  generalize hv : (State.releaseLanes _ i 15#4 : State) = v
  have hlanes (g : Fin 4) : v.core.lanes[g] ≠ .held i := by rw [← hv]; exact State.releaseLanes_all _ i g
  have hwaits : i ∉ v.core.matrixWaiters := by
    rw [← hv]
    intro h
    have hne := (List.mem_filter.mp h).2
    simp at hne
  have hv' : v.harts[i] = s.harts[i].givenUp := by rw [← hv]; exact State.modHart_same s i Hart.givenUp
  have hstatus : v.harts[i].status = .running := (congrArg Hart.status hv').trans hrun
  have hresv : v.harts[i].resv = none := congrArg Hart.resv hv'
  have hframe : v.cur = s.cur ∧ v.mem = s.mem ∧ v.sched.starts = s.sched.starts := by rw [← hv]; exact ⟨rfl, rfl, rfl⟩
  obtain ⟨⟨hs, c, hu, hcl, hcm⟩, honly⟩ := v.leaveMatrix_keeps i false
  generalize v.leaveMatrix i false = u at hu honly
  obtain ⟨m, b, hui⟩ := honly i
  have hask : laneAsk u.harts[i] = none := laneAsk_of_running (by rw [hui]; exact hstatus)
  obtain ⟨hsm, hsl⟩ := u.serveLanes_keeps hask
  obtain ⟨hs', c', hserve⟩ := u.serveLanes_frame
  have hstill := u.serveLanes_still i hask
  obtain ⟨hcur, hmem, hstarts⟩ := hframe
  constructor
  · rw [State.modHart_cur, State.serveLanes_cur, hu]; exact hcur
  · rw [State.modHart_mem, State.serveLanes_mem, hu]; exact hmem
  · rw [State.modHart_sched, hserve, hu]; exact hstarts
  · intro g h
    have h := hsl g h
    rw [hu] at h
    exact hlanes g (hcl ▸ h)
  · rw [State.modHart_core, hsm, hu]
    exact hcm hwaits
  · rw [State.modHart_same]
    exact .inl rfl
  · rw [State.modHart_same, hstill, hui]
    exact hresv

/-- The effect of a fence and the hart's going on: what they leave to a hart that stands elsewhere. -/
theorem State.fenceEffect_retire_keeps (s : State) (scope : Nat) : ∃ u, (s.fenceEffect scope).retire = u ∧ u.mem = s.mem ∧
    u.sched.starts = s.sched.starts ∧ u.core.lanes = s.core.lanes ∧ u.core.matrix = s.core.matrix ∧ ∀ i, i ≠ s.cur → u.harts[i] = s.harts[i] := by
  refine ⟨_, rfl, ?_⟩
  unfold State.fenceEffect
  split
  · refine ⟨rfl, rfl, rfl, rfl, fun i hi => ?_⟩
    exact (State.mod_other (State.mod { s with core := { s.core with dcache := [] } } Hart.dropStrips) i _ hi).trans
      (State.mod_other { s with core := { s.core with dcache := [] } } i Hart.dropStrips hi)
  · exact ⟨rfl, rfl, rfl, rfl, fun i hi => State.mod_other _ _ _ hi⟩

section
variable {s t : State} {i : Fin 4} (h : HartStopped s t i)
include h

/-- What leaves the hart, the holders of lane groups and matrix mode, and memory as they are leaves it stopped. -/
theorem HartStopped.of_same {u : State} (hcur : u.cur = t.cur) (hmem : u.mem = t.mem) (hstarts : u.sched.starts = t.sched.starts)
    (hl : u.core.lanes = t.core.lanes) (hm : u.core.matrix = t.core.matrix) (hi : u.harts[i] = t.harts[i]) : HartStopped s u i :=
  ⟨hcur.trans h.cur, hmem.trans h.mem, hstarts.trans h.starts, hl ▸ h.lanes, hm ▸ h.matrix, hi ▸ h.status, hi ▸ h.resv⟩

/-- The release of a barrier at a hart that waits at one leaves a hart that has stopped as it is (R589). -/
theorem HartStopped.releaseHart (scope : Nat) (j : Fin 4) : HartStopped s (t.releaseHart scope j) i := by
  unfold State.releaseHart
  split
  · rename_i harr
    have hij : i ≠ j := by
      rintro rfl
      rw [Hart.arrived_of_stopped h.status] at harr
      cases harr
    obtain ⟨u, hu, hmem, hstarts, hl, hm, hother⟩ := State.fenceEffect_retire_keeps { t with cur := j } scope
    rw [State.asHart, hu]
    exact h.of_same rfl hmem hstarts hl hm (hother i hij)
  · exact h

theorem HartStopped.releaseBarrier (k : Task) (scope : Nat) (others : Bool) : HartStopped s (t.releaseBarrier k scope others) i := by
  unfold State.releaseBarrier
  dsimp only
  split
  · exact List.foldlRecOn (motive := (HartStopped s · i)) _ _ (h.of_same rfl rfl rfl rfl rfl rfl) fun u hu j _ => hu.releaseHart scope j
  · exact h

theorem HartStopped.tryBarriers (id : Nat) : HartStopped s (t.tryBarriers id) i := by
  unfold State.tryBarriers
  split
  · exact h
  · exact List.foldlRecOn (motive := (HartStopped s · i)) _ _ h fun u hu scope _ => hu.releaseBarrier _ scope false

/-- A stop of a slot leaves a hart that has stopped so. -/
theorem HartStopped.stop (j : Fin 4) : HartStopped s (t.modHart j Hart.stop) i := by
  by_cases hij : i = j
  · subst hij
    refine ⟨h.cur, h.mem, h.starts, h.lanes, h.matrix, ?_, ?_⟩ <;> rw [State.modHart_same]
    · exact .inr rfl
    · exact h.resv
  · exact h.of_same rfl rfl rfl rfl rfl (State.modHart_other _ _ _ _ hij)

/-- The end of tasks leaves it stopped: no hart waits for its slot (R144). -/
theorem HartStopped.settleTasks (hs : s.sched.starts = []) : HartStopped s t.settleTasks i := by
  have hend : HartStopped s (t.sched.tasks.foldl State.endTask t) i := by
    refine List.foldlRecOn (motive := (HartStopped s · i)) _ _ h fun u hu k _ => ?_
    unfold State.endTask
    split
    · have hstops : HartStopped s (k.here.foldl (fun s i => s.modHart i Hart.stop) u) i :=
        List.foldlRecOn (motive := (HartStopped s · i)) _ _ hu fun v hv j _ => hv.stop j
      exact hstops.of_same rfl rfl rfl rfl rfl rfl
    · exact hu
  unfold State.settleTasks State.fillStarts
  rw [hend.starts, hs]
  exact hend

end

theorem State.stopHart_stopped (s : State) (i : Fin 4) (hrun : s.harts[i].status = .running) (hs : s.sched.starts = []) :
    HartStopped s (s.stopHart i) i :=
  ((s.giveUp_stopped i hrun).tryBarriers _).settleTasks hs

section
variable {s : State} (h : ClearSync s [])
include h

theorem execTdone_of_drained (hq : s.h.queue = []) (hp : s.performed s.cur 4 = true) (hr : s.hartRemote s.cur = false) :
    execTdone s = .next (s.stopHart s.cur) := by
  rw [execTdone, syncInstr_clear h, tdoneStep, if_pos (by simp [Hart.idleQueues, hq, hp, hr])]

theorem execTdone_of_busy (hq : s.h.queue ≠ []) : execTdone s = .next (s.wait .fence wTdone) := by
  rw [execTdone, syncInstr_clear h, tdoneStep, if_neg (by simp [Hart.idleQueues, hq])]

end

/-! ### The statement -/

/-- Settles O54, an equation of each instruction a clause. -/
theorem taskAndTimeResults : Obligations.TaskAndTimeResults := by
  intro s a b c d
  refine ⟨?tsk, ?tqget, fun h he h0 => execTqget_of_same h he h0, ?gtime, ?gwait, ?unaccepted, ?reached, ?early, ?tdone, fun h hq => execTdone_of_busy h hq⟩
  case tsk =>
    intro h hp
    refine ⟨execTsk_of_bad_operand h hp, execTsk_of_far h hp, fun bs u ha hb hnear hload => ?_⟩
    obtain ⟨hcode, hframe, hkept, hqueued⟩ := u.admitRecord_eq bs hb
    refine ⟨_, execTsk_of_record h hp ha hb hnear hload, (congrArg State.mem hframe :), ?_, hkept, hqueued⟩
    rw [State.retire_setX_x, hcode]
    exact congrArg (xPut · d _) (congrArg (fun x : State => x.h.x) hframe :)
  case tqget =>
    intro h hne hb
    refine ⟨fun k hk hq => ?_, fun hno => ?_⟩
    · obtain ⟨n, hn, u, hpull, hharts, hcur, hfind⟩ := State.pull_of_queue hk hq
      have hu : u.h = s.h := by simp only [State.h, hharts, hcur]
      refine ⟨_, n, execTqget_of_clear h hne hb, hn, ?_, ?_⟩ <;> rw [hpull]
      · rw [State.retire_x, State.setX_h, State.setX_h, hu]
      · rw [State.retire_sched, State.setX_sched, State.setX_sched]
        exact hfind
    · refine (execTqget_of_clear h hne hb).trans ?_
      rw [State.pull_of_no_queue hno]
  case gtime =>
    intro h
    refine ⟨_, syncInstr_clear h _ _, s.passTime_mono, ?_, ?_, rfl⟩
    · rw [State.retire_setX_x, State.retire_clock, State.setX_clock]
      exact congrArg (xPut s.h.x d) (BitVec.eq_of_toNat_eq (by simp [State.gtimeNs]))
    · exact State.retire_setX_pc _ _ _
  case gwait =>
    intro hf h
    refine ⟨execGwait_of_free hf h, fun ht hr => ⟨_, execGwait_of_reached hf h ht hr, ?_, ?_, rfl⟩, fun ht hr => ⟨_, execGwait_of_early hf h ht hr, ?_, ?_, ?_⟩⟩
    · exact State.retire_setX_x _ _ _
    · exact State.retire_setX_pc _ _ _
    all_goals rw [State.wait, State.mod_h]
    all_goals rfl
  case unaccepted =>
    intro hf
    exact if_neg (by simp [hf])
  case reached =>
    intro h hr
    exact (syncInstr_clear h _ _).trans (congrArg _ (if_pos hr))
  case early =>
    intro h hr
    exact (syncInstr_clear h _ _).trans (congrArg _ (if_neg (Nat.not_le.mpr hr)))
  case tdone =>
    intro h hq hp hr hrun hs
    have hstop := s.stopHart_stopped s.cur hrun hs
    generalize he : s.stopHart s.cur = t at hstop
    have hh : t.h = t.harts[s.cur] := by simp only [State.h, hstop.cur]
    refine ⟨t, he ▸ execTdone_of_drained h hq hp hr, ?_, Core.heldBy_none hstop.lanes, hstop.matrix, ?_, hstop.mem⟩ <;> rw [hh]
    · exact hstop.status
    · exact hstop.resv

end Sys2Proof.Machine
end

section
/-! SUPPORT. Reductions, keys, SPDM messages, timed records and the two Bellwethers (R84 to R111, R172 to R199, R641, R643): what each event of
theirs comes to, one equation per case; and the statement O58. The size of a held packet is assumption 62, the corners of the gang control and of
the clock are assumptions 45 and 50. -/

namespace Sys2Proof.Machine
open Sys2Proof.Claims

/-! ### Reductions and keys (R103, R109, R641) -/

theorem atReduction_of_ok {p : Packet} (hp : pktRedOk p = true) (ht : tooOld p = false) (s : State) : atReduction p s = .next (s.reduceArrive p) := by
  simp [atReduction, hp, ht]

/-- A packet for a reduction that is not accepted yet is held while there is room (R641). -/
theorem State.reduceArrive_held {s : State} {p : Packet} {e : JobEntry} {d : List Byte} (he : s.jobEntry p.job = some e) (hg : e.gen = p.gen)
    (hq : e.state ≠ .quarantine) (hd : s.openPacket p = some d) (hr : s.reduction p.job (p.spec64.extractLsb' 0 32) = none)
    (hrid : s.trust.retiredRids.contains (p.job, p.spec64.extractLsb' 0 32) = false)
    (hroom : (s.trust.held.map fun x => heldSize x.pkt).sum + heldSize p ≤ 65536) : (s.reduceArrive p).trust.held = s.trust.held ++ [⟨p⟩] := by
  have hlive : (e.gen == p.gen && e.state != .quarantine) = true := by simp [hg, hq]
  simp only [State.reduceArrive, he, hlive, hd, hr, hrid, Nat.not_lt.mpr hroom, Bool.not_true, Bool.false_eq_true, if_false]

theorem State.timeoutReduction_some {s : State} {job : BitVec 16} {rid : BitVec 32} {r : Reduction} (h : s.reduction job rid = some r) :
    s.timeoutReduction job rid = s.failReduction r := by
  simp [State.timeoutReduction, h]

theorem State.timeoutReduction_none {s : State} {job : BitVec 16} {rid : BitVec 32} (h : s.reduction job rid = none) : s.timeoutReduction job rid = s := by
  simp [State.timeoutReduction, h]

theorem State.eraseKey_same (s : State) (job : BitVec 16) : (s.eraseKey job).jobKey job = none := by
  simp [State.eraseKey, State.jobKey, List.find?_eq_none]

theorem State.eraseKey_other (s : State) {job j : BitVec 16} (h : j ≠ job) : (s.eraseKey job).jobKey j = s.jobKey j := by
  simp only [State.eraseKey, State.jobKey, List.find?_filter]
  refine congrArg (s.trust.keys.find? ·) (funext fun k => ?_)
  by_cases hk : k.job = j <;> simp [hk, h]

theorem execJobkeyExpiry_of_key {s : State} {job : BitVec 16} {k : JobKey} (h : s.jobKey job = some k) :
    execJobkeyExpiry job s = .next ((s.reach (k.expiry + 1)).eraseKey job) := by
  simp [execJobkeyExpiry, h]

/-! ### SPDM messages and records (R95, R100) -/

theorem execSpdmmsg_of_ok {p : Packet} (hp : pktSpdmOk p = true) (ht : tooOld p = false) (s : State) :
    execSpdmmsg p s = .next (s.spdmFragment p.src p.data) := by
  simp [execSpdmmsg, hp, ht]

section
variable {s : State} {p : Packet} (hz : p.zerosOk = true) (h16 : p.spec16 = 0#16) (h64 : p.spec64 = 0#64) (hb : p.dbeats = 12#5) (he : p.enc = false)
  (ht : tooOld p = false)
include hz h16 h64 hb he ht

/-- A TLREC in order is answered by its record (R95). -/
theorem execTlrec_of_ok : execTlrec p s = .next (
    let raw := p.data.take 192
    let gid : BitVec 64 := (recGang raw).setWidth 64
    if s.recBad raw then s.reply p 0x0E 9 gid []
    else if (s.homeCtx p).isNone then s.reply p 0x0E (4 + s.recFlags raw) gid []
    else (s.takeRecord raw p.job (recCoord raw)).2.reply p 0x0E (s.takeRecord raw p.job (recCoord raw)).1 gid []) := by
  simp [execTlrec, hz, h16, h64, hb, he, ht, State.openPacket]

end

/-! ### Messages about a record (R175 to R178, R643) -/

section
variable {s : State} {p : Packet} {kind flag : Nat} (hp : pktCtl p kind flag = true) (ht : tooOld p = false) (k : Option GangRec → State → State)
include hp ht

theorem State.atRecord_of_none (h : s.record p.itag p.spec64.toNat = none) : s.atRecord p kind flag k = .next (k none s) := by
  simp [State.atRecord, hp, ht, h]

theorem State.atRecord_of_some {g : GangRec} (h : s.record p.itag p.spec64.toNat = some g) (hc : g.coord = p.src) :
    s.atRecord p kind flag k = .next (k (some g) s) := by
  simp [State.atRecord, hp, ht, h, hc]

end

theorem execGangctlCancel_of_record {s : State} {p : Packet} {g : GangRec} (hp : pktCtl p 2 0 = true) (ht : tooOld p = false)
    (h : s.record p.itag p.spec64.toNat = some g) (hc : g.coord = p.src) :
    execGangctlCancel p s = .next (if g.acted then s.sendCtl g.coord g.job g.gangid g.t 4
      else (s.dropRecord g).sendCtl p.src p.job p.itag p.spec64.toNat 33) :=
  State.atRecord_of_some hp ht _ h hc

theorem execGangctlGo_of_record {s : State} {p : Packet} {g : GangRec} (hp : pktCtl p 3 0 = true) (ht : tooOld p = false)
    (h : s.record p.itag p.spec64.toNat = some g) (hc : g.coord = p.src) :
    execGangctlGo p s = .next (if g.armed && g.wave && !g.acted then s.act g else s) :=
  State.atRecord_of_some hp ht _ h hc

theorem execGangctlArm_of_record {s : State} {p : Packet} {g : GangRec} (hp : pktCtl p 0 1 = true) (ht : tooOld p = false)
    (h : s.record p.itag p.spec64.toNat = some g) (hc : g.coord = p.src) : execGangctlArm p s = .next (s.arm g (p.spec16.getLsbD 4)) :=
  State.atRecord_of_some hp ht _ h hc

/-- A message that names no record is idle, but that a cancel is acknowledged (R177, R643). -/
theorem execGangctl_of_no_record {s : State} {p : Packet} (ht : tooOld p = false) (h : s.record p.itag p.spec64.toNat = none) :
    (pktCtl p 0 1 = true → execGangctlArm p s = .next s) ∧ (pktCtl p 3 0 = true → execGangctlGo p s = .next s) ∧
    (pktCtl p 2 0 = true → execGangctlCancel p s = .next (s.sendCtl p.src p.job p.itag p.spec64.toNat 33)) := by
  unfold execGangctlArm execGangctlGo execGangctlCancel
  exact ⟨fun hp => State.atRecord_of_none hp ht _ h, fun hp => State.atRecord_of_none hp ht _ h, fun hp => State.atRecord_of_none hp ht _ h⟩

/-- The harts once an acknowledge has reached the copies that wait for it. -/
def State.acked (s : State) (p : Packet) : State :=
  { s with harts := s.harts.map fun h => { h with queue := h.queue.map fun e => if ackFor p e then { e with memo := e.memo ++ [1] } else e } }

/-- With no hart frozen an acknowledge does no more than reach the copies. -/
theorem execGangctlAcknowledge_of_running {s : State} {p : Packet} (hp : pktCtl p 1 2 = true) (ht : tooOld p = false)
    (hf : ∀ i : Fin 4, s.harts[i].frozen = false) : execGangctlAcknowledge p s = .next (s.acked p) := by
  have hf' (i : Fin 4) : (s.acked p).harts[i].frozen = false := by
    simp only [State.acked, Fin.getElem_fin, Vector.getElem_map]
    exact hf i
  have hstep (i : Fin 4) : (if (s.acked p).harts[i].frozen then (s.acked p).finishGangctl i else s.acked p) = s.acked p :=
    if_neg (by rw [hf' i]; exact Bool.false_ne_true)
  have hfold : [(0 : Fin 4), 1, 2, 3].foldl (fun s i => if s.harts[i].frozen then s.finishGangctl i else s) (s.acked p) = s.acked p := by
    simp only [List.foldl_cons, List.foldl_nil, hstep]
  unfold execGangctlAcknowledge
  rw [if_neg (by simp [hp]), if_neg (by simp [ht])]
  exact congrArg Host.Outcome.next hfold

theorem execGangctlStraggler_of_job {s : State} {p : Packet} {e : JobEntry} (hp : pktCtl p 4 0 = true) (ht : tooOld p = false)
    (he : s.jobEntry p.job = some e) : execGangctlStraggler p s = .next (s.errorToCollector e.ctxid
      { va := 0#64, peer := p.src, itag := 0#32, kind := 7, st := 0, attr := 0#8, hart := none, job := p.job, aux := p.itag.toNat, data := [] }) := by
  simp [execGangctlStraggler, hp, ht, he]

/-! ### Instants of a record and of an offer (R91, R96, R175 to R179) -/

theorem State.record_names {s : State} {gid : BitVec 32} {t : Nat} {g : GangRec} (h : s.record gid t = some g) : g.gangid = gid ∧ g.t = t := by
  simpa using List.find?_some h

/-- The machine when the instant of a record has come. -/
def State.atInstant (s : State) (g : GangRec) (t : Nat) : State :=
  { s.putRecord g with clock := { s.clock with gtime := max s.clock.gtime (t * 65536) } }

/-- The only record that is due meets its instant. -/
theorem execSwitchInstant_of_due {s : State} {gid : BitVec 32} {t : Nat} {g : GangRec} (h : s.record gid t = some g) (hp : g.passed = false)
    (hd : s.due t = [g]) : execSwitchInstant gid t s = .next (s.instantOf gid t) := by
  obtain ⟨hg, ht⟩ := State.record_names h
  simp [execSwitchInstant, h, hp, hd, hg, ht]

theorem State.instantOf_of_record {s : State} {gid : BitVec 32} {t : Nat} {g0 : GangRec} (h : s.record gid t = some g0) (ha : g0.acted = false) :
    s.instantOf gid t = (
      let g := { g0 with passed := true }
      let u := s.atInstant g t
      if g.armed && (!g.wave || (s.offer gid t).isSome) then u.act g
      else if g.armed || g.told then u
      else ((u.raiseAsync (stragglerTrap gid)).tellStraggler g).dropRecord g) := by
  simp only [State.instantOf, h, ha]
  rfl

section
variable {s : State} {gid : BitVec 32} {t : Nat} {o : Offer} (h : s.offer gid t = some o)
include h

theorem execModeDecision_of_refused (hm : o.mode = 0) (he : ∃ e ∈ o.members, ∀ a ∈ o.acks, a.1 = e → a.2 ≠ 0 ∧ a.2 ≠ 16) :
    execModeDecision gid t s = .next ((s.reach (t - 10000)).cancelOffer o) := by
  obtain ⟨e, hmem, hacks⟩ := he
  have htimed : (o.members.all fun e => o.acks.any fun a => a.1 = e && a.2 = 0) = false := by
    refine List.all_eq_false.mpr ⟨e, hmem, ?_⟩
    simpa using fun ha => (hacks (e, 0) ha rfl).1 rfl
  have hwave : (o.members.all fun e => o.acks.any fun a => a.1 = e && (a.2 = 0 || a.2 = 16)) = false := by
    refine List.all_eq_false.mpr ⟨e, hmem, ?_⟩
    simpa using fun st ha => hacks (e, st) ha rfl
  simp [execModeDecision, h, hm, htimed, hwave]

/-- Where every member has answered without HOLD the record is armed in the timed mode (R96). -/
theorem execModeDecision_of_timed (hm : o.mode = 0) (he : ∀ e ∈ o.members, (e, 0) ∈ o.acks) :
    execModeDecision gid t s = .next (
      let u := (s.reach (t - 10000)).modOffer gid t fun o => { o with mode := 1 }
      match s.record gid t with | some g => u.arm g false | none => u) := by
  have htimed : (o.members.all fun e => o.acks.any fun a => a.1 = e && a.2 = 0) = true :=
    List.all_eq_true.mpr fun e hmem => List.any_eq_true.mpr ⟨(e, 0), he e hmem, by simp⟩
  simp only [execModeDecision, h, hm, htimed]
  rfl

theorem execArmAckDeadline_of_missing (hm : o.mode = 1 ∨ o.mode = 2) (ha : o.armAcks = []) :
    execArmAckDeadline gid t s = .next ((s.reach (t - 4000)).cancelOffer o) := by
  simp [execArmAckDeadline, h, hm, ha]

theorem execCancelResend_of_one {e : Epid} (hm : o.mode = 3) (ht : s.gtimeNs < t) (he : o.members = [e]) (ha : o.cancelAcks = []) :
    execCancelResend gid t s = .next (s.sendCtl e (s.jobOf o.ctxid.toNat) gid t 2) := by
  simp [execCancelResend, h, hm, ht, he, ha]

/-- A cancelled record is offered again (R179). -/
theorem execGangReoffer_of_cancelled (hm : o.mode = 3) : ∃ u, execGangReoffer gid t s = .next u ∧ ∃ x, x ∈ u.sched.offers ∧ x.round = o.round + 1 ∧
    x.mode = 0 ∧ x.raw = splice o.raw 32 (natLe 8 (t + 100000)) := by
  refine ⟨_, by simp only [execGangReoffer, h, hm, if_true]; rfl, _, List.mem_append_right _ (List.mem_singleton.mpr rfl), rfl, rfl, rfl⟩

end

/-! ### The end of a pre-emption (R180 to R182) -/

section
variable {s : State} {gid : BitVec 32} {t : Nat} {g : GangRec} {c : Context} (h : s.preempting gid t = some (g, c))
include h

theorem execStragglerLimit_of_draining (hn : c.isCompat = false) (hd : c.drain ≠ 0) :
    execStragglerLimit gid t s = .next ((s.reach (g.startTime + 50000)).raiseAsync (stragglerTrap gid)) := by
  simp [execStragglerLimit, h, hn, hd]

theorem execWatchdogExpiry_of_compat (hc : c.isCompat = true) (hs : s.allStopped g.ctxid = false) :
    execWatchdogExpiry gid t s = .next ((((s.reach (g.startTime + 1000 * s.wdlimit g)).tellStraggler g).killContext g.ctxid.toNat cWDOG).raiseAsync
      ⟨cWDOG, g.ctxid.setWidth 64⟩) := by
  simp [execWatchdogExpiry, h, hc, hs]

theorem execSaveImageWrite_of_quiet (hd : c.drain = 0) (hs : s.allStopped g.ctxid = true)
    (hq : ∀ i : Fin 4, s.harts[i].stbuf = [] ∧ s.harts[i].late = [] ∧ s.harts[i].eqWait = []) (hw : s.imageWaits g = false) :
    execSaveImageWrite gid t s =
      .next ((((s.settleFreeze.writeImage g c).tick.switchOut g).putRecord { g with finished := true }).tick) := by
  have hquiet : ((s.hartsOf g.ctxid).all fun i => s.harts[i].stbuf.isEmpty && s.harts[i].late.isEmpty && s.harts[i].eqWait.isEmpty) = true := by
    refine List.all_eq_true.mpr fun i _ => ?_
    obtain ⟨h1, h2, h3⟩ := hq i
    rw [h1, h2, h3]
    rfl
  simp only [execSaveImageWrite, h, hd, hs, hquiet, hw]
  rfl

end

/-! ### Bellwethers (R84 to R88) -/

section
variable (s : State) (d : Fin 2) (f : Bellwether → Bellwether)

@[simp] theorem State.modBell_same : (s.modBell d f).clock.bell[d] = f s.clock.bell[d] := by simp [State.modBell]

@[simp] theorem State.modBell_src : (s.modBell d f).clock.src = s.clock.src := rfl
@[simp] theorem State.modBell_gtime : (s.modBell d f).clock.gtime = s.clock.gtime := rfl

/-- UNC follows its source; the rest of the machine stands. -/
theorem State.followSource_keeps : ∃ n, s.followSource = { s with clock := { s.clock with unc := n } } := by
  unfold State.followSource
  dsimp only
  split
  · exact ⟨_, rfl⟩
  · exact ⟨_, rfl⟩

/-- A Bellwether that has lost its lock. -/
def Bellwether.lost (b : Bellwether) : Bellwether := { b with tstate := .holdover, good := 0 }

/-- A Bellwether that leaves LOCKED (R87); device time and the rest of the machine stand. -/
theorem State.unlock_keeps : (s.unlock d).mem = s.mem ∧ (s.unlock d).harts = s.harts ∧ (s.unlock d).clock.gtime = s.clock.gtime ∧
    (s.unlock d).clock.bell[d] = { s.clock.bell[d] with tstate := if s.clock.bell[d].tstate = .locked then .holdover else s.clock.bell[d].tstate, good := 0 } := by
  have hlost := State.modBell_same s d Bellwether.lost
  unfold State.unlock
  by_cases hl : s.clock.bell[d].tstate = .locked
  · rw [if_pos hl, if_pos hl]
    dsimp only
    split
    · split
      · obtain ⟨n, hn⟩ := State.followSource_keeps { s.modBell d Bellwether.lost with clock := { (s.modBell d Bellwether.lost).clock with src := 1 - d } }
        refine Eq.mpr (congrArg (fun u : State => u.mem = s.mem ∧ u.harts = s.harts ∧ u.clock.gtime = s.clock.gtime ∧ u.clock.bell[d] = s.clock.bell[d].lost) hn) ?_
        exact ⟨rfl, rfl, rfl, hlost⟩
      · exact ⟨rfl, rfl, rfl, hlost⟩
    · exact ⟨rfl, rfl, rfl, hlost⟩
  · rw [if_neg hl, if_neg hl]
    exact ⟨rfl, rfl, rfl, State.modBell_same s d fun b => { b with good := 0 }⟩

/-- A Bellwether that locks (R86), where the lock is taken. -/
theorem State.lock_taken (ptp : Nat) (h : s.clock.src ≠ d ∨ s.clock.bell[d].tstate ≠ .free ∨ s.host.state ≠ .ready ∨ s.clock.gtime ≤ ptp) :
    s.lock d ptp = { s.modBell d (fun b => { b with tstate := .locked }) with clock := { (s.modBell d fun b => { b with tstate := .locked }).clock with
      gtime := if s.clock.src = d ∧ s.clock.bell[d].tstate = .free then ptp else s.clock.gtime } } := by
  have hc : (s.clock.src = d && s.clock.bell[d].tstate == .free && s.host.state == .ready && decide (ptp < s.clock.gtime)) = false := by
    rcases h with h | h | h | h <;> simp [-Fin.getElem_fin, h]
  unfold State.lock
  dsimp only
  rw [if_neg (by simpa using hc)]
  by_cases hf : s.clock.src = d ∧ s.clock.bell[d].tstate = .free
  · rw [if_pos hf, if_pos (by simp [-Fin.getElem_fin, hf.1, hf.2])]
  · rw [if_neg hf, if_neg (by simpa using hf)]
    rfl

/-- A Bellwether that does not lock stands. -/
theorem State.lock_refused (ptp : Nat) (h : ¬ (s.clock.src ≠ d ∨ s.clock.bell[d].tstate ≠ .free ∨ s.host.state ≠ .ready ∨ s.clock.gtime ≤ ptp)) :
    s.lock d ptp = s := by
  simp only [not_or, ne_eq, not_not, Nat.not_le] at h
  obtain ⟨hsrc, hfree, hready, hlt⟩ := h
  unfold State.lock
  dsimp only
  exact if_pos (by simp [-Fin.getElem_fin, hsrc, hfree, hready, hlt])

/-- What a lock of a Bellwether, taken or refused, leaves. -/
theorem State.lock_keeps (ptp : Nat) : (s.lock d ptp).mem = s.mem ∧ (s.lock d ptp).harts = s.harts ∧
    ∃ x, (s.lock d ptp).clock.bell[d] = { s.clock.bell[d] with tstate := x } := by
  by_cases h : s.clock.src ≠ d ∨ s.clock.bell[d].tstate ≠ .free ∨ s.host.state ≠ .ready ∨ s.clock.gtime ≤ ptp
  · rw [State.lock_taken s d ptp h]
    exact ⟨rfl, rfl, .locked, State.modBell_same s d fun b => { b with tstate := .locked }⟩
  · rw [State.lock_refused s d ptp h]
    exact ⟨rfl, rfl, _, rfl⟩

/-- A lock that a Sync interval takes, and none where the Bellwether has no reason for one. -/
def State.maybeLock (ptp : Nat) : State := if s.clock.bell[d].locks then s.lock d ptp else s

theorem State.maybeLock_keeps (ptp : Nat) : (s.maybeLock d ptp).mem = s.mem ∧ (s.maybeLock d ptp).harts = s.harts ∧
    ∃ x, (s.maybeLock d ptp).clock.bell[d] = { s.clock.bell[d] with tstate := x } := by
  unfold State.maybeLock
  split
  · exact s.lock_keeps d ptp
  · exact ⟨rfl, rfl, _, rfl⟩

theorem State.maybeLock_locks (ptp : Nat) (hg : 16 ≤ s.clock.bell[d].good)
    (h : s.clock.src ≠ d ∨ s.clock.bell[d].tstate ≠ .free ∨ s.host.state ≠ .ready ∨ s.clock.gtime ≤ ptp) :
    (s.maybeLock d ptp).clock.bell[d].tstate = .locked := by
  unfold State.maybeLock
  split
  · rw [State.lock_taken s d ptp h]
    exact congrArg Bellwether.tstate (State.modBell_same s d fun b => { b with tstate := .locked })
  · rename_i hn
    simpa [-Fin.getElem_fin, Bellwether.locks, hg] using hn

theorem State.maybeLock_gtime (ptp : Nat) (hg : 16 ≤ s.clock.bell[d].good) (hs : s.clock.src = d) (hf : s.clock.bell[d].tstate = .free)
    (hr : s.host.state ≠ .ready) : (s.maybeLock d ptp).clock.gtime = ptp := by
  unfold State.maybeLock
  rw [if_pos (by simp [-Fin.getElem_fin, Bellwether.locks, hg, hf]), State.lock_taken s d ptp (.inr (.inr (.inl hr)))]
  exact if_pos ⟨hs, hf⟩

/-- A Sync interval with a valid Sync changes, after its count and its lock, only what UNC follows. -/
theorem State.goodInterval_keeps (port : Fin 12) (raw : Int) (ptp : Nat) :
    let v := (s.modBell d fun b => b.sync (raw - s.clock.bell[d].delays[port])).maybeLock d ptp
    ∃ n m k, s.goodInterval d port raw ptp = { v with clock := { v.clock with unc := n, slew := m, slewTime := k } } := by
  intro v
  have hv : s.goodInterval d port raw ptp = (if v.clock.src = d then
      { v with clock := { v.clock with slew := (raw - s.clock.bell[d].delays[port]).natAbs, slewTime := v.clock.gtime } } else v).followSource := rfl
  rw [hv]
  split
  · obtain ⟨n, hn⟩ := State.followSource_keeps
      { v with clock := { v.clock with slew := (raw - s.clock.bell[d].delays[port]).natAbs, slewTime := v.clock.gtime } }
    exact ⟨n, _, _, hn⟩
  · obtain ⟨n, hn⟩ := v.followSource_keeps
    exact ⟨n, _, _, hn⟩

end

/-- The Syncs of an interval that a Bellwether takes note of. -/
def Bellwether.noted (syncs : List PtpSync) (b : Bellwether) : Bellwether :=
  { b with synced := syncs.foldl (fun m x => m ||| (1#12 <<< x.port.val)) 0#12 }

/-- A Sync interval with a valid Sync (R84, R87, R88). -/
theorem execPtpSync_of_valid {s : State} {die : Fin 2} {raw : Int} {ptp : Nat} {syncs : List PtpSync} {x : PtpSync} {rest : List PtpSync}
    (h : syncs.filter s.clock.bell[die].valid = x :: rest) :
    let b := s.clock.bell[die]
    let off : Int := raw - b.delays[x.port]
    ∃ u, execPtpSync die raw ptp syncs s = .next u ∧ u.mem = s.mem ∧ u.harts = s.harts ∧
      u.clock.bell[die].offsets = (off.natAbs :: b.offsets).take 16 ∧ u.clock.bell[die].missed = 0 ∧
      u.clock.bell[die].good = (if off.natAbs < 50 then b.good + 1 else 0) ∧
      (off.natAbs < 50 → 15 ≤ b.good → (s.clock.src ≠ die ∨ b.tstate ≠ .free ∨ s.host.state ≠ .ready ∨ s.clock.gtime ≤ ptp) →
        u.clock.bell[die].tstate = .locked) ∧
      (s.clock.src = die → b.tstate = .free → off.natAbs < 50 → 15 ≤ b.good → s.host.state ≠ .ready → u.clock.gtime = ptp) := by
  intro b off
  have hexec : execPtpSync die raw ptp syncs s = .next ((s.modBell die (Bellwether.noted (x :: rest))).goodInterval die x.port raw ptp) := by
    unfold execPtpSync
    rw [h]
    rfl
  generalize hs1 : s.modBell die (Bellwether.noted (x :: rest)) = s1 at hexec
  have hb1 : s1.clock.bell[die] = b.noted (x :: rest) := by rw [← hs1]; exact State.modBell_same ..
  obtain ⟨n, m, k, hgood⟩ := s1.goodInterval_keeps die x.port raw ptp
  rw [hgood] at hexec
  generalize hs2 : s1.modBell die (fun b => b.sync (raw - s1.clock.bell[die].delays[x.port])) = s2 at hexec
  have hb2 : s2.clock.bell[die] = (b.noted (x :: rest)).sync off := by
    rw [← hs2, State.modBell_same, hb1]
    rfl
  have hsrc : s2.clock.src = s.clock.src := by rw [← hs2, ← hs1]; rfl
  have hhost : s2.host = s.host := by rw [← hs2, ← hs1]; rfl
  have htime : s2.clock.gtime = s.clock.gtime := by rw [← hs2, ← hs1]; rfl
  have hmem : s2.mem = s.mem := by rw [← hs2, ← hs1]; rfl
  have hharts : s2.harts = s.harts := by rw [← hs2, ← hs1]; rfl
  obtain ⟨hvmem, hvharts, y, hvb⟩ := s2.maybeLock_keeps die ptp
  have hcount (hoff : off.natAbs < 50) (hg : 15 ≤ b.good) : 16 ≤ s2.clock.bell[die].good := by
    have hgood2 : s2.clock.bell[die].good = (if off.natAbs < 50 then b.good + 1 else 0) := congrArg Bellwether.good hb2
    rw [hgood2, if_pos hoff]
    exact Nat.succ_le_succ hg
  have hstate : s2.clock.bell[die].tstate = b.tstate := (congrArg Bellwether.tstate hb2 :)
  refine ⟨_, hexec, hvmem.trans hmem, hvharts.trans hharts, ?_, ?_, ?_, fun hoff hg hmay => ?_, fun hs hf hoff hg hr => ?_⟩
  · exact (congrArg Bellwether.offsets (hvb.trans (congrArg (fun x : Bellwether => { x with tstate := y }) hb2)) :)
  · exact (congrArg Bellwether.missed (hvb.trans (congrArg (fun x : Bellwether => { x with tstate := y }) hb2)) :)
  · exact (congrArg Bellwether.good (hvb.trans (congrArg (fun x : Bellwether => { x with tstate := y }) hb2)) :)
  · refine s2.maybeLock_locks die ptp (hcount hoff hg) ?_
    rw [hsrc, hstate, hhost, htime]
    exact hmay
  · exact s2.maybeLock_gtime die ptp (hcount hoff hg) (hsrc.trans hs) (hstate.trans hf) (hhost ▸ hr)

/-- A Sync interval without a valid Sync (R87). -/
theorem execPtpSync_of_none {s : State} {die : Fin 2} {raw : Int} {ptp : Nat} {syncs : List PtpSync} (h : syncs.filter s.clock.bell[die].valid = []) :
    let b := s.clock.bell[die]
    ∃ u, execPtpSync die raw ptp syncs s = .next u ∧ u.mem = s.mem ∧ u.harts = s.harts ∧ u.clock.gtime = s.clock.gtime ∧
      u.clock.bell[die].good = 0 ∧ u.clock.bell[die].missed = b.missed + 1 ∧
      u.clock.bell[die].tstate = (if b.tstate = .locked ∧ 3 ≤ b.missed then .holdover else b.tstate) := by
  intro b
  have hexec : execPtpSync die raw ptp syncs s = .next (
      let s2 := (s.modBell die (Bellwether.noted [])).modBell die Bellwether.miss
      if 4 ≤ s2.clock.bell[die].missed then s2.unlock die else s2) := by
    unfold execPtpSync
    rw [h]
    rfl
  generalize hs2 : (s.modBell die (Bellwether.noted [])).modBell die Bellwether.miss = s2 at hexec
  have hb2 : s2.clock.bell[die] = (b.noted []).miss := by
    rw [← hs2, State.modBell_same, State.modBell_same]
  have hframe : s2.mem = s.mem ∧ s2.harts = s.harts ∧ s2.clock.gtime = s.clock.gtime := by rw [← hs2]; exact ⟨rfl, rfl, rfl⟩
  obtain ⟨hmem, hharts, htime⟩ := hframe
  refine ⟨_, hexec, ?_⟩
  have hmissed : s2.clock.bell[die].missed = b.missed + 1 := congrArg Bellwether.missed hb2
  have hstate : s2.clock.bell[die].tstate = b.tstate := (congrArg Bellwether.tstate hb2 :)
  dsimp only
  by_cases h4 : 3 ≤ b.missed
  · obtain ⟨humem, huharts, hutime, hub⟩ := s2.unlock_keeps die
    rw [if_pos (by rw [hmissed]; exact Nat.succ_le_succ h4), hub, hstate]
    refine ⟨humem.trans hmem, huharts.trans hharts, hutime.trans htime, rfl, hmissed, ?_⟩
    simp only [h4, and_true]
  · rw [if_neg (by rw [hmissed]; exact fun h => h4 (Nat.le_of_succ_le_succ h)), if_neg fun h => h4 h.2]
    exact ⟨hmem, hharts, htime, congrArg Bellwether.good hb2, hmissed, hstate⟩

/-- An announcement in domain 0 (R84, R87). -/
theorem execPtpAnnounce_of_domain {s : State} {die : Fin 2} {port : Fin 12} {a : PtpAnnounce} (h : a.domain = 0) :
    let b := s.clock.bell[die]
    let ms := (port, a) :: b.masters.filter (·.1 ≠ port)
    ∃ u, execPtpAnnounce die ⟨port, a⟩ s = .next u ∧ u.mem = s.mem ∧ u.clock.bell[die].masters = ms ∧
      u.clock.bell[die].tstate =
        (if b.grandmaster ≠ none ∧ { b with masters := ms }.grandmaster ≠ b.grandmaster ∧ b.tstate = .locked then .holdover else b.tstate) := by
  intro b ms
  have hexec : execPtpAnnounce die ⟨port, a⟩ s = .next (
      let s2 := s.modBell die fun b => { b with masters := (port, a) :: b.masters.filter (·.1 ≠ port) }
      if b.grandmaster.isSome && s2.clock.bell[die].grandmaster != b.grandmaster then s2.unlock die else s2) := by
    unfold execPtpAnnounce
    exact congrArg Host.Outcome.next (if_neg (not_not.mpr h))
  generalize hs2 : (s.modBell die fun b => { b with masters := (port, a) :: b.masters.filter (·.1 ≠ port) }) = s2 at hexec
  have hb2 : s2.clock.bell[die] = { b with masters := ms } := by rw [← hs2]; exact State.modBell_same ..
  have hmem : s2.mem = s.mem := by rw [← hs2]; rfl
  dsimp only at hexec
  rw [hb2] at hexec
  refine ⟨_, hexec, ?_⟩
  by_cases hc : b.grandmaster ≠ none ∧ { b with masters := ms }.grandmaster ≠ b.grandmaster
  · obtain ⟨humem, -, -, hub⟩ := s2.unlock_keeps die
    obtain ⟨hsome, hne⟩ := hc
    rw [if_pos (by simp [Option.isSome_iff_ne_none, hsome, hne]), hub, hb2]
    exact ⟨humem.trans hmem, rfl, by simp only [hsome, hne, ne_eq, not_false_eq_true, true_and]⟩
  · rw [if_neg (by simpa [Option.isSome_iff_ne_none] using hc), if_neg fun h => hc ⟨h.1, h.2.1⟩, hb2]
    exact ⟨hmem, rfl, rfl⟩

/-- UNC is above 1,000 ns once the time that it takes to grow so far has passed (R88). -/
theorem Clock.grown_late {c : Clock} (h : c.entryTime + (1000 - c.uncEntry) * 13107200000 + 1 ≤ c.gtime) : 1000 < c.grown := by
  refine lt_of_lt_of_le ?_ (Nat.le_max_left _ _)
  omega

/-- A Bellwether in HOLDOVER becomes UNCERTAIN (R87), where no instant holds device time back. -/
theorem execHoldoverToUncertain_of_holdover {s : State} {die : Fin 2} (h : s.clock.bell[die].tstate = .holdover)
    (ht : s.clock.src ≠ die ∨ NoInstants s) : ∃ u, execHoldoverToUncertain die s = .next u ∧ u.clock.bell[die].tstate = .uncertain ∧
      u.mem = s.mem ∧ u.harts = s.harts := by
  have hbell := congrArg Bellwether.tstate (s.modBell_same die fun b => { b with tstate := .uncertain })
  unfold execHoldoverToUncertain
  rw [if_pos h]
  by_cases hs : s.clock.src = die
  · have hlate := State.le_timeTo (ht.resolve_left (not_not.mpr hs)) (s.clock.entryTime + (1000 - s.clock.uncEntry) * 13107200000 + 1)
    have hgrown : 1000 < (s.timeTo (s.clock.entryTime + (1000 - s.clock.uncEntry) * 13107200000 + 1)).clock.grown := Clock.grown_late hlate
    dsimp only
    rw [if_pos hs, if_neg fun hc => Nat.not_le.mpr hgrown (of_decide_eq_true (Bool.and_eq_true_iff.mp hc).2)]
    exact ⟨_, rfl, hbell, rfl, rfl⟩
  · dsimp only
    rw [if_neg hs, if_neg (by simp [hs])]
    exact ⟨_, rfl, hbell, rfl, rfl⟩

/-! ### The statement -/

/-- Settles O58, an equation of each event a clause. -/
theorem gangTrustAndTimeEvents : Obligations.GangTrustAndTimeEvents := by
  intro s p gid t
  refine ⟨fun hp ht => ⟨atReduction_of_ok hp ht s, atReduction_of_ok hp ht s⟩, fun e d he hg hq hd hr hrid hroom => State.reduceArrive_held he hg hq hd hr hrid hroom,
    fun i => rfl, fun job rid => ⟨fun r hr => congrArg _ (State.timeoutReduction_some hr), fun hr => congrArg _ (State.timeoutReduction_none hr)⟩, ?expiry,
    fun hp ht => execSpdmmsg_of_ok hp ht s, ?reassembly, ?tlrec, ?absent, ?present, ?ack, fun e hp ht he => execGangctlStraggler_of_job hp ht he, ?prepared,
    ?instant, ?offers, ?preempted, fun die raw ptp syncs => ⟨fun x rest h => execPtpSync_of_valid h, fun h => execPtpSync_of_none h⟩,
    fun die port a => ⟨fun h => congrArg _ (if_pos h), fun h => execPtpAnnounce_of_domain h⟩, ?pdelay, ?loss,
    fun die h ht => execHoldoverToUncertain_of_holdover h ht⟩
  case expiry =>
    intro job k hk
    exact ⟨_, execJobkeyExpiry_of_key hk, State.eraseKey_same _ _, fun h => State.le_timeTo h _, fun j hj => State.eraseKey_other _ hj⟩
  case reassembly =>
    intro src q
    exact ⟨_, rfl, fun x => by simp [List.mem_filter, imp_iff_not_or]⟩
  case tlrec =>
    intro hz h16 h64 hb he ht
    have hexec := execTlrec_of_ok (s := s) hz h16 h64 hb he ht
    refine ⟨fun hbad => hexec.trans (congrArg _ (if_pos hbad)), fun hbad hctx => ?_, fun hbad hctx st u htake => ?_⟩
    · exact hexec.trans (congrArg _ ((if_neg (by simp [hbad])).trans (if_pos (by simp [hctx]))))
    · refine hexec.trans (congrArg _ ((if_neg (by simp [hbad])).trans ((if_neg (by simp [Option.isSome_iff_ne_none.mp hctx])).trans ?_)))
      rw [htake]
  case absent =>
    intro ht h
    exact execGangctl_of_no_record ht h
  case present =>
    intro ht g h hc
    refine ⟨fun hp => execGangctlArm_of_record hp ht h hc, fun hp ha => ?_, fun hp ha => ?_, fun hp harm hw ha => ?_⟩
    · exact (execGangctlCancel_of_record hp ht h hc).trans (congrArg _ (if_neg (by simp [ha])))
    · exact (execGangctlCancel_of_record hp ht h hc).trans (congrArg _ (if_pos ha))
    · exact (execGangctlGo_of_record hp ht h hc).trans (congrArg _ (if_pos (by simp [harm, hw, ha])))
  case ack =>
    intro hp ht hf
    refine ⟨_, execGangctlAcknowledge_of_running hp ht hf, rfl, fun i => ?_⟩
    simp [State.acked]
  case prepared =>
    intro g h
    show execGangPreparationDone gid t s = _
    rw [execGangPreparationDone, h]
  case instant =>
    intro g0 h
    refine ⟨fun hp => ?_, fun hp hd ha => ?_⟩
    · show execSwitchInstant gid t s = _
      simp [execSwitchInstant, h, hp]
    · have hexec := (execSwitchInstant_of_due h hp hd).trans (congrArg _ (State.instantOf_of_record h ha))
      refine ⟨fun (harm : g0.armed = true) (hw : g0.wave = false) => ?_, fun (harm : g0.armed = true) (hw : g0.wave = true) ho => ?_,
        fun (harm : g0.armed = false) (htold : g0.told = false) => ?_⟩
      · exact hexec.trans (congrArg _ (if_pos (by simp [harm, hw])))
      · exact hexec.trans (congrArg _ ((if_neg (by simp [hw, ho])).trans (if_pos (by simp [harm]))))
      · exact hexec.trans (congrArg _ ((if_neg (by simp [harm])).trans (if_neg (by simp [harm, htold]))))
  case offers =>
    intro o h
    refine ⟨fun hm he => execModeDecision_of_refused h hm he, fun hm he => ⟨_, execModeDecision_of_timed h hm he, fun hr => ?_⟩,
      fun hm ha => execArmAckDeadline_of_missing h hm ha, fun hm ht he ha => execCancelResend_of_one h hm ht he ha,
      fun hm => execGangReoffer_of_cancelled h hm⟩
    rw [hr]
    simp [State.modOffer, State.reach, State.timeTo]
  case preempted =>
    intro g c h
    exact ⟨execStragglerLimit_of_draining h, execWatchdogExpiry_of_compat h, execSaveImageWrite_of_quiet h⟩
  case pdelay =>
    intro die port t1 t2 t3 t4
    have hbell := s.modBell_same die fun b => { b with delays := b.delays.set port (((t4 - t1) - (t3 - t2)) / 2) }
    refine ⟨_, rfl, rfl, ?_, fun q hq => ?_, (congrArg Bellwether.tstate hbell :)⟩
    · refine (congrArg (fun b : Bellwether => b.delays[port]) hbell).trans ?_
      simp
    · refine (congrArg (fun b : Bellwether => b.delays[q]) hbell).trans ?_
      exact Vector.getElem_set_ne port.isLt q.isLt fun h => hq (Fin.ext h.symm)
  case loss =>
    intro die h
    obtain ⟨hmem, hharts, -, hb⟩ := s.unlock_keeps die
    have hbell := (s.unlock die).modBell_same die fun b => { b with synced := 0#12 }
    rw [hb, if_pos h] at hbell
    exact ⟨_, rfl, (congrArg Bellwether.tstate hbell :), (congrArg Bellwether.good hbell :), hmem, hharts⟩

end Sys2Proof.Machine
end

section
/-! SUPPORT. Plain storage (R293 to R322): looking up the ways and the TLBs changes no byte and adds no uncorrectable word, so the bytes that
lie in plain storage are found where they lie, a load gives them, and a store writes them. -/

namespace Sys2Proof.Machine
open Sys2Proof.Claims

/-! ### Ways (R307, R316) -/

/-- A word is uncorrectable in the storage or in a way. -/
def Memory.Tainted (m : Memory) (w : Nat) : Prop := w ∈ m.eccBad ∨ ∃ l ∈ m.ways, w ∈ l.bad

/-- A memory with other ways, that has no further uncorrectable word. -/
structure Memory.Touched (m m' : Memory) : Prop where
  frame : ∃ ways ecc, m' = { m with ways := ways, eccBad := ecc }
  tainted : ∀ w, m'.Tainted w → m.Tainted w

theorem Memory.Touched.refl (m : Memory) : m.Touched m := ⟨⟨_, _, rfl⟩, fun _ h => h⟩

theorem Memory.Touched.trans {m m' m'' : Memory} (h : m.Touched m') (h' : m'.Touched m'') : m.Touched m'' := by
  obtain ⟨⟨a, b, rfl⟩, ht⟩ := h
  obtain ⟨⟨c, d, rfl⟩, ht'⟩ := h'
  exact ⟨⟨_, _, rfl⟩, fun w hw => ht w (ht' w hw)⟩

theorem Memory.Touched.cells {m m' : Memory} (h : m.Touched m') : m'.cells = m.cells := by
  obtain ⟨⟨_, _, rfl⟩, _⟩ := h
  rfl

theorem Memory.Touched.sealed {m m' : Memory} (h : m.Touched m') : m'.sealed = m.sealed := by
  obtain ⟨⟨_, _, rfl⟩, _⟩ := h
  rfl

theorem Memory.Touched.sca {m m' : Memory} (h : m.Touched m') : m'.sca = m.sca := by
  obtain ⟨⟨_, _, rfl⟩, _⟩ := h
  rfl

theorem mem_natInsert {l : List Nat} {k w : Nat} (h : w ∈ natInsert l k) : w = k ∨ w ∈ l := by
  induction l with
  | nil => exact .inl (List.mem_singleton.mp h)
  | cons a as ih =>
    unfold natInsert at h
    split at h
    · exact .inr h
    · split at h
      · exact List.mem_cons.mp h
      · rcases List.mem_cons.mp h with h | h
        · exact .inr (h ▸ List.mem_cons_self)
        · exact (ih h).imp_right (List.mem_cons_of_mem _)

theorem mem_foldl_natInsert {bs : List Nat} {l : List Nat} {w : Nat} (h : w ∈ bs.foldl natInsert l) : w ∈ bs ∨ w ∈ l := by
  induction bs generalizing l with
  | nil => exact .inr h
  | cons b bs ih =>
    rcases ih h with h | h
    · exact .inl (List.mem_cons_of_mem _ h)
    · exact (mem_natInsert h).imp_left fun he : w = b => he ▸ List.mem_cons_self

/-- A line that leaves its way takes its uncorrectable words along. -/
theorem Memory.evict_touched (m : Memory) {l : WayLine} (hl : l ∈ m.ways) : m.Touched (m.evict l) := by
  have hways {w : Nat} {ls : List WayLine} (hw : ∃ x ∈ ls.filter fun x => x.line != l.line, w ∈ x.bad) : ∃ x ∈ ls, w ∈ x.bad := by
    obtain ⟨x, hx, hw⟩ := hw
    exact ⟨x, List.mem_of_mem_filter hx, hw⟩
  unfold Memory.evict
  by_cases hd : l.dirty = true
  · rw [if_pos hd]
    refine ⟨⟨_, _, rfl⟩, fun w hw => ?_⟩
    rcases hw with hw | hw
    · rcases mem_foldl_natInsert hw with hw | hw
      · exact .inr ⟨l, hl, hw⟩
      · exact .inl (List.mem_of_mem_filter hw)
    · exact .inr (hways hw)
  · rw [if_neg hd]
    exact ⟨⟨_, _, rfl⟩, fun w hw => hw.imp_right hways⟩

/-- A line put into a way with uncorrectable words that it had. -/
theorem Memory.Touched.fill {m m' : Memory} (h : m.Touched m') {l : WayLine} (hl : ∀ w ∈ l.bad, m.Tainted w) :
    m.Touched { m' with ways := l :: m'.ways } := by
  obtain ⟨⟨a, b, rfl⟩, ht⟩ := h
  refine ⟨⟨_, _, rfl⟩, fun w hw => ?_⟩
  rcases hw with hw | ⟨x, hx, hw⟩
  · exact ht w (.inl hw)
  · rcases List.mem_cons.mp hx with rfl | hx
    · exact hl w hw
    · exact ht w (.inr ⟨x, hx, hw⟩)

theorem Memory.tainted_of_badOf {m : Memory} {line w : Nat} (h : w ∈ m.badOf line) : m.Tainted w := .inl (List.mem_of_mem_filter h)

theorem Memory.fillWay_touched (m : Memory) (banks : List Nat) (line : Nat) (dirty : Bool) {bad : List Nat} (hb : ∀ w ∈ bad, m.Tainted w) :
    m.Touched (m.fillWay banks line dirty bad) := by
  unfold Memory.fillWay
  dsimp only
  split
  · exact (Memory.Touched.refl m).fill hb
  · split
    · rename_i l hl
      exact (m.evict_touched (List.mem_of_mem_filter (List.mem_of_getLast? hl))).fill hb
    · exact .refl m

theorem Memory.fillAny_touched (m : Memory) (banks : List Nat) (line : Nat) :
    m.Touched (if banks.isEmpty then m else m.fillWay banks line false (m.badOf line)) := by
  split
  · exact .refl m
  · exact m.fillWay_touched _ _ _ fun _ => Memory.tainted_of_badOf

/-- The lines of the ways without one of them. -/
theorem Memory.Touched.without (m : Memory) (line : Nat) : m.Touched { m with ways := m.ways.filter (·.line != line) } :=
  ⟨⟨_, _, rfl⟩, fun _ hw => hw.imp_right fun ⟨x, hx, hw⟩ => ⟨x, List.mem_of_mem_filter hx, hw⟩⟩

theorem Memory.readWay_touched (m : Memory) (pointer : Bool) (line : Nat) : m.Touched (m.readWay pointer line) := by
  unfold Memory.readWay
  split
  · rename_i l hl
    refine (Memory.Touched.without m line).fill fun w hw => ?_
    split at hw
    · exact .inr ⟨l, List.mem_of_find?_eq_some hl, hw⟩
    · exact Memory.tainted_of_badOf hw
  · exact m.fillAny_touched _ line

theorem Memory.writeWay_touched (m : Memory) (whole : Bool) (line : Nat) : m.Touched (m.writeWay whole line) := by
  have hout := Memory.Touched.without m line
  unfold Memory.writeWay
  dsimp only
  split
  · rename_i l hl
    split
    · exact hout.fill fun w hw => .inr ⟨l, List.mem_of_find?_eq_some hl, hw⟩
    · split
      · exact hout
      · exact hout.trans (Memory.fillWay_touched _ _ _ _ fun _ => Memory.tainted_of_badOf)
  · split
    · exact .refl m
    · refine m.fillWay_touched _ _ _ fun w hw => ?_
      split at hw
      · cases hw
      · exact Memory.tainted_of_badOf hw

theorem Memory.touchRead_touched (m : Memory) (pointer : Bool) (k n : Nat) : m.Touched (m.touchRead pointer k n) := by
  unfold Memory.touchRead
  split
  · exact List.foldlRecOn (motive := (m.Touched ·)) _ _ (.refl m) fun b hb l _ => hb.trans (b.readWay_touched pointer l)
  · exact .refl m

theorem Memory.touchWrite_touched (m : Memory) (k n : Nat) : m.Touched (m.touchWrite k n) := by
  unfold Memory.touchWrite
  split
  · exact List.foldlRecOn (motive := (m.Touched ·)) _ _ (.refl m) fun b hb l _ => hb.trans (b.writeWay_touched _ l)
  · exact .refl m

/-! ### Words that are sound (R316, R317) -/

theorem sound_iff {s : State} {k n : Nat} : Sound s k n ↔ ∀ w ∈ wordsOf k n, ¬ s.mem.Tainted w :=
  forall₂_congr fun w _ => by simp [Memory.Tainted]

theorem eccHit_none {m : Memory} {k n : Nat} (h : ∀ w ∈ wordsOf k n, ¬ m.Tainted w) : eccHit m k n = none := by
  refine List.find?_eq_none.mpr fun w hw => ?_
  have hw := h w hw
  unfold Memory.wordBad
  split
  · rename_i l hl
    have hbad : w ∉ l.bad := fun hb => hw (.inr ⟨l, List.mem_of_find?_eq_some hl, hb⟩)
    simp [hbad]
  · simpa using fun hb => hw (.inl hb)

theorem Memory.Touched.rawUnit {m m' : Memory} (h : m.Touched m') (k n : Nat) : m'.rawUnit k n = m.rawUnit k n := by
  obtain ⟨⟨_, _, rfl⟩, _⟩ := h
  rfl

theorem Memory.rawUnit_open {m : Memory} (h : m.sealed = []) (k n : Nat) : m.rawUnit k n = m.peek k n := by
  unfold Memory.rawUnit
  simp [h, Memory.peek]

/-- A walk reads the entry that it stands before. -/
theorem head_mem_walkFrom (m : Memory) (enc surv : Bool) (asid : BitVec 16) (va lvl pa : Nat) :
    pa + 8 * (va / 2 ^ (12 + 9 * lvl) % 512) ∈ (walkFrom m enc surv asid va lvl pa).2 := by
  unfold walkFrom
  dsimp only
  repeat' split
  all_goals exact List.mem_cons_self

/-- A walk through sound table entries is the same once ways have been looked up. -/
theorem walkFrom_touched {m m' : Memory} (hraw : ∀ k n, m'.rawUnit k n = m.rawUnit k n) (ht : ∀ w, m'.Tainted w → m.Tainted w)
    (enc surv : Bool) (asid : BitVec 16) (va : Nat) : ∀ (lvl pa : Nat),
    (∀ q ∈ (walkFrom m enc surv asid va lvl pa).2, ∀ w ∈ wordsOf q 8, ¬ m.Tainted w) →
    walkFrom m' enc surv asid va lvl pa = walkFrom m enc surv asid va lvl pa := by
  intro lvl
  induction lvl with
  | zero =>
    intro pa hs
    have hk := hs _ (head_mem_walkFrom m enc surv asid va 0 pa)
    have hk' := fun w hw hw' => hk w hw (ht w hw')
    unfold walkFrom
    simp only [eccHit_none hk, eccHit_none hk', hraw]
  | succ l ih =>
    intro pa hs
    have hk := hs _ (head_mem_walkFrom m enc surv asid va (l + 1) pa)
    have hk' := fun w hw hw' => hk w hw (ht w hw')
    unfold walkFrom at hs ⊢
    simp only [eccHit_none hk, eccHit_none hk', hraw, Option.isSome_none, Bool.false_eq_true, if_false] at hs ⊢
    split
    · rfl
    · rename_i hok
      rw [if_neg hok] at hs
      split
      · rename_i htable
        rw [if_pos htable] at hs
        rw [ih _ fun q hq => hs q (List.mem_cons_of_mem _ hq)]
      · rfl

/-! ### Translations (R298 to R303) -/

/-- The tables translate every address of a page by its entry. -/
def State.Translates (s : State) (n : Nat) (e : TlbEntry) : Prop := ∀ v, e.va ≤ v → v < e.va + e.size → s.walk n v = .page e

/-- A machine that has looked up ways and kept translations of context `n`: no byte differs, no further word is uncorrectable, and a TLB holds
nothing but what it held and what the tables give. -/
structure State.Touched (n : Nat) (s t : State) : Prop where
  frame : ∃ m tlb, t = { s with mem := m, core := { s.core with tlb := tlb } }
  mem : ∃ dt, { s.mem with dieTlb := dt }.Touched t.mem
  hits : ∀ asid v, ∀ f ∈ t.tlbHits asid v, f ∈ s.tlbHits asid v ∨ s.Translates n f

theorem State.Touched.refl (n : Nat) (s : State) : s.Touched n s := ⟨⟨_, _, rfl⟩, ⟨_, .refl _⟩, fun _ _ _ h => .inl h⟩

/-- What looks up ways does to a memory stands behind what was looked up before. -/
theorem State.Touched.lookWays {n : Nat} {s t : State} (h : s.Touched n t) {m : Memory} (hm : t.mem.Touched m) : s.Touched n { t with mem := m } := by
  obtain ⟨⟨_, _, rfl⟩, ⟨dt, hmem⟩, hhits⟩ := h
  obtain ⟨ways, ecc, rfl⟩ := hm.frame
  exact ⟨⟨_, _, rfl⟩, ⟨dt, hmem.trans hm⟩, hhits⟩

theorem TlbSection.mem_put {t : TlbSection} {e f : TlbEntry} (h : f ∈ (t.put e).entries) : f = e ∨ f ∈ t.entries := by
  simp only [TlbSection.entries, TlbSection.put, List.mem_filterMap, id_eq, exists_eq_right, Vector.mem_toList_iff] at h ⊢
  rcases Vector.mem_or_eq_of_mem_set h with h | h
  · exact .inr h
  · exact .inl (Option.some.inj h)

theorem Core.mem_tlbHits_put {c : Core} {i : Fin 4} {e f : TlbEntry} {asid : BitVec 16} {v : Nat}
    (h : f ∈ { c with tlb := c.tlb.set i (c.tlb[i].put e) }.tlbHits asid v) : f = e ∨ f ∈ c.tlbHits asid v := by
  simp only [Core.tlbHits, List.mem_filter, List.mem_flatMap, Vector.mem_toList_iff] at h ⊢
  obtain ⟨⟨t, ht, hf⟩, hh⟩ := h
  rcases Vector.mem_or_eq_of_mem_set ht with ht | rfl
  · exact .inr ⟨⟨t, ht, hf⟩, hh⟩
  · exact (TlbSection.mem_put hf).imp_right fun hf => ⟨⟨_, Vector.getElem_mem _, hf⟩, hh⟩

/-- TLBs with one translation more, of those that the tables give. -/
theorem State.Touched.keep {n : Nat} {s t : State} (h : s.Touched n t) {e : TlbEntry} (he : s.Translates n e) {dt : List TlbEntry}
    {tlb : Vector TlbSection 4} (hd : ∀ f ∈ dt, f = e ∨ f ∈ t.mem.dieTlb)
    (hc : ∀ asid v, ∀ f ∈ { t.core with tlb := tlb }.tlbHits asid v, f = e ∨ f ∈ t.core.tlbHits asid v) :
    s.Touched n { t with mem := { t.mem with dieTlb := dt }, core := { t.core with tlb := tlb } } := by
  obtain ⟨⟨_, _, rfl⟩, ⟨d, hmem⟩, hhits⟩ := h
  refine ⟨⟨_, _, rfl⟩, ⟨dt, ?_⟩, fun asid v f hf => ?_⟩
  · obtain ⟨⟨ways, ecc, hframe⟩, htaint⟩ := hmem
    exact ⟨⟨ways, ecc, by rw [hframe]⟩, htaint⟩
  · rcases List.mem_append.mp hf with hf | hf
    · rcases hc asid v f hf with rfl | hf
      · exact .inr he
      · exact hhits asid v f (List.mem_append_left _ hf)
    · obtain ⟨hf, hh⟩ := List.mem_filter.mp hf
      rcases hd f hf with rfl | hf
      · exact .inr he
      · exact hhits asid v f (List.mem_append_right _ (List.mem_filter.mpr ⟨hf, hh⟩))

/-- A translation that the tables give is kept. -/
theorem State.Touched.fillTlb {n : Nat} {s t : State} (h : s.Touched n t) {e : TlbEntry} (he : s.Translates n e) (w : Who) (path : AccPath) :
    s.Touched n (t.fillTlb w path e) := by
  unfold State.fillTlb
  split
  · exact h
  · dsimp only
    generalize (if t.mem.dieTlb.any e.same then [] else (t.walkAll w.ctxid e.va).2) = reads
    have hreads : t.mem.Touched (reads.foldl (fun m k => m.touchRead false k 8) t.mem) :=
      List.foldlRecOn (motive := (t.mem.Touched ·)) _ _ (.refl _) fun b hb k _ => hb.trans (b.touchRead_touched false k 8)
    have hwalk := h.lookWays hreads
    obtain ⟨ways, ecc, hm⟩ := hreads.frame
    generalize reads.foldl (fun m k => m.touchRead false k 8) t.mem = m at hwalk hm
    subst hm
    have hd : ∀ f ∈ (e :: t.mem.dieTlb.filter fun f => !e.same f).take 8192, f = e ∨ f ∈ t.mem.dieTlb := fun f hf =>
      (List.mem_cons.mp (List.mem_of_mem_take hf)).imp_right List.mem_of_mem_filter
    split
    · exact hwalk.keep he hd fun _ _ _ => Core.mem_tlbHits_put
    · exact hwalk.keep he hd fun _ _ _ => .inr

/-! ### Bytes in plain storage (R293 to R303) -/

/-- `PlainAt` as the accesses of a context meet it, whichever hart makes them, in either of its cases. -/
inductive State.Plain (s : State) (ctx : Nat) (lvl : Level) (va n : Nat) (kind : AccKind) (path : AccPath) : Nat → Prop
  | spad (b : Bank) (hlo : spadBase ≤ va) (hhi : va < spadBase + 2 ^ 25) (hk : kind ≠ .fetch) (hb : s.bank s.die ((va - spadBase) / 2 ^ 18) = some b)
      (hbusy : b.busy = false) (hcur : b.cur = .spad) : State.Plain s ctx lvl va n kind path (spadKey s.die (va - spadBase))
  | page (c : Context) (e : TlbEntry) (hva : va < 2 ^ 48) (hc : s.ctx ctx = some c) (hlo : e.va ≤ va) (hhi : va < e.va + e.size) (henc : e.enc = false)
      (hp : e.p = false) (hallow : s.pageAllows e lvl kind path va n = true) (hend : e.pa + (va - e.va) + n ≤ hbmEnd) (hwalk : s.Translates ctx e)
      (hhit : ∀ v, e.va ≤ v → v < e.va + e.size → ∀ x ∈ s.tlbHits c.asid v, x = e)
      (hsound : ∀ v, e.va ≤ v → v < e.va + e.size → ∀ q ∈ (s.walkAll ctx v).2, Sound s q 8) : State.Plain s ctx lvl va n kind path (e.pa + (va - e.va))

theorem plain_of_plainAt {s : State} {hs : Vector Hart 4} {i : Fin 4} {lvl : Level} {D : Nat → Prop} {va n k : Nat} {kind : AccKind} {path : AccPath}
    (h : PlainAt { s with harts := hs, cur := i } lvl D va n kind path k) : 0 < n ∧ va % 4096 + n ≤ 4096 ∧ s.Plain hs[i].ctxid.toNat lvl va n kind path k := by
  obtain ⟨hn, hpage, ⟨hlo, hhi, hk, hkey, b, hb, hbusy, hcur⟩ | ⟨hva, c, e, hc, hlo, hhi, henc, hp, hallow, hkey, hend, hwalk⟩⟩ := h <;> rw [hkey]
  · exact ⟨hn, hpage, .spad b hlo hhi hk hb hbusy hcur⟩
  · exact ⟨hn, hpage, .page c e hva hc hlo hhi henc hp hallow (hkey ▸ hend) (fun v h1 h2 => (hwalk v h1 h2).1) (fun v h1 h2 => (hwalk v h1 h2).2.1)
      fun v h1 h2 q hq => ((hwalk v h1 h2).2.2 q hq).1⟩

theorem pagePieces_one {va n : Nat} (hn : 0 < n) (h : va % 4096 + n ≤ 4096) : pagePieces va n = [(va, n)] := by
  show pieces 4096 (n / 4096 + 1 + 1) va n = _
  rw [pieces, if_neg (Nat.pos_iff_ne_zero.mp hn)]
  dsimp only
  rw [if_pos (by omega)]

section
variable {ctx : Nat} {s t : State} (h : s.Touched ctx t)
include h

theorem State.Touched.ctx_eq (n : Nat) : t.ctx n = s.ctx n := by
  obtain ⟨⟨_, _, rfl⟩, _, _⟩ := h
  rfl

/-- A walk through sound entries is what it was. -/
theorem State.Touched.walkAll_eq {n v : Nat} (hs : ∀ q ∈ (s.walkAll n v).2, Sound s q 8) : t.walkAll n v = s.walkAll n v := by
  have hctx := h.ctx_eq n
  obtain ⟨⟨m, _, rfl⟩, ⟨dt, hmem⟩, _⟩ := h
  unfold State.walkAll at hs ⊢
  rw [hctx]
  cases hc : s.ctx n with
  | none => rfl
  | some c =>
    rw [hc] at hs
    by_cases hv : c.valid = true
    · simp only [hv, if_true] at hs ⊢
      exact walkFrom_touched hmem.rawUnit hmem.tainted _ _ _ _ _ _ fun q hq => sound_iff.mp (hs q hq)
    · simp only [hv, Bool.false_eq_true, if_false]

theorem State.Touched.walk_eq {n v : Nat} (hs : ∀ q ∈ (s.walkAll n v).2, Sound s q 8) : t.walk n v = s.walk n v := by
  rw [State.walk, h.walkAll_eq hs]
  rfl

/-- A translation that every TLB agrees with is the one that an access uses. -/
theorem State.Touched.lookup_page {n v : Nat} {c : Context} {e : TlbEntry} (hc : s.ctx n = some c) (hw : s.walk n v = .page e)
    (hs : ∀ q ∈ (s.walkAll n v).2, Sound s q 8) (hhit : ∀ x ∈ t.tlbHits c.asid v, x = e) : t.lookup n v = .page e := by
  have hwalk : t.walk n v = .page e := (h.walk_eq hs).trans hw
  have hsame (x : TlbEntry) : x.same x = true := by simp [TlbEntry.same]
  have hnone : ((t.tlbHits c.asid v).filter fun x => !x.same e) = [] :=
    List.filter_eq_nil_iff.mpr fun x hx => by simp [hhit x hx, hsame]
  simp only [State.lookup, h.ctx_eq, hc, hwalk, hnone]

end

/-- The TLBs translate an address of a page of plain storage as its tables do, also those that have kept translations since. -/
theorem State.Touched.hit_eq {ctx v : Nat} {s t : State} (h : s.Touched ctx t) {c : Context} {e : TlbEntry} (hw : s.walk ctx v = .page e)
    (hhit : ∀ x ∈ s.tlbHits c.asid v, x = e) : ∀ x ∈ t.tlbHits c.asid v, x = e := by
  intro x hx
  rcases h.hits _ _ x hx with h1 | h1
  · exact hhit x h1
  · have hin : x.hits c.asid v = true := by
      rcases List.mem_append.mp hx with hx | hx
      · exact (List.mem_filter.mp hx).2
      · exact (List.mem_filter.mp hx).2
    simp only [TlbEntry.hits, Bool.and_eq_true, decide_eq_true_eq] at hin
    obtain ⟨⟨_, hlo⟩, hhi⟩ := hin
    have hpage := (h1 v hlo hhi).symm.trans hw
    exact WalkResult.page.inj hpage

theorem State.Touched.spad_bank {ctx : Nat} {s t : State} (h : s.Touched ctx t) (i : Nat) : t.die = s.die ∧ t.bank s.die i = s.bank s.die i := by
  obtain ⟨⟨m, _, rfl⟩, ⟨dt, ⟨ways, ecc, hm⟩, _⟩, _⟩ := h
  have hm : m = _ := hm
  subst hm
  exact ⟨rfl, rfl⟩

/-- Without a protection group the conditions on a page ask nothing else of the machine (R302). -/
theorem State.pageAllows_unprotected (s t : State) {e : TlbEntry} (hp : e.p = false) (lvl : Level) (kind : AccKind) (path : AccPath) (va n : Nat) :
    t.pageAllows e lvl kind path va n = s.pageAllows e lvl kind path va n := by
  simp [State.pageAllows, hp]

theorem spadKey_far (die off : Nat) : hbmEnd ≤ spadKey die off := by
  unfold hbmEnd spadKey
  omega

/-- A place of plain storage. -/
inductive Loc.Plain (k : Nat) : Loc → Prop
  | spad (h : hbmEnd ≤ k) : Loc.Plain k (.spad k)
  | hbm (g : Nat) : Loc.Plain k (.hbm k false false g)

/-- Bytes of plain storage are found where they lie. -/
theorem State.Plain.locateAll {ctx : Nat} {s t : State} {lvl : Level} {va n k : Nat} {kind : AccKind} {path : AccPath} {w : Who}
    (hpl : s.Plain ctx lvl va n kind path k) (h : s.Touched ctx t) (hn : 0 < n) (hpage : va % 4096 + n ≤ 4096) (hw : w.ctxid = ctx) (hl : w.level = lvl) :
    ∃ l u, t.locateAll w kind path n (if 2 ^ 63 ≤ va then [(va, n)] else pagePieces va n) = .ok ([(l, va, n)], u) ∧ l.Plain k ∧ s.Touched ctx u := by
  have hone (l : Loc) (u : State) (hva : va < 2 ^ 63) (hloc : t.locate w va n kind path = .ok (l, u)) :
      t.locateAll w kind path n (if 2 ^ 63 ≤ va then [(va, n)] else pagePieces va n) = .ok ([(l, va, n)], u) := by
    rw [if_neg (Nat.not_le.mpr hva), pagePieces_one hn hpage]
    simp only [State.locateAll, ite_self, hloc]
  cases hpl with
  | spad b hlo hhi hk hb hbusy hcur =>
    obtain ⟨hdie, hbank⟩ := h.spad_bank ((va - spadBase) / 2 ^ 18)
    have hva : va < 2 ^ 63 := by unfold spadBase at hhi; omega
    refine ⟨_, t, hone (.spad (spadKey s.die (va - spadBase))) t hva ?_, .spad (spadKey_far _ _), h⟩
    have hkind : (kind != .fetch) = true := by simpa using hk
    have hloc : t.spadLoc va n kind path = .ok (.spad (spadKey s.die (va - spadBase))) := by
      simp only [State.spadLoc, hbank, hb, hbusy, hcur, hkind, hdie, Bool.false_eq_true, if_false, decide_true, Bool.and_self, if_true]
    simp only [State.locate, Nat.not_le.mpr hva, if_false, hlo, hhi, decide_true, Bool.and_self, if_true, hloc]
    rfl
  | page c e hva hc hlo hhi henc hp hallow hend hwalk hhit hsound =>
    have hva63 : va < 2 ^ 63 := Nat.lt_trans hva (by decide)
    have hspad : ¬ spadBase ≤ va := by unfold spadBase; omega
    have hpa : e.pa + (va - e.va) < hbmEnd := by omega
    have hlook : t.lookup w.ctxid va = .page e := by
      rw [hw]
      exact h.lookup_page hc (hwalk va hlo hhi) (hsound va hlo hhi) (h.hit_eq (hwalk va hlo hhi) (hhit va hlo hhi))
    refine ⟨_, _, hone (.hbm (e.pa + (va - e.va)) e.enc e.p e.pgrp.toNat) (t.fillTlb w path e) hva63 ?_,
      by rw [henc, hp]; exact .hbm _, h.fillTlb hwalk w path⟩
    have hcross : (t.fillTlb w path e).crossDelta e kind va = false := by simp [State.crossDelta, hp]
    have hallow' : (t.fillTlb w path e).pageAllows e w.level kind path va n = true := by
      rw [State.pageAllows_unprotected s _ hp, hl]
      exact hallow
    simp only [State.locate, Nat.not_le.mpr hva63, if_false, hspad, decide_false, Bool.false_and, Bool.false_eq_true, hva, if_true, hlook, hcross,
      hallow', hpa]

theorem State.Touched.cells_eq {ctx : Nat} {s t : State} (h : s.Touched ctx t) : t.mem.cells = s.mem.cells := by
  obtain ⟨dt, hm⟩ := h.mem
  exact hm.cells

theorem State.Touched.sca_eq {ctx : Nat} {s t : State} (h : s.Touched ctx t) : t.mem.sca = s.mem.sca := by
  obtain ⟨dt, hm⟩ := h.mem
  exact hm.sca

theorem State.Touched.sealed_eq {ctx : Nat} {s t : State} (h : s.Touched ctx t) : t.mem.sealed = s.mem.sealed := by
  obtain ⟨dt, hm⟩ := h.mem
  exact hm.sealed

/-- Nothing is opened where no unit is sealed. -/
theorem Memory.openUnits_plain {m : Memory} (hs : m.sealed = []) {enc : Bool} {k : Nat} (hk : enc = true → hbmEnd ≤ k) (write : Bool) (key n : Nat) :
    m.openUnits enc write key k n = m := by
  unfold Memory.openUnits
  refine if_pos ?_
  cases enc with
  | false => simp [hs]
  | true => simp [hk rfl]

theorem State.applySca_none {s : State} (h : s.mem.sca = []) (w : Who) (k n : Nat) : s.applySca w k n = s := by
  simp [State.applySca, h]

/-- A read of sound bytes at the storage point gives them. -/
theorem State.Touched.readKey {ctx : Nat} {s t : State} (h : s.Touched ctx t) (hsca : s.mem.sca = []) (hseal : s.mem.sealed = []) {k n : Nat}
    (hs : Sound s k n) {enc : Bool} (hk : enc = true → hbmEnd ≤ k) (w : Who) (pointer : Bool) :
    ∃ u, t.readKey w enc k n pointer = (some (s.mem.peek k n), u) ∧ s.Touched ctx u := by
  have hsca' := h.sca_eq.trans hsca
  have htouch := t.mem.touchRead_touched pointer k n
  have hu := h.lookWays htouch
  have hseal' : (t.mem.touchRead pointer k n).sealed = [] := htouch.sealed.trans (h.sealed_eq.trans hseal)
  have hecc : eccHit (t.mem.touchRead pointer k n) k n = none := by
    obtain ⟨dt, hm⟩ := h.mem
    exact eccHit_none fun w hw ht => sound_iff.mp hs w hw (hm.tainted w (htouch.tainted w ht))
  have hpeek : (t.mem.touchRead pointer k n).peek k n = s.mem.peek k n := by rw [Memory.peek, htouch.cells, h.cells_eq, Memory.peek]
  refine ⟨_, ?_, hu⟩
  simp only [State.readKey, State.applySca_none hsca', Memory.openUnits_plain hseal' hk, hecc, Option.isSome_none, Bool.false_eq_true, if_false,
    Memory.rawUnit_open hseal', hpeek, ite_self]

/-- A load of sound bytes of plain storage, on another path than the scalar one, gives them. -/
theorem State.Plain.load {ctx : Nat} {s t : State} {lvl : Level} {va n k : Nat} {path : AccPath} {w : Who}
    (hpl : s.Plain ctx lvl va n .load path k) (h : s.Touched ctx t) (hsca : s.mem.sca = []) (hseal : s.mem.sealed = []) (hs : Sound s k n)
    (hn : 0 < n) (hpage : va % 4096 + n ≤ 4096) (hw : w.ctxid = ctx) (hl : w.level = lvl) (hpath : path ≠ .scalar) :
    ∃ u, t.load w va n path = .ok (s.mem.peek k n) u ∧ s.Touched ctx u := by
  obtain ⟨l, u, hloc, hplain, hu⟩ := hpl.locateAll h hn hpage hw hl
  cases hplain with
  | spad hfar =>
    obtain ⟨v, hread, hv⟩ := hu.readKey hsca hseal hs (enc := true) (fun _ => hfar) w false
    refine ⟨v, ?_, hv⟩
    rw [State.load, hloc]
    simp [Loc.isBusy, hpath, State.readLocs, hread]
  | hbm g =>
    obtain ⟨v, hread, hv⟩ := hu.readKey hsca hseal hs (enc := false) (fun h => by cases h) w (path = .pointer)
    refine ⟨v, ?_, hv⟩
    rw [State.load, hloc]
    simp [Loc.isBusy, hpath, State.readLocs, hread]

/-! ### Stores (R327, R341) -/

/-- Bytes written in a canonical memory, in the words of the statements. -/
theorem bytesWritten_of_cells {s t : State} {k : Nat} {bs : List Byte} (hwf : s.mem.wf = true) (h : t.mem.cells = cellWrite s.mem.cells k bs) :
    BytesWritten s t k bs := by
  refine ⟨fun i hi => ?_, fun a ha => ?_⟩
  · rw [byteAt, h, cellGet_cellWrite_inside bs hwf hi]
  · rw [byteAt, h, cellGet_cellWrite_outside bs hwf ha, byteAt]

/-- What a store that has performed leaves: its bytes, no reservation on their lines, and every hart but for its reservation as it was. -/
structure Stored (s t : State) (k : Nat) (bs : List Byte) : Prop where
  cells : t.mem.cells = cellWrite s.mem.cells k bs
  harts : t.harts = (s.loseReservations k bs.length).harts
  cur : t.cur = s.cur

theorem State.touchDcache_frame (s : State) (k : Nat) (bs : List Byte) : ∃ d, s.touchDcache k bs = { s with core := { s.core with dcache := d } } := by
  unfold State.touchDcache
  split
  · exact ⟨_, rfl⟩
  · exact ⟨_, rfl⟩

theorem State.pokeKey_stored (s : State) (own : Bool) (k : Nat) (bs : List Byte) : Stored s (s.pokeKey own k bs) k bs := by
  have hcells : ((s.mem.touchWrite k bs.length).poke k bs).cells = cellWrite s.mem.cells k bs :=
    congrArg (cellWrite · k bs) (s.mem.touchWrite_touched k bs.length).cells
  unfold State.pokeKey
  dsimp only
  split
  · obtain ⟨d, hd⟩ := State.touchDcache_frame (State.loseReservations { s with mem := (s.mem.touchWrite k bs.length).poke k bs } k bs.length) k bs
    rw [hd]
    exact ⟨hcells, rfl, rfl⟩
  · exact ⟨hcells, rfl, rfl⟩

/-- A store behind translations and looked-up ways is one of the machine before them. -/
theorem State.Touched.stored {ctx : Nat} {s u t : State} (h : s.Touched ctx u) {k : Nat} {bs : List Byte} (hst : Stored u t k bs) : Stored s t k bs := by
  have hcells := h.cells_eq
  obtain ⟨⟨_, _, rfl⟩, _, _⟩ := h
  exact ⟨by rw [hst.cells, hcells], hst.harts, hst.cur⟩

/-- What a store to a place of plain storage comes to: no parity is at stake, and the storage takes the bytes. -/
theorem State.writePlaces_plain {u : State} {l : Loc} {k n : Nat} (hl : l.Plain k) (hsca : u.mem.sca = []) (hseal : u.mem.sealed = []) (w : Who) (va : Nat)
    {bs : List Byte} (hn : n = bs.length) : u.badWrite w [(l, va, n)] = none ∧ u.writePlaces w [(l, va, n)] bs = u.pokeKey w.ownCore k bs := by
  have htake : bs.take n = bs := by rw [hn, List.take_length]
  cases hl with
  | spad hfar =>
    refine ⟨by simp [State.badWrite], ?_⟩
    have hplace : u.writePlaces w [(.spad k, va, n)] bs = (u.applySca w k n).pokeKey w.ownCore k (bs.take n) := by
      unfold State.writePlaces State.writePlaces
      rfl
    rw [hplace, State.applySca_none hsca, htake]
  | hbm g =>
    have hopen := Memory.openUnits_plain hseal (enc := false) (k := k) (fun h => by cases h) true (u.encKey w.ctxid) bs.length
    refine ⟨by simp [State.badWrite], ?_⟩
    have hplace : u.writePlaces w [(.hbm k false false g, va, n)] bs = (u.writeKey w false false g va k (bs.take n)).getD u := by
      unfold State.writePlaces State.writePlaces
      rfl
    rw [hplace, htake, State.writeKey, State.applySca_none hsca, State.writeNow, hopen]
    rfl

section
variable {s : State} {ctx : Nat} {lvl : Level} {va k : Nat} {bs : List Byte} {path : AccPath} {w : Who} (hpl : s.Plain ctx lvl va bs.length .store path k)
  (hsca : s.mem.sca = []) (hseal : s.mem.sealed = []) (hn : 0 < bs.length) (hpage : va % 4096 + bs.length ≤ 4096) (hw : w.ctxid = ctx) (hl : w.level = lvl)
include hpl hsca hseal hn hpage hw hl

/-- A store to plain storage performs. -/
theorem State.Plain.store : ∃ u, s.store w va bs path = .ok () u ∧ Stored s u k bs := by
  obtain ⟨l, u, hloc, hplain, hu⟩ := hpl.locateAll (.refl ctx s) hn hpage hw hl
  obtain ⟨hbad, hplaces⟩ := State.writePlaces_plain hplain (hu.sca_eq.trans hsca) (hu.sealed_eq.trans hseal) w va (bs := bs) rfl
  refine ⟨u.pokeKey w.ownCore k bs, ?_, hu.stored (u.pokeKey_stored _ _ _)⟩
  rw [State.store, hloc]
  cases hplain with
  | spad hfar => simp [Loc.isBusy, State.writeLocs, hbad, hplaces]
  | hbm g => simp [Loc.isBusy, State.writeLocs, hbad, hplaces]

end

/-- So does a write of the device's own. -/
theorem State.Plain.deviceWrite {s : State} {ctx : Nat} {lvl : Level} {va k : Nat} {bs : List Byte} {w : Who}
    (hpl : s.Plain ctx lvl va bs.length .store .engine k)
    (hsca : s.mem.sca = []) (hseal : s.mem.sealed = []) (hn : 0 < bs.length) (hpage : va % 4096 + bs.length ≤ 4096) (hva : va < 2 ^ 63) (hw : w.ctxid = ctx)
    (hl : w.level = lvl) : ∃ u, s.deviceWrite w va bs = some u ∧ Stored s u k bs := by
  obtain ⟨l, u, hloc, hplain, hu⟩ := hpl.locateAll (.refl ctx s) hn hpage hw hl
  obtain ⟨hbad, hplaces⟩ := State.writePlaces_plain hplain (hu.sca_eq.trans hsca) (hu.sealed_eq.trans hseal) w va (bs := bs) rfl
  rw [if_neg (Nat.not_le.mpr hva)] at hloc
  have hbusy : l.isBusy = false := by cases hplain <;> rfl
  refine ⟨u.pokeKey w.ownCore k bs, ?_, hu.stored (u.pokeKey_stored _ _ _)⟩
  rw [State.deviceWrite, State.deviceStore, if_neg (Nat.not_le.mpr hva), hloc]
  simp [hbusy, hbad, hplaces]

/-- A place of plain storage lies below the fabric half of the address space. -/
theorem State.Plain.va_lt {s : State} {ctx : Nat} {lvl : Level} {va n k : Nat} {kind : AccKind} {path : AccPath}
    (h : s.Plain ctx lvl va n kind path k) : va < 2 ^ 63 := by
  cases h with
  | spad b hlo hhi hk hb hbusy hcur => unfold spadBase at hhi; omega
  | page c e hva hc hlo hhi henc hp hallow hend hwalk hhit hsound => exact Nat.lt_trans hva (by decide)

theorem Stored.bytesWritten {s t : State} {k : Nat} {bs : List Byte} (h : Stored s t k bs) (hwf : s.mem.wf = true) : BytesWritten s t k bs :=
  bytesWritten_of_cells hwf h.cells

/-- A hart that loses its reservation on one of the lines of some bytes. -/
def Hart.unreserved (k n : Nat) (h : Hart) : Hart :=
  match h.resv with
  | some l => if (linesOf k n).contains l then { h with resv := none } else h
  | none => h

theorem Stored.hart_eq {s t : State} {k : Nat} {bs : List Byte} (h : Stored s t k bs) (j : Fin 4) : t.harts[j] = s.harts[j].unreserved k bs.length := by
  rw [h.harts]
  exact Vector.getElem_map _ _

/-- Reservations on the lines of a store are lost, whoever holds them (R341). -/
theorem Stored.resv_none {s t : State} {k : Nat} {bs : List Byte} (h : Stored s t k bs) {j : Fin 4} {l : Nat} (hj : s.harts[j].resv = some l)
    (hl : l ∈ linesOf k bs.length) : t.harts[j].resv = none := by
  rw [h.hart_eq, Hart.unreserved, hj]
  exact congrArg Hart.resv (if_pos (by simpa using hl))

/-- Beside its reservation a hart stands through a store. -/
theorem Stored.hart {s t : State} {k : Nat} {bs : List Byte} (h : Stored s t k bs) (j : Fin 4) : ∃ r, t.harts[j] = { s.harts[j] with resv := r } := by
  rw [h.hart_eq, Hart.unreserved]
  split
  · split
    · exact ⟨_, rfl⟩
    · exact ⟨_, rfl⟩
  · exact ⟨_, rfl⟩

end Sys2Proof.Machine
end

section
/-! SUPPORT. Entries of the engines (R203 to R222): what lets one begin, run, write a pass or take its trap, one equation per event. The events of a
pass let the engines go on by their events alone (assumption 1). -/

namespace Sys2Proof.Machine
open Sys2Proof.Claims

/-! ### Entries that begin and run -/

theorem State.tryEntry_runs {s t : State} {i : Fin 4} {e : QEntry} {hi : QEntry → Nat} (h : EntryRuns s i e hi t) : s.tryEntry i hi e.eid = t := by
  obtain ⟨he, hrun, hpend, hstrips, r, x, hbody, hend⟩ := h
  unfold State.tryEntry
  simp only [he, hrun, hpend, if_true]
  rw [if_pos (by simpa using hstrips)]
  dsimp only
  rw [hbody]
  rcases hend with ⟨u, e', rfl, rfl⟩ | ⟨u, e', rfl, rfl⟩ <;> rfl

theorem State.runHead_runs {s t : State} {i : Fin 4} {g : Engine} {e : QEntry} (hh : s.harts[i].headOf g = some e) (ha : e.apart = false)
    (h : EntryRuns s i e QEntry.total t) : s.runHead i g QEntry.total (fun _ => true) = t := by
  simp only [State.runHead, hh, ha, Bool.not_false, Bool.and_self, if_true, State.tryEntry_runs h]

theorem State.runFirst_runs {s t : State} {i : Fin 4} {p : QEntry → Bool} {e : QEntry} (hf : s.harts[i].queue.find? p = some e) (ha : e.apart = false)
    (h : EntryRuns s i e QEntry.total t) : s.runFirst i p = t := by
  simp only [State.runFirst, hf, ha, Bool.false_eq_true, if_false, State.tryEntry_runs h]

theorem State.joinHead_runs {s t : State} {i : Fin 4} {op : MatOp} {p : MatOp → Bool} (hp : p op = true) {e : QEntry}
    (hh : s.harts[i].headOf .matrix = some e) (hb : ∃ a b c d, e.post.body = .mat op a b c d)
    (h : EntryRuns (s.putEntry i { e with aux := 1 }) i { e with aux := 1 } QEntry.total t) : s.joinHead i p = t := by
  obtain ⟨a, b, c, d, hb⟩ := hb
  simp only [State.joinHead, hh, hb, hp, if_true]
  exact State.tryEntry_runs (e := { e with aux := 1 }) h

theorem State.beginOnly_begins {s : State} {i : Fin 4} {e : QEntry} (he : s.harts[i].entry e.eid = some e) (hs : e.started = false)
    (hm : s.mayRun i e = true) : s.beginOnly i e.eid = (s.modHart i fun x => (x.beginEntry e).1).served i e.post.eng := by
  simp only [State.beginOnly, he, hs, hm, Bool.not_false, Bool.and_self, if_true]

theorem State.beginHead_begins {s : State} {i : Fin 4} {g : Engine} {e : QEntry} (hh : s.harts[i].headOf g = some e)
    (he : s.harts[i].entry e.eid = some e) (hs : e.started = false) (hm : s.mayRun i e = true) :
    s.beginHead i g = (s.modHart i fun x => (x.beginEntry e).1).served i e.post.eng := by
  simp only [State.beginHead, hh, State.beginOnly_begins he hs hm]

/-! ### Traps (R363 to R367) -/

/-- Of a hart that takes back what its lanes did ahead only registers, stores on their way and its queue differ (R185). -/
structure Hart.Rewound (h g : Hart) : Prop where
  pc : g.pc = h.pc
  level : g.level = h.level
  etvec : g.etvec = h.etvec

theorem Hart.Rewound.refl (h : Hart) : h.Rewound h := ⟨rfl, rfl, rfl⟩

theorem Hart.Rewound.setMask {h g : Hart} (hg : h.Rewound g) (n : MNum) (r : MReg) : h.Rewound (g.setMask n r) := by
  unfold Hart.setMask
  split
  · exact hg
  · exact ⟨hg.pc, hg.level, hg.etvec⟩

theorem Ahead.undo_rewound {h g : Hart} (hg : h.Rewound g) (a : Ahead) (vl : Nat) : h.Rewound (a.undo vl g) := by
  unfold Ahead.undo
  refine List.foldlRecOn (motive := (h.Rewound ·)) _ _ ?_ fun b hb x _ => ?_
  · refine List.foldlRecOn (motive := (h.Rewound ·)) _ _ hg fun b hb x _ => ?_
    dsimp only
    split
    · exact ⟨hb.pc, hb.level, hb.etvec⟩
    · exact hb
  · dsimp only
    split
    · exact hb.setMask _ _
    · exact hb

theorem Hart.rewind_rewound (h : Hart) : h.Rewound h.rewind := by
  have hq : h.Rewound (h.queue.reverse.foldl (fun h e => e.ahead.reverse.foldl (fun h a => a.undo e.vl h) h) h) :=
    List.foldlRecOn (motive := (h.Rewound ·)) _ _ (.refl h) fun b hb e _ =>
      List.foldlRecOn (motive := (h.Rewound ·)) _ _ hb fun b hb a _ => Ahead.undo_rewound hb a e.vl
  exact ⟨hq.pc, hq.level, hq.etvec⟩

/-- A hart has entered S for a trap. -/
structure Hart.Trapped (h : Hart) (t : Trap) (pc etvec : Word) : Prop where
  ecause : h.ecause = t.cause
  etval : h.etval = t.tval
  epc : h.epc = pc
  level : h.level = .s
  pc : h.pc = etvec

theorem Hart.enterS_trapped (h : Hart) (t : Trap) (epc : Word) : (h.enterS t epc).Trapped t epc h.etvec := ⟨rfl, rfl, rfl, rfl, rfl⟩

/-- A trap below E with a vector is taken to S (R367). -/
theorem State.takeTrap_taken {s : State} (hl : s.h.level ≠ .e) (he : s.h.etvec ≠ 0#64) (t : Trap) (epc : Word) :
    (s.takeTrap t epc).harts[s.cur] = s.h.enterS t epc ∧ (s.takeTrap t epc).mem = s.mem := by
  have hlevel : (decide (s.h.level = .e) && !takenAtE t.cause) = false := by simp [hl]
  unfold State.takeTrap
  rw [if_neg (by rw [hlevel]; exact Bool.false_ne_true), if_neg he]
  exact ⟨State.modHart_same _ s.cur _, rfl⟩

/-- A hart whose queues a trap in queue holds: what its lanes did ahead is taken back, and no entry waits to trap. -/
def Hart.stoppedFor (e : QEntry) (h : Hart) : Hart :=
  { (h.putEntry e).rewind with held := true, queue := (h.putEntry e).rewind.queue.map fun x => { x with pend := none } }

/-- The trap of the oldest entry is taken, and its queues are held (R363). -/
theorem State.entryFault_taken {s : State} {i : Fin 4} {e : QEntry} {rest : List QEntry} (hq : s.harts[i].queue = e :: rest)
    (hr : ∀ x ∈ rest, e.eid < x.eid) (hc : s.harts[i].canTrap = true) (hl : s.harts[i].level ≠ .e) (hv : s.harts[i].etvec ≠ 0#64) (t : Trap) :
    (s.entryFault i e t).harts[i].Trapped t s.harts[i].pc s.harts[i].etvec ∧ (s.entryFault i e t).harts[i].held = true ∧
    (s.entryFault i e t).mem = s.mem := by
  have hold : ((s.harts[i].queue.any fun x => decide (x.eid < e.eid)) || !s.harts[i].canTrap) = false := by
    rw [hq, hc]
    simpa using fun x hx => Nat.le_of_lt (hr x hx)
  unfold State.entryFault
  dsimp only
  rw [if_neg (by rw [hold]; exact Bool.false_ne_true)]
  generalize hs : State.modHart (s.putEntry i _) i _ = u
  have hui : u.harts[i] = s.harts[i].stoppedFor { e.dropRead with entered := e.entered + 1 } := by
    rw [← hs, State.modHart_same, State.putEntry, State.modHart_same]
    rfl
  have hmem : u.mem = s.mem := by rw [← hs]; rfl
  have hre := Hart.rewind_rewound (s.harts[i].putEntry { e.dropRead with entered := e.entered + 1 })
  have hpc : u.harts[i].pc = s.harts[i].pc := by rw [hui]; exact hre.pc
  have hlevel : u.harts[i].level = s.harts[i].level := by rw [hui]; exact hre.level
  have hetvec : u.harts[i].etvec = s.harts[i].etvec := by rw [hui]; exact hre.etvec
  have hheld : u.harts[i].held = true := by rw [hui]; rfl
  obtain ⟨htaken, htmem⟩ := State.takeTrap_taken (s := { u with cur := i }) (by rw [← hlevel] at hl; exact hl) (by rw [← hetvec] at hv; exact hv) t u.harts[i].pc
  refine ⟨?_, ?_, htmem.trans hmem⟩
  · rw [← hpc, ← hetvec]
    exact htaken ▸ Hart.enterS_trapped u.harts[i] t u.harts[i].pc
  · exact (congrArg Hart.held htaken).trans hheld

theorem execTrapInQueue_of_pending {s : State} {i : Fin 4} {e : QEntry} {rest : List QEntry} {t : Trap} (hq : s.harts[i].queue = e :: rest)
    (hp : e.pend = some t) (ha : e.apart = false) (hm : s.mayRun i e = true) :
    execTrapInQueue i s = .next (s.entryFault i e t) := by
  have hfirst : s.harts[i].queue.find? (fun e => e.pend.isSome) = some e := by simp [hq, hp, -Fin.getElem_fin]
  have hentry : s.harts[i].entry e.eid = some e := by simp [Hart.entry, hq, -Fin.getElem_fin]
  simp only [execTrapInQueue, State.runFirst, hfirst, ha, Bool.false_eq_true, if_false, State.tryEntry, hentry, hm, if_true, hp]

/-- An asynchronous trap is taken where it is due (R365). -/
theorem State.deliverAsync_taken {s : State} {t : Trap} {rest : List Trap} (ha : s.h.asyncs = t :: rest) (hd : s.h.asyncDue = true) (hv : s.h.etvec ≠ 0#64) :
    s.deliverAsync.harts[s.cur].Trapped t s.h.pc s.h.etvec ∧ s.deliverAsync.harts[s.cur].asyncs = rest ∧ s.deliverAsync.mem = s.mem := by
  have hlevel : s.h.level ≠ .e := by
    simp only [Hart.asyncDue, Bool.and_eq_true, bne_iff_ne] at hd
    obtain ⟨⟨⟨⟨_, hl⟩, _⟩, _⟩, _⟩ := hd
    exact hl
  have hmod : (s.mod fun h => { h with asyncs := rest }).h = { s.h with asyncs := rest } := State.mod_h s _
  obtain ⟨htaken, hmem⟩ := State.takeTrap_taken (s := s.mod fun h => { h with asyncs := rest }) (by rw [hmod]; exact hlevel) (by rw [hmod]; exact hv) t s.h.pc
  rw [hmod] at htaken
  have hdel : s.deliverAsync = (s.mod fun h => { h with asyncs := rest }).takeTrap t s.h.pc := by
    rw [State.deliverAsync, ha]
  rw [hdel]
  refine ⟨?_, ?_, hmem⟩
  · exact htaken ▸ Hart.enterS_trapped { s.h with asyncs := rest } t s.h.pc
  · exact congrArg Hart.asyncs htaken

end Sys2Proof.Machine
end

section
/-! SUPPORT. Passes of the lane groups (R206 to R213): where a hart holds one vector instruction, its next pass enters, writes its results, and the
last one retires it. -/

namespace Sys2Proof.Machine
open Sys2Proof.Claims

/-! ### One vector instruction -/

section
variable {s : State} {i g : Fin 4} {e : QEntry} (hl : LoneVector s i g e)
include hl

theorem loneVector_queue : s.harts[i].queue = [e] := by
  obtain ⟨hq, -, -, -, -⟩ := hl
  exact hq

/-- What is asked of every older entry is asked of none. -/
theorem loneVector_older (p : QEntry → Bool) : (s.harts[i].queue.all fun x => !decide (x.eid < e.eid) || p x) = true := by
  simp [loneVector_queue hl, -Fin.getElem_fin]

theorem loneVector_othersFree : s.harts[i].othersFree e = true := by
  have h := loneVector_older hl fun x => x.post.eng == .vector || !waitsFor x e
  simpa only [Hart.othersFree, Bool.or_assoc] using h

theorem loneVector_find {p : QEntry → Bool} (hp : p e = true) : s.harts[i].queue.find? p = some e := by
  rw [loneVector_queue hl, List.find?_cons_of_pos hp]

theorem loneVector_laneEntry (he : e.allEntered (s.feat 7) s.harts[i] g = false) : s.laneEntry i g = some e := by
  refine loneVector_find hl ?_
  obtain ⟨-, heng, hg, -, -⟩ := hl
  simp only [heng, hg, he]
  rfl

/-- An instruction whose passes are not taken apart begins (R207). -/
theorem loneVector_enters_whole (hm : s.harts[i].laneMay e = true) (hlaned : e.laned = false) (hs : e.started = false) :
    s.laneEnter i g = s.modHart i fun x => (x.beginEntry e).1 := by
  have hclear := loneVector_older hl fun x => x.post.eng != .vector ||
    (lanesOf (vtGroups e.vtype)).all fun g => !(vtGroups x.vtype).getLsbD g || x.allEntered (s.feat 7) s.harts[i] (Fin.ofNat 4 g)
  rw [State.laneEnter, loneVector_laneEntry hl (by simp [QEntry.allEntered, hlaned])]
  simp only [hlaned, Bool.not_false, if_true, State.beginWhole, hs, hm, loneVector_othersFree hl, Bool.and_true, Bool.or_assoc, hclear]

end

/-- An elementwise instruction accesses no memory. -/
theorem QEntry.laneMem_of_laneBody {e : QEntry} (h : e.laneBody.isSome = true) : e.laneMem = false := by
  unfold QEntry.laneBody at h
  unfold QEntry.laneMem
  cases hb : e.post.body <;> simp_all

theorem QEntry.laned_of_laneBody {e : QEntry} (h : e.laneBody.isSome = true) : e.laned = true := by
  simp [QEntry.laned, h]

/-- An entry that has entered a pass, and its hart. -/
def Hart.entering (h : Hart) (g : Fin 4) (e : QEntry) (p : LPass) : Hart :=
  let b := if e.started then (h, e) else h.beginEntry e
  b.1.putEntry (b.2.setAt g p fun q => { q with entered := p.hi })

theorem Hart.putEntry_lone (h : Hart) {e : QEntry} (x : QEntry) (hq : h.queue = [e]) (hx : e.eid = x.eid) : h.putEntry x = { h with queue := [x] } := by
  simp [Hart.putEntry, hq, hx]

theorem QEntry.setAt_same (e : QEntry) (g : Fin 4) (p : LPass) (f : LanePos → LanePos) : (e.setAt g p f).at_ g = f (e.at_ g) := by
  simp [QEntry.setAt, QEntry.at_]

/-- An instruction alone in its queue begins. -/
theorem Hart.beginEntry_lone {h : Hart} {e : QEntry} (hq : h.queue = [e]) :
    (h.beginEntry e).1.queue = [(h.beginEntry e).2] ∧ (h.beginEntry e).1.v = h.v ∧ (h.beginEntry e).1.m = h.m := by
  obtain ⟨tok, hh⟩ := h.beginEntry_hart e
  obtain ⟨a, he⟩ := h.beginEntry_entry e
  have hid : e.eid = (h.beginEntry e).2.eid := by rw [he]
  rw [hh, Hart.putEntry_lone { h with tok := tok } _ hq hid]
  exact ⟨rfl, rfl, rfl⟩

/-- A pass of an instruction alone in its queue enters. -/
theorem Hart.putEntry_enters {h : Hart} {e : QEntry} (hq : h.queue = [e]) (hs : e.started = true) (g : Fin 4) (p : LPass) :
    ∃ x, (h.putEntry (e.setAt g p fun q => { q with entered := p.hi })).queue = [x] ∧ x.eid = e.eid ∧ x.started = true ∧
      (x.at_ g).entered = p.hi ∧ x.prog = e.prog :=
  ⟨_, congrArg Hart.queue (h.putEntry_lone (e.setAt g p fun q => { q with entered := p.hi }) hq rfl), rfl, hs, by rw [QEntry.setAt_same], rfl⟩

theorem Hart.entering_lone {h : Hart} {e : QEntry} (hq : h.queue = [e]) (g : Fin 4) (p : LPass) :
    (h.entering g e p).v = h.v ∧ (h.entering g e p).m = h.m ∧ ∃ x, (h.entering g e p).queue = [x] ∧ x.eid = e.eid ∧ x.started = true ∧
      (x.at_ g).entered = p.hi ∧ x.prog = e.prog := by
  unfold Hart.entering
  by_cases hs : e.started = true
  · rw [if_pos hs]
    exact ⟨rfl, rfl, Hart.putEntry_enters hq hs g p⟩
  · rw [if_neg hs]
    obtain ⟨hbq, hv, hm⟩ := Hart.beginEntry_lone hq
    obtain ⟨x, hx, hid, hst, hent, hprog⟩ := Hart.putEntry_enters hbq rfl g p
    exact ⟨hv, hm, x, hx, hid, hst, hent, hprog⟩

/-- The next pass of an elementwise instruction enters (R210). -/
theorem loneVector_enters_pass {s : State} {i g : Fin 4} {e : QEntry} (hl : LoneVector s i g e) (hm : s.harts[i].laneMay e = true) {p : LPass}
    (hb : e.laneBody.isSome = true) (hp : NextPass s i g e LanePos.entered p) (hmask : s.harts[i].passMask e p = true) :
    s.laneEnter i g = s.modHart i fun h => h.entering g e p := by
  obtain ⟨hpass, hwhole⟩ := hp
  have hlaned := QEntry.laned_of_laneBody hb
  have hmem := QEntry.laneMem_of_laneBody hb
  have hfree := loneVector_older hl fun x => x.post.eng != .vector || passFree g x e p
  have hentry := loneVector_laneEntry hl (by simp only [QEntry.allEntered, hlaned, hpass, Option.isNone_some, Bool.and_false])
  obtain ⟨-, -, -, -, hstrips⟩ := id hl
  rw [State.laneEnter, hentry]
  simp only [hlaned, hstrips, hpass, List.isEmpty_nil, Bool.not_true, Bool.false_eq_true, if_false, State.enterPass, hmem, hm, loneVector_othersFree hl, hmask,
    QEntry.rowAligned, hwhole, Bool.or_assoc, hfree, Bool.false_and, Bool.not_false, Bool.true_or, Bool.and_true, if_true]
  rfl

/-! ### A pass writes -/

/-- What a pass of an elementwise instruction may change of a hart leaves its queue and the releases under way. -/
structure Hart.KeepsQueue (h g : Hart) : Prop where
  queue : g.queue = h.queue
  releases : g.releases = h.releases

theorem Hart.KeepsQueue.trans {h g k : Hart} (hg : h.KeepsQueue g) (hk : g.KeepsQueue k) : h.KeepsQueue k :=
  ⟨hk.queue.trans hg.queue, hk.releases.trans hg.releases⟩

theorem Hart.setVpis_keepsQueue (h : Hart) (d : VNum) (c : Option VNum) (t : Nat) : h.KeepsQueue (h.setVpis d c t) := by
  obtain ⟨vpi, heq⟩ := h.setVpis_only d c t
  rw [heq]
  exact ⟨rfl, rfl⟩

theorem Hart.writeVec_keepsQueue (h : Hart) (d c et cp cov f) : h.KeepsQueue (h.writeVec d c et cp cov f) := by
  obtain ⟨v, heq⟩ := h.writeVec_only d c et cp cov f
  rw [heq]
  exact ⟨rfl, rfl⟩

theorem Hart.relayAll_keepsQueue (h : Hart) (et l ns) : h.KeepsQueue (h.relayAll et l ns) := by
  obtain ⟨v, heq⟩ := h.relayAll_only et l ns
  rw [heq]
  exact ⟨rfl, rfl⟩

theorem Hart.setMask_keepsQueue (h : Hart) (n : MNum) (r : MReg) : h.KeepsQueue (h.setMask n r) := by
  unfold Hart.setMask
  split
  · exact ⟨rfl, rfl⟩
  · exact ⟨rfl, rfl⟩

theorem Hart.raise_keepsQueue (h : Hart) (fl : Flags) : h.KeepsQueue (h.raise fl) := ⟨rfl, rfl⟩

theorem runInt_keepsQueue (op : IntOp) (e : QEntry) (lo hi : Nat) (h : Hart) : h.KeepsQueue (runInt op e lo hi h) :=
  (h.relayAll_keepsQueue _ _ _).trans ((Hart.writeVec_keepsQueue _ _ _ _ _ _ _).trans (Hart.setVpis_keepsQueue _ _ _ _))

theorem runFp_keepsQueue (op : FpOp) (e : QEntry) (lo hi : Nat) (h : Hart) : h.KeepsQueue (runFp op e lo hi h) :=
  (h.relayAll_keepsQueue _ _ _).trans
    ((Hart.writeVec_keepsQueue _ _ _ _ _ _ _).trans ((Hart.raise_keepsQueue _ _).trans (Hart.setVpis_keepsQueue _ _ _ _)))

theorem runCvt_keepsQueue (m : RMode) (e : QEntry) (lo hi : Nat) (h : Hart) : h.KeepsQueue (runCvt m e lo hi h) :=
  (h.relayAll_keepsQueue _ _ _).trans
    ((Hart.writeVec_keepsQueue _ _ _ _ _ _ _).trans ((Hart.raise_keepsQueue _ _).trans (Hart.setVpis_keepsQueue _ _ _ _)))

theorem runCmp_keepsQueue (cond : BitVec 3) (ty : BitVec 2) (e : QEntry) (lo hi : Nat) (h : Hart) : h.KeepsQueue (runCmp cond ty e lo hi h) := by
  have hset (r : MReg) := (h.relayAll_keepsQueue e.cap.et e.cap.lmap e.post.vsrc).trans (Hart.setMask_keepsQueue _ (e.post.d.setWidth 3) r)
  exact ⟨(hset _).queue, (hset _).releases⟩

theorem QEntry.laneBody_keepsQueue {e : QEntry} {f : Nat → Nat → Hart → Hart} (hf : e.laneBody = some f) (lo hi : Nat) (h : Hart) :
    h.KeepsQueue (f lo hi h) := by
  unfold QEntry.laneBody at hf
  split at hf
  · cases hf
  · cases hf; exact runInt_keepsQueue _ _ _ _ _
  · cases hf; exact runFp_keepsQueue _ _ _ _ _
  · cases hf; exact runCvt_keepsQueue _ _ _ _ _
  · cases hf; exact runCvt_keepsQueue _ _ _ _ _
  · cases hf; exact runCmp_keepsQueue _ _ _ _ _ _
  · cases hf

section
variable {s : State} {i g : Fin 4} {e : QEntry} (hl : LoneVector s i g e) (hs : e.started = true)
include hl hs

/-- A part of an instruction that advances as a whole (R208). -/
theorem loneVector_writes_whole (hlaned : e.laned = false) (hh : s.harts[i].held = false) (hf : s.harts[i].frozen = false) :
    s.laneWrite i g = State.applyRan i (bodyRun i e.wholeEnd e s).2 (bodyRun i e.wholeEnd e s).1 := by
  have hready : s.harts[i].wholeReady e = true := loneVector_older hl _
  have hopen : s.laneOpen i g = some e := by
    refine loneVector_find hl ?_
    obtain ⟨-, heng, hg, -, -⟩ := hl
    simp only [heng, hg, hs, hlaned]
    rfl
  obtain ⟨-, -, -, hpend, hstrips⟩ := hl
  rw [State.laneWrite, hopen]
  simp only [hpend, hlaned, Bool.not_false, if_true, State.writeWhole, hs, hh, hf, hready, Bool.and_self, hstrips, List.isEmpty_nil]

/-- The next pass of an elementwise instruction is written (R210). -/
theorem loneVector_writes_pass {p : LPass} {f : Nat → Nat → Hart → Hart} (hb : e.laneBody = some f) (hp : NextPass s i g e LanePos.wrote p)
    (hent : p.hi ≤ (e.at_ g).entered) : s.laneWrite i g = s.writeElems i g e p f := by
  obtain ⟨hpass, -⟩ := hp
  have hlaned := QEntry.laned_of_laneBody (Option.isSome_of_eq_some hb)
  have hopen : s.laneOpen i g = some e := by
    refine loneVector_find hl ?_
    obtain ⟨-, heng, hg, -, -⟩ := hl
    simp only [heng, hg, hs, hlaned, hpass, hent]
    rfl
  obtain ⟨-, -, -, hpend, -⟩ := hl
  rw [State.laneWrite, hopen]
  simp only [hpend, hlaned, Bool.not_true, Bool.false_eq_true, if_false, hpass, hb]

end

/-- An entry whose next pass stands. -/
def QEntry.passed (e : QEntry) (g : Fin 4) (p : LPass) : QEntry := { e.setAt g p fun q => { q with wrote := p.hi } with prog := p.hi }

/-- A hart but for its progress indices. -/
def Hart.SameResults (h g : Hart) : Prop := ∃ vpi, g = { h with vpi := vpi }

/-- A pass at the progress index, with none ahead of it: its results stand (R211). -/
theorem passWritten_next {e : QEntry} {p : LPass} (hlo : p.lo ≤ e.prog) (ha : e.ahead = []) (g : Fin 4) (h new : Hart) :
    (passWritten (e.setAt g p fun q => { q with wrote := p.hi }) p h new).2 = e.passed g p ∧
    new.SameResults (passWritten (e.setAt g p fun q => { q with wrote := p.hi }) p h new).1 := by
  have habs : absorbAhead ((e.setAt g p fun q => { q with wrote := p.hi }).ahead.length + 1) new (e.passed g p) = (new, e.passed g p) := by
    have hnone : (e.passed g p).ahead.find? (fun a => decide (a.lo ≤ (e.passed g p).prog) && decide ((e.passed g p).prog < a.hi)) = none := by
      rw [show (e.passed g p).ahead = [] from ha]
      rfl
    unfold absorbAhead
    rw [hnone]
  unfold passWritten
  rw [if_pos (show (e.setAt g p fun q => { q with wrote := p.hi }).prog ≥ p.lo from hlo)]
  unfold QEntry.passed at habs
  dsimp only
  rw [habs]
  refine ⟨rfl, ?_⟩
  dsimp only
  split
  · exact ⟨_, rfl⟩
  · exact ⟨_, rfl⟩
  · exact Hart.setVpis_only _ _ _ _

/-- An entry that retires without a result leaves the registers. -/
theorem Hart.retireEntry_none (h : Hart) (e : QEntry) : ∃ tok, h.retireEntry e none = { h with queue := h.queue.filter (·.eid != e.eid), tok := tok } := by
  unfold Hart.retireEntry
  cases e.post.xd <;>
  · dsimp only
    split
    · split
      · exact Hart.setTokens_only _ _ _ _
      · exact ⟨_, rfl⟩
    · exact ⟨_, rfl⟩

/-- The last pass of an instruction alone in its queue is written, and it retires (R208). -/
theorem State.entryDone_lone {s : State} {i : Fin 4} {e : QEntry} (hq : s.harts[i].queue = [e]) (hr : s.harts[i].releases = []) (x : QEntry)
    (hx : x.eid = e.eid) : ∃ tok b vt, (s.entryDone i x none).mem = s.mem ∧
      (s.entryDone i x none).harts[i] = { s.harts[i] with queue := [], tok := tok, laneServed := b, vtype := vt } := by
  obtain ⟨tok, htok⟩ := s.harts[i].retireEntry_none x
  have hqueue : s.harts[i].queue.filter (·.eid != x.eid) = [] := by simp [hq, hx, -Fin.getElem_fin]
  obtain ⟨b, vt, hb⟩ := State.serveLanes_hart (s.modHart i fun h => (h.retireEntry x none).settleRows) i
  refine ⟨tok, b, vt, State.serveLanes_mem _, ?_⟩
  have hsettle : (s.harts[i].retireEntry x none).settleRows = { s.harts[i] with queue := [], tok := tok } := by
    rw [htok, hqueue]
    exact Hart.settleRows_none _ hr
  rw [State.entryDone, hb, State.modHart_same, hsettle]

/-- What a pass of an elementwise instruction leaves of its hart. -/
theorem State.writeElems_lone {s : State} {i g : Fin 4} {e : QEntry} {p : LPass} {f : Nat → Nat → Hart → Hart} (hq : s.harts[i].queue = [e])
    (hb : e.laneBody = some f) (hcvt : e.post.body ≠ .cvt none) (hlo : p.lo ≤ e.prog) (ha : e.ahead = []) (hr : s.harts[i].releases = []) :
    ∃ hart, (s.writeElems i g e p f).mem = s.mem ∧ (s.writeElems i g e p f).harts[i] = hart ∧
      hart.v = (f (max p.lo e.prog) p.hi s.harts[i]).v ∧ hart.m = (f (max p.lo e.prog) p.hi s.harts[i]).m ∧
      hart.fcsr = (f (max p.lo e.prog) p.hi s.harts[i]).fcsr ∧ (e.total ≤ p.hi → hart.queue = []) ∧
      (p.hi < e.total → hart.queue = [e.passed g p]) := by
  have hcvt' : (e.post.body == .cvt none) = false := by simpa using hcvt
  obtain ⟨hent, vpi, hhart⟩ := passWritten_next hlo ha g s.harts[i] (f (max p.lo e.prog) p.hi s.harts[i])
  obtain ⟨hqueue, hrel⟩ := QEntry.laneBody_keepsQueue hb (max p.lo e.prog) p.hi s.harts[i]
  rw [State.writeElems, hcvt']
  dsimp only
  simp only [Bool.false_and, Bool.false_eq_true, if_false]
  rw [hent, hhart]
  generalize f (max p.lo e.prog) p.hi s.harts[i] = new at *
  generalize hu : (s.modHart i fun _ => { new with vpi := vpi }) = u
  have hui : u.harts[i] = { new with vpi := vpi } := by rw [← hu, State.modHart_same]
  have huq : u.harts[i].queue = [e] := by rw [hui]; exact hqueue.trans hq
  have hmem : u.mem = s.mem := by rw [← hu]; rfl
  by_cases hend : p.hi < e.total
  · have heq : u.endPasses i (e.passed g p) = u.putEntry i (e.passed g p) := if_pos hend
    rw [heq]
    refine ⟨_, hmem, rfl, ?_⟩
    rw [State.putEntry, State.modHart_same, Hart.putEntry_lone _ (e.passed g p) huq rfl, hui]
    exact ⟨rfl, rfl, rfl, fun h => absurd hend (Nat.not_lt.mpr h), fun _ => rfl⟩
  · have heq : u.endPasses i (e.passed g p) = u.entryDone i (e.passed g p) none := by
      refine (if_neg hend).trans ?_
      split
      · rename_i hbody
        have hstore : e.post.body = _ := hbody
        simp [QEntry.laneBody, hstore] at hb
      · rfl
    obtain ⟨tok, b, vt, hdmem, hdone⟩ := State.entryDone_lone huq (by rw [hui]; exact hrel.trans hr) (e.passed g p) rfl
    rw [heq]
    refine ⟨_, hdmem.trans hmem, rfl, ?_⟩
    rw [hdone, hui]
    exact ⟨rfl, rfl, rfl, fun _ => rfl, fun h => absurd h hend⟩

end Sys2Proof.Machine
end

section
/-! SUPPORT. The data of a load's pass (R213): its elements lie in plain storage, and the slot takes their values. -/

namespace Sys2Proof.Machine
open Sys2Proof.Claims

/-- With the engines going on by their events alone, plain storage is what it was. -/
theorem State.Plain.byEvents {s : State} {ctx : Nat} {lvl : Level} {va n k : Nat} {kind : AccKind} {path : AccPath}
    (h : s.Plain ctx lvl va n kind path k) : s.byEvents.Plain ctx lvl va n kind path k := by
  cases h with
  | spad b hlo hhi hk hb hbusy hcur => exact .spad b hlo hhi hk hb hbusy hcur
  | page c e hva hc hlo hhi henc hp hallow hend hwalk hhit hsound => exact .page c e hva hc hlo hhi henc hp hallow hend hwalk hhit hsound

/-- A hart without stores under way keeps no access of its lanes waiting. -/
theorem State.laneWaits_none {s : State} {w : Who} (hb : s.harts[w.h].stbuf = []) (hl : s.harts[w.h].late = []) (ho : s.fab.outstanding = [])
    (hw : s.fab.waiting = []) (va n : Nat) : s.laneWaits w va n = false := by
  simp [State.laneWaits, State.storeAhead, Fabric.open, hb, hl, ho, hw, -Fin.getElem_fin]

/-- What an event of a load's pass leaves of an element's bytes: of a 4-bit one, its half. -/
def elemValue (w t : Nat) (bs : List Byte) : Nat := if w = 4 then leNat bs / 16 ^ (t % 2) % 16 else leNat bs

theorem elemValue_eq (w t : Nat) (bs : List Byte) :
    (if w = 4 then leNat bs / (if t % 2 = 0 then 1 else 16) % 16 else leNat bs) = elemValue w t bs := by
  unfold elemValue
  rcases Nat.mod_two_eq_zero_or_one t with h | h <;> simp [h]

/-- The elements of a pass in plain storage are read. -/
theorem State.readPass_plain {s t : State} {i g : Fin 4} {e : QEntry} {mode : VMode} {w : Nat} {key : Nat → Nat}
    (hsca : s.mem.sca = []) (hseal : s.mem.sealed = []) (hb : s.harts[i].stbuf = []) (hl : s.harts[i].late = []) (ho : s.fab.outstanding = [])
    (hw : s.fab.waiting = []) (act : List Nat)
    (hact : ∀ j ∈ act, let va := elemAddr mode e (s.harts[i].vreg e.post.b) w j
      0 < (w + 7) / 8 ∧ va % 4096 + (w + 7) / 8 ≤ 4096 ∧ s.Plain s.harts[i].ctxid.toNat e.level va ((w + 7) / 8) .load .vector (key j) ∧
        Sound s (key j) ((w + 7) / 8))
    (ht : s.Touched s.harts[i].ctxid.toNat t) :
    ∃ u, t.readPass i e mode w g act = some (act.map fun j => (j, elemValue w j (s.mem.peek (key j) ((w + 7) / 8))), none, u) ∧
      s.Touched s.harts[i].ctxid.toNat u := by
  induction act generalizing t with
  | nil => exact ⟨t, rfl, ht⟩
  | cons j js ih =>
    obtain ⟨hpos, hpage, hpl, hs⟩ := hact j List.mem_cons_self
    have hharts : t.harts = s.harts ∧ t.fab = s.fab := by
      obtain ⟨⟨_, _, rfl⟩, -, -⟩ := ht
      exact ⟨rfl, rfl⟩
    obtain ⟨hharts, hfab⟩ := hharts
    have hwho : e.who t i 0 g.val = ⟨i, s.harts[i].ctxid.toNat, e.level, e.pc, 0, g.val⟩ := by rw [QEntry.who, hharts]
    have hwaits := State.laneWaits_none (s := t) (w := e.who t i 0 g.val) (by rw [hharts]; exact hb) (by rw [hharts]; exact hl) (by rw [hfab]; exact ho)
      (by rw [hfab]; exact hw) (elemAddr mode e (t.harts[i].vreg e.post.b) w j) ((w + 7) / 8)
    obtain ⟨u, hload, hu⟩ := hpl.load ht (w := e.who t i 0 g.val) hsca hseal hs hpos hpage (by rw [hwho]) (by rw [hwho]) (by decide)
    obtain ⟨v, hread, hv⟩ := ih (fun j hj => hact j (List.mem_cons_of_mem _ hj)) hu
    refine ⟨v, ?_, hv⟩
    rw [hharts] at hwaits
    unfold State.readPass
    simp only [hharts, hwaits, Bool.false_eq_true, if_false, hload, hread, elemValue_eq, List.map_cons]

/-- A staging slot with its data. -/
def StageSlot.filled (x : StageSlot) (vals : List (Nat × Nat)) : StageSlot := { x with data := some (vals, none) }

/-- Of a hart with one entry the first slot without data is filled. -/
theorem State.fillSlot_first {s : State} {i : Fin 4} {e : QEntry} {mode : VMode} {mw : BitVec 2} {sx sc : Bool} {x : StageSlot} {l1 l2 : List StageSlot}
    {vals : List (Nat × Nat)} {u : State} (hq : s.harts[i].queue = [e]) (hb : e.post.body = .load mode mw sx sc) (hslots : e.slots = l1 ++ x :: l2)
    (h1 : ∀ y ∈ l1, y.data ≠ none) (hx : x.data = none) (hx1 : x ∉ l1) (hx2 : x ∉ l2)
    (hread : s.readPass i e mode (memBits e.cap.et mw) x.lane (((List.range (x.hi - x.lo)).map (x.lo + ·)).filter fun t =>
      e.cap.active s.harts[i] (t / e.vl) (t % e.vl)) = some (vals, none, u)) :
    s.fillSlot i 0 = u.putEntry i { e with slots := l1 ++ x.filled vals :: l2 } := by
  have hopen : (s.harts[i].queue.flatMap fun e => (e.slots.filter (·.data.isNone)).map fun x => (e, x))[0]? = some (e, x) := by
    have hfull : l1.filter (·.data.isNone) = [] := List.filter_eq_nil_iff.mpr fun y hy => by simpa using h1 y hy
    simp [hq, hslots, hfull, hx, -Fin.getElem_fin]
  have hfill : e.slots.map (fun y => if y = x then { y with data := some (vals, none) } else y) = l1 ++ x.filled vals :: l2 := by
    have hkeep {l : List StageSlot} (h : x ∉ l) : l.map (fun y => if y = x then { y with data := some (vals, none) } else y) = l :=
      (List.map_congr_left fun y hy => if_neg fun he : y = x => h (he ▸ hy)).trans (List.map_id _)
    rw [hslots, List.map_append, List.map_cons, hkeep hx1, hkeep hx2, if_pos rfl, StageSlot.filled]
  unfold State.fillSlot
  dsimp only
  rw [hopen]
  simp only [hb, hread, hfill]

/-- Data arrives in the first slot of a hart's load from plain storage (R213). -/
theorem State.fillSlot_plain {s : State} {i : Fin 4} {e : QEntry} {mode : VMode} {mw : BitVec 2} {sx sc : Bool} {x : StageSlot} {l1 l2 : List StageSlot}
    (hq : s.harts[i].queue = [e]) (hb : e.post.body = .load mode mw sx sc) (hslots : e.slots = l1 ++ x :: l2) (h1 : ∀ y ∈ l1, y.data ≠ none)
    (hx : x.data = none) (hx1 : x ∉ l1) (hx2 : x ∉ l2) (hquiet : Quiet { s with cur := i }) (key : Nat → Nat)
    (hact : ∀ j ∈ ((List.range (x.hi - x.lo)).map (x.lo + ·)).filter fun j => e.cap.active s.harts[i] (j / e.vl) (j % e.vl),
      let va := elemAddr mode e (s.harts[i].vreg e.post.b) (memBits e.cap.et mw) j
      PlainAt { s with cur := i } e.level noByte va ((memBits e.cap.et mw + 7) / 8) .load .vector (key j) ∧
        Sound s (key j) ((memBits e.cap.et mw + 7) / 8)) :
    ∃ t, s.byEvents.fillSlot i 0 = t ∧ (∀ a, byteAt t a = byteAt s a) ∧ t.harts[i].v = s.harts[i].v ∧ ∃ e', t.harts[i].queue = [e'] ∧
      e'.slots = l1 ++ x.filled
        ((((List.range (x.hi - x.lo)).map (x.lo + ·)).filter fun j => e.cap.active s.harts[i] (j / e.vl) (j % e.vl)).map fun j =>
          (j, elemValue (memBits e.cap.et mw) j (s.mem.peek (key j) ((memBits e.cap.et mw + 7) / 8)))) :: l2 := by
  obtain ⟨-, hsca, hseal, hst, hlate, ho, hw⟩ := hquiet
  obtain ⟨u, hread, hu⟩ := State.readPass_plain (s := s.byEvents) (i := i) (g := x.lane) (e := e) (mode := mode) (w := memBits e.cap.et mw) (key := key)
    hsca hseal hst hlate ho hw _ (fun j hj => by
      obtain ⟨hplain, hs⟩ := hact j hj
      obtain ⟨hpos, hpage, hpl⟩ := plain_of_plainAt hplain
      exact ⟨hpos, hpage, hpl.byEvents, hs⟩) (.refl _ _)
  have hfill := State.fillSlot_first (s := s.byEvents) hq hb hslots h1 hx hx1 hx2 hread
  have hcells : u.mem.cells = s.mem.cells := hu.cells_eq
  have hharts : u.harts = s.harts := by
    obtain ⟨⟨_, _, hframe⟩, -, -⟩ := hu
    rw [hframe]
    rfl
  refine ⟨_, hfill, fun a => congrArg (cellGet · a) hcells, ?_⟩
  rw [State.putEntry, State.modHart_same, hharts, Hart.putEntry_lone _ { e with slots := l1 ++ x.filled _ :: l2 } hq rfl]
  exact ⟨rfl, _, rfl, rfl⟩

end Sys2Proof.Machine
end

section
/-! SUPPORT. Stores that leave their queues (R213, R310, R327, R332, R450), and translations that are kept (R298, R303). -/

namespace Sys2Proof.Machine
open Sys2Proof.Claims

/-! ### The buffer of a hart (R450) -/

/-- The oldest store of a buffer performs where its bank stands as it was checked. -/
theorem State.drainStores_one {s t : State} {i : Fin 4} {b : BufferedStore} {rest : List BufferedStore} (hq : s.harts[i].stbuf = b :: rest)
    (hmode : s.bankMode b.va.toNat = b.mode)
    (hst : s.store ⟨i, s.harts[i].ctxid.toNat, b.level, b.pc, 1, 0⟩ b.va.toNat (natLe b.size b.data.toNat) .scalar = .ok () t) :
    State.drainStores i 1 s = t.modHart i fun h => { h with stbuf := rest } := by
  have hmode' : (s.bankMode b.va.toNat == b.mode) = true := by simpa using hmode
  unfold State.drainStores
  rw [hq]
  simp only [hst, hmode', if_true]
  rfl

theorem State.drainStores_plain {s : State} {i : Fin 4} {b : BufferedStore} {rest : List BufferedStore} {k : Nat} {D : Nat → Prop}
    (hq : s.harts[i].stbuf = b :: rest) (hwf : s.mem.wf = true) (hsca : s.mem.sca = []) (hseal : s.mem.sealed = []) (hmode : s.bankMode b.va.toNat = b.mode)
    (hplain : PlainAt { s with cur := i } b.level D b.va.toNat b.size .store .scalar k) :
    ∃ t, State.drainStores i 1 s = t ∧ BytesWritten s t k (natLe b.size b.data.toNat) ∧ t.harts[i].stbuf = rest := by
  obtain ⟨hn, hpage, hpl⟩ := plain_of_plainAt hplain
  have hlen : (natLe b.size b.data.toNat).length = b.size := natLe_length _ _
  rw [← hlen] at hn hpage hpl
  obtain ⟨u, hst, hstored⟩ := hpl.store (w := ⟨i, s.harts[i].ctxid.toNat, b.level, b.pc, 1, 0⟩) hsca hseal hn hpage rfl rfl
  refine ⟨_, State.drainStores_one hq hmode hst, hstored.bytesWritten hwf, ?_⟩
  exact congrArg Hart.stbuf (State.modHart_same u i _)

/-! ### Stores on their way (R213, R310) -/

/-- The hart and the flow of a store on its way. -/
def LateStore.who (b : LateStore) (s : State) (i : Fin 4) : Who :=
  ⟨i, s.harts[i].ctxid.toNat, b.level, b.pc, if b.lane.isSome then 0 else 2, match b.lane with | some g => g.val | none => 0⟩

theorem Hart.setMask_late (h : Hart) (n : MNum) (r : MReg) : (h.setMask n r).late = h.late := by
  unfold Hart.setMask
  split
  · rfl
  · rfl

theorem Hart.chunkDone_late (h : Hart) (e : QEntry) (c : Nat) : (h.chunkDone e c).1.late = h.late := by
  unfold Hart.chunkDone
  split
  · rfl
  · exact Hart.setMask_late _ _ _

/-- What a copy's entry with one write fewer on its way comes to: its chunk completes with the last one (R497). -/
def State.chunkWritten (s : State) (i : Fin 4) (c : Nat) (e : QEntry) : State :=
  if chunkPending e c || e.prog ≤ c then s.putEntry i e
  else (s.modHart i fun _ => (s.harts[i].chunkDone e c).1).putEntry i (s.harts[i].chunkDone e c).2

theorem State.putEntry_late (s : State) (i : Fin 4) (e : QEntry) : (s.putEntry i e).harts[i].late = s.harts[i].late := by
  rw [State.putEntry, State.modHart_same]
  rfl

theorem State.chunkWritten_keeps (s : State) (i : Fin 4) (c : Nat) (e : QEntry) :
    (s.chunkWritten i c e).mem = s.mem ∧ (s.chunkWritten i c e).harts[i].late = s.harts[i].late := by
  unfold State.chunkWritten
  split
  · exact ⟨rfl, State.putEntry_late s i e⟩
  · refine ⟨rfl, ?_⟩
    rw [State.putEntry_late, State.modHart_same]
    exact Hart.chunkDone_late _ _ _

/-- The answer to a chunk's write touches its hart's queue and masks alone (R497). -/
theorem State.chunkAnswer_keeps (s : State) (i : Fin 4) (eid c : Nat) (ok : Bool) :
    (s.chunkAnswer i eid c ok).mem = s.mem ∧ (s.chunkAnswer i eid c ok).harts[i].late = s.harts[i].late := by
  unfold State.chunkAnswer
  split
  · exact ⟨rfl, rfl⟩
  · exact State.chunkWritten_keeps s i c _

/-- What follows a store on its way that has performed: its chunk's answer. -/
def LateStore.answered (b : LateStore) (i : Fin 4) (s : State) : State :=
  match b.chunk with
  | none => s
  | some (eid, c) => s.chunkAnswer i eid c true

theorem LateStore.answered_keeps (b : LateStore) (i : Fin 4) (s : State) :
    (b.answered i s).mem = s.mem ∧ (b.answered i s).harts[i].late = s.harts[i].late := by
  unfold LateStore.answered
  split
  · exact ⟨rfl, rfl⟩
  · exact State.chunkAnswer_keeps _ _ _ _ _

/-- A machine in which a store on its way has left its queue. -/
def State.tookLate (s : State) (i : Fin 4) (b : LateStore) : State := s.modHart i fun h => { h with late := h.late.erase b }

/-- A store on its way performs where its bank stands as it was checked (R332). -/
theorem State.performLate_stored {s t : State} {i : Fin 4} {b : LateStore} (hr : s.harts[i].lateReady b = true) (hmode : s.bankMode b.va.toNat = b.mode)
    (hst : (s.tookLate i b).store (b.who s i) b.va.toNat b.bytes .engine = .ok () t) : s.performLate i b = b.answered i t := by
  have hmode' : (s.bankMode b.va.toNat == b.mode) = true := by simpa using hmode
  change (if !s.harts[i].lateReady b then s else
    match (s.tookLate i b).store (b.who s i) b.va.toNat b.bytes .engine with
    | .busy => s
    | .ok _ t => if s.bankMode b.va.toNat == b.mode then b.answered i t else _
    | .fabric _ _ => _
    | _ => _) = _
  rw [hst]
  simp only [hr, hmode', Bool.not_true, Bool.false_eq_true, if_false, if_true]

theorem State.performLate_plain {s : State} {i : Fin 4} {b : LateStore} {k : Nat} {D : Nat → Prop} (hr : s.harts[i].lateReady b = true)
    (hwf : s.mem.wf = true) (hsca : s.mem.sca = []) (hseal : s.mem.sealed = []) (hmode : s.bankMode b.va.toNat = b.mode)
    (hplain : PlainAt { s with cur := i } b.level D b.va.toNat b.bytes.length .store .engine k) :
    ∃ t, s.performLate i b = t ∧ BytesWritten s t k b.bytes ∧ t.harts[i].late = s.harts[i].late.erase b := by
  obtain ⟨hn, hpage, hpl⟩ := plain_of_plainAt (s := s.tookLate i b) (hs := s.harts) hplain
  obtain ⟨u, hst, hstored⟩ := hpl.store (w := b.who s i) hsca hseal hn hpage rfl rfl
  obtain ⟨hmem, hlate⟩ := b.answered_keeps i u
  obtain ⟨r, hhart⟩ := hstored.hart i
  refine ⟨_, State.performLate_stored hr hmode hst, ?_, ?_⟩
  · refine bytesWritten_of_cells hwf ?_
    rw [hmem]
    exact hstored.cells
  · rw [hlate, hhart]
    exact congrArg Hart.late (State.modHart_same s i _)

/-- A store of a lane group's queue, or a kept write of a copy, performs. -/
theorem State.performLane_found {s : State} {i : Fin 4} {b : LateStore} {o : Option (Fin 4)} (hf : s.harts[i].late.find? (·.lane == o) = some b) :
    s.performLane i o = s.performLate i b := by
  rw [State.performLane, hf]

/-! ### Writes of the device's own agents -/

/-- Bytes that an agent of the device writes for a context. -/
theorem State.agentWrite_plain {s : State} {c : BitVec 32} {va k : Nat} {bs : List Byte} {D : Nat → Prop} (hwf : s.mem.wf = true) (hsca : s.mem.sca = [])
    (hseal : s.mem.sealed = []) (hplain : PlainAt (s.mod fun x => { x with ctxid := c }) .s D va bs.length .store .engine k) :
    ∃ t, s.deviceWrite ⟨s.cur, c.toNat, .s, 0#64, 5, 0⟩ va bs = some t ∧ BytesWritten s t k bs ∧
      ∀ (j : Fin 4) l, s.harts[j].resv = some l → l ∈ linesOf k bs.length → t.harts[j].resv = none := by
  obtain ⟨hn, hpage, hpl⟩ := plain_of_plainAt (s := s) (hs := (s.mod fun x => { x with ctxid := c }).harts) (i := s.cur) hplain
  have hctx : (s.mod fun x => { x with ctxid := c }).harts[s.cur].ctxid = c := congrArg Hart.ctxid (State.modHart_same s s.cur _)
  rw [hctx] at hpl
  obtain ⟨u, hst, hstored⟩ := hpl.deviceWrite (w := ⟨s.cur, c.toNat, .s, 0#64, 5, 0⟩) hsca hseal hn hpage hpl.va_lt rfl rfl
  exact ⟨u, hst, hstored.bytesWritten hwf, fun j l hj hl => hstored.resv_none hj hl⟩

/-! ### Translations that are kept (R298, R303) -/

theorem pageSize_pos (lvl : Nat) (c : Bool) : 0 < pageSize lvl c := by
  unfold pageSize
  split_ifs <;> decide

/-- A walk gives the page of the address that it was made for. -/
theorem walkFrom_page {m : Memory} {enc surv : Bool} {asid : BitVec 16} {va : Nat} {e : TlbEntry} : ∀ {lvl pa : Nat},
    (walkFrom m enc surv asid va lvl pa).1 = .page e → e.va ≤ va ∧ va < e.va + e.size := by
  have hleaf {lvl : Nat} {c : Bool} : va / pageSize lvl c * pageSize lvl c ≤ va ∧ va < va / pageSize lvl c * pageSize lvl c + pageSize lvl c :=
    ⟨Nat.div_mul_le_self _ _, Nat.lt_div_mul_add (pageSize_pos lvl c)⟩
  intro lvl
  induction lvl with
  | zero =>
    intro pa h
    unfold walkFrom at h
    dsimp only at h
    repeat' split at h
    all_goals cases h
    all_goals exact hleaf
  | succ l ih =>
    intro pa h
    unfold walkFrom at h
    dsimp only at h
    split at h
    · cases h
    · split at h
      · cases h
      · split at h
        · exact ih h
        · repeat' split at h
          all_goals cases h
          all_goals exact hleaf

theorem State.walk_page {s : State} {n va : Nat} {e : TlbEntry} (h : s.walk n va = .page e) : e.va ≤ va ∧ va < e.va + e.size := by
  unfold State.walk State.walkAll at h
  split at h
  · cases h
  · split at h
    · exact walkFrom_page h
    · cases h

theorem TlbEntry.eq_of_same {e f : TlbEntry} (h : e.same f = true) : e = f := by
  simp only [TlbEntry.same, Bool.and_eq_true, beq_iff_eq] at h
  obtain ⟨⟨⟨⟨⟨⟨⟨⟨⟨⟨h1, h2⟩, h3⟩, h4⟩, h5⟩, h6⟩, h7⟩, h8⟩, h9⟩, h10⟩, h11⟩ := h
  cases e
  cases f
  simp_all

/-- A translation that a TLB holds or takes is held. -/
theorem State.mem_tlbHits_fillTlb {s : State} {e : TlbEntry} {va : Nat} (hlo : e.va ≤ va) (hhi : va < e.va + e.size) (w : Who) (path : AccPath) :
    e ∈ (s.fillTlb w path e).tlbHits e.asid va := by
  have hhits : e.hits e.asid va = true := by simp [TlbEntry.hits, hlo, hhi]
  unfold State.fillTlb
  split
  · rename_i hheld
    obtain ⟨f, hf, hsame⟩ := List.any_eq_true.mp hheld
    have hfe := TlbEntry.eq_of_same hsame
    obtain ⟨hf, -⟩ := List.mem_filter.mp hf
    rw [← hfe] at hf
    exact List.mem_append_left _ (List.mem_filter.mpr ⟨hf, hhits⟩)
  · have hdie : e ∈ (e :: s.mem.dieTlb.filter fun f => !e.same f).take 8192 := List.mem_cons_self
    dsimp only
    split
    · exact List.mem_append_right _ (List.mem_filter.mpr ⟨hdie, hhits⟩)
    · exact List.mem_append_right _ (List.mem_filter.mpr ⟨hdie, hhits⟩)

/-- Keeping a translation touches the TLBs and the ways alone. -/
theorem State.fillTlb_keeps (s : State) (w : Who) (path : AccPath) (e : TlbEntry) :
    { s.fillTlb w path e with mem := s.mem, core := s.core } = s ∧ (s.fillTlb w path e).mem.cells = s.mem.cells := by
  have hreads (l : List Nat) : s.mem.Touched (l.foldl (fun m k => m.touchRead false k 8) s.mem) :=
    List.foldlRecOn (motive := (s.mem.Touched ·)) _ _ (.refl _) fun b hb k _ => hb.trans (b.touchRead_touched false k 8)
  unfold State.fillTlb
  split
  · exact ⟨rfl, rfl⟩
  · dsimp only
    split
    · exact ⟨rfl, (hreads _).cells⟩
    · exact ⟨rfl, (hreads _).cells⟩

end Sys2Proof.Machine
end

section
/-! SUPPORT. What the core's shared units and the tasks do when their events come: lane groups and matrix mode (R162, R168), barriers (R589), signals
(R468), the heartbeat (R90), and the dispatch unit (R141). -/

namespace Sys2Proof.Machine
open Sys2Proof.Claims

/-! ### Lane groups and matrix mode (R162, R168) -/

theorem State.fillStarts_none {s : State} (h : s.sched.starts = []) : s.fillStarts = s := by
  simp [State.fillStarts, h]

/-- A hart that was served asks no more. -/
theorem laneAsk_served {h : Hart} (hs : h.laneServed = true) : laneAsk h = none := by
  unfold laneAsk
  split
  · exact if_pos hs
  · rfl

theorem State.grantOnce_served {s : State} {i : Fin 4} {n : Nat} (hf : s.core.anyFree = true) (hw : s.firstLaneWaiter = some (i, n)) :
    s.grantOnce.harts[i].laneServed = true := by
  unfold State.grantOnce
  rw [hw]
  dsimp only
  rw [if_pos hf]
  exact congrArg Hart.laneServed (State.modHart_same _ i _)

/-- Freed lane groups go to the first waiter (R162). -/
theorem State.serveLanes_served {s : State} {i : Fin 4} {n : Nat} (hf : s.settleLanes.core.anyFree = true) (hw : s.firstLaneWaiter = some (i, n)) :
    s.serveLanes.harts[i].laneServed = true := by
  have hkeep {u : State} (hu : u.harts[i].laneServed = true) : u.grantOnce.harts[i].laneServed = true := by
    rw [State.grantOnce_still u i (laneAsk_served hu)]
    exact hu
  exact hkeep (hkeep (hkeep (State.grantOnce_served hf hw)))

theorem State.serveLanes_sched (s : State) : s.serveLanes.sched = s.sched := by
  obtain ⟨hs, c, h⟩ := s.serveLanes_frame
  rw [h]

theorem mstatWith_active (m : BitVec 10) : (mstatWith m 0#10 1#10).getLsbD 0 = true := by
  simp [mstatWith]

/-- The oldest waiting hart gets matrix mode (R168). -/
theorem State.grantMatrix_granted {s : State} {i : Fin 4} {rest : List (Fin 4)} (hm : s.core.matrix = none) (hr : s.core.matrixResv = false)
    (hw : s.core.matrixWaiters = i :: rest) : s.grantMatrix.core.matrix = some i ∧ s.grantMatrix.core.matrixWaiters = rest ∧
      s.grantMatrix.harts[i].mstat.getLsbD 0 = true ∧ s.grantMatrix.harts[i].matrixServed = true ∧ s.grantMatrix.sched = s.sched := by
  have hw' : (if s.core.matrixResv then [] else s.core.matrixWaiters) = i :: rest := by rw [hr, if_neg Bool.false_ne_true, hw]
  unfold State.grantMatrix
  rw [hm, hw']
  refine ⟨rfl, rfl, ?_, ?_, ?_⟩
  · rw [State.modHart_same]
    exact mstatWith_active _
  · rw [State.modHart_same]
  · rw [State.modHart_sched]
    dsimp only
    split
    · split
      · rfl
      · rfl
    · rfl

/-! ### Barriers (R589) -/

/-- A hart that a barrier of a scope has released. -/
def Hart.released (scope : Nat) (h : Hart) : Hart :=
  let x := if 3 ≤ scope then h.dropStrips else h
  { x.loopStep x.pc with status := .running, laneServed := false, matrixServed := false }

/-- A core whose data cache is dropped by a fence of a scope of 3 at least. -/
def State.fenced (scope : Nat) (s : State) : State := if 3 ≤ scope then { s with core := { s.core with dcache := [] } } else s

theorem State.fenced_keeps (scope : Nat) (s : State) : (s.fenced scope).mem = s.mem ∧ (s.fenced scope).sched = s.sched ∧
    (s.fenced scope).harts = s.harts ∧ ((3 ≤ scope ∨ s.core.dcache = []) → (s.fenced scope).core.dcache = []) := by
  unfold State.fenced
  split
  · exact ⟨rfl, rfl, rfl, fun _ => rfl⟩
  · rename_i h
    exact ⟨rfl, rfl, rfl, fun hd => hd.resolve_left h⟩

theorem State.releaseHart_eq {s : State} {scope : Nat} {i : Fin 4} (h : s.harts[i].arrived scope = true) :
    s.releaseHart scope i = (s.fenced scope).modHart i (Hart.released scope) := by
  have heq : s.releaseHart scope i = { (State.fenceEffect { s with cur := i } scope).retire with cur := s.cur } := if_pos h
  rw [heq]
  unfold State.fenceEffect State.fenced
  by_cases hs : 3 ≤ scope
  · have hrel : Hart.released scope = (fun h => { h.loopStep h.pc with status := .running, laneServed := false, matrixServed := false }) ∘ Hart.dropStrips :=
      funext fun h => by simp only [Hart.released, hs, if_true, Function.comp_apply]
    rw [if_pos hs, if_pos hs, State.retire, State.mod_mod, hrel]
    rfl
  · have hrel : Hart.released scope = fun h => { h.loopStep h.pc with status := .running, laneServed := false, matrixServed := false } :=
      funext fun h => by simp only [Hart.released, hs, if_false]
    rw [if_neg hs, if_neg hs, State.retire, hrel]
    rfl

theorem State.releaseHart_arrived {s : State} {scope : Nat} {i : Fin 4} (h : s.harts[i].arrived scope = true) :
    (s.releaseHart scope i).harts[i] = s.harts[i].released scope ∧ (∀ j, j ≠ i → (s.releaseHart scope i).harts[j] = s.harts[j]) ∧
    (s.releaseHart scope i).mem = s.mem ∧ (s.releaseHart scope i).sched = s.sched ∧
    ((3 ≤ scope ∨ s.core.dcache = []) → (s.releaseHart scope i).core.dcache = []) := by
  obtain ⟨hmem, hsched, hharts, hd⟩ := s.fenced_keeps scope
  rw [State.releaseHart_eq h]
  refine ⟨?_, fun j hj => ?_, hmem, hsched, hd⟩
  · rw [State.modHart_same, hharts]
  · rw [State.modHart_other _ _ _ _ hj, hharts]

/-- The harts of a barrier are released one after another. -/
theorem State.releaseHarts {scope : Nat} {l : List (Fin 4)} : ∀ {s : State}, l.Nodup → (∀ i ∈ l, s.harts[i].arrived scope = true) →
    let t := l.foldl (fun s i => s.releaseHart scope i) s
    t.mem = s.mem ∧ t.sched = s.sched ∧ ((3 ≤ scope ∧ l ≠ [] ∨ s.core.dcache = []) → t.core.dcache = []) ∧
    ∀ i : Fin 4, t.harts[i] = if i ∈ l then s.harts[i].released scope else s.harts[i] := by
  induction l with
  | nil => exact fun _ _ => ⟨rfl, rfl, fun h => h.resolve_left fun h => h.2 rfl, fun i => by simp⟩
  | cons a l ih =>
    intro s hnd harr
    obtain ⟨hal, hnd⟩ := List.nodup_cons.mp hnd
    obtain ⟨hown, hother, hmem, hsched, hd⟩ := State.releaseHart_arrived (harr a List.mem_cons_self)
    have hne {i : Fin 4} (hi : i ∈ l) : i ≠ a := fun h => hal (h ▸ hi)
    obtain ⟨hmem', hsched', hd', hharts⟩ := ih (s := s.releaseHart scope a) hnd fun i hi => by
      rw [hother i (hne hi)]
      exact harr i (List.mem_cons_of_mem _ hi)
    refine ⟨hmem'.trans hmem, hsched'.trans hsched, fun h => hd' (.inr (hd (h.imp_left And.left))), fun i => ?_⟩
    rw [List.foldl_cons, hharts i]
    by_cases hia : i = a
    · subst hia
      rw [if_neg hal, if_pos List.mem_cons_self, hown]
    · simp only [List.mem_cons, hia, false_or, hother i hia]

theorem mem_harts (i : Fin 4) : i ∈ [(0 : Fin 4), 1, 2, 3] := by
  revert i
  decide

/-- Every participant of a barrier has arrived, and they go on (R589). -/
theorem State.releaseBarrier_arrived {s : State} {k : Task} {scope : Nat} (hmine : ∃ i, s.takesPart k i = true)
    (harr : ∀ i, s.takesPart k i = true → s.harts[i].arrived scope = true) :
    let t := s.releaseBarrier k scope true
    t.mem = s.mem ∧ (3 ≤ scope → t.core.dcache = []) ∧ t.sched.tasks = (s.sched.tasks.map fun x => if x.id = k.id then { x with arrived := 0 } else x) ∧
    ∀ i : Fin 4, t.harts[i] = if s.takesPart k i = true then s.harts[i].released scope else s.harts[i] := by
  have hmem (i : Fin 4) : i ∈ ([0, 1, 2, 3].filter fun i => s.takesPart k i) ↔ s.takesPart k i = true := by
    rw [List.mem_filter]
    exact and_iff_right (mem_harts i)
  obtain ⟨i, hi⟩ := hmine
  have hne : ([0, 1, 2, 3].filter fun i => s.takesPart k i) ≠ [] := List.ne_nil_of_mem ((hmem i).mpr hi)
  have hall : ([0, 1, 2, 3].filter fun i => s.takesPart k i).all (fun i => s.harts[i].arrived scope) = true :=
    List.all_eq_true.mpr fun i hi => harr i ((hmem i).mp hi)
  unfold State.releaseBarrier
  dsimp only
  rw [if_pos (by rw [hall, List.isEmpty_eq_false_iff.mpr hne]; simp only [Bool.true_or, Bool.not_false, Bool.and_self])]
  obtain ⟨h1, h2, h3, h4⟩ := State.releaseHarts (scope := scope) (l := [0, 1, 2, 3].filter fun i => s.takesPart k i)
    (s := { s with sched := { s.sched with tasks := s.sched.tasks.map fun x => if x.id = k.id then { x with arrived := 0 } else x } })
    (List.Nodup.filter _ (by decide)) fun i hi => harr i ((hmem i).mp hi)
  refine ⟨h1, fun h => h3 (.inl ⟨h, hne⟩), congrArg Sched.tasks h2, fun i => ?_⟩
  rw [h4 i]
  simp only [hmem]

/-! ### Signals (R468) -/

theorem State.signalHart_hart (s : State) (id : BitVec 11) (c : BitVec 32) (i : Fin 4) : (s.signalHart id c).harts[i] =
    if s.hartId i = id.toNat ∧ s.harts[i].isRunning = true ∧ s.harts[i].ctxid = c then { s.harts[i] with ev := true } else s.harts[i] := by
  unfold State.signalHart
  simp [Bool.and_assoc]

/-! ### The heartbeat (R90, R608) -/

/-- A hart waits for a heartbeat tick. -/
def Hart.AwaitsTick (h : Hart) : Prop := ∃ n w, h.status = .waiting (.tick n) w

/-- Of the harts that `p` names none comes to wait for a tick. -/
def State.NoNewTick (p : Fin 4 → Prop) (s t : State) : Prop := ∀ j : Fin 4, p j → t.harts[j].AwaitsTick → s.harts[j].AwaitsTick

theorem State.NoNewTick.trans {p : Fin 4 → Prop} {s t u : State} (h : s.NoNewTick p t) (h' : t.NoNewTick p u) : s.NoNewTick p u :=
  fun j hj hu => h j hj (h' j hj hu)

/-- Harts with the statuses that they had. -/
theorem State.NoNewTick.of_status {p : Fin 4 → Prop} {s t : State} (h : ∀ j : Fin 4, p j → t.harts[j].status = s.harts[j].status) : s.NoNewTick p t := by
  rintro j hj ⟨n, w, hs⟩
  exact ⟨n, w, (h j hj).symm.trans hs⟩

/-- A hart that is not named may do anything. -/
theorem State.NoNewTick.modHart_unnamed {p : Fin 4 → Prop} (s : State) {i : Fin 4} (hi : ¬ p i) (f : Hart → Hart) : s.NoNewTick p (s.modHart i f) :=
  .of_status fun j hj => congrArg Hart.status (State.modHart_other _ i j f fun h => hi (h ▸ hj))

theorem State.modHart_status (s : State) {f : Hart → Hart} (hf : ∀ h, (f h).status = h.status) (i j : Fin 4) :
    (s.modHart i f).harts[j].status = s.harts[j].status := by
  by_cases hij : j = i
  · subst hij
    rw [State.modHart_same, hf]
  · rw [State.modHart_other _ _ _ _ hij]

/-- What a hart gives up leaves every hart's status (R145). -/
theorem State.giveUp_status (s : State) (i j : Fin 4) : (s.giveUp i).harts[j].status = s.harts[j].status := by
  unfold State.giveUp
  dsimp only
  generalize hv : (State.releaseLanes _ i 15#4 : State) = v
  have hv' : v.harts[j].status = s.harts[j].status := by
    rw [← hv]
    exact s.modHart_status (f := Hart.givenUp) (fun _ => rfl) i j
  obtain ⟨-, honly⟩ := v.leaveMatrix_keeps i false
  obtain ⟨m, b, hm⟩ := honly j
  obtain ⟨b', vt, hl⟩ := (v.leaveMatrix i false).serveLanes_hart j
  rw [hl, hm]
  exact hv'

theorem State.stopIf_noNewTick (p : Fin 4 → Prop) (s : State) (n : Nat) (i : Fin 4) : s.NoNewTick p (s.stopIf n i) := by
  unfold State.stopIf
  split
  · rintro j - ⟨m, w, hs⟩
    by_cases hij : j = i
    · subst hij
      rw [State.modHart_same] at hs
      cases hs
    · rw [State.modHart_other _ _ _ _ hij, State.giveUp_status] at hs
      exact ⟨m, w, hs⟩
  · exact .of_status fun _ _ => rfl

/-- A context that is killed makes no hart wait. -/
theorem State.killContext_noNewTick (p : Fin 4 → Prop) (s : State) (n : Nat) (cause : BitVec 8) : s.NoNewTick p (s.killContext n cause) := by
  unfold State.killContext
  split
  · exact .of_status fun _ _ => rfl
  · have hstop : s.NoNewTick p ([(0 : Fin 4), 1, 2, 3].foldl (fun s i => s.stopIf n i) s) :=
      List.foldlRecOn (motive := (s.NoNewTick p ·)) _ _ (.of_status fun _ _ => rfl) fun u hu i _ => hu.trans (u.stopIf_noNewTick p n i)
    generalize [(0 : Fin 4), 1, 2, 3].foldl (fun s i => s.stopIf n i) s = v at hstop
    have hpost (u : State) : (u.postEvent 0x31 (natLe 4 n ++ [cause])).harts = u.harts :=
      (congrArg State.harts (u.postEvent_frame 0x31 (natLe 4 n ++ [cause])) :)
    refine hstop.trans (.of_status fun j _ => ?_)
    dsimp only
    rw [hpost]
    rfl

section
variable {p : Fin 4 → Prop} {s : State} (hc : ¬ p s.cur)
include hc

theorem State.takeTrap_noNewTick (t : Trap) (epc : Word) : s.NoNewTick p (s.takeTrap t epc) := by
  unfold State.takeTrap
  split
  · exact s.killContext_noNewTick p _ _
  · split
    · exact s.killContext_noNewTick p _ _
    · exact State.NoNewTick.modHart_unnamed { s with core := _ } hc _

/-- `hbeat` completes, waits or traps, and makes no other hart wait. -/
theorem execHbeat_noNewTick (a d : XNum) : ∃ t, execHbeat a d s = .next t ∧ s.NoNewTick p t := by
  unfold execHbeat syncInstr scalarInstr
  split
  · exact ⟨_, rfl, s.takeTrap_noNewTick hc _ _⟩
  · split
    · exact ⟨_, rfl, s.takeTrap_noNewTick hc _ _⟩
    · split
      · exact ⟨_, rfl, .modHart_unnamed s hc _⟩
      · dsimp only
        split
        · exact ⟨_, rfl, (State.NoNewTick.modHart_unnamed s hc _).trans (.modHart_unnamed (s.setX d _) hc _)⟩
        · exact ⟨_, rfl, .modHart_unnamed s hc _⟩

end

/-- The word of `hbeat` names its registers. -/
theorem wHbeat_fields (a d : XNum) : (wHbeat a d).extractLsb' 21 5 = a ∧ (wHbeat a d).extractLsb' 8 5 = d := by
  unfold wHbeat
  constructor
  · ext i hi
    rw [BitVec.getElem_extractLsb']
    grind
  · ext i hi
    rw [BitVec.getElem_extractLsb']
    grind

/-- A hart that waits with the word of `hbeat` executes it again at a tick. -/
theorem onWaiter_hbeat {s : State} {i : Fin 4} {n : Nat} {a d : XNum} (hf : s.harts[i].frozen = false)
    (hw : s.harts[i].status = .waiting (.tick n) (wHbeat a d)) {t : State} (ht : execHbeat a d { s with cur := i } = .next t) :
    onWaiter i retryTick s = .next { t with cur := s.cur } := by
  obtain ⟨ha, hd⟩ := wHbeat_fields a d
  have hretry : retryTick (wHbeat a d) { s with cur := i } = .next t := by
    rw [retryTick, ha, hd, if_pos (beq_self_eq_true _)]
    exact ht
  unfold onWaiter onHart
  simp only [hf, hw, hretry, Bool.false_eq_true, if_false]

theorem wakeTicks_cons_none {s : State} {i : Fin 4} (l : List (Fin 4)) (h : ¬ s.harts[i].AwaitsTick) : wakeTicks (i :: l) s = wakeTicks l s := by
  conv_lhs => unfold wakeTicks
  split
  · rename_i n w hs
    exact absurd ⟨n, w, hs⟩ h
  · rfl

theorem wakeTicks_cons_some {s t : State} {i : Fin 4} (l : List (Fin 4)) (h : s.harts[i].AwaitsTick) (ht : onWaiter i retryTick s = .next t) :
    wakeTicks (i :: l) s = wakeTicks l t := by
  obtain ⟨n, w, hs⟩ := h
  conv_lhs => unfold wakeTicks
  simp only [hs, ht]

/-- Harts of which none waits for a tick are left alone. -/
theorem wakeTicks_none {l : List (Fin 4)} : ∀ {s : State}, (∀ i ∈ l, ¬ s.harts[i].AwaitsTick) → wakeTicks l s = .next s := by
  induction l with
  | nil => exact fun _ => rfl
  | cons i l ih =>
    intro s h
    rw [wakeTicks_cons_none l (h i List.mem_cons_self)]
    exact ih fun j hj => h j (List.mem_cons_of_mem _ hj)

/-- One hart that waits with `hbeat` executes it at a tick. -/
theorem wakeTicks_one {h : Fin 4} {n : Nat} {a d : XNum} {l : List (Fin 4)} {s : State} (hf : s.harts[h].frozen = false)
    (hw : s.harts[h].status = .waiting (.tick n) (wHbeat a d)) (hh : h ∈ l) (hnd : l.Nodup) (hother : ∀ i, i ≠ h → ¬ s.harts[i].AwaitsTick) :
    ∃ t, execHbeat a d { s with cur := h } = .next t ∧ wakeTicks l s = .next { t with cur := s.cur } := by
  obtain ⟨t, ht, hnew⟩ := execHbeat_noNewTick (p := (· ≠ h)) (s := { s with cur := h }) (fun hne => hne rfl) a d
  refine ⟨t, ht, ?_⟩
  have hrest (m : List (Fin 4)) (hm : h ∉ m) : wakeTicks m { t with cur := s.cur } = .next { t with cur := s.cur } :=
    wakeTicks_none fun i hi htick => by
      have hne : i ≠ h := fun he => hm (he ▸ hi)
      exact hother i hne (hnew i hne htick)
  induction l with
  | nil => cases hh
  | cons i l ih =>
    obtain ⟨hil, hnd⟩ := List.nodup_cons.mp hnd
    by_cases hih : i = h
    · subst hih
      rw [wakeTicks_cons_some l ⟨n, _, hw⟩ (onWaiter_hbeat hf hw ht)]
      exact hrest l hil
    · rw [wakeTicks_cons_none l (hother i hih)]
      exact ih ((List.mem_cons.mp hh).resolve_left fun he => hih he.symm) hnd

/-- Device time moves on to a count that no pending instant stands before (R91). -/
theorem State.timeTo_clear {s : State} {adv : Nat}
    (h : ∀ g ∈ s.sched.gangs, g.passed = true ∨ g.t * 65536 ≤ s.clock.gtime ∨ s.clock.gtime + adv < g.t * 65536) :
    s.timeTo (s.clock.gtime + adv) = { s with clock := { s.clock with gtime := s.clock.gtime + adv } } := by
  have hstop : s.sched.gangs.foldl (fun n g => if g.passed || g.t * 65536 ≤ s.clock.gtime then n else min n (g.t * 65536 - 1)) (s.clock.gtime + adv) =
      s.clock.gtime + adv := by
    refine List.foldlRecOn (motive := (· = s.clock.gtime + adv)) _ _ rfl fun b hb g hg => ?_
    split
    · exact hb
    · rename_i hgo
      simp only [Bool.or_eq_true, decide_eq_true_eq, not_or] at hgo
      obtain ⟨hpass, hlate⟩ := hgo
      have hfar := ((h g hg).resolve_left hpass).resolve_left hlate
      rw [hb]
      omega
  unfold State.timeTo
  dsimp only
  rw [hstop, Nat.max_eq_right (Nat.le_add_right _ _)]

/-- A machine after a heartbeat tick in which device time has moved on by `adv`. -/
def State.ticked (adv : Nat) (s : State) : State :=
  { s with clock := { s.clock with gtime := s.clock.gtime + adv, hbeat := s.clock.hbeat + 1#64 }, sched := { s.sched with now := s.sched.now + 256 } }

theorem execHeartbeatTick_ready {s : State} {adv : Nat} (hr : s.host.state = .ready)
    (h : ∀ g ∈ s.sched.gangs, g.passed = true ∨ g.t * 65536 ≤ s.clock.gtime ∨ s.clock.gtime + adv < g.t * 65536) :
    execHeartbeatTick adv s = wakeTicks [0, 1, 2, 3] (s.ticked adv) := by
  unfold execHeartbeatTick
  rw [if_pos hr, State.timeTo_clear h]
  rfl

/-! ### The dispatch unit (R141) -/

theorem State.settleOthers_none {s : State} (h : ∀ k ∈ s.sched.tasks, k.others = 0) : s.settleOthers = s := by
  unfold State.settleOthers
  refine if_neg ?_
  simpa using h

/-- While no task is over and no hart waits for its slot nothing is settled. -/
theorem State.settleTasks_none {s : State} (h : ∀ k ∈ s.sched.tasks, s.taskOver k = false) (hs : s.sched.starts = []) : s.settleTasks = s := by
  have hend : s.sched.tasks.foldl State.endTask s = s := by
    refine List.foldlRecOn (motive := (· = s)) _ _ rfl fun u hu k hk => ?_
    rw [hu]
    refine if_neg ?_
    rw [h k hk]
    exact Bool.false_ne_true
  rw [State.settleTasks, hend, State.fillStarts_none hs]

theorem State.dispatchOnce_decided {s : State} {r : TaskRec} (h : ∀ k ∈ s.sched.tasks, k.others = 0 ∧ s.taskOver k = false) (hs : s.sched.starts = [])
    (hd : s.decision = some r) : s.dispatchOnce = s.dispatchRec r := by
  rw [State.dispatchOnce, State.settleOthers_none fun k hk => (h k hk).1, State.settleTasks_none (fun k hk => (h k hk).2) hs, hd]

end Sys2Proof.Machine
end

section
/-! SUPPORT. The statement O56: an equation for the event of each engine and of each unit. -/

namespace Sys2Proof.Machine
open Sys2Proof.Claims

/-! ### Strips, fetches and traps -/

/-- A strip that a queued instruction has popped is fetched (R219). -/
theorem execStreamStripFetch_popped {s u : State} {h b : Fin 4} {e e' : QEntry} {l : List Strip} {o : Stop}
    (hf : (s.harts[h].queue.find? fun e => e.strips.any fun x => x.reg == s.harts[h].sb[b].reg) = some e) (hz : s.harts[h].frozen = false)
    (hl : stripsLoop h e.strips s e [] = (u, e', l, o)) (ho : ∀ t, o ≠ .trap t) :
    execStreamStripFetch h b s = .next (u.putEntry h { e' with strips := l }) := by
  unfold execStreamStripFetch
  simp only [hf, hz, hl, Bool.false_eq_true, if_false]

theorem execReservedEncoding_running {s : State} {h : Fin 4} {w : IWord} (hw : isReserved w = true) (hr : s.harts[h].status = .running) :
    execReservedEncoding h w s = .next { State.ill { s with cur := h } w with cur := s.cur } := by
  simp only [execReservedEncoding, hw, hr, beq_self_eq_true, Bool.and_self, if_true, State.asHart]

theorem execPfFetch_faulting {s t : State} {h : Fin 4} (hr : s.harts[h].status = .running) (ht : State.fetch { s with cur := h } = .error t) :
    execPfFetch h s.harts[h].pc s = .next { t with cur := s.cur } := by
  simp only [execPfFetch, hr, beq_self_eq_true, Bool.and_self, if_true, State.asHart, ht]

theorem execAsyncTrapDelivery_due {s : State} {h : Fin 4} (hd : s.harts[h].asyncDue = true) :
    execAsyncTrapDelivery h s = .next { State.deliverAsync { s with cur := h } with cur := s.cur } := by
  simp only [execAsyncTrapDelivery, hd, if_true, State.asHart]

/-- A walk that comes to a page keeps its translation (R303). -/
theorem execTableWalkDone_page {s : State} {h : Fin 4} {va : Word} {e : TlbEntry} (kind : Fin 4) (hr : s.harts[h].isRunning = true) (hva : va.toNat < 2 ^ 48)
    (hw : s.walk s.harts[h].ctxid.toNat va.toNat = .page e) : execTableWalkDone h va kind s =
      .next (s.fillTlb ⟨h, s.harts[h].ctxid.toNat, s.harts[h].level, s.harts[h].pc, 1, 0⟩ (if kind = 3 then .atomic else .scalar) e) := by
  simp only [execTableWalkDone, hr, hva, kind.isLt, hw, decide_true, Bool.and_self, if_true]

/-! ### The statement -/

/-- Settles O56, an equation of each event a clause. -/
theorem engineAndUnitEvents : Obligations.EngineAndUnitEvents := by
  intro s h
  refine ⟨?intersect, ?matrixBegins, ?copyBegins, ?matrixWrites, ?retires, ?enters, ?writes, ?arrives, ?notifies, ?chunk, ?hash, ?cwait, ?capp, ?sbind,
    ?gang, ?gsync, ?strip, ?queueTrap, ?asyncTrap, ?reserved, ?fetch, ?buffer, ?late, ?agent, ?walk, ?lanes, ?matrix, ?barrier, ?signal, ?tick, ?dispatch⟩
  case intersect | matrixBegins => exact fun e ho he hs hm => congrArg Host.Outcome.next (State.beginHead_begins ho he hs hm)
  case copyBegins =>
    intro e ho he hs hm
    show execCopyBegin h s = _
    rw [execCopyBegin, ho]
    exact congrArg Host.Outcome.next (State.beginOnly_begins he hs hm)
  case matrixWrites => exact fun e t hh ha hr => congrArg Host.Outcome.next (State.runHead_runs hh ha hr)
  case retires => exact fun g e t hh ha hr => congrArg Host.Outcome.next (State.runHead_runs hh ha hr)
  case enters =>
    intro g e hl hm
    refine ⟨fun hlaned hs => congrArg Host.Outcome.next (loneVector_enters_whole (s := s.byEvents) hl hm hlaned hs), fun p hb hp hmask => ?_⟩
    obtain ⟨hv, hmr, hx⟩ := Hart.entering_lone (loneVector_queue hl) g p
    refine ⟨_, congrArg Host.Outcome.next (loneVector_enters_pass (s := s.byEvents) hl hm hb hp hmask), rfl, ?_⟩
    rw [State.modHart_same]
    exact ⟨hv, hmr, hx⟩
  case writes =>
    intro g e hl hs
    refine ⟨fun u e' x hlaned hh hf => ?_, fun f p hb hcvt hp hent hlo ha hr => ?_⟩
    · have hwhole := loneVector_writes_whole (s := s.byEvents) hl hs hlaned hh hf
      refine ⟨fun hrun => congrArg Host.Outcome.next ?_, fun hrun => congrArg Host.Outcome.next ?_⟩
      · rw [hwhole, hrun]
        rfl
      · rw [hwhole, hrun]
        rfl
    · have hpass := loneVector_writes_pass (s := s.byEvents) hl hs hb hp hent
      obtain ⟨hart, hmem, hhart, hv, hm, hfcsr, hlast, hnext⟩ := State.writeElems_lone (s := s.byEvents) (g := g) (loneVector_queue hl) hb hcvt hlo ha hr
      refine ⟨_, congrArg Host.Outcome.next hpass, hmem, ?_⟩
      rw [hhart]
      refine ⟨hv, hm, hfcsr, hlast, fun hlt => ⟨_, hnext hlt, rfl, rfl, ?_⟩⟩
      exact congrArg LanePos.wrote (e.setAt_same g p fun q => { q with wrote := p.hi })
  case arrives =>
    intro e mode mw sx sc x l1 l2 hq hb hslots h1 hx hx1 hx2 hquiet w act key hact
    obtain ⟨t, ht, hbytes, hv, e', hq', hslots'⟩ := State.fillSlot_plain hq hb hslots h1 hx hx1 hx2 hquiet key hact
    exact ⟨t, congrArg Host.Outcome.next ht, hbytes, hv, e', hq', hslots'⟩
  case notifies | chunk | hash | cwait | capp | sbind => exact fun e t hf ha hr => congrArg Host.Outcome.next (State.runFirst_runs hf ha hr)
  case gang | gsync => exact fun e t hh hb hr => congrArg Host.Outcome.next (State.joinHead_runs (beq_self_eq_true _) hh hb hr)
  case strip => exact fun b e u e' l o hf hz hl ho => execStreamStripFetch_popped hf hz hl ho
  case queueTrap =>
    intro e rest t hq hrest hp ha hm hc hl hv
    obtain ⟨⟨hcause, htval, hepc, hlevel, hpc⟩, hheld, hmem⟩ := State.entryFault_taken hq hrest hc hl hv t
    exact ⟨_, execTrapInQueue_of_pending hq hp ha hm, hcause, htval, hepc, hlevel, hpc, hheld, hmem⟩
  case asyncTrap =>
    intro t rest ha hd hv
    obtain ⟨⟨hcause, htval, hepc, hlevel, hpc⟩, hrest, hmem⟩ := State.deliverAsync_taken (s := { s with cur := h }) ha hd hv
    exact ⟨_, execAsyncTrapDelivery_due hd, hcause, htval, hepc, hlevel, hpc, hrest, hmem⟩
  case reserved => exact fun w hw hr => execReservedEncoding_running hw hr
  case fetch => exact fun t hr ht => execPfFetch_faulting hr ht
  case buffer =>
    intro b rest k va bs hq hwf hsca hseal hmode hplain
    obtain ⟨t, ht, hbytes, hrest⟩ := State.drainStores_plain hq hwf hsca hseal hmode hplain
    exact ⟨t, congrArg Host.Outcome.next ht, hbytes, hrest⟩
  case late =>
    intro a o b k va bs ho hf hr hwf hsca hseal hmode hplain
    obtain ⟨t, ht, hbytes, hlate⟩ := State.performLate_plain hr hwf hsca hseal hmode hplain
    have hlane := (State.performLane_found hf).trans ht
    rcases ho with ⟨g, rfl, rfl⟩ | ⟨rfl, rfl⟩
    · exact ⟨t, congrArg Host.Outcome.next hlane, hbytes, hlate⟩
    · exact ⟨t, congrArg Host.Outcome.next hlane, hbytes, hlate⟩
  case agent =>
    intro c va k bs hwf hsca hseal hplain
    obtain ⟨t, ht, hbytes, hresv⟩ := State.agentWrite_plain hwf hsca hseal hplain
    refine ⟨t, ?_, hbytes, hresv⟩
    show execStorePerform (.agent c.toNat) va bs s = _
    simp only [execStorePerform, ht, Option.getD_some]
  case walk =>
    intro va kind e hr hva hw
    obtain ⟨hlo, hhi⟩ := State.walk_page hw
    refine ⟨_, execTableWalkDone_page kind hr hva hw, State.mem_tlbHits_fillTlb hlo hhi _ _, State.fillTlb_keeps _ _ _ _⟩
  case lanes =>
    intro hs
    have hfill : s.serveLanes.fillStarts = s.serveLanes := State.fillStarts_none (s.serveLanes_sched ▸ hs)
    exact ⟨_, congrArg Host.Outcome.next hfill, s.serveLanes_mem, s.serveLanes_still, fun hf i n hw => State.serveLanes_served hf hw⟩
  case matrix =>
    intro i rest hs hm hr hw
    obtain ⟨hgot, hrest, hmstat, hserved, hsched⟩ := State.grantMatrix_granted hm hr hw
    have hfill : s.grantMatrix.fillStarts = s.grantMatrix := State.fillStarts_none (by rw [hsched, hs])
    exact ⟨_, congrArg Host.Outcome.next hfill, hgot, hrest, hmstat, hserved⟩
  case barrier =>
    intro id c k hk hmine harr
    obtain ⟨hmem, hd, htasks, hharts⟩ := State.releaseBarrier_arrived hmine harr
    refine ⟨_, ?_, hmem, hd, htasks, hharts⟩
    show execBarrierRelease id c s = _
    rw [execBarrierRelease, hk]
  case signal =>
    exact fun id c => ⟨_, rfl, rfl, rfl, State.signalHart_hart { s with sched := { s.sched with signals := s.sched.signals.erase (id, c) } } id c⟩
  case tick =>
    intro adv u
    refine ⟨fun hr => if_neg hr, fun hinst => ⟨fun hr hnone => ?_, fun hr hother n a d hf hw => ?_⟩⟩
    · exact (execHeartbeatTick_ready hr hinst).trans (wakeTicks_none fun i _ ⟨n, w, hi⟩ => hnone i n w hi)
    · obtain ⟨t, ht, hwake⟩ := wakeTicks_one (s := s.ticked adv) (l := [0, 1, 2, 3]) hf hw (mem_harts h) (by decide)
        fun i hi ⟨n, w, hw⟩ => hother i n w hi hw
      exact ⟨t, ht, (execHeartbeatTick_ready hr hinst).trans hwake⟩
  case dispatch => exact fun r hk hs hd => congrArg Host.Outcome.next (State.dispatchOnce_decided hk hs hd)

end Sys2Proof.Machine
end

section
/-! SUPPORT. Events that end a wait (R164, R311, R336, R376, R467, R470, R589): the word that a hart waits with names its instruction and
its operands, so what the event tries again is that instruction; and the statement O55 that they make up. That the events do nothing
for a hart that runs is assumption 58. -/

namespace Sys2Proof.Machine
open Sys2Proof.Claims

/-! ### Every instruction of a wait answers a next state -/

theorem scalarInstr_next (w : IWord) (rs : List XNum) (s : State) (k : State → State) : ∃ t, scalarInstr w rs s k = .next t := by
  rcases scalarInstr_cases w rs s k with ⟨-, h⟩ | ⟨-, -, h⟩ | ⟨-, -, h⟩
  all_goals exact ⟨_, h⟩

theorem syncInstr_next (w : IWord) (rs : List XNum) (s : State) (k : State → State) : ∃ t, syncInstr w rs s k = .next t := by
  unfold syncInstr
  split
  · exact ⟨_, rfl⟩
  · exact scalarInstr_next w rs s k

theorem execFence_next (q : BitVec 3) (s : State) : ∃ t, execFence q s = .next t := by
  unfold execFence
  exact scalarInstr_next _ _ _ _

theorem execIfence_next (s : State) : ∃ t, execIfence s = .next t := by
  unfold execIfence
  exact scalarInstr_next _ _ _ _

theorem execLd_next (d a : XNum) (w : BitVec 3) (o : BitVec 13) (s : State) : ∃ t, execLd d a w o s = .next t := by
  unfold execLd
  exact scalarInstr_next _ _ _ _

theorem execSt_next (r a : XNum) (n : BitVec 2) (o : BitVec 13) (s : State) : ∃ t, execSt r a n o s = .next t := by
  unfold execSt
  exact scalarInstr_next _ _ _ _

theorem execTinva_next (s : State) : ∃ t, execTinva s = .next t := by
  unfold execTinva
  exact scalarInstr_next _ _ _ _

theorem execTinv_next (a : XNum) (s : State) : ∃ t, execTinv a s = .next t := by
  unfold execTinv
  split
  · exact ⟨_, rfl⟩
  · exact scalarInstr_next _ _ _ _

theorem execGwait_next (a d : XNum) (s : State) : ∃ t, execGwait a d s = .next t := by
  unfold execGwait
  split
  · exact syncInstr_next _ _ _ _
  · exact ⟨_, rfl⟩

/-! ### A hart that waits and one that runs -/

/-- An event that tries the word of a hart again executes the instruction of that word. -/
theorem resumes_of_word {s : State} {ev i : Instr} {h : Fin 4} {w : IWord} {retry : IWord → State → Result} (hev : exec ev s = onWaiter h retry s)
    (hw : encode i = some w) (hretry : ∀ u, retry w u = exec i u) (hnext : ∀ u, ∃ t, exec i u = .next t) : Resumes s ev h i := by
  rintro v hv ⟨hfrozen, k, hstatus, hremote, hbarrier⟩
  obtain rfl : w = v := Option.some.inj (hw.symm.trans hv)
  obtain ⟨t, ht⟩ := hnext { s with cur := h }
  refine ⟨t, ht, hev.trans ?_⟩
  have hrun : onHart h (retry w) s = .next { t with cur := s.cur } := by rw [onHart, hretry, ht]
  unfold onWaiter
  rw [hfrozen, hstatus, if_neg Bool.false_ne_true]
  cases k with
  | remote => exact absurd rfl hremote
  | barrier c => exact absurd rfl (hbarrier c)
  | _ => exact hrun

theorem onWaiter_running {s : State} {h : Fin 4} (hr : s.harts[h].status = .running) (retry : IWord → State → Result) :
    onWaiter h retry s = .next s := by
  unfold onWaiter
  rw [hr]
  split
  · rfl
  · rfl

/-! ### The fields of a word (R402, R441) -/

/-- A run of bits of a word is a field, when they agree bit by bit. -/
theorem field_eq {n : Nat} {w : IWord} {start : Nat} {x : BitVec n} (h : ∀ i, i < n → w.getLsbD (start + i) = x.getLsbD i) :
    w.extractLsb' start n = x := by
  ext i hi
  rw [BitVec.getElem_extractLsb', h i hi, BitVec.getLsbD_eq_getElem]

/-- The major opcode and the low byte of a word, which tell apart the words that one event tries. -/
def wordCode (w : IWord) : BitVec 6 × BitVec 8 := (w.extractLsb' 26 6, w.extractLsb' 0 8)

theorem beq_false_of_code {w v : IWord} (h : wordCode w ≠ wordCode v) : (w == v) = false :=
  beq_eq_false_iff_ne.mpr fun e => h (congrArg wordCode e)

/-- The fields of a retired vector form. -/
theorem vectorWord_fields (op : BitVec 6) (d a b : BitVec 5) (m : BitVec 3) (lo : BitVec 8) : let w : IWord := op ++ d ++ a ++ b ++ m ++ lo
    wordCode w = (op, lo) ∧ w.extractLsb' 21 5 = d ∧ w.extractLsb' 16 5 = a ∧ w.extractLsb' 11 5 = b ∧ w.extractLsb' 8 3 = m := by
  refine ⟨Prod.ext ?_ ?_, ?_, ?_, ?_, ?_⟩
  all_goals exact field_eq fun i hi => by grind

theorem scalarWord_fields (op : BitVec 6) (d a b : BitVec 5) (lo : BitVec 11) : let w : IWord := op ++ d ++ a ++ b ++ lo
    wordCode w = (op, lo.setWidth 8) ∧ w.extractLsb' 21 5 = d ∧ w.extractLsb' 16 5 = a ∧ w.extractLsb' 11 5 = b := by
  refine ⟨Prod.ext ?_ ?_, ?_, ?_, ?_⟩
  all_goals exact field_eq fun i hi => by grind

theorem wTmop_fields (n : BitVec 2) (a b : BitVec 5) : wordCode (wTmop n a b) = (0x3E#6, 0x0#8) ∧
    (wTmop n a b).extractLsb' 24 2 = n ∧ (wTmop n a b).extractLsb' 19 5 = a ∧ (wTmop n a b).extractLsb' 14 5 = b := by
  unfold wTmop
  refine ⟨Prod.ext ?_ ?_, ?_, ?_, ?_⟩
  all_goals exact field_eq fun i hi => by grind

theorem wTmzero_fields (n : BitVec 2) : wordCode (wTmzero n) = (0x3F#6, 0x0#8) ∧ (wTmzero n).extractLsb' 24 2 = n := by
  unfold wTmzero
  refine ⟨Prod.ext ?_ ?_, ?_⟩
  all_goals exact field_eq fun i hi => by grind

theorem wFence_fields (q : BitVec 3) : wordCode (wFence q) = (0x30#6, 0x0#8) ∧ (wFence q).extractLsb' 13 3 = q := by
  revert q
  decide

theorem wGbar_scope (q : BitVec 3) : (wGbar q).extractLsb' 13 3 = q := by
  unfold wGbar
  exact field_eq fun i hi => by grind

theorem wAcqm_mask (m : BitVec 3) : (wAcqm m).extractLsb' 21 3 = m := by
  unfold wAcqm
  exact field_eq fun i hi => by grind

theorem wDrainw_dest (d : BitVec 5) : (wDrainw d).extractLsb' 8 5 = d := by
  unfold wDrainw
  exact field_eq fun i hi => by grind

theorem wWfp_fields (a b d : BitVec 5) :
    (wWfp a b d).extractLsb' 21 5 = a ∧ (wWfp a b d).extractLsb' 16 5 = b ∧ (wWfp a b d).extractLsb' 8 5 = d := by
  unfold wWfp
  refine ⟨?_, ?_, ?_⟩
  all_goals exact field_eq fun i hi => by grind

theorem wGwait_fields (a d : BitVec 5) : (wGwait a d).extractLsb' 21 5 = a ∧ (wGwait a d).extractLsb' 8 5 = d := by
  unfold wGwait
  refine ⟨?_, ?_⟩
  all_goals exact field_eq fun i hi => by grind

theorem wLd_fields (d a : BitVec 5) (w : BitVec 3) (o : BitVec 13) : (wLd d a w o).extractLsb' 21 5 = d ∧
    (wLd d a w o).extractLsb' 16 5 = a ∧ (wLd d a w o).extractLsb' 13 3 = w ∧ (wLd d a w o).extractLsb' 0 13 = o := by
  unfold wLd
  refine ⟨?_, ?_, ?_, ?_⟩
  all_goals exact field_eq fun i hi => by grind

theorem wSt_fields (r a : BitVec 5) (n : BitVec 2) (o : BitVec 13) : (wSt r a n o).extractLsb' 21 5 = r ∧
    (wSt r a n o).extractLsb' 16 5 = a ∧ (wSt r a n o).extractLsb' 13 2 = n ∧ (wSt r a n o).extractLsb' 0 13 = o := by
  unfold wSt
  refine ⟨?_, ?_, ?_, ?_⟩
  all_goals exact field_eq fun i hi => by grind

theorem wTinv_fields (a : BitVec 5) : wordCode (wTinv a) = (0x1A#6, 0x6#8) ∧ (wTinv a).extractLsb' 16 5 = a := by
  revert a
  decide

/-- A store's word is no load's. -/
theorem wSt_ne_wLd (r a : BitVec 5) (n : BitVec 2) (o : BitVec 13) (d b : BitVec 5) (w : BitVec 3) (p : BitVec 13) : (wSt r a n o == wLd d b w p) = false := by
  have hst : (wordCode (wSt r a n o)).1 = 0xE#6 := field_eq fun i hi => by unfold wSt; grind
  have hld : (wordCode (wLd d b w p)).1 = 0xD#6 := field_eq fun i hi => by unfold wLd; grind
  exact beq_false_of_code fun e => absurd (hst.symm.trans ((congrArg Prod.fst e).trans hld)) (by decide)

/-! ### What each event tries again -/

/-- A retired form. -/
theorem retryRetired_word (d a b : BitVec 5) (m : BitVec 3) (n : BitVec 2) (u : State) :
    retryRetired (wSmac d a b) u = execSmac d a b u ∧ retryRetired (wSmacz d a b) u = execSmacz d a b u ∧
    retryRetired (wVaaddVv d a b m) u = execVaaddVv d a b m u ∧ retryRetired (wVaadduVv d a b m) u = execVaadduVv d a b m u ∧
    retryRetired (wVasubVv d a b m) u = execVasubVv d a b m u ∧ retryRetired (wVasubuVv d a b m) u = execVasubuVv d a b m u ∧
    retryRetired (wVaaddVx d a b m) u = execVaaddVx d a b m u ∧ retryRetired (wVaadduVx d a b m) u = execVaadduVx d a b m u ∧
    retryRetired (wVasubVx d a b m) u = execVasubVx d a b m u ∧ retryRetired (wVasubuVx d a b m) u = execVasubuVx d a b m u ∧
    retryRetired (wTmop n a b) u = execTmop n a b u ∧ retryRetired (wTmzero n) u = execTmzero n u := by
  refine ⟨?_, ?_, ?_, ?_, ?_, ?_, ?_, ?_, ?_, ?_, ?_, ?_⟩
  all_goals
    simp only [retryRetired, wSmac, wSmacz, wVaaddVv, wVaadduVv, wVasubVv, wVasubuVv, wVaaddVx, wVaadduVx, wVasubVx, wVasubuVx, scalarWord_fields,
      vectorWord_fields, wTmop_fields, wTmzero_fields, beq_self_eq_true, beq_false_of_code, ne_eq, Prod.mk.injEq, BitVec.reduceEq, BitVec.reduceSetWidth, and_true,
      and_false, not_false_eq_true, Bool.false_eq_true, if_true, if_false]

theorem retryFence_word (q : BitVec 3) (u : State) :
    retryFence (wFence q) u = execFence q u ∧ retryFence wLsync u = execLsync u ∧ retryFence wIfence u = execIfence u := by
  have hlsync : wordCode wLsync = (0x30#6, 0x2#8) := by decide
  have hifence : wordCode wIfence = (0x1A#6, 0x5#8) := by decide
  refine ⟨?_, ?_, ?_⟩
  all_goals
    simp only [retryFence, wFence_fields, hlsync, hifence, beq_self_eq_true, beq_false_of_code, ne_eq, Prod.mk.injEq, BitVec.reduceEq, and_false,
      not_false_eq_true, Bool.false_eq_true, if_true, if_false]

theorem retryTinv_word (a : BitVec 5) (u : State) : retryTinv (wTinv a) u = execTinv a u ∧ retryTinv wTinva u = execTinva u := by
  have htinva : wordCode wTinva = (0x1A#6, 0x7#8) := by decide
  refine ⟨?_, ?_⟩
  all_goals
    simp only [retryTinv, wTinv_fields, htinva, beq_self_eq_true, beq_false_of_code, ne_eq, Prod.mk.injEq, BitVec.reduceEq, and_false,
      not_false_eq_true, Bool.false_eq_true, if_true, if_false]

theorem retryFifo_word (d a : BitVec 5) (w : BitVec 3) (n : BitVec 2) (o : BitVec 13) (u : State) :
    retryFifo (wLd d a w o) u = execLd d a w o u ∧ retryFifo (wSt d a n o) u = execSt d a n o u := by
  constructor
  · simp only [retryFifo, wLd_fields, beq_self_eq_true, if_true]
  · simp only [retryFifo, wSt_fields, wSt_ne_wLd, Bool.false_eq_true, if_false, beq_self_eq_true, if_true]

theorem retryGbar_word (q : BitVec 3) (u : State) : retryGbar (wGbar q) u = execGbar q u := by
  simp only [retryGbar, wGbar_scope, beq_self_eq_true, if_true]

theorem retryAcqm_word (m : BitVec 3) (u : State) : retryAcqm (wAcqm m) u = execAcqm m u := by
  simp only [retryAcqm, wAcqm_mask, beq_self_eq_true, if_true]

theorem retryDrainw_word (d : BitVec 5) (u : State) : retryDrainw (wDrainw d) u = execDrainw d u := by
  simp only [retryDrainw, wDrainw_dest, beq_self_eq_true, if_true]

theorem retryWfp_word (a b d : BitVec 5) (u : State) : retryWfp (wWfp a b d) u = execWfp a b d u := by
  simp only [retryWfp, wWfp_fields, beq_self_eq_true, if_true]

theorem retryTdone_word (u : State) : retryTdone wTdone u = execTdone u := if_pos (beq_self_eq_true wTdone)

theorem retryWfe_word (u : State) : retryWfe wWfe u = execWfe u := if_pos (beq_self_eq_true wWfe)

theorem retryGwait_word (a d : BitVec 5) (u : State) : retryGwait (wGwait a d) u = execGwait a d u := by
  simp only [retryGwait, wGwait_fields, beq_self_eq_true, if_true]

/-! ### The statement -/

/-- Settles O55: of a waiting hart the event tries the word again, which is its instruction's; a running one it leaves alone. -/
theorem waitEventsRunTheWaitingInstruction : Obligations.WaitEventsRunTheWaitingInstruction := by
  intro s h d a b m n w o
  have retired (i : Instr) {v : IWord} (hv : encode i = some v) (hretry : ∀ u, retryRetired v u = exec i u) (hnext : ∀ u, ∃ t, exec i u = .next t) :
      Resumes s (.emulationEntry h) h i := resumes_of_word rfl hv hretry hnext
  have hret := retryRetired_word d a b m n
  simp only [forall_and] at hret
  obtain ⟨hsmac, hsmacz, haddVv, hadduVv, hsubVv, hsubuVv, haddVx, hadduVx, hsubVx, hsubuVx, htmop, htmzero⟩ := hret
  refine ⟨retired _ rfl hsmac fun u => ⟨_, rfl⟩, retired _ rfl hsmacz fun u => ⟨_, rfl⟩, retired _ rfl haddVv fun u => ⟨_, rfl⟩,
    retired _ rfl hadduVv fun u => ⟨_, rfl⟩, retired _ rfl hsubVv fun u => ⟨_, rfl⟩, retired _ rfl hsubuVv fun u => ⟨_, rfl⟩,
    retired _ rfl haddVx fun u => ⟨_, rfl⟩, retired _ rfl hadduVx fun u => ⟨_, rfl⟩, retired _ rfl hsubVx fun u => ⟨_, rfl⟩,
    retired _ rfl hsubuVx fun u => ⟨_, rfl⟩, retired _ rfl htmop fun u => ⟨_, rfl⟩, retired _ rfl htmzero fun u => ⟨_, rfl⟩,
    resumes_of_word rfl rfl (fun u => (retryFence_word m u).1) fun u => execFence_next _ _,
    resumes_of_word rfl rfl (fun u => (retryFence_word m u).2.1) fun u => scalarInstr_next _ _ _ _,
    resumes_of_word rfl rfl (fun u => (retryFence_word m u).2.2) fun u => execIfence_next _,
    resumes_of_word rfl rfl (retryGbar_word m) fun u => syncInstr_next _ _ _ _,
    resumes_of_word rfl rfl (retryAcqm_word m) fun u => syncInstr_next _ _ _ _,
    resumes_of_word rfl rfl (retryDrainw_word d) fun u => syncInstr_next _ _ _ _,
    resumes_of_word rfl rfl retryTdone_word fun u => syncInstr_next _ _ _ _,
    resumes_of_word rfl rfl (retryWfp_word a b d) fun u => syncInstr_next _ _ _ _,
    resumes_of_word rfl rfl retryWfe_word fun u => scalarInstr_next _ _ _ _,
    resumes_of_word rfl rfl (retryGwait_word a d) fun u => execGwait_next _ _ _,
    resumes_of_word rfl rfl (fun u => (retryFifo_word d a w n o u).1) fun u => execLd_next _ _ _ _ _,
    resumes_of_word rfl rfl (fun u => (retryFifo_word d a w n o u).2) fun u => execSt_next _ _ _ _ _,
    resumes_of_word rfl rfl (fun u => (retryTinv_word a u).1) fun u => execTinv_next _ _,
    resumes_of_word rfl rfl (fun u => (retryTinv_word a u).2) fun u => execTinva_next _, fun hr ev hev => ?running⟩
  case running =>
    simp only [List.mem_cons, List.not_mem_nil, or_false] at hev
    rcases hev with rfl | rfl | rfl | rfl | rfl | rfl | rfl | rfl | rfl | rfl | rfl
    all_goals exact onWaiter_running hr _

end Sys2Proof.Machine
end

section
/-! SUPPORT. Matrix mode (R168, R251, R477): what its grant, its end and a change of ACCT leave, one equation per case; and the statement O51 that
they make up. -/

namespace Sys2Proof.Machine
open Sys2Proof.Claims

/-! ### The hart after an instruction that completes -/

/-- The registers that the loop-end step reads (R462). -/
def Hart.loopRegs (h : Hart) : List Word := [h.pc, h.lc0, h.lc1, h.ls0, h.ls1, h.le0, h.le1]

theorem Hart.afterPc_congr {g h : Hart} (hl : g.loopRegs = h.loopRegs) : g.afterPc = h.afterPc := by
  simp only [Hart.loopRegs, List.cons.injEq, and_true] at hl
  obtain ⟨hpc, h0, h1, hs0, hs1, he0, he1⟩ := hl
  unfold Hart.afterPc Hart.loopStep
  rw [hpc, h0, h1, hs0, hs1, he0, he1]
  repeat' split
  all_goals rfl

/-- An instruction that completes changes of its hart the program counter, the loop counts and the issue state. -/
theorem State.retire_only (s : State) : ∃ c0 c1, s.retire.h =
    { s.h with pc := s.h.afterPc, lc0 := c0, lc1 := c1, status := .running, laneServed := false, matrixServed := false } := by
  refine ⟨(s.h.loopStep s.h.pc).lc0, (s.h.loopStep s.h.pc).lc1, ?_⟩
  obtain ⟨pc, c0, c1, h⟩ := s.h.loopStep_only s.h.pc
  rw [State.retire_h, Hart.afterPc, h]

theorem State.retire_other (s : State) {j : Fin 4} (h : j ≠ s.cur) : s.retire.harts[j] = s.harts[j] := State.mod_other _ _ _ h

theorem State.retire_pc (s : State) : s.retire.h.pc = s.h.afterPc := by
  obtain ⟨c0, c1, h⟩ := s.retire_only
  rw [h]

@[simp] theorem State.retire_mstat (s : State) : s.retire.h.mstat = s.h.mstat := by
  obtain ⟨c0, c1, h⟩ := s.retire_only
  rw [h]

theorem State.h_of_cur {s : State} {i : Fin 4} (h : s.cur = i) : s.h = s.harts[i] := by
  subst h
  rfl

/-! ### The grant (R168, R251) -/

/-- Whether the unit has kept tiles of a hart. -/
def Core.keepsFor (c : Core) (i : Fin 4) : Prop := ∃ k, c.kept = some k ∧ k.hart = i

/-- A hart that takes matrix mode, with its own kept tiles or with zeroed ones. -/
def Hart.matrixGranted (own : Bool) (h : Hart) : Hart :=
  { h with mstat := mstatWith (if own then h.mstat else mstatWith h.mstat 0x01E#10 0#10) 0#10 1#10, matrixServed := true }

/-- A hart whose kept tiles the unit has given up. -/
def Hart.tilesLost (h : Hart) : Hart := { h with mstat := mstatWith h.mstat 0x01E#10 0#10 }

theorem mstatWith_zero (m clr : BitVec 10) : mstatWith m clr 0#10 = m &&& ~~~clr := by simp [mstatWith]

theorem mstatWith_set (m set_ : BitVec 10) : mstatWith m 0#10 set_ = m ||| set_ := by
  rw [mstatWith, BitVec.not_zero, BitVec.and_allOnes]

section
variable {s : State} {i : Fin 4} (hm : s.core.matrix = none) (hr : s.core.matrixResv = false) (hw : s.core.matrixWaiters = [i])
include hm hr hw

/-- A hart that waits alone for the free unit takes it. The unit has kept its tiles, -/
theorem State.grantMatrix_own (hk : s.core.keepsFor i) : s.grantMatrix.cur = s.cur ∧
    s.grantMatrix.core = { s.core with matrix := some i, matrixWaiters := [], kept := none } ∧
    s.grantMatrix.harts[i] = s.harts[i].matrixGranted true := by
  obtain ⟨k, hk, hi⟩ := hk
  unfold State.grantMatrix
  rw [hm, hr, if_neg Bool.false_ne_true, hw, hk]
  simp only [hi, decide_true, if_true]
  exact ⟨rfl, rfl, State.modHart_same _ _ _⟩

/-- or it finds zeroed ones, and a hart whose tiles the unit has kept loses them. -/
theorem State.grantMatrix_fresh (hk : ¬ s.core.keepsFor i) : s.grantMatrix.cur = s.cur ∧
    s.grantMatrix.core = { s.core with matrix := some i, matrixWaiters := [], kept := none, tiles := Vector.replicate 4 zeroTile } ∧
    s.grantMatrix.harts[i] = s.harts[i].matrixGranted false ∧
    ∀ k, s.core.kept = some k → s.grantMatrix.harts[k.hart].mstat = s.harts[k.hart].mstat &&& ~~~0x01E#10 := by
  unfold State.grantMatrix
  rw [hm, hr, if_neg Bool.false_ne_true, hw]
  cases hkept : s.core.kept with
  | none => exact ⟨rfl, rfl, State.modHart_same _ _ _, fun k h => by cases h⟩
  | some k =>
    have hne : k.hart ≠ i := fun e => hk ⟨k, hkept, e⟩
    simp only [hne, decide_false, if_false]
    refine ⟨rfl, rfl, ?_, fun k' h => ?_⟩
    · rw [State.modHart_same]
      exact congrArg (Hart.matrixGranted false) (State.modHart_other s k.hart i Hart.tilesLost hne.symm)
    · obtain rfl := Option.some.inj h
      rw [State.modHart_other _ _ _ _ hne]
      exact (congrArg Hart.mstat (State.modHart_same s k.hart Hart.tilesLost)).trans (mstatWith_zero _ _)

end

theorem State.grantMatrix_held {s : State} {j : Fin 4} (hm : s.core.matrix = some j) : s.grantMatrix = s := by
  unfold State.grantMatrix
  rw [hm]

/-- A unit that no hart waits for stays free. -/
theorem State.grantMatrix_unasked {s : State} (hw : s.core.matrixWaiters = []) : s.grantMatrix = s := by
  unfold State.grantMatrix
  rw [hw, ite_self]
  split
  · contradiction
  · rfl

/-! ### `mstart` -/

/-- The hart that executes asks for matrix mode. -/
def State.asksMatrix (s : State) : State :=
  { s with core := { s.core with matrixWaiters :=
      if s.core.matrixWaiters.contains s.cur then s.core.matrixWaiters else s.core.matrixWaiters ++ [s.cur] } }

theorem State.asksMatrix_waiters_mem (s : State) : s.cur ∈ s.asksMatrix.core.matrixWaiters := by
  unfold State.asksMatrix
  dsimp only
  split
  · rename_i h
    simpa using h
  · exact List.mem_append_right _ List.mem_cons_self

theorem State.asksMatrix_alone {s : State} (hw : s.core.matrixWaiters = []) : s.asksMatrix.core.matrixWaiters = [s.cur] := by
  simp [State.asksMatrix, hw]

section
variable {s : State} (hc : Clear s [])
include hc

theorem execMstart_off (hf : s.feat 3 = false) : execMstart s = .next (s.ill wMstart) := by
  simp only [execMstart, scalarInstr_clear _ _ _ _ hc.1 hc.2, hf, Bool.not_false, if_true]

theorem execMstart_holder (hf : s.feat 3 = true) (hm : s.core.matrix = some s.cur) : execMstart s = .next s.retire := by
  simp only [execMstart, scalarInstr_clear _ _ _ _ hc.1 hc.2, hf, hm, Bool.not_true, Bool.false_eq_true, if_false, if_true]

theorem execMstart_asks (hf : s.feat 3 = true) (hm : s.core.matrix ≠ some s.cur) : execMstart s = .next
    (if s.asksMatrix.grantMatrix.core.matrix = some s.asksMatrix.grantMatrix.cur then s.asksMatrix.grantMatrix.retire
     else s.asksMatrix.grantMatrix.wait .matrixMode wMstart) := by
  simp only [execMstart, scalarInstr_clear _ _ _ _ hc.1 hc.2, hf, hm, Bool.not_true, Bool.false_eq_true, if_false]
  rfl

/-- A hart that finds matrix mode free and unasked for takes it. -/
theorem execMstart_taken {u : State} (hf : s.feat 3 = true) (hm : s.core.matrix = none) (hu : s.asksMatrix.grantMatrix = u)
    (hcur : u.cur = s.cur) (hgot : u.core.matrix = some s.cur) : execMstart s = .next u.retire := by
  rw [execMstart_asks hc hf (by simp [hm]), hu, hcur, if_pos hgot]

/-- A hart waits while another one holds matrix mode. -/
theorem execMstart_waits {j : Fin 4} (hf : s.feat 3 = true) (hm : s.core.matrix = some j) (hj : j ≠ s.cur) :
    execMstart s = .next (s.asksMatrix.wait .matrixMode wMstart) := by
  have hne : s.core.matrix ≠ some s.cur := by
    rw [hm]
    exact fun e => hj (Option.some.inj e)
  rw [execMstart_asks hc hf hne, State.grantMatrix_held (s := s.asksMatrix) hm]
  exact congrArg Host.Outcome.next (if_neg hne)

/-! ### `mstop` -/

theorem execMstop_off (t : BitVec 1) (hf : s.feat 3 = false) : execMstop t s = .next (s.ill (wMstop t)) := by
  simp only [execMstop, scalarInstr_clear _ _ _ _ hc.1 hc.2, hf, Bool.not_false, if_true]

theorem execMstop_busy (t : BitVec 1) (hf : s.feat 3 = true) (hi : s.h.matrixIdle = false) : execMstop t s = .next (s.wait .retry (wMstop t)) := by
  simp only [execMstop, scalarInstr_clear _ _ _ _ hc.1 hc.2, hf, hi, Bool.not_true, Bool.not_false, Bool.false_eq_true, if_false, if_true]

theorem execMstop_idle (t : BitVec 1) (hf : s.feat 3 = true) (hi : s.h.matrixIdle = true) :
    execMstop t s = .next (s.leaveMatrix s.cur (t == 1#1)).retire := by
  simp only [execMstop, scalarInstr_clear _ _ _ _ hc.1 hc.2, hf, hi, Bool.not_true, Bool.false_eq_true, if_false]

end

theorem State.leaveMatrix_other {s : State} {i : Fin 4} (h : s.core.matrix ≠ some i) (keep : Bool) : s.leaveMatrix i keep = s := if_neg h

/-- The holder leaves matrix mode while no hart waits for it, with its tiles kept or zeroed. -/
theorem State.leaveMatrix_unasked {s : State} {i : Fin 4} (h : s.core.matrix = some i) (hw : s.core.matrixWaiters = []) (keep : Bool) :
    s.leaveMatrix i keep = State.modHart
      { s with core := if keep then { s.core with matrix := none, kept := some ⟨i, s.harts[i].mstat.extractLsb' 1 4⟩ }
                       else { s.core with matrix := none, kept := none, tiles := Vector.replicate 4 zeroTile } } i
      fun h => { h with mstat := mstatWith h.mstat (if keep then 0x021#10 else 0x3FF#10) 0#10 } := by
  unfold State.leaveMatrix
  rw [if_pos h]
  refine State.grantMatrix_unasked ?_
  cases keep <;> exact hw

/-! ### `mcfg` -/

section
variable {s : State} {a : XNum} (t : BitVec 1)

theorem execMcfg_off (hf : s.feat 3 = false) : execMcfg a t s = .next (s.ill (wMcfg a t)) := by
  simp only [execMcfg, hf, Bool.not_false, if_true]

variable (hf : s.feat 3 = true) (hc : Clear s [a])
include hf hc

theorem execMcfg_outside (hm : s.h.matrixOn = false) : execMcfg a t s = .next (s.trapHere cTILE ((wMcfg a t).setWidth 64)) := by
  simp only [execMcfg, hf, scalarInstr_clear _ _ _ _ hc.1 hc.2, hm, Bool.not_true, Bool.not_false, Bool.false_eq_true, if_false, if_true]

/-- The tiles in use that a new ACCT would give another type. -/
def State.typeChanges (s : State) (a : XNum) : BitVec 4 :=
  ((s.x a).setWidth 4 ^^^ s.h.mstat.extractLsb' 6 4) &&& s.h.mstat.extractLsb' 1 4

variable (hm : s.h.matrixOn = true) (hi : s.h.matrixIdle = true)
include hm hi

theorem execMcfg_refused (hd : s.typeChanges a ≠ 0#4) (ht : t = 0#1) :
    execMcfg a t s = .next (s.trapHere cTILECFG ((wMcfg a t).setWidth 64)) := by
  unfold State.typeChanges at hd
  simp only [execMcfg, hf, scalarInstr_clear _ _ _ _ hc.1 hc.2, hm, hi, hd, ht, Bool.not_true, Bool.false_eq_true, if_false, ne_eq, not_false_eq_true,
    decide_true, Bool.and_self, if_true]

theorem execMcfg_set (hd : s.typeChanges a = 0#4 ∨ t = 1#1) : execMcfg a t s =
    .next ((s.zeroTiles (s.typeChanges a)).mod fun h => { h with mstat := (s.x a).setWidth 4 ++ h.mstat.extractLsb' 0 6 }).retire := by
  have hgo : ¬ (decide (s.typeChanges a ≠ 0#4) && decide (t = 0#1)) = true := by
    rcases hd with hd | rfl
    · simp [hd]
    · simp
  unfold State.typeChanges at hgo
  simp only [execMcfg, hf, scalarInstr_clear _ _ _ _ hc.1 hc.2, hm, hi, hgo, Bool.not_true, Bool.false_eq_true, if_false]
  rfl

end

/-- One tile of a bit set zeroed, and its TIU bit cleared. -/
def State.zeroTileOf (d : BitVec 4) (s : State) (n : ANum) : State :=
  if d.getLsbD n.toNat then (s.setTile n zeroTile).mod fun h => h.clearTiu n else s

theorem State.zeroTileOf_tile (d : BitVec 4) (s : State) (n m : ANum) :
    (s.zeroTileOf d n).core.tile m = if m = n ∧ d.getLsbD m.toNat = true then zeroTile else s.core.tile m := by
  unfold State.zeroTileOf
  split
  · rename_i hd
    by_cases hm : m = n
    · subst hm
      simp [hd, Core.tile, State.setTile]
    · have hne : n.toNat ≠ m.toNat := fun e => hm (BitVec.eq_of_toNat_eq e.symm)
      simp [hm, hne, Core.tile, State.setTile]
  · rename_i hd
    rw [if_neg]
    rintro ⟨rfl, h⟩
    exact hd h

theorem State.zeroTileOf_h (d : BitVec 4) (s : State) (n : ANum) :
    (s.zeroTileOf d n).h = { s.h with mstat := s.h.mstat &&& ~~~(if d.getLsbD n.toNat then tiuBit n else 0#10) } := by
  unfold State.zeroTileOf
  split
  · exact State.mod_h _ _
  · rw [BitVec.not_zero, BitVec.and_allOnes]

theorem State.zeroTiles_eq (s : State) (d : BitVec 4) :
    s.zeroTiles d = (((s.zeroTileOf d 0#2).zeroTileOf d 1#2).zeroTileOf d 2#2).zeroTileOf d 3#2 := rfl

theorem State.zeroTiles_tile (s : State) (d : BitVec 4) (n : ANum) :
    (s.zeroTiles d).core.tile n = if d.getLsbD n.toNat = true then zeroTile else s.core.tile n := by
  have hn : n = 0#2 ∨ n = 1#2 ∨ n = 2#2 ∨ n = 3#2 := by revert n; decide
  rw [State.zeroTiles_eq, State.zeroTileOf_tile, State.zeroTileOf_tile, State.zeroTileOf_tile, State.zeroTileOf_tile]
  rcases hn with rfl | rfl | rfl | rfl
  all_goals simp

/-- The bits of MSTAT.TIU (R259). -/
theorem State.zeroTiles_h (s : State) (d : BitVec 4) : (s.zeroTiles d).h = { s.h with mstat := s.h.mstat &&& ~~~(0#5 ++ d ++ 0#1) } := by
  have hbits : ∀ d : BitVec 4, (if d.getLsbD 0 then tiuBit 0#2 else 0#10) ||| (if d.getLsbD 1 then tiuBit 1#2 else 0#10) |||
      (if d.getLsbD 2 then tiuBit 2#2 else 0#10) ||| (if d.getLsbD 3 then tiuBit 3#2 else 0#10) = 0#5 ++ d ++ 0#1 := by decide
  rw [State.zeroTiles_eq, State.zeroTileOf_h, State.zeroTileOf_h, State.zeroTileOf_h, State.zeroTileOf_h, ← hbits d]
  simp only [BitVec.not_or, BitVec.and_assoc]
  rfl

/-- The TIU field of MSTAT under a mask of tiles. -/
theorem tiu_masked (m : BitVec 10) (d : BitVec 4) : (m &&& ~~~(0#5 ++ d ++ 0#1)).extractLsb' 1 4 = m.extractLsb' 1 4 &&& ~~~d := by
  ext i hi
  simp only [BitVec.getElem_extractLsb', BitVec.getElem_and, BitVec.getElem_not, BitVec.getLsbD_and, BitVec.getLsbD_not]
  grind

theorem acct_fields (v : BitVec 4) (m : BitVec 10) : let x : BitVec 10 := v ++ m.extractLsb' 0 6
    x.extractLsb' 6 4 = v ∧ x.extractLsb' 1 4 = m.extractLsb' 1 4 := by
  constructor
  · ext i hi
    rw [BitVec.getElem_extractLsb']
    grind
  · ext i hi
    rw [BitVec.getElem_extractLsb', BitVec.getElem_extractLsb']
    grind

/-! ### The statement -/

/-- A hart that has just taken matrix mode goes on. -/
theorem State.retire_granted {s g : State} {own : Bool} (hg : g.h = s.h.matrixGranted own) :
    g.retire.h.mstat = (if own then s.h.mstat else s.h.mstat &&& ~~~0x01E#10) ||| 1#10 ∧ g.retire.h.mstat.getLsbD 0 = true ∧
    g.retire.h.pc = s.h.afterPc := by
  have hm : g.retire.h.mstat = mstatWith (if own then s.h.mstat else mstatWith s.h.mstat 0x01E#10 0#10) 0#10 1#10 := by
    rw [State.retire_mstat, hg]
    rfl
  refine ⟨?_, ?_, ?_⟩
  · rw [hm, mstatWith_set, mstatWith_zero]
  · rw [hm]
    exact mstatWith_active _
  · rw [State.retire_pc, hg]
    exact Hart.afterPc_congr rfl

/-- Settles O51: each clause is the equation of its case. -/
theorem matrixModeRule : Obligations.MatrixModeRule := by
  intro s a t held
  refine ⟨fun hf => ⟨fun hc => ⟨execMstart_off hc hf, execMstop_off hc t hf⟩, execMcfg_off t hf⟩,
    fun hf hc => ⟨fun hh => execMstart_holder hc hf (of_decide_eq_true hh), ?free, ?taken, ?stop, ?idle, execMstop_busy hc t hf⟩,
    fun hf hc => ⟨execMcfg_outside t hf hc, execMcfg_refused t hf hc, ?set⟩⟩
  case free =>
    intro hm hw hr
    by_cases hk : s.core.keepsFor s.cur
    · obtain ⟨hcur, hcore, hhart⟩ := State.grantMatrix_own (s := s.asksMatrix) (i := s.cur) hm hr (State.asksMatrix_alone hw) hk
      have hg : s.asksMatrix.grantMatrix.h = s.h.matrixGranted true := (State.h_of_cur hcur).trans hhart
      obtain ⟨hmstat, hon, hpc⟩ := State.retire_granted hg
      refine ⟨_, execMstart_taken hc hf hm rfl hcur (by rw [hcore]), ?_, hon, hpc, ?_, fun _ => ⟨?_, hmstat⟩, fun hne => ?_, fun k hk' hne => ?_⟩
      · rw [State.retire_core, hcore]
      · rw [State.retire_core, hcore]
      · rw [State.retire_core, hcore]
        rfl
      · obtain ⟨k, hk, hi⟩ := hk
        exact absurd hi (hne k hk)
      · obtain ⟨k2, hk2, hi⟩ := hk
        exact absurd (Option.some.inj (hk2.symm.trans hk') ▸ hi) hne
    · obtain ⟨hcur, hcore, hhart, hlost⟩ := State.grantMatrix_fresh (s := s.asksMatrix) (i := s.cur) hm hr (State.asksMatrix_alone hw) hk
      have hg : s.asksMatrix.grantMatrix.h = s.h.matrixGranted false := (State.h_of_cur hcur).trans hhart
      obtain ⟨hmstat, hon, hpc⟩ := State.retire_granted hg
      refine ⟨_, execMstart_taken hc hf hm rfl hcur (by rw [hcore]), ?_, hon, hpc, ?_, fun h => absurd h hk, fun _ => ⟨?_, hmstat⟩, fun k hk' hne => ?_⟩
      · rw [State.retire_core, hcore]
      · rw [State.retire_core, hcore]
      · rw [State.retire_core, hcore]
      · rw [State.retire_other _ (hcur.symm ▸ hne)]
        exact hlost k hk'
  case taken =>
    intro j hm hj
    refine ⟨_, execMstart_waits hc hf hm hj, ?_, ?_, s.asksMatrix_waiters_mem, hm⟩
    · rw [State.wait_h]
    · rw [State.wait_h]
      rfl
  case stop =>
    intro hi hh hw
    have hleft := State.leaveMatrix_unasked (of_decide_eq_true hh) hw (t == 1#1)
    refine ⟨_, execMstop_idle hc t hf hi, ?_⟩
    have hh : (s.leaveMatrix s.cur (t == 1#1)).h = { s.h with mstat := mstatWith s.h.mstat (if t == 1#1 then 0x021#10 else 0x3FF#10) 0#10 } := by
      rw [hleft]
      exact State.mod_h _ _
    rw [State.retire_mstat, State.retire_pc, State.retire_core, hh, hleft, State.modHart_core]
    have hpc : Hart.afterPc { s.h with mstat := mstatWith s.h.mstat (if t == 1#1 then 0x021#10 else 0x3FF#10) 0#10 } = s.h.afterPc := Hart.afterPc_congr rfl
    rcases BitVec.eq_zero_or_eq_one t with rfl | rfl
    · exact ⟨rfl, by simp [mstatWith], hpc, rfl, rfl, by simp [mstatWith]⟩
    · exact ⟨rfl, by simp [mstatWith], hpc, rfl, rfl, mstatWith_zero _ _⟩
  case idle =>
    intro hi hh
    rw [show exec (.mstop t) s = _ from execMstop_idle hc t hf hi, State.leaveMatrix_other (of_decide_eq_false hh)]
  case set =>
    intro hm hi hd
    refine ⟨_, execMcfg_set t hf hc hm hi hd, ?_, ?_, ?_, fun n => ?_⟩
    · rw [State.retire_mstat, State.mod_h]
      exact (acct_fields _ _).1
    · rw [State.retire_mstat, State.mod_h, State.zeroTiles_h]
      exact (acct_fields _ _).2.trans (tiu_masked _ _)
    · rw [State.retire_pc, State.mod_h, State.zeroTiles_h]
      exact Hart.afterPc_congr rfl
    · rw [State.retire_core, State.mod_core]
      exact State.zeroTiles_tile s _ n

end Sys2Proof.Machine
end

section
/-! SUPPORT. Lane groups, row quotas and the vector shape (R160, R239 to R242, R474 to R476): what an ask for groups, an ask for rows and a release
leave. -/

namespace Sys2Proof.Machine
open Sys2Proof.Claims

/-! ### Released rows and elements (R241) -/

/-- A register with its rows at or above `thr` and its elements at or above `vl` released; a threshold of 0 leaves none. -/
def VReg.cut (r : VReg) (thr vl : Nat) : VReg := if thr = 0 then emptyVReg else r.releaseTail thr vl

theorem emptyVReg_elem (b k x : Nat) : emptyVReg.elem b k x = 0 := rfl

theorem emptyVReg_cut (thr vl : Nat) : emptyVReg.cut thr vl = emptyVReg := ite_self _

theorem VReg.cut_et (r : VReg) (thr vl : Nat) : (r.cut thr vl).et = r.et ∨ r.cut thr vl = emptyVReg := by
  unfold VReg.cut VReg.releaseTail
  dsimp only
  repeat' split
  all_goals simp

theorem rowKeep_zero (n : Nat) : rowKeep 0#8192 n = 0#8192 := BitVec.zero_and

/-- A register of which some rows stand. -/
theorem VReg.cut_kept {r : VReg} {thr vl : Nat} (hv : r.valid = true) (hn : min r.nrows thr ≠ 0) :
    (r.cut thr vl).valid = true ∧ (r.cut thr vl).nrows = min r.nrows thr ∧ (r.cut thr vl).len = min r.len vl ∧
    ∀ k, k < min r.nrows thr → (r.cut thr vl).row k = rowKeep (r.row k) (min r.len vl * etBits r.et) := by
  have ht : thr ≠ 0 := fun h => hn (by rw [h, Nat.min_zero])
  unfold VReg.cut VReg.releaseTail
  rw [if_neg ht, if_pos hv]
  dsimp only
  rw [if_neg hn]
  refine ⟨hv, rfl, rfl, fun k hk => ?_⟩
  by_cases h16 : k < 16
  · simp [VReg.row, h16, Nat.lt_min.mp hk]
  · simp [VReg.row, h16, rowKeep_zero]

theorem VReg.cut_gone {r : VReg} {thr vl : Nat} (h : r.valid = false ∨ min r.nrows thr = 0) : (r.cut thr vl).valid = false := by
  unfold VReg.cut VReg.releaseTail
  by_cases ht : thr = 0
  · rw [if_pos ht]
    rfl
  · rw [if_neg ht]
    by_cases hv : r.valid = true
    · rw [if_pos hv]
      dsimp only
      rw [if_pos (h.resolve_left (by simp [hv]))]
      rfl
    · rw [if_neg hv]
      exact Bool.not_eq_true _ ▸ hv

theorem VReg.elem_gone {r : VReg} (h : r.valid = false) (b k x : Nat) : r.elem b k x = 0 := by simp [VReg.elem, h]

/-- What stands of the elements of a register below both limits, and nothing of the others. -/
theorem VReg.elem_cut (r : VReg) (thr vl : Nat) {k x : Nat} (hx : (x + 1) * etBits r.et ≤ 8192) :
    (r.cut thr vl).elem (etBits r.et) k x = if k < thr ∧ x < vl then r.elem (etBits r.et) k x else 0 := by
  by_cases hgone : r.valid = false ∨ min r.nrows thr = 0
  · rw [VReg.elem_gone (VReg.cut_gone hgone)]
    split
    · rcases hgone with hv | hn
      · rw [VReg.elem_gone hv]
      · rw [VReg.elem, if_neg]
        simp only [Bool.and_eq_true, decide_eq_true_eq]
        omega
    · rfl
  · rw [not_or, Bool.not_eq_false] at hgone
    obtain ⟨hv, hn⟩ := hgone
    obtain ⟨hv', hrows, hlen, hrow⟩ := VReg.cut_kept (vl := vl) hv hn
    simp only [VReg.elem, hv, hv', hrows, hlen, Bool.true_and, Bool.and_eq_true, decide_eq_true_eq]
    by_cases hin : x < min r.len vl ∧ k < min r.nrows thr
    · rw [if_pos hin, hrow k hin.2, rowGet_rowKeep _ _ _ _ hx, if_pos hin.1, if_pos (by omega), if_pos (by omega)]
    · rw [if_neg hin]
      split
      · rw [if_neg (by omega)]
      · rfl

/-- The same of two cuts, of which the second leaves fewer rows. -/
theorem VReg.elem_cut_cut (r : VReg) {m g : Nat} (hg : g ≤ m) (vl : Nat) {k x : Nat} (hx : (x + 1) * etBits r.et ≤ 8192) :
    ((r.cut m vl).cut g vl).elem (etBits r.et) k x = if k < g ∧ x < vl then r.elem (etBits r.et) k x else 0 := by
  have h1 := r.elem_cut m vl (k := k) hx
  rcases r.cut_et m vl with het | hempty
  · have h2 := (r.cut m vl).elem_cut g vl (k := k) (x := x) (by rw [het]; exact hx)
    rw [het, h1] at h2
    rw [h2]
    split
    · rw [if_pos (by omega)]
    · rfl
  · rw [hempty, emptyVReg_elem] at h1
    rw [hempty, emptyVReg_cut, emptyVReg_elem]
    split
    · rw [if_pos (by omega)] at h1
      exact h1
    · rfl

theorem Hart.releaseTails_vreg (h : Hart) (thr vl : Nat) (n : VNum) : (h.releaseTails thr vl).vreg n = (h.vreg n).cut thr vl :=
  Vector.getElem_map _ _

/-- With nothing in its queue a hart releases at once (R242). -/
theorem Hart.release_idle {h : Hart} (hq : h.queue = []) (thr vl : Nat) : h.release thr vl = h.releaseTails thr vl := by
  simp [Hart.release, hq]

/-- A release changes the vector registers and the releases that are still to come. -/
theorem Hart.release_only (h : Hart) (thr vl : Nat) : ∃ v rel, h.release thr vl = { h with v := v, releases := rel } := by
  unfold Hart.release
  split
  · exact ⟨_, _, rfl⟩
  · exact ⟨_, _, rfl⟩

/-! ### The row quota (R239, R240) -/

/-- The grant is the largest count, up to the one asked for, that fits. -/
theorem rowGrant_spec (w : Nat → Nat) (room : Nat) : ∀ m, rowGrant w room m ≤ m ∧ (rowGrant w room m ≠ 0 → w (rowGrant w room m) ≤ room) ∧
    ∀ n, rowGrant w room m < n → n ≤ m → ¬ w n ≤ room
  | 0 => ⟨Nat.le_refl 0, fun h => absurd rfl h, fun n h h' => absurd (Nat.lt_of_lt_of_le h h') (Nat.lt_irrefl _)⟩
  | m + 1 => by
    obtain ⟨hle, hfit, hmax⟩ := rowGrant_spec w room m
    unfold rowGrant
    split
    · rename_i hw
      exact ⟨Nat.le_refl _, fun _ => hw, fun n h h' => absurd (Nat.lt_of_lt_of_le h h') (Nat.lt_irrefl _)⟩
    · rename_i hw
      refine ⟨Nat.le_succ_of_le hle, hfit, fun n h h' => ?_⟩
      rcases Nat.lt_or_eq_of_le h' with h' | rfl
      · exact hmax n h (Nat.le_of_lt_succ h')
      · exact hw

/-- The vector registers once the releases to come have taken effect. -/
theorem Hart.vAfter_eq (h : Hart) : h.vAfter = h.releases.foldl (fun v r => v.map fun x : VReg => x.cut r.thr r.vl) h.v := by
  unfold Hart.vAfter
  generalize h.releases = l
  induction l generalizing h with
  | nil => rfl
  | cons r l ih => exact ih _

theorem Hart.rowsWanted_congr {g h : Hart} (hv : g.v = h.v) (hr : g.releases = h.releases) (n : Nat) : g.rowsWanted n = h.rowsWanted n := by
  unfold Hart.rowsWanted
  rw [Hart.vAfter_eq, Hart.vAfter_eq, hv, hr]

theorem State.rowsFree_congr {s t : State} (h : ∀ j : Fin 4, t.harts[j].quotaNow = s.harts[j].quotaNow) : t.rowsFree = s.rowsFree := by
  have hmap (u : State) : u.harts.toList.foldl (fun q h => q + h.quotaNow) 0 = (u.harts.toList.map Hart.quotaNow).foldl (· + ·) 0 := by
    rw [List.foldl_map]
  have hlist : t.harts.toList.map Hart.quotaNow = s.harts.toList.map Hart.quotaNow := by
    refine List.ext_getElem (by simp) fun i h1 h2 => ?_
    simp only [List.getElem_map, Vector.getElem_toList]
    exact h ⟨i, by simpa using h1⟩
  unfold State.rowsFree
  rw [hmap, hmap, hlist]

/-- A hart that has been granted rows. -/
def Hart.rowsGranted (g : Nat) (h : Hart) : Hart := if g = 0 then { h with vrows := 0 } else { h.setQuota (h.rowsWanted g) with vrows := g }

/-- Of a hart only the vector registers, the releases to come, VROWS and the quota differ. -/
def Hart.OnlyRows (h g : Hart) : Prop :=
  ∃ v rel n q held eid, g = { h with v := v, releases := rel, vrows := n, quota := q, quotaHeld := held, quotaEid := eid }

theorem Hart.OnlyRows.trans {h g k : Hart} (hg : h.OnlyRows g) (hk : g.OnlyRows k) : h.OnlyRows k := by
  obtain ⟨_, _, _, _, _, _, rfl⟩ := hg
  obtain ⟨_, _, _, _, _, _, rfl⟩ := hk
  exact ⟨_, _, _, _, _, _, rfl⟩

theorem Hart.release_onlyRows (h : Hart) (thr vl : Nat) : h.OnlyRows (h.release thr vl) := by
  obtain ⟨v, rel, hr⟩ := h.release_only thr vl
  rw [hr]
  exact ⟨_, _, _, _, _, _, rfl⟩

theorem Hart.rowsGranted_onlyRows (h : Hart) (g : Nat) : h.OnlyRows (h.rowsGranted g) := by
  unfold Hart.rowsGranted
  split
  · exact ⟨_, _, _, _, _, _, rfl⟩
  · exact ⟨_, _, _, _, _, _, rfl⟩

/-- The state in which the largest row count that fits is looked for. -/
def State.rowsAsked (s : State) (m : Nat) : State := if s.h.vtype.getLsbD 8 then s.mod fun h => h.release m h.vl else s

/-- The row count that is granted of `m` (R240). -/
def State.grantOf (s : State) (m : Nat) : Nat :=
  rowGrant (s.rowsAsked m).h.rowsWanted ((s.rowsAsked m).rowsFree + (s.rowsAsked m).h.quota) m

theorem State.askRows_h (s : State) (m : Nat) : (s.askRows m).h =
    (if s.grantOf m ≠ 0 ∧ s.h.vtype.getLsbD 8 = true ∧ s.grantOf m < m then (s.rowsAsked m).h.release (s.grantOf m) (s.rowsAsked m).h.vl
     else (s.rowsAsked m).h).rowsGranted (s.grantOf m) ∧ (s.askRows m).mem = s.mem := by
  have hmem : (s.rowsAsked m).mem = s.mem := by
    unfold State.rowsAsked
    split
    · rfl
    · rfl
  have hask : s.askRows m = if s.grantOf m = 0 then (s.rowsAsked m).mod fun h => { h with vrows := 0 } else
      (if s.h.vtype.getLsbD 8 && decide (s.grantOf m < m) then (s.rowsAsked m).mod fun h => h.release (s.grantOf m) h.vl
       else s.rowsAsked m).mod fun h => { h.setQuota (h.rowsWanted (s.grantOf m)) with vrows := s.grantOf m } := rfl
  rw [hask]
  by_cases hg : s.grantOf m = 0
  · rw [if_pos hg, if_neg fun h => h.1 hg, Hart.rowsGranted, if_pos hg]
    exact ⟨State.mod_h _ _, hmem⟩
  · rw [if_neg hg, Hart.rowsGranted, if_neg hg, State.mod_h, State.mod_mem]
    by_cases hr : s.h.vtype.getLsbD 8 = true ∧ s.grantOf m < m
    · rw [if_pos (by simpa using hr), if_pos ⟨hg, hr⟩, State.mod_h]
      exact ⟨rfl, hmem⟩
    · rw [if_neg (by simpa using hr), if_neg fun h => hr h.2]
      exact ⟨rfl, hmem⟩

theorem State.rowsAsked_onlyRows (s : State) (m : Nat) : s.h.OnlyRows (s.rowsAsked m).h := by
  unfold State.rowsAsked
  split
  · rw [State.mod_h]
    exact s.h.release_onlyRows _ _
  · exact ⟨_, _, _, _, _, _, rfl⟩

theorem State.askRows_onlyRows (s : State) (m : Nat) : s.h.OnlyRows (s.askRows m).h := by
  rw [(s.askRows_h m).1]
  refine (s.rowsAsked_onlyRows m).trans (Hart.OnlyRows.trans ?_ (Hart.rowsGranted_onlyRows _ _))
  split
  · exact Hart.release_onlyRows _ _ _
  · exact ⟨_, _, _, _, _, _, rfl⟩

theorem Hart.rowsGranted_vrows (h : Hart) (g : Nat) : (h.rowsGranted g).vrows = g := by
  unfold Hart.rowsGranted
  split
  · rename_i hg
    exact hg.symm
  · rfl

theorem Hart.rowsGranted_quota (h : Hart) (g : Nat) : (h.rowsGranted g).quota = if g = 0 then h.quota else h.rowsWanted g := by
  unfold Hart.rowsGranted
  split
  · rfl
  · rfl

theorem Hart.rowsGranted_keeps (h : Hart) (g : Nat) : (h.rowsGranted g).v = h.v ∧ (h.rowsGranted g).releases = h.releases := by
  unfold Hart.rowsGranted
  split
  · exact ⟨rfl, rfl⟩
  · exact ⟨rfl, rfl⟩

theorem State.askRows_vrows (s : State) (m : Nat) : (s.askRows m).h.vrows = s.grantOf m := by
  rw [(s.askRows_h m).1, Hart.rowsGranted_vrows]

theorem State.grantOf_le (s : State) (m : Nat) : s.grantOf m ≤ m := (rowGrant_spec _ _ m).1

/-- With td = 0 the registers stand (R240). -/
theorem State.askRows_kept {s : State} (ht : s.h.vtype.getLsbD 8 = false) (m : Nat) :
    (s.askRows m).h = s.h.rowsGranted (s.grantOf m) ∧ s.grantOf m = rowGrant s.h.rowsWanted (s.rowsFree + s.h.quota) m := by
  have hs : s.rowsAsked m = s := if_neg (by rw [ht]; exact Bool.false_ne_true)
  rw [(s.askRows_h m).1, if_neg fun h => Bool.false_ne_true (ht.symm.trans h.2.1), State.grantOf, hs]
  exact ⟨rfl, rfl⟩

/-- With td = 1 and nothing older in its queue the hart gives up the rows and elements above the granted shape at once (R241). -/
theorem State.askRows_cut {s : State} (ht : s.h.vtype.getLsbD 8 = true) (hq : s.h.queue = []) (m : Nat) :
    (s.askRows m).h.releases = s.h.releases ∧ ∀ n, (s.askRows m).h.vreg n =
      if s.grantOf m ≠ 0 ∧ s.grantOf m < m then ((s.h.vreg n).cut m s.h.vl).cut (s.grantOf m) s.h.vl else (s.h.vreg n).cut m s.h.vl := by
  have hs : (s.rowsAsked m).h = s.h.releaseTails m s.h.vl := by
    rw [State.rowsAsked, if_pos ht, State.mod_h, Hart.release_idle hq]
  have hrel (thr : Nat) : (s.h.releaseTails m s.h.vl).release thr s.h.vl = (s.h.releaseTails m s.h.vl).releaseTails thr s.h.vl :=
    Hart.release_idle (h := s.h.releaseTails m s.h.vl) hq _ _
  have hh := (s.askRows_h m).1
  rw [hs, show (s.h.releaseTails m s.h.vl).vl = s.h.vl from rfl, hrel] at hh
  obtain ⟨hv, hr⟩ := Hart.rowsGranted_keeps (if s.grantOf m ≠ 0 ∧ s.h.vtype.getLsbD 8 = true ∧ s.grantOf m < m then
    (s.h.releaseTails m s.h.vl).releaseTails (s.grantOf m) s.h.vl else s.h.releaseTails m s.h.vl) (s.grantOf m)
  rw [hh]
  refine ⟨?_, fun n => ?_⟩
  · rw [hr]
    split
    · rfl
    · rfl
  · rw [Hart.vreg, hv, ← Hart.vreg]
    simp only [ht, true_and]
    split
    · rw [Hart.releaseTails_vreg, Hart.releaseTails_vreg]
    · rw [Hart.releaseTails_vreg]

/-- The elements that stand of the registers. -/
theorem State.askRows_elem {s : State} (ht : s.h.vtype.getLsbD 8 = true) (hq : s.h.queue = []) (m : Nat) (n : VNum) {k x : Nat}
    (hx : (x + 1) * etBits (s.h.vreg n).et ≤ 8192) : ((s.askRows m).h.vreg n).elem (etBits (s.h.vreg n).et) k x =
      if k < (if s.grantOf m = 0 then m else s.grantOf m) ∧ x < s.h.vl then (s.h.vreg n).elem (etBits (s.h.vreg n).et) k x else 0 := by
  rw [(State.askRows_cut ht hq m).2 n]
  have hle := s.grantOf_le m
  by_cases hg : s.grantOf m = 0
  · rw [if_neg fun h => h.1 hg, if_pos hg, VReg.elem_cut _ _ _ hx]
  · rw [if_neg hg]
    by_cases hlt : s.grantOf m < m
    · rw [if_pos ⟨hg, hlt⟩, VReg.elem_cut_cut _ hle _ hx]
    · rw [if_neg fun h => hlt h.2, VReg.elem_cut _ _ _ hx]
      simp only [show k < m ↔ k < s.grantOf m by omega]

/-! ### Lane groups (R160) -/

/-- Of a hart only the groups that VTYPE names and the note that it was served differ. -/
def Hart.OnlyLanes (h g : Hart) : Prop := ∃ b vt, g = { h with laneServed := b, vtype := vt }

/-- The state in which an ask for `n` groups has taken or released them, before VTYPE shows it. -/
def State.lanesAsked (s : State) (n : Nat) : State :=
  let held := s.core.heldBy s.cur
  let want := if n = 0 then max (groupCount held) 1 else n
  if s.h.laneServed then s
  else if want < groupCount held then s.releaseLanes s.cur (highestGroups held (groupCount held - want))
  else { s with core := s.core.grantLanes s.core.laneResv s.cur [0, 1, 2, 3] (want - groupCount held) }

theorem State.askLanes_eq (s : State) (n : Nat) : s.askLanes n =
    ((s.lanesAsked n).syncGroups.serveLanes, if n = 0 then max (groupCount (s.core.heldBy s.cur)) 1 else n) := rfl

theorem State.lanesAsked_frame (s : State) (n : Nat) : ∃ c, s.lanesAsked n = { s with core := c } := by
  unfold State.lanesAsked
  dsimp only
  repeat' split
  all_goals exact ⟨_, rfl⟩

/-- An ask for groups leaves memory, and of every hart all but the groups in VTYPE and the note of its service. -/
theorem State.askLanes_keeps (s : State) (n : Nat) : (s.askLanes n).1.mem = s.mem ∧ (s.askLanes n).1.cur = s.cur ∧
    ∀ j : Fin 4, s.harts[j].OnlyLanes (s.askLanes n).1.harts[j] := by
  rw [State.askLanes_eq]
  obtain ⟨c, hc⟩ := s.lanesAsked_frame n
  refine ⟨by rw [State.serveLanes_mem, hc]; rfl, by rw [State.serveLanes_cur, hc]; rfl, fun j => ?_⟩
  obtain ⟨b, vt, hj⟩ := (s.lanesAsked n).syncGroups.serveLanes_hart j
  have hsync : ∃ vt, (s.lanesAsked n).syncGroups.harts[j] = { s.harts[j] with vtype := vt } := by
    rw [hc]
    by_cases hjc : j = s.cur
    · subst hjc
      exact ⟨_, State.modHart_same _ _ _⟩
    · exact ⟨_, State.modHart_other _ _ _ _ hjc⟩
  obtain ⟨vt', hsync⟩ := hsync
  exact ⟨b, vt, by rw [hj, hsync]⟩

theorem State.askLanes_h (s : State) (n : Nat) : s.h.OnlyLanes (s.askLanes n).1.h := by
  obtain ⟨-, hcur, hh⟩ := s.askLanes_keeps n
  rw [State.h_of_cur hcur]
  exact hh s.cur

theorem vtype_fields (t : BitVec 1) (g e : BitVec 4) : vtGroups (t ++ g ++ e) = g ∧ vtEt (t ++ g ++ e) = e ∧
    (t ++ g ++ e : BitVec 9).getLsbD 8 = t.getLsbD 0 := by
  revert t g e
  decide

/-! ### `setvl` and `setlens` (R474) -/

/-- The groups that a hart holds once it has asked for `n`. -/
def State.groupsAsked (s : State) (n : Nat) : BitVec 4 := vtGroups (s.askLanes n).1.h.vtype

/-- A hart with ET and the field td of VTYPE set. -/
def Hart.withType (t : BitVec 1) (e : BitVec 4) (h : Hart) : Hart := { h with vtype := t ++ vtGroups h.vtype ++ e }

/-- VTYPE is set, -/
def State.typeAsked (s : State) (n : Nat) (t : BitVec 1) (e : BitVec 4) : State := (s.askLanes n).1.mod (Hart.withType t e)

/-- and VL, before the rows are asked for. -/
def State.shapeAsked (s : State) (n : Nat) (a : XNum) (t : BitVec 1) (e : BitVec 4) : State :=
  (s.typeAsked n t e).mod fun h => { h with vl := min ((s.typeAsked n t e).x a).toNat (vlmaxOf (groupCount (vtGroups h.vtype)) e) }

theorem State.shapeAsked_mem (s : State) (n : Nat) (a : XNum) (t : BitVec 1) (e : BitVec 4) : (s.shapeAsked n a t e).mem = s.mem := by
  rw [State.shapeAsked, State.mod_mem, State.typeAsked, State.mod_mem, (s.askLanes_keeps n).1]

theorem State.typeAsked_h (s : State) (n : Nat) (t : BitVec 1) (e : BitVec 4) : ∃ b, (s.typeAsked n t e).h =
    { s.h with laneServed := b, vtype := t ++ s.groupsAsked n ++ e } := by
  obtain ⟨b, vt, hh⟩ := s.askLanes_h n
  rw [State.typeAsked, State.mod_h, Hart.withType, State.groupsAsked, hh]
  exact ⟨b, rfl⟩

theorem State.typeAsked_groups (s : State) (n : Nat) (t : BitVec 1) (e : BitVec 4) : vtGroups (s.typeAsked n t e).h.vtype = s.groupsAsked n := by
  obtain ⟨b, hh⟩ := s.typeAsked_h n t e
  rw [hh, (vtype_fields _ _ _).1]

theorem State.typeAsked_x (s : State) (n : Nat) (t : BitVec 1) (e : BitVec 4) (a : XNum) : (s.typeAsked n t e).x a = s.x a := by
  obtain ⟨b, hh⟩ := s.typeAsked_h n t e
  rw [State.x, hh, State.x]

/-- The hart that sets its shape. -/
theorem State.shapeAsked_h (s : State) (n : Nat) (a : XNum) (t : BitVec 1) (e : BitVec 4) : ∃ b, (s.shapeAsked n a t e).h =
    { s.h with laneServed := b, vtype := t ++ s.groupsAsked n ++ e, vl := min (s.x a).toNat (vlmaxOf (groupCount (s.groupsAsked n)) e) } := by
  obtain ⟨b, hh⟩ := s.typeAsked_h n t e
  refine ⟨b, ?_⟩
  rw [State.shapeAsked, State.mod_h, State.typeAsked_x, hh, (vtype_fields _ _ _).1]

theorem State.shapeAsked_cur (s : State) (n : Nat) (a : XNum) (t : BitVec 1) (e : BitVec 4) : (s.shapeAsked n a t e).cur = s.cur := by
  rw [State.shapeAsked, State.mod_cur, State.typeAsked, State.mod_cur, (s.askLanes_keeps n).2.1]

theorem State.shapeAsked_other (s : State) (n : Nat) (a : XNum) (t : BitVec 1) (e : BitVec 4) {j : Fin 4} (hj : j ≠ s.cur) :
    s.harts[j].OnlyLanes (s.shapeAsked n a t e).harts[j] := by
  obtain ⟨-, hcur, hh⟩ := s.askLanes_keeps n
  have htype : (s.typeAsked n t e).cur = s.cur := by rw [State.typeAsked, State.mod_cur, hcur]
  rw [State.shapeAsked, State.mod_other _ j _ (htype ▸ hj), State.typeAsked, State.mod_other _ j _ (hcur ▸ hj)]
  exact hh j

/-- What the hart and the others count against the pool is what it was. -/
theorem State.shapeAsked_rowsFree (s : State) (n : Nat) (a : XNum) (t : BitVec 1) (e : BitVec 4) : (s.shapeAsked n a t e).rowsFree = s.rowsFree := by
  refine State.rowsFree_congr fun j => ?_
  by_cases hj : j = s.cur
  · obtain ⟨b, hs⟩ := s.shapeAsked_h n a t e
    rw [hj, ← State.h_of_cur (s.shapeAsked_cur n a t e), hs]
    rfl
  · obtain ⟨b, vt, hs⟩ := s.shapeAsked_other n a t e hj
    rw [hs]
    rfl

section
variable {s : State} {w : IWord} {regs : List XNum} {d a : XNum} {e : BitVec 4} {g : BitVec 2} {t : BitVec 1} {rows : State → Nat} {res : Hart → Nat}
  (hc : Clear s regs)
include hc

theorem setShape_clear : setShape w regs d a e g t rows res s = .next
    (if vtGroups (s.typeAsked (lgCount g) t e).h.vtype = 0#4 then s.wait (.lanes (s.askLanes (lgCount g)).2) w
     else
      let u := (s.shapeAsked (lgCount g) a t e).askRows (rows (s.typeAsked (lgCount g) t e))
      (u.setX d (BitVec.ofNat 64 (res u.h))).retire) := by
  unfold setShape
  rw [scalarInstr_clear _ _ _ _ hc.1 hc.2]
  rfl

/-- A hart that gets no group waits for as many as it asks for. -/
theorem setShape_waits (hg : s.groupsAsked (lgCount g) = 0#4) :
    setShape w regs d a e g t rows res s = .next (s.wait (.lanes (s.askLanes (lgCount g)).2) w) := by
  rw [setShape_clear hc, State.typeAsked_groups, if_pos hg]

/-- One that gets some sets its shape. -/
theorem setShape_served (hg : s.groupsAsked (lgCount g) ≠ 0#4) {m : Nat} (hm : rows (s.typeAsked (lgCount g) t e) = m) :
    setShape w regs d a e g t rows res s = .next
      ((((s.shapeAsked (lgCount g) a t e).askRows m).setX d (BitVec.ofNat 64 (res ((s.shapeAsked (lgCount g) a t e).askRows m).h))).retire) := by
  rw [setShape_clear hc, State.typeAsked_groups, if_neg hg, hm]

end

theorem State.retire_setX_only (s : State) (d : XNum) (v : Word) : ∃ c0 c1, (s.setX d v).retire.h =
    { s.h with x := xPut s.h.x d v, pc := s.h.afterPc, lc0 := c0, lc1 := c1, status := .running, laneServed := false, matrixServed := false } := by
  obtain ⟨c0, c1, h⟩ := (s.setX d v).retire_only
  have hpc : (s.setX d v).h.afterPc = s.h.afterPc := by
    rw [State.setX_h]
    exact Hart.afterPc_congr rfl
  exact ⟨c0, c1, by rw [h, hpc, State.setX_h]⟩

/-- W of R240 for a row count fits in the pool. -/
def State.rowsFit (s : State) (n : Nat) : Prop := s.h.rowsWanted n ≤ s.rowsFree + s.h.quota

/-- What `setvl` and `setlens` leave once they are served with groups `G`, when `m` rows are asked for (R474). -/
def SetsShape (s : State) (a : XNum) (t : BitVec 1) (G e : BitVec 4) (u : State) (m : Nat) : Prop :=
  u.h.vtype = t ++ G ++ e ∧ u.h.vl = min (s.x a).toNat (vlmaxOf (groupCount G) e) ∧ u.h.pc = s.h.afterPc ∧ u.mem = s.mem ∧
  (t = 0#1 → u.h.v = s.h.v ∧ u.h.vrows ≤ m ∧ (u.h.vrows ≠ 0 → s.rowsFit u.h.vrows) ∧ (∀ n, u.h.vrows < n → n ≤ m → ¬ s.rowsFit n) ∧
    u.h.quota = (if u.h.vrows = 0 then s.h.quota else s.h.rowsWanted u.h.vrows)) ∧
  (t = 1#1 → s.h.queue = [] → s.h.releases = [] → u.h.releases = [] ∧ u.h.vrows ≤ m ∧ ∀ (n : VNum) k x, let r := s.h.vreg n
    (x + 1) * etBits r.et ≤ 8192 → (u.h.vreg n).elem (etBits r.et) k x =
      if k < (if u.h.vrows = 0 then m else u.h.vrows) ∧ x < u.h.vl then r.elem (etBits r.et) k x else 0)

theorem State.shapeAsked_td (s : State) (n : Nat) (a : XNum) (t : BitVec 1) (e : BitVec 4) :
    (s.shapeAsked n a t e).h.vtype.getLsbD 8 = t.getLsbD 0 := by
  obtain ⟨b, hs⟩ := s.shapeAsked_h n a t e
  rw [hs, (vtype_fields _ _ _).2.2]

/-- With td = 0 the rows granted are the most that fit. -/
theorem State.shapeAsked_kept (s : State) (n : Nat) (a : XNum) (e : BitVec 4) (m : Nat) : let k := ((s.shapeAsked n a 0#1 e).askRows m).h
    k.v = s.h.v ∧ k.vrows ≤ m ∧ (k.vrows ≠ 0 → s.rowsFit k.vrows) ∧ (∀ n, k.vrows < n → n ≤ m → ¬ s.rowsFit n) ∧
    k.quota = if k.vrows = 0 then s.h.quota else s.h.rowsWanted k.vrows := by
  obtain ⟨b, hs⟩ := s.shapeAsked_h n a 0#1 e
  have hwanted : (s.shapeAsked n a 0#1 e).h.rowsWanted = s.h.rowsWanted :=
    funext fun i => Hart.rowsWanted_congr (by rw [hs]) (by rw [hs]) i
  obtain ⟨hk, hg⟩ := State.askRows_kept (s := s.shapeAsked n a 0#1 e) (s.shapeAsked_td n a 0#1 e) m
  rw [hwanted, s.shapeAsked_rowsFree, show (s.shapeAsked n a 0#1 e).h.quota = s.h.quota by rw [hs]] at hg
  dsimp only
  rw [hk, Hart.rowsGranted_vrows, (Hart.rowsGranted_keeps _ _).1, Hart.rowsGranted_quota, hwanted, hg, hs]
  exact ⟨rfl, (rowGrant_spec _ _ m).1, (rowGrant_spec _ _ m).2.1, (rowGrant_spec _ _ m).2.2, rfl⟩

/-- With td = 1 what lies above the granted shape is released. -/
theorem State.shapeAsked_cut (s : State) (n : Nat) (a : XNum) (e : BitVec 4) (m : Nat) (hq : s.h.queue = []) :
    let k := ((s.shapeAsked n a 1#1 e).askRows m).h
    k.releases = s.h.releases ∧ k.vrows ≤ m ∧ ∀ (i : VNum) j x, (x + 1) * etBits (s.h.vreg i).et ≤ 8192 →
      (k.vreg i).elem (etBits (s.h.vreg i).et) j x =
        if j < (if k.vrows = 0 then m else k.vrows) ∧ x < min (s.x a).toNat (vlmaxOf (groupCount (s.groupsAsked n)) e)
        then (s.h.vreg i).elem (etBits (s.h.vreg i).et) j x else 0 := by
  obtain ⟨b, hs⟩ := s.shapeAsked_h n a 1#1 e
  have hq' : (s.shapeAsked n a 1#1 e).h.queue = [] := by rw [hs]; exact hq
  have hvreg (i : VNum) : (s.shapeAsked n a 1#1 e).h.vreg i = s.h.vreg i := by rw [hs]; rfl
  have htd := s.shapeAsked_td n a 1#1 e
  dsimp only
  refine ⟨?_, ?_, fun i j x hx => ?_⟩
  · rw [(State.askRows_cut htd hq' m).1, hs]
  · rw [State.askRows_vrows]
    exact State.grantOf_le _ _
  · have helem := State.askRows_elem htd hq' m i (k := j) (x := x) (by rw [hvreg]; exact hx)
    rw [hvreg, show (s.shapeAsked n a 1#1 e).h.vl = min (s.x a).toNat (vlmaxOf (groupCount (s.groupsAsked n)) e) by rw [hs]] at helem
    rw [helem, State.askRows_vrows]

theorem setsShape_of_asked (s : State) (n : Nat) (a d : XNum) (t : BitVec 1) (e : BitVec 4) (m : Nat) (v : Word) :
    SetsShape s a t (s.groupsAsked n) e (((s.shapeAsked n a t e).askRows m).setX d v).retire m := by
  obtain ⟨c0, c1, hu⟩ := State.retire_setX_only ((s.shapeAsked n a t e).askRows m) d v
  obtain ⟨b, hs⟩ := s.shapeAsked_h n a t e
  obtain ⟨v', rel, vr, q, held, eid, hk⟩ := (s.shapeAsked n a t e).askRows_onlyRows m
  have hvl : ((s.shapeAsked n a t e).askRows m).h.vl = min (s.x a).toNat (vlmaxOf (groupCount (s.groupsAsked n)) e) := by rw [hk, hs]
  unfold SetsShape
  rw [hu]
  refine ⟨?_, hvl, ?_, ?_, fun ht => ?_, fun ht hq hr => ?_⟩
  · rw [hk, hs]
  · rw [hk, hs]
    exact Hart.afterPc_congr rfl
  · rw [State.retire_mem, State.setX_mem, ((s.shapeAsked n a t e).askRows_h m).2, State.shapeAsked_mem]
  · subst ht
    exact s.shapeAsked_kept n a e m
  · subst ht
    obtain ⟨hrel, hle, helem⟩ := s.shapeAsked_cut n a e m hq
    refine ⟨hrel.trans hr, hle, fun i j x hx => ?_⟩
    dsimp only
    rw [hvl]
    exact helem i j x hx

/-! ### A hart that holds groups keeps some (R160) -/

/-- A hart holds a lane group. -/
def Core.Holds (c : Core) (i : Fin 4) : Prop := ∃ g : Fin 4, c.lanes[g] = .held i

theorem Core.holds_of_heldBy {c : Core} {i : Fin 4} (h : c.heldBy i ≠ 0#4) : c.Holds i := by
  by_contra hn
  exact h (Core.heldBy_none fun g hg => hn ⟨g, hg⟩)

/-- The weight of a group in the bitmap of a hart. -/
def Core.heldBit (c : Core) (i g : Fin 4) : Nat := match c.lanes[g] with | .held h => if h = i then 2 ^ g.val else 0 | _ => 0

theorem Core.heldBit_le (c : Core) (i g : Fin 4) : c.heldBit i g ≤ 2 ^ g.val := by
  unfold Core.heldBit
  split
  · split
    · exact Nat.le_refl _
    · exact Nat.zero_le _
  · exact Nat.zero_le _

theorem Core.heldBy_of_holds {c : Core} {i : Fin 4} (h : c.Holds i) : c.heldBy i ≠ 0#4 := by
  obtain ⟨g, hg⟩ := h
  have hbit : c.heldBit i g = 2 ^ g.val := by simp [Core.heldBit, hg]
  have hsum : c.heldBy i = BitVec.ofNat 4 (c.heldBit i 0 + c.heldBit i 1 + c.heldBit i 2 + c.heldBit i 3) := rfl
  have h0 : c.heldBit i 0 ≤ 1 := c.heldBit_le i 0
  have h1 : c.heldBit i 1 ≤ 2 := c.heldBit_le i 1
  have h2 : c.heldBit i 2 ≤ 4 := c.heldBit_le i 2
  have h3 : c.heldBit i 3 ≤ 8 := c.heldBit_le i 3
  have hpos : 0 < c.heldBit i 0 + c.heldBit i 1 + c.heldBit i 2 + c.heldBit i 3 := by
    have hb : 0 < c.heldBit i g := hbit ▸ Nat.two_pow_pos _
    match g, hb with
    | 0, hb | 1, hb | 2, hb | 3, hb => omega
  rw [hsum, ne_eq, ← BitVec.toNat_inj, BitVec.toNat_ofNat, Nat.mod_eq_of_lt (by omega)]
  exact Nat.pos_iff_ne_zero.mp hpos

/-- Grants take free groups alone. -/
theorem Core.Holds.grantLanes {i : Fin 4} (keep : Nat) (j : Fin 4) (l : List (Fin 4)) : ∀ {n : Nat} {c : Core}, c.Holds i → (c.grantLanes keep j l n).Holds i := by
  induction l with
  | nil => intro n c h; cases n <;> exact h
  | cons a l ih =>
    intro n c h
    cases n with
    | zero => exact h
    | succ n =>
      unfold Core.grantLanes
      split
      · rename_i hfree
        split
        · exact h
        · obtain ⟨g, hg⟩ := h
          have hag : a.val ≠ g.val := fun e => by rw [Fin.ext e, hg] at hfree; cases hfree
          exact ih ⟨g, by simpa only [Fin.getElem_fin, Vector.getElem_set_ne _ _ hag] using hg⟩
      · exact ih h

theorem vtype_groups (vt : BitVec 9) (g : BitVec 4) : vtGroups ((vt &&& 0x10F#9) ||| (0#1 ++ g ++ 0#4 : BitVec 9)) = g := by
  unfold vtGroups
  ext i hi
  simp only [BitVec.getElem_extractLsb', BitVec.getLsbD_or, BitVec.getLsbD_and]
  have hmask : (0x10F#9).getLsbD (4 + i) = false := by
    have : ∀ i : Fin 4, (0x10F#9).getLsbD (4 + i.val) = false := by decide
    exact this ⟨i, hi⟩
  rw [hmask]
  grind

/-- A hart holds groups and its VTYPE names some. -/
def State.ShowsGroups (s : State) (i : Fin 4) : Prop := s.core.Holds i ∧ vtGroups s.harts[i].vtype ≠ 0#4

theorem State.ShowsGroups.grantOnce {s : State} {i : Fin 4} (h : s.ShowsGroups i) : s.grantOnce.ShowsGroups i := by
  unfold State.grantOnce
  split
  · exact h
  · rename_i j n hj
    split
    · have hholds := h.1.grantLanes s.core.laneResv j [0, 1, 2, 3] (n := n)
      refine ⟨hholds, ?_⟩
      by_cases hij : i = j
      · subst hij
        rw [State.modHart_same, vtype_groups]
        exact Core.heldBy_of_holds hholds
      · rw [State.modHart_other _ _ _ _ hij]
        exact h.2
    · exact h

theorem State.ShowsGroups.settleLanes {s : State} {i : Fin 4} (h : s.ShowsGroups i) : s.settleLanes.ShowsGroups i := by
  obtain ⟨⟨g, hg⟩, hv⟩ := h
  refine ⟨⟨g, ?_⟩, hv⟩
  simp only [State.settleLanes, Fin.getElem_fin, Vector.getElem_ofFn]
  simp only [Fin.getElem_fin] at hg
  rw [hg]

theorem State.ShowsGroups.serveLanes {s : State} {i : Fin 4} (h : s.ShowsGroups i) : s.serveLanes.ShowsGroups i :=
  h.settleLanes.grantOnce.grantOnce.grantOnce.grantOnce

/-- A hart that asks to keep what it holds keeps it. -/
theorem State.groupsAsked_keep {s : State} (h : s.core.heldBy s.cur ≠ 0#4) : s.groupsAsked 0 ≠ 0#4 := by
  have hheld := Core.holds_of_heldBy h
  have hasked : (s.lanesAsked 0).core.Holds s.cur := by
    unfold State.lanesAsked
    simp only [if_true]
    split
    · exact hheld
    · rw [if_neg (by omega)]
      exact hheld.grantLanes _ _ _
  obtain ⟨c, hc⟩ := s.lanesAsked_frame 0
  have hcur : (s.lanesAsked 0).cur = s.cur := by rw [hc]
  have hsync : (s.lanesAsked 0).syncGroups.ShowsGroups s.cur := by
    refine ⟨hasked, ?_⟩
    rw [← State.h_of_cur (s := (s.lanesAsked 0).syncGroups) hcur, State.syncGroups, State.mod_h, vtype_groups, hcur]
    exact Core.heldBy_of_holds hasked
  have hshown := hsync.serveLanes.2
  rwa [← State.h_of_cur (by rw [State.serveLanes_cur]; exact hcur)] at hshown

theorem lgCount_ne_zero : ∀ g : BitVec 2, g ≠ 0#2 → lgCount g ≠ 0 := by decide

/-- How many groups a hart waits for that gets none (R160). -/
theorem State.askLanes_count {s : State} {g : BitVec 2} (h : s.groupsAsked (lgCount g) = 0#4) :
    (s.askLanes (lgCount g)).2 = if g = 0#2 then 1 else lgCount g := by
  rw [State.askLanes_eq]
  by_cases hg : g = 0#2
  · subst hg
    have hnone : s.core.heldBy s.cur = 0#4 := by
      by_contra hne
      exact State.groupsAsked_keep hne h
    rw [hnone, if_pos rfl]
    rfl
  · have hn := lgCount_ne_zero g hg
    rw [if_neg hg, if_neg hn]

/-! ### `vrelease` (R476) -/

/-- The hart that executes has given up every group, and the waiters are served. -/
def State.lanesGiven (s : State) : State := (s.releaseLanes s.cur 15#4).serveLanes

theorem State.lanesGiven_keeps {s : State} (hr : s.h.status = .running) : s.lanesGiven.mem = s.mem ∧ s.lanesGiven.cur = s.cur ∧
    s.lanesGiven.h = s.h ∧ s.lanesGiven.core.heldBy s.cur = 0#4 := by
  have hask : laneAsk (s.releaseLanes s.cur 15#4).harts[s.cur] = none := laneAsk_of_running hr
  have hcur : s.lanesGiven.cur = s.cur := State.serveLanes_cur _
  refine ⟨State.serveLanes_mem _, hcur, ?_, Core.heldBy_none fun g hg => ?_⟩
  · rw [State.h_of_cur hcur]
    exact State.serveLanes_still _ _ hask
  · exact s.releaseLanes_all s.cur g ((State.serveLanes_keeps _ hask).2 g hg)

/-- A hart without groups: VTYPE names none, and VL is 0. -/
def Hart.shapeGiven (t : BitVec 1) (h : Hart) : Hart := { h with vtype := t ++ 0#4 ++ vtEt h.vtype, vl := 0 }

/-- A hart that has given up every row as well. -/
def Hart.rowsGiven (h : Hart) : Hart := { (h.release 0 0).setQuota 32 with vrows := 0 }

theorem Hart.rowsGiven_onlyRows (h : Hart) : h.OnlyRows h.rowsGiven := by
  obtain ⟨v, rel, hr⟩ := h.release_only 0 0
  rw [Hart.rowsGiven, hr]
  exact ⟨_, _, _, _, _, _, rfl⟩

theorem Hart.rowsGiven_none {h : Hart} (hq : h.queue = []) (n : VNum) : (h.rowsGiven.vreg n).valid = false := by
  have hv : h.rowsGiven.v = (h.release 0 0).v := rfl
  rw [Hart.vreg, hv, Hart.release_idle hq, ← Hart.vreg, Hart.releaseTails_vreg]
  rfl

theorem execVrelease_clear {s : State} (hc : Clear s []) (d : XNum) (t : BitVec 1) : execVrelease d t s = .next
    ((s.lanesGiven.mod (if t = 1#1 then Hart.rowsGiven ∘ Hart.shapeGiven t else Hart.shapeGiven t)).setX d
      (BitVec.ofNat 64 (groupCount (s.core.heldBy s.cur)))).retire := by
  have hexec : execVrelease d t s = .next
      ((if t = 1#1 then (s.lanesGiven.mod (Hart.shapeGiven t)).mod Hart.rowsGiven else s.lanesGiven.mod (Hart.shapeGiven t)).setX d
        (BitVec.ofNat 64 (groupCount (s.core.heldBy s.cur)))).retire := by
    unfold execVrelease
    rw [scalarInstr_clear _ _ _ _ hc.1 hc.2]
    rfl
  rw [hexec, State.mod_mod]
  split
  · rfl
  · rfl

/-- What a release leaves beside its hart. -/
theorem State.lanesGiven_retired {s : State} (hr : s.h.status = .running) (f : Hart → Hart) (d : XNum) (v : Word) :
    (∃ c0 c1, ((s.lanesGiven.mod f).setX d v).retire.h = { f s.h with x := xPut (f s.h).x d v, pc := (f s.h).afterPc, lc0 := c0, lc1 := c1,
                                                                      status := .running, laneServed := false, matrixServed := false }) ∧
    ((s.lanesGiven.mod f).setX d v).retire.core.heldBy s.cur = 0#4 ∧ ((s.lanesGiven.mod f).setX d v).retire.mem = s.mem := by
  obtain ⟨hmem, -, hh, hheld⟩ := s.lanesGiven_keeps hr
  obtain ⟨c0, c1, hu⟩ := State.retire_setX_only (s.lanesGiven.mod f) d v
  rw [hu, State.retire_core, State.setX_core, State.mod_core, State.retire_mem, State.setX_mem, State.mod_mem, State.mod_h, hh]
  exact ⟨⟨c0, c1, rfl⟩, hheld, hmem⟩

end Sys2Proof.Machine
end

section
/-! SUPPORT. Progress words (R155, R339, R475, R593): a read of one in plain storage gives its value and has the effect of an acquire. -/

namespace Sys2Proof.Machine
open Sys2Proof.Claims

/-- A machine that has looked up ways and kept translations: no byte differs, and no further word is uncorrectable. -/
structure State.Looked (s t : State) : Prop where
  frame : ∃ m tlb, t = { s with mem := m, core := { s.core with tlb := tlb } }
  mem : ∃ dt, { s.mem with dieTlb := dt }.Touched t.mem

theorem State.Looked.refl (s : State) : s.Looked s := ⟨⟨_, _, rfl⟩, ⟨_, .refl _⟩⟩

theorem State.Touched.looked {n : Nat} {s t : State} (h : s.Touched n t) : s.Looked t := ⟨h.frame, h.mem⟩

theorem State.Looked.trans {s t u : State} (h : s.Looked t) (h' : t.Looked u) : s.Looked u := by
  obtain ⟨⟨m, tlb, rfl⟩, ⟨dt, hm⟩⟩ := h
  obtain ⟨⟨m', tlb', rfl⟩, ⟨dt', hm'⟩⟩ := h'
  obtain ⟨⟨ways, ecc, rfl⟩, htaint⟩ := hm
  exact ⟨⟨_, _, rfl⟩, ⟨dt', ⟨hm'.frame, fun w hw => htaint w (hm'.tainted w hw)⟩⟩⟩

theorem State.Looked.cells {s t : State} (h : s.Looked t) : t.mem.cells = s.mem.cells := by
  obtain ⟨dt, hm⟩ := h.mem
  exact hm.cells

/-- Keeping a translation, whatever it is, looks up ways alone. -/
theorem State.fillTlb_looked (s : State) (w : Who) (path : AccPath) (e : TlbEntry) : s.Looked (s.fillTlb w path e) := by
  have hreads (l : List Nat) : s.mem.Touched (l.foldl (fun m k => m.touchRead false k 8) s.mem) :=
    List.foldlRecOn (motive := (s.mem.Touched ·)) _ _ (.refl _) fun b hb k _ => hb.trans (b.touchRead_touched false k 8)
  unfold State.fillTlb
  split
  · exact .refl s
  · dsimp only
    generalize (if s.mem.dieTlb.any e.same then [] else (s.walkAll w.ctxid e.va).2) = reads
    obtain ⟨⟨ways, ecc, hm⟩, htaint⟩ := hreads reads
    generalize reads.foldl (fun m k => m.touchRead false k 8) s.mem = m at hm htaint
    subst hm
    split
    · exact ⟨⟨_, _, rfl⟩, ⟨_, ⟨⟨_, _, rfl⟩, htaint⟩⟩⟩
    · exact ⟨⟨_, _, rfl⟩, ⟨_, ⟨⟨_, _, rfl⟩, htaint⟩⟩⟩

/-- A place of the scratchpad lies above the stacks. -/
theorem State.spadLoc_far {s : State} {va n k : Nat} {kind : AccKind} {path : AccPath} (h : s.spadLoc va n kind path = .ok (.spad k)) : hbmEnd ≤ k := by
  unfold State.spadLoc at h
  dsimp only at h
  split at h
  · cases h
  · split at h
    · cases h
    · split at h
      · rw [← Loc.spad.inj (Except.ok.inj h)]
        exact spadKey_far _ _
      · split at h
        · cases h
        · cases h

/-- Where bytes are found, ways have been looked up and a translation kept. -/
theorem State.locate_looked {s u : State} {w : Who} {va n : Nat} {kind : AccKind} {path : AccPath} {l : Loc} (h : s.locate w va n kind path = .ok (l, u)) :
    s.Looked u ∧ ∀ k, l = .spad k → hbmEnd ≤ k := by
  unfold State.locate at h
  split at h
  · split at h
    · cases h
    · dsimp only at h
      split at h
      · cases h
      · cases h
        exact ⟨.refl s, fun k hk => by cases hk⟩
  · split at h
    · cases hsp : s.spadLoc va n kind path with
      | error t => rw [hsp] at h; cases h
      | ok x =>
        rw [hsp] at h
        cases h
        exact ⟨.refl s, fun k hk => State.spadLoc_far (hk ▸ hsp)⟩
    · split at h
      · split at h
        · cases h
        · cases h
        · dsimp only at h
          split at h
          · cases h
          · split at h
            · cases h
              refine ⟨s.fillTlb_looked _ _ _, fun k hk => ?_⟩
              split at hk
              · cases hk
              · cases hk
            · cases h
      · cases h

theorem State.Looked.sound {s t : State} (h : s.Looked t) {k n : Nat} (hs : Sound s k n) : Sound t k n := by
  obtain ⟨dt, hm⟩ := h.mem
  exact sound_iff.mpr fun w hw ht => sound_iff.mp hs w hw (hm.tainted w ht)

/-- A load of sound bytes that are placed gives them. -/
theorem State.load_placed {s u : State} {va n k : Nat} (h : PlacedAt s va n .load .aux k u) (hn : 0 < n) (hs : Sound s k n) :
    ∃ v, s.load s.whoScalar va n .aux = .ok (s.mem.peek k n) v ∧ s.Looked v := by
  obtain ⟨-, hpage, hva, hsca, hseal, hplace⟩ := h
  have hone {l : Loc} (hloc : s.locate s.whoScalar va n .load .aux = .ok (l, u)) :
      s.locateAll s.whoScalar .load .aux n (if 2 ^ 63 ≤ va then [(va, n)] else pagePieces va n) = .ok ([(l, va, n)], u) := by
    rw [if_neg (Nat.not_le.mpr hva), pagePieces_one hn hpage]
    simp only [State.locateAll, ite_self, hloc]
  have hread (hl : s.Looked u) {enc : Bool} (hk : enc = true → hbmEnd ≤ k) :
      ∃ v, u.readKey s.whoScalar enc k n = (some (s.mem.peek k n), v) ∧ s.Looked v := by
    obtain ⟨dt, hm⟩ := hl.mem
    obtain ⟨v, hv, ht⟩ := (State.Touched.refl 0 u).readKey (hm.sca.trans hsca) (hm.sealed.trans hseal) (hl.sound hs) hk s.whoScalar false
    rw [Memory.peek, hl.cells] at hv
    exact ⟨v, hv, hl.trans ht.looked⟩
  rcases hplace with ⟨g, hloc⟩ | hloc
  · obtain ⟨v, hv, hl⟩ := hread (State.locate_looked hloc).1 (enc := false) fun h => by cases h
    refine ⟨v, ?_, hl⟩
    rw [State.load, hone hloc]
    simp [Loc.isBusy, State.readLocs, hv]
  · obtain ⟨v, hv, hl⟩ := hread (State.locate_looked hloc).1 (enc := true) fun _ => (State.locate_looked hloc).2 k rfl
    refine ⟨v, ?_, hl⟩
    rw [State.load, hone hloc]
    simp [Loc.isBusy, State.readLocs, hv]

/-- A hart that has read a progress word: strips held for it are discarded (R336). -/
def Hart.progressRead (h : Hart) : Hart := { h.dropStrips with scalarRemote := ⟨[], [], none⟩ }

/-- The read of a progress word in plain storage. -/
theorem State.readProgress_placed {s u : State} {a : Word} {k : Nat} (hb : s.h.stbuf = []) (h : PlacedAt s (a &&& ~~~7#64).toNat 8 .load .aux k u)
    (hs : Sound s k 8) (hsame : s.sameBytes false (a &&& ~~~7#64).toNat 8 = false) (w : IWord) :
    ∃ v, s.readProgress w a = .ok (leNat (s.mem.peek k 8), v) ∧ v.h = s.h.progressRead ∧ v.mem.cells = s.mem.cells := by
  obtain ⟨v, hload, hl⟩ := State.load_placed h (by decide) hs
  have hbuf : s.h.buffered (a &&& ~~~7#64).toNat 8 = false := by simp [Hart.buffered, hb]
  have hscalar : s.scalarLoad w s.h.level 0 (a &&& ~~~7#64).toNat 8 .aux = .ok (s.mem.peek k 8, v) := by
    unfold State.scalarLoad
    rw [hbuf, hsame, if_neg (by decide), show { s.whoScalar with level := s.h.level } = s.whoScalar from rfl, hload]
  refine ⟨(v.fenceEffect 4).endRemote, ?_, ?_, ?_⟩
  · unfold State.readProgress
    rw [hscalar]
  · rw [State.endRemote_h, State.fenceEffect, if_pos (by decide), State.mod_h]
    obtain ⟨⟨m, tlb, hv⟩, -⟩ := hl
    rw [hv]
    rfl
  · rw [State.endRemote_mem, State.fenceEffect, if_pos (by decide), State.mod_mem]
    exact hl.cells

end Sys2Proof.Machine
end

section
/-! SUPPORT. The statement O50: what `setvl`, `setlens`, `setvlp` and `vrelease` leave (R474 to R476). -/

namespace Sys2Proof.Machine
open Sys2Proof.Claims

/-! ### `setvlp` (R475) -/

/-- The VL that a progress word gives a hart. -/
def Hart.progressVl (h : Hart) (n pos : Nat) : Nat := min (vlmaxOf (groupCount (vtGroups h.vtype)) (vtEt h.vtype)) ((n - pos) / max h.vrows 1)

theorem execSetvlp_placed {s u : State} {a b : XNum} {k : Nat} (hc : Clear s [a, b]) (hb : s.h.stbuf = [])
    (hp : PlacedAt s (s.x a &&& ~~~7#64).toNat 8 .load .aux k u) (hs : Sound s k 8) (hsame : s.sameBytes false (s.x a &&& ~~~7#64).toNat 8 = false) (d : XNum) :
    let n := s.h.progressVl (leNat (s.mem.peek k 8)) (s.x b).toNat
    ∃ v, execSetvlp d a b s = .next v ∧ v.h.vl = n ∧ v.h.x = xPut s.h.x d (BitVec.ofNat 64 n) ∧ v.h.vtype = s.h.vtype ∧ v.h.vrows = s.h.vrows ∧
      ∀ i, byteAt v i = byteAt s i := by
  obtain ⟨v, hread, hh, hcells⟩ := State.readProgress_placed hb hp hs hsame (wSetvlp d a b)
  have hx : v.x b = s.x b := by
    rw [State.x, hh]
    rfl
  have hn : v.h.progressVl (leNat (s.mem.peek k 8)) (s.x b).toNat = s.h.progressVl (leNat (s.mem.peek k 8)) (s.x b).toNat := by
    rw [hh]
    rfl
  have hexec : execSetvlp d a b s = .next (((v.mod fun h => { h with vl := s.h.progressVl (leNat (s.mem.peek k 8)) (s.x b).toNat }).setX d
      (BitVec.ofNat 64 (s.h.progressVl (leNat (s.mem.peek k 8)) (s.x b).toNat))).retire) := by
    unfold execSetvlp
    rw [scalarInstr_clear _ _ _ _ hc.1 hc.2, hread]
    dsimp only
    rw [hx]
    exact congrArg (fun n => Host.Outcome.next ((v.mod fun h => { h with vl := n }).setX d (BitVec.ofNat 64 n)).retire) hn
  obtain ⟨c0, c1, hu⟩ := State.retire_setX_only (v.mod fun h => { h with vl := s.h.progressVl (leNat (s.mem.peek k 8)) (s.x b).toNat }) d
    (BitVec.ofNat 64 (s.h.progressVl (leNat (s.mem.peek k 8)) (s.x b).toNat))
  refine ⟨_, hexec, ?_⟩
  rw [hu, State.mod_h, hh]
  exact ⟨rfl, rfl, rfl, rfl, fun i => congrArg (cellGet · i) hcells⟩

/-! ### The statement -/

section
variable {s : State} {w : IWord} {regs : List XNum} {d a : XNum} {e : BitVec 4} {g : BitVec 2} {t : BitVec 1} {rows : State → Nat} {res : Hart → Nat}

/-- A served hart sets its shape and answers a part of it. -/
theorem setShape_sets (hc : Clear s regs) (hg : s.groupsAsked (lgCount g) ≠ 0#4) {m : Nat} (hm : rows (s.typeAsked (lgCount g) t e) = m)
    (hres : ∀ h k : Hart, h.vl = k.vl → h.vrows = k.vrows → res h = res k) :
    ∃ u, setShape w regs d a e g t rows res s = .next u ∧ SetsShape s a t (s.groupsAsked (lgCount g)) e u m ∧
      u.h.x = xPut s.h.x d (BitVec.ofNat 64 (res u.h)) := by
  refine ⟨_, setShape_served hc hg hm, setsShape_of_asked s _ a d t e m _, ?_⟩
  obtain ⟨b, hs⟩ := s.shapeAsked_h (lgCount g) a t e
  obtain ⟨v, rel, vr, q, held, eid, hk⟩ := (s.shapeAsked (lgCount g) a t e).askRows_onlyRows m
  have hx : ((s.shapeAsked (lgCount g) a t e).askRows m).h.x = s.h.x := by rw [hk, hs]
  generalize (s.shapeAsked (lgCount g) a t e).askRows m = k at hx
  obtain ⟨c0, c1, hu⟩ := k.retire_setX_only d (BitVec.ofNat 64 (res k.h))
  have hr : res (k.setX d (BitVec.ofNat 64 (res k.h))).retire.h = res k.h := hres _ _ (by rw [hu]) (by rw [hu])
  rw [hr, hu, hx]

end

theorem execSetvl_sets {s : State} {a : XNum} {g : BitVec 2} (hc : Clear s [a]) (hg : s.groupsAsked (lgCount g) ≠ 0#4) (d : XNum) (e : BitVec 4)
    (t : BitVec 1) : ∃ u, execSetvl d a e g t s = .next u ∧ SetsShape s a t (s.groupsAsked (lgCount g)) e u (max s.h.vrows 1) ∧
      u.h.x = xPut s.h.x d (BitVec.ofNat 64 u.h.vl) := by
  obtain ⟨b, hh⟩ := s.typeAsked_h (lgCount g) t e
  unfold execSetvl
  exact setShape_sets hc hg (by rw [hh]) fun _ _ hvl _ => hvl

theorem execSetlens_sets {s : State} {a b : XNum} {g : BitVec 2} (hc : Clear s [a, b]) (hg : s.groupsAsked (lgCount g) ≠ 0#4) (d : XNum)
    (e : BitVec 4) (t : BitVec 1) : ∃ u, execSetlens d a b e g t s = .next u ∧
      SetsShape s a t (s.groupsAsked (lgCount g)) e u (min (s.x b).toNat 16) ∧ u.h.x = xPut s.h.x d (BitVec.ofNat 64 u.h.vrows) := by
  unfold execSetlens
  exact setShape_sets hc hg (by rw [State.typeAsked_x]) fun _ _ _ hrows => hrows

theorem execSetvl_waits {s : State} {a : XNum} {g : BitVec 2} (hc : Clear s [a]) (hg : s.groupsAsked (lgCount g) = 0#4) (d : XNum) (e : BitVec 4)
    (t : BitVec 1) : execSetvl d a e g t s = .next (s.wait (.lanes (s.askLanes (lgCount g)).2) (wSetvl d a e g t)) := by
  unfold execSetvl
  exact setShape_waits hc hg

/-- What `vrelease` leaves of the hart's groups, registers and rows (R476). -/
theorem execVrelease_gives {s : State} (hc : Clear s []) (hr : s.h.status = .running) (d : XNum) {t : BitVec 1} (hq : t = 1#1 → s.h.queue = []) :
    ∃ u, execVrelease d t s = .next u ∧
      u.h.vtype = t ++ 0#4 ++ vtEt s.h.vtype ∧ u.h.vl = 0 ∧ u.core.heldBy s.cur = 0#4 ∧ u.mem = s.mem ∧
      u.h.x = xPut s.h.x d (BitVec.ofNat 64 (groupCount (s.core.heldBy s.cur))) ∧
      (if t = 1#1 then (∀ n, (u.h.vreg n).valid = false) ∧ u.h.vrows = 0 ∧ u.h.quota = 32
       else u.h.v = s.h.v ∧ u.h.vrows = s.h.vrows ∧ u.h.quota = s.h.quota) := by
  obtain ⟨⟨c0, c1, hu⟩, hheld, hmem⟩ := State.lanesGiven_retired hr (if t = 1#1 then Hart.rowsGiven ∘ Hart.shapeGiven t else Hart.shapeGiven t) d
    (BitVec.ofNat 64 (groupCount (s.core.heldBy s.cur)))
  refine ⟨_, execVrelease_clear hc d t, ?_⟩
  rw [hu]
  rcases BitVec.eq_zero_or_eq_one t with rfl | rfl
  · exact ⟨rfl, rfl, hheld, hmem, rfl, rfl, rfl, rfl⟩
  · obtain ⟨v, rel, n, q, held, eid, hk⟩ := (s.h.shapeGiven 1#1).rowsGiven_onlyRows
    have hgiven : ((if (1#1 : BitVec 1) = 1#1 then Hart.rowsGiven ∘ Hart.shapeGiven 1#1 else Hart.shapeGiven 1#1) s.h) =
        (s.h.shapeGiven 1#1).rowsGiven := rfl
    have hnone := Hart.rowsGiven_none (h := s.h.shapeGiven 1#1) (hq rfl)
    have hquota : (s.h.shapeGiven 1#1).rowsGiven.quota = 32 := rfl
    rw [hgiven]
    refine ⟨?_, ?_, hheld, hmem, ?_, hnone, rfl, hquota⟩
    all_goals
      rw [hk]
      rfl

/-- Settles O50: each instruction's case is the equation of what it leaves; the grant is the largest row count that fits, and what a
release leaves of a register is its elements below the granted shape. -/
theorem vectorShapeRule : Obligations.VectorShapeRule := by
  intro s d a b e g t s1 fits shape
  refine ⟨fun hg => ⟨fun hc => ?setvl, fun hc => ?setlens⟩, fun hg hc => ?waits, ?progress, fun hc hr hq => ?release⟩
  case setvl => exact execSetvl_sets hc hg d e t
  case setlens => exact execSetlens_sets hc hg d e t
  case waits => exact ⟨_, execSetvl_waits hc hg d e t, State.askLanes_count hg⟩
  case progress =>
    intro u k va hc hb hp hs hsame
    exact execSetvlp_placed hc hb hp hs hsame d
  case release => exact execVrelease_gives hc hr d hq

end Sys2Proof.Machine
end

section
/-! SUPPORT. The error queue (R371, R594): a scalar load of plain storage through a data cache that holds none of its lines gives its bytes, and a store behind
it performs; and the statement O53. -/

namespace Sys2Proof.Machine
open Sys2Proof.Claims

/-! ### Bytes of the storage -/

theorem cellRead_add (cs : List Host.Cell) (n m k : Nat) : cellRead cs k (n + m) = cellRead cs k n ++ cellRead cs (k + n) m := by
  induction n generalizing k with
  | zero => rw [Nat.zero_add, cellRead, List.nil_append, Nat.add_zero]
  | succ n ih => rw [Nat.add_right_comm, cellRead, ih, cellRead, List.cons_append, Nat.add_assoc k 1 n, Nat.add_comm 1 n]

theorem cellRead_getD (cs : List Host.Cell) {n i : Nat} (h : i < n) (k : Nat) : (cellRead cs k n).getD i 0#8 = cellGet cs (k + i) := by
  induction n generalizing k i with
  | zero => exact absurd h (Nat.not_lt_zero i)
  | succ n ih =>
    cases i with
    | zero => rfl
    | succ i =>
      rw [cellRead, List.getD_cons_succ, ih (Nat.lt_of_succ_lt_succ h), Nat.add_right_comm, Nat.add_assoc]

theorem mem_wordsOf {k n w : Nat} (hn : 0 < n) : w ∈ wordsOf k n ↔ k / 8 ≤ w ∧ w ≤ (k + n - 1) / 8 := by
  rw [wordsOf, if_neg (Nat.pos_iff_ne_zero.mp hn)]
  simp only [List.mem_map, List.mem_range]
  constructor
  · rintro ⟨i, hi, rfl⟩
    omega
  · rintro ⟨h1, h2⟩
    exact ⟨w - k / 8, by omega, by omega⟩

theorem mem_linesOf {k n l : Nat} (hn : 0 < n) : l ∈ linesOf k n ↔ k / 64 ≤ l ∧ l ≤ (k + n - 1) / 64 := by
  rw [linesOf, if_neg (Nat.pos_iff_ne_zero.mp hn)]
  simp only [List.mem_map, List.mem_range]
  constructor
  · rintro ⟨i, hi, rfl⟩
    omega
  · rintro ⟨h1, h2⟩
    exact ⟨l - k / 64, by omega, by omega⟩

/-- Bytes within sound ones are sound. -/
theorem sound_within {s : State} {k n k' n' : Nat} (h : Sound s k n) (hlo : k ≤ k') (hhi : k' + n' ≤ k + n) : Sound s k' n' := by
  intro w hw
  rcases Nat.eq_zero_or_pos n' with rfl | hn'
  · simp [wordsOf] at hw
  · obtain ⟨h1, h2⟩ := (mem_wordsOf hn').mp hw
    exact h w ((mem_wordsOf (by omega)).mpr ⟨by omega, by omega⟩)

/-! ### The scalar data cache (R312, R329) -/

/-- A machine with another scalar data cache. -/
def State.withDcache (s : State) (d : List CLine) : State := { s with core := { s.core with dcache := d } }

/-- A new data cache stands behind translations and looked-up ways as before them. -/
theorem State.Touched.withDcache {ctx : Nat} {s t : State} (h : s.Touched ctx t) (d : List CLine) : (s.withDcache d).Touched ctx (t.withDcache d) := by
  obtain ⟨⟨m, tlb, rfl⟩, hmem, hhits⟩ := h
  exact ⟨⟨_, _, rfl⟩, hmem, hhits⟩

/-- Plain storage is plain whatever the data cache holds. -/
theorem State.Plain.withDcache {s : State} {ctx : Nat} {lvl : Level} {va n k : Nat} {kind : AccKind} {path : AccPath}
    (h : s.Plain ctx lvl va n kind path k) (d : List CLine) : (s.withDcache d).Plain ctx lvl va n kind path k := by
  cases h with
  | spad b hlo hhi hk hb hbusy hcur => exact .spad (s := s.withDcache d) b hlo hhi hk hb hbusy hcur
  | page c e hva hc hlo hhi henc hp hallow hend hwalk hhit hsound =>
    exact .page (s := s.withDcache d) c e hva hc hlo hhi henc hp ((s.pageAllows_unprotected _ hp lvl kind path va n).trans hallow) hend hwalk hhit hsound

/-- A read at the storage point looks up ways alone, whether or not it meets an uncorrectable word. -/
theorem State.Touched.readKey_any {ctx : Nat} {s t : State} (h : s.Touched ctx t) (hsca : s.mem.sca = []) (hseal : s.mem.sealed = []) (w : Who) (k n : Nat) :
    ∃ r u, t.readKey w false k n = (r, u) ∧ s.Touched ctx u := by
  have htouch := t.mem.touchRead_touched false k n
  have hseal' : (t.mem.touchRead false k n).sealed = [] := htouch.sealed.trans (h.sealed_eq.trans hseal)
  have hopen := Memory.openUnits_plain hseal' (enc := false) (k := k) (fun h => by cases h) false (t.encKey w.ctxid) n
  unfold State.readKey
  rw [State.applySca_none (h.sca_eq.trans hsca)]
  dsimp only
  rw [hopen]
  split
  · exact ⟨_, _, rfl, h.lookWays htouch⟩
  · exact ⟨_, _, rfl, h.lookWays htouch⟩

/-- A scalar load of bytes of one line that the data cache does not hold reads them and fills that line alone. -/
theorem State.Touched.dcacheRead {ctx : Nat} {s t : State} {d : List CLine} (h : (s.withDcache d).Touched ctx t) (hsca : s.mem.sca = [])
    (hseal : s.mem.sealed = []) {k n : Nat} (hs : Sound s k n) (hd : ∀ l ∈ d, l.line ≠ k / 64) (w : Who) :
    ∃ d' u, t.dcacheRead w false k n = (some (s.mem.peek k n), u) ∧ (s.withDcache d').Touched ctx u ∧ ∀ l ∈ d', l ∈ d ∨ l.line = k / 64 := by
  have hdt : t.core.dcache = d := by
    obtain ⟨⟨m, tlb, rfl⟩, _, _⟩ := h
    rfl
  have hbad : t.core.dcache.any (fun l => decide (l.line = k / 64) && l.bad) = false := by
    rw [hdt, List.any_eq_false]
    intro l hl
    simp [hd l hl]
  have hfind : t.core.dcache.find? (fun l => decide (l.line = k / 64)) = none := by
    rw [hdt, List.find?_eq_none]
    intro l hl
    simpa using hd l hl
  obtain ⟨u, hread, hu⟩ := h.readKey hsca hseal hs (enc := false) (fun h => by cases h) w false
  obtain ⟨full, v, hline, hv⟩ := hu.readKey_any hsca hseal w (k / 64 * 64) 64
  have hdv : v.core.dcache = d := by
    obtain ⟨⟨m, tlb, rfl⟩, _, _⟩ := hv
    rfl
  unfold State.dcacheRead
  simp only [hbad, Bool.false_eq_true, if_false, hfind, hread, hline]
  cases full with
  | none => exact ⟨d, v, rfl, hv, fun l hl => .inl hl⟩
  | some data =>
    refine ⟨_, _, rfl, hv.withDcache _, fun l hl => ?_⟩
    rw [hdv] at hl
    rcases List.mem_cons.mp hl with rfl | hl
    · exact .inr rfl
    · rcases List.mem_append.mp hl with hl | hl
      · exact .inl (List.mem_of_mem_filter (List.mem_of_mem_take hl))
      · exact .inl (List.mem_of_mem_filter hl)

/-- The parts of a load line by line, each through the data cache. -/
theorem State.Touched.readPieces {ctx : Nat} {s : State} (hsca : s.mem.sca = []) (hseal : s.mem.sealed = []) (w : Who) (g : Nat) (va : Nat → Nat) :
    ∀ (fuel k n : Nat) (d : List CLine) (t : State), (s.withDcache d).Touched ctx t → k % 64 + n ≤ 64 * fuel → Sound s k n →
      (∀ l ∈ d, l.line < k / 64 ∨ (k + n - 1) / 64 < l.line) →
      ∃ d' u, t.readLocs w .scalar ((pieces 64 fuel k n).map fun q => (Loc.hbm q.1 false false g, va q.1, q.2)) = .ok (s.mem.peek k n) u ∧
        (s.withDcache d').Touched ctx u := by
  intro fuel
  induction fuel with
  | zero =>
    intro k n d t h hn hs hd
    obtain rfl : n = 0 := by omega
    exact ⟨d, t, rfl, h⟩
  | succ fuel ih =>
    intro k n d t h hn hs hd
    rcases Nat.eq_zero_or_pos n with rfl | hpos
    · exact ⟨d, t, rfl, h⟩
    rw [pieces, if_neg (Nat.pos_iff_ne_zero.mp hpos)]
    dsimp only
    split
    · rename_i hroom
      obtain ⟨d', u, hread, hu, -⟩ := h.dcacheRead hsca hseal hs (fun l hl => by have := hd l hl; omega) w
      refine ⟨d', u, ?_, hu⟩
      simp [State.readLocs, hroom, hread]
    · rename_i hroom
      have hle : 64 - k % 64 ≤ n := by omega
      obtain ⟨d1, t1, hread, h1, hd1⟩ := h.dcacheRead hsca hseal (sound_within hs (Nat.le_refl k) (by omega) : Sound s k (64 - k % 64))
        (fun l hl => by have := hd l hl; omega) w
      obtain ⟨d', u, hrest, hu⟩ := ih (k + (64 - k % 64)) (n - (64 - k % 64)) d1 t1 h1 (by omega) (sound_within hs (by omega) (by omega))
        (fun l hl => by
          rcases hd1 l hl with hl | hl
          · have := hd l hl
            omega
          · omega)
      refine ⟨d', u, ?_, hu⟩
      have hpeek : s.mem.peek k n = s.mem.peek k (64 - k % 64) ++ s.mem.peek (k + (64 - k % 64)) (n - (64 - k % 64)) := by
        rw [Memory.peek, Memory.peek, Memory.peek, ← cellRead_add, Nat.add_sub_cancel' hle]
      rw [List.map_cons, State.readLocs, hpeek]
      simp [hread, hrest]

/-- A scalar load of sound bytes of plain storage, none of whose lines the data cache holds, gives them. -/
theorem State.Plain.scalarLoad {ctx : Nat} {s : State} {lvl : Level} {va n k : Nat} {w : Who} (hpl : s.Plain ctx lvl va n .load .scalar k)
    (hsca : s.mem.sca = []) (hseal : s.mem.sealed = []) (hs : Sound s k n) (hd : ∀ l ∈ s.core.dcache, l.line ∉ linesOf k n) (hn : 0 < n)
    (hpage : va % 4096 + n ≤ 4096) (hw : w.ctxid = ctx) (hl : w.level = lvl) :
    ∃ d u, s.load w va n .scalar = .ok (s.mem.peek k n) u ∧ (s.withDcache d).Touched ctx u := by
  obtain ⟨l, u, hloc, hplain, hu⟩ := hpl.locateAll (.refl ctx s) hn hpage hw hl
  cases hplain with
  | spad hfar =>
    obtain ⟨v, hread, hv⟩ := hu.readKey hsca hseal hs (enc := true) (fun _ => hfar) w false
    refine ⟨_, v, ?_, hv⟩
    rw [State.load, hloc]
    simp [Loc.isBusy, State.readLocs, hread]
  | hbm g =>
    obtain ⟨d', v, hread, hv⟩ := State.Touched.readPieces hsca hseal w g (fun q => va + (q - k)) (n / 64 + 2) k n s.core.dcache u hu (by omega) hs
      (fun l hl => by
        have := mt (mem_linesOf hn).mpr (hd l hl)
        omega)
    refine ⟨d', v, ?_, hv⟩
    rw [State.load, hloc]
    simpa [Loc.isBusy] using hread

/-- A store to plain storage performs behind translations and looked-up ways. -/
theorem State.Plain.store_touched {ctx : Nat} {s t : State} {lvl : Level} {va k : Nat} {bs : List Byte} {path : AccPath} {w : Who}
    (hpl : s.Plain ctx lvl va bs.length .store path k) (h : s.Touched ctx t) (hsca : s.mem.sca = []) (hseal : s.mem.sealed = [])
    (hn : 0 < bs.length) (hpage : va % 4096 + bs.length ≤ 4096) (hw : w.ctxid = ctx) (hl : w.level = lvl) :
    ∃ u, t.store w va bs path = .ok () u ∧ Stored s u k bs := by
  obtain ⟨l, u, hloc, hplain, hu⟩ := hpl.locateAll h hn hpage hw hl
  obtain ⟨hbad, hplaces⟩ := State.writePlaces_plain hplain (hu.sca_eq.trans hsca) (hu.sealed_eq.trans hseal) w va (bs := bs) rfl
  refine ⟨u.pokeKey w.ownCore k bs, ?_, hu.stored (u.pokeKey_stored _ _ _)⟩
  rw [State.store, hloc]
  cases hplain with
  | spad hfar => simp [Loc.isBusy, State.writeLocs, hbad, hplaces]
  | hbm g => simp [Loc.isBusy, State.writeLocs, hbad, hplaces]

/-! ### `wfp` (R593) -/

theorem Hart.beforeTick_running {h : Hart} (hr : h.status = .running) (n : Word) : h.beforeTick n = false := by
  rw [Hart.beforeTick, hr]

/-- An address whose word lies below the fabric half lies below it. -/
theorem word_low {x : Word} (h : (x &&& ~~~7#64).toNat < 2 ^ 63) : ¬ 2 ^ 63 ≤ x.toNat := by
  have hmsb : (x &&& ~~~7#64).msb = x.msb := by
    rw [BitVec.msb_and, show (~~~7#64 : Word).msb = true by decide, Bool.and_true]
  rw [BitVec.msb_eq_decide, BitVec.msb_eq_decide, decide_eq_decide] at hmsb
  exact fun hx => absurd (hmsb.mpr hx) (Nat.not_le.mpr h)

/-- What `wfp` comes to at a progress word in plain storage. -/
theorem wfpStep_placed {s u : State} {a b : XNum} {k : Nat} (hr : s.h.status = .running) (hb : s.h.stbuf = [])
    (hp : PlacedAt s (s.x a &&& ~~~7#64).toNat 8 .load .aux k u) (hs : Sound s k 8) (hsame : s.sameBytes false (s.x a &&& ~~~7#64).toNat 8 = false)
    (d : XNum) (w : IWord) :
    let n := leNat (s.mem.peek k 8); let t := wfpStep w a b d s
    (∀ j, byteAt t j = byteAt s j) ∧
      if (s.x b).toNat ≤ n then t.h.x = xPut s.h.x d (BitVec.ofNat 64 n) ∧ t.h.pc = s.h.afterPc ∧ t.h.status = .running
      else t.h.x = s.h.x ∧ t.h.pc = s.h.pc ∧ t.h.status = .waiting .wfp w := by
  obtain ⟨v, hread, hh, hcells⟩ := State.readProgress_placed hb hp hs hsame w
  have hx (r : XNum) : v.x r = s.x r := by
    rw [State.x, hh]
    rfl
  have hlow : ¬ 2 ^ 63 ≤ (s.x a).toNat := by
    obtain ⟨-, -, hva, -⟩ := hp
    exact word_low hva
  dsimp only
  unfold wfpStep
  rw [Hart.beforeTick_running hr, if_neg Bool.false_ne_true, hread]
  dsimp only
  rw [hx, hx, if_neg hlow]
  split
  · obtain ⟨c0, c1, hu⟩ := v.retire_setX_only d (BitVec.ofNat 64 (leNat (s.mem.peek k 8)))
    rw [hu, hh]
    exact ⟨fun j => congrArg (cellGet · j) hcells, rfl, Hart.afterPc_congr rfl, rfl⟩
  · rw [State.wait_h, hh]
    exact ⟨fun j => congrArg (cellGet · j) hcells, rfl, rfl, rfl⟩

/-! ### `eqpop` (R594) -/

/-- EQHEAD moves on and `eqpop` answers 1, once its store has performed. -/
def State.popped (s : State) (d : XNum) : State := ((s.mod fun h => { h with eqhead := h.eqhead + 1#32 }).setX d 1#64).endRemote.retire

theorem State.popped_h (s : State) (d : XNum) : (s.popped d).h.eqhead = s.h.eqhead + 1#32 ∧ (s.popped d).h.x = xPut s.h.x d 1#64 ∧
    (s.popped d).h.pc = s.h.afterPc := by
  obtain ⟨c0, c1, hu⟩ := ((s.mod fun h => { h with eqhead := h.eqhead + 1#32 }).setX d 1#64).endRemote.retire_only
  rw [State.popped, hu, State.endRemote_h, State.setX_h, State.mod_h]
  exact ⟨rfl, rfl, Hart.afterPc_congr rfl⟩

theorem State.popped_mem (s : State) (d : XNum) : (s.popped d).mem = s.mem := by
  rw [State.popped, State.retire_mem, State.endRemote_mem, State.setX_mem, State.mod_mem]

/-- No earlier access of a hart with an empty queue holds a load up in a quiet machine. -/
theorem sameBytes_quiet {s : State} (h : Quiet s) (hq : s.h.queue = []) (va n : Nat) : s.sameBytes false va n = false := by
  obtain ⟨-, -, -, -, hl, ho, hw⟩ := h
  have hl : s.harts[s.cur].late = [] := hl
  simp [State.sameBytes, State.storeAhead, Fabric.open, hq, hl, ho, hw, -Fin.getElem_fin]

/-- The oldest entry of an error queue in plain storage is stored, and leaves the queue. -/
theorem execEqpop_pops {s : State} {a : XNum} {k kd : Nat} {D : Nat → Prop} (hc : ClearSync s [a]) (hlog : s.h.eqLog ≠ 0)
    (hne : s.h.eqtail ≠ s.h.eqhead) (hquiet : Quiet s) (hq : s.h.queue = []) (hslot : PlainAt s .s D (s.h.eqSlot s.h.eqhead) 64 .load .scalar k)
    (hs : Sound s k 64) (hd : ∀ l ∈ s.core.dcache, l.line ∉ linesOf k 64) (hdest : PlainAt s s.h.level D (s.x a).toNat 64 .store .scalar kd) (d : XNum) :
    ∃ v, execEqpop a d s = .next (v.popped d) ∧ Stored s v kd (s.mem.peek k 64) := by
  obtain ⟨hwf, hsca, hseal, hbuf, -⟩ := id hquiet
  obtain ⟨hn, hpage, hplain⟩ := plain_of_plainAt (hs := s.harts) (i := s.cur) hslot
  obtain ⟨-, hpage', hplain'⟩ := plain_of_plainAt (hs := s.harts) (i := s.cur) hdest
  have hlen : (s.mem.peek k 64).length = 64 := cellRead_length _ _ _
  obtain ⟨dc, t, hload, ht⟩ := hplain.scalarLoad (w := { s.whoScalar with level := .s }) hsca hseal hs hd hn hpage rfl rfl
  have hh : t.h = s.h := by
    obtain ⟨⟨m, tlb, rfl⟩, -, -⟩ := ht
    rfl
  have hwho : t.whoScalar = s.whoScalar := by
    obtain ⟨⟨m, tlb, rfl⟩, -, -⟩ := ht
    rfl
  obtain ⟨v, hstore, hst⟩ := (hplain'.withDcache dc).store_touched (bs := s.mem.peek k 64) (w := s.whoScalar) ht hsca hseal
    (by rw [hlen]; decide) (by rw [hlen]; exact hpage') rfl rfl
  refine ⟨v, ?_, hst.cells, hst.harts, hst.cur⟩
  have hbuffered : s.h.buffered (s.h.eqSlot s.h.eqhead) 64 = false := by simp [Hart.buffered, hbuf]
  have hscalar : s.scalarLoad (wEqpop a d) .s 0 (s.h.eqSlot s.h.eqhead) 64 = .ok (s.mem.peek k 64, t) := by
    unfold State.scalarLoad
    rw [hbuffered, sameBytes_quiet hquiet hq, if_neg (by decide), hload]
  have hx : t.x a = s.x a := by rw [State.x, hh, State.x]
  unfold execEqpop
  rw [syncInstr_clear hc]
  simp only [hlog, hne, hbuf, decide_false, Bool.or_self, Bool.false_eq_true, if_false, List.isEmpty_nil, Bool.not_true, hscalar, hx, hwho, hstore]
  rfl

theorem execEqpop_empty {s : State} {a : XNum} (hc : ClearSync s [a]) (he : s.h.eqtail = s.h.eqhead) (d : XNum) :
    execEqpop a d s = .next (s.setX d 0#64).retire := by
  unfold execEqpop
  rw [syncInstr_clear hc]
  dsimp only
  rw [if_pos (by simp [he])]

/-- Settles O53: a wait by the value that its read gives, and a pop by its load through the data cache and the store behind it. -/
theorem progressWaitAndErrorQueue : Obligations.ProgressWaitAndErrorQueue := by
  intro s u a b d k va n
  refine ⟨fun hc hr hb hp hs hsame => ?wfp, fun hc he => ?empty, ?entry⟩
  case wfp => exact ⟨_, syncInstr_clear hc _ _, wfpStep_placed hr hb hp hs hsame d _⟩
  case empty => exact execEqpop_empty hc he d
  case entry =>
    intro kd D hc hlog hne hquiet hq hslot hs hd hdest
    obtain ⟨v, hexec, hst⟩ := execEqpop_pops hc hlog hne hquiet hq hslot hs hd hdest d
    obtain ⟨r, hv⟩ := hst.hart s.cur
    have hh : v.h = { s.h with resv := r } := (State.h_of_cur hst.cur).trans hv
    obtain ⟨hhead, hx, hpc⟩ := v.popped_h d
    obtain ⟨hin, hout⟩ := hst.bytesWritten hquiet.1
    have hbyte (j : Nat) : byteAt (v.popped d) j = byteAt v j := by rw [byteAt, State.popped_mem, byteAt]
    have hlen : (s.mem.peek k 64).length = 64 := cellRead_length _ _ _
    rw [hlen] at hin hout
    refine ⟨_, hexec, ?_, ?_, ?_, fun i hi => ?_, fun j hj => ?_⟩
    · rw [hhead, hh]
    · rw [hx, hh]
    · rw [hpc, hh]
      exact Hart.afterPc_congr rfl
    · rw [hbyte, hin i hi]
      exact cellRead_getD _ hi k
    · rw [hbyte]
      exact hout j (by by_contra hn; exact hj ⟨by omega, by omega⟩)

end Sys2Proof.Machine
end

section
/-! SUPPORT. Scalar instructions behind a prefix or a pending register (R204, R406), and what a post captures (R202): the statements O15 and O35. -/

namespace Sys2Proof.Machine
open Sys2Proof.Claims

/-! ### Scalar instructions that do not go on -/

theorem exec_add (s : State) (d a b : XNum) :
    exec (.add d a b) s = scalarInstr (wAdd d a b) [a, b] s fun s => (s.setX d (s.x a + s.x b)).retire :=
  rfl

/-- x0 waits for no engine. -/
theorem Hart.anyPending_zero (h : Hart) : h.anyPending [0#5] = false := by simp [Hart.anyPending]

/-- Settles O15: the two cases of `scalarInstr` in which an instruction has no effect. -/
theorem scalarWaitsForPendingRegister : Obligations.ScalarWaitsForPendingRegister := by
  intro s d a b
  rw [exec_add]
  exact ⟨scalarInstr_prefixed _ _ _ _, scalarInstr_pending _ _ _ _, s.h.anyPending_zero⟩

/-! ### A post -/

section
variable {s : State} {p : Posted}

/-- A check at issue that fails (R436). -/
theorem issue_bad (hb : s.postBad p = true) : issue p s = .next (s.ill p.word) := by
  rw [issue, issueWith, if_pos hb]

/-- Held queues take no instruction (R363). -/
theorem State.postBad_of_held (p : Posted) (hh : s.h.held = true) : s.postBad p = true := by
  simp [State.postBad, hh]

/-- A scalar operand that an engine has still to write makes the post wait (R204). -/
theorem issue_pending (hb : s.postBad p = false) (hr : s.h.anyPending (p.opa.toList ++ p.opb.toList) = true) :
    issue p s = .next (s.wait .retry p.word) := by
  rw [issue, issueWith, if_neg (by simp [hb]), if_pos hr]

/-- Where the engines run by their own events, a post queues its entry and does nothing more (assumption 1). -/
theorem State.postNow_lazy (he : s.eager = false) : s.postNow p = s.mod fun h => h.post p :=
  if_neg (by simp [he])

end

/-- Settles O35: a post that no check stops is `Hart.post`, whose entry is `Hart.newEntry`; the other clauses are the cases of `issue` before it. -/
theorem postCapturesAndQueues : Obligations.PostCapturesAndQueues := by
  intro s d a x m p
  refine ⟨fun hp he hs => ?posted, fun hh => issue_bad (State.postBad_of_held p hh), issue_bad, issue_pending⟩
  obtain ⟨hvl, hvrows⟩ := s.h.newEntry_shape p hs
  obtain ⟨pc, c0, c1, pv, hpost⟩ := s.h.post_only p hs
  have hh : (s.mod fun h => h.post p).h = s.h.post p := State.mod_h s _
  rw [hpost] at hh
  have hexec : exec (.vaddVx d a x m) s = .next (s.mod fun h => h.post p) := (issue_postable hp).trans (congrArg _ (State.postNow_lazy he))
  refine ⟨_, s.h.newEntry p, hexec, by rw [hh], rfl, hvl, hvrows, rfl, rfl, rfl, rfl, rfl, rfl, by rw [hh], by rw [hh], rfl, fun n w => ?_⟩
  rw [State.setX_h, hh]

end Sys2Proof.Machine
end

section
/-! SUPPORT. Mask instructions at an idle hart (R408, R527, R533): their run, the count and the indices that they give a scalar register, and the
elements of `mtov`; and the statement O24. -/

namespace Sys2Proof.Machine
open Sys2Proof.Claims

/-! ### Searches over tile indices -/

theorem lowestTile_some {f : Nat → Bool} {lo n t : Nat} (h : lowestTile f lo n = some t) :
    lo ≤ t ∧ t < lo + n ∧ f t = true ∧ ∀ u, lo ≤ u → u < t → f u = false := by
  induction n generalizing lo with
  | zero => cases h
  | succ n ih =>
    rw [lowestTile] at h
    split at h
    · rename_i hlo
      cases h
      exact ⟨Nat.le_refl _, by omega, hlo, fun u h1 h2 => absurd h2 (Nat.not_lt.mpr h1)⟩
    · rename_i hlo
      obtain ⟨hle, hlt, ht, hbelow⟩ := ih h
      refine ⟨by omega, by omega, ht, fun u h1 h2 => ?_⟩
      rcases Nat.eq_or_lt_of_le h1 with rfl | h1
      · simpa using hlo
      · exact hbelow u h1 h2

theorem lowestTile_none {f : Nat → Bool} {lo n : Nat} (h : lowestTile f lo n = none) {u : Nat} (h1 : lo ≤ u) (h2 : u < lo + n) : f u = false := by
  induction n generalizing lo with
  | zero => omega
  | succ n ih =>
    rw [lowestTile] at h
    split at h
    · cases h
    · rename_i hlo
      rcases Nat.eq_or_lt_of_le h1 with rfl | h1
      · simpa using hlo
      · exact ih h h1 (by omega)

theorem highestTile_some {f : Nat → Bool} {n t : Nat} (h : highestTile f n = some t) :
    t < n ∧ f t = true ∧ ∀ u, u < n → t < u → f u = false := by
  induction n with
  | zero => cases h
  | succ n ih =>
    rw [highestTile] at h
    split at h
    · rename_i hn
      cases h
      exact ⟨Nat.lt_succ_self _, hn, fun u h1 h2 => by omega⟩
    · rename_i hn
      obtain ⟨hlt, ht, habove⟩ := ih h
      refine ⟨by omega, ht, fun u h1 h2 => ?_⟩
      rcases Nat.eq_or_lt_of_le (Nat.le_of_lt_succ h1) with rfl | h1
      · simpa using hn
      · exact habove u h1 h2

theorem highestTile_none {f : Nat → Bool} {n : Nat} (h : highestTile f n = none) {u : Nat} (hu : u < n) : f u = false := by
  induction n with
  | zero => omega
  | succ n ih =>
    rw [highestTile] at h
    split at h
    · cases h
    · rename_i hn
      rcases Nat.eq_or_lt_of_le (Nat.le_of_lt_succ hu) with rfl | hu
      · simpa using hn
      · exact ih h hu

/-- The index that a search gives, or all ones (R533). -/
def indexWord (o : Option Nat) : Word := match o with | some t => BitVec.ofNat 64 t | none => BitVec.allOnes 64

/-- The index word of the lowest hit, or of none. -/
theorem lowestTile_word (f : Nat → Bool) (n : Nat) :
    (∃ t < n, indexWord (lowestTile f 0 n) = BitVec.ofNat 64 t ∧ f t = true ∧ ∀ u < t, f u = false) ∨
    (indexWord (lowestTile f 0 n) = BitVec.allOnes 64 ∧ ∀ u < n, f u = false) := by
  cases ho : lowestTile f 0 n with
  | some t =>
    obtain ⟨-, hlt, ht, hbelow⟩ := lowestTile_some ho
    exact .inl ⟨t, by omega, rfl, ht, fun u hu => hbelow u (Nat.zero_le u) hu⟩
  | none => exact .inr ⟨rfl, fun u hu => lowestTile_none ho (Nat.zero_le u) (by omega)⟩

/-- The index word of the highest hit, or of none. -/
theorem highestTile_word (f : Nat → Bool) (n : Nat) :
    (∃ t < n, indexWord (highestTile f n) = BitVec.ofNat 64 t ∧ f t = true ∧ ∀ u < n, t < u → f u = false) ∨
    (indexWord (highestTile f n) = BitVec.allOnes 64 ∧ ∀ u < n, f u = false) := by
  cases ho : highestTile f n with
  | some t =>
    obtain ⟨hlt, ht, habove⟩ := highestTile_some ho
    exact .inl ⟨t, hlt, rfl, ht, habove⟩
  | none => exact .inr ⟨rfl, fun u hu => highestTile_none ho hu⟩

/-! ### The run of a mask instruction -/

/-- A mask instruction leaves the queue. -/
theorem runMask_queue (op : MaskOp) (e : QEntry) (h : Hart) : (runMask op e h).1.queue = h.queue := by
  cases op
  case pop | first | last => rfl
  case tov => exact ((Hart.writeVec_keepsQueue _ _ _ _ _ _ _).trans (Hart.setVpis_keepsQueue _ _ _ _)).queue
  case vtom => exact ((Hart.relayAll_keepsQueue _ _ _ _).trans (Hart.setMask_keepsQueue _ _ _)).queue
  all_goals exact (Hart.setMask_keepsQueue _ _ _).queue

/-- The hart after a mask instruction: with no element to run it stands (R234). -/
def maskRan (op : MaskOp) (e : QEntry) (h : Hart) : Hart := if e.total = 0 then h else (runMask op e h).1

theorem maskRan_queue (op : MaskOp) (e : QEntry) (h : Hart) : (maskRan op e h).queue = h.queue := by
  unfold maskRan
  split
  · rfl
  · exact runMask_queue op e h

theorem State.modHart_self (s : State) (i : Fin 4) : (s.modHart i fun h => h) = s := by simp [State.modHart]

/-- With no copy before it a mask instruction runs whole (R527). -/
theorem runMaskOp_whole (op : MaskOp) (i : Fin 4) (e : QEntry) (s : State) (hq : s.harts[i].queue = [e]) :
    ∃ e2, e2.eid = e.eid ∧ e2.post = e.post ∧ runMaskOp op i e s = (.done (s.modHart i (maskRan op e)) e2, (runMask op e s.harts[i]).2) := by
  unfold runMaskOp maskRan
  by_cases h0 : e.total = 0
  · refine ⟨e, rfl, rfl, ?_⟩
    simp only [h0, if_true, State.modHart_self]
  · have hbusy : s.harts[i].maskBusy { e with prog := 0 } = false := by simp [Hart.maskBusy, hq, -Fin.getElem_fin]
    have hlim : s.harts[i].runLimit { e with prog := 0 } e.total = e.total := by rw [Hart.runLimit, hbusy]; rfl
    refine ⟨{ e with prog := e.total }, rfl, rfl, ?_⟩
    simp only [h0, if_false, hlim, Nat.lt_irrefl]
    rfl

section
variable {s : State} {p : Posted}

/-- The run of a mask instruction at an idle hart ends in its step. -/
theorem exec_mask {i : Instr} {op : MaskOp} (hx : exec i s = issue p s) (hbody : p.body = .mask op) (heng : p.eng = .vector) (hruns : Runs s p) :
    ∃ h e e2, Begun s p h e ∧ e2.eid = e.eid ∧ e2.post = p ∧
      exec i s = .next ((s.mod fun _ => maskRan op e h).entryDone s.cur e2 (runMask op e h).2) := by
  obtain ⟨hb, hbegun⟩ := hruns.begun
  rw [heng] at hbegun
  have hbegun : (s.begun p).1 = s.mod fun _ => (s.begun p).1.h := hbegun
  generalize hh : (s.begun p).1.h = h at hb hbegun
  generalize he : (s.begun p).2 = e at hb
  have hhart : (s.begun p).1.harts[s.cur] = h := by rw [hbegun, State.mod, State.modHart_same]
  obtain ⟨e2, heid, hpost, hrun⟩ := runMaskOp_whole op s.cur e (s.begun p).1 (by rw [hhart]; exact hb.queue)
  have hu : (s.begun p).1.modHart s.cur (maskRan op e) = s.mod fun _ => maskRan op e h := by
    rw [hbegun]
    exact State.mod_mod s _ _
  rw [hu, hhart] at hrun
  have hbodyRun : bodyRun s.cur (s.begun p).2.total (s.begun p).2 (s.begun p).1 =
      (.done (s.mod fun _ => maskRan op e h) e2, (runMask op e h).2) := by
    rw [he, bodyRun, hb.post, hbody]
    exact hrun
  have hempty : ((s.mod fun _ => maskRan op e h).harts[s.cur].queue.filter fun y => y.eid != e2.eid) = [] := by
    rw [State.mod, State.modHart_same, maskRan_queue, hb.queue]
    simp [heid]
  exact ⟨h, e, e2, hb, heid, hpost.trans hb.post, by rw [hx, issue_runsTo (hruns.runsTo hbodyRun hempty)]⟩

variable {h : Hart} {e : QEntry} (hb : Begun s p h e)
include hb

theorem Begun.total : e.total = s.h.vl * s.h.vrows := by rw [QEntry.total, hb.vl, hb.vrows]

theorem Begun.mask (n : MNum) : h.mask n = s.h.mask n := by
  obtain ⟨pc, c0, c1, pv, tok, hh⟩ := hb.only
  rw [hh]
  rfl

theorem Begun.active (k x : Nat) : e.cap.active h k x = activeAt s p k x := by
  rw [activeAt, Cap.active, Cap.active, hb.mask, hb.cap]

end

/-! ### A scalar result -/

/-- An entry that retires with a result writes it to its scalar register (R204). -/
theorem Hart.retireEntry_some (h : Hart) {e : QEntry} {d : XNum} (hd : e.post.xd = some d) (v : Word) :
    ∃ tok, h.retireEntry e (some v) = { h with queue := h.queue.filter (·.eid != e.eid), tok := tok, x := xPut h.x d v } := by
  obtain ⟨tok, htok⟩ := h.retireEntry_none e
  refine ⟨tok, ?_⟩
  have hres : h.retireEntry e (some v) = { h.retireEntry e none with x := xPut (h.retireEntry e none).x d v } := by
    simp only [Hart.retireEntry, hd]
  rw [hres, htok]

/-- What an instruction that changes one scalar register leaves when it retires at an idle hart. -/
theorem Begun.retires_scalar {s : State} {p : Posted} {h : Hart} {e : QEntry} (hb : Begun s p h e) (hs : s.h.queue = []) (hr : s.h.releases = [])
    {d : XNum} (hd : p.xd = some d) {e2 : QEntry} (heid : e2.eid = e.eid) (hpost : e2.post = p) (v : Word) :
    let t := (s.mod fun _ => h).entryDone s.cur e2 (some v)
    t.h.x = xPut s.h.x d v ∧ PostedFrame s t (fun h => { h with x := s.h.x }) ∧ t.h.v = s.h.v ∧ t.h.fcsr = s.h.fcsr := by
  intro t
  obtain ⟨pc, c0, c1, pv, tok, hh⟩ := hb.only
  obtain ⟨tok', hret⟩ := h.retireEntry_some (hpost ▸ hd) v
  have hqueue : h.queue.filter (·.eid != e2.eid) = [] := by simp [hb.queue, heid]
  have hsettle : (h.retireEntry e2 (some v)).settleRows = { h with queue := [], tok := tok', x := xPut h.x d v } := by
    rw [Hart.settleRows_none _ (by rw [hret, hh]; exact hr), hret, hqueue]
  generalize hu : ((s.mod fun _ => h).modHart s.cur fun h => (h.retireEntry e2 (some v)).settleRows) = u
  have hus : u = s.mod fun _ => (h.retireEntry e2 (some v)).settleRows := hu.symm.trans (State.mod_mod s _ _)
  have ht : t = u.serveLanes := congrArg State.serveLanes hu
  have huh : u.harts[s.cur] = { h with queue := [], tok := tok', x := xPut h.x d v } := by rw [hus, ← hsettle]; exact State.mod_h s _
  have hth : t.h = { h with queue := [], tok := tok', x := xPut h.x d v } := by
    have hcur : u.serveLanes.cur = s.cur := by rw [State.serveLanes_cur, hus]; rfl
    rw [ht, State.h_of_cur hcur, State.serveLanes_still _ _ (by rw [huh, hh]; rfl), huh]
  rw [hh] at hth
  refine ⟨by rw [hth], ⟨?_, ?_, ?_, by rw [hth], by rw [hth], fun j hj => ?_⟩, by rw [hth], by rw [hth]⟩
  · rw [hth]
    exact congrArg (fun q => { s.h with queue := q }) hs.symm
  · rw [ht, State.serveLanes_mem, hus]
    rfl
  · rw [ht, State.serveLanes_tiles, hus]
    rfl
  · obtain ⟨b, vt, hj'⟩ := State.serveLanes_hart u j
    rw [ht, hj', hus, State.mod_other _ _ _ hj]

/-- The tile index `t` is active and its bit of mask `a` set. -/
def maskHit (s : State) (p : Posted) (a : MNum) (t : Nat) : Bool :=
  activeAt s p (t / s.h.vl) (t % s.h.vl) && (s.h.mask a).bit (t / s.h.vl) (t % s.h.vl)

/-- The same of an entry that runs at a hart. -/
def QEntry.maskHit (e : QEntry) (h : Hart) (t : Nat) : Bool :=
  e.cap.active h (t / e.cap.vl) (t % e.cap.vl) && (h.mask (e.post.a.setWidth 3)).bit (t / e.cap.vl) (t % e.cap.vl)

/-- What is captured of VL is what the entry holds (R202). -/
theorem QEntry.cap_vl (e : QEntry) : e.cap.vl = e.vl := by
  unfold QEntry.cap
  dsimp only
  split
  · split <;> rfl
  · rfl

theorem runMask_pop (e : QEntry) (h : Hart) : runMask .pop e h = (h, some (BitVec.ofNat 64 ((List.range e.total).countP (e.maskHit h)))) := by
  rw [List.countP_eq_length_filter]
  rfl

theorem runMask_first (e : QEntry) (h : Hart) : runMask .first e h = (h, some (indexWord (lowestTile (e.maskHit h) 0 e.total))) := rfl

theorem runMask_last (e : QEntry) (h : Hart) : runMask .last e h = (h, some (indexWord (highestTile (e.maskHit h) e.total))) := rfl

section
variable {s : State} {w : IWord} {op : MaskOp} {d : XNum} {a m : MNum}

theorem Begun.maskHit_eq {h : Hart} {e : QEntry} (hb : Begun s (postMaskX w op d a m) h e) :
    e.maskHit h = maskHit s (postMaskX w op d a m) a := by
  have ha : e.post.a.setWidth 3 = a := by rw [hb.post]; exact BitVec.setWidth_setWidth_of_le a (by decide)
  have hvl : e.cap.vl = s.h.vl := by rw [← hb.vl, QEntry.cap_vl]
  funext t
  rw [QEntry.maskHit, hb.active, hb.mask, ha, hvl]
  rfl

/-- A mask instruction with a scalar result at an idle hart: the result from the hits of its shape. -/
theorem maskScalar_gives {i : Instr} (hx : exec i s = issue (postMaskX w op d a m) s) (r : (Nat → Bool) → Nat → Word)
    (hrun : ∀ e h, runMask op e h = (h, some (r (e.maskHit h) e.total))) (hruns : Runs s (postMaskX w op d a m)) :
    ∃ t, exec i s = .next t ∧ t.h.x = xPut s.h.x d (r (maskHit s (postMaskX w op d a m) a) (s.h.vl * s.h.vrows)) ∧
      PostedFrame s t (fun h => { h with x := s.h.x }) ∧ t.h.v = s.h.v ∧ t.h.fcsr = s.h.fcsr := by
  obtain ⟨h, e, e2, hb, heid, hpost, hexec⟩ := exec_mask hx rfl rfl hruns
  have hran : maskRan op e h = h := by rw [maskRan, hrun, ite_self]
  rw [hran, hrun, hb.maskHit_eq, hb.total] at hexec
  obtain ⟨-, -, hq, -, -, hrel⟩ := hruns
  exact ⟨_, hexec, hb.retires_scalar hq hrel rfl heid hpost _⟩

end

/-! ### `mtov` (R533) -/

theorem four_le_etBits (et : ETCode) : 4 ≤ etBits et := by
  unfold etBits
  split <;> decide

/-- Without a mask and a predicate every element is active (R408). -/
theorem Cap.active_of_unmasked {c : Cap} (hu : c.unmasked = true) (h : Hart) {k x : Nat} (hk : k < 16) (hx : x < 2048) : c.active h k x = true := by
  obtain ⟨hm, hneg⟩ : c.m = 0#3 ∧ c.neg = false := by simpa [Cap.unmasked] using hu
  simp [Cap.active, hm, hneg, MReg.bit, hk, hx, -BitVec.reduceAllOnes]

/-- The elements that `mtov` writes. -/
def tovElem (c : Cap) (h : Hart) (a : MNum) (k x : Nat) : Option Nat :=
  if c.active h k x then some (if (h.mask a).bit k x then oneOf c.et else 0) else none

theorem runMask_tov (e : QEntry) (h : Hart) : runMask .tov e h =
    ((h.writeVec e.post.d e.copy e.cap.et e.cap (e.cap.covers 0) (tovElem e.cap h (e.post.a.setWidth 3))).setVpis e.post.d e.copy e.total, none) := rfl

/-- Setting progress indices leaves the vector registers (R211). -/
theorem Hart.setVpis_vreg (h : Hart) (d : VNum) (c : Option VNum) (t : Nat) (n : VNum) : (h.setVpis d c t).vreg n = h.vreg n := by
  obtain ⟨vpi, hv⟩ := h.setVpis_only d c t
  rw [hv]
  rfl

/-- `mtov` changes, of its hart, the vector registers and their progress indices alone. -/
theorem runMask_tov_only (e : QEntry) (h : Hart) : ∃ v vpi, (runMask .tov e h).1 = { h with v := v, vpi := vpi } := by
  rw [runMask_tov]
  obtain ⟨v, hv⟩ := h.writeVec_only e.post.d e.copy e.cap.et e.cap (e.cap.covers 0) (tovElem e.cap h (e.post.a.setWidth 3))
  obtain ⟨vpi, hvpi⟩ := (h.writeVec e.post.d e.copy e.cap.et e.cap (e.cap.covers 0) (tovElem e.cap h (e.post.a.setWidth 3))).setVpis_only e.post.d e.copy e.total
  exact ⟨v, vpi, by rw [hvpi, hv]⟩

/-- What an element that a mask instruction leaves shows: its write covers no destination then, wherever VSTART stands (R237, R527). -/
theorem keptElem_inactive {s : State} {p : Posted} {k x : Nat} (ha : activeAt s p k x = false) (hk : k < 16) (hx : x < 2048) (r : VReg) (et : ETCode) :
    keptElem s r et ((s.h.newEntry p).cap.covers 0) k x = keptElem s r et (wholeWrite s p) k x := by
  have hu : (s.h.newEntry p).cap.unmasked = false :=
    Bool.eq_false_iff.mpr fun hu => absurd (ha.symm.trans (Cap.active_of_unmasked hu s.h hk hx)) Bool.false_ne_true
  rw [Cap.covers, wholeWrite, hu, Bool.false_and, Bool.false_and]

/-- What `mtov` writes at (k, x): 1 or 0 of the element type where the element is active (R533). -/
def tovAt (s : State) (p : Posted) (a : MNum) (k x : Nat) : Option Nat :=
  if activeAt s p k x then some (if (s.h.mask a).bit k x then oneOf (vtEt s.h.vtype) else 0) else none

section
variable {s : State} {d : VNum} {a m : MNum}

theorem Begun.tovElem_eq {h : Hart} {e : QEntry} (hb : Begun s (pMtov d a m) h e) (het : e.cap.et = vtEt s.h.vtype) :
    tovElem e.cap h (e.post.a.setWidth 3) = tovAt s (pMtov d a m) a := by
  have ha : e.post.a.setWidth 3 = a := by rw [hb.post]; exact BitVec.setWidth_setWidth_of_le a (by decide)
  funext k x
  rw [tovElem, hb.active, hb.mask, ha, het, tovAt]

/-- The run of `mtov` at an idle hart. -/
theorem exec_mtov (hruns : Runs s (pMtov d a m)) (hshape : s.h.vl * s.h.vrows ≠ 0) :
    ∃ t, exec (.mtov d a m) s = .next t ∧ PostedFrame s t id ∧ t.h.fcsr = s.h.fcsr ∧
      ∀ n, t.h.vreg n = if n = d then
        ((s.h.vreg n).dest (vtEt s.h.vtype) (vtGroups s.h.vtype) s.h.vl s.h.vrows ((s.h.newEntry (pMtov d a m)).cap.covers 0)).write
          (etBits (vtEt s.h.vtype)) s.h.vl s.h.vrows (tovAt s (pMtov d a m) a) else s.h.vreg n := by
  obtain ⟨h, e, e2, hb, heid, hpost, hexec⟩ := exec_mask (i := .mtov d a m) rfl rfl rfl hruns
  obtain ⟨hcvl, hcrows, hcet, hclmap⟩ := hruns.captured
  have hcopy : e.copy = none := hb.copy.trans (hruns.1.copy_none rfl)
  have hran : maskRan .tov e h = (runMask .tov e h).1 := if_neg (by rw [hb.total]; exact hshape)
  obtain ⟨v, vpi, honly⟩ := runMask_tov_only e h
  obtain ⟨-, -, hq, -, -, hrel⟩ := hruns
  obtain ⟨t, ht, hframe, hvreg, hfcsr⟩ := hb.retires hq hrel rfl ⟨v, vpi, h.fcsr, hran.trans honly⟩ e2 heid hpost
  obtain ⟨pc, c0, c1, pv, tok, hh⟩ := hb.only
  refine ⟨t, by rw [hexec, ht, runMask_tov], hframe, ?_, fun n => ?_⟩
  · rw [hfcsr, hran, honly, hh]
  · have hstand : h.vreg n = s.h.vreg n := by rw [hh]; rfl
    rw [hvreg, hran, runMask_tov, Hart.setVpis_vreg, hcopy, Hart.writeVec_vreg _ _ _ _ _ _ _ (by simp), hb.tovElem_eq (by rw [hb.cap, hcet]), hstand,
      hb.cap, hcvl, hcrows, hcet, hclmap, hb.post]
    simp [pMtov, vecPost]

theorem mtov_writes : VecWrites s (.mtov d a m) (pMtov d a m) (tovAt s (pMtov d a m) a) 0#5 := by
  intro hruns hshape
  obtain ⟨t, hexec, hframe, hfcsr, hregs⟩ := exec_mtov hruns hshape
  refine ⟨t, hexec, hframe, by rw [hfcsr]; simp, fun n hn => ?_, fun n hn _ => (hregs n).trans (if_neg hn)⟩
  obtain rfl : n = d := hn.resolve_right (by simp [hruns.1.copy_none rfl])
  have hreg := (hregs n).trans (if_pos rfl)
  obtain ⟨hvalid, het, hlmap⟩ := VReg.written_tag (s.h.vreg n) (vtEt s.h.vtype) (vtGroups s.h.vtype) s.h.vl s.h.vrows
    ((s.h.newEntry (pMtov n a m)).cap.covers 0) (tovAt s (pMtov n a m) a)
  rw [RegWritten, hreg]
  refine ⟨hvalid, het, hlmap, fun k x hk hx hkr hxl => ?_⟩
  rw [elem_written_kept s _ _ _ _ k x hk hx hkr hxl]
  cases hact : activeAt s (pMtov n a m) k x with
  | true => simp only [tovAt, hact, if_true]; rfl
  | false =>
    have hx' : x < 2048 := by
      have := Nat.mul_le_mul_left (x + 1) (four_le_etBits (vtEt s.h.vtype))
      omega
    simp only [tovAt, hact, Bool.false_eq_true, if_false]
    exact keptElem_inactive hact hk hx' _ _

end

/-- Settles O24: a count, a search up and a search down over the hits of the shape, and `mtov`'s elements. -/
theorem maskScalarResults : Obligations.MaskScalarResults := by
  intro s d a m n hit Gives
  refine ⟨fun hruns => ?pop, fun hruns => ?first, fun hruns => ?last, mtov_writes⟩
  case pop =>
    obtain ⟨t, h⟩ := maskScalar_gives (i := .mpop d a m) rfl (fun f n => BitVec.ofNat 64 ((List.range n).countP f)) runMask_pop hruns
    exact ⟨t, _, rfl, h⟩
  case first =>
    obtain ⟨t, h⟩ := maskScalar_gives (i := .mfirst d a m) rfl (fun f n => indexWord (lowestTile f 0 n)) runMask_first hruns
    exact ⟨t, _, lowestTile_word _ _, h⟩
  case last =>
    obtain ⟨t, h⟩ := maskScalar_gives (i := .mlast d a m) rfl (fun f n => indexWord (highestTile f n)) runMask_last hruns
    exact ⟨t, _, highestTile_word _ _, h⟩

end Sys2Proof.Machine
end

section
/-! SUPPORT. Comparison of floating-point patterns (R274, R280): the order of two values is antisymmetric and takes the two zeros as equal, a zero is
one of two patterns, and the statement O17. -/

namespace Sys2Proof.Machine
open Sys2Proof.Claims

/-! ### The order of values (R280) -/

theorem FpVal.isSNaN_of_notNaN {v : FpVal} (h : v.isNaN = false) : v.isSNaN = false := by
  cases v <;> simp_all [FpVal.isNaN, FpVal.isSNaN]

theorem FpVal.isZero_notNaN {v : FpVal} (h : v.isZero = true) : v.isNaN = false := by
  cases v <;> simp_all [FpVal.isNaN, FpVal.isZero]

theorem FpVal.isZero_iff {v : FpVal} : v.isZero = true ↔ ∃ s e, v = .num s 0 e := by
  cases v <;> simp [FpVal.isZero]

theorem dyInt_zero (s : Bool) (x e : Int) : dyInt s 0 x e = 0 := by simp [dyInt]

/-- The two zeros are equal (R280). -/
theorem cmpVal_zero {a b : FpVal} (ha : a.isZero = true) (hb : b.isZero = true) : cmpVal a b = 0 := by
  obtain ⟨s, e, rfl⟩ := FpVal.isZero_iff.mp ha
  obtain ⟨t, g, rfl⟩ := FpVal.isZero_iff.mp hb
  simp [cmpVal, dyInt_zero]

/-- The order is antisymmetric. -/
theorem cmpVal_swap {a b : FpVal} (ha : a.isNaN = false) (hb : b.isNaN = false) : cmpVal b a = -cmpVal a b := by
  cases a with
  | nan => simp [FpVal.isNaN] at ha
  | inf s =>
    cases b with
    | nan => simp [FpVal.isNaN] at hb
    | inf t => cases s <;> cases t <;> rfl
    | num => cases s <;> rfl
  | num s m e =>
    cases b with
    | nan => simp [FpVal.isNaN] at hb
    | inf t => cases t <;> rfl
    | num t n g =>
      simp only [cmpVal, min_comm g e]
      generalize dyInt s m e (min e g) = x
      generalize dyInt t n g (min e g) = y
      rcases lt_trichotomy x y with h | h | h
      · simp [h, h.not_gt]
      · simp [h]
      · simp [h, h.not_gt]

/-- Where the values differ, the order with −0 below +0 is the order (R280). -/
theorem cmpValZ_of_ne {a b : FpVal} (h : cmpVal a b ≠ 0) : cmpValZ a b = cmpVal a b :=
  if_neg fun hz => h (cmpVal_zero (Bool.and_eq_true_iff.mp hz).1 (Bool.and_eq_true_iff.mp hz).2)

/-! ### Zeros (R265) -/

/-- The top bit of a pattern. -/
theorem fpSign_eq {f : Fmt} {a : Nat} (ha : a < 2 ^ fmtBits f) : fpSign f a = decide (2 ^ (fmtBits f - 1) ≤ a) := by
  rw [fpSign, Nat.testBit_eq_decide_div_mod_eq]
  have hb : fmtBits f = fmtBits f - 1 + 1 := by rw [fmtBits]; omega
  rw [hb, pow_succ] at ha
  generalize 2 ^ (fmtBits f - 1) = t at *
  by_cases h : t ≤ a
  · rw [show a / t = 1 from Nat.div_eq_of_lt_le (by omega) (by omega)]
    simp [h]
  · rw [Nat.div_eq_of_lt (by omega)]
    simp [h]

/-- A zero has no set bit below its sign. -/
theorem mag_eq_zero_of_isZero {f : Fmt} {a : Nat} (h : (fpDecode f a).isZero = true) : a % 2 ^ (fmtBits f - 1) = 0 ∧ (fpDecode f a).neg = fpSign f a := by
  have hpos : 2 ^ fmtF f + fpFrac f a ≠ 0 := by positivity
  by_cases he : fpExpField f a = 0
  · have hd : fpDecode f a = .num (fpSign f a) (fpFrac f a) (1 - (fmtBias f : Int) - fmtF f) := if_pos he
    rw [hd] at h ⊢
    refine ⟨?_, rfl⟩
    have hf : a % 2 ^ fmtF f = 0 := by simpa [FpVal.isZero, fpFrac] using h
    rw [show fmtBits f - 1 = fmtF f + fmtE f by rw [fmtBits]; omega, pow_add, Nat.mod_mul, hf]
    simpa [fpExpField, bitsAt] using he
  · exfalso
    revert h
    simp only [fpDecode, if_neg he]
    split
    · split <;> (try split) <;> simp_all [FpVal.isZero]
    · simp_all [FpVal.isZero]

/-- The zeros are the patterns 0 and 2^(w-1); the sign of a zero names it. -/
theorem eq_signBit_of_isZero {f : Fmt} {a : Nat} (ha : a < 2 ^ fmtBits f) (hz : (fpDecode f a).isZero = true) :
    a = if (fpDecode f a).neg = true then 2 ^ (fmtBits f - 1) else 0 := by
  obtain ⟨hmag, hneg⟩ := mag_eq_zero_of_isZero hz
  have hb : fmtBits f = fmtBits f - 1 + 1 := by rw [fmtBits]; omega
  rw [hneg, fpSign_eq ha]
  rw [hb, pow_succ] at ha
  generalize 2 ^ (fmtBits f - 1) = t at *
  simp only [decide_eq_true_eq]
  split
  next h => rw [Nat.mod_eq_sub_mod h, Nat.mod_eq_of_lt (by omega)] at hmag; omega
  next h => rwa [Nat.mod_eq_of_lt (by omega)] at hmag

/-! ### Minimum and maximum (R280) -/

section
variable {f : Fmt} {mx : Bool} {a b : Nat}

theorem fpMinMax_of_number (hx : (fpDecode f a).isNaN = false) (hy : (fpDecode f b).isNaN = false) :
    fpMinMax f mx a b = (if decide (cmpValZ (fpDecode f a) (fpDecode f b) < 0) = mx then b else a, 0#5) := by
  simp only [fpMinMax, hx, hy, FpVal.isSNaN_of_notNaN hx, FpVal.isSNaN_of_notNaN hy, flIf, Bool.or_self, beq_iff_eq, Bool.false_eq_true, if_false]
  split <;> rfl

/-- Of two different zeros the minimum is −0, the one of the greater pattern. -/
theorem fpMinMax_zeros (ha : a < 2 ^ fmtBits f) (hb : b < 2 ^ fmtBits f) (hx : (fpDecode f a).isZero = true) (hy : (fpDecode f b).isZero = true)
    (hab : a ≠ b) : fpMinMax f mx a b = (if mx then (min a b, 0#5) else (max a b, 0#5)) := by
  rw [fpMinMax_of_number (FpVal.isZero_notNaN hx) (FpVal.isZero_notNaN hy), cmpValZ, hx, hy]
  have hea := eq_signBit_of_isZero ha hx
  have heb := eq_signBit_of_isZero hb hy
  generalize (fpDecode f a).neg = na at *
  generalize (fpDecode f b).neg = nb at *
  subst hea heb
  cases na <;> cases nb
  case false.false => exact absurd rfl hab
  case true.true => exact absurd rfl hab
  case false.true => cases mx <;> simp
  case true.false => cases mx <;> simp

/-- The lesser of two numbers is their minimum, the other their maximum. -/
theorem fpMinMax_of_lt (hx : (fpDecode f a).isNaN = false) (hy : (fpDecode f b).isNaN = false) (h : (fpCompare f .lt a b).1 = true) :
    fpMinMax f mx a b = (if mx then b else a, 0#5) := by
  have hc : cmpVal (fpDecode f a) (fpDecode f b) < 0 := by simpa [fpCompare, hx, hy] using h
  rw [fpMinMax_of_number hx hy, cmpValZ_of_ne hc.ne]
  cases mx <;> simp [hc]

theorem fpMinMax_of_gt (hx : (fpDecode f a).isNaN = false) (hy : (fpDecode f b).isNaN = false) (h : (fpCompare f .lt b a).1 = true) :
    fpMinMax f mx a b = (if mx then a else b, 0#5) := by
  have hc : cmpVal (fpDecode f b) (fpDecode f a) < 0 := by simpa [fpCompare, hx, hy] using h
  rw [cmpVal_swap hx hy] at hc
  rw [fpMinMax_of_number hx hy, cmpValZ_of_ne (by omega)]
  cases mx <;> simp <;> omega

end

/-- Settles O17: of minimum and maximum by the order of the two values and of the two zeros, of the comparisons by a NaN among the operands. -/
theorem comparisonsFollowIeeeOrder : Obligations.ComparisonsFollowIeeeOrder := by
  intro f a b ha hb x y sig
  have hsig : flIf (x.isSNaN || y.isSNaN) flNV = sig := by simp [flIf, sig]
  refine ⟨fun mx => ⟨?bothNaN, ?firstNaN, ?secondNaN, fpMinMax_zeros ha hb, fpMinMax_of_lt, fpMinMax_of_gt⟩, hsig, hsig, hsig, hsig, ?nan, ?zeros⟩
  case bothNaN =>
    intro hx hy
    simp only [fpMinMax, show (fpDecode f a).isNaN = true from hx, show (fpDecode f b).isNaN = true from hy, if_true]
    exact congrArg _ hsig
  case firstNaN =>
    intro hx hy
    simp only [fpMinMax, show (fpDecode f a).isNaN = true from hx, show (fpDecode f b).isNaN = false from hy, if_true, Bool.false_eq_true, if_false]
    exact congrArg _ hsig
  case secondNaN =>
    intro hx hy
    simp only [fpMinMax, show (fpDecode f a).isNaN = false from hx, show (fpDecode f b).isNaN = true from hy, if_true, Bool.false_eq_true, if_false]
    exact congrArg _ hsig
  case nan =>
    intro h
    have hor : ((fpDecode f a).isNaN || (fpDecode f b).isNaN) = true := by simpa using h
    refine ⟨?_, ?_, ?_, fun c hc => ?_⟩
    · simp [fpCompare, hor]
    · simpa [fpCompare] using hor
    · simp [fpCompare, hor]
    · fin_cases hc <;> simp [fpCompare, hor, flIf]
  case zeros =>
    intro hx hy
    have h0 : cmpVal (fpDecode f a) (fpDecode f b) = 0 := cmpVal_zero hx hy
    have hxn := FpVal.isZero_notNaN hx
    have hyn := FpVal.isZero_notNaN hy
    have hxs := FpVal.isSNaN_of_notNaN hxn
    have hys := FpVal.isSNaN_of_notNaN hyn
    simp only [x, y] at hxn hyn hxs hys
    simp [fpCompare, h0, hxn, hyn, hxs, hys, flIf]

end Sys2Proof.Machine
end

section
/-! SUPPORT. Vector instructions that run element by element at an idle hart (R237, R274, R419): their run ends in its step, their executed elements are
written, and the flags of those are raised. The statements O20 and O21. -/

namespace Sys2Proof.Machine
open Sys2Proof.Claims

/-! ### The flags of a run (R274) -/

/-- The flags of a run from `lo` to the end of a shape are those of its positions at or above `lo`. -/
theorem Cap.flagsOver_eq_flagsOf {s : State} {c : Cap} (hvl : c.vl = s.h.vl) (lo hi : Nat) (hle : lo < s.h.vl * s.h.vrows → hi = s.h.vl * s.h.vrows)
    (hgt : s.h.vl * s.h.vrows ≤ lo → hi = lo) (ok : Nat → Nat → Bool) (fl : Nat → Nat → Flags) :
    (c.flagsOver lo hi fun k x => if c.inPart lo hi k x && ok k x then fl k x else 0#5) =
      flagsOf s (fun k x => decide (lo ≤ k * s.h.vl + x) && ok k x) fl := by
  have split (t : Nat) : t / s.h.vl * s.h.vl + t % s.h.vl = t := Nat.div_add_mod' t _
  unfold Cap.flagsOver flagsOf
  by_cases hlo : lo < s.h.vl * s.h.vrows
  · obtain rfl := hle hlo
    rw [orFlags_from _ lo _ (fun t ht => ?below) hlo.le]
    case below => simp [split, Nat.not_le.mpr ht]
    refine List.foldl_ext _ _ _ fun a j hj => ?_
    have hj := List.mem_range.mp hj
    simp only [Cap.inPart, hvl, split, Nat.le_add_right, decide_true, Bool.true_and, show lo + j < s.h.vl * s.h.vrows by omega]
  · obtain rfl := hgt (by omega)
    rw [Nat.sub_self, List.range_zero, List.foldl_nil]
    refine (orFlags_zero _ _ fun t ht => ?_).symm
    have := List.mem_range.mp ht
    simp [split, show ¬ hi ≤ t by omega]

/-! ### The run of an elementwise instruction -/

/-- An elementwise write of a part: its executed elements to the destinations, with their flags and progress indices (R211, R237, R419). -/
def writePart (e : QEntry) (et : ETCode) (ok : Nat → Nat → Bool) (val : Nat → Nat → Nat × Flags) (lo hi : Nat) (h : Hart) : Hart :=
  let runs (k x : Nat) : Bool := e.cap.inPart lo hi k x && ok k x
  ((h.writeVec e.post.d e.copy et e.cap (e.cap.covers e.first) (fun k x => if runs k x then some (val k x).1 else none)).raise
    (e.cap.flagsOver lo hi fun k x => if runs k x then (val k x).2 else 0#5)).setVpis e.post.d e.copy hi

/-- What a write of a part changes of its hart. -/
theorem writePart_only (e : QEntry) (et : ETCode) (ok : Nat → Nat → Bool) (val : Nat → Nat → Nat × Flags) (lo hi : Nat) (h : Hart) :
    ∃ v vpi, writePart e et ok val lo hi h = { h with v := v, vpi := vpi, fcsr := h.fcsr |||
      ((e.cap.flagsOver lo hi fun k x => if e.cap.inPart lo hi k x && ok k x then (val k x).2 else 0#5) ++ 0#4) } := by
  unfold writePart
  dsimp only
  generalize (fun k x => if (e.cap.inPart lo hi k x && ok k x) = true then some (val k x).1 else none) = F
  generalize e.cap.flagsOver lo hi _ = fl
  obtain ⟨v, hv⟩ := h.writeVec_only e.post.d e.copy et e.cap (e.cap.covers e.first) F
  obtain ⟨vpi, hvpi⟩ := ((h.writeVec e.post.d e.copy et e.cap (e.cap.covers e.first) F).raise fl).setVpis_only e.post.d e.copy hi
  exact ⟨v, vpi, by rw [hvpi, hv]; rfl⟩

theorem writePart_vreg (e : QEntry) (et : ETCode) (ok : Nat → Nat → Bool) (val : Nat → Nat → Nat × Flags) (lo hi : Nat) (h : Hart)
    (hc : e.copy ≠ some e.post.d) (n : VNum) : (writePart e et ok val lo hi h).vreg n =
      if n = e.post.d ∨ e.copy = some n then ((h.vreg n).dest et e.cap.lmap e.cap.vl e.cap.vrows (e.cap.covers e.first)).write (etBits et) e.cap.vl e.cap.vrows
        fun k x => if e.cap.inPart lo hi k x && ok k x then some (val k x).1 else none
      else h.vreg n := by
  rw [← Hart.writeVec_vreg _ _ _ _ _ _ _ hc]
  exact Hart.setVpis_vreg _ _ _ _ _

section
variable {s : State} {i : Instr} {p : Posted}

/-- The run of an instruction of elements at an idle hart ends in its step: what it makes of the hart from its progress index to the end of its shape. -/
theorem exec_elems (hx : exec i s = issue p s) (heng : p.eng = .vector) (hxd : p.xd = none) (hruns : Runs s p) {f : QEntry → Nat → Nat → Hart → Hart}
    {g : Grain} (hg : ∀ n, n ≤ g.up n)
    (hbody : ∀ e u, Begun s p u.harts[s.cur] e → bodyRun s.cur e.total e u = (runElems f g s.cur e.total e u, none))
    (honly : ∀ h e lo hi, Begun s p h e → ∃ v vpi fl, f e lo hi h = { h with v := v, vpi := vpi, fcsr := fl }) :
    ∃ h e hi t, Begun s p h e ∧ e.first = (s.h.newEntry p).first ∧ (e.total ≤ e.prog → hi = e.prog) ∧ (e.prog < e.total → hi = e.total) ∧
      exec i s = .next t ∧ PostedFrame s t id ∧ (∀ n, t.h.vreg n = (f e e.prog hi h).vreg n) ∧ t.h.fcsr = (f e e.prog hi h).fcsr := by
  obtain ⟨hb, hbegun⟩ := hruns.begun
  rw [heng] at hbegun
  have hbegun : (s.begun p).1 = s.mod fun _ => (s.begun p).1.h := hbegun
  generalize hh : (s.begun p).1.h = h at hb hbegun
  have hfirst := State.begun_first s p
  generalize he : (s.begun p).2 = e at hb hfirst
  have hhart : (s.begun p).1.harts[s.cur] = h := by rw [hbegun, State.mod, State.modHart_same]
  obtain ⟨hi, hge, hlt, e2, heid, hpost, -, hrun⟩ := runElems_whole f g hg s.cur e (s.begun p).1 (by rw [hhart]; exact hb.queue)
  have hu : (s.begun p).1.modHart s.cur (f e e.prog hi) = s.mod fun _ => f e e.prog hi h := by
    rw [hbegun]
    exact State.mod_mod s _ _
  rw [hu] at hrun
  have hbodyRun : bodyRun s.cur (s.begun p).2.total (s.begun p).2 (s.begun p).1 = (.done (s.mod fun _ => f e e.prog hi h) e2, none) := by
    rw [he, hbody e _ (by rw [hhart]; exact hb), hrun]
  have hempty : ((s.mod fun _ => f e e.prog hi h).harts[s.cur].queue.filter fun y => y.eid != e2.eid) = [] := by
    obtain ⟨v, vpi, fl, hv⟩ := honly h e e.prog hi hb
    rw [State.mod, State.modHart_same, hv]
    simp [hb.queue, heid]
  obtain ⟨-, -, h0, -, -, hrel⟩ := id hruns
  obtain ⟨t, ht, hframe, hvreg, hfcsr⟩ := hb.retires h0 hrel hxd (honly h e e.prog hi hb) e2 heid (hpost.trans hb.post)
  exact ⟨h, e, hi, t, hb, hfirst, hge, hlt, by rw [hx, issue_runsTo (hruns.runsTo hbodyRun hempty), ht], hframe, hvreg, hfcsr⟩

/-- An elementwise instruction at an idle hart completes in its step: where reading its sources leaves the registers `rd`, its destinations take the values of
the positions at or above VSTART that it executes, and FCSR their flags (R237, R274, R419). -/
theorem vecWritesAt_elems {et : ETCode} {rd : VNum → VReg} {ok : Nat → Nat → Bool} {val : Nat → Nat → Nat × Flags} (hx : exec i s = issue p s)
    (heng : p.eng = .vector) (hxd : p.xd = none) {f : QEntry → Nat → Nat → Hart → Hart}
    (hbody : ∀ e u, Begun s p u.harts[s.cur] e → e.total ≠ 0 → bodyRun s.cur e.total e u = (runElems f elemGrain s.cur e.total e u, none))
    (hf : ∀ h e lo hi, Begun s p h e → ∃ h1, (∃ v, h1 = { h with v := v }) ∧ f e lo hi h = writePart e et ok val lo hi h1 ∧
      ∀ n, h1.vreg n = rd n) :
    VecWritesAt s i p et rd (fun k x => if decide ((s.h.newEntry p).prog ≤ k * s.h.vl + x) && ok k x then some (val k x).1 else none)
      (flagsOf s (fun k x => decide ((s.h.newEntry p).prog ≤ k * s.h.vl + x) && ok k x) fun k x => (val k x).2) := by
  intro hruns hshape
  obtain ⟨hcvl, hcrows, -, hclmap⟩ := hruns.captured
  have honly (h : Hart) (e : QEntry) (lo hi : Nat) (hb : Begun s p h e) : ∃ v vpi fl, f e lo hi h = { h with v := v, vpi := vpi, fcsr := fl } := by
    obtain ⟨h1, ⟨v, rfl⟩, hw, -⟩ := hf h e lo hi hb
    obtain ⟨v', vpi, hpart⟩ := writePart_only e et ok val lo hi { h with v := v }
    exact ⟨v', vpi, _, hw.trans hpart⟩
  obtain ⟨h, e, hi, t, hb, hfirst, hge, hlt, hexec, hframe, hvreg, hfcsr⟩ := exec_elems hx heng hxd hruns (g := elemGrain) (fun n => Nat.le_refl n)
    (fun e u hb => hbody e u hb (by rw [hb.total]; exact hshape)) honly
  obtain ⟨h1, ⟨v, hv⟩, hw, hrd⟩ := hf h e e.prog hi hb
  have htotal : e.total = s.h.vl * s.h.vrows := hb.total
  rw [htotal, hb.prog] at hge hlt
  have hin {k x : Nat} (hk : k < s.h.vrows) (hxl : x < s.h.vl) :
      e.cap.inPart e.prog hi k x = decide ((s.h.newEntry p).prog ≤ k * s.h.vl + x) := by
    have hpos : k * s.h.vl + x < s.h.vl * s.h.vrows := by
      calc k * s.h.vl + x < k * s.h.vl + s.h.vl := by omega
        _ = (k + 1) * s.h.vl := by rw [Nat.add_mul, Nat.one_mul]
        _ ≤ s.h.vrows * s.h.vl := Nat.mul_le_mul_right _ hk
        _ = s.h.vl * s.h.vrows := Nat.mul_comm _ _
    rw [Cap.inPart, hb.cap, hcvl, hb.prog]
    rcases Nat.lt_or_ge (s.h.newEntry p).prog (s.h.vl * s.h.vrows) with hp | hp
    · rw [hlt hp, decide_eq_true hpos, Bool.and_true]
    · rw [decide_eq_false (by omega : ¬ (s.h.newEntry p).prog ≤ k * s.h.vl + x), Bool.false_and]
  have hcopy : e.copy ≠ some e.post.d := by rw [hb.copy, hb.post]; exact hruns.1.copy_ne
  have hreg (n : VNum) : t.h.vreg n = if n = p.d ∨ (s.h.newEntry p).copy = some n then
      ((rd n).dest et (vtGroups s.h.vtype) s.h.vl s.h.vrows (wholeWrite s p)).write (etBits et) s.h.vl s.h.vrows
        (fun k x => if e.cap.inPart e.prog hi k x && ok k x then some (val k x).1 else none) else rd n := by
    rw [hvreg, hw, writePart_vreg _ _ _ _ _ _ _ hcopy, hrd, hb.post, hb.copy, hb.cap, hcvl, hcrows, hclmap, hfirst]
    rfl
  refine ⟨t, hexec, hframe, ?flags, fun n hn => ?written, fun n hn hc => by rw [hreg, if_neg (not_or.mpr ⟨hn, hc⟩)]⟩
  case flags =>
    obtain ⟨v', vpi, hpart⟩ := writePart_only e et ok val e.prog hi h1
    obtain ⟨pc, c0, c1, pv, tok, hh⟩ := hb.only
    rw [hfcsr, hw, hpart, hv, hh, Cap.flagsOver_eq_flagsOf (s := s) (by rw [hb.cap, hcvl]) _ _ (by rw [hb.prog]; exact hlt) (by rw [hb.prog]; exact hge), hb.prog]
  case written =>
    have hn' := (hreg n).trans (if_pos hn)
    obtain ⟨hvalid, het, hlmap⟩ := VReg.written_tag (rd n) et (vtGroups s.h.vtype) s.h.vl s.h.vrows (wholeWrite s p)
      (fun k x => if e.cap.inPart e.prog hi k x && ok k x then some (val k x).1 else none)
    rw [← hn'] at hvalid het hlmap
    refine ⟨hvalid, het, hlmap, fun k x hk hxb hkr hxl => ?_⟩
    rw [hn', elem_written_kept s _ _ _ _ k x hk hxb hkr hxl, hin hkr hxl]
    dsimp only
    cases decide ((s.h.newEntry p).prog ≤ k * s.h.vl + x) && ok k x <;> rfl

end

/-! ### Sources and operands of an entry -/

theorem Begun.sat {s : State} {p : Posted} {h : Hart} {e : QEntry} (hb : Begun s p h e) : h.sat = s.h.sat := by
  obtain ⟨pc, c0, c1, pv, tok, hh⟩ := hb.only
  rw [hh]
  rfl

theorem Begun.vreg {s : State} {p : Posted} {h : Hart} {e : QEntry} (hb : Begun s p h e) (n : VNum) : h.vreg n = s.h.vreg n := by
  obtain ⟨pc, c0, c1, pv, tok, hh⟩ := hb.only
  rw [hh]
  rfl

theorem Hart.relayAll_sat (h : Hart) (et : ETCode) (l : BitVec 4) (ns : List VNum) : (h.relayAll et l ns).sat = h.sat := by
  obtain ⟨v, hv⟩ := h.relayAll_only et l ns
  rw [hv]
  rfl

/-- The mode that an entry captured (R272). -/
theorem Begun.mode {s : State} {p : Posted} {h : Hart} {e : QEntry} (hb : Begun s p h e) : e.mode = (rmodeOf s.h.rm.toNat).getD .rne := by
  rw [QEntry.mode, hb.rm]

/-! ### `vfsat` (R283) -/

theorem fpSat_eq_saturated (f : Fmt) (a : Nat) : fpSat f a = saturated f a := by
  unfold fpSat saturated
  cases fpDecode f a with
  | nan b => rfl
  | inf b => cases b <;> simp [FpVal.isNaN, withSign, Nat.add_comm]
  | num b m e => rfl

/-- A floating-point instruction writes a part of its active elements, once its sources are read (R516). -/
theorem runFp_eq_writePart (op : FpOp) (e : QEntry) (lo hi : Nat) (h : Hart) :
    let h1 := h.relayAll e.cap.et e.cap.lmap e.post.vsrc
    runFp op e lo hi h = writePart e e.cap.et (e.cap.active h1) (fun k x => fpElem op (fmtEt e.cap.et) e.mode ((h1.vreg e.post.a).elem e.cap.bits k x)
      (e.operandB h1 e.cap.bits k x) ((h1.vreg e.post.d).elem e.cap.bits k x)) lo hi h1 := rfl

/-- Once sources are read the active elements are those of the entry (R408). -/
theorem Begun.relayAll_active {s : State} {p : Posted} {h : Hart} {e : QEntry} (hb : Begun s p h e) (et : ETCode) (l : BitVec 4) :
    e.cap.active (h.relayAll et l p.vsrc) = activeAt s p := by
  funext k x
  rw [activeAt, Cap.active, Cap.active, hb.relayAll_mask, hb.cap]

/-- No position raises a flag where none has one. -/
theorem flagsOf_zero (s : State) (c : Nat → Nat → Bool) : (flagsOf s c fun _ _ => 0#5) = 0#5 :=
  orFlags_zero _ _ fun _ _ => ite_self _

/-- Settles O20: an elementwise instruction whose element is `fpSat` of its source, which raises nothing. -/
theorem saturationRule : Obligations.SaturationRule := by
  intro s f d a q hf hruns
  obtain ⟨-, -, hcet, hclmap⟩ := hruns.captured
  have h := vecWritesAt_elems (s := s) (i := .vfsat d a q) (p := pVfsat d a q) (et := vtEt s.h.vtype) (rd := readSources s (pVfsat d a q)) (ok := activeAt s (pVfsat d a q))
    (val := fun k x => (saturated f (opdA s (pVfsat d a q) k x), 0#5)) rfl rfl rfl (f := runFp .sat) ?body ?run
  case body =>
    intro e u hb h0
    rw [bodyRun, hb.post]
    exact congrArg (·, none) (if_neg h0)
  case run =>
    intro h e lo hi hb
    have hsrc : (h.relayAll (vtEt s.h.vtype) (vtGroups s.h.vtype) (pVfsat d a q).vsrc).vreg a = source s a :=
      (hb.relayAll_vreg a).trans (if_pos (List.mem_singleton_self a))
    refine ⟨_, h.relayAll_only _ _ _, ?_, hb.relayAll_vreg⟩
    rw [runFp_eq_writePart, hb.cap, hcet, hclmap, hb.post, ← hb.cap, hb.relayAll_active]
    congr 1
    funext k x
    rw [show (pVfsat d a q).a = a from rfl, hsrc, show fmtEt (vtEt s.h.vtype) = f by rw [fmtEt, hf]; rfl, Cap.bits, hb.cap, hcet]
    exact congrArg (·, 0#5) (fpSat_eq_saturated f _)
  rw [flagsOf_zero] at h
  exact h hruns

/-! ### Conversions (R520 to R523) -/

theorem runCvt_eq_writePart (m : RMode) (e : QEntry) (lo hi : Nat) (h : Hart) :
    let h1 := h.relayAll e.cap.et e.cap.lmap e.post.vsrc
    let dt := cvtTarget h e
    runCvt m e lo hi h = writePart e dt (fun k x => e.cap.active h1 k x && decide (x < vlmaxOf (groupCount e.cap.lmap) dt))
      (fun k x => convertPat e.cap.et dt m h1.sat ((h1.vreg e.post.a).elem e.cap.bits k x)) lo hi h1 := by
  simp only [runCvt, writePart, Cap.runs, Bool.and_assoc]

theorem runDqbs_eq_writePart (e : QEntry) (lo hi : Nat) (h : Hart) :
    let h1 := h.relayAll e.cap.et e.cap.lmap [e.post.a]
    let h2 := h1.relayAll 4#4 e.cap.lmap [e.post.b]
    let dt := dqbsTarget h e
    runDqbs e lo hi h = writePart e dt (fun k x => e.cap.active h2 k x && decide (x < vlmaxOf (groupCount e.cap.lmap) dt))
      (fun k x => if (h2.vreg e.post.b).elem 8 k (x / 256) = 0xFF then (canonNaN (fmtEt dt), 0#5)
        else cvtVal (fmtEt dt) .rne h2.sat (scaleVal (fpDecode (fmtEt e.cap.et) ((h1.vreg e.post.a).elem e.cap.bits k x))
          (Int.ofNat ((h2.vreg e.post.b).elem 8 k (x / 256)) - 127))) lo hi h2 := by
  simp only [runDqbs, writePart, Cap.runs, Bool.and_assoc]

section
variable {s : State} {i : Instr} {p : Posted}

/-- A conversion at an idle hart, in the mode that it runs in (R520, R521). -/
theorem converts_of_runCvt {m : RMode} (hx : exec i s = issue p s) (heng : p.eng = .vector) (hxd : p.xd = none) (hsrc : p.a ∈ p.vsrc)
    (hbody : ∀ e u, Begun s p u.harts[s.cur] e → e.total ≠ 0 → bodyRun s.cur e.total e u = (runElems (runCvt m) elemGrain s.cur e.total e u, none)) :
    Converts s i p m := by
  intro hruns
  obtain ⟨-, -, hcet, hclmap⟩ := hruns.captured
  have h := vecWritesAt_elems (s := s) (et := convTarget s p) (rd := readSources s p)
    (ok := fun k x => activeAt s p k x && decide (x < vlmaxOf (groupCount (vtGroups s.h.vtype)) (convTarget s p)))
    (val := fun k x => convertPat (vtEt s.h.vtype) (convTarget s p) m s.h.sat (opdA s p k x)) hx heng hxd hbody ?run
  case run =>
    intro h e lo hi hb
    have hsrc : (h.relayAll (vtEt s.h.vtype) (vtGroups s.h.vtype) p.vsrc).vreg p.a = source s p.a := (hb.relayAll_vreg p.a).trans (if_pos hsrc)
    have hdt : cvtTarget h e = convTarget s p := by rw [cvtTarget, hb.post, hb.vreg, hb.vtype]; rfl
    refine ⟨_, h.relayAll_only _ _ _, ?_, hb.relayAll_vreg⟩
    rw [runCvt_eq_writePart, hdt, hb.cap, hcet, hclmap, hb.post, ← hb.cap, hb.relayAll_active, Hart.relayAll_sat, hb.sat, hsrc, Cap.bits, hb.cap, hcet]
    rfl
  simp only [← Bool.and_assoc] at h
  exact h hruns

end

/-- Settles O21: `vcvt` and `vcvtr` are conversions in the mode of FCSR and in their own, `vdqbs` an elementwise product with the scales of its blocks. -/
theorem vectorConversionResults : Obligations.VectorConversionResults := by
  intro s d a b q r
  refine ⟨fun m hm => ?cvt, fun m hm => ?cvtr, ?dqbs⟩
  case cvt =>
    refine converts_of_runCvt rfl rfl rfl (List.mem_singleton_self a) fun e u hb h0 => ?_
    have hmode : e.mode = m := by rw [hb.mode, hm]; rfl
    have hnone : (rmodeOf e.rm.toNat).isNone = false := by rw [hb.rm, hm]; rfl
    rw [bodyRun, hb.post]
    refine congrArg (·, none) ((if_neg h0).trans ?_)
    rw [runCvtMode, hnone, Bool.false_and, if_neg Bool.false_ne_true, hmode]
  case cvtr =>
    refine converts_of_runCvt rfl rfl rfl (List.mem_singleton_self a) fun e u hb h0 => ?_
    rw [bodyRun, hb.post]
    refine congrArg (·, none) ((if_neg h0).trans ?_)
    rw [hm]
    rfl
  case dqbs =>
    intro p et dt rd ok res hruns
    obtain ⟨-, -, hcet, hclmap⟩ := hruns.captured
    have h := vecWritesAt_elems (s := s) (i := .vdqbs d a b q) (p := p) (et := dt) (rd := rd)
      (ok := fun k x => activeAt s p k x && decide (x < vlmaxOf (groupCount (vtGroups s.h.vtype)) dt)) (val := res) rfl rfl rfl (f := runDqbs) ?body ?run
    case body =>
      intro e u hb h0
      rw [bodyRun, hb.post]
      exact congrArg (·, none) (if_neg h0)
    case run =>
      intro h e lo hi hb
      have hmask (n : MNum) : ((h.relayAll (vtEt s.h.vtype) (vtGroups s.h.vtype) [a]).relayAll 4#4 (vtGroups s.h.vtype) [b]).mask n = s.h.mask n := by
        rw [Hart.relayAll_mask, Hart.relayAll_mask, hb.mask]
      have hact : e.cap.active ((h.relayAll (vtEt s.h.vtype) (vtGroups s.h.vtype) [a]).relayAll 4#4 (vtGroups s.h.vtype) [b]) = activeAt s p := by
        funext k x
        rw [activeAt, Cap.active, Cap.active, hmask, hb.cap]
      have hdt : dqbsTarget h e = dt := by rw [dqbsTarget, hb.post, hb.vreg]; rfl
      have hva : (h.relayAll (vtEt s.h.vtype) (vtGroups s.h.vtype) [a]).vreg a = source s a := by simp [Hart.relayAll_vreg, hb.vreg, source]
      have hrd (n : VNum) : ((h.relayAll (vtEt s.h.vtype) (vtGroups s.h.vtype) [a]).relayAll 4#4 (vtGroups s.h.vtype) [b]).vreg n = rd n := by
        simp only [Hart.relayAll_vreg, hb.vreg, List.mem_singleton, rd, source]
      obtain ⟨v1, h1⟩ := h.relayAll_only (vtEt s.h.vtype) (vtGroups s.h.vtype) [a]
      obtain ⟨v2, h2⟩ := (h.relayAll (vtEt s.h.vtype) (vtGroups s.h.vtype) [a]).relayAll_only 4#4 (vtGroups s.h.vtype) [b]
      refine ⟨_, ⟨v2, by rw [h2, h1]⟩, ?_, hrd⟩
      rw [runDqbs_eq_writePart, hdt, hb.cap, hcet, hclmap, hb.post, ← hb.cap, show p.a = a from rfl, show p.b = b from rfl, hact, Hart.relayAll_sat,
        Hart.relayAll_sat, hb.sat, hva, hrd, Cap.bits, hb.cap, hcet]
      rfl
    simp only [← Bool.and_assoc] at h
    exact h hruns

end Sys2Proof.Machine
end

section
/-! SUPPORT. Floating-point reductions over whole rows (R268, R274, R288, R537, R539): the flags of rows of results, the run of a reduction without segments
from the results of its rows, and the sum in index order; and the statement O28. -/

namespace Sys2Proof.Machine
open Sys2Proof.Claims

/-! ### Flags (R274) -/

/-- A flag is raised over a list where an item of it raises it. -/
theorem getLsbD_foldl_or {α : Type} (g : α → Flags) (l : List α) (a : Flags) (j : Nat) :
    (l.foldl (fun fl x => fl ||| g x) a).getLsbD j = (a.getLsbD j || l.any fun x => (g x).getLsbD j) := by
  induction l generalizing a with
  | nil => simp
  | cons x l ih => rw [List.foldl_cons, ih, BitVec.getLsbD_or, List.any_cons, Bool.or_assoc]

/-- A flag is raised over a shape where a position of it raises it. -/
theorem getLsbD_flagsOf (s : State) (c : Nat → Nat → Bool) (g : Nat → Nat → Flags) (j : Nat) :
    (flagsOf s c g).getLsbD j = true ↔ ∃ k x, k < s.h.vrows ∧ x < s.h.vl ∧ c k x = true ∧ (g k x).getLsbD j = true := by
  rw [flagsOf, getLsbD_foldl_or]
  simp only [BitVec.getLsbD_zero, Bool.false_or, List.any_eq_true, List.mem_range]
  constructor
  · rintro ⟨t, ht, hg⟩
    have hvl : 0 < s.h.vl := Nat.pos_of_mul_pos_right (Nat.zero_lt_of_lt ht)
    refine ⟨t / s.h.vl, t % s.h.vl, (Nat.div_lt_iff_lt_mul hvl).mpr (by rwa [Nat.mul_comm]), Nat.mod_lt _ hvl, ?_⟩
    split at hg
    · exact ⟨by assumption, hg⟩
    · simp at hg
  · rintro ⟨k, x, hk, hx, hc, hg⟩
    have hdiv : (k * s.h.vl + x) / s.h.vl = k := by rw [Nat.mul_comm, Nat.mul_add_div (by omega), Nat.div_eq_of_lt hx, Nat.add_zero]
    have hmod : (k * s.h.vl + x) % s.h.vl = x := by rw [Nat.mul_comm, Nat.mul_add_mod, Nat.mod_eq_of_lt hx]
    refine ⟨k * s.h.vl + x, ?_, by rw [hdiv, hmod, if_pos hc]; exact hg⟩
    calc k * s.h.vl + x < (k + 1) * s.h.vl := by rw [Nat.add_mul, Nat.one_mul]; omega
      _ ≤ s.h.vl * s.h.vrows := by rw [Nat.mul_comm s.h.vl]; exact Nat.mul_le_mul_right _ hk

theorem flagsOf_congr {s : State} {c c' : Nat → Nat → Bool} {g g' : Nat → Nat → Flags} (hc : ∀ k x, c k x = c' k x)
    (hg : ∀ k x, c' k x = true → g k x = g' k x) : flagsOf s c g = flagsOf s c' g' := by
  refine List.foldl_ext _ _ _ fun fl t _ => congrArg (fl ||| ·) ?_
  rw [hc]
  split
  · exact hg _ _ (by assumption)
  · rfl

/-- The flags of rows of results. -/
def rowFlags (rows : List (List (Option Flagged))) : Flags :=
  rows.foldl (fun fl r => r.foldl (fun fl x => match x with | some y => fl ||| y.2 | none => fl) fl) 0#5

theorem getLsbD_rowFlags (rows : List (List (Option Flagged))) (j : Nat) :
    (rowFlags rows).getLsbD j = true ↔ ∃ r ∈ rows, ∃ y, some y ∈ r ∧ y.2.getLsbD j = true := by
  have inner (r : List (Option Flagged)) (a : Flags) : (r.foldl (fun fl x => match x with | some y => fl ||| y.2 | none => fl) a).getLsbD j = true ↔
      a.getLsbD j = true ∨ ∃ y, some y ∈ r ∧ y.2.getLsbD j = true := by
    induction r generalizing a with
    | nil => simp
    | cons x r ih =>
      rw [List.foldl_cons, ih]
      cases x with
      | none => simp
      | some y => simp [or_assoc]
  have outer (a : Flags) : (rows.foldl (fun fl r => r.foldl (fun fl x => match x with | some y => fl ||| y.2 | none => fl) fl) a).getLsbD j = true ↔
      a.getLsbD j = true ∨ ∃ r ∈ rows, ∃ y, some y ∈ r ∧ y.2.getLsbD j = true := by
    induction rows generalizing a with
    | nil => simp
    | cons r rows ih =>
      rw [List.foldl_cons, ih, inner]
      simp [or_assoc]
  rw [rowFlags, outer]
  simp

/-! ### A reduction or scan from the results of its rows -/

theorem runRed_eq_redRows (op : RedOp) (e : QEntry) (k0 k1 : Nat) (h : Hart) :
    let h1 := h.relayAll e.cap.et e.cap.lmap e.post.vsrc
    let rows := redRows op e k0 k1 h1
    runRed op e k0 k1 h = ((h1.writeVec e.post.d none e.cap.et e.cap (e.cap.covers e.first) fun k x => ((rows.getD k []).getD x none).map (·.1)).raise
      (rowFlags rows)).setVpi e.post.d (k1 * e.cap.vl) := rfl

/-- The initial value of row `k` of a reduction, of segment `y` (R537). -/
def redInit (e : QEntry) (h : Hart) (k y : Nat) : Option Nat := if e.post.b = 0#5 then none else some ((h.vreg e.post.b).elem e.cap.bits k y)

section
variable {s : State} {i : Instr} {w : IWord} {op : RedOp} {d a b : VNum} {m : MNum}

/-- A reduction or scan at an idle hart completes in its step: where `V` gives the results of its rows, each position takes its result, and the flags of all
are raised (R527, R537). -/
theorem vecWrites_redRows (hx : exec i s = issue (postRed w op d a b m) s) (V : Nat → Nat → Option Flagged)
    (hV : Runs s (postRed w op d a b m) → ∀ h e k, Begun s (postRed w op d a b m) h e → s.h.vl ≠ 0 →
      let h1 := h.relayAll (vtEt s.h.vtype) (vtGroups s.h.vtype) (postRed w op d a b m).vsrc
      ∃ n, n ≤ s.h.vl ∧ redRow op e.cap h1 e.mode (h1.vreg a) (redInit e h1 k) k = (List.range n).map (V k) ∧ ∀ x, n ≤ x → V k x = none) :
    let p := postRed w op d a b m
    VecWrites s i p (fun k x => if (s.h.newEntry p).prog / s.h.vl ≤ k then (V k x).map (·.1) else none)
      (flagsOf s (fun k x => decide ((s.h.newEntry p).prog / s.h.vl ≤ k) && (V k x).isSome) fun k x => ((V k x).map (·.2)).getD 0#5) := by
  intro p hruns hshape
  obtain ⟨h, e, k1, t, hb, hfirst, hk1, hexec, hframe, hvreg, hfcsr⟩ := exec_red (p := p) hx rfl rfl rfl hruns hshape
  obtain ⟨hcvl, hcrows, hcet, hclmap⟩ := hruns.captured
  have hcopy : (s.h.newEntry p).copy = none := hruns.1.copy_none rfl
  have hV := fun k => hV hruns h e k hb (left_ne_zero_of_mul hshape)
  rw [hb.prog, hb.vl] at hk1 hvreg hfcsr
  generalize hk0 : (s.h.newEntry p).prog / s.h.vl = k0 at hk1 hvreg hfcsr ⊢
  have hrun := runRed_eq_redRows op e k0 k1 h
  rw [hb.cap, hcet, hclmap, hcvl, hb.post] at hrun
  dsimp only at hrun hV
  generalize hh1 : h.relayAll (vtEt s.h.vtype) (vtGroups s.h.vtype) p.vsrc = h1 at hrun hV
  have hrd (n : VNum) : h1.vreg n = readSources s p n := by rw [← hh1]; exact hb.relayAll_vreg n
  have hrow (k : Nat) (hk : k < s.h.vrows) : (redRows op e k0 k1 h1).getD k [] =
      if k0 ≤ k then redRow op e.cap h1 e.mode (h1.vreg a) (redInit e h1 k) k else [] := by
    rw [redRows_getD _ _ _ _ _ (by rw [hb.cap, hcrows]; exact hk), hb.post]
    by_cases hle : k0 ≤ k
    · rw [if_pos ⟨hle, hk1 k hk hle⟩, if_pos hle]
      unfold redInit
      rw [hb.post]
      rfl
    · rw [if_neg fun h => hle h.1, if_neg hle]
  have hvalue (k x : Nat) (hk : k < s.h.vrows) : ((redRows op e k0 k1 h1).getD k []).getD x none = if k0 ≤ k then V k x else none := by
    rw [hrow k hk]
    split
    · obtain ⟨n, -, hn, hnone⟩ := hV k
      rw [hn]
      by_cases hx : x < n
      · simp [hx]
      · simp [hx, hnone x (by omega)]
    · rfl
  have hlen : (redRows op e k0 k1 h1).length = s.h.vrows := by simp [redRows, hb.cap, hcrows]
  have hflags : rowFlags (redRows op e k0 k1 h1) = flagsOf s (fun k x => decide (k0 ≤ k) && (V k x).isSome) fun k x => ((V k x).map (·.2)).getD 0#5 := by
    refine BitVec.eq_of_getLsbD_eq fun j _ => Bool.eq_iff_iff.mpr ?_
    rw [getLsbD_rowFlags, getLsbD_flagsOf]
    constructor
    · rintro ⟨r, hr, y, hy, hj⟩
      obtain ⟨k, hk, rfl⟩ := List.mem_iff_getElem.mp hr
      have hk' : k < s.h.vrows := hlen ▸ hk
      rw [← List.getD_eq_getElem _ [] hk, hrow k hk'] at hy
      split at hy
      · obtain ⟨n, hn, hmap, -⟩ := hV k
        rw [hmap] at hy
        obtain ⟨x, hx, hxy⟩ := List.mem_map.mp hy
        exact ⟨k, x, hk', (List.mem_range.mp hx).trans_le hn, by simp [*], by simpa [hxy] using hj⟩
      · cases hy
    · rintro ⟨k, x, hk, -, hc, hj⟩
      obtain ⟨hle, hsome⟩ := Bool.and_eq_true_iff.mp hc
      obtain ⟨y, hy⟩ := Option.isSome_iff_exists.mp hsome
      obtain ⟨n, -, hmap, hnone⟩ := hV k
      have hxn : x < n := by
        by_contra hx
        rw [hnone x (by omega)] at hy
        cases hy
      refine ⟨(redRows op e k0 k1 h1).getD k [], ?_, y, ?_, by simpa [hy] using hj⟩
      · rw [List.getD_eq_getElem _ _ (hlen.symm ▸ hk)]
        exact List.getElem_mem _
      · rw [hrow k hk, if_pos (of_decide_eq_true hle), hmap, ← hy]
        exact List.mem_map.mpr ⟨x, List.mem_range.mpr hxn, rfl⟩
  rw [hrun, hflags] at hvreg hfcsr
  refine ⟨t, hexec, hframe, ?flags, ?written, ?stand⟩
  case flags =>
    obtain ⟨v, hv⟩ := h1.writeVec_only p.d none (vtEt s.h.vtype) (s.h.newEntry p).cap ((s.h.newEntry p).cap.covers e.first)
      fun k x => (((redRows op e k0 k1 h1).getD k []).getD x none).map (·.1)
    rw [hfcsr, hv]
    refine congrArg (· ||| _) ?_
    rw [← hh1]
    exact hb.relayAll_fcsr _ _
  case stand =>
    intro n hn _
    rw [hvreg]
    refine (Hart.writeVec_vreg _ _ _ _ _ _ _ (by simp) _).trans ?_
    rw [if_neg (by simp [hn]), hrd]
  case written =>
    rintro n (hn | hn)
    · have hreg : t.h.vreg p.d = ((readSources s p p.d).dest (vtEt s.h.vtype) (vtGroups s.h.vtype) s.h.vl s.h.vrows (wholeWrite s p)).write
          (etBits (vtEt s.h.vtype)) s.h.vl s.h.vrows fun k x => (((redRows op e k0 k1 h1).getD k []).getD x none).map (·.1) := by
        rw [hvreg]
        refine (Hart.writeVec_vreg _ _ _ _ _ _ _ (by simp) _).trans ?_
        rw [if_pos (Or.inl rfl), hrd, hclmap, hcvl, hcrows, hfirst]
        rfl
      obtain ⟨hvalid, het, hlmap⟩ := VReg.written_tag (readSources s p p.d) (vtEt s.h.vtype) (vtGroups s.h.vtype) s.h.vl s.h.vrows (wholeWrite s p)
        fun k x => (((redRows op e k0 k1 h1).getD k []).getD x none).map (·.1)
      rw [← hreg] at hvalid het hlmap
      rw [show n = p.d from hn]
      refine ⟨hvalid, het, hlmap, fun k x hk hx hkr hxl => ?_⟩
      rw [hreg, elem_written_kept s _ _ _ _ k x hk hx hkr hxl, hvalue k x hkr]
      by_cases hle : k0 ≤ k
      · simp only [if_pos hle]
        cases V k x <;> rfl
      · simp only [if_neg hle]
        rfl
    · rw [hcopy] at hn
      cases hn

end

section
variable {s : State} {p : Posted} {h : Hart} {e : QEntry}

/-- Once sources are read the active values of a row, behind their initial value, are those of the statement (R537). -/
theorem Begun.activeValues_eq (hb : Begun s p h e) (hcet : (s.h.newEntry p).cap.et = vtEt s.h.vtype) (ha : p.a ∈ p.vsrc) (hpb : p.b ≠ 0#5 → p.b ∈ p.vsrc)
    (k n : Nat) :
    let h1 := h.relayAll (vtEt s.h.vtype) (vtGroups s.h.vtype) p.vsrc
    activeValues e.cap h1 (h1.vreg p.a) (redInit e h1 k 0) k n = redPrefix s p k n := by
  intro h1
  rw [redInit, hb.post]
  exact activeValues_relayAll hb hb.cap (by rw [hb.cap, hcet]) ha hpb k n

end

section
variable {s : State} {i : Instr} {w : IWord} {op : RedOp} {d a b : VNum} {m : MNum}

/-- With segments off a row is one segment of what a reduction captured (R538). -/
theorem Begun.segments_of_off {p : Posted} {h : Hart} {e : QEntry} (hb : Begun s p h e) (hcvl : (s.h.newEntry p).cap.vl = s.h.vl)
    (hoff : s.h.vseg.getLsbD 3 = false) (hvl : s.h.vl ≠ 0) (g : Hart) (k : Nat) : segments e.cap g k = [(0, s.h.vl)] := by
  have hpos : 0 < s.h.vl := Nat.pos_of_ne_zero hvl
  rw [Machine.segments_of_off g k (by rw [hb.cap, QEntry.cap_vseg]; exact hoff) (by rw [hb.cap, hcvl]; exact hpos), hb.cap, hcvl]

/-- A reduction without segments at an idle hart completes in its step: element 0 of each row from VSTART's on takes the result of the row, and the
flags of these results are raised (R537). -/
theorem vecWrites_rowResults (hx : exec i s = issue (postRed w op d a b m) s) (hscan : op.isScan = false) (hoff : s.h.vseg.getLsbD 3 = false)
    (R : Nat → Flagged)
    (hR : Runs s (postRed w op d a b m) → ∀ h e k, Begun s (postRed w op d a b m) h e →
      let h1 := h.relayAll (vtEt s.h.vtype) (vtGroups s.h.vtype) (postRed w op d a b m).vsrc
      activeValues e.cap h1 (h1.vreg a) (redInit e h1 k 0) k s.h.vl = redInput s (postRed w op d a b m) k →
      redSegment op e.cap h1 e.mode (h1.vreg a) (redInit e h1 k 0) k 0 s.h.vl = R k) :
    let p := postRed w op d a b m
    let row (k x : Nat) : Bool := decide ((s.h.newEntry p).prog / s.h.vl ≤ k) && x == 0
    VecWrites s i p (fun k x => if row k x then some (R k).1 else none) (flagsOf s row fun k _ => (R k).2) := by
  intro p row
  have h := vecWrites_redRows (s := s) (i := i) (w := w) (op := op) (d := d) (a := a) (b := b) (m := m) hx
    (fun k x => if x = 0 then some (R k) else none) ?rows
  case rows =>
    intro hruns h e k hb hvl h1
    obtain ⟨hcvl, -, hcet, -⟩ := hruns.captured
    refine ⟨1, Nat.pos_of_ne_zero hvl, ?_, fun x hx => if_neg (by omega)⟩
    have hvals := hb.activeValues_eq hcet (by unfold postRed vecPost; split <;> simp) (by unfold postRed vecPost; intro h0; rw [if_neg h0]; simp) k s.h.vl
    rw [redRow, hb.segments_of_off hcvl hoff hvl]
    simp only [hscan, Bool.false_eq_true, if_false, List.zipIdx_cons, List.zipIdx_nil, List.map_cons, List.map_nil]
    exact congrArg (fun r => [some r]) (hR hruns h e k hb hvals)
  refine Eq.mp (congrArg₂ (VecWrites s i p) (funext fun k => funext fun x => ?_) (flagsOf_congr (fun k x => ?_) fun k x hrow => ?_)) h
  · by_cases hk : (s.h.newEntry p).prog / s.h.vl ≤ k <;> by_cases h0 : x = 0 <;> simp [row, p, hk, h0]
  · by_cases h0 : x = 0 <;> simp [row, p, h0]
  · have h0 : x = 0 := by simpa using (Bool.and_eq_true_iff.mp hrow).2
    simp [h0]

end

/-! ### The sum in index order (R288, R539) -/

/-- The combination of a list in index order by a rounding operation, with the flags of every combine. -/
theorem seqOf_fpAdd (f : Fmt) (m : RMode) (init : Option Nat) (xs : List Nat) :
    seqOf (fpAdd f m) init xs = if init.toList ++ xs = [] then none else some (orderedSum f m (init.toList ++ xs)) := by
  have fold (xs : List Nat) (y : Flagged) : xs.foldl (fun acc x => match acc with
      | none => some (x, 0#5)
      | some a => let z := fpAdd f m a.1 x; some (z.1, a.2 ||| z.2)) (some y) =
        some (xs.foldl (fun acc x => ((fpAdd f m acc.1 x).1, acc.2 ||| (fpAdd f m acc.1 x).2)) y) := by
    induction xs generalizing y with
    | nil => rfl
    | cons x xs ih => exact ih _
  unfold seqOf
  cases init with
  | some v => exact fold xs (v, 0#5)
  | none =>
    cases xs with
    | nil => rfl
    | cons x xs => exact fold xs (x, 0#5)

/-- The result of a sum in index order over a whole row. -/
theorem redSegment_fsum {c : Cap} {m : RMode} {f : Fmt} (hf : etFmt c.et = some f) (h : Hart) (va : VReg) (init : Option Nat) (k n : Nat) :
    redSegment .fsum c h m va init k 0 n =
      (canonical f (orderedSum f m (activeValues c h va init k n)).1, (orderedSum f m (activeValues c h va init k n)).2) := by
  have hfmt : fmtEt c.et = f := by rw [fmtEt, hf]; rfl
  have hnodes : (List.range n).filterMap (fun i => if c.active h k (0 + i) then some (va.elem c.bits k (0 + i)) else none) =
      ((List.range n).filter fun x => c.active h k x).map fun x => va.elem c.bits k x := by
    rw [← List.filterMap_eq_map, List.filterMap_filter]
    exact List.filterMap_congr fun i _ => by rw [Nat.zero_add]; rfl
  have hseq : seqOf (redCombine .fsum c.et m) init ((List.range n).filterMap fun i => if c.active h k (0 + i) then some (va.elem c.bits k (0 + i)) else none) =
      if activeValues c h va init k n = [] then none else some (orderedSum f m (activeValues c h va init k n)) := by
    rw [hnodes, show redCombine .fsum c.et m = fpAdd f m by rw [← hfmt]; rfl, seqOf_fpAdd]
    rfl
  have hzero : canonical f 0 = 0 := by cases f <;> rfl
  unfold redSegment
  simp only [RedOp.isSeq, if_true, hseq]
  by_cases hnil : activeValues c h va init k n = []
  · simp only [hnil, if_true]
    rw [orderedSum, hzero]
    rfl
  · simp only [if_neg hnil, RedOp.isFloat, if_true, canonPat, hf]
    rfl

/-- Settles O28: the result of each row is the sum of its values in index order. -/
theorem orderedFloatingPointSum : Obligations.OrderedFloatingPointSum := by
  intro s d a b q f m hf hm hoff
  refine vecWrites_rowResults (i := .vfredsum d a b q) (w := wVfredsum d a b q) (op := .fsum) rfl rfl hoff
    (fun k => (canonical f (orderedSum f m (redInput s (pVfredsum d a b q) k)).1, (orderedSum f m (redInput s (pVfredsum d a b q) k)).2)) ?_
  intro hruns h e k hb h1 hvals
  obtain ⟨-, -, hcet, -⟩ := hruns.captured
  have hmode : e.mode = m := by rw [hb.mode, hm]; rfl
  rw [redSegment_fsum (by rw [hb.cap, hcet]; exact hf), hmode, hvals]
  rfl

end Sys2Proof.Machine
end

section
/-! SUPPORT. The refutation of O31: a core of a bound gang reads its A rows from the core at the head of its row, so an outer product leaves
the tag of its own register A (R580), where the statement has it relaid to the operand type. -/

namespace Sys2Proof.Machine
open Sys2Proof.Claims Sys2Proof.Tests

/-- Core 1 of a gang (MSTAT.GB set) with integer accumulators; its register 10 holds four 32-bit floating-point elements. -/
def gangCore : State :=
  let s := withV (shaped 2 4 1 (1#10 ||| 0x20#10 ||| 0x3C0#10)) 13 32 [(10, [1, 2, 3, 4])]
  { s with core := { s.core with num := 1 } }

/-- The integer outer product of registers 10 and 12 may begin at once there. -/
theorem runs_gangCore : Runs gangCore (pMopi 1 10 12 0 0 0) := run_of_ok (by decide +kernel)

/-- Register 10 keeps its type in the state that the outer product leaves. -/
theorem gangCore_keeps_tag {t : State} (ht : exec (.mopi 1 10 12 0 0 0) gangCore = .next t) : (t.h.vreg 10).et = 13#4 := by
  have heval : (match exec (.mopi 1 10 12 0 0 0) gangCore with | .next u => (u.h.vreg 10).et | _ => 0#4) = 13#4 := by decide +kernel
  rwa [ht] at heval

/-- The type that the statement gives register 10: that of the operands of the format, signed bytes. -/
theorem gangCore_relaid_tag :
    ([(10, (matFmt 6#3).et), (12, (matFmt 6#3).et)].foldl (fun (v : VReg) (x : VNum × ETCode) =>
      if x.1 = 10 then v.relaid x.2 (vtGroups gangCore.h.vtype) else v) (gangCore.h.vreg 10)).et ≠ 13#4 := by decide +kernel

/-- Refutes O31: OuterWrites has both operand registers relaid to the operand type, but the co-tile at core 1 of a gang takes its A rows from another
core and leaves its own register A as it stands (R580). -/
theorem not_fibreAndMatrixInstructionsComplete : ¬ Obligations.FibreAndMatrixInstructionsComplete := by
  unfold Obligations.FibreAndMatrixInstructionsComplete
  intro hall
  obtain ⟨-, -, -, -, -, -, -, -, hmopi, -⟩ := hall gangCore 0 0 0 10 12 0 0 0 0 0 0 1 0
  obtain ⟨t, ht, -, -, ⟨-, hrelaid⟩, -⟩ := hmopi 0#1 runs_gangCore
  refine gangCore_relaid_tag (Eq.trans ?_ (gangCore_keeps_tag ht))
  rw [hrelaid 10]
  rfl

end Sys2Proof.Machine
end

section
/-! SUPPORT. Tiles and their rows (R250), and the run of an outer product of one row at an idle hart (R572, R573). The statement O33. -/

namespace Sys2Proof.Machine
open Sys2Proof.Claims

/-! ### Elements of a tile -/

theorem tileRowGet_testBit (r : TileRow) (j i : Nat) : (tileRowGet r j).testBit i = (decide (i < 32) && r.getLsbD (32 * j + i)) := by
  rw [tileRowGet, BitVec.testBit_toNat, BitVec.getLsbD_extractLsb']

/-- Bit `n` of a tile row after element `j` is written. -/
theorem tileRowPut_getLsbD (r : TileRow) {j n : Nat} (v : Nat) (hn : n < 4096) : (tileRowPut r j v).getLsbD n =
    if 32 * j ≤ n ∧ n < 32 * j + 32 then v.testBit (n - 32 * j) else r.getLsbD n := by
  unfold tileRowPut
  by_cases hlow : 32 * j ≤ n
  · by_cases hhigh : n < 32 * j + 32
    · have hbit : n - 32 * j < 32 := by omega
      have hv : (BitVec.ofNat 32 v)[n - 32 * j] = v.testBit (n - 32 * j) := by
        rw [← BitVec.getLsbD_eq_getElem, BitVec.getLsbD_ofNat]
        simp [hbit]
      simp [hn, hlow, hhigh, hbit, hv, show ¬ n < 32 * j by omega, -BitVec.reduceSetWidth, -BitVec.reduceAllOnes]
    · have hv : (BitVec.ofNat 32 v).getLsbD (n - 32 * j) = false := BitVec.getLsbD_of_ge _ _ (by omega)
      simp [hn, hlow, hhigh, hv, show ¬ n < 32 * j by omega, show ¬ n - 32 * j < 32 by omega, -BitVec.reduceSetWidth, -BitVec.reduceAllOnes]
  · simp [hn, hlow, show n < 32 * j by omega]

/-- A read of an element after a write of one (R250). -/
theorem tileRowGet_tileRowPut (r : TileRow) (j f v : Nat) (hf : f < 128) :
    tileRowGet (tileRowPut r j v) f = if f = j then v % 2 ^ 32 else tileRowGet r f := by
  apply Nat.eq_of_testBit_eq
  intro i
  rw [tileRowGet_testBit]
  by_cases hi : i < 32
  · rw [tileRowPut_getLsbD _ _ (by omega)]
    by_cases hfj : f = j
    · subst hfj
      simp [hi, Nat.testBit_mod_two_pow, -Nat.reducePow]
    · rw [if_neg (by omega), if_neg hfj, tileRowGet_testBit]
  · by_cases hfj : f = j
    · simp [hi, hfj, Nat.testBit_mod_two_pow, -Nat.reducePow]
    · simp [hi, hfj, tileRowGet_testBit]

/-- A read of an element after the first `n` are replaced. -/
theorem tileRowGet_mapTileRow (g : Nat → Nat → Nat) (r : TileRow) (f : Nat) (hf : f < 128) :
    ∀ n, tileRowGet (mapTileRow g n r) f = if f < n then g f (tileRowGet r f) % 2 ^ 32 else tileRowGet r f
  | 0 => by simp [mapTileRow]
  | n + 1 => by
    rw [mapTileRow, tileRowGet_tileRowPut _ _ _ _ hf, tileRowGet_mapTileRow g r f hf n]
    by_cases hfn : f = n
    · subst hfn
      simp
    · by_cases hlt : f < n
      · simp [hfn, hlt, show f < n + 1 by omega]
      · simp [hfn, hlt, show ¬ f < n + 1 by omega]

theorem tileRowGet_lt (r : TileRow) (j : Nat) : tileRowGet r j < 2 ^ 32 := (r.extractLsb' (32 * j) 32).isLt

theorem Tile.get_of_lt (t : Tile) {i : Nat} (hi : i < 128) (j : Nat) : t.get i j = tileRowGet t[i] j := by simp [Tile.get, hi]

theorem State.setTile_tile (s : State) (n q : ANum) (t : Tile) : (s.setTile n t).core.tile q = if q = n then t else s.core.tile q := by
  unfold Core.tile State.setTile
  by_cases hq : q = n
  · subst hq
    simp
  · have hne : n.toNat ≠ q.toNat := fun h => hq (BitVec.eq_of_toNat_eq h.symm)
    simp [hq, Vector.getElem_set_ne _ _ hne]

/-- An element of a tile after one step of an outer product (R572, R573). -/
theorem outerStep_get (op : MatOp) (mf : MatFmt) (bs im : Bool) (r : StepRows) (rowp colp : Nat → Bool) (mr mc : Nat) (t : Tile) {i j : Nat} (hi : i < 128) (hj : j < 128) :
    (outerStep op mf bs im r rowp colp mr mc t).get i j =
      if i < mr ∧ rowp i = true ∧ j < mc ∧ colp j = true then outerElem op mf bs r (productsOf op im mf.k r i) i j (t.get i j) % 2 ^ 32 else t.get i j := by
  rw [Tile.get_of_lt _ hi, Tile.get_of_lt _ hi, outerStep, Vector.getElem_ofFn]
  by_cases hrow : i < mr ∧ rowp i = true
  · obtain ⟨hmr, hrp⟩ := hrow
    simp only [hmr, hrp, decide_true, Bool.and_self, if_true, true_and, tileRowGet_mapTileRow _ _ _ hj]
    by_cases hmc : j < mc
    · cases colp j
      · simp only [hmc, Bool.false_eq_true, if_true, if_false, and_false]
        exact Nat.mod_eq_of_lt (tileRowGet_lt _ _)
      · simp [hmc]
    · simp [hmc]
  · have hoff : (decide (i < mr) && rowp i) = false := by simpa using hrow
    simp only [hoff, Bool.false_eq_true, if_false]
    exact (if_neg fun h => hrow ⟨h.1, h.2.1⟩).symm

/-! ### Integer products -/

/-- A sum built from the left. -/
theorem foldl_add_eq_sum (l : List Nat) (g : Nat → Int) (a : Int) : l.foldl (fun t q => t + g q) a = a + (l.map g).sum := by
  induction l generalizing a with
  | nil => simp
  | cons q qs ih => rw [List.foldl_cons, ih, List.map_cons, List.sum_cons, add_assoc]

theorem wrap_lt (w : Nat) (i : Int) : wrap w i < 2 ^ w := by
  have hpos : (0 : Int) < 2 ^ w := by positivity
  have hlt := Int.emod_lt_of_pos i hpos
  have hnn := Int.emod_nonneg i hpos.ne'
  have hcast : ((2 ^ w : Nat) : Int) = 2 ^ w := by push_cast; rfl
  unfold wrap
  omega

/-- The new element of an integer step is the exact sum modulo 2^32 (R287). -/
theorem outerElem_opi (mf : MatFmt) (hint : mf.fp = false) (bs im : Bool) (r : StepRows) (i j old : Nat) :
    outerElem .opi mf bs r (productsOf .opi im mf.k r i) i j old % 2 ^ 32 =
      wrap 32 (Int.ofNat old + ((List.range mf.k).map fun q =>
        sval (etBits mf.et) (rowGet r.a (etBits mf.et) (i * mf.k + q)) * sval (etBits mf.et) (rowGet r.b (etBits mf.et) (j * mf.k + q))).sum) := by
  have hprod : productsOf .opi im mf.k r i = (List.range mf.k).map fun q => (q, q) := rfl
  simp only [outerElem, hint, Bool.false_eq_true, if_false, hprod, List.foldl_map, reduceCtorEq]
  rw [foldl_add_eq_sum (List.range mf.k), Nat.mod_eq_of_lt (wrap_lt _ _)]

theorem matFmt_int (f : BitVec 1) : (matFmt (3#2 ++ f)).fp = false := by
  revert f
  decide

/-! ### A retiring matrix instruction -/

/-- What a matrix instruction leaves that changes the tiles, MSTAT and vector registers and retires at an idle hart (R250). -/
theorem Begun.retires_tiles {s : State} {p : Posted} {h : Hart} {e : QEntry} (hb : Begun s p h e) (hs : s.h.queue = []) (hr : s.h.releases = [])
    {e2 : QEntry} (heid : e2.eid = e.eid) (v : Vector VReg 32) (m : BitVec 10) (ts : Vector Tile 4) {u : State}
    (hu : u = { s.mod (fun _ => { h with v := v, mstat := m }) with core := { s.core with tiles := ts } }) :
    let t := u.entryDone s.cur e2 none
    TileFrame s t m ∧ t.core.tiles = ts ∧ t.h.v = v ∧ t.h.fcsr = s.h.fcsr := by
  intro t
  obtain ⟨pc, c0, c1, pv, tok, hh⟩ := hb.only
  set h' : Hart := { h with v := v, mstat := m } with hh'
  obtain ⟨tok', hret⟩ := h'.retireEntry_none e2
  have hqueue : h'.queue.filter (·.eid != e2.eid) = [] := by simp [hh', hb.queue, heid]
  have hsettle : (h'.retireEntry e2 none).settleRows = { h' with queue := [], tok := tok' } := by
    rw [Hart.settleRows_none _ (by rw [hret, hh', hh]; exact hr), hret, hqueue]
  generalize hw : (u.modHart s.cur fun h => (h.retireEntry e2 none).settleRows) = w
  have huh : u.harts[s.cur] = h' := by rw [hu]; exact State.modHart_same s s.cur fun _ => h'
  have ht : t = w.serveLanes := congrArg State.serveLanes hw
  have hwh : w.harts[s.cur] = { h' with queue := [], tok := tok' } := by rw [← hw, State.modHart_same, huh, hsettle]
  have hth : t.h = { h' with queue := [], tok := tok' } := by
    have hcur : w.serveLanes.cur = s.cur := by rw [State.serveLanes_cur, ← hw, hu]; rfl
    rw [ht, State.h_of_cur hcur, State.serveLanes_still _ _ (by rw [hwh, hh', hh]; rfl), hwh]
  rw [hh', hh] at hth
  clear_value t
  refine ⟨⟨⟨?_, ?_, rfl, ?_, ?_, fun j hj => ?_⟩, ?_⟩, ?_, ?_, ?_⟩
  · rw [show ({ t with core := { t.core with tiles := s.core.tiles } } : State).h = t.h from rfl, hth]
    exact congrArg (fun q => { s.h with queue := q }) hs.symm
  · show t.mem = s.mem
    rw [ht, State.serveLanes_mem, ← hw, hu]
    rfl
  · show t.h.vstart = 0#32
    rw [hth]
  · show t.h.pfxNext = false
    rw [hth]
  · show { t.harts[j] with laneServed := s.harts[j].laneServed, vtype := s.harts[j].vtype } = s.harts[j]
    obtain ⟨b, vt, hj'⟩ := State.serveLanes_hart w j
    have hwj : w.harts[j] = s.harts[j] := by
      rw [← hw, State.modHart_other _ _ _ _ hj, hu]
      exact State.mod_other s j (fun _ => h') hj
    rw [ht, hj', hwj]
  · rw [hth]
  · rw [ht, State.serveLanes_tiles, ← hw, hu]
    rfl
  · rw [hth]
  · rw [hth]

/-! ### An outer product of one row -/

theorem State.aElsewhere_of_unbound {s : State} {i : Fin 4} (h : s.harts[i].gangBound = false) : s.aElsewhere i = false := by
  rw [State.aElsewhere, h, Bool.false_and]

theorem State.bElsewhere_of_unbound {s : State} {i : Fin 4} (h : s.harts[i].gangBound = false) : s.bElsewhere i = false := by
  rw [State.bElsewhere, h, Bool.false_and]

/-- The loop of an outer product of one row takes its one step and sets TIU (R250, R572). -/
theorem outerLoop_oneRow (i : Fin 4) (op : MatOp) (mrow mcol : BitVec 3) (mf : MatFmt) (bs : Bool) (u : State) (e : QEntry) (hrows : e.vrows = 1)
    (hprog : e.prog = 0) (hgang : u.harts[i].gangBound = false) :
    outerLoop i op mrow mcol mf bs (e.vrows + 1) u e =
      ((u.setTile e.acc (outerStep op mf bs (mcol == 0#3) (u.stepRows i mf mcol e 0) (fun x => (u.harts[i].mask mrow).bit 0 x)
        (fun x => if op = .ops then true else (u.harts[i].mask mcol).bit 0 x) u.harts[i].mr u.harts[i].mc (u.core.tile e.acc))).modHart i fun h => h.setTiu e.acc,
       { e with prog := 1 }) := by
  simp [outerLoop, hrows, hprog, State.aElsewhere_of_unbound hgang, State.bElsewhere_of_unbound hgang, -Fin.getElem_fin]

/-- Mask m0 holds at every element (R246). -/
theorem mask_zero_bit (h : Hart) {x : Nat} (hx : x < 2048) : (h.mask 0#3).bit 0 x = true := by
  simp [MReg.bit, hx, -BitVec.reduceAllOnes]

/-- An integer outer product reads its two operand registers (R570). -/
theorem Hart.relayOuter_opi (h : Hart) (mf : MatFmt) (im : Bool) (e : QEntry) :
    h.relayOuter mf false im false false .opi e = h.relayAll mf.et (vtGroups e.vtype) [e.post.a, e.post.b] := by
  simp [Hart.relayOuter]

section
variable {s : State} {n : BitVec 2} {a b : BitVec 5} {f : BitVec 1}

/-- The accumulator that one step of `mopi` under m0 makes of its hart's registers (R572). -/
def mopiTile (n : BitVec 2) (f : BitVec 1) (u : State) (e : QEntry) : Tile :=
  outerStep .opi (matFmt (3#2 ++ f)) false true (u.stepRows u.cur (matFmt (3#2 ++ f)) 0#3 e 0) (fun x => (u.h.mask 0#3).bit 0 x)
    (fun x => (u.h.mask 0#3).bit 0 x) u.h.mr u.h.mc (u.core.tile n)

/-- The state in which `mopi` of one row ends. -/
theorem runMat_mopi {h h1 : Hart} {e : QEntry} (hb : Begun s (pMopi n a b 0#3 0#3 f) h e) (hgang : s.h.gangBound = false) (hrows : s.h.vrows = 1)
    (hh1 : h.relayAll (matFmt (3#2 ++ f)).et (vtGroups s.h.vtype) [a, b] = h1) :
    runMat .opi 0#3 0#3 (3#2 ++ f) false s.cur e (s.mod fun _ => h) =
      .done (((s.mod fun _ => h1).setTile n (mopiTile n f (s.mod fun _ => h1) e)).mod fun h => h.setTiu n) { e with prog := 1 } := by
  obtain ⟨pc, c0, c1, pv, tok, hh⟩ := hb.only
  have hacc : e.acc = n := by
    rw [QEntry.acc, hb.post]
    show (n.setWidth 5).setWidth 2 = n
    ext; simp
  have hunbound (g : Hart) (hm : g.mstat = s.h.mstat) : (s.mod fun _ => g).harts[s.cur].gangBound = false := by
    rw [State.mod, State.modHart_same, Hart.gangBound, hm]
    exact hgang
  have hg : (s.mod fun _ => h).harts[s.cur].gangBound = false := hunbound h (by rw [hh])
  have hg1 : (s.mod fun _ => h1).harts[s.cur].gangBound = false := by
    obtain ⟨v, hv⟩ := h.relayAll_only (matFmt (3#2 ++ f)).et (vtGroups s.h.vtype) [a, b]
    exact hunbound h1 (by rw [← hh1, hv, hh])
  have hrelay : (s.mod fun _ => h).modHart s.cur
      (fun h => h.relayOuter (matFmt (3#2 ++ f)) false ((0#3 : BitVec 3) == 0#3) false false .opi e) = s.mod fun _ => h1 := by
    simp only [Hart.relayOuter_opi, hb.post, hb.vtype, ← hh1]
    exact State.mod_mod s _ _
  have hloop := outerLoop_oneRow s.cur .opi 0#3 0#3 (matFmt (3#2 ++ f)) false (s.mod fun _ => h1) e (hb.vrows.trans hrows) hb.prog hg1
  simp only [runMat, runOuter, State.aElsewhere_of_unbound hg, State.bElsewhere_of_unbound hg, hrelay, hloop, hacc]
  rfl

/-- The element that a step reads of a register relaid to its type. -/
theorem stepRows_own {u : State} {e : QEntry} {mf : MatFmt} (hg : u.h.gangBound = false) (k : Nat) :
    (u.stepRows u.cur mf 0#3 e k).a = (u.h.readAs e.post.a mf.et (vtGroups e.vtype)).readRow k ∧
    (u.stepRows u.cur mf 0#3 e k).b = (u.h.readAs e.post.b mf.et (vtGroups e.vtype)).readRow k := by
  have ha : u.aElsewhere u.cur = false := State.aElsewhere_of_unbound hg
  have hb : u.bElsewhere u.cur = false := State.bElsewhere_of_unbound hg
  simp only [State.stepRows, ha, hb, Bool.false_eq_true, if_false]
  exact ⟨rfl, rfl⟩

/-- The registers that `mopi` reads, relaid once. -/
theorem Begun.mopi_readAs {h : Hart} {e : QEntry} (hb : Begun s (pMopi n a b 0#3 0#3 f) h e) (et : ETCode) {r : VNum} (hr : r ∈ [a, b]) :
    (h.relayAll et (vtGroups s.h.vtype) [a, b]).readAs r et (vtGroups s.h.vtype) = (s.h.vreg r).relaid et (vtGroups s.h.vtype) := by
  obtain ⟨pc, c0, c1, pv, tok, hh⟩ := hb.only
  rw [Hart.readAs, Hart.relayAll_vreg, if_pos hr, VReg.relaid_relaid, hh]
  rfl

/-- An element of the accumulator after `mopi`. -/
theorem mopiTile_get {h h1 : Hart} {e : QEntry} (hb : Begun s (pMopi n a b 0#3 0#3 f) h e) (hgang : s.h.gangBound = false)
    (hh1 : h.relayAll (matFmt (3#2 ++ f)).et (vtGroups s.h.vtype) [a, b] = h1) {i j : Nat} (hi : i < 128) (hj : j < 128) :
    let mf := matFmt (3#2 ++ f)
    let el (v : VNum) (e : Nat) : Int := sval (etBits mf.et) (rowGet (((s.h.vreg v).relaid mf.et (vtGroups s.h.vtype)).readRow 0) (etBits mf.et) e)
    (mopiTile n f (s.mod fun _ => h1) e).get i j =
      if i < s.h.mr ∧ j < s.h.mc then
        wrap 32 (Int.ofNat ((s.core.tile n).get i j) + ((List.range mf.k).map fun q => el a (i * mf.k + q) * el b (j * mf.k + q)).sum)
      else (s.core.tile n).get i j := by
  intro mf el
  obtain ⟨pc, c0, c1, pv, tok, hh⟩ := hb.only
  obtain ⟨v, hv⟩ := h.relayAll_only mf.et (vtGroups s.h.vtype) [a, b]
  have hh1' : h1 = { h with v := v } := hh1.symm.trans hv
  have huh : (s.mod fun _ => h1).h = h1 := State.mod_h s fun _ => h1
  have hmr : h1.mr = s.h.mr := by rw [hh1', hh]; rfl
  have hmc : h1.mc = s.h.mc := by rw [hh1', hh]; rfl
  have hg1 : (s.mod fun _ => h1).h.gangBound = false := by rw [huh, hh1', hh]; exact hgang
  have hread {r : VNum} (hr : r ∈ [a, b]) : h1.readAs r mf.et (vtGroups s.h.vtype) = (s.h.vreg r).relaid mf.et (vtGroups s.h.vtype) := by
    rw [← hh1]
    exact hb.mopi_readAs mf.et hr
  obtain ⟨hrowa, hrowb⟩ := stepRows_own (e := e) (mf := mf) hg1 0
  rw [huh, hb.post, hb.vtype] at hrowa hrowb
  rw [show (pMopi n a b 0#3 0#3 f).a = a from rfl, hread (by simp)] at hrowa
  rw [show (pMopi n a b 0#3 0#3 f).b = b from rfl, hread (by simp)] at hrowb
  rw [mopiTile, outerStep_get _ _ _ _ _ _ _ _ _ _ hi hj, huh, mask_zero_bit _ (by omega), mask_zero_bit _ (by omega), hmr, hmc,
    outerElem_opi _ (matFmt_int f), hrowa, hrowb]
  simp only [true_and, and_true]
  rfl

end

/-- Settles O33: the one step of the loop makes each element the exact sum of its products, and the instruction retires. -/
theorem integerOuterProduct : Obligations.IntegerOuterProduct := by
  unfold Obligations.IntegerOuterProduct
  intro s n a b f hruns hgang hrows hvstart mf el
  obtain ⟨hb, hbegun⟩ := hruns.begun
  have hbegun : (s.begun (pMopi n a b 0#3 0#3 f)).1 = s.mod fun _ => (s.begun (pMopi n a b 0#3 0#3 f)).1.h := hbegun
  generalize hh : (s.begun (pMopi n a b 0#3 0#3 f)).1.h = h at hb hbegun
  generalize he : (s.begun (pMopi n a b 0#3 0#3 f)).2 = e at hb
  obtain ⟨pc, c0, c1, pv, tok, honly⟩ := hb.only
  obtain ⟨v, hv⟩ := h.relayAll_only mf.et (vtGroups s.h.vtype) [a, b]
  have hvreg (q : VNum) (hq : q ∉ [a, b]) : ({ h with v := v } : Hart).vreg q = s.h.vreg q := by
    rw [← hv, Hart.relayAll_vreg, if_neg hq, honly]
    rfl
  have hmstat : s.h.mstat = h.mstat := by rw [honly]
  have hrun := runMat_mopi hb hgang hrows hv
  generalize hT : mopiTile n f (s.mod fun _ => { h with v := v }) e = T at hrun
  generalize hu : ((s.mod fun _ => { h with v := v }).setTile n T).mod (fun h => h.setTiu n) = u at hrun
  have hend : u = { s.mod (fun _ => { h with v := v, mstat := s.h.mstat ||| tiuBit n }) with core := { s.core with tiles := s.core.tiles.set n.toNat T n.isLt } } := by
    rw [← hu, hmstat]
    simp [State.mod, State.modHart, State.setTile, Hart.setTiu, tiuBit]
  obtain ⟨-, -, h0, -, -, hrel⟩ := id hruns
  obtain ⟨hframe, htiles, htv, htfcsr⟩ := hb.retires_tiles h0 hrel (e2 := { e with prog := 1 }) rfl v _ _ hend
  have hbody : bodyRun s.cur (s.begun (pMopi n a b 0#3 0#3 f)).2.total (s.begun (pMopi n a b 0#3 0#3 f)).2 (s.begun (pMopi n a b 0#3 0#3 f)).1 =
      (.done u { e with prog := 1 }, none) := by
    have hmat : bodyRun s.cur e.total e (s.mod fun _ => h) = (runMat .opi 0#3 0#3 (3#2 ++ f) false s.cur e (s.mod fun _ => h), none) := by
      rw [bodyRun, hb.post]
      rfl
    rw [he, hbegun, hmat, hrun]
  have hempty : (u.harts[s.cur].queue.filter fun y => y.eid != e.eid) = [] := by
    have huh : u.harts[s.cur] = ({ h with v := v } : Hart).setTiu n := by
      rw [← hu]
      exact (State.modHart_same _ s.cur _).trans (congrArg (·.setTiu n) (State.modHart_same s s.cur fun _ => { h with v := v }))
    rw [huh]
    simp [Hart.setTiu, hb.queue]
  have htile (q : ANum) : ((u.entryDone s.cur { e with prog := 1 } none).core.tile q) = if q = n then T else s.core.tile q := by
    rw [← State.setTile_tile, Core.tile, Core.tile, htiles]
    rfl
  refine ⟨_, (issue_runsTo (hruns.runsTo hbody hempty) : exec (.mopi n a b 0#3 0#3 f) s = _), hframe, ⟨htfcsr, fun q hq => ?_⟩, fun q hq => ?_, fun i j hi hj => ?_⟩
  · rw [← hvreg q hq, Hart.vreg, htv]
    rfl
  · rw [htile, if_neg hq]
  · rw [htile, if_pos rfl, ← hT, mopiTile_get hb hgang hv hi hj]

end Sys2Proof.Machine
end

section
/-! SUPPORT. Accesses of one instruction to plain storage (R293 to R322, R327): the bytes that it writes hold no table entry, so what is plain to it when it begins
stays plain through its own stores; loads, stores and atomics then give and write the bytes where they lie. -/

namespace Sys2Proof.Machine
open Sys2Proof.Claims

/-! ### Pages that an instruction's own stores leave -/

/-- The tables of a context and every TLB translate a page alike, through sound entries that hold none of the bytes `D`. -/
structure State.PageFor (s : State) (ctx : Nat) (D : Nat → Prop) (c : Context) (e : TlbEntry) : Prop where
  live : s.ctx ctx = some c
  walk : s.Translates ctx e
  hit : ∀ v, e.va ≤ v → v < e.va + e.size → ∀ x ∈ s.tlbHits c.asid v, x = e
  reads : ∀ v, e.va ≤ v → v < e.va + e.size → ∀ q ∈ (s.walkAll ctx v).2, Sound s q 8 ∧ ∀ a, q ≤ a → a < q + 8 → ¬ D a

/-- `PlainAt` as the accesses of a context meet it, whichever hart makes them. -/
inductive State.PlainFor (s : State) (ctx : Nat) (lvl : Level) (D : Nat → Prop) (va n : Nat) (kind : AccKind) (path : AccPath) : Nat → Prop
  | spad (b : Bank) (hlo : spadBase ≤ va) (hhi : va < spadBase + 2 ^ 25) (hk : kind ≠ .fetch) (hb : s.bank s.die ((va - spadBase) / 2 ^ 18) = some b)
      (hbusy : b.busy = false) (hcur : b.cur = .spad) : State.PlainFor s ctx lvl D va n kind path (spadKey s.die (va - spadBase))
  | page (c : Context) (e : TlbEntry) (hva : va < 2 ^ 48) (hpage : s.PageFor ctx D c e) (hlo : e.va ≤ va) (hhi : va < e.va + e.size) (henc : e.enc = false)
      (hp : e.p = false) (hallow : s.pageAllows e lvl kind path va n = true) (hend : e.pa + (va - e.va) + n ≤ hbmEnd) :
      State.PlainFor s ctx lvl D va n kind path (e.pa + (va - e.va))

theorem plainFor_of_plainAt {s : State} {lvl : Level} {D : Nat → Prop} {va n k : Nat} {kind : AccKind} {path : AccPath} (h : PlainAt s lvl D va n kind path k) :
    0 < n ∧ va % 4096 + n ≤ 4096 ∧ s.PlainFor s.h.ctxid.toNat lvl D va n kind path k := by
  obtain ⟨hn, hpage, ⟨hlo, hhi, hk, hkey, b, hb, hbusy, hcur⟩ | ⟨hva, c, e, hc, hlo, hhi, henc, hp, hallow, hkey, hend, hwalk⟩⟩ := h <;> rw [hkey]
  · exact ⟨hn, hpage, .spad b hlo hhi hk hb hbusy hcur⟩
  · exact ⟨hn, hpage, .page c e hva ⟨hc, fun v h1 h2 => (hwalk v h1 h2).1, fun v h1 h2 => (hwalk v h1 h2).2.1, fun v h1 h2 => (hwalk v h1 h2).2.2⟩
      hlo hhi henc hp hallow (hkey ▸ hend)⟩

/-! ### States that accesses lead to -/

/-- A state that loads and stores of context `ctx` have led to: of the storage only bytes `D` differ, no further word is uncorrectable, and the TLBs
translate the pages of plain storage as before. What the harts hold is left open, and what waits in the combining store. -/
structure State.Reached (D : Nat → Prop) (ctx : Nat) (s t : State) : Prop where
  frame : ∃ hs m tlb dc a b f sc,
    t = { s with harts := hs, mem := m, core := { s.core with tlb := tlb, dcache := dc, copyLast := a, fibLast := b }, free := f, sched := sc }
  mem : ∃ cells ways ecc dt sca, t.mem = { s.mem with cells := cells, ways := ways, eccBad := ecc, dieTlb := dt, sca := sca }
  cells : ∀ a, ¬ D a → cellGet t.mem.cells a = cellGet s.mem.cells a
  wf : s.mem.wf = true → t.mem.wf = true
  tainted : ∀ w, t.mem.Tainted w → s.mem.Tainted w
  hits : ∀ c e, s.PageFor ctx D c e → ∀ v, e.va ≤ v → v < e.va + e.size → ∀ x ∈ t.tlbHits c.asid v, x = e

theorem State.Reached.refl (D : Nat → Prop) (ctx : Nat) (s : State) : s.Reached D ctx s :=
  ⟨⟨_, _, _, _, _, _, _, _, rfl⟩, ⟨_, _, _, _, _, rfl⟩, fun _ _ => rfl, id, fun _ => id, fun _ _ h => h.hit⟩

theorem cellRead_congr {cs cs' : List Host.Cell} {k : Nat} : ∀ {n : Nat}, (∀ a, k ≤ a → a < k + n → cellGet cs' a = cellGet cs a) → cellRead cs' k n = cellRead cs k n
  | 0, _ => rfl
  | n + 1, h => by
    have htail := cellRead_congr (k := k + 1) (n := n) fun a h1 h2 => h a (by omega) (by omega)
    rw [cellRead, cellRead, htail, h k (Nat.le_refl k) (by omega)]

/-- A walk through sound entries is the same in a memory where those entries stand. -/
theorem walkFrom_agrees {m m' : Memory} (ht : ∀ w, m'.Tainted w → m.Tainted w) (enc surv : Bool) (asid : BitVec 16) (va : Nat) : ∀ (lvl pa : Nat),
    (∀ q ∈ (walkFrom m enc surv asid va lvl pa).2, (∀ w ∈ wordsOf q 8, ¬ m.Tainted w) ∧ m'.rawUnit q 8 = m.rawUnit q 8) →
    walkFrom m' enc surv asid va lvl pa = walkFrom m enc surv asid va lvl pa := by
  intro lvl
  induction lvl with
  | zero =>
    intro pa hs
    obtain ⟨hk, hraw⟩ := hs _ (head_mem_walkFrom m enc surv asid va 0 pa)
    have hk' := fun w hw hw' => hk w hw (ht w hw')
    unfold walkFrom
    simp only [eccHit_none hk, eccHit_none hk', hraw]
  | succ l ih =>
    intro pa hs
    obtain ⟨hk, hraw⟩ := hs _ (head_mem_walkFrom m enc surv asid va (l + 1) pa)
    have hk' := fun w hw hw' => hk w hw (ht w hw')
    unfold walkFrom at hs ⊢
    simp only [eccHit_none hk, eccHit_none hk', hraw, Option.isSome_none, Bool.false_eq_true, if_false] at hs ⊢
    split
    · rfl
    · rename_i hok
      rw [if_neg hok] at hs
      split
      · rename_i htable
        rw [if_pos htable] at hs
        rw [ih _ fun q hq => hs q (List.mem_cons_of_mem _ hq)]
      · rfl

/-- Bytes written in the storage change the memory, reservations and the data cache alone. -/
theorem State.pokeKey_frame (s : State) (own : Bool) (k : Nat) (bs : List Byte) : ∃ hs dc, s.pokeKey own k bs =
    { s with harts := hs, mem := (s.mem.touchWrite k bs.length).poke k bs, core := { s.core with dcache := dc } } := by
  unfold State.pokeKey
  dsimp only
  split
  · obtain ⟨d, hd⟩ := State.touchDcache_frame (State.loseReservations { s with mem := (s.mem.touchWrite k bs.length).poke k bs } k bs.length) k bs
    rw [hd]
    exact ⟨_, _, rfl⟩
  · exact ⟨_, _, rfl⟩

section
variable {D : Nat → Prop} {ctx : Nat} {s t u : State} (h : s.Reached D ctx t)
include h

theorem State.Reached.ctx_eq (n : Nat) : t.ctx n = s.ctx n := by
  obtain ⟨⟨_, _, _, _, _, _, _, _, rfl⟩, _⟩ := h
  rfl

theorem State.Reached.sealed_eq : t.mem.sealed = s.mem.sealed := by
  obtain ⟨_, ⟨_, _, _, _, _, hm⟩, _⟩ := h
  rw [hm]

theorem State.Reached.spad_bank (i : Nat) : t.die = s.die ∧ t.bank s.die i = s.bank s.die i := by
  have hdie : t.die = s.die := by
    obtain ⟨⟨_, _, _, _, _, _, _, _, rfl⟩, _⟩ := h
    rfl
  obtain ⟨cells, ways, ecc, dt, sca, hm⟩ := h.mem
  exact ⟨hdie, by rw [State.bank, State.bank, hm]⟩

theorem State.Reached.sound {k n : Nat} (hs : Sound s k n) : Sound t k n :=
  sound_iff.mpr fun w hw ht => sound_iff.mp hs w hw (h.tainted w ht)

/-- The entries that a page's walk reads stand, so it is what it was. -/
theorem State.Reached.walkAll_eq (hseal : s.mem.sealed = []) {c : Context} {e : TlbEntry} (hp : s.PageFor ctx D c e) {v : Nat} (hlo : e.va ≤ v)
    (hhi : v < e.va + e.size) : t.walkAll ctx v = s.walkAll ctx v := by
  have hreads := hp.reads v hlo hhi
  have hfeat (k : Nat) : t.feat k = s.feat k := by
    obtain ⟨⟨_, _, _, _, _, _, _, _, rfl⟩, _⟩ := h
    rfl
  unfold State.walkAll at hreads ⊢
  rw [h.ctx_eq, hfeat, hfeat]
  rw [hp.live] at hreads ⊢
  by_cases hv : c.valid = true
  · simp only [hv, if_true] at hreads ⊢
    refine walkFrom_agrees h.tainted _ _ _ _ _ _ fun q hq => ?_
    obtain ⟨hsound, hout⟩ := hreads q hq
    refine ⟨sound_iff.mp hsound, ?_⟩
    rw [Memory.rawUnit_open (h.sealed_eq.trans hseal), Memory.rawUnit_open hseal]
    exact cellRead_congr fun a h1 h2 => h.cells a (hout a h1 h2)
  · simp only [hv, Bool.false_eq_true, if_false]

theorem State.Reached.translates (hseal : s.mem.sealed = []) {c : Context} {e : TlbEntry} (hp : s.PageFor ctx D c e) : t.Translates ctx e := fun v hlo hhi => by
  rw [State.walk, h.walkAll_eq hseal hp hlo hhi]
  exact hp.walk v hlo hhi

/-- What was plain to an instruction is plain where its accesses have led. -/
theorem State.Reached.plainFor (hseal : s.mem.sealed = []) {lvl : Level} {va n k : Nat} {kind : AccKind} {path : AccPath}
    (hpl : s.PlainFor ctx lvl D va n kind path k) : t.PlainFor ctx lvl D va n kind path k := by
  cases hpl with
  | spad b hlo hhi hk hb hbusy hcur =>
    obtain ⟨hdie, hbank⟩ := h.spad_bank ((va - spadBase) / 2 ^ 18)
    rw [← hdie]
    exact .spad b hlo hhi hk (by rw [hdie, hbank, hb]) hbusy hcur
  | page c e hva hpage hlo hhi henc hp hallow hend =>
    refine .page c e hva ⟨(h.ctx_eq ctx).trans hpage.live, h.translates hseal hpage, h.hits c e hpage, fun v h1 h2 q hq => ?_⟩ hlo hhi henc hp ?_ hend
    · rw [h.walkAll_eq hseal hpage h1 h2] at hq
      exact ⟨h.sound (hpage.reads v h1 h2 q hq).1, (hpage.reads v h1 h2 q hq).2⟩
    · rw [State.pageAllows_unprotected s t hp]
      exact hallow

/-- Looking up ways and keeping translations leads to no other state. -/
theorem State.Reached.touched (hseal : s.mem.sealed = []) (hu : t.Touched ctx u) : s.Reached D ctx u := by
  have hcells := hu.cells_eq
  have hctx (c : Context) (e : TlbEntry) (hp : s.PageFor ctx D c e) (v : Nat) (hlo : e.va ≤ v) (hhi : v < e.va + e.size) :
      ∀ x ∈ u.tlbHits c.asid v, x = e := fun x hx =>
    hu.hit_eq (h.translates hseal hp v hlo hhi) (h.hits c e hp v hlo hhi) x hx
  obtain ⟨dt, hm⟩ := hu.mem
  refine ⟨?_, ?_, fun a ha => by rw [hcells, h.cells a ha], fun hwf => ?_, fun w hw => h.tainted w (hm.tainted w hw), hctx⟩
  · obtain ⟨_, _, _, _, _, _, _, _, rfl⟩ := h.frame
    obtain ⟨_, _, rfl⟩ := hu.frame
    exact ⟨_, _, _, _, _, _, _, _, rfl⟩
  · obtain ⟨_, _, _, _, _, ht⟩ := h.mem
    obtain ⟨_, _, hm⟩ := hm.frame
    rw [hm, ht]
    exact ⟨_, _, _, _, _, rfl⟩
  · rw [Memory.wf, hcells]
    exact h.wf hwf

/-- What the harts hold, and what the machine draws, is no matter. -/
theorem State.Reached.withHarts (hs : Vector Hart 4) : s.Reached D ctx { t with harts := hs } := by
  obtain ⟨⟨_, _, _, _, _, _, _, _, rfl⟩, hm, hc, hw, ht, hh⟩ := h
  exact ⟨⟨_, _, _, _, _, _, _, _, rfl⟩, hm, hc, hw, ht, hh⟩

theorem State.Reached.modHart (i : Fin 4) (f : Hart → Hart) : s.Reached D ctx (t.modHart i f) := h.withHarts _

theorem State.Reached.served (i : Fin 4) (eng : Engine) : s.Reached D ctx (t.served i eng) := by
  obtain ⟨⟨_, _, _, _, _, _, _, _, rfl⟩, hm, hc, hw, ht, hh⟩ := h
  cases eng <;> exact ⟨⟨_, _, _, _, _, _, _, _, rfl⟩, hm, hc, hw, ht, hh⟩

theorem State.Reached.tick : s.Reached D ctx t.tick := by
  obtain ⟨⟨_, _, _, _, _, _, _, _, rfl⟩, hm, hc, hw, ht, hh⟩ := h
  exact ⟨⟨_, _, _, _, _, _, _, _, rfl⟩, hm, hc, hw, ht, hh⟩

theorem State.Reached.drawTicket : s.Reached D ctx t.drawTicket := by
  obtain ⟨⟨_, _, _, _, _, _, _, _, rfl⟩, hm, hc, hw, ht, hh⟩ := h
  exact ⟨⟨_, _, _, _, _, _, _, _, rfl⟩, hm, hc, hw, ht, hh⟩

/-- A store of bytes `D` leads to another. -/
theorem State.Reached.pokeKey {k : Nat} {bs : List Byte} (hwf : s.mem.wf = true) (hD : ∀ a, k ≤ a → a < k + bs.length → D a) (own : Bool) :
    s.Reached D ctx (t.pokeKey own k bs) := by
  have htouch := t.mem.touchWrite_touched k bs.length
  obtain ⟨hs, dc, hpoke⟩ := t.pokeKey_frame own k bs
  have hmem : (t.pokeKey own k bs).mem = (t.mem.touchWrite k bs.length).poke k bs := t.pokeKey_mem own k bs
  have hcells : (t.pokeKey own k bs).mem.cells = cellWrite t.mem.cells k bs := by rw [hmem, Memory.poke, htouch.cells]
  have htlb (asid : BitVec 16) (v : Nat) : (t.pokeKey own k bs).tlbHits asid v = t.tlbHits asid v := by
    obtain ⟨⟨ways, ecc, hm⟩, _⟩ := htouch
    rw [hpoke, hm]
    rfl
  refine ⟨?_, ?_, fun a ha => ?_, fun _ => ?_, fun w hw => h.tainted w (htouch.tainted w ?_), fun c e hp v h1 h2 => by rw [htlb]; exact h.hits c e hp v h1 h2⟩
  · obtain ⟨_, _, _, _, _, _, _, _, rfl⟩ := h.frame
    exact ⟨_, _, _, _, _, _, _, _, hpoke⟩
  · obtain ⟨_, _, _, _, _, ht⟩ := h.mem
    obtain ⟨⟨_, _, hm⟩, _⟩ := htouch
    rw [hmem, hm, ht]
    exact ⟨_, _, _, _, _, rfl⟩
  · rw [hcells, cellGet_cellWrite_outside bs (h.wf hwf) (by_contra fun hin => ha (hD a (by omega) (by omega))), h.cells a ha]
  · rw [Memory.wf, hcells]
    exact cellsAbove_cellWrite bs (h.wf hwf)
  · rw [hmem] at hw
    rcases hw with hw | ⟨l, hl, hw⟩
    · exact .inl (List.mem_of_mem_filter hw)
    · obtain ⟨l', hl', rfl⟩ := List.mem_map.mp hl
      exact .inr ⟨l', hl', List.mem_of_mem_filter hw⟩

end

/-! ### Bytes of one page -/

theorem pageSize_mod (lvl : Nat) (c : Bool) : pageSize lvl c % 4096 = 0 := by
  unfold pageSize
  split_ifs <;> rfl

/-- A page begins and ends at multiples of 4 KiB. -/
theorem walkFrom_aligned {m : Memory} {enc surv : Bool} {asid : BitVec 16} {va : Nat} {e : TlbEntry} : ∀ {lvl pa : Nat},
    (walkFrom m enc surv asid va lvl pa).1 = .page e → e.va % 4096 = 0 ∧ e.size % 4096 = 0 := by
  have hleaf {lvl : Nat} {c : Bool} : va / pageSize lvl c * pageSize lvl c % 4096 = 0 ∧ pageSize lvl c % 4096 = 0 :=
    ⟨by rw [Nat.mul_mod, pageSize_mod, Nat.mul_zero, Nat.zero_mod], pageSize_mod lvl c⟩
  intro lvl
  induction lvl with
  | zero =>
    intro pa h
    unfold walkFrom at h
    dsimp only at h
    repeat' split at h
    all_goals cases h
    all_goals exact hleaf
  | succ l ih =>
    intro pa h
    unfold walkFrom at h
    dsimp only at h
    split at h
    · cases h
    · split at h
      · cases h
      · split at h
        · exact ih h
        · repeat' split at h
          all_goals cases h
          all_goals exact hleaf

/-- An address in the 4 KiB page of another that an entry translates. -/
theorem State.Translates.within {s : State} {ctx : Nat} {e : TlbEntry} (h : s.Translates ctx e) {va va' : Nat} (hlo : e.va ≤ va) (hhi : va < e.va + e.size)
    (hpage : va' / 4096 = va / 4096) : e.va ≤ va' ∧ va' < e.va + e.size := by
  have hw := h va hlo hhi
  unfold State.walk State.walkAll at hw
  split at hw
  · cases hw
  · split at hw
    · obtain ⟨h1, h2⟩ := walkFrom_aligned hw
      omega
    · cases hw

/-- Below the end of HBM the conditions on an unprotected page are the same for all its bytes (R302). -/
theorem State.pageAllows_hbm (s : State) {e : TlbEntry} (hp : e.p = false) (lvl : Level) (kind : AccKind) (path : AccPath) {va va' n n' : Nat}
    (h : e.pa + (va - e.va) < hbmEnd) (h' : e.pa + (va' - e.va) < hbmEnd) : s.pageAllows e lvl kind path va' n' = s.pageAllows e lvl kind path va n := by
  simp [State.pageAllows, hp, h, h']

section
variable {s : State} {ctx : Nat} {lvl : Level} {D : Nat → Prop} {va n k : Nat} {kind : AccKind} {path : AccPath}

/-- Bytes within plain ones are plain. -/
theorem State.PlainFor.within (h : s.PlainFor ctx lvl D va n kind path k) (hpage : va % 4096 + n ≤ 4096) {o m : Nat} (hm : 0 < m) (ho : o + m ≤ n) :
    s.PlainFor ctx lvl D (va + o) m kind path (k + o) := by
  cases h with
  | spad b hlo hhi hk hb hbusy hcur =>
    have hkey : spadKey s.die (va - spadBase) + o = spadKey s.die (va + o - spadBase) := by unfold spadKey; omega
    have hbank : (va + o - spadBase) / 2 ^ 18 = (va - spadBase) / 2 ^ 18 := by unfold spadBase at hlo ⊢; omega
    rw [hkey]
    refine .spad b (by omega) ?_ hk (by rw [hbank, hb]) hbusy hcur
    unfold spadBase at hhi ⊢
    omega
  | page c e hva hp hlo hhi henc hprot hallow hend =>
    obtain ⟨hlo', hhi'⟩ := hp.walk.within hlo hhi (va' := va + o) (by omega)
    rw [show e.pa + (va - e.va) + o = e.pa + (va + o - e.va) by omega]
    refine .page c e ?_ hp hlo' hhi' henc hprot ?_ (by omega)
    · have : va / 4096 < 2 ^ 36 := by omega
      omega
    · rw [s.pageAllows_hbm hprot lvl kind path (va := va) (n := n) (by omega) (by omega)]
      exact hallow

theorem State.PlainFor.va_lt (h : s.PlainFor ctx lvl D va n kind path k) : va < 2 ^ 63 := by
  cases h with
  | spad b hlo hhi hk hb hbusy hcur => unfold spadBase at hhi; omega
  | page c e hva hp hlo hhi henc hprot hallow hend => exact Nat.lt_trans hva (by decide)

/-- Bytes of one page that are plain each lie side by side. -/
theorem State.PlainFor.join {ks : Nat → Nat} (h : ∀ o, o < n → s.PlainFor ctx lvl D (va + o) 1 kind path (ks o)) (hn : 0 < n) (hpage : va % 4096 + n ≤ 4096) :
    s.PlainFor ctx lvl D va n kind path (ks 0) ∧ ∀ o, o < n → ks o = ks 0 + o := by
  have h0 := h 0 hn
  rw [Nat.add_zero] at h0
  generalize hk0 : ks 0 = k0 at h0
  cases h0 with
  | spad b hlo hhi hk hb hbusy hcur =>
    refine ⟨.spad b hlo hhi hk hb hbusy hcur, fun o ho => ?_⟩
    have hko := h o ho
    generalize ks o = k at hko
    cases hko with
    | spad b' hlo' hhi' hk' hb' hbusy' hcur' => unfold spadKey; omega
    | page c e hva hp hlo' hhi' henc hprot hallow hend => unfold spadBase at hlo; omega
  | page c e hva hp hlo hhi henc hprot hallow hend =>
    have hkeys : ∀ o, o < n → ks o = e.pa + (va - e.va) + o ∧ e.pa + (va - e.va) + o + 1 ≤ hbmEnd := by
      intro o ho
      have hko := h o ho
      obtain ⟨hlo', hhi'⟩ := hp.walk.within hlo hhi (va' := va + o) (by omega)
      generalize ks o = k at hko
      cases hko with
      | spad b hlo'' hhi'' hk'' hb hbusy hcur => unfold spadBase at hlo''; omega
      | page c' e' hva' hp' hlo'' hhi'' henc' hprot' hallow' hend' =>
        obtain rfl : e = e' := WalkResult.page.inj ((hp.walk _ hlo' hhi').symm.trans (hp'.walk _ hlo'' hhi''))
        exact ⟨by omega, by omega⟩
    have hlast := (hkeys (n - 1) (by omega)).2
    refine ⟨.page c e hva hp hlo hhi henc hprot ?_ (by omega), fun o ho => (hkeys o ho).1⟩
    rw [s.pageAllows_hbm hprot lvl kind path (va := va) (n := 1) (by omega) (by omega)]
    exact hallow

end

section
variable {s : State} {ctx : Nat} {lvl : Level} {D : Nat → Prop} {va n : Nat} {kind : AccKind} {path : AccPath}

theorem State.PlainFor.plain {k : Nat} (h : s.PlainFor ctx lvl D va n kind path k) : s.Plain ctx lvl va n kind path k := by
  cases h with
  | spad b hlo hhi hk hb hbusy hcur => exact .spad b hlo hhi hk hb hbusy hcur
  | page c e hva hp hlo hhi henc hprot hallow hend =>
    exact .page c e hva hp.live hlo hhi henc hprot hallow hend hp.walk hp.hit fun v h1 h2 q hq => (hp.reads v h1 h2 q hq).1

/-! ### Bytes of several pages -/

/-- Places that hold the bytes from `va` on in plain storage, byte `o` at `ks o`, in pieces. -/
inductive PlacedRun : Nat → Nat → (Nat → Nat) → List (Loc × Nat × Nat) → Prop
  | nil (va : Nat) (ks : Nat → Nat) : PlacedRun va 0 ks []
  | cons {va m n k : Nat} {ks : Nat → Nat} {l : Loc} {ls : List (Loc × Nat × Nat)} (hl : l.Plain k) (hm : 0 < m) (hk : ∀ o, o < m → ks o = k + o)
      (hls : PlacedRun (va + m) n (fun o => ks (m + o)) ls) : PlacedRun va (m + n) ks ((l, va, m) :: ls)

/-- One piece of bytes of plain storage is found where it lies. -/
theorem State.PlainFor.locate {k : Nat} {t : State} {w : Who} (hpl : s.PlainFor ctx lvl D va n kind path k) (h : s.Touched ctx t) (hn : 0 < n)
    (hpage : va % 4096 + n ≤ 4096) (hw : w.ctxid = ctx) (hl : w.level = lvl) :
    ∃ l u, t.locate w va n kind path = .ok (l, u) ∧ l.Plain k ∧ s.Touched ctx u := by
  obtain ⟨l, u, hall, hplain, hu⟩ := hpl.plain.locateAll h hn hpage hw hl
  rw [if_neg (Nat.not_le.mpr hpl.va_lt), pagePieces_one hn hpage] at hall
  simp only [State.locateAll, ite_self] at hall
  split at hall
  · cases hall
  · rename_i l' u' hloc
    cases hall
    exact ⟨_, _, hloc, hplain, hu⟩

/-- Bytes of plain storage in several pages are found where they lie. -/
theorem locateAll_bytes {w : Who} {N : Nat} (hw : w.ctxid = ctx) (hl : w.level = lvl) (hpath : path ≠ .scalar) : ∀ {fuel : Nat} {t : State} {va n : Nat}
    {ks : Nat → Nat}, s.Touched ctx t → (∀ o, o < n → s.PlainFor ctx lvl D (va + o) 1 kind path (ks o)) → n + va % 4096 ≤ 4096 * fuel →
    ∃ ls u, t.locateAll w kind path N (pieces 4096 fuel va n) = .ok (ls, u) ∧ PlacedRun va n ks ls ∧ s.Touched ctx u := by
  intro fuel
  induction fuel with
  | zero =>
    intro t va n ks h _ hn
    obtain rfl : n = 0 := by omega
    exact ⟨[], t, rfl, .nil _ _, h⟩
  | succ fuel ih =>
    intro t va n ks h hb hn
    rw [pieces]
    by_cases h0 : n = 0
    · subst h0
      exact ⟨[], t, rfl, .nil _ _, h⟩
    · rw [if_neg h0]
      dsimp only
      have hpiece {m : Nat} (hm : 0 < m) (hmn : m ≤ n) (hpage : va % 4096 + m ≤ 4096) : ∃ l u, t.locate w va (if path = .scalar then N else m) kind path = .ok (l, u) ∧
          l.Plain (ks 0) ∧ (∀ o, o < m → ks o = ks 0 + o) ∧ s.Touched ctx u := by
        obtain ⟨hpl, hkeys⟩ := State.PlainFor.join (fun o ho => hb o (by omega)) hm hpage
        obtain ⟨l, u, hloc, hplain, hu⟩ := hpl.locate h hm hpage hw hl
        exact ⟨l, u, by rw [if_neg hpath, hloc], hplain, hkeys, hu⟩
      split
      · rename_i hroom
        obtain ⟨l, u, hloc, hplain, hkeys, hu⟩ := hpiece (Nat.pos_of_ne_zero h0) (Nat.le_refl n) (by omega)
        refine ⟨[(l, va, n)], u, ?_, .cons (n := 0) hplain (Nat.pos_of_ne_zero h0) hkeys (.nil _ _), hu⟩
        simp only [State.locateAll, hloc]
      · rename_i hroom
        generalize hm : 4096 - va % 4096 = m at hroom
        obtain ⟨l, u, hloc, hplain, hkeys, hu⟩ := hpiece (m := m) (by omega) (by omega) (by omega)
        obtain ⟨ls, v, hall, hrun, hv⟩ := ih (ks := fun o => ks (m + o)) hu (fun o ho => by rw [Nat.add_assoc]; exact hb _ (by omega)) (va := va + m) (n := n - m) (by omega)
        refine ⟨(l, va, m) :: ls, v, ?_, ?_, hv⟩
        · simp only [State.locateAll, hloc, hall]
        · have := PlacedRun.cons hplain (by omega) hkeys hrun
          rwa [Nat.add_sub_cancel' (by omega)] at this

theorem PlacedRun.not_busy {ks : Nat → Nat} {ls : List (Loc × Nat × Nat)} (h : PlacedRun va n ks ls) : ls.any (fun l => l.1.isBusy) = false := by
  induction h with
  | nil => rfl
  | cons hl _ _ _ ih =>
    rw [List.any_cons, ih]
    cases hl <;> rfl

theorem sound_of_bytes {k m : Nat} (h : ∀ o, o < m → Sound s (k + o) 1) : Sound s k m := by
  intro w hw
  rcases Nat.eq_zero_or_pos m with rfl | hm
  · simp [wordsOf] at hw
  · obtain ⟨h1, h2⟩ := (mem_wordsOf hm).mp hw
    exact h (max k (8 * w) - k) (by omega) w ((mem_wordsOf (by omega)).mpr ⟨by omega, by omega⟩)

theorem peek_eq_map (m : Memory) (k n : Nat) : m.peek k n = (List.range n).map fun o => cellGet m.cells (k + o) := by
  refine List.ext_getElem (by simp [Memory.peek, cellRead_length]) fun i h1 h2 => ?_
  have hi : i < n := by simpa using h2
  have hget := cellRead_getD m.cells hi k
  rw [List.getD_eq_getElem _ _ (by rwa [Memory.peek] at h1)] at hget
  simpa [Memory.peek] using hget

/-- A read of placed bytes gives them. -/
theorem PlacedRun.readLocs {ks : Nat → Nat} {ls : List (Loc × Nat × Nat)} (hrun : PlacedRun va n ks ls) (hsca : s.mem.sca = []) (hseal : s.mem.sealed = [])
    (hpath : path ≠ .scalar) (w : Who) : ∀ {t : State}, s.Touched ctx t → (∀ o, o < n → Sound s (ks o) 1) →
    ∃ u, t.readLocs w path ls = .ok ((List.range n).map fun o => cellGet s.mem.cells (ks o)) u ∧ s.Touched ctx u := by
  induction hrun with
  | nil va ks => exact fun h _ => ⟨_, rfl, h⟩
  | @cons va m n k ks l ls hl hm hk hls ih =>
    intro t h hs
    have hsound : Sound s k m := sound_of_bytes fun o ho => by rw [← hk o ho]; exact hs o (by omega)
    have hpeek : s.mem.peek k m = (List.range m).map fun o => cellGet s.mem.cells (ks o) := by
      rw [peek_eq_map]
      exact List.map_congr_left fun o ho => by rw [hk o (List.mem_range.mp ho)]
    have hvalue : (List.range (m + n)).map (fun o => cellGet s.mem.cells (ks o)) = s.mem.peek k m ++ (List.range n).map fun o => cellGet s.mem.cells (ks (m + o)) := by
      rw [hpeek, List.range_add, List.map_append, List.map_map]
      rfl
    rw [hvalue]
    cases hl with
    | spad hfar =>
      obtain ⟨u, hread, hu⟩ := h.readKey hsca hseal hsound (enc := true) (fun _ => hfar) w false
      obtain ⟨v, hrest, hv⟩ := ih hu fun o ho => hs _ (by omega)
      exact ⟨v, by simp only [State.readLocs, hread, hrest], hv⟩
    | hbm g =>
      obtain ⟨u, hread, hu⟩ := h.readKey hsca hseal hsound (enc := false) (fun h => by cases h) w (path = .pointer)
      obtain ⟨v, hrest, hv⟩ := ih hu fun o ho => hs _ (by omega)
      exact ⟨v, by simp only [State.readLocs, hpath, decide_false, Bool.false_and, Bool.false_eq_true, if_false, hread, hrest], hv⟩

/-- A load whose bytes are placed reads them. -/
theorem PlacedRun.load {t u : State} {ks : Nat → Nat} {ls : List (Loc × Nat × Nat)} (hrun : PlacedRun va n ks ls) {w : Who} (hpath : path ≠ .scalar)
    (hall : t.locateAll w .load path n (if 2 ^ 63 ≤ va then [(va, n)] else pagePieces va n) = .ok (ls, u)) : t.load w va n path = u.readLocs w path ls := by
  rw [State.load, hall]
  simp only [hrun.not_busy, Bool.false_eq_true, if_false, hpath]
  cases hrun with
  | nil => rfl
  | cons hl _ _ hls =>
    cases hls with
    | nil => cases hl <;> rfl
    | cons _ _ _ _ => cases hl <;> rfl

/-- A load of sound bytes of plain storage gives them. -/
theorem load_bytes {t : State} {w : Who} (hw : w.ctxid = ctx) (hl : w.level = lvl) (hpath : path ≠ .scalar) (hsca : s.mem.sca = []) (hseal : s.mem.sealed = [])
    {ks : Nat → Nat} (h : s.Touched ctx t) (hva : va < 2 ^ 63) (hb : ∀ o, o < n → s.PlainFor ctx lvl D (va + o) 1 .load path (ks o) ∧ Sound s (ks o) 1) :
    ∃ u, t.load w va n path = .ok ((List.range n).map fun o => cellGet s.mem.cells (ks o)) u ∧ s.Touched ctx u := by
  obtain ⟨ls, u, hall, hrun, hu⟩ := locateAll_bytes (N := n) hw hl hpath h (fun o ho => (hb o ho).1) (fuel := n / 4096 + 2) (by omega)
  obtain ⟨v, hread, hv⟩ := hrun.readLocs hsca hseal hpath w hu fun o ho => (hb o ho).2
  refine ⟨v, ?_, hv⟩
  rw [← hread]
  refine hrun.load hpath ?_
  rw [if_neg (Nat.not_le.mpr hva), pagePieces, hall]

/-- Nothing that is not protected is in the way of a write. -/
theorem PlacedRun.badWrite {t : State} {ks : Nat → Nat} {ls : List (Loc × Nat × Nat)} (hrun : PlacedRun va n ks ls) (w : Who) : t.badWrite w ls = none := by
  induction hrun with
  | nil => rfl
  | cons hl _ _ _ ih =>
    rw [State.badWrite] at ih ⊢
    cases hl <;> exact ih

end

/-! ### Bytes written -/

/-- A state in which `n` bytes have been written, byte `o` at `ks o`; reservations may be lost. -/
structure State.Wrote (t v : State) (n : Nat) (ks : Nat → Nat) (bs : List Byte) : Prop where
  frame : ∃ hs m tlb dc, v = { t with harts := hs, mem := m, core := { t.core with tlb := tlb, dcache := dc } }
  harts : ∀ j : Fin 4, ∃ r, v.harts[j] = { t.harts[j] with resv := r }
  sca : v.mem.sca = t.mem.sca
  inside : ∀ o, o < n → cellGet v.mem.cells (ks o) = bs.getD o 0#8
  outside : ∀ a, (∀ o, o < n → ks o ≠ a) → cellGet v.mem.cells a = cellGet t.mem.cells a

/-- Bytes written side by side at the storage point. -/
theorem State.Wrote.pokeKey {t : State} (hwf : t.mem.wf = true) (own : Bool) {k n : Nat} {ks : Nat → Nat} (hk : ∀ o, o < n → ks o = k + o) {bs : List Byte}
    (hn : bs.length = n) : t.Wrote (t.pokeKey own k bs) n ks bs := by
  have htouch := t.mem.touchWrite_touched k bs.length
  obtain ⟨hs, dc, hpoke⟩ := t.pokeKey_frame own k bs
  have hmem : (t.pokeKey own k bs).mem = (t.mem.touchWrite k bs.length).poke k bs := t.pokeKey_mem own k bs
  have hcells : (t.pokeKey own k bs).mem.cells = cellWrite t.mem.cells k bs := by rw [hmem, Memory.poke, htouch.cells]
  refine ⟨⟨_, _, _, _, hpoke⟩, (t.pokeKey_stored own k bs).hart, ?_, fun o ho => ?_, fun a ha => ?_⟩
  · rw [hmem]
    exact htouch.sca
  · rw [hcells, hk o ho, cellGet_cellWrite_inside bs hwf (by omega)]
  · rw [hcells, cellGet_cellWrite_outside bs hwf]
    by_contra hin
    refine ha (a - k) (by omega) ?_
    rw [hk _ (by omega)]
    omega

/-- Looking up ways and keeping translations writes nothing. -/
theorem State.Wrote.after_touched {ctx n : Nat} {t u v : State} {ks : Nat → Nat} {bs : List Byte} (h : u.Wrote v n ks bs) (ht : t.Touched ctx u) : t.Wrote v n ks bs := by
  have hcells := ht.cells_eq
  have hsca := ht.sca_eq
  obtain ⟨⟨m, tlb, rfl⟩, -⟩ := ht
  obtain ⟨⟨_, _, _, _, rfl⟩, hharts, hsca', hin, hout⟩ := h
  exact ⟨⟨_, _, _, _, rfl⟩, hharts, hsca'.trans hsca, hin, fun a ha => (hout a ha).trans (congrArg (cellGet · a) hcells)⟩

/-- Writes of distinct bytes one after another. -/
theorem State.Wrote.append {m n : Nat} {t u v : State} {ks : Nat → Nat} {bs : List Byte} (h : t.Wrote u m ks (bs.take m))
    (h' : u.Wrote v n (fun o => ks (m + o)) (bs.drop m)) (hinj : ∀ o q, o < m + n → q < m + n → ks o = ks q → o = q) :
    t.Wrote v (m + n) ks bs := by
  obtain ⟨⟨_, _, _, _, rfl⟩, hharts, hsca, hin, hout⟩ := h
  obtain ⟨⟨_, _, _, _, rfl⟩, hharts', hsca', hin', hout'⟩ := h'
  refine ⟨⟨_, _, _, _, rfl⟩, fun j => ?_, hsca'.trans hsca, fun o ho => ?_, fun a ha => ?_⟩
  · obtain ⟨r, hr⟩ := hharts j
    obtain ⟨r', hr'⟩ := hharts' j
    exact ⟨r', by rw [hr', hr]⟩
  · by_cases hom : o < m
    · rw [hout' _ fun q hq he => by have := hinj (m + q) o (by omega) ho he; omega, hin o hom]
      simp [List.getD_eq_getElem?_getD, hom]
    · have := hin' (o - m) (by omega)
      rw [Nat.add_sub_cancel' (by omega)] at this
      rw [this, List.getD_eq_getElem?_getD, List.getElem?_drop, Nat.add_sub_cancel' (by omega), List.getD_eq_getElem?_getD]
  · rw [hout' a fun q hq => ha (m + q) (by omega), hout a fun o ho => ha o (by omega)]


theorem State.writePlaces_cons {u : State} {l : Loc} {k m : Nat} (hl : l.Plain k) (hsca : u.mem.sca = []) (hseal : u.mem.sealed = []) (w : Who) (va : Nat)
    (ls : List (Loc × Nat × Nat)) (bs : List Byte) :
    u.writePlaces w ((l, va, m) :: ls) bs = (u.pokeKey w.ownCore k (bs.take m)).writePlaces w ls (bs.drop m) := by
  cases hl with
  | spad hfar =>
    have hstep : u.writePlaces w ((.spad k, va, m) :: ls) bs = ((u.applySca w k m).pokeKey w.ownCore k (bs.take m)).writePlaces w ls (bs.drop m) := by
      conv_lhs => unfold State.writePlaces
    rw [hstep, State.applySca_none hsca]
  | hbm g =>
    have hopen := Memory.openUnits_plain hseal (enc := false) (k := k) (fun h => by cases h) true (u.encKey w.ctxid) (bs.take m).length
    have hstep : u.writePlaces w ((.hbm k false false g, va, m) :: ls) bs =
        ((u.writeKey w false false g va k (bs.take m)).getD u).writePlaces w ls (bs.drop m) := by
      conv_lhs => unfold State.writePlaces
    rw [hstep, State.writeKey, State.applySca_none hsca, State.writeNow, hopen]
    rfl

section
variable {s : State} {ctx : Nat} {lvl : Level} {D : Nat → Prop} {va n : Nat} {kind : AccKind} {path : AccPath} (hwf : s.mem.wf = true) (hseal : s.mem.sealed = [])
include hwf hseal

/-- A write of placed bytes writes each where it lies. -/
theorem PlacedRun.writePlaces {ks : Nat → Nat} {ls : List (Loc × Nat × Nat)} (hrun : PlacedRun va n ks ls) (w : Who) : ∀ {t : State} {bs : List Byte},
    s.Reached D ctx t → t.mem.sca = [] → bs.length = n → (∀ o, o < n → D (ks o)) → (∀ o q, o < n → q < n → ks o = ks q → o = q) →
    s.Reached D ctx (t.writePlaces w ls bs) ∧ t.Wrote (t.writePlaces w ls bs) n ks bs := by
  induction hrun with
  | nil va ks =>
    intro t bs h _ _ _ _
    exact ⟨h, ⟨_, _, _, _, rfl⟩, fun j => ⟨_, rfl⟩, rfl, fun _ ho => absurd ho (Nat.not_lt_zero _), fun _ _ => rfl⟩
  | @cons va m n k ks l ls hl hm hk hls ih =>
    intro t bs h hsca hlen hD hinj
    have hpart : (bs.take m).length = m := by rw [List.length_take]; omega
    rw [State.writePlaces_cons hl hsca (h.sealed_eq.trans hseal)]
    have hfirst := State.Wrote.pokeKey (h.wf hwf) w.ownCore hk hpart
    have hreached := h.pokeKey (k := k) (bs := bs.take m) hwf (fun a h1 h2 => by
      have := hD (a - k) (by omega)
      rwa [hk _ (by omega), Nat.add_sub_cancel' h1] at this) w.ownCore
    obtain ⟨hr, hw⟩ := ih (bs := bs.drop m) hreached (hfirst.sca.trans hsca) (by rw [List.length_drop]; omega) (fun o ho => hD _ (by omega))
      fun o q ho hq he => by have := hinj (m + o) (m + q) (by omega) (by omega) he; omega
    exact ⟨hr, hfirst.append hw hinj⟩

/-- A store of bytes of plain storage writes them. -/
theorem store_bytes {t : State} {w : Who} (hw : w.ctxid = ctx) (hl : w.level = lvl) (hpath : path ≠ .scalar) {ks : Nat → Nat} {bs : List Byte}
    (h : s.Reached D ctx t) (hsca : t.mem.sca = []) (hva : va < 2 ^ 63) (hlen : bs.length = n)
    (hb : ∀ o, o < n → s.PlainFor ctx lvl D (va + o) 1 .store path (ks o) ∧ D (ks o)) (hinj : ∀ o q, o < n → q < n → ks o = ks q → o = q) :
    ∃ v, t.store w va bs path = .ok () v ∧ s.Reached D ctx v ∧ t.Wrote v n ks bs := by
  obtain ⟨ls, u, hall, hrun, hu⟩ := locateAll_bytes (N := n) hw hl hpath (.refl ctx t) (fun o ho => h.plainFor hseal (hb o ho).1) (fuel := n / 4096 + 2) (by omega)
  have hru := h.touched hseal hu
  obtain ⟨hr, hwrote⟩ := hrun.writePlaces hwf hseal w hru (hu.sca_eq.trans hsca) hlen (fun o ho => (hb o ho).2) hinj
  refine ⟨_, ?_, hr, hwrote.after_touched hu⟩
  rw [State.store, if_neg (Nat.not_le.mpr hva), hlen, pagePieces, hall]
  simp only [hrun.not_busy, Bool.false_eq_true, if_false]
  have hplaces : u.writeLocs w ls bs = u.writePlaces w ls bs := by
    unfold State.writeLocs
    rw [hrun.badWrite w]
  rw [hplaces]
  cases hrun with
  | nil => rfl
  | cons hl _ _ hls =>
    cases hls with
    | nil => cases hl <;> rfl
    | cons _ _ _ _ => cases hl <;> rfl

end

end Sys2Proof.Machine
end

section
/-! SUPPORT. Floating-point reductions over the fixed tree and the floating-point scan (R107, R268, R289, R539, R540), from the results of their rows. -/

namespace Sys2Proof.Machine
open Sys2Proof.Claims

/-! ### The fixed tree (R289) -/

section
variable (f : Nat → Nat → Flagged)

theorem treeNode_succ (leaf : Nat → Option Flagged) (l i : Nat) :
    treeNode f leaf (l + 1) i = Option.merge (joinFlagged f) (treeNode f leaf l (2 * i)) (treeNode f leaf l (2 * i + 1)) := by
  rw [treeNode]
  cases treeNode f leaf l (2 * i) <;> cases treeNode f leaf l (2 * i + 1) <;> rfl

/-- A tree is the tree over its first level. -/
theorem treeNode_level (leaf : Nat → Option Flagged) (l i : Nat) :
    treeNode f leaf (l + 1) i = treeNode f (fun j => Option.merge (joinFlagged f) (leaf (2 * j)) (leaf (2 * j + 1))) l i := by
  induction l generalizing i with
  | zero => exact treeNode_succ f leaf 0 i
  | succ l ih => rw [treeNode_succ, ih, ih, ← treeNode_succ]

theorem treeNode_none (l i : Nat) : treeNode f (fun _ => none) l i = none := by
  induction l generalizing i with
  | zero => rfl
  | succ l ih => rw [treeNode_succ, ih, ih]; rfl

/-- A leaf alone is the whole tree. -/
theorem treeNode_single (x : Option Flagged) (l : Nat) : treeNode f (fun i => if i = 0 then x else none) l 0 = x := by
  induction l with
  | zero => rfl
  | succ l ih =>
    refine (treeNode_level _ _ _ _).trans (Eq.trans (congrArg (treeNode f · l 0) (funext fun j => ?_)) ih)
    by_cases hj : j = 0
    · subst hj
      cases x <;> rfl
    · simp [hj]

theorem treeLevel_getD (l : List (Option Flagged)) (j : Nat) :
    (treeLevel f l).getD j none = Option.merge (joinFlagged f) (l.getD (2 * j) none) (l.getD (2 * j + 1) none) := by
  induction l using treeLevel.induct generalizing j with
  | case1 x y r ih =>
    rw [treeLevel_cons_cons]
    cases j with
    | zero => rfl
    | succ j => exact ih j
  | case2 l hl =>
    match l, hl with
    | [], _ => rfl
    | [x], _ =>
      cases j with
      | zero => cases x <;> rfl
      | succ j => rfl
    | x :: y :: r, hl => exact absurd rfl (hl x y r)

/-- The tree of the model is the tree of R107 over its positions. -/
theorem treeOf_eq_treeNode (n d : Nat) (l : List (Option Flagged)) (hn : l.length ≤ 2 ^ n) (hd : l.length ≤ 2 ^ d) :
    treeOf f n l = treeNode f (fun i => l.getD i none) d 0 := by
  have short (l : List (Option Flagged)) (hl : l.length ≤ 1) (d : Nat) : l.headD none = treeNode f (fun i => l.getD i none) d 0 := by
    match l, hl with
    | [], _ => exact (treeNode_none f d 0).symm
    | [x], _ =>
      refine (treeNode_single f x d).symm.trans (congrArg (treeNode f · d 0) (funext fun i => ?_))
      cases i <;> rfl
  induction n generalizing l d with
  | zero => exact short l hn d
  | succ n ih =>
    match l with
    | [] => exact short [] (Nat.zero_le 1) d
    | [x] => exact short [x] (Nat.le_refl 1) d
    | x :: y :: r =>
      have hlen := treeLevel_length f (x :: y :: r)
      obtain ⟨d, rfl⟩ : ∃ e, d = e + 1 := Nat.exists_eq_succ_of_ne_zero fun h0 => by simp [h0] at hd
      rw [Nat.pow_succ] at hn hd
      rw [treeNode_level, show treeOf f (n + 1) (x :: y :: r) = treeOf f n (treeLevel f (x :: y :: r)) from rfl, ih d _ (by omega) (by omega)]
      exact congrArg (treeNode f · d 0) (funext (treeLevel_getD f _))

end

/-! ### A reduction of a row over the tree (R539) -/

/-- The initial value of a reduction combined with what its active values come to. -/
def behindInit (f : Nat → Nat → Flagged) (init : Option Nat) (root : Option Flagged) : Option Flagged :=
  match init, root with
  | some v, some x => some ((f v x.1).1, x.2 ||| (f v x.1).2)
  | some v, none => some (v, 0#5)
  | none, x => x

section
variable {s : State} {i : Instr} {w : IWord} {op : RedOp} {d a b : VNum} {m : MNum}

theorem redSegment_tree {c : Cap} {md : RMode} {f : Fmt} (hf : etFmt c.et = some f) (hfl : op.isFloat = true) (hseq : op.isSeq = false) (h : Hart) (va : VReg)
    (init : Option Nat) (k n : Nat) :
    redSegment op c h md va init k 0 n =
      match behindInit (redCombine op c.et md) init (treeNode (redCombine op c.et md)
        (fun i => if i < n ∧ c.active h k i = true then some (va.elem c.bits k i, 0#5) else none) (Nat.log2 n + 1) 0) with
      | some x => (canonical f x.1, x.2)
      | none => (redIdentity op c.et, 0#5) := by
  have hroot := treeOf_eq_treeNode (redCombine op c.et md) (n + 1) (Nat.log2 n + 1)
    ((List.range n).map fun i => (if c.active h k (0 + i) then some (va.elem c.bits k (0 + i)) else none).map fun v => ((v, 0#5) : Flagged))
    (by rw [List.length_map, List.length_range]; exact (Nat.lt_two_pow_self.trans (Nat.pow_lt_pow_succ (by decide))).le)
    (by rw [List.length_map, List.length_range]; exact Nat.lt_log2_self.le)
  have hleaf : (fun i => ((List.range n).map fun i => (if c.active h k (0 + i) then some (va.elem c.bits k (0 + i)) else none).map
      fun v => ((v, 0#5) : Flagged)).getD i none) = fun i => if i < n ∧ c.active h k i = true then some (va.elem c.bits k i, 0#5) else none := by
    funext i
    by_cases hi : i < n
    · by_cases hact : c.active h k i = true <;> simp [hi, hact]
    · simp [hi]
  rw [hleaf] at hroot
  unfold redSegment
  simp only [hseq, Bool.false_eq_true, if_false, hroot, hfl, if_true, canonPat, hf]
  generalize treeNode (redCombine op c.et md) _ _ 0 = root
  cases init <;> cases root <;> rfl

/-- The initial value of a reduction of row `k`, once its sources are read (R537). -/
theorem Begun.redInit_eq {h : Hart} {e : QEntry} (hb : Begun s (postRed w op d a b m) h e) (hcet : (s.h.newEntry (postRed w op d a b m)).cap.et = vtEt s.h.vtype)
    (k : Nat) : redInit e (h.relayAll (vtEt s.h.vtype) (vtGroups s.h.vtype) (postRed w op d a b m).vsrc) k 0 =
      if b = 0#5 then none else some (srcElem s b k 0) := by
  rw [redInit, hb.post]
  by_cases h0 : b = 0#5
  · rw [if_pos h0]
    exact if_pos h0
  · rw [if_neg h0, show (postRed w op d a b m).b = b from rfl, if_neg h0, hb.relayAll_vreg, readSources, if_pos (by unfold postRed vecPost; rw [if_neg h0]; simp),
      Cap.bits, hb.cap, hcet]
    rfl

/-- A reduction over the tree at an idle hart completes in its step (R289, R539). -/
theorem treeReduces {f : Fmt} {g : Nat → Nat → Flagged} {z : Nat} (hx : exec i s = issue (postRed w op d a b m) s) (hscan : op.isScan = false)
    (hfl : op.isFloat = true) (hseq : op.isSeq = false) (hf : etFmt (vtEt s.h.vtype) = some f)
    (hg : redCombine op (vtEt s.h.vtype) ((rmodeOf s.h.rm.toNat).getD .rne) = g) (hz : redIdentity op (vtEt s.h.vtype) = z) (hzc : canonical f z = z) :
    TreeReduces s i (postRed w op d a b m) f g z := by
  intro hoff
  refine vecWrites_rowResults hx hscan hoff
    (fun k => (canonical f (treeRow s (postRed w op d a b m) g z k).1, (treeRow s (postRed w op d a b m) g z k).2)) ?_
  intro hruns h e k hb h1 _
  obtain ⟨-, -, hcet, -⟩ := hruns.captured
  have hsrc (n : VNum) (hn : n ∈ (postRed w op d a b m).vsrc) : h1.vreg n = source s n := (hb.relayAll_vreg n).trans (if_pos hn)
  have hbits : e.cap.bits = width s := by rw [Cap.bits, hb.cap, hcet, width]
  have hcet' : e.cap.et = vtEt s.h.vtype := by rw [hb.cap, hcet]
  rw [redSegment_tree (by rw [hcet']; exact hf) hfl hseq, hb.redInit_eq hcet k, hb.mode, hcet', hg, hz, hsrc a (by unfold postRed vecPost; split <;> simp),
    hb.relayAll_active, hbits, treeRow]
  have hleaf (i : Nat) : (source s a).elem (width s) k i = srcElem s a k i := rfl
  simp only [show (postRed w op d a b m).a = a from rfl, show (postRed w op d a b m).b = b from rfl, hleaf]
  generalize treeNode g _ (s.h.vl.log2 + 1) 0 = root
  generalize (if b = 0#5 then none else some (srcElem s b k 0)) = init
  cases init <;> cases root <;> simp [behindInit, hzc]

end

/-! ### Infinities (R265) -/

/-- An infinity is the pattern of its sign, the greatest exponent and no fraction. -/
theorem eq_of_fpDecode_inf {f : Fmt} {a : Nat} {neg : Bool} (ha : a < 2 ^ fmtBits f) (h : fpDecode f a = .inf neg) :
    a = withSign f neg ((2 ^ fmtE f - 1) * 2 ^ fmtF f) := by
  have hfields : fpExpField f a = 2 ^ fmtE f - 1 ∧ fpFrac f a = 0 ∧ fpSign f a = neg := by
    by_cases h0 : fpExpField f a = 0
    · simp [fpDecode, h0] at h
    · by_cases h1 : fpExpField f a = 2 ^ fmtE f - 1
      · refine ⟨h1, ?_⟩
        simp only [fpDecode, if_neg h0, if_pos h1] at h
        split at h
        · cases h
        · split at h <;> cases h
        · split at h
          · cases h
            exact ⟨by assumption, rfl⟩
          · cases h
      · simp [fpDecode, h0, h1] at h
  obtain ⟨hexp, hfrac, hsign⟩ := hfields
  have hb : fmtBits f = fmtBits f - 1 + 1 := by rw [fmtBits]; omega
  have hmag : a % 2 ^ (fmtBits f - 1) = (2 ^ fmtE f - 1) * 2 ^ fmtF f := by
    rw [show fmtBits f - 1 = fmtF f + fmtE f by rw [fmtBits]; omega, pow_add, Nat.mod_mul, show a % 2 ^ fmtF f = 0 from hfrac, Nat.zero_add, Nat.mul_comm]
    exact congrArg (· * _) hexp
  rw [fpSign_eq ha] at hsign
  rw [withSign, ← hmag]
  rw [hb, pow_succ] at ha
  generalize 2 ^ (fmtBits f - 1) = t at *
  subst hsign
  simp only [decide_eq_true_eq]
  split
  next h => rw [Nat.mod_eq_sub_mod h, Nat.mod_eq_of_lt (by omega)]; omega
  next h => rw [Nat.mod_eq_of_lt (by omega)]

theorem canonical_inf {f : Fmt} {a : Nat} {neg : Bool} (h : fpDecode f a = .inf neg) : canonical f a = a := by
  rw [canonical, h]
  rfl

/-! ### The floating-point scan (R540) -/

theorem orderedSum_append (f : Fmt) (q : RMode) (l : List Nat) (x : Nat) : orderedSum f q (l ++ [x]) =
    if l = [] then (x, 0#5) else ((fpAdd f q (orderedSum f q l).1 x).1, (orderedSum f q l).2 ||| (fpAdd f q (orderedSum f q l).1 x).2) := by
  cases l with
  | nil => rfl
  | cons y l => simp [orderedSum, List.foldl_append]

/-- The flags of the last addition of a sum. -/
def lastFlags (f : Fmt) (q : RMode) (l : List Nat) (x : Nat) : Flags := if l = [] then 0#5 else (fpAdd f q (orderedSum f q l).1 x).2

/-- The values of a row at active positions below `n`, behind an initial one. -/
def upToValues (init : Option Nat) (act : Nat → Bool) (v : Nat → Nat) (n : Nat) : List Nat := init.toList ++ ((List.range n).filter act).map v

theorem upToValues_succ (init : Option Nat) (act : Nat → Bool) (v : Nat → Nat) (n : Nat) :
    upToValues init act v (n + 1) = if act n = true then upToValues init act v n ++ [v n] else upToValues init act v n := by
  by_cases h : act n = true <;> simp [upToValues, List.range_succ, h]

/-- The flags of a sum are those of its additions. -/
theorem getLsbD_orderedSum (f : Fmt) (q : RMode) (init : Option Nat) (act : Nat → Bool) (v : Nat → Nat) (n j : Nat) :
    (orderedSum f q (upToValues init act v n)).2.getLsbD j = true ↔
      ∃ y, y < n ∧ act y = true ∧ (lastFlags f q (upToValues init act v y) (v y)).getLsbD j = true := by
  induction n with
  | zero => cases init <;> simp [upToValues, orderedSum]
  | succ n ih =>
    have hlast (P : Nat → Prop) : (∃ y, y < n + 1 ∧ P y) ↔ (∃ y, y < n ∧ P y) ∨ P n := by
      simp only [Nat.lt_succ_iff_lt_or_eq, or_and_right, exists_or, exists_eq_left]
    rw [hlast, ← ih, upToValues_succ]
    by_cases h : act n = true
    · rw [if_pos h, orderedSum_append, lastFlags]
      by_cases h0 : upToValues init act v n = []
      · simp [h0, orderedSum]
      · simp [h0, h]
    · simp [h]

/-- The accumulator of a scan behind the values so far. -/
def scanAcc (f : Fmt) (q : RMode) (l : List Nat) : Option Nat := if l = [] then none else some (orderedSum f q l).1

theorem scanAcc_step (f : Fmt) (q : RMode) (l : List Nat) (x : Nat) :
    (match scanAcc f q l with | none => (x, 0#5) | some v => fpAdd f q v x) = ((orderedSum f q (l ++ [x])).1, lastFlags f q l x) := by
  rw [orderedSum_append, scanAcc, lastFlags]
  by_cases h : l = [] <;> simp [h]

theorem scanAcc_append (f : Fmt) (q : RMode) (l : List Nat) (x : Nat) : scanAcc f q (l ++ [x]) = some (orderedSum f q (l ++ [x])).1 := by
  simp [scanAcc]

/-- A floating-point scan of a row gives each active element the sum up to it, with the flags of its addition. -/
theorem scanSegment_fscan {c : Cap} {q : RMode} {f : Fmt} (hf : etFmt c.et = some f) (h : Hart) (va : VReg) (init : Option Nat) (k n : Nat) :
    let vals := upToValues init (c.active h k) (va.elem c.bits k)
    scanSegment .fscan c h q va init k 0 n = (List.range n).map fun i =>
      if c.active h k i then some (canonical f (orderedSum f q (vals (i + 1))).1, lastFlags f q (vals i) (va.elem c.bits k i)) else none := by
  intro vals
  have hfmt : redCombine .fscan c.et q = fpAdd f q := by
    rw [show fpAdd f q = fpAdd (fmtEt c.et) q by rw [fmtEt, hf]; rfl]
    rfl
  unfold scanSegment
  simp only [hfmt, RedOp.isFloat, canonPat, hf, Nat.zero_add, if_true, reduceCtorEq, if_false]
  suffices H : ∀ n, (List.range n).foldl _ (init, []) = (scanAcc f q (vals n), (List.range n).map fun i =>
      if c.active h k i then some (canonical f (orderedSum f q (vals (i + 1))).1, lastFlags f q (vals i) (va.elem c.bits k i)) else none) from
    congrArg Prod.snd (H n)
  intro n
  induction n with
  | zero => cases init <;> rfl
  | succ n ih =>
    rw [List.range_succ, List.foldl_append, ih, List.map_append]
    have hsucc := upToValues_succ init (c.active h k) (va.elem c.bits k) n
    by_cases hact : c.active h k n = true
    · rw [if_pos hact] at hsucc
      have hstep := scanAcc_step f q (vals n) (va.elem c.bits k n)
      cases hacc : scanAcc f q (vals n) with
      | none =>
        rw [hacc] at hstep
        obtain ⟨hval, hfl⟩ := Prod.mk.inj hstep
        simp [vals, hact, hsucc, scanAcc_append, ← hval, ← hfl, canonical]
      | some v =>
        rw [hacc] at hstep
        simp [vals, hact, hsucc, scanAcc_append, show fpAdd f q v _ = _ from hstep, canonical]
    · rw [if_neg hact] at hsucc
      simp [vals, hact, hsucc]

/-- Only the positions of the captured shape are written. -/
theorem VecWritesAt.congr {s : State} {i : Instr} {p : Posted} {et : ETCode} {rd : VNum → VReg} {f g : Nat → Nat → Option Nat} {fl fl' : Flags}
    (h : VecWritesAt s i p et rd f fl) (hfg : ∀ k x, k < s.h.vrows → x < s.h.vl → f k x = g k x) (hfl : fl = fl') : VecWritesAt s i p et rd g fl' := by
  subst hfl
  intro hruns hshape
  obtain ⟨t, hexec, hframe, hfcsr, hwritten, hstand⟩ := h hruns hshape
  refine ⟨t, hexec, hframe, hfcsr, fun n hn => ?_, hstand⟩
  obtain ⟨hvalid, het, hlmap, helem⟩ := hwritten n hn
  exact ⟨hvalid, het, hlmap, fun k x hk hxb hkr hxl => by rw [helem k x hk hxb hkr hxl, hfg k x hkr hxl]⟩

section
variable {s : State} {d a b : VNum} {m : MNum} {f : Fmt} {q : RMode}

/-- The floating-point scan at an idle hart completes in its step (R540). -/
theorem vecWrites_vfscan (hf : etFmt (vtEt s.h.vtype) = some f) (hq : rmodeOf s.h.rm.toNat = some q) (hoff : s.h.vseg.getLsbD 3 = false) :
    let p := pVfscan d a b m
    let row (k : Nat) : Bool := decide ((s.h.newEntry p).prog / s.h.vl ≤ k)
    let upTo (k x : Nat) : Nat × Flags := orderedSum f q (upToValues (if b = 0#5 then none else some (srcElem s b k 0)) (activeAt s p k) (srcElem s a k) (x + 1))
    VecWrites s (.vfscan d a b m) p (fun k x => if row k && activeAt s p k x then some (canonical f (upTo k x).1) else none)
      (flagsOf s (fun k x => row k && activeAt s p k x) fun k x => (upTo k x).2) := by
  intro p row upTo
  let vals (k : Nat) : Nat → List Nat := upToValues (if b = 0#5 then none else some (srcElem s b k 0)) (activeAt s p k) (srcElem s a k)
  have h := vecWrites_redRows (s := s) (i := .vfscan d a b m) (w := wVfscan d a b m) (op := .fscan) (d := d) (a := a) (b := b) (m := m) rfl
    (fun k x => if x < s.h.vl ∧ activeAt s p k x = true then some (canonical f (upTo k x).1, lastFlags f q (vals k x) (srcElem s a k x)) else none) ?rows
  case rows =>
    intro hruns h e k hb hvl h1
    obtain ⟨hcvl, -, hcet, -⟩ := hruns.captured
    refine ⟨s.h.vl, Nat.le_refl _, ?_, fun x hx => if_neg fun h => Nat.not_lt.mpr hx h.1⟩
    have hcet' : e.cap.et = vtEt s.h.vtype := by rw [hb.cap, hcet]
    have hact : e.cap.active h1 = activeAt s p := hb.relayAll_active _ _
    rw [redRow, hb.segments_of_off hcvl hoff hvl]
    simp only [RedOp.isScan, if_true, List.zipIdx_cons, List.zipIdx_nil, List.flatMap_cons, List.flatMap_nil, List.append_nil]
    rw [scanSegment_fscan (by rw [hcet']; exact hf), hb.redInit_eq hcet k, hact, hb.mode, hq, show e.cap.bits = width s by rw [Cap.bits, hcet', width],
      show h1.vreg a = source s a from (hb.relayAll_vreg a).trans (if_pos (by unfold postRed vecPost; split <;> simp))]
    exact List.map_congr_left fun x hx => by simp only [List.mem_range.mp hx, true_and]; rfl
  refine VecWritesAt.congr h (fun k x hk hx => ?_) ?_
  · show (if (s.h.newEntry p).prog / s.h.vl ≤ k then _ else _) = _
    by_cases hrow : (s.h.newEntry p).prog / s.h.vl ≤ k <;> by_cases hact : activeAt s p k x = true <;> simp [row, hrow, hx, hact]
  · refine BitVec.eq_of_getLsbD_eq fun j _ => Bool.eq_iff_iff.mpr ?_
    rw [getLsbD_flagsOf, getLsbD_flagsOf]
    simp only [upTo, getLsbD_orderedSum]
    constructor
    · rintro ⟨k, x, hk, hx, hc, hj⟩
      have hact : activeAt s p k x = true := by
        by_contra hact
        simp [hact] at hc
      simp only [hx, hact, and_self, if_true, Option.isSome_some, Bool.and_true] at hc
      simp only [hx, hact, and_self, if_true, Option.map_some, Option.getD_some] at hj
      exact ⟨k, x, hk, hx, by rw [hact, Bool.and_true]; exact hc, x, Nat.lt_succ_self x, hact, hj⟩
    · rintro ⟨k, x, hk, hx, hc, y, hy, hact, hj⟩
      have hyl : y < s.h.vl := by omega
      refine ⟨k, y, hk, hyl, ?_, ?_⟩
      · simp only [hyl, hact, and_self, if_true, Option.isSome_some, Bool.and_true]
        exact (Bool.and_eq_true_iff.mp hc).1
      · simp only [hyl, hact, and_self, if_true, Option.map_some, Option.getD_some]
        exact hj

end

end Sys2Proof.Machine
end

section
/-! SUPPORT. What a posted instruction leaves of its hart and the others when it retires at an idle hart (R161, R162, R204, R341). -/

namespace Sys2Proof.Machine
open Sys2Proof.Claims

/-! ### The core behind the service of lane groups -/

theorem Core.grantLanes_frame (keep : Nat) (i : Fin 4) (l : List (Fin 4)) (n : Nat) (c : Core) : ∃ ls, c.grantLanes keep i l n = { c with lanes := ls } := by
  induction l generalizing n c with
  | nil => cases n <;> exact ⟨_, rfl⟩
  | cons g l ih =>
    cases n with
    | zero => exact ⟨_, rfl⟩
    | succ n =>
      unfold Core.grantLanes
      split
      · split
        · exact ⟨_, rfl⟩
        · obtain ⟨ls, h⟩ := ih n { c with lanes := c.lanes.set g (.held i) }
          exact ⟨ls, h⟩
      · exact ih _ c

theorem State.grantOnce_core (s : State) : ∃ ls, s.grantOnce.core = { s.core with lanes := ls } := by
  unfold State.grantOnce
  split
  · exact ⟨_, rfl⟩
  · split
    · exact Core.grantLanes_frame _ _ _ _ _
    · exact ⟨_, rfl⟩

/-- Serving freed groups changes, of the core, who holds them alone. -/
theorem State.serveLanes_core (s : State) : ∃ ls, s.serveLanes.core = { s.core with lanes := ls } := by
  have step {u : State} (h : ∃ ls, u.core = { s.core with lanes := ls }) : ∃ ls, u.grantOnce.core = { s.core with lanes := ls } := by
    obtain ⟨ls, h⟩ := h
    obtain ⟨ls', h'⟩ := u.grantOnce_core
    exact ⟨ls', by rw [h', h]⟩
  exact step (step (step (step ⟨_, rfl⟩)))

/-! ### A retiring instruction -/

/-- The scalar registers behind a result (R204). -/
def Hart.resultX (h : Hart) (xd : Option XNum) (x : Option Word) : Vector Word 32 :=
  match xd, x with
  | some d, some v => xPut h.x d v
  | _, _ => h.x

theorem Hart.retireEntry_result (h : Hart) (e : QEntry) (x : Option Word) :
    ∃ tok, h.retireEntry e x = { h with queue := h.queue.filter (·.eid != e.eid), tok := tok, x := h.resultX e.post.xd x } := by
  cases hd : e.post.xd with
  | none =>
    obtain ⟨tok, htok⟩ := h.retireEntry_none e
    refine ⟨tok, ?_⟩
    have hsame : h.retireEntry e x = h.retireEntry e none := by simp only [Hart.retireEntry, hd]
    rw [hsame, htok]
    rfl
  | some d =>
    cases x with
    | none => exact h.retireEntry_none e
    | some v => exact h.retireEntry_some hd v

/-- What retires leaves its hart, the rest of the core and the storage, but for its queue entry, its token, its result and lane groups. -/
theorem State.entryDone_leaves {u : State} {i : Fin 4} {e : QEntry} (x : Option Word) (hcur : u.cur = i)
    (hq : u.harts[i].queue.filter (·.eid != e.eid) = []) (hr : u.harts[i].releases = []) (hask : laneAsk u.harts[i] = none) :
    let t := u.entryDone i e x
    (∃ tok, t.h = { u.harts[i] with queue := [], tok := tok, x := u.harts[i].resultX e.post.xd x }) ∧ t.mem = u.mem ∧
    (∃ ls, t.core = { u.core with lanes := ls }) ∧ ∀ j : Fin 4, j ≠ i → ∃ b vt, t.harts[j] = { u.harts[j] with laneServed := b, vtype := vt } := by
  intro t
  obtain ⟨tok, hret⟩ := u.harts[i].retireEntry_result e x
  rw [hq] at hret
  have hsettle : (u.harts[i].retireEntry e x).settleRows = { u.harts[i] with queue := [], tok := tok, x := u.harts[i].resultX e.post.xd x } := by
    rw [Hart.settleRows_none _ (by rw [hret]; exact hr), hret]
  generalize hw : (u.modHart i fun h => (h.retireEntry e x).settleRows) = w
  have ht : t = w.serveLanes := congrArg State.serveLanes hw
  have hwh : w.harts[i] = { u.harts[i] with queue := [], tok := tok, x := u.harts[i].resultX e.post.xd x } := by rw [← hw, State.modHart_same, hsettle]
  refine ⟨⟨tok, ?_⟩, ?_, ?_, fun j hj => ?_⟩
  · have hcur' : w.serveLanes.cur = i := by rw [State.serveLanes_cur, ← hw]; exact hcur
    rw [ht, State.h_of_cur hcur', State.serveLanes_still _ _ (by rw [hwh]; exact hask), hwh]
  · rw [ht, State.serveLanes_mem, ← hw]
    rfl
  · obtain ⟨ls, hls⟩ := w.serveLanes_core
    exact ⟨ls, by rw [ht, hls, ← hw]; rfl⟩
  · obtain ⟨b, vt, hj'⟩ := State.serveLanes_hart w j
    exact ⟨b, vt, by rw [ht, hj', ← hw, State.modHart_other _ _ _ _ hj]⟩

/-- Of a hart, what the body of a posted instruction may have changed: vector registers, their progress indices and flags, masks, GATEF, EV, NCNT, the
count of failed copies, and a reservation that is lost. -/
def Hart.Changed (h g : Hart) : Prop :=
  ∃ v vpi fl m gf ev nc cf r, g = { h with v := v, vpi := vpi, fcsr := fl, m := m, gatef := gf, ev := ev, ncnt := nc, cfails := cf, resv := r }

theorem Hart.Changed.refl (h : Hart) : h.Changed h := ⟨_, _, _, _, _, _, _, _, _, rfl⟩

theorem Hart.Changed.trans {h g k : Hart} (h1 : h.Changed g) (h2 : g.Changed k) : h.Changed k := by
  obtain ⟨_, _, _, _, _, _, _, _, _, rfl⟩ := h1
  obtain ⟨_, _, _, _, _, _, _, _, _, rfl⟩ := h2
  exact ⟨_, _, _, _, _, _, _, _, _, rfl⟩

/-- The hart of `s` in every part that a body may change beside the vector registers, their progress indices, FCSR and reservations. -/
def State.restored (s : State) (g : Hart) : Hart := { g with x := s.h.x, m := s.h.m, gatef := s.h.gatef, ev := s.h.ev, ncnt := s.h.ncnt, cfails := s.h.cfails }

/-- What `t` is, where an instruction posted in `s` has run to `u` and retired. -/
structure Leaves (s u t : State) (xd : Option XNum) (x : Option Word) : Prop where
  frame : { s.restored t.h with v := s.h.v, vpi := s.h.vpi, fcsr := s.h.fcsr, pc := s.h.pc, lc0 := s.h.lc0, lc1 := s.h.lc1, nextEid := s.h.nextEid,
                                vstart := s.h.vstart, pfxValid := s.h.pfxValid, pfxNext := s.h.pfxNext, status := s.h.status,
                                laneServed := s.h.laneServed, matrixServed := s.h.matrixServed, tok := s.h.tok, resv := s.h.resv } = s.h
  v : t.h.v = u.harts[s.cur].v
  fcsr : t.h.fcsr = u.harts[s.cur].fcsr
  m : t.h.m = u.harts[s.cur].m
  gatef : t.h.gatef = u.harts[s.cur].gatef
  ev : t.h.ev = u.harts[s.cur].ev
  ncnt : t.h.ncnt = u.harts[s.cur].ncnt
  cfails : t.h.cfails = u.harts[s.cur].cfails
  resv : t.h.resv = u.harts[s.cur].resv
  x : t.h.x = s.h.resultX xd x
  vstart : t.h.vstart = 0#32
  pfxNext : t.h.pfxNext = false
  mem : t.mem = u.mem
  core : ∃ ls, t.core = { u.core with lanes := ls }
  others : ∀ j : Fin 4, j ≠ s.cur → ∃ b vt, t.harts[j] = { u.harts[j] with laneServed := b, vtype := vt }

theorem Begun.leaves {s : State} {p : Posted} {h : Hart} {e : QEntry} (hb : Begun s p h e) (hs : s.h.queue = []) (hr : s.h.releases = []) {e2 : QEntry}
    (heid : e2.eid = e.eid) (hpost : e2.post = p) (x : Option Word) {u : State} (hcur : u.cur = s.cur) (hch : h.Changed u.harts[s.cur]) :
    Leaves s u (u.entryDone s.cur e2 x) p.xd x := by
  obtain ⟨pc, c0, c1, pv, tok, hh⟩ := hb.only
  obtain ⟨v, vpi, fl, m, gf, ev, nc, cf, r, hu⟩ := hch
  obtain ⟨⟨tok', hth⟩, hmem, hcore, hothers⟩ := State.entryDone_leaves (u := u) (i := s.cur) (e := e2) x hcur (by rw [hu]; simp [hb.queue, heid])
    (by rw [hu, hh]; exact hr) (by rw [hu, hh]; rfl)
  rw [hpost] at hth
  generalize u.entryDone s.cur e2 x = t at *
  rw [hu, hh] at hth
  refine ⟨?_, ?_, ?_, ?_, ?_, ?_, ?_, ?_, ?_, by rw [hth]; rfl, by rw [hth], by rw [hth], hmem, hcore, hothers⟩
  · rw [hth]
    exact congrArg (fun q => { s.h with queue := q }) hs.symm
  all_goals rw [hth, hu]

/-- What may run at once runs and retires in the step that posts it (R202, R222). -/
theorem Runs.completes {s : State} {p : Posted} (hruns : Runs s p) :
    ∃ h e a, Begun s p h e ∧ e = { s.h.newEntry p with started := true, taken := a } ∧ ∀ {u : State} {e2 : QEntry} {x : Option Word},
      bodyRun s.cur e.total e ((s.mod fun _ => h).served s.cur p.eng) = (.done u e2, x) → e2.eid = e.eid → e2.post = p → u.cur = s.cur →
      h.Changed u.harts[s.cur] → Leaves s u (s.postNow p) p.xd x := by
  obtain ⟨hb, hbegun⟩ := hruns.begun
  obtain ⟨a, ha⟩ := Hart.beginEntry_entry (s.mod fun h => h.post p).h (s.h.newEntry p)
  refine ⟨_, _, a, hb, ha, fun {u e2 x} hrun heid hpost hcur hch => ?_⟩
  rw [← hbegun] at hrun
  obtain ⟨-, -, h0, -, -, hrel⟩ := id hruns
  have hempty : (u.harts[s.cur].queue.filter fun y => y.eid != e2.eid) = [] := by
    obtain ⟨v, vpi, fl, m, gf, ev, nc, cf, r, hu⟩ := hch
    rw [hu]
    simp [hb.queue, heid]
  rw [postNow_runsTo (hruns.runsTo hrun hempty)]
  exact hb.leaves h0 hrel heid hpost x hcur hch

section
variable {s u t : State} {xd : Option XNum} {x : Option Word} (hl : Leaves s u t xd x)
include hl

/-- The frame of an instruction that has accessed memory. -/
theorem Leaves.memFrame {back : Hart → Hart} (hback : back t.h = s.restored t.h) (hfcsr : u.harts[s.cur].fcsr = s.h.fcsr) (htiles : u.core.tiles = s.core.tiles)
    (hothers : ∀ j : Fin 4, j ≠ s.cur → ∃ r, u.harts[j] = { s.harts[j] with resv := r }) : MemFrame s t back := by
  refine ⟨by rw [hback]; exact hl.frame, ?_, hl.vstart, hl.pfxNext, hl.fcsr.trans hfcsr, fun j hj => ?_⟩
  · obtain ⟨ls, h⟩ := hl.core
    rw [h]
    exact htiles
  · obtain ⟨b, vt, h⟩ := hl.others j hj
    obtain ⟨r, hr⟩ := hothers j hj
    rw [h, hr]

/-- The frame of an instruction that reaches no memory. -/
theorem Leaves.postedFrame {back : Hart → Hart} (hback : back t.h = s.restored t.h) (hresv : u.harts[s.cur].resv = s.h.resv) (hmem : u.mem = s.mem)
    (htiles : u.core.tiles = s.core.tiles) (hothers : ∀ j : Fin 4, j ≠ s.cur → u.harts[j] = s.harts[j]) : PostedFrame s t back := by
  refine ⟨?_, hl.mem.trans hmem, ?_, hl.vstart, hl.pfxNext, fun j hj => ?_⟩
  · rw [hback]
    have hframe := hl.frame
    rw [show s.h.resv = t.h.resv from (hl.resv.trans hresv).symm] at hframe
    exact hframe
  · obtain ⟨ls, h⟩ := hl.core
    rw [h]
    exact htiles
  · obtain ⟨b, vt, h⟩ := hl.others j hj
    rw [h, hothers j hj]

end

end Sys2Proof.Machine
end

section
/-! SUPPORT. The index-carrying swaps at an idle hart (R541, R542): four registers written from the positions where the candidate stands above. -/

namespace Sys2Proof.Machine
open Sys2Proof.Claims

/-! ### Registers that an instruction has written -/

theorem Hart.writeVec_vreg_none (h : Hart) (d : VNum) (et : ETCode) (c : Cap) (cov : Bool) (f : Nat → Nat → Option Nat) (n : VNum) :
    (h.writeVec d none et c cov f).vreg n =
      if n = d then ((h.vreg n).dest et c.lmap c.vl c.vrows cov).write (etBits et) c.vl c.vrows f else h.vreg n := by
  rw [Hart.writeVec_vreg _ _ _ _ _ _ _ (by simp)]
  simp

/-- The type and lane map of a register that is read stand in its tag, or it holds nothing. -/
theorem VReg.relaid_et (r : VReg) (et : ETCode) (l : BitVec 4) (hv : (r.relaid et l).valid = true) : (r.relaid et l).et = et := by
  unfold VReg.relaid at hv ⊢
  by_cases h : (r.valid && (r.et != et || r.lmap != l)) = true
  · rw [if_pos h]
  · rw [if_neg h] at hv ⊢
    simp only [hv, Bool.true_and, Bool.or_eq_true, bne_iff_ne, ne_eq, not_or, Decidable.not_not] at h
    exact h.1

section
variable {s : State} {n : VNum} {et : ETCode} {k x : Nat}

/-- A register that has been read shows what it showed, whichever way it is written next. -/
theorem keptElem_relaid (old : VReg) (whole : Bool) (hx : (x + 1) * etBits et ≤ 8192) :
    keptElem s (old.relaid et (vtGroups s.h.vtype)) et whole k x = keptElem s old et false k x := by
  have hold : keptElem s old et false k x = (old.relaid et (vtGroups s.h.vtype)).elem (etBits et) k x := if_neg (by simp)
  rw [hold]
  unfold keptElem
  split
  · have het := old.relaid_et et (vtGroups s.h.vtype)
    generalize old.relaid et (vtGroups s.h.vtype) = r at *
    by_cases hv : r.valid = true
    · rw [het hv, rowGet_rowKeep _ _ _ _ hx, VReg.elem]
      by_cases hk : k < r.nrows <;> by_cases hl : x < r.len <;> simp [hv, hk, hl]
    · simp [hv, VReg.elem]
  · rw [VReg.relaid_relaid]

/-- What a register is after a write of a shape to what `r` was, in the words of the statements about `old`. -/
theorem regWritten_of_write {t : State} {old r : VReg} {whole whole' : Bool} {f g : Nat → Nat → Option Nat}
    (ht : t.h.vreg n = (r.dest et (vtGroups s.h.vtype) s.h.vl s.h.vrows whole).write (etBits et) s.h.vl s.h.vrows f)
    (hfg : ∀ k x, k < s.h.vrows → x < s.h.vl → f k x = g k x)
    (hkept : ∀ k x, k < 16 → (x + 1) * etBits et ≤ 8192 → k < s.h.vrows → x < s.h.vl → g k x = none → keptElem s r et whole k x = keptElem s old et whole' k x) :
    RegWritten s t n et old whole' g := by
  obtain ⟨hvalid, het, hlmap⟩ := VReg.written_tag r et (vtGroups s.h.vtype) s.h.vl s.h.vrows whole f
  rw [← ht] at hvalid het hlmap
  refine ⟨hvalid, het, hlmap, fun k x hk hx hkr hxl => ?_⟩
  rw [ht, elem_written_kept s _ _ _ _ k x hk hx hkr hxl, hfg k x hkr hxl]
  cases hg : g k x with
  | some v => rfl
  | none => exact hkept k x hk hx hkr hxl hg

end

/-! ### Positions of a run (R419) -/

section
variable {s : State} {p : Posted} {h : Hart} {e : QEntry} {hi k x : Nat}

/-- A position of a shape lies below its end. -/
theorem tile_lt (hk : k < s.h.vrows) (hx : x < s.h.vl) : k * s.h.vl + x < s.h.vl * s.h.vrows := by
  calc k * s.h.vl + x < (k + 1) * s.h.vl := by rw [Nat.add_mul, Nat.one_mul]; omega
    _ ≤ s.h.vrows * s.h.vl := Nat.mul_le_mul_right _ hk
    _ = s.h.vl * s.h.vrows := Nat.mul_comm _ _

/-- The positions that a whole run executes are those of the statements. -/
theorem Begun.runs_eq (hb : Begun s p h e) (hcvl : (s.h.newEntry p).cap.vl = s.h.vl)
    (hlt : e.prog < e.total → hi = e.total) {g : Hart} (hact : e.cap.active g = activeAt s p) (hk : k < s.h.vrows) (hx : x < s.h.vl) :
    e.cap.runs g e.prog hi k x = executes s p k x := by
  have hpos := tile_lt hk hx
  rw [hb.total, hb.prog] at hlt
  rw [Cap.runs, hact, executes, ← activeAt, Cap.inPart, hb.cap, hcvl, hb.prog]
  rcases Nat.lt_or_ge (s.h.newEntry p).prog (s.h.vl * s.h.vrows) with hp | hp
  · rw [hlt hp, decide_eq_true hpos, Bool.and_true]
  · rw [decide_eq_false (by omega : ¬ (s.h.newEntry p).prog ≤ k * s.h.vl + x), Bool.false_and, Bool.false_and]

/-- Some position of a run satisfies a condition on what it executes exactly where one of the shape does. -/
theorem Begun.anyOver_iff (hb : Begun s p h e) (hcvl : (s.h.newEntry p).cap.vl = s.h.vl) (hge : e.total ≤ e.prog → hi = e.prog)
    (hlt : e.prog < e.total → hi = e.total) {g : Hart} (hact : e.cap.active g = activeAt s p) (c : Nat → Nat → Bool) :
    (e.cap.anyOver e.prog hi fun k x => e.cap.runs g e.prog hi k x && c k x) = true ↔
      ∃ k x, k < s.h.vrows ∧ x < s.h.vl ∧ executes s p k x = true ∧ c k x = true := by
  have hle : hi ≤ e.prog ∨ hi = s.h.vl * s.h.vrows := by
    rw [hb.total] at hge hlt
    rcases Nat.lt_or_ge e.prog (s.h.vl * s.h.vrows) with hp | hp
    · exact .inr (hlt hp)
    · exact .inl (hge hp).le
  have hcap : e.cap.vl = s.h.vl := by rw [hb.cap, hcvl]
  simp only [Cap.anyOver, List.any_eq_true, List.mem_range, hcap]
  constructor
  · rintro ⟨j, hj, hc⟩
    have hj : e.prog + j < s.h.vl * s.h.vrows := by omega
    have hvl : 0 < s.h.vl := Nat.pos_of_mul_pos_right (Nat.zero_lt_of_lt hj)
    have hk : (e.prog + j) / s.h.vl < s.h.vrows := (Nat.div_lt_iff_lt_mul hvl).mpr (by rwa [Nat.mul_comm])
    rw [hb.runs_eq hcvl hlt hact hk (Nat.mod_lt _ hvl), Bool.and_eq_true] at hc
    exact ⟨_, _, hk, Nat.mod_lt _ hvl, hc⟩
  · rintro ⟨k, x, hk, hx, hexec, hc⟩
    have hpos := tile_lt hk hx
    have hprog : e.prog ≤ k * s.h.vl + x := by
      rw [hb.prog]
      exact of_decide_eq_true (Bool.and_eq_true_iff.mp hexec).1
    have hhi : hi = s.h.vl * s.h.vrows := by rw [hb.total] at hlt; exact hlt (by omega)
    have hdiv : (k * s.h.vl + x) / s.h.vl = k := by rw [Nat.mul_comm, Nat.mul_add_div (by omega), Nat.div_eq_of_lt hx, Nat.add_zero]
    have hmod : (k * s.h.vl + x) % s.h.vl = x := by rw [Nat.mul_comm, Nat.mul_add_mod, Nat.mod_eq_of_lt hx]
    refine ⟨k * s.h.vl + x - e.prog, by omega, ?_⟩
    rw [Nat.add_sub_cancel' hprog, hdiv, hmod, hb.runs_eq hcvl hlt hact hk hx, hexec, hc]
    rfl

end

/-- A vector instruction starts at VSTART (R419). -/
theorem Hart.newEntry_prog (h : Hart) {p : Posted} (heng : p.eng = .vector) : (h.newEntry p).prog = (h.newEntry p).first := by simp only [Hart.newEntry, heng]

theorem etBits_zType (b : Nat) : 8 ≤ etBits (zType b) := by
  unfold zType
  split_ifs <;> decide

/-- A write that covers its register executes every position of the shape (R237). -/
theorem executes_of_whole {s : State} {p : Posted} (heng : p.eng = .vector) (hw : wholeWrite s p = true) {k x : Nat} (hk : k < 16) (hx : x < 2048) :
    executes s p k x = true := by
  obtain ⟨hmask, hfirst⟩ := Bool.and_eq_true_iff.mp hw
  rw [executes, Hart.newEntry_prog _ heng, eq_of_beq hfirst, Cap.active_of_unmasked hmask _ hk hx]
  simp

/-! ### The order of a swap (R281, R418) -/

/-- The candidate stands above where it is greater, or equal with the lower index. -/
theorem aboveElem_eq (et : ETCode) (a i b j : Nat) : aboveElem et a i b j =
    let rel (c : BitVec 3) : Bool := (cmpElem c (if etFloat et then 3#2 else if etSigned et then 0#2 else 1#2) et a b).1
    (rel 4#3 || (rel 0#3 && decide (i < j))) := by
  unfold aboveElem
  by_cases hf : etFloat et = true
  · simp only [hf, if_true]
    rfl
  · have order (x y : Int) : (decide (0 < (if x < y then -1 else if y < x then 1 else 0 : Int)) ||
        decide ((if x < y then -1 else if y < x then 1 else 0 : Int) = 0) && decide (i < j)) =
        (intRel .gt x y || intRel .eq x y && decide (i < j)) := by
      rcases lt_trichotomy x y with h | h | h
      · simp [intRel, h, h.not_gt, h.ne]
      · simp [intRel, h]
      · simp [intRel, h, h.not_gt, h.ne']
    by_cases hs : etSigned et = true
    · simp only [hf, hs, if_true, if_false, Bool.false_eq_true]
      exact order _ _
    · simp only [hf, hs, if_false, Bool.false_eq_true]
      exact order _ _

/-! ### The run of a swap -/

section
variable {s : State} {p : Posted} {imm : Bool}

/-- The register of the candidates' indices. -/
def swapIndex (p : Posted) (imm : Bool) : VNum := if imm then p.a + 1#5 else p.b

/-- The registers of a swap once they are read: the values, and the indices at the type of their width. -/
def swapRead (e : QEntry) (imm : Bool) (h : Hart) : Hart :=
  (h.relayAll e.cap.et e.cap.lmap [e.post.d, e.post.a]).relayAll (zType e.cap.bits) e.cap.lmap
    (if imm then [e.post.d + 1#5] else [e.post.d + 1#5, swapIndex e.post imm])

/-- The four registers of a swap are different ones. -/
theorem Postable.swap_apart (hp : Postable s p) (hbody : p.body = .kswap imm) :
    p.d ≠ p.d + 1#5 ∧ p.d ≠ p.a ∧ p.d ≠ swapIndex p imm ∧ p.d + 1#5 ≠ p.a ∧ p.d + 1#5 ≠ swapIndex p imm ∧ p.a ≠ swapIndex p imm := by
  have hb := hp.1
  unfold State.postBad at hb
  simp only [Bool.or_eq_false_iff] at hb
  have hbody' := hb.1.2
  unfold bodyBad at hbody'
  rw [hbody] at hbody'
  simp only [Bool.or_eq_false_iff, anyEqual, List.contains_cons, List.contains_nil, beq_eq_false_iff_ne] at hbody'
  unfold swapIndex
  tauto

/-- The index of the candidate at a position. -/
def swapCandidate (e : QEntry) (imm : Bool) (g : Hart) (k x : Nat) : Nat :=
  if imm then e.opb.toNat % 2 ^ e.cap.bits else (g.vreg (swapIndex e.post imm)).elem e.cap.bits k x

/-- Whether the candidate at a position stands above what is held there. -/
def swapUp (e : QEntry) (imm : Bool) (g : Hart) (k x : Nat) : Bool :=
  aboveElem e.cap.et ((g.vreg e.post.a).elem e.cap.bits k x) (swapCandidate e imm g k x) ((g.vreg e.post.d).elem e.cap.bits k x)
    ((g.vreg (e.post.d + 1#5)).elem e.cap.bits k x)

/-- New values at the positions that swap. -/
def swapIf (e : QEntry) (imm : Bool) (g : Hart) (lo hi : Nat) (v : Nat → Nat → Nat) (k x : Nat) : Option Nat :=
  if e.cap.runs g lo hi k x && swapUp e imm g k x then some (v k x) else none

/-- The registers behind a swap of what `g` has read. -/
def swapWritten (e : QEntry) (imm : Bool) (lo hi : Nat) (g : Hart) : Hart :=
  let zt := zType e.cap.bits
  let cov := e.cap.covers e.first
  let idx (k x : Nat) : Nat := (g.vreg (e.post.d + 1#5)).elem e.cap.bits k x
  (((g.writeVec e.post.d none e.cap.et e.cap cov (swapIf e imm g lo hi fun k x => (g.vreg e.post.a).elem e.cap.bits k x)).writeVec
    (e.post.d + 1#5) none zt e.cap cov (swapIf e imm g lo hi (swapCandidate e imm g))).writeVec
    e.post.a none e.cap.et e.cap cov (swapIf e imm g lo hi fun k x => (g.vreg e.post.d).elem e.cap.bits k x)).writeVec
    (swapIndex e.post imm) none zt e.cap cov fun k x =>
      if imm then (if e.cap.runs g lo hi k x then some (if swapUp e imm g k x then idx k x else swapCandidate e imm g k x) else none)
      else swapIf e imm g lo hi idx k x

/-- Whether a position of a swap held or met a NaN (R541). -/
def swapGate (e : QEntry) (lo hi : Nat) (g : Hart) : Bool :=
  let isn (n : Nat) : Bool := (fpDecode (fmtEt e.cap.et) n).isNaN
  etFloat e.cap.et && e.cap.anyOver lo hi fun k x => e.cap.runs g lo hi k x &&
    (isn ((g.vreg e.post.d).elem e.cap.bits k x) || isn ((g.vreg e.post.a).elem e.cap.bits k x))

theorem swapWritten_only (e : QEntry) (imm : Bool) (lo hi : Nat) (h : Hart) : ∃ v, swapWritten e imm lo hi (swapRead e imm h) = { h with v := v } := by
  have written {g : Hart} (hg : ∃ v, g = { h with v := v }) (d : VNum) (et : ETCode) (f : Nat → Nat → Option Nat) :
      ∃ v, g.writeVec d none et e.cap (e.cap.covers e.first) f = { h with v := v } := by
    obtain ⟨v, rfl⟩ := hg
    obtain ⟨v', hv'⟩ := Hart.writeVec_only { h with v := v } d none et e.cap (e.cap.covers e.first) f
    exact ⟨v', hv'⟩
  have hread : ∃ v, swapRead e imm h = { h with v := v } := by
    obtain ⟨v, hv⟩ := h.relayAll_only e.cap.et e.cap.lmap [e.post.d, e.post.a]
    obtain ⟨v', hv'⟩ := Hart.relayAll_only { h with v := v } (zType e.cap.bits) e.cap.lmap (if imm then [e.post.d + 1#5] else [e.post.d + 1#5, swapIndex e.post imm])
    exact ⟨v', by rw [swapRead, hv, hv']⟩
  exact written (written (written (written hread _ _ _) _ _ _) _ _ _) _ _ _

theorem runKswap_eq (imm : Bool) (e : QEntry) (lo hi : Nat) (h : Hart) : ∃ vpi, runKswap imm e lo hi h =
    { swapWritten e imm lo hi (swapRead e imm h) with vpi := vpi, gatef := h.gatef || swapGate e lo hi (swapRead e imm h) } := by
  obtain ⟨v, hv⟩ := swapWritten_only e imm lo hi h
  have hgate : (swapWritten e imm lo hi (swapRead e imm h)).gatef = h.gatef := by rw [hv]
  rw [← hgate]
  exact ⟨_, rfl⟩

/-- The registers behind a swap: each of the four is written where the candidate stands above; every other stands (R541, R542). -/
theorem swapWritten_vreg {e : QEntry} (hd1 : e.post.d ≠ e.post.d + 1#5) (hda : e.post.d ≠ e.post.a) (hdi : e.post.d ≠ swapIndex e.post imm)
    (h1a : e.post.d + 1#5 ≠ e.post.a) (h1i : e.post.d + 1#5 ≠ swapIndex e.post imm) (hai : e.post.a ≠ swapIndex e.post imm) (lo hi : Nat) (g : Hart) (n : VNum) :
    let zt := zType e.cap.bits
    let write (et : ETCode) (f : Nat → Nat → Option Nat) : VReg :=
      ((g.vreg n).dest et e.cap.lmap e.cap.vl e.cap.vrows (e.cap.covers e.first)).write (etBits et) e.cap.vl e.cap.vrows f
    (swapWritten e imm lo hi g).vreg n =
      if n = e.post.d then write e.cap.et (swapIf e imm g lo hi fun k x => (g.vreg e.post.a).elem e.cap.bits k x)
      else if n = e.post.d + 1#5 then write zt (swapIf e imm g lo hi (swapCandidate e imm g))
      else if n = e.post.a then write e.cap.et (swapIf e imm g lo hi fun k x => (g.vreg e.post.d).elem e.cap.bits k x)
      else if n = swapIndex e.post imm then write zt fun k x =>
        if imm then (if e.cap.runs g lo hi k x then some (if swapUp e imm g k x then (g.vreg (e.post.d + 1#5)).elem e.cap.bits k x
          else swapCandidate e imm g k x) else none)
        else swapIf e imm g lo hi (fun k x => (g.vreg (e.post.d + 1#5)).elem e.cap.bits k x) k x
      else g.vreg n := by
  intro zt write
  unfold swapWritten
  simp only [Hart.writeVec_vreg_none]
  by_cases hn : n = e.post.d
  · subst hn
    simp only [hd1, hda, hdi, if_false, if_true]
    rfl
  · by_cases hn1 : n = e.post.d + 1#5
    · subst hn1
      simp only [hd1.symm, h1a, h1i, if_false, if_true]
      rfl
    · by_cases hna : n = e.post.a
      · subst hna
        simp only [hda.symm, h1a.symm, hai, if_false, if_true]
        rfl
      · simp only [hn, hn1, hna, if_false]
        rfl

/-- Index `n` of a position, read at the type of indices. -/
def indexElem (s : State) (n : VNum) (k x : Nat) : Nat := ((s.h.vreg n).relaid (zType (width s)) (vtGroups s.h.vtype)).elem (width s) k x

/-- The index of the candidate at a position, before the swap. -/
def candidateIndex (s : State) (p : Posted) (imm : Bool) (k x : Nat) : Nat :=
  if imm then (s.h.newEntry p).opb.toNat % 2 ^ width s else indexElem s (swapIndex p imm) k x

section
variable {h : Hart} {e : QEntry} (hb : Begun s p h e) (hcap : (s.h.newEntry p).cap.vl = s.h.vl ∧ (s.h.newEntry p).cap.vrows = s.h.vrows ∧
    (s.h.newEntry p).cap.et = vtEt s.h.vtype ∧ (s.h.newEntry p).cap.lmap = vtGroups s.h.vtype)
include hb hcap

theorem Begun.swapRead_vreg (n : VNum) : (swapRead e imm h).vreg n =
    let v := if n = p.d ∨ n = p.a then source s n else s.h.vreg n
    if n = p.d + 1#5 ∨ (imm = false ∧ n = swapIndex p imm) then v.relaid (zType (width s)) (vtGroups s.h.vtype) else v := by
  obtain ⟨-, -, hcet, hclmap⟩ := hcap
  rw [swapRead, Hart.relayAll_vreg, Hart.relayAll_vreg, hb.vreg, hb.post, Cap.bits, hb.cap, hcet, hclmap]
  cases imm <;> simp [source, width]

omit hcap in
theorem Begun.swapRead_active : e.cap.active (swapRead e imm h) = activeAt s p := by
  funext k x
  rw [activeAt, Cap.active, Cap.active, swapRead, Hart.relayAll_mask, Hart.relayAll_mask, hb.mask, hb.cap]

end

/-- An index-carrying swap at an idle hart completes in its step (R541, R542). -/
theorem swap_completes {i : Instr} (hx : exec i s = issue p s) (hbody : p.body = .kswap imm) (heng : p.eng = .vector) (hxd : p.xd = none) (hruns : Runs s p)
    (hshape : s.h.vl * s.h.vrows ≠ 0) :
    let et := vtEt s.h.vtype
    let zt := zType (width s)
    let idx := indexElem s
    let ci := candidateIndex s p imm
    let up (k x : Nat) : Bool :=
      let rel (c : BitVec 3) : Bool := (cmpElem c (if etFloat et then 3#2 else if etSigned et then 0#2 else 1#2) et (srcElem s p.a k x) (srcElem s p.d k x)).1
      rel 4#3 || (rel 0#3 && decide (ci k x < idx (p.d + 1#5) k x))
    let sw (v : Nat → Nat → Nat) (k x : Nat) : Option Nat := if executes s p k x && up k x then some (v k x) else none
    let isn (n : Nat) : Prop := (fpDecode (fmtEt et) n).isNaN = true
    ∃ t, exec i s = .next t ∧ PostedFrame s t (fun h => { h with gatef := s.h.gatef }) ∧ t.h.fcsr = s.h.fcsr ∧
      RegWritten s t p.d et (s.h.vreg p.d) false (sw (srcElem s p.a)) ∧ RegWritten s t (p.d + 1#5) zt (s.h.vreg (p.d + 1#5)) false (sw ci) ∧
      RegWritten s t p.a et (s.h.vreg p.a) false (sw (srcElem s p.d)) ∧
      RegWritten s t (swapIndex p imm) zt (s.h.vreg (swapIndex p imm)) false
        (fun k x => if imm && executes s p k x && !up k x then some (ci k x) else sw (idx (p.d + 1#5)) k x) ∧
      (t.h.gatef = true ↔ s.h.gatef = true ∨ (etFloat et = true ∧ ∃ k x, k < s.h.vrows ∧ x < s.h.vl ∧ executes s p k x = true ∧
        (isn (srcElem s p.d k x) ∨ isn (srcElem s p.a k x)))) ∧
      ∀ n, n ≠ p.d → n ≠ p.d + 1#5 → n ≠ p.a → n ≠ swapIndex p imm → t.h.vreg n = s.h.vreg n := by
  intro et zt idx ci up sw isn
  obtain ⟨hd1, hda, hdi, h1a, h1i, hai⟩ := hruns.1.swap_apart hbody
  have hcap := hruns.captured
  obtain ⟨h, e, a, hb, he, hdone⟩ := hruns.completes
  obtain ⟨hcvl, hcrows, hcet, hclmap⟩ := id hcap
  obtain ⟨pc, c0, c1, pv, tok, hh⟩ := id hb.only
  have hstart : (s.mod fun _ => h).served s.cur p.eng = s.mod fun _ => h := by rw [heng]; rfl
  have hhart : (s.mod fun _ => h).harts[s.cur] = h := State.mod_h s _
  obtain ⟨hi, hge, hlt, e2, heid, hpost, -, hrun⟩ := runElems_whole (runKswap imm) elemGrain (fun n => Nat.le_refl n) s.cur e (s.mod fun _ => h)
    (by rw [hhart]; exact hb.queue)
  obtain ⟨vpi, hswap⟩ := runKswap_eq imm e e.prog hi h
  obtain ⟨v, hv⟩ := swapWritten_only e imm e.prog hi h
  have hu : (s.mod fun _ => h).modHart s.cur (runKswap imm e e.prog hi) = s.mod fun _ => runKswap imm e e.prog hi h := State.mod_mod s _ _
  have huh : (s.mod fun _ => runKswap imm e e.prog hi h).harts[s.cur] = runKswap imm e e.prog hi h := State.mod_h s _
  have hl := hdone (u := s.mod fun _ => runKswap imm e e.prog hi h) (x := none) (e2 := e2) (by
    rw [hstart, bodyRun, hb.post, hbody, ← hu, ← hrun]
    simp [show e.total ≠ 0 by rw [hb.total]; exact hshape]) heid (hpost.trans hb.post) rfl (by rw [huh, hswap, hv]; exact ⟨_, _, _, _, _, _, _, _, _, rfl⟩)
  have hreg (n : VNum) : (s.postNow p).h.vreg n = (swapWritten e imm e.prog hi (swapRead e imm h)).vreg n := by
    rw [Hart.vreg, hl.v, huh, hswap]
    rfl
  have hg (n : VNum) := hb.swapRead_vreg (imm := imm) hcap n
  have hact := hb.swapRead_active (imm := imm)
  have hgate : (s.postNow p).h.gatef = (s.h.gatef || swapGate e e.prog hi (swapRead e imm h)) := by
    rw [hl.gatef, huh, hswap, hh]
  have hruns' {k x : Nat} (hk : k < s.h.vrows) (hx : x < s.h.vl) := hb.runs_eq hcvl hlt hact hk hx
  have hanyOver := hb.anyOver_iff hcvl hge hlt hact
  generalize swapRead e imm h = g at *
  have hgd : g.vreg p.d = source s p.d := by rw [hg]; simp [hd1, hdi]
  have hga : g.vreg p.a = source s p.a := by rw [hg]; simp [h1a.symm, hai]
  have hg1 : g.vreg (p.d + 1#5) = (s.h.vreg (p.d + 1#5)).relaid zt (vtGroups s.h.vtype) := by rw [hg]; simp [hd1.symm, h1a, zt]
  have hgi : g.vreg (swapIndex p imm) = if imm then s.h.vreg (swapIndex p imm) else (s.h.vreg (swapIndex p imm)).relaid zt (vtGroups s.h.vtype) := by
    rw [hg]
    cases imm <;> simp [hdi.symm, hai.symm, h1i.symm, zt]
  have hbits : e.cap.bits = width s := by rw [Cap.bits, hb.cap, hcet, width]
  have hbits' : (s.h.newEntry p).cap.bits = width s := by rw [Cap.bits, hcet, width]
  have hcand : swapCandidate e imm g = ci := by
    funext k x
    have hopb : e.opb = (s.h.newEntry p).opb := by rw [he]
    cases himm : imm with
    | true => simp [swapCandidate, ci, candidateIndex, himm, hbits, hopb]
    | false =>
      simp only [himm, Bool.false_eq_true, if_false] at hgi
      simp [swapCandidate, ci, candidateIndex, himm, hb.post, hgi, hbits, indexElem, zt]
  have hup : swapUp e imm g = up := by
    funext k x
    rw [swapUp, hb.post, hga, hgd, hg1, hcand, hbits, aboveElem_eq, hb.cap, hcet]
    rfl
  have hsw (v : Nat → Nat → Nat) {k x : Nat} (hk : k < s.h.vrows) (hx : x < s.h.vl) : swapIf e imm g e.prog hi v k x = sw v k x := by
    rw [swapIf, hruns' hk hx, hup]
  have hwritten (n : VNum) := (hreg n).trans (swapWritten_vreg (e := e) (imm := imm) (by rw [hb.post]; exact hd1) (by rw [hb.post]; exact hda)
    (by rw [hb.post]; exact hdi) (by rw [hb.post]; exact h1a) (by rw [hb.post]; exact h1i) (by rw [hb.post]; exact hai) e.prog hi g n)
  simp only [hb.post, hb.cap, hcvl, hcrows, hcet, hclmap, hup, hcand, hbits', hga, hgd, hg1] at hwritten
  have hwhole : (s.h.newEntry p).cap.covers e.first = wholeWrite s p := by rw [he]; rfl
  rw [hwhole] at hwritten
  refine ⟨s.postNow p, by rw [hx, issue_postable hruns.1], hl.postedFrame ?_ ?_ rfl rfl fun j hj => ?_, ?_, ?_, ?_, ?_, ?_, ?_, fun n h1 h2 h3 h4 => ?_⟩
  · rw [State.restored, show s.h.x = (s.postNow p).h.x by rw [hl.x, hxd]; rfl, show s.h.m = (s.postNow p).h.m by rw [hl.m, huh, hswap, hv, hh],
      show s.h.ev = (s.postNow p).h.ev by rw [hl.ev, huh, hswap, hv, hh], show s.h.ncnt = (s.postNow p).h.ncnt by rw [hl.ncnt, huh, hswap, hv, hh],
      show s.h.cfails = (s.postNow p).h.cfails by rw [hl.cfails, huh, hswap, hv, hh]]
  · rw [huh, hswap, hv, hh]
  · exact State.mod_other s j _ hj
  · rw [hl.fcsr, huh, hswap, hv, hh]
  · refine regWritten_of_write ((hwritten p.d).trans (if_pos rfl)) (fun k x hk hx => hsw _ hk hx) fun k x _ hxb _ _ _ => ?_
    rw [hgd]
    exact keptElem_relaid _ _ hxb
  · refine regWritten_of_write ((hwritten (p.d + 1#5)).trans ((if_neg hd1.symm).trans (if_pos rfl))) (fun k x hk hx => hsw _ hk hx) fun k x _ hxb _ _ _ => ?_
    rw [hg1]
    exact keptElem_relaid _ _ hxb
  · refine regWritten_of_write ((hwritten p.a).trans ((if_neg hda.symm).trans ((if_neg h1a.symm).trans (if_pos rfl)))) (fun k x hk hx => hsw _ hk hx)
      fun k x _ hxb _ _ _ => ?_
    rw [hga]
    exact keptElem_relaid _ _ hxb
  · refine regWritten_of_write ((hwritten (swapIndex p imm)).trans ((if_neg hdi.symm).trans ((if_neg h1i.symm).trans ((if_neg hai.symm).trans (if_pos rfl)))))
      (fun k x hk hx => ?_) fun k x hk16 hxb hk hx hnone => ?_
    · rw [← hb.cap, hruns' hk hx, hsw _ hk hx]
      cases imm <;> cases hex : executes s p k x <;> cases hu : up k x <;> simp [sw, hex, hu, idx, indexElem, zt]
    · cases imm with
      | false =>
        rw [hgi]
        exact keptElem_relaid _ _ hxb
      | true =>
        rw [hgi, if_pos rfl]
        cases hw : wholeWrite s p with
        | false => rfl
        | true =>
          have hx2 : x < 2048 := by
            have : (x + 1) * 8 ≤ (x + 1) * etBits zt := Nat.mul_le_mul_left _ (etBits_zType _)
            omega
          have hex := executes_of_whole heng hw hk16 hx2
          cases hu : up k x <;> simp [sw, hex, hu] at hnone
  · rw [hgate, Bool.or_eq_true, swapGate, Bool.and_eq_true, hanyOver, hb.post, hgd, hga, hb.cap, hcet, hbits']
    simp only [Bool.or_eq_true]
    rfl
  · rw [hwritten, if_neg h1, if_neg h2, if_neg h3, if_neg h4, hg]
    simp [h1, h2, h3, h4]

end

end Sys2Proof.Machine
end

section
/-! SUPPORT. Registers written element by element in a list's order (R237): where the list names a position once, the position takes its value. -/

namespace Sys2Proof.Machine
open Sys2Proof.Claims

/-- Elements written one after another: row, position and value. -/
def VReg.putAll (r : VReg) (b : Nat) (ws : List (Nat × Nat × Nat)) : VReg := ws.foldl (fun r w => r.setElem b w.1 w.2.1 w.2.2) r

theorem VReg.setElem_frame (r : VReg) (b k e v : Nat) : ∃ rows, r.setElem b k e v = { r with rows := rows } := by
  unfold VReg.setElem
  split <;> exact ⟨_, rfl⟩

theorem VReg.putAll_frame (r : VReg) (b : Nat) (ws : List (Nat × Nat × Nat)) : ∃ rows, r.putAll b ws = { r with rows := rows } := by
  induction ws generalizing r with
  | nil => exact ⟨_, rfl⟩
  | cons w ws ih =>
    obtain ⟨rows, h⟩ := r.setElem_frame b w.1 w.2.1 w.2.2
    obtain ⟨rows', h'⟩ := ih (r.setElem b w.1 w.2.1 w.2.2)
    exact ⟨rows', by rw [VReg.putAll, List.foldl_cons, ← VReg.putAll, h', h]⟩

section
variable {r : VReg} {b k x : Nat} (hv : r.valid = true) (hk : k < 16) (hl : x < r.len) (hn : k < r.nrows) (hx : (x + 1) * b ≤ 8192)
include hv hk hl hn hx

theorem VReg.elem_setElem (j e v : Nat) : (r.setElem b j e v).elem b k x = if j = k ∧ e = x then v % 2 ^ b else r.elem b k x := by
  have hrow (q : VReg) : q.row k = q.rows[k] := by simp [VReg.row, hk]
  unfold VReg.setElem
  by_cases hj : j < 16
  · rw [dif_pos hj]
    simp only [VReg.elem, hv, hl, hn, decide_true, Bool.and_self, if_true, hrow]
    by_cases hjk : j = k
    · subst hjk
      rw [Vector.getElem_set_self, rowGet_rowPut _ _ _ _ _ hx]
      simp only [true_and, eq_comm]
    · rw [Vector.getElem_set_ne _ _ hjk]
      simp [hjk]
  · rw [dif_neg hj, if_neg fun h : j = k ∧ e = x => hj (h.1 ▸ hk)]

/-- A position that a list of writes names with one value takes it; one that it does not name stands. -/
theorem VReg.elem_putAll {ws : List (Nat × Nat × Nat)} {o : Option Nat} (hws : ∀ v, (k, x, v) ∈ ws ↔ o = some v) :
    (r.putAll b ws).elem b k x = (o.map (· % 2 ^ b)).getD (r.elem b k x) := by
  have fold (ws : List (Nat × Nat × Nat)) (r : VReg) (hv : r.valid = true) (hl : x < r.len) (hn : k < r.nrows) (y : Nat)
      (hy : r.elem b k x = y % 2 ^ b) (hws : ∀ v, (k, x, v) ∈ ws → v % 2 ^ b = y % 2 ^ b) : (r.putAll b ws).elem b k x = y % 2 ^ b := by
    induction ws generalizing r with
    | nil => exact hy
    | cons w ws ih =>
      obtain ⟨rows, hrows⟩ := r.setElem_frame b w.1 w.2.1 w.2.2
      refine ih (r.setElem b w.1 w.2.1 w.2.2) (by rw [hrows]; exact hv) (by rw [hrows]; exact hl) (by rw [hrows]; exact hn) ?_ fun v hv => hws v (List.mem_cons_of_mem _ hv)
      rw [VReg.elem_setElem hv hk hl hn hx]
      split
      next h => exact hws _ (by rw [← h.1, ← h.2]; exact List.mem_cons_self)
      next => exact hy
  cases o with
  | none =>
    have hself : r.elem b k x = r.elem b k x % 2 ^ b := (Nat.mod_eq_of_lt (r.elem_lt b k x)).symm
    rw [Option.map_none, Option.getD_none, hself]
    exact fold ws r hv hl hn _ hself fun v h => by cases (hws v).mp h
  | some y =>
    obtain ⟨l1, l2, rfl⟩ := List.append_of_mem ((hws y).mpr rfl)
    obtain ⟨rows, hrows⟩ := r.putAll_frame b l1
    obtain ⟨rows', hrows'⟩ := (r.putAll b l1).setElem_frame b k x y
    have hsplit : r.putAll b (l1 ++ (k, x, y) :: l2) = ((r.putAll b l1).setElem b k x y).putAll b l2 := by
      rw [VReg.putAll, List.foldl_append, List.foldl_cons]
      rfl
    rw [hsplit]
    refine fold l2 _ ?_ ?_ ?_ y ?_ fun v h => ?_
    · rw [hrows', hrows]; exact hv
    · rw [hrows', hrows]; exact hl
    · rw [hrows', hrows]; exact hn
    · rw [VReg.elem_setElem (by rw [hrows]; exact hv) hk (by rw [hrows]; exact hl) (by rw [hrows]; exact hn) hx, if_pos ⟨rfl, rfl⟩]
    · have := (hws v).mp (List.mem_append_right _ (List.mem_cons_of_mem _ h))
      rw [Option.some.inj this]

end

section
variable {s : State} {n : VNum} {et : ETCode}

/-- An element that a destination keeps (R237, R243). -/
theorem elem_dest_kept (r : VReg) (whole : Bool) {k x : Nat} (hk : k < 16) (hx : (x + 1) * etBits et ≤ 8192) (hkr : k < s.h.vrows) (hxl : x < s.h.vl) :
    (r.dest et (vtGroups s.h.vtype) s.h.vl s.h.vrows whole).elem (etBits et) k x = keptElem s r et whole k x := by
  obtain ⟨hvalid, -, -⟩ := VReg.dest_tag r et (vtGroups s.h.vtype) s.h.vl s.h.vrows whole
  obtain ⟨hlen, hrows⟩ := VReg.dest_covers r et (vtGroups s.h.vtype) s.h.vl s.h.vrows whole
  have h := elem_written_kept s r et whole (fun _ _ => none) k x hk hx hkr hxl
  rw [VReg.elem_write _ _ _ _ _ _ _ hk hx hvalid hlen hrows, if_pos ⟨hkr, hxl⟩] at h
  exact h

/-- What a register is after elements have been put into it, in the words of the statements. -/
theorem regWritten_of_putAll {t : State} {old : VReg} {whole : Bool} {ws : List (Nat × Nat × Nat)} {g : Nat → Nat → Option Nat}
    (ht : t.h.vreg n = (old.dest et (vtGroups s.h.vtype) s.h.vl s.h.vrows whole).putAll (etBits et) ws)
    (hws : ∀ k x v, k < s.h.vrows → x < s.h.vl → ((k, x, v) ∈ ws ↔ g k x = some v)) : RegWritten s t n et old whole g := by
  obtain ⟨hvalid, het, hlmap⟩ := VReg.dest_tag old et (vtGroups s.h.vtype) s.h.vl s.h.vrows whole
  obtain ⟨hlen, hrows⟩ := VReg.dest_covers old et (vtGroups s.h.vtype) s.h.vl s.h.vrows whole
  obtain ⟨rows, hput⟩ := (old.dest et (vtGroups s.h.vtype) s.h.vl s.h.vrows whole).putAll_frame (etBits et) ws
  refine ⟨by rw [ht, hput]; exact hvalid, by rw [ht, hput]; exact het, by rw [ht, hput]; exact hlmap, fun k x hk hx hkr hxl => ?_⟩
  rw [ht, VReg.elem_putAll hvalid hk (by omega) (by omega) hx fun v => hws k x v hkr hxl, elem_dest_kept _ _ hk hx hkr hxl]
  cases g k x <;> rfl

end

/-! ### Destinations of an entry -/

/-- A register of a hart with elements put into it as a destination of an entry (R237). -/
def Hart.putInto (h : Hart) (e : QEntry) (et : ETCode) (ws : List (Nat × Nat × Nat)) (n : VNum) : Hart :=
  h.setVreg n (((h.vreg n).dest et e.cap.lmap e.cap.vl e.cap.vrows (e.cap.covers e.first)).putAll (etBits et) ws)

/-- Elements put into vd, and into vc under a destination copy (R409). -/
def Hart.putDests (h : Hart) (e : QEntry) (et : ETCode) (ws : List (Nat × Nat × Nat)) : Hart :=
  match e.copy with
  | none => h.putInto e et ws e.post.d
  | some n => (h.putInto e et ws e.post.d).putInto e et ws n

theorem Hart.putInto_vreg (h : Hart) (e : QEntry) (et : ETCode) (ws : List (Nat × Nat × Nat)) (n q : VNum) : (h.putInto e et ws n).vreg q =
    if q = n then ((h.vreg q).dest et e.cap.lmap e.cap.vl e.cap.vrows (e.cap.covers e.first)).putAll (etBits et) ws else h.vreg q := by
  by_cases hq : q = n
  · subst hq
    simp [Hart.putInto]
  · rw [if_neg hq]
    exact Hart.vreg_setVreg_other _ _ _ _ hq

theorem Hart.putDests_vreg {e : QEntry} (hcopy : e.copy ≠ some e.post.d) (h : Hart) (et : ETCode) (ws : List (Nat × Nat × Nat)) (q : VNum) :
    (h.putDests e et ws).vreg q = if q = e.post.d ∨ e.copy = some q then
      ((h.vreg q).dest et e.cap.lmap e.cap.vl e.cap.vrows (e.cap.covers e.first)).putAll (etBits et) ws else h.vreg q := by
  unfold Hart.putDests
  cases hc : e.copy with
  | none => simp [Hart.putInto_vreg]
  | some m =>
    have hm : m ≠ e.post.d := fun h => hcopy (by rw [hc, h])
    simp only [Hart.putInto_vreg, Option.some.injEq]
    by_cases hqm : q = m
    · subst hqm
      simp [hm]
    · simp [hqm, eq_comm (a := m)]

theorem Hart.putDests_only (h : Hart) (e : QEntry) (et : ETCode) (ws : List (Nat × Nat × Nat)) : ∃ v, h.putDests e et ws = { h with v := v } := by
  unfold Hart.putDests
  split <;> exact ⟨_, rfl⟩

end Sys2Proof.Machine
end

section
/-! SUPPORT. Block quantisation at an idle hart (R271, R520, R522): its blocks as lists of elements put into vd and of scales put into vb. -/

namespace Sys2Proof.Machine
open Sys2Proof.Claims

/-! ### What the run writes -/

/-- The blocks that begin in a part: row, block, scale and elements, those with an active element. -/
def qbsMade (e : QEntry) (dt : ETCode) (lo hi : Nat) (g : Hart) : List (Nat × Nat × Nat × List (Nat × FpVal)) :=
  let c := e.cap
  let blocks := (List.range c.vrows).flatMap fun k => ((List.range ((c.vl + 255) / 256)).filter fun j =>
    decide (lo - lo % c.vl % 256 ≤ k * c.vl + 256 * j) && decide (k * c.vl + 256 * j < hi)).map (k, ·)
  (blocks.map fun kj =>
    let es := qbsBlock c g (g.vreg e.post.a) kj.1 kj.2
    (kj.1, kj.2, qbsScale dt (es.map (·.2)), es)).filter fun x => !x.2.2.2.isEmpty

/-- The elements that a part quantises, with their flags: none at or above the VLMAX of the target (R520). -/
def qbsPuts (e : QEntry) (dt : ETCode) (lo hi : Nat) (g : Hart) : List (Nat × Nat × Nat × Flags) :=
  (qbsMade e dt lo hi g).flatMap fun x => (x.2.2.2.filter fun ev => decide (ev.1 < vlmaxOf (groupCount e.cap.lmap) dt)).map fun ev =>
    (x.1, ev.1, qbsElem dt x.2.2.1 ev.2)

/-- The registers behind a part: the destinations, then the scales in vb. -/
def qbsWritten (e : QEntry) (dt : ETCode) (lo hi : Nat) (g : Hart) : Hart :=
  let g2 := g.putDests e dt ((qbsPuts e dt lo hi g).map fun w => (w.1, w.2.1, w.2.2.1))
  g2.setVreg e.post.b (((g2.vreg e.post.b).dest 4#4 e.cap.lmap e.cap.vl e.cap.vrows false).putAll 8
    ((qbsMade e dt lo hi g).map fun x => (x.1, x.2.1, x.2.2.1)))

theorem runQbs_eq (e : QEntry) (lo hi : Nat) (h : Hart) :
    let g := h.relayAll e.cap.et e.cap.lmap [e.post.a]
    let dt := qbsTarget h e
    runQbs e lo hi h = ((((qbsWritten e dt lo hi g).raise ((qbsPuts e dt lo hi g).foldl (fun fl w => fl ||| w.2.2.2) 0#5)).setVpis e.post.d e.copy hi).setVpi
      e.post.b hi) := by
  simp only [runQbs, qbsWritten, Hart.putDests, Hart.putInto, VReg.putAll, qbsPuts, List.foldl_map, List.foldl_flatMap]
  rfl

/-! ### Registers apart (R406, R523) -/

/-- Neither vd nor vc names a source that it may not. -/
theorem Postable.dest_ok {s : State} {p : Posted} (hp : Postable s p) {n : VNum} (hn : n = p.d ∨ (s.h.newEntry p).copy = some n) : destBad p n = false := by
  have hb := hp.1
  unfold State.postBad at hb
  simp only [Bool.or_eq_false_iff] at hb
  have hdest := List.any_eq_false.mp hb.1.1.2
  refine Bool.eq_false_iff.mpr (hdest n ?_)
  rcases hn with rfl | hn
  · exact List.mem_cons_self
  · refine List.mem_cons_of_mem _ ?_
    unfold QEntry.copy Hart.newEntry at hn
    cases hpfx : s.h.pfxNext with
    | false => simp [hpfx] at hn
    | true =>
      by_cases hdc : pfxDc s.h.pfx = true
      · simp only [hpfx, hdc, if_true, Option.some.injEq] at hn
        simp [hdc, hn]
      · simp [hpfx, hdc] at hn

/-- The registers of a quantisation are different ones. -/
theorem Postable.qbs_apart {s : State} {p : Posted} (hp : Postable s p) (hbody : p.body = .qbs) :
    p.a ≠ p.b ∧ ∀ n, n = p.d ∨ (s.h.newEntry p).copy = some n → n ≠ p.a ∧ n ≠ p.b := by
  refine ⟨?_, fun n hn => ?_⟩
  · have hb := hp.1
    unfold State.postBad at hb
    simp only [Bool.or_eq_false_iff] at hb
    have hbad := hb.1.2
    unfold bodyBad at hbad
    rw [hbody] at hbad
    simpa using (Bool.or_eq_false_iff.mp hbad).2
  · have hok := hp.dest_ok hn
    unfold destBad at hok
    rw [hbody] at hok
    simpa using hok

/-- The registers behind a part of a quantisation. -/
theorem qbsWritten_vreg {e : QEntry} (hcopy : e.copy ≠ some e.post.d) (hb : ∀ n, n = e.post.d ∨ e.copy = some n → n ≠ e.post.b) (dt : ETCode) (lo hi : Nat)
    (g : Hart) (n : VNum) : (qbsWritten e dt lo hi g).vreg n =
      if n = e.post.b then ((g.vreg n).dest 4#4 e.cap.lmap e.cap.vl e.cap.vrows false).putAll 8 ((qbsMade e dt lo hi g).map fun x => (x.1, x.2.1, x.2.2.1))
      else if n = e.post.d ∨ e.copy = some n then ((g.vreg n).dest dt e.cap.lmap e.cap.vl e.cap.vrows (e.cap.covers e.first)).putAll (etBits dt)
        ((qbsPuts e dt lo hi g).map fun w => (w.1, w.2.1, w.2.2.1))
      else g.vreg n := by
  unfold qbsWritten
  dsimp only
  by_cases hn : n = e.post.b
  · subst hn
    rw [if_pos rfl, Hart.vreg_setVreg_same, Hart.putDests_vreg hcopy, if_neg fun h => hb _ h rfl]
  · rw [if_neg hn, Hart.vreg_setVreg_other _ _ _ _ hn]
    exact Hart.putDests_vreg hcopy _ _ _ n

/-! ### Blocks (R271) -/

theorem clampInt_eq (i : Int) : clampInt (-127) 127 i = max (-127) (min 127 i) := by
  unfold clampInt
  split_ifs <;> omega

theorem qbsScale_eq (dt : ETCode) (vs : List FpVal) : qbsScale dt vs = blockScale (qbsQ dt) vs := by
  unfold qbsScale blockScale
  simp only [clampInt_eq, floorLog2] <;> rfl

/-- Block `j` of `n` positions holds those whose number is `j` times 256 and less than 256 more. -/
theorem filter_block (n j : Nat) : (List.range n).filter (fun e => e / 256 == j) = (List.range (min (256 * j + 256) n - 256 * j)).map (256 * j + ·) := by
  rcases Nat.le_total n (256 * j) with h | h
  · rw [Nat.sub_eq_zero_of_le (by omega)]
    refine List.filter_eq_nil_iff.mpr fun e he => ?_
    have := List.mem_range.mp he
    simp only [beq_iff_eq]
    omega
  · obtain ⟨rest, hn⟩ : ∃ rest, n = 256 * j + ((min (256 * j + 256) n - 256 * j) + rest) := ⟨n - min (256 * j + 256) n, by omega⟩
    generalize hlen : min (256 * j + 256) n - 256 * j = len at *
    rw [hn, List.range_add, List.range_add, List.map_append, List.filter_append, List.filter_append]
    rw [List.filter_eq_nil_iff.mpr, List.filter_eq_self.mpr, List.filter_eq_nil_iff.mpr, List.nil_append, List.append_nil]
    · intro e he
      obtain ⟨y, hy, rfl⟩ := List.mem_map.mp he
      obtain ⟨z, hz, rfl⟩ := List.mem_map.mp hy
      have := List.mem_range.mp hz
      simp only [beq_iff_eq]
      omega
    · intro e he
      obtain ⟨y, hy, rfl⟩ := List.mem_map.mp he
      have := List.mem_range.mp hy
      simp only [beq_iff_eq]
      omega
    · intro e he
      have := List.mem_range.mp he
      simp only [beq_iff_eq]
      omega

/-- The active positions of block `j` of row `k`. -/
def blockPositions (s : State) (p : Posted) (k j : Nat) : List Nat := (List.range s.h.vl).filter fun e => e / 256 == j && activeAt s p k e

theorem mem_blockPositions {s : State} {p : Posted} {k j e : Nat} : e ∈ blockPositions s p k j ↔ e < s.h.vl ∧ e / 256 = j ∧ activeAt s p k e = true := by
  simp [blockPositions]

/-- The values of the active elements of a block. -/
def blockVals (s : State) (p : Posted) (f : Fmt) (k j : Nat) : List FpVal := (blockPositions s p k j).map fun e => fpDecode f (srcElem s p.a k e)

section
variable {s : State} {p : Posted} {h : Hart} {e : QEntry} {f : Fmt} (hb : Begun s p h e) (hcap : (s.h.newEntry p).cap.vl = s.h.vl ∧
    (s.h.newEntry p).cap.vrows = s.h.vrows ∧ (s.h.newEntry p).cap.et = vtEt s.h.vtype ∧ (s.h.newEntry p).cap.lmap = vtGroups s.h.vtype)
  (hf : etFmt (vtEt s.h.vtype) = some f)
include hb hcap hf

/-- Once the source is read, a block holds the values of its active elements. -/
theorem Begun.qbsBlock_eq (k j : Nat) : qbsBlock e.cap (h.relayAll e.cap.et e.cap.lmap [e.post.a]) ((h.relayAll e.cap.et e.cap.lmap [e.post.a]).vreg e.post.a) k j =
    (blockPositions s p k j).map fun x => (x, fpDecode f (srcElem s p.a k x)) := by
  obtain ⟨hcvl, -, hcet, hclmap⟩ := hcap
  have hsrc : (h.relayAll e.cap.et e.cap.lmap [e.post.a]).vreg e.post.a = source s p.a := by
    rw [Hart.relayAll_vreg, if_pos (List.mem_singleton_self _), hb.vreg, hb.post, hb.cap, hcet, hclmap]
    rfl
  have hact (x : Nat) : e.cap.active (h.relayAll e.cap.et e.cap.lmap [e.post.a]) k x = activeAt s p k x := by
    rw [activeAt, Cap.active, Cap.active, Hart.relayAll_mask, hb.mask, hb.cap]
  have hfmt : fmtEt e.cap.et = f := by rw [hb.cap, hcet, fmtEt, hf]; rfl
  unfold qbsBlock
  simp only [hact, hfmt, hsrc]
  rw [hb.cap, hcvl, ← filter_block, blockPositions, ← List.filterMap_eq_map, List.filterMap_filter, List.filterMap_filter]
  refine List.filterMap_congr fun x _ => ?_
  rw [Cap.bits, hcet]
  by_cases hx : x / 256 = j <;> by_cases ha : activeAt s p k x = true <;> simp [hx, ha, srcElem, width]

variable {hi : Nat} (hhi : hi = s.h.vl * s.h.vrows)
include hhi

/-- Whether block `j` of row `k` begins at or above the block of VSTART (R522). -/
def blockRuns (s : State) (p : Posted) (k j : Nat) : Bool :=
  decide ((s.h.newEntry p).prog - (s.h.newEntry p).prog % s.h.vl % 256 ≤ k * s.h.vl + 256 * j)

theorem Begun.mem_qbsMade (dt : ETCode) (x : Nat × Nat × Nat × List (Nat × FpVal)) :
    x ∈ qbsMade e dt e.prog hi (h.relayAll e.cap.et e.cap.lmap [e.post.a]) ↔
      x.1 < s.h.vrows ∧ 256 * x.2.1 < s.h.vl ∧ blockRuns s p x.1 x.2.1 = true ∧ blockPositions s p x.1 x.2.1 ≠ [] ∧
      x.2.2.1 = blockScale (qbsQ dt) (blockVals s p f x.1 x.2.1) ∧
      x.2.2.2 = (blockPositions s p x.1 x.2.1).map fun y => (y, fpDecode f (srcElem s p.a x.1 y)) := by
  have hblock := hb.qbsBlock_eq hcap hf
  obtain ⟨hcvl, hcrows, hcet, hclmap⟩ := hcap
  obtain ⟨k, j, sc, es⟩ := x
  have hj : j < (s.h.vl + 255) / 256 ↔ 256 * j < s.h.vl := by omega
  have hbelow (hk : k < s.h.vrows) (hj' : 256 * j < s.h.vl) : k * s.h.vl + 256 * j < hi := hhi ▸ tile_lt hk hj'
  simp only [qbsMade, List.mem_filter, List.mem_map, List.mem_flatMap, List.mem_range, hblock, List.map_map, Function.comp_def, qbsScale_eq, Bool.not_eq_true',
    List.isEmpty_eq_false_iff, hb.prog, Prod.exists, Prod.mk.injEq, Bool.and_eq_true, decide_eq_true_eq, blockRuns, blockVals]
  rw [hb.cap, hcvl, hcrows]
  constructor
  · rintro ⟨⟨k', j', ⟨k'', hk, j'', ⟨hj'', hrun, -⟩, rfl, rfl⟩, rfl, rfl, rfl, rfl⟩, hne⟩
    exact ⟨hk, hj.mp hj'', hrun, fun h => hne (by rw [h]; rfl), rfl, rfl⟩
  · rintro ⟨hk, hj', hrun, hne, rfl, rfl⟩
    exact ⟨⟨k, j, ⟨k, hk, j, ⟨hj.mpr hj', hrun, hbelow hk hj'⟩, rfl, rfl⟩, rfl, rfl, rfl, rfl⟩, fun h => hne (List.map_eq_nil_iff.mp h)⟩

/-- A quantised element and its flags, by the scale of its block (R271). -/
def quantised (s : State) (p : Posted) (f : Fmt) (dt : ETCode) (k x : Nat) : Nat × Flags :=
  if blockScale (qbsQ dt) (blockVals s p f k (x / 256)) = 255 then (0, flNV)
  else cvtVal (fmtEt dt) .rne true (scaleVal (fpDecode f (srcElem s p.a k x)) (127 - Int.ofNat (blockScale (qbsQ dt) (blockVals s p f k (x / 256)))))

/-- Whether an element is quantised (R520, R522). -/
def isQuantised (s : State) (p : Posted) (dt : ETCode) (k x : Nat) : Bool :=
  blockRuns s p k (x / 256) && activeAt s p k x && decide (x < vlmaxOf (groupCount (vtGroups s.h.vtype)) dt)

/-- The elements that a whole run quantises. -/
theorem Begun.mem_qbsPuts (dt : ETCode) (k x : Nat) (y : Nat × Flags) :
    (k, x, y) ∈ qbsPuts e dt e.prog hi (h.relayAll e.cap.et e.cap.lmap [e.post.a]) ↔
      k < s.h.vrows ∧ x < s.h.vl ∧ isQuantised s p dt k x = true ∧ y = quantised s p f dt k x := by
  have hmade := hb.mem_qbsMade hcap hf hhi dt
  have hlmap : e.cap.lmap = vtGroups s.h.vtype := by rw [hb.cap]; exact hcap.2.2.2
  unfold qbsPuts
  generalize qbsMade e dt e.prog hi (h.relayAll e.cap.et e.cap.lmap [e.post.a]) = made at hmade ⊢
  simp only [List.mem_flatMap, List.mem_map, List.mem_filter, decide_eq_true_eq, hmade, isQuantised, Bool.and_eq_true, hlmap, Prod.mk.injEq]
  constructor
  · rintro ⟨⟨k', j, sc, es⟩, ⟨hk, -, hrun, -, hsc, hes⟩, ⟨x', v⟩, ⟨hx, hmax⟩, rfl, rfl, rfl⟩
    dsimp only at hk hrun hsc hes hx hmax ⊢
    subst hsc hes
    obtain ⟨z, hz, hzx⟩ := List.mem_map.mp hx
    obtain ⟨rfl, rfl⟩ := Prod.mk.inj hzx
    obtain ⟨hzl, rfl, hact⟩ := mem_blockPositions.mp hz
    exact ⟨hk, hzl, ⟨⟨hrun, hact⟩, hmax⟩, rfl⟩
  · rintro ⟨hk, hx, ⟨⟨hrun, hact⟩, hmax⟩, rfl⟩
    have hin : x ∈ blockPositions s p k (x / 256) := mem_blockPositions.mpr ⟨hx, rfl, hact⟩
    exact ⟨(k, x / 256, blockScale (qbsQ dt) (blockVals s p f k (x / 256)), (blockPositions s p k (x / 256)).map fun y => (y, fpDecode f (srcElem s p.a k y))),
      ⟨hk, by dsimp only; omega, hrun, List.ne_nil_of_mem hin, rfl, rfl⟩, (x, fpDecode f (srcElem s p.a k x)), ⟨List.mem_map.mpr ⟨x, hin, rfl⟩, hmax⟩, rfl, rfl, rfl⟩

/-- The flags of a whole run are those of the elements that it quantises (R274). -/
theorem Begun.qbsFlags_eq (dt : ETCode) :
    (qbsPuts e dt e.prog hi (h.relayAll e.cap.et e.cap.lmap [e.post.a])).foldl (fun fl w => fl ||| w.2.2.2) 0#5 =
      flagsOf s (isQuantised s p dt) fun k x => (quantised s p f dt k x).2 := by
  have hputs := hb.mem_qbsPuts hcap hf hhi dt
  refine BitVec.eq_of_getLsbD_eq fun j _ => Bool.eq_iff_iff.mpr ?_
  rw [getLsbD_foldl_or, getLsbD_flagsOf]
  simp only [BitVec.getLsbD_zero, Bool.false_or, List.any_eq_true, Prod.exists]
  constructor
  · rintro ⟨k, x, v, fl, hmem, hfl⟩
    obtain ⟨hk, hx, hq, hv⟩ := (hputs k x (v, fl)).mp hmem
    exact ⟨k, x, hk, hx, hq, hv ▸ hfl⟩
  · rintro ⟨k, x, hk, hx, hq, hfl⟩
    exact ⟨k, x, _, _, (hputs k x _).mpr ⟨hk, hx, hq, rfl⟩, hfl⟩

end

theorem le_blockEnd {vl : Nat} (hvl : 0 < vl) (n : Nat) : n ≤ (blockGrain vl).up n := by
  unfold blockGrain blockEnd
  dsimp only
  rw [if_neg (by omega)]
  have hdiv := Nat.div_add_mod (n - 1) vl
  have hmod := Nat.mod_lt (n - 1) hvl
  rw [Nat.mul_comm] at hdiv
  omega

theorem qbsWritten_only (e : QEntry) (dt : ETCode) (lo hi : Nat) (g : Hart) : ∃ v, qbsWritten e dt lo hi g = { g with v := v } := by
  obtain ⟨v, hv⟩ := g.putDests_only e dt ((qbsPuts e dt lo hi g).map fun w => (w.1, w.2.1, w.2.2.1))
  unfold qbsWritten
  dsimp only
  rw [hv]
  exact ⟨_, rfl⟩

theorem runQbs_only (e : QEntry) (lo hi : Nat) (h : Hart) : ∃ v vpi fl, runQbs e lo hi h = { h with v := v, vpi := vpi, fcsr := fl } := by
  obtain ⟨v, hv⟩ := h.relayAll_only e.cap.et e.cap.lmap [e.post.a]
  rw [runQbs_eq]
  generalize hg : h.relayAll e.cap.et e.cap.lmap [e.post.a] = g at *
  obtain ⟨v', hv'⟩ := qbsWritten_only e (qbsTarget h e) lo hi g
  generalize (qbsPuts e (qbsTarget h e) lo hi g).foldl (fun fl w => fl ||| w.2.2.2) 0#5 = fl
  obtain ⟨vpi, hvpi⟩ := ((qbsWritten e (qbsTarget h e) lo hi g).raise fl).setVpis_only e.post.d e.copy hi
  rw [hvpi, hv', hv]
  exact ⟨_, _, _, rfl⟩

/-- Block quantisation at an idle hart completes in its step (R271, R520, R522). -/
theorem qbs_completes {s : State} {i : Instr} {p : Posted} {f : Fmt} (hx : exec i s = issue p s) (hbody : p.body = .qbs) (heng : p.eng = .vector) (hxd : p.xd = none)
    (hf : etFmt (vtEt s.h.vtype) = some f) (hruns : Runs s p) (hshape : s.h.vl * s.h.vrows ≠ 0) (hprog : (s.h.newEntry p).prog < s.h.vl * s.h.vrows) :
    let dt := qbsTarget s.h (s.h.newEntry p)
    ∃ t, exec i s = .next t ∧ PostedFrame s t id ∧
       t.h.fcsr = s.h.fcsr ||| (flagsOf s (isQuantised s p dt) (fun k x => (quantised s p f dt k x).2) ++ 0#4) ∧
       (∀ n, n = p.d ∨ (s.h.newEntry p).copy = some n → RegWritten s t n dt (s.h.vreg n) (wholeWrite s p) fun k x =>
         if isQuantised s p dt k x then some (quantised s p f dt k x).1 else none) ∧
       RegWritten s t p.b 4#4 (s.h.vreg p.b) false (fun k j => if blockRuns s p k j && decide (256 * j < s.h.vl) && !(blockVals s p f k j).isEmpty then
         some (blockScale (qbsQ dt) (blockVals s p f k j)) else none) ∧
       ∀ n, n ≠ p.d → (s.h.newEntry p).copy ≠ some n → n ≠ p.b → t.h.vreg n = if n = p.a then source s n else s.h.vreg n := by
  intro dt
  obtain ⟨hab, hapart⟩ := hruns.1.qbs_apart hbody
  have hcap := hruns.captured
  obtain ⟨hcvl, hcrows, hcet, hclmap⟩ := id hcap
  have hvl : 0 < s.h.vl := Nat.pos_of_ne_zero fun h => hshape (by rw [h, Nat.zero_mul])
  obtain ⟨h, e, hi, t, hb, hfirst, -, hlt, hexec, hframe, hvreg, hfcsr⟩ := exec_elems hx heng hxd hruns (f := runQbs) (g := blockGrain s.h.vl) (le_blockEnd hvl)
    (fun e u hb => by
      have hevl : e.vl = s.h.vl := by rw [← e.cap_vl, hb.cap, hcvl]
      rw [bodyRun, hb.post, hbody, hevl]
      simp [show e.total ≠ 0 by rw [hb.total]; exact hshape]) fun h e lo hi _ => runQbs_only e lo hi h
  have hhi : hi = s.h.vl * s.h.vrows := by
    rw [hb.total, hb.prog] at hlt
    exact hlt hprog
  have hdt : qbsTarget h e = dt := by
    unfold dt qbsTarget
    rw [hb.vreg, hb.post]
    rfl
  have hputs := hb.mem_qbsPuts hcap hf hhi dt
  have hmade := hb.mem_qbsMade hcap hf hhi dt
  have hflags := hb.qbsFlags_eq hcap hf hhi dt
  obtain ⟨v1, hv1⟩ := h.relayAll_only e.cap.et e.cap.lmap [e.post.a]
  have hread (n : VNum) : (h.relayAll e.cap.et e.cap.lmap [e.post.a]).vreg n = if n = p.a then source s n else s.h.vreg n := by
    rw [Hart.relayAll_vreg, hb.vreg, hb.post, hb.cap, hcet, hclmap]
    simp only [List.mem_singleton, source]
  have hrun := runQbs_eq e e.prog hi h
  dsimp only at hrun
  rw [hdt, hflags] at hrun
  generalize h.relayAll e.cap.et e.cap.lmap [e.post.a] = g at *
  have hcopy : e.copy ≠ some e.post.d := by rw [hb.copy, hb.post]; exact hruns.1.copy_ne
  have hreg (n : VNum) := (hvreg n).trans ((congrArg (Hart.vreg · n) hrun).trans ((Hart.setVpis_vreg _ _ _ _ n).trans
    (qbsWritten_vreg hcopy (by rw [hb.post, hb.copy]; exact fun n hn => (hapart n hn).2) dt e.prog hi g n)))
  simp only [hb.post, hb.copy, hb.cap, hcvl, hcrows, hclmap, hread] at hreg
  rw [show (s.h.newEntry p).cap.covers e.first = wholeWrite s p by rw [hfirst]; rfl] at hreg
  refine ⟨t, hexec, hframe, ?_, fun n hn => ?_, ?_, fun n h1 h2 h3 => ?_⟩
  · obtain ⟨v2, hv2⟩ := qbsWritten_only e dt e.prog hi g
    obtain ⟨vpi, hvpi⟩ := ((qbsWritten e dt e.prog hi g).raise (flagsOf s (isQuantised s p dt) fun k x => (quantised s p f dt k x).2)).setVpis_only e.post.d e.copy hi
    obtain ⟨pc, c0, c1, pv, tok, hh⟩ := hb.only
    rw [hfcsr, hrun, hvpi, hv2, hv1, hh]
    rfl
  · have hna := (hapart n hn).1
    have hnb := (hapart n hn).2
    refine regWritten_of_putAll (by rw [hreg, if_neg hnb, if_pos hn, if_neg hna]) fun k x v hk hxl => ?_
    simp only [List.mem_map, Prod.exists, Prod.mk.injEq]
    constructor
    · rintro ⟨k', x', v', fl, hmem, rfl, rfl, rfl⟩
      obtain ⟨-, -, hq, hv⟩ := (hputs k' x' (v', fl)).mp hmem
      rw [if_pos hq, ← hv]
    · intro hv
      split at hv
      next hq =>
        cases hv
        exact ⟨k, x, _, _, (hputs k x _).mpr ⟨hk, hxl, hq, rfl⟩, rfl, rfl, rfl⟩
      next => cases hv
  · refine regWritten_of_putAll (ws := (qbsMade e dt e.prog hi g).map fun x => (x.1, x.2.1, x.2.2.1)) (by rw [hreg, if_pos rfl, if_neg hab.symm]; rfl)
      fun k j v hk _ => ?_
    have hempty : (!(blockVals s p f k j).isEmpty) = true ↔ blockPositions s p k j ≠ [] := by simp [blockVals]
    simp only [List.mem_map, Prod.exists, Prod.mk.injEq]
    constructor
    · rintro ⟨k', j', sc, es, hmem, rfl, rfl, rfl⟩
      obtain ⟨-, hj, hrun, hne, hsc, -⟩ := (hmade (k', j', sc, es)).mp hmem
      rw [hempty.mpr hne, decide_eq_true hj, hrun]
      exact congrArg some hsc.symm
    · intro hv
      split at hv
      next hq =>
        simp only [Bool.and_eq_true, decide_eq_true_eq, hempty] at hq
        cases hv
        exact ⟨k, j, _, (blockPositions s p k j).map fun y => (y, fpDecode f (srcElem s p.a k y)), (hmade (k, j, _, _)).mpr ⟨hk, hq.1.2, hq.1.1, hq.2, rfl, rfl⟩, rfl, rfl, rfl⟩
      next => cases hv
  · rw [hreg, if_neg h3, if_neg (not_or.mpr ⟨h1, h2⟩)]

end Sys2Proof.Machine
end

section
/-! SUPPORT. An instruction at work on plain storage at an idle hart: where its accesses lead, and what a read and a write of its engine come to
(R332, R333, R451). -/

namespace Sys2Proof.Machine
open Sys2Proof.Claims

/-- An instruction behind an older copy alone waits for no chunk (R220). -/
theorem Hart.maskWait_lone {h : Hart} {e e' : QEntry} (hq : h.queue = [e]) (he : e'.eid = e.eid) (k x : Nat) : h.maskWait e' k x = false := by
  simp [Hart.maskWait, hq, he]

/-- Accesses of an instruction posted in `s`, whose own stores are to bytes `D`, have led to `u`, where its hart is `g` but for a reservation that is lost. -/
structure AtWork (s : State) (D : Nat → Prop) (g : Hart) (u : State) : Prop where
  reached : s.Reached D s.h.ctxid.toNat u
  stbuf : g.stbuf = []
  late : g.late = []
  ctxid : g.ctxid = s.h.ctxid
  hart : ∃ r, u.harts[s.cur] = { g with resv := r }
  others : ∀ j : Fin 4, j ≠ s.cur → ∃ r, u.harts[j] = { s.harts[j] with resv := r }
  sca : u.mem.sca = s.mem.sca

section
variable {s u v : State} {D : Nat → Prop} {g : Hart} (h : AtWork s D g u)
include h

theorem AtWork.fab_eq : u.fab = s.fab := by
  obtain ⟨_, _, _, _, _, _, _, _, rfl⟩ := h.reached.frame
  rfl

theorem AtWork.eager_eq : u.eager = s.eager := by
  obtain ⟨_, _, _, _, _, _, _, _, rfl⟩ := h.reached.frame
  rfl

theorem AtWork.cur_eq : u.cur = s.cur := by
  obtain ⟨_, _, _, _, _, _, _, _, rfl⟩ := h.reached.frame
  rfl

theorem AtWork.tiles_eq : u.core.tiles = s.core.tiles := by
  obtain ⟨_, _, _, _, _, _, _, _, rfl⟩ := h.reached.frame
  rfl

theorem AtWork.hart_ctxid : u.harts[s.cur].ctxid = s.h.ctxid := by
  obtain ⟨r, hr⟩ := h.hart
  rw [hr]
  exact h.ctxid

theorem AtWork.who_ctxid (e : QEntry) (cls lg : Nat) : (e.who u s.cur cls lg).ctxid = s.h.ctxid.toNat := congrArg BitVec.toNat h.hart_ctxid

/-- Looking up ways and keeping translations goes on with the work. -/
theorem AtWork.touched (hseal : s.mem.sealed = []) (hv : u.Touched s.h.ctxid.toNat v) : AtWork s D g v := by
  have hsca := hv.sca_eq
  have hreached := h.reached.touched hseal hv
  obtain ⟨⟨_, _, rfl⟩, -⟩ := hv
  exact ⟨hreached, h.stbuf, h.late, h.ctxid, h.hart, h.others, hsca.trans h.sca⟩

theorem AtWork.wrote {n : Nat} {ks : Nat → Nat} {bs : List Byte} (hr : s.Reached D s.h.ctxid.toNat v) (hw : u.Wrote v n ks bs) : AtWork s D g v := by
  refine ⟨hr, h.stbuf, h.late, h.ctxid, ?_, fun j hj => ?_, hw.sca.trans h.sca⟩
  · obtain ⟨r, hu⟩ := h.hart
    obtain ⟨r', hv⟩ := hw.harts s.cur
    exact ⟨r', by rw [hv, hu]⟩
  · obtain ⟨r, hu⟩ := h.others j hj
    obtain ⟨r', hv⟩ := hw.harts j
    exact ⟨r', by rw [hv, hu]⟩

theorem AtWork.modHart {f : Hart → Hart} {g' : Hart} (hf : ∀ r, ∃ r', f { g with resv := r } = { g' with resv := r' }) (hstbuf : g'.stbuf = g.stbuf)
    (hlate : g'.late = g.late) (hctxid : g'.ctxid = g.ctxid) : AtWork s D g' (u.modHart s.cur f) := by
  refine ⟨h.reached.modHart _ _, hstbuf.trans h.stbuf, hlate.trans h.late, hctxid.trans h.ctxid, ?_, fun j hj => ?_, h.sca⟩
  · obtain ⟨r, hr⟩ := h.hart
    rw [State.modHart_same, hr]
    exact hf r
  · rw [State.modHart_other _ _ _ _ hj]
    exact h.others j hj

theorem AtWork.tick : AtWork s D g u.tick := ⟨h.reached.tick, h.stbuf, h.late, h.ctxid, h.hart, h.others, h.sca⟩

theorem AtWork.drawTicket : AtWork s D g u.drawTicket := ⟨h.reached.drawTicket, h.stbuf, h.late, h.ctxid, h.hart, h.others, h.sca⟩

theorem AtWork.own_stores (i : Fin 4) (hi : i = s.cur) : u.harts[i].stbuf = [] ∧ u.harts[i].late = [] := by
  subst hi
  obtain ⟨r, hr⟩ := h.hart
  rw [hr]
  exact ⟨h.stbuf, h.late⟩

variable (hq : Quiet s)
include hq

theorem AtWork.laneWaits {w : Who} (hw : w.h = s.cur) (va n : Nat) : u.laneWaits w va n = false := by
  obtain ⟨-, -, -, -, -, hout, hwait⟩ := hq
  exact State.laneWaits_none (h.own_stores w.h hw).1 (h.own_stores w.h hw).2 (by rw [h.fab_eq, hout]) (by rw [h.fab_eq, hwait]) va n

variable {lvl : Level} {va n : Nat} {path : AccPath} {ks : Nat → Nat} {w : Who} {e : QEntry}

omit hq in
/-- A load from plain storage gives the bytes that stand there. -/
theorem AtWork.load (hsca : s.mem.sca = []) (hseal : s.mem.sealed = []) (hctx : w.ctxid = s.h.ctxid.toNat) (hl : w.level = lvl) (hpath : path ≠ .scalar)
    (hva : va < 2 ^ 63) (hb : ∀ o, o < n → s.PlainFor s.h.ctxid.toNat lvl D (va + o) 1 .load path (ks o) ∧ Sound s (ks o) 1) :
    ∃ v, u.load w va n path = .ok ((List.range n).map fun o => cellGet u.mem.cells (ks o)) v ∧ AtWork s D g v ∧ v.mem.cells = u.mem.cells := by
  obtain ⟨v, hload, hv⟩ := load_bytes hctx hl hpath (h.sca.trans hsca) (h.reached.sealed_eq.trans hseal) (.refl s.h.ctxid.toNat u) hva fun o ho =>
    ⟨h.reached.plainFor hseal (hb o ho).1, h.reached.sound (hb o ho).2⟩
  exact ⟨v, hload, h.touched hseal hv, hv.cells_eq⟩

/-- A read of an engine from plain storage gives the bytes that stand there. -/
theorem AtWork.engineRead (hrem : e.remote = .none) (hw : w.h = s.cur) (hctx : w.ctxid = s.h.ctxid.toNat) (hl : w.level = lvl) (hpath : path ≠ .scalar)
    (hva : va < 2 ^ 63) (hb : ∀ o, o < n → s.PlainFor s.h.ctxid.toNat lvl D (va + o) 1 .load path (ks o) ∧ Sound s (ks o) 1) (pt : Nat) :
    ∃ v, Sys2Proof.Machine.engineRead s.cur w path pt va n u e = .ok ((List.range n).map fun o => cellGet u.mem.cells (ks o)) v e ∧ AtWork s D g v ∧
      v.mem.cells = u.mem.cells := by
  have hlane := h.laneWaits hq hw va n
  obtain ⟨v, hload, hv⟩ := h.load hq.2.1 hq.2.2.1 hctx hl hpath hva hb
  refine ⟨v, ?_, hv⟩
  unfold Sys2Proof.Machine.engineRead
  rw [hrem]
  simp only [hlane, Bool.and_false, Bool.false_eq_true, if_false, hload]

/-- A store to plain storage performs. -/
theorem AtWork.store (hctx : w.ctxid = s.h.ctxid.toNat) (hl : w.level = lvl) (hpath : path ≠ .scalar) {bs : List Byte} (hlen : bs.length = n) (hva : va < 2 ^ 63)
    (hb : ∀ o, o < n → s.PlainFor s.h.ctxid.toNat lvl D (va + o) 1 .store path (ks o) ∧ D (ks o)) (hinj : ∀ o q, o < n → q < n → ks o = ks q → o = q) :
    ∃ v, u.store w va bs path = .ok () v ∧ AtWork s D g v ∧ u.Wrote v n ks bs := by
  obtain ⟨v, hstore, hr, hwrote⟩ := store_bytes hq.1 hq.2.2.1 hctx hl hpath h.reached (h.sca.trans hq.2.1) hva hlen hb hinj
  exact ⟨v, hstore, h.wrote hr hwrote, hwrote⟩

/-- A write of an engine to plain storage performs. -/
theorem AtWork.engineWrite (heager : s.eager = true) (hw : w.h = s.cur) (hctx : w.ctxid = s.h.ctxid.toNat) (hl : w.level = lvl) (hpath : path ≠ .scalar)
    {bs : List Byte} (hlen : bs.length = n) (hva : va < 2 ^ 63)
    (hb : ∀ o, o < n → s.PlainFor s.h.ctxid.toNat lvl D (va + o) 1 .store path (ks o) ∧ D (ks o)) (hinj : ∀ o q, o < n → q < n → ks o = ks q → o = q)
    (pt : Nat) (purpose : Nat → Purpose) (tile : Nat) :
    ∃ v, Sys2Proof.Machine.engineWrite w path pt va bs purpose tile u e = .ok [] v e ∧ AtWork s D g v ∧ u.Wrote v n ks bs := by
  have hlane := h.laneWaits hq hw va bs.length
  obtain ⟨v, hstore, hv⟩ := h.store hq hctx hl hpath hlen hva hb hinj
  refine ⟨v, ?_, hv⟩
  have hnone := (h.own_stores w.h hw).2
  unfold Sys2Proof.Machine.engineWrite
  simp only [hlane, Bool.and_false, Bool.false_eq_true, if_false, hstore, h.eager_eq, heager, hnone, Bool.not_true, List.any_nil, Bool.or_self]

omit hq in
/-- The places of an access to plain storage are found. -/
theorem AtWork.locateAll (hseal : s.mem.sealed = []) (hctx : w.ctxid = s.h.ctxid.toNat) (hl : w.level = lvl) (hpath : path ≠ .scalar) {kind : AccKind}
    (hb : ∀ o, o < n → s.PlainFor s.h.ctxid.toNat lvl D (va + o) 1 kind path (ks o)) (N : Nat) :
    ∃ ls v, u.locateAll w kind path N (pagePieces va n) = .ok (ls, v) ∧ PlacedRun va n ks ls ∧ AtWork s D g v ∧ v.mem.cells = u.mem.cells := by
  obtain ⟨ls, v, hall, hrun, hv⟩ := locateAll_bytes (N := N) hctx hl hpath (.refl s.h.ctxid.toNat u) (fun o ho => h.reached.plainFor hseal (hb o ho))
    (fuel := n / 4096 + 2) (by omega)
  exact ⟨ls, v, hall, hrun, h.touched hseal hv, hv.cells_eq⟩

end

/-! ### Where the work begins and ends -/

section
variable {s : State} {p : Posted} {h : Hart} {e : QEntry} (hb : Begun s p h e) (hq : Quiet s)
include hb hq

theorem Begun.atWork (D : Nat → Prop) : AtWork s D h ((s.mod fun _ => h).served s.cur p.eng) := by
  obtain ⟨-, -, -, hst, hlate, -⟩ := hq
  obtain ⟨pc, c0, c1, pv, tok, hh⟩ := hb.only
  have hharts (j : Fin 4) : ((s.mod fun _ => h).served s.cur p.eng).harts[j] = (s.mod fun _ => h).harts[j] := by
    obtain ⟨a, b, hs⟩ := State.served_frame (s.mod fun _ => h) s.cur p.eng
    rw [hs]
  refine ⟨((State.Reached.refl D s.h.ctxid.toNat s).withHarts _).served s.cur p.eng, by rw [hh]; exact hst, by rw [hh]; exact hlate, by rw [hh], ?_, fun j hj => ?_, ?_⟩
  · rw [hharts]
    exact ⟨_, State.mod_h s _⟩
  · rw [hharts, State.mod_other s j _ hj]
    exact ⟨_, rfl⟩
  · obtain ⟨a, b, hs⟩ := State.served_frame (s.mod fun _ => h) s.cur p.eng
    rw [hs]
    rfl

end

/-- Bytes of plain storage one by one. -/
theorem plainFor_bytes {s : State} {lvl : Level} {D : Nat → Prop} {va n k : Nat} {kind : AccKind} {path : AccPath} (h : PlainAt s lvl D va n kind path k) :
    va < 2 ^ 63 ∧ ∀ o, o < n → s.PlainFor s.h.ctxid.toNat lvl D (va + o) 1 kind path (k + o) := by
  obtain ⟨-, hpage, hpl⟩ := plainFor_of_plainAt h
  exact ⟨hpl.va_lt, fun o ho => hpl.within hpage Nat.one_pos ho⟩

theorem sound_byte {s : State} {k n o : Nat} (h : Sound s k n) (ho : o < n) : Sound s (k + o) 1 := by
  intro w hw
  obtain ⟨h1, h2⟩ := (mem_wordsOf Nat.one_pos).mp hw
  exact h w ((mem_wordsOf (by omega)).mpr ⟨by omega, by omega⟩)

section
variable {s u t : State} {D : Nat → Prop} {g : Hart} {xd : Option XNum} {x : Option Word} (hw : AtWork s D g u) (hl : Leaves s u t xd x)
include hw hl

/-- The frame of an instruction that has worked on plain storage. -/
theorem AtWork.memFrame {back : Hart → Hart} (hback : back t.h = s.restored t.h) (hfcsr : g.fcsr = s.h.fcsr) : MemFrame s t back := by
  refine hl.memFrame hback ?_ hw.tiles_eq hw.others
  obtain ⟨r, hr⟩ := hw.hart
  rw [hr]
  exact hfcsr

theorem AtWork.v_eq : t.h.v = g.v := by
  obtain ⟨r, hr⟩ := hw.hart
  rw [hl.v, hr]

theorem AtWork.m_eq : t.h.m = g.m := by
  obtain ⟨r, hr⟩ := hw.hart
  rw [hl.m, hr]

theorem AtWork.gatef_eq : t.h.gatef = g.gatef := by
  obtain ⟨r, hr⟩ := hw.hart
  rw [hl.gatef, hr]

theorem AtWork.ev_eq : t.h.ev = g.ev := by
  obtain ⟨r, hr⟩ := hw.hart
  rw [hl.ev, hr]

theorem AtWork.ncnt_eq : t.h.ncnt = g.ncnt := by
  obtain ⟨r, hr⟩ := hw.hart
  rw [hl.ncnt, hr]

theorem AtWork.cfails_eq : t.h.cfails = g.cfails := by
  obtain ⟨r, hr⟩ := hw.hart
  rw [hl.cfails, hr]

end

/-! ### Instructions that change vector registers and memory -/

theorem State.restored_self {s : State} {g : Hart} (hx : g.x = s.h.x) (hm : g.m = s.h.m) (hgatef : g.gatef = s.h.gatef) (hev : g.ev = s.h.ev)
    (hncnt : g.ncnt = s.h.ncnt) (hcfails : g.cfails = s.h.cfails) : g = s.restored g := by
  rw [State.restored, ← hx, ← hm, ← hgatef, ← hev, ← hncnt, ← hcfails]

/-- A hart that differs from another in its vector registers and their progress indices alone. -/
def Hart.RegsOnly (h g : Hart) : Prop := ∃ v vpi, g = { h with v := v, vpi := vpi }

theorem Hart.RegsOnly.trans {h g k : Hart} (h1 : h.RegsOnly g) (h2 : g.RegsOnly k) : h.RegsOnly k := by
  obtain ⟨_, _, rfl⟩ := h1
  obtain ⟨v, vpi, rfl⟩ := h2
  exact ⟨v, vpi, rfl⟩

theorem Hart.relayAll_regs (h : Hart) (et : ETCode) (l : BitVec 4) (ns : List VNum) : h.RegsOnly (h.relayAll et l ns) := by
  obtain ⟨v, hv⟩ := h.relayAll_only et l ns
  exact ⟨v, h.vpi, hv⟩

/-- Registers are relaid whatever a hart has reserved. -/
theorem Hart.relayAll_resv (r : Option Nat) (et : ETCode) (l : BitVec 4) : ∀ (ns : List VNum) (h : Hart),
    ({ h with resv := r } : Hart).relayAll et l ns = { h.relayAll et l ns with resv := r }
  | [], _ => rfl
  | n :: ns, h => Hart.relayAll_resv r et l ns (h.setVreg n (h.readAs n et l))

section
variable {s u : State} {p : Posted} {h g : Hart} {e : QEntry} {D : Nat → Prop} (hw : AtWork s D g u) (hg : h.RegsOnly g)
include hw hg

theorem AtWork.changed : h.Changed u.harts[s.cur] := by
  obtain ⟨r, hr⟩ := hw.hart
  obtain ⟨v, vpi, rfl⟩ := hg
  rw [hr]
  exact ⟨_, _, _, _, _, _, _, _, _, rfl⟩

theorem AtWork.memFrame_regs {t : State} {xd : Option XNum} {x : Option Word} (hb : Begun s p h e) (hl : Leaves s u t xd x) (hxd : xd = none) : MemFrame s t id := by
  obtain ⟨pc, c0, c1, pv, tok, hh⟩ := hb.only
  obtain ⟨v, vpi, hgh⟩ := hg
  have hx : t.h.x = s.h.x := by
    rw [hl.x, hxd]
    rfl
  refine hw.memFrame hl (State.restored_self hx ?_ ?_ ?_ ?_ ?_) (by rw [hgh, hh])
  · exact (hw.m_eq hl).trans (by rw [hgh, hh])
  · exact (hw.gatef_eq hl).trans (by rw [hgh, hh])
  · exact (hw.ev_eq hl).trans (by rw [hgh, hh])
  · exact (hw.ncnt_eq hl).trans (by rw [hgh, hh])
  · exact (hw.cfails_eq hl).trans (by rw [hgh, hh])

end

end Sys2Proof.Machine
end

section
/-! SUPPORT. Bindings of streams (R490, R492) and the wait for copies (R501) at an idle hart: an instruction of the stream queue is posted where its
binding has changed, and completes in its step. -/

namespace Sys2Proof.Machine
open Sys2Proof.Claims

/-! ### A post behind a changed binding -/

/-- A hart with other bindings. -/
def Hart.bound (h : Hart) (sb : Vector Binding 4) (fe : Vector (List StripData) 4) : Hart := { h with sb := sb, fetched := fe }

section
variable {h : Hart} {w : IWord} {body : Body} {n : VNum} {opa : Option XNum} (sb : Vector Binding 4) (fe : Vector (List StripData) 4)

theorem Hart.popStrips_nil (h : Hart) : h.popStrips [] = [] := by simp [Hart.popStrips]

theorem Hart.newEntry_bound : (h.bound sb fe).newEntry (postStream w body n opa) = h.newEntry (postStream w body n opa) := by
  have hs : (postStream w body n opa).vsrc = [] := rfl
  unfold Hart.newEntry
  rw [hs, Hart.popStrips_nil, Hart.popStrips_nil]
  rfl

theorem Hart.stepPosted_bound : (h.bound sb fe).stepPosted = h.stepPosted.bound sb fe := by
  unfold Hart.stepPosted Hart.loopStep Hart.bound
  dsimp only
  repeat' split
  all_goals rfl

theorem Hart.post_bound : (h.bound sb fe).post (postStream w body n opa) = (h.post (postStream w body n opa)).bound sb fe := by
  have hstrips (g : Hart) : (g.newEntry (postStream w body n opa)).strips = [] := g.popStrips_nil
  unfold Hart.post
  rw [Hart.newEntry_bound, Hart.popBindings_none _ _ (hstrips _), Hart.popBindings_none _ _ (hstrips _), Hart.stepPosted_bound]
  rfl

end

/-- An instruction of the stream queue that may run may do so whatever the bindings are. -/
theorem Runs.bound {s s' : State} {w : IWord} {body : Body} {n : VNum} {opa : Option XNum} (hruns : Runs s (postStream w body n opa))
    (hbody : body = .sbind ∨ body = .sunbind ∨ body = .spos) {sb : Vector Binding 4} {fe : Vector (List StripData) 4} (hcur : s'.cur = s.cur)
    (hh : s'.h = s.h.bound sb fe) (hfeat : ∀ k, s'.feat k = s.feat k) (heager : s'.eager = s.eager) : Runs s' (postStream w body n opa) := by
  obtain ⟨⟨hbad, hpend, hroom, -, -⟩, he, hqueue, -, hrun, hrel⟩ := hruns
  have hbodyBad (h : Hart) (f : Bool) (a b : Nat) : bodyBad h f a b (postStream w body n opa) = false := by
    rcases hbody with rfl | rfl | rfl <;> rfl
  refine ⟨⟨?_, ?_, ?_, fun h => (by cases h), fun op mrow mcol fmt bs h => ?_⟩, heager.trans he, by rw [hh]; exact hqueue, Hart.popStrips_nil _, ?_, by rw [hh]; exact hrel⟩
  · unfold State.postBad at hbad ⊢
    simp only [Bool.or_eq_false_iff, hbodyBad, hfeat] at hbad ⊢
    obtain ⟨⟨⟨⟨⟨hheld, hpfx⟩, -⟩, hdest⟩, -⟩, hfeats⟩ := hbad
    have hvc : (s.h.pfxNext && pfxDc s.h.pfx) = false := by
      by_contra hdc
      obtain ⟨hnext, hdc⟩ := Bool.and_eq_true_iff.mp (Bool.not_eq_false _ ▸ hdc)
      rw [hnext, Bool.true_and] at hpfx
      unfold pfxBad at hpfx
      simp [hdc, postStream, vecPost] at hpfx
    rw [hh]
    have hvc' : ((s.h.bound sb fe).pfxNext && pfxDc (s.h.bound sb fe).pfx) = false := hvc
    rw [if_neg (by rw [hvc]; exact Bool.false_ne_true)] at hdest
    rw [if_neg (by rw [hvc']; exact Bool.false_ne_true)]
    exact ⟨⟨⟨⟨⟨hheld, hpfx⟩, rfl⟩, hdest⟩, trivial⟩, hfeats⟩
  · rw [hh]
    exact hpend
  · rw [hh]
    exact hroom
  · have hb : body = .mat op mrow mcol fmt bs := h
    subst hb
    rcases hbody with h | h | h <;> cases h
  · unfold State.mayRun at hrun ⊢
    obtain ⟨hmay, -⟩ := Bool.and_eq_true_iff.mp hrun
    have hmay : (s.h.post (postStream w body n opa)).mayRun (s.h.newEntry (postStream w body n opa)) = true := by
      rw [← hmay, State.mod, State.modHart_same]
      rfl
    have hat : (s'.mod fun h => h.post (postStream w body n opa)).harts[s'.cur] = s'.h.post (postStream w body n opa) := State.mod_h s' _
    rw [hat, hh, Hart.post_bound, Hart.newEntry_bound, show ((s.h.post (postStream w body n opa)).bound sb fe).mayRun _ = _ from hmay]
    rfl

/-! ### What the stream queue does -/

/-- The core with other engines claimed. -/
def State.claimed (s : State) (be : List (Fin 4 × VNum)) (wa : List (Fin 4 × Nat)) : State :=
  { s with core := { s.core with boundEngines := be, streamWaiters := wa } }

/-- An instruction of the stream queue completes in its step behind a changed binding. -/
theorem Runs.streams {s : State} {p : Posted} (hruns : Runs s p) (heng : p.eng = .stream) (hxd : p.xd = none) {be : List (Fin 4 × VNum)} {wa : List (Fin 4 × Nat)}
    (hrun : ∀ (e : QEntry) (u : State), e.post = p → u.core.boundEngines = s.core.boundEngines → u.core.streamWaiters = s.core.streamWaiters →
      u.cur = s.cur → bodyRun s.cur e.total e u = (.done (u.claimed be wa) e, none)) :
    ∃ u, Leaves s u (s.postNow p) p.xd none ∧ u.mem = s.mem ∧ u.core.tiles = s.core.tiles ∧ u.core.boundEngines = be ∧
      (∀ j : Fin 4, j ≠ s.cur → u.harts[j] = s.harts[j]) ∧ s.restored (s.postNow p).h = (s.postNow p).h ∧ (s.postNow p).h.v = s.h.v ∧
      (s.postNow p).h.fcsr = s.h.fcsr ∧ u.harts[s.cur].resv = s.h.resv ∧ u.harts[s.cur].fcsr = s.h.fcsr := by
  obtain ⟨h, e, a, hb, -, hdone⟩ := hruns.completes
  obtain ⟨pc, c0, c1, pv, tok, hh⟩ := hb.only
  have hclaimed (j : Fin 4) : ((s.mod fun _ => h).claimed be wa).harts[j] = (s.mod fun _ => h).harts[j] := rfl
  have hharts : ((s.mod fun _ => h).claimed be wa).harts[s.cur] = h := (hclaimed _).trans (State.mod_h s _)
  have hl := hdone (u := (s.mod fun _ => h).claimed be wa) (e2 := e) (x := none)
    (by rw [heng]; exact hrun e _ hb.post rfl rfl rfl) rfl hb.post rfl (by rw [hharts]; exact .refl h)
  refine ⟨_, hl, rfl, rfl, rfl, fun j hj => (hclaimed j).trans (State.mod_other s j _ hj), ?_, ?_, ?_, ?_, ?_⟩
  · rw [State.restored, ← show (s.postNow p).h.x = s.h.x by rw [hl.x, hxd]; rfl, ← show (s.postNow p).h.m = s.h.m by rw [hl.m, hharts, hh],
      ← show (s.postNow p).h.gatef = s.h.gatef by rw [hl.gatef, hharts, hh], ← show (s.postNow p).h.ev = s.h.ev by rw [hl.ev, hharts, hh],
      ← show (s.postNow p).h.ncnt = s.h.ncnt by rw [hl.ncnt, hharts, hh], ← show (s.postNow p).h.cfails = s.h.cfails by rw [hl.cfails, hharts, hh]]
  · rw [hl.v, hharts, hh]
  · rw [hl.fcsr, hharts, hh]
  · rw [hharts, hh]
  · rw [hharts, hh]

/-- The hart of `s` in its bindings. -/
def State.unbound (s : State) (h : Hart) : Hart := h.bound s.h.sb s.h.fetched

/-- A change of a binding, and an engine of the stream queue, at an idle hart (R490, R492). -/
theorem rebinds_completes {s : State} {w : IWord} {body : Body} {n : VNum} {opa : Option XNum} {i : Instr} (f : Binding → Binding) {be : List (Fin 4 × VNum)}
    (hx : exec i s = issueWith (fun t => (t.mod fun h => h.rebind n f).postNow (postStream w body n opa)) (postStream w body n opa) s)
    (hbody : body = .sbind ∨ body = .sunbind ∨ body = .spos)
    (hrun : ∀ (e : QEntry) (u : State), e.post = postStream w body n opa → u.core.boundEngines = s.core.boundEngines →
      u.core.streamWaiters = s.core.streamWaiters → u.cur = s.cur → bodyRun s.cur e.total e u = (.done (u.claimed be s.core.streamWaiters) e, none))
    (hruns : Runs s (postStream w body n opa)) :
    ∃ t, exec i s = .next t ∧ PostedFrame s t (fun h => { h with sb := s.h.sb, fetched := s.h.fetched }) ∧ t.h.v = s.h.v ∧ t.h.fcsr = s.h.fcsr ∧
      t.h.sb = (s.h.rebind n f).sb ∧ t.h.fetched = (s.h.rebind n f).fetched ∧ t.core.boundEngines = be := by
  generalize hs' : (s.mod fun h => h.rebind n f) = s'
  have hh : s'.h = s.h.bound (s.h.rebind n f).sb (s.h.rebind n f).fetched := by rw [← hs', State.mod_h]; rfl
  have hcur : s'.cur = s.cur := by rw [← hs']; rfl
  have hcore : s'.core = s.core := by rw [← hs']; rfl
  have hmem : s'.mem = s.mem := by rw [← hs']; rfl
  have hother (j : Fin 4) (hj : j ≠ s.cur) : s'.harts[j] = s.harts[j] := by rw [← hs']; exact State.mod_other s j _ hj
  have hruns' : Runs s' (postStream w body n opa) := hruns.bound hbody hcur hh (fun k => by rw [← hs']; rfl) (by rw [← hs']; rfl)
  obtain ⟨u, hl, humem, hutiles, hube, huothers, hrest, hv, hfcsr, hresv, -⟩ := hruns'.streams rfl rfl fun e u he hu hw hc => by
    rw [hcur]
    exact hrun e u he (by rw [hu, hcore]) (by rw [hw, hcore]) (hc.trans hcur)
  generalize hpost : s'.postNow (postStream w body n opa) = t at *
  obtain ⟨ls, htcore⟩ := hl.core
  have hframe := hl.frame
  rw [hrest, hh] at hframe
  refine ⟨t, by rw [hx, issueWith_postable hruns.1, hs', hpost], ⟨?_, hl.mem.trans (humem.trans hmem), ?_, hl.vstart, hl.pfxNext, fun j hj => ?_⟩, ?_, ?_, ?_, ?_, ?_⟩
  · have hresv' : t.h.resv = s.h.resv := hl.resv.trans (hresv.trans (by rw [hh]; rfl))
    have := congrArg s.unbound hframe
    rw [show (s.h.bound (s.h.rebind n f).sb (s.h.rebind n f).fetched).resv = t.h.resv from hresv'.symm] at this
    exact this
  · rw [htcore]
    exact hutiles.trans (congrArg Core.tiles hcore)
  · obtain ⟨b, vt, hj'⟩ := hl.others j (hcur ▸ hj)
    rw [hj', huothers j (hcur ▸ hj), hother j hj]
  · exact hv.trans (by rw [hh]; rfl)
  · exact hfcsr.trans (by rw [hh]; rfl)
  · have := congrArg (fun g : Hart => g.sb) hframe
    exact this
  · have := congrArg (fun g : Hart => g.fetched) hframe
    exact this
  · rw [htcore]
    exact hube

/-- What the bindings of a hart are once those of a register are changed (R490). -/
theorem Hart.rebind_slot (h : Hart) (n : VNum) (f : Binding → Binding) (z : Fin 4) :
    if h.sb[z].valid = true ∧ h.sb[z].reg = n then (h.rebind n f).sb[z] = f h.sb[z] ∧ (h.rebind n f).fetched[z] = []
    else (h.rebind n f).sb[z] = h.sb[z] ∧ (h.rebind n f).fetched[z] = h.fetched[z] := by
  by_cases hz : h.sb[z].valid = true ∧ h.sb[z].reg = n <;> simp_all [Hart.rebind]

/-- `sunbind` (R490, R492). -/
theorem sunbind_completes {s : State} {v : VNum} (hruns : Runs s (pSunbind v)) :
    ∃ t, exec (.sunbind v) s = .next t ∧ PostedFrame s t (fun h => { h with sb := s.h.sb, fetched := s.h.fetched }) ∧ t.h.v = s.h.v ∧ t.h.fcsr = s.h.fcsr ∧
      t.h.sb = (s.h.rebind v fun b => { b with valid := false }).sb ∧ t.h.fetched = (s.h.rebind v fun b => { b with valid := false }).fetched ∧
      t.core.boundEngines = s.core.boundEngines.filter (· != (s.cur, v)) := by
  refine rebinds_completes (n := v) (opa := none) (body := .sunbind) _ rfl (.inr (.inl rfl)) (fun e u he hbe hwa _ => ?_) hruns
  rw [bodyRun, he]
  simp only [postStream, runSunbind, State.claimed, he, hbe]
  rw [← hwa]
  rfl

/-- `spos` (R490). -/
theorem spos_completes {s : State} {v : VNum} {b : XNum} (hruns : Runs s (pSpos v b)) :
    ∃ t, exec (.spos v b) s = .next t ∧ PostedFrame s t (fun h => { h with sb := s.h.sb, fetched := s.h.fetched }) ∧ t.h.v = s.h.v ∧ t.h.fcsr = s.h.fcsr ∧
      t.h.sb = (s.h.rebind v fun c => { c with pos := min (s.x b).toNat c.count }).sb ∧
      t.h.fetched = (s.h.rebind v fun c => { c with pos := min (s.x b).toNat c.count }).fetched ∧ t.core.boundEngines = s.core.boundEngines := by
  have hx : exec (.spos v b) s = issueWith (fun t => (t.mod fun h => h.rebind v fun c => { c with pos := min (s.x b).toNat c.count }).postNow (pSpos v b)) (pSpos v b) s := by
    show issueWith _ _ s = _
    rw [issueWith_postable hruns.1, issueWith_postable hruns.1]
  refine rebinds_completes (n := v) (opa := some b) (body := .spos) _ hx (.inr (.inr rfl)) (fun e u he hbe hwa _ => ?_) hruns
  rw [bodyRun, he, State.claimed, ← hbe, ← hwa]
  rfl

/-! ### `cwait` (R501) -/

theorem cwait_completes {s : State} {d : XNum} (hruns : Runs s (pCwait d)) :
    ∃ t, exec (.cwait d) s = .next t ∧ PostedFrame s t (fun h => { h with x := s.h.x, cfails := s.h.cfails }) ∧ t.h.v = s.h.v ∧
      t.h.x = xPut s.h.x d (BitVec.ofNat 64 s.h.cfails) ∧ t.h.cfails = 0 := by
  obtain ⟨h, e, a, hb, -, hdone⟩ := hruns.completes
  obtain ⟨pc, c0, c1, pv, tok, hh⟩ := hb.only
  obtain ⟨a, b, hserved⟩ := State.served_frame (s.mod fun _ => h) s.cur (pCwait d).eng
  have hat (j : Fin 4) : ((s.mod fun _ => h).served s.cur (pCwait d).eng).harts[j] = (s.mod fun _ => h).harts[j] := by rw [hserved]
  have hhart := (hat s.cur).trans (State.mod_h s _)
  have hrun : bodyRun s.cur e.total e ((s.mod fun _ => h).served s.cur (pCwait d).eng) =
      (.done (((s.mod fun _ => h).served s.cur (pCwait d).eng).modHart s.cur fun h => { h with cfails := 0 }) e, some (BitVec.ofNat 64 s.h.cfails)) := by
    rw [bodyRun, hb.post]
    show runCwait _ _ _ = _
    unfold runCwait
    rw [hhart]
    dsimp only
    rw [hb.queue]
    simp [hh]
  have hu := State.modHart_same ((s.mod fun _ => h).served s.cur (pCwait d).eng) s.cur fun h => { h with cfails := 0 }
  rw [hhart] at hu
  have hother (j : Fin 4) (hj : j ≠ s.cur) := (State.modHart_other ((s.mod fun _ => h).served s.cur (pCwait d).eng) s.cur j (fun h => { h with cfails := 0 }) hj).trans
    ((hat j).trans (State.mod_other s j _ hj))
  have hl := hdone hrun rfl hb.post (by rw [hserved]; rfl) (by rw [hu]; exact ⟨_, _, _, _, _, _, _, _, _, rfl⟩)
  refine ⟨_, issue_postable hruns.1, hl.postedFrame ?_ ?_ ?_ ?_ hother, ?_, ?_, ?_⟩
  · rw [State.restored, ← show (s.postNow (pCwait d)).h.m = s.h.m by rw [hl.m, hu, hh],
      ← show (s.postNow (pCwait d)).h.gatef = s.h.gatef by rw [hl.gatef, hu, hh], ← show (s.postNow (pCwait d)).h.ev = s.h.ev by rw [hl.ev, hu, hh],
      ← show (s.postNow (pCwait d)).h.ncnt = s.h.ncnt by rw [hl.ncnt, hu, hh]]
  · rw [hu, hh]
  · rw [hserved]
    rfl
  · rw [hserved]
    rfl
  · rw [hl.v, hu, hh]
  · rw [hl.x]
    rfl
  · rw [hl.cfails, hu]

/-! ### `sbind` (R490, R492) -/

/-- What a binding takes of its control block (R489). -/
theorem bindingOf_fields {vt : BitVec 9} {v : VNum} {cb : Word} {c : List Byte} {bd : Binding} (h : bindingOf vt v cb c = some bd) :
    bd.valid = true ∧ bd.reg = v ∧ bd.pos = 0 ∧ bd.base = BitVec.ofNat 64 (sliceNat c 0 8) ∧ bd.index = BitVec.ofNat 64 (sliceNat c 8 8) ∧
      bd.count = sliceNat c 16 8 ∧ bd.stride = BitVec.ofNat 64 (sliceNat c 24 8) := by
  unfold bindingOf at h
  dsimp only at h
  repeat' split at h
  all_goals cases h
  all_goals exact ⟨rfl, rfl, rfl, rfl, rfl, rfl, rfl⟩

/-- The load of a control block in plain storage. -/
theorem scalarLoad_quiet {s : State} (hq : Quiet s) (hqueue : s.h.queue = []) {va n k : Nat} (hpl : PlainAt s s.h.level noByte va n .load .aux k) (hs : Sound s k n)
    (iw : IWord) : ∃ u, s.scalarLoad iw s.h.level 0 va n .aux = .ok (s.mem.peek k n, u) ∧ s.Touched s.h.ctxid.toNat u := by
  obtain ⟨-, hsca, hseal, hst, hlate, hout, hwait⟩ := hq
  obtain ⟨hva, hb⟩ := plainFor_bytes hpl
  obtain ⟨u, hload, hu⟩ := load_bytes (w := { s.whoScalar with level := s.h.level }) rfl rfl (by decide) hsca hseal (.refl s.h.ctxid.toNat s) hva fun o ho =>
    ⟨hb o ho, sound_byte hs ho⟩
  have hbuf : s.h.buffered va n = false := by simp [Hart.buffered, hst]
  have hahead : s.storeAhead s.cur (flowOf s s.whoScalar) va n = false := by
    simp [State.storeAhead, Fabric.open, hout, hwait, show s.harts[s.cur].late = [] from hlate, -Fin.getElem_fin]
  have hsame : s.sameBytes false va n = false := by rw [State.sameBytes, hahead, hqueue]; simp
  refine ⟨u, ?_, hu⟩
  unfold State.scalarLoad
  rw [hbuf, hsame, hload, peek_eq_map]
  rfl

theorem sbind_completes {s : State} {v : VNum} {b : XNum} {k : Nat} {z : Fin 4} {bd : Binding} (hruns : Runs s (pSbind v b)) (hq : Quiet s)
    (hslot : s.h.bindSlot v = some z) (hlow : (s.x b).toNat < spadBase) (halign : (s.x b).toNat % 64 = 0)
    (hpl : PlainAt s s.h.level noByte (s.x b).toNat 64 .load .aux k) (hs : Sound s k 64) (hbd : bindingOf s.h.vtype v (s.x b) (s.mem.peek k 64) = some bd)
    (hfree : (s.core.boundEngines.length < 4 ∧ s.core.streamWaiters = []) ∨ (s.cur, v) ∈ s.core.boundEngines) :
    ∃ t, exec (.sbind v b) s = .next t ∧ MemFrame s t (fun h => { h with sb := s.h.sb, fetched := s.h.fetched }) ∧ t.h.v = s.h.v ∧
      (∀ a, byteAt t a = byteAt s a) ∧ t.h.sb = s.h.sb.set z bd ∧ t.h.fetched = s.h.fetched.set z [] ∧ (s.cur, v) ∈ t.core.boundEngines := by
  have hd : (pSbind v b).d = v := rfl
  obtain ⟨u, hload, hu⟩ := scalarLoad_quiet hq hruns.2.2.1 hpl hs (pSbind v b).word
  have hcells := hu.cells_eq
  have huh : u.h = s.h := by
    obtain ⟨⟨_, _, rfl⟩, -⟩ := hu
    rfl
  generalize hs' : (u.mod fun h => { h with sb := h.sb.set z bd, fetched := h.fetched.set z [] }) = s'
  have hbind : s.bindStream (pSbind v b) (s.x b) = s'.postNow (pSbind v b) := by
    unfold State.bindStream
    simp only [hd, hslot, Nat.not_le.mpr hlow, halign, ne_eq, not_true_eq_false, decide_false, Bool.or_self, Bool.false_eq_true, if_false, hload, huh, hbd, hs']
  obtain ⟨⟨m, tlb, hframe⟩, -⟩ := hu
  have hh : s'.h = s.h.bound (s.h.sb.set z bd) (s.h.fetched.set z []) := by rw [← hs', State.mod_h, huh]; rfl
  have hcur : s'.cur = s.cur := by rw [← hs', hframe]; rfl
  have hbe : s'.core.boundEngines = s.core.boundEngines := by rw [← hs', hframe]; rfl
  have hwa : s'.core.streamWaiters = s.core.streamWaiters := by rw [← hs', hframe]; rfl
  have htiles : s'.core.tiles = s.core.tiles := by rw [← hs', hframe]; rfl
  have hmem : s'.mem.cells = s.mem.cells := by rw [← hs']; exact hcells
  have hother (j : Fin 4) (hj : j ≠ s.cur) : s'.harts[j] = s.harts[j] := by
    rw [← hs', hframe]
    exact State.modHart_other _ _ _ _ hj
  have hruns' : Runs s' (pSbind v b) := Runs.bound (body := .sbind) (n := v) (opa := some b) hruns (.inl rfl) hcur hh (fun k => by rw [← hs', hframe]; rfl)
    (by rw [← hs', hframe]; rfl)
  have hclaim : ∃ be wa, (s.cur, v) ∈ be ∧ ∀ (e : QEntry) (w : State), e.post = pSbind v b → w.core.boundEngines = s'.core.boundEngines →
      w.core.streamWaiters = s'.core.streamWaiters → w.cur = s'.cur → bodyRun s'.cur e.total e w = (.done (w.claimed be wa) e, none) := by
    by_cases hin : (s.cur, v) ∈ s.core.boundEngines
    · refine ⟨_, s.core.streamWaiters, hin, fun e w he hwb hww _ => ?_⟩
      have hsame : w.claimed s.core.boundEngines s.core.streamWaiters = w := by
        rw [← hbe, ← hwa, ← hwb, ← hww]
        rfl
      rw [bodyRun, he, hsame]
      show (runSbind s'.cur e w, none) = _
      rw [runSbind, he, hd, hwb, hbe, hcur, if_pos (by simpa using hin)]
    · obtain ⟨hlen, hnone⟩ := hfree.resolve_right hin
      refine ⟨s.core.boundEngines ++ [(s.cur, v)], [], List.mem_append_right _ (List.mem_singleton_self _), fun e w he hwb hww _ => ?_⟩
      rw [bodyRun, he]
      show (runSbind s'.cur e w, none) = _
      rw [runSbind, he, hd, hwb, hbe, hcur, if_neg (by simpa using hin), if_pos (by simp [State.engineFree, hwb, hbe, hlen, hww, hwa, hnone]), hww, hwa, hnone]
      rfl
  obtain ⟨be, wa, hin, hrun⟩ := hclaim
  obtain ⟨w, hl, hwmem, hwtiles, hwbe, hwothers, hrest, hv, hfcsr, hresv, hwfcsr⟩ := hruns'.streams rfl rfl hrun
  generalize hpost : s'.postNow (pSbind v b) = t at *
  obtain ⟨ls, htcore⟩ := hl.core
  have hfr := hl.frame
  rw [hrest, hh] at hfr
  refine ⟨t, ?_, ⟨?_, ?_, hl.vstart, hl.pfxNext, hfcsr.trans (by rw [hh]; rfl), fun j hj => ?_⟩, ?_, fun a => ?_, ?_, ?_, ?_⟩
  · show issueWith _ _ s = _
    rw [issueWith_postable hruns.1, hbind]
  · exact congrArg s.unbound hfr
  · rw [htcore]
    exact hwtiles.trans htiles
  · obtain ⟨b, vt, hj'⟩ := hl.others j (hcur ▸ hj)
    rw [hj', hwothers j (hcur ▸ hj), hother j hj]
  · exact hv.trans (by rw [hh]; rfl)
  · rw [byteAt, byteAt, hl.mem, hwmem, hmem]
  · have := congrArg (fun g : Hart => g.sb) hfr
    exact this
  · have := congrArg (fun g : Hart => g.fetched) hfr
    exact this
  · rw [htcore]
    show _ ∈ w.core.boundEngines
    rw [hwbe]
    exact hin

end Sys2Proof.Machine
end

section
/-! SUPPORT. Mask loads and stores at an idle hart (R488): the bits that a write of a mask register leaves, and the bytes that the spans of a run read and write. -/

namespace Sys2Proof.Machine
open Sys2Proof.Claims

/-! ### Mask registers -/

/-- A sum of distinct powers of two has their bits. -/
theorem testBit_maskSum (g : Nat → Bool) (n : Nat) :
    (List.range n).foldl (fun a e => a + if g e then 2 ^ e else 0) 0 < 2 ^ n ∧
    ∀ j, ((List.range n).foldl (fun a e => a + if g e then 2 ^ e else 0) 0).testBit j = (decide (j < n) && g j) := by
  induction n with
  | zero => simp
  | succ n ih =>
    obtain ⟨hlt, hbit⟩ := ih
    rw [List.range_succ, List.foldl_append]
    simp only [List.foldl_cons, List.foldl_nil]
    generalize (List.range n).foldl (fun a e => a + if g e then 2 ^ e else 0) 0 = a at *
    refine ⟨by rw [Nat.pow_succ]; split <;> omega, fun j => ?_⟩
    have hadd := Nat.testBit_two_pow_mul_add (if g n then 1 else 0) hlt j
    have hsum : a + (if g n then 2 ^ n else 0) = 2 ^ n * (if g n then 1 else 0) + a := by split <;> omega
    rw [hsum, hadd]
    by_cases hj : j < n
    · simp [hj, hbit, Nat.lt_succ_of_lt hj]
    · rw [if_neg hj]
      by_cases he : j = n
      · subst he
        cases g j <;> simp
      · have : decide (j < n + 1) = false := by simp; omega
        rw [this, Bool.false_and]
        cases g n
        · simp
        · obtain ⟨d, hd⟩ : ∃ d, j - n = d + 1 := ⟨j - n - 1, by omega⟩
          rw [hd, Nat.testBit_succ]
          simp

/-- What a write of a mask register leaves (R246). -/
theorem MReg.bit_write (m : MReg) (vl vrows : Nat) (f : Nat → Nat → Option Bool) {k x : Nat} (hk : k < 16) (hx : x < 2048) :
    (m.write vl vrows f).bit k x = if k < vrows ∧ x < vl then (f k x).getD (m.bit k x) else m.bit k x := by
  have hget (r : MReg) : r.bit k x = r[k].getLsbD x := by simp [MReg.bit, hk]
  rw [hget, hget, MReg.write]
  simp only [Vector.getElem_ofFn, Fin.getElem_fin]
  by_cases hkr : k < vrows
  · simp only [hkr, if_true, true_and]
    have hfold (F : Nat → Nat → Nat) (hF : ∀ n e, F n e = n + if (f k e).getD (m[k].getLsbD e) then 2 ^ e else 0) :
        (List.range vl).foldl F 0 = (List.range vl).foldl (fun n e => n + if (f k e).getD (m[k].getLsbD e) then 2 ^ e else 0) 0 :=
      congrArg (fun G => (List.range vl).foldl G 0) (funext fun n => funext fun e => hF n e)
    obtain ⟨hlt, htest⟩ := testBit_maskSum (fun e => (f k e).getD (m[k].getLsbD e)) vl
    rw [hfold _ fun n e => by rcases f k e with _ | _ | _ <;> rfl, BitVec.getLsbD_ofNat, Nat.mul_comm, Nat.testBit_two_pow_mul_add _ hlt, decide_eq_true hx, Bool.true_and]
    by_cases hxl : x < vl
    · rw [if_pos hxl, if_pos hxl, htest, decide_eq_true hxl, Bool.true_and]
    · rw [if_neg hxl, if_neg hxl, Nat.testBit_div_two_pow, Nat.sub_add_cancel (by omega), BitVec.testBit_toNat]
  · simp [hkr]

/-- One byte put into a mask register. -/
theorem MReg.bit_putBytes (m : MReg) (vl q e0 : Nat) (b : Byte) {k x : Nat} (hk : k < 16) (hx : x < 2048) :
    (m.putBytes vl q e0 [b]).bit k x = if x < vl ∧ k = q ∧ e0 ≤ x ∧ x / 8 = e0 / 8 then b.getLsbD (x % 8) else m.bit k x := by
  rw [MReg.putBytes, MReg.bit_write _ _ _ _ hk hx]
  by_cases h : x < vl ∧ k = q ∧ e0 ≤ x ∧ x / 8 = e0 / 8
  · obtain ⟨h1, h2, h3, h4⟩ := h
    simp [h1, ← h2, h3, h4, hk]
  · rw [if_neg h]
    split
    next hin =>
      have hnot : ¬ ((decide (k = q) && decide (e0 ≤ x) && decide (x / 8 - e0 / 8 < [b].length)) = true) := by
        simp only [Bool.and_eq_true, decide_eq_true_eq, List.length_singleton]
        rintro ⟨⟨h1, h2⟩, h3⟩
        exact h ⟨hin.2, h1, h2, by omega⟩
      rw [if_neg hnot, Option.getD_none]
    next => rfl

theorem Hart.mask_setMask (h : Hart) {n : MNum} (hn : n ≠ 0#3) (r : MReg) (q : MNum) : (h.setMask n r).mask q = if q = n then r else h.mask q := by
  by_cases hq : q = n
  · rw [if_pos hq, hq, Hart.mask_setMask_same h n r hn]
  · rw [if_neg hq, Hart.mask_setMask_other h n q r hq]

/-! ### Spans (R488) -/

section
variable {s : State} {p : Posted} {e : QEntry} {t : Nat}

/-- Who accesses a span. -/
theorem AtWork.who_eq {u : State} {D : Nat → Prop} {g : Hart} (h : AtWork s D g u) (e : QEntry) (cls lg : Nat) :
    (e.who u s.cur cls lg).h = s.cur ∧ (e.who u s.cur cls lg).ctxid = s.h.ctxid.toNat ∧ (e.who u s.cur cls lg).level = e.level :=
  ⟨rfl, h.who_ctxid e cls lg, rfl⟩

/-- The row and the byte of a position that a mask instruction executes. -/
theorem maskByte_of_lt (hvl : 0 < s.h.vl) (hp : (s.h.newEntry p).prog ≤ t) (ht : t < s.h.vl * s.h.vrows) : maskByte s p (t / s.h.vl) (t % s.h.vl / 8) := by
  have hmod := Nat.mod_lt t hvl
  have hdiv := Nat.div_add_mod t s.h.vl
  refine ⟨(Nat.div_lt_iff_lt_mul hvl).mpr (by rwa [Nat.mul_comm]), by omega, ?_⟩
  rw [Nat.mul_comm]
  omega

/-- The positions of a span are the rest of its byte. -/
theorem span_iff (hvl : 0 < s.h.vl) {k x : Nat} (hx : x < s.h.vl) :
    t ≤ k * s.h.vl + x ↔ (k = t / s.h.vl ∧ t % s.h.vl ≤ x ∧ x / 8 = t % s.h.vl / 8) ∨
      min (t / s.h.vl * s.h.vl + (t % s.h.vl / 8 + 1) * 8) ((t / s.h.vl + 1) * s.h.vl) ≤ k * s.h.vl + x := by
  have hdiv := Nat.div_add_mod t s.h.vl
  have hmod := Nat.mod_lt t hvl
  rw [Nat.mul_comm] at hdiv
  generalize t / s.h.vl = q at *
  generalize t % s.h.vl = r at *
  rw [Nat.add_mul q 1, Nat.one_mul]
  rcases lt_trichotomy k q with h | h | h
  · have : (k + 1) * s.h.vl ≤ q * s.h.vl := Nat.mul_le_mul_right _ h
    rw [Nat.add_mul, Nat.one_mul] at this
    omega
  · subst h
    omega
  · have : (q + 1) * s.h.vl ≤ k * s.h.vl := Nat.mul_le_mul_right _ h
    rw [Nat.add_mul, Nat.one_mul] at this
    omega

theorem le_maskNext (hvl : 0 < s.h.vl) : t + 1 ≤ min (t / s.h.vl * s.h.vl + (t % s.h.vl / 8 + 1) * 8) ((t / s.h.vl + 1) * s.h.vl) := by
  have hdiv := Nat.div_add_mod t s.h.vl
  have hmod := Nat.mod_lt t hvl
  rw [Nat.mul_comm] at hdiv
  rw [Nat.add_mul (t / s.h.vl) 1, Nat.one_mul]
  omega

/-- A span in plain storage is one byte. -/
theorem maskSpan_eq (hvl : e.vl = s.h.vl) (hopa : e.opa = (s.h.newEntry p).opa) (hva : maskVa s p (t / s.h.vl) (t % s.h.vl / 8) < 2 ^ 63) :
    maskSpan { e with prog := t } t = (maskVa s p (t / s.h.vl) (t % s.h.vl / 8), 1) := by
  unfold maskSpan
  dsimp only
  rw [hvl, hopa]
  exact congrArg (maskVa s p (t / s.h.vl) (t % s.h.vl / 8), ·) (if_neg (by simpa [maskVa] using hva))

end

/-- Of a hart, the masks alone may differ, and they but in one register. -/
def Hart.MaskOnly (h g : Hart) (n : MNum) : Prop := (∃ m, g = { h with m := m }) ∧ ∀ q, q ≠ n → g.mask q = h.mask q

section
variable {s : State} {p : Posted} {e : QEntry} (hq : Quiet s) (hvl : e.vl = s.h.vl) (hpos : 0 < s.h.vl) (hlevel : e.level = s.h.level) (hrem : e.remote = .none)
  (hopa : e.opa = (s.h.newEntry p).opa) {key : Nat → Nat → Nat}
include hq hvl hpos hlevel hrem hopa

/-- The spans of `vlm` put the bytes that stand in plain storage into the mask. -/
theorem vlmLoop_plain {n : MNum} (hn : n ≠ 0#3) (hd : e.post.d.setWidth 3 = n)
    (hkey : ∀ k y, maskByte s p k y → PlainAt s s.h.level noByte (maskVa s p k y) 1 .load .vector (key k y) ∧ Sound s (key k y) 1) :
    ∀ (fuel t : Nat) (u : State) (g : Hart), s.h.vl * s.h.vrows ≤ t + fuel → (s.h.newEntry p).prog ≤ t → AtWork s noByte g u →
      ∃ u' t' g', vlmLoop s.cur (s.h.vl * s.h.vrows) fuel u { e with prog := t } = (u', { e with prog := t' }, .finished) ∧ s.h.vl * s.h.vrows ≤ t' ∧
        AtWork s noByte g' u' ∧ g.MaskOnly g' n ∧ ∀ k x, k < 16 → x < 2048 → (g'.mask n).bit k x =
          if k < s.h.vrows ∧ x < s.h.vl ∧ t ≤ k * s.h.vl + x then (byteAt s (key k (x / 8))).getLsbD (x % 8) else (g.mask n).bit k x := by
  have done (t : Nat) (u : State) (g : Hart) (ht : s.h.vl * s.h.vrows ≤ t) (hw : AtWork s noByte g u) : ∃ u' t' g',
      ((u, { e with prog := t }, Stop.finished) : State × QEntry × Stop) = (u', { e with prog := t' }, .finished) ∧ s.h.vl * s.h.vrows ≤ t' ∧
        AtWork s noByte g' u' ∧ g.MaskOnly g' n ∧ ∀ k x, k < 16 → x < 2048 → (g'.mask n).bit k x =
          if k < s.h.vrows ∧ x < s.h.vl ∧ t ≤ k * s.h.vl + x then (byteAt s (key k (x / 8))).getLsbD (x % 8) else (g.mask n).bit k x := by
    refine ⟨u, t, g, rfl, ht, hw, ⟨⟨_, rfl⟩, fun _ _ => rfl⟩, fun k x _ _ => (if_neg ?_).symm⟩
    rintro ⟨hk, hx, hle⟩
    have := tile_lt hk hx
    omega
  intro fuel
  induction fuel with
  | zero => exact fun t u g ht _ hw => done t u g ht hw
  | succ fuel ih =>
    intro t u g ht hp hw
    unfold vlmLoop
    by_cases hend : s.h.vl * s.h.vrows ≤ t
    · rw [if_pos hend]
      exact done t u g hend hw
    · rw [if_neg hend]
      obtain ⟨hplain, hsound⟩ := hkey _ _ (maskByte_of_lt hpos hp (Nat.lt_of_not_le hend))
      obtain ⟨hva, hb⟩ := plainFor_bytes hplain
      dsimp only
      rw [maskSpan_eq hvl hopa hva]
      generalize hwho : QEntry.maskWho { e with prog := t } u s.cur = w
      have hwho' : w.h = s.cur ∧ w.ctxid = s.h.ctxid.toNat ∧ w.level = s.h.level := by
        rw [← hwho, ← hlevel]
        exact hw.who_eq _ _ _
      obtain ⟨v, hread, hv, -⟩ := hw.engineRead hq (e := { e with prog := t }) hrem hwho'.1 hwho'.2.1 hwho'.2.2 (by decide) hva
        (fun o ho => ⟨hb o ho, sound_byte hsound ho⟩) 0x01
      rw [hread]
      dsimp only
      have hbyte : cellGet u.mem.cells (key (t / s.h.vl) (t % s.h.vl / 8) + 0) = byteAt s (key (t / s.h.vl) (t % s.h.vl / 8)) := hw.reached.cells _ fun h => h
      rw [show List.range 1 = [0] from rfl, List.map_singleton, hbyte]
      generalize hput : (fun h : Hart => h.setMask (e.post.d.setWidth 3) ((h.mask (e.post.d.setWidth 3)).putBytes e.vl (t / e.vl) (t % e.vl)
        [byteAt s (key (t / s.h.vl) (t % s.h.vl / 8))])) = f
      have hf (h : Hart) : f h = h.setMask n ((h.mask n).putBytes s.h.vl (t / s.h.vl) (t % s.h.vl) [byteAt s (key (t / s.h.vl) (t % s.h.vl / 8))]) := by rw [← hput, hd, hvl]
      have honly : ∃ m, f g = { g with m := m } := by
        rw [hf, Hart.setMask]
        split <;> exact ⟨_, rfl⟩
      have hv' : AtWork s noByte (f g) (v.modHart s.cur f) := by
        obtain ⟨m, hm⟩ := honly
        refine hv.modHart (fun r => ⟨r, ?_⟩) (by rw [hm]) (by rw [hm]) (by rw [hm])
        rw [hf, hf, Hart.setMask, Hart.setMask, if_neg hn, if_neg hn]
        rfl
      have hnext : maskNext { e with prog := t } t 1 = min (t / s.h.vl * s.h.vl + (t % s.h.vl / 8 + 1) * 8) ((t / s.h.vl + 1) * s.h.vl) := by
        unfold maskNext
        dsimp only
        rw [hvl]
      have hlt := le_maskNext (s := s) (t := t) hpos
      have hiff {k x : Nat} (hx : x < s.h.vl) := span_iff (t := t) hpos (k := k) hx
      rw [hnext]
      generalize min (t / s.h.vl * s.h.vl + (t % s.h.vl / 8 + 1) * 8) ((t / s.h.vl + 1) * s.h.vl) = nxt at *
      obtain ⟨u', t', g', hrun, ht', hw', ⟨⟨m, hm⟩, hothers⟩, hbits⟩ := ih nxt _ _ (by omega) (by omega) hv'
      refine ⟨u', t', g', hrun, ht', hw', ⟨?_, fun q hq => ?_⟩, fun k x hk hx => ?_⟩
      · obtain ⟨m', hm'⟩ := honly
        exact ⟨m, by rw [hm, hm']⟩
      · rw [hothers q hq, hf, Hart.mask_setMask _ hn, if_neg hq]
      · rw [hbits k x hk hx, hf, Hart.mask_setMask _ hn, if_pos rfl, MReg.bit_putBytes _ _ _ _ _ hk hx]
        by_cases hxl : x < s.h.vl
        · by_cases hin : k = t / s.h.vl ∧ t % s.h.vl ≤ x ∧ x / 8 = t % s.h.vl / 8
          · have hkr : k < s.h.vrows := by
              rw [hin.1]
              exact (Nat.div_lt_iff_lt_mul hpos).mpr (by rw [Nat.mul_comm]; omega)
            rw [if_pos (show x < s.h.vl ∧ _ from ⟨hxl, hin⟩), if_pos (⟨hkr, hxl, (hiff hxl).mpr (.inl hin)⟩ : k < s.h.vrows ∧ x < s.h.vl ∧ t ≤ k * s.h.vl + x),
              ← hin.1, ← hin.2.2]
            exact ite_self _
          · rw [if_neg (fun h => hin h.2 : ¬ (x < s.h.vl ∧ k = t / s.h.vl ∧ t % s.h.vl ≤ x ∧ x / 8 = t % s.h.vl / 8))]
            have hrest : t ≤ k * s.h.vl + x ↔ nxt ≤ k * s.h.vl + x := (hiff hxl).trans (or_iff_right hin)
            simp only [hrest]
        · rw [if_neg fun h => hxl h.2.1, if_neg fun h => hxl h.1, if_neg fun h => hxl h.2.1]

/-- A byte that `vsm` stores for a byte of its mask. -/
def maskStored (s : State) (p : Posted) (m : MReg) (key : Nat → Nat → Nat) (u : State) (a : Nat) : Prop :=
  ∃ k y, maskByte s p k y ∧ a = key k y ∧ ∀ j, j < 8 → (byteAt u a).getLsbD j = (decide (8 * y + j < s.h.vl) && m.bit k (8 * y + j))

omit hq hvl hpos hlevel hrem hopa in
theorem MReg.getBytes_one (m : MReg) (vl k y : Nat) : ∃ b, m.getBytes vl k y 1 = [b] ∧ ∀ j, j < 8 → b.getLsbD j = (decide (8 * y + j < vl) && m.bit k (8 * y + j)) := by
  refine ⟨_, rfl, fun j hj => ?_⟩
  rw [BitVec.getLsbD_ofNat, Nat.testBit_div_two_pow, Nat.testBit_mod_two_pow, decide_eq_true hj, Bool.true_and, Nat.add_comm]
  exact congrArg (_ && ·) (BitVec.testBit_toNat _)

omit hrem in
/-- The spans of `vsm` store the bytes of the mask. -/
theorem vsmLoop_plain (heager : s.eager = true) {n : MNum} (hd : e.post.d.setWidth 3 = n) {D : Nat → Prop} {g : Hart}
    (hkey : ∀ k y, maskByte s p k y → PlainAt s s.h.level D (maskVa s p k y) 1 .store .vector (key k y) ∧ D (key k y)) :
    ∀ (fuel t : Nat) (u : State), s.h.vl * s.h.vrows ≤ t + fuel → (s.h.newEntry p).prog ≤ t → AtWork s D g u →
      ∃ u' t', vsmLoop s.cur (s.h.vl * s.h.vrows) fuel u { e with prog := t } = (u', { e with prog := t' }, .finished) ∧ s.h.vl * s.h.vrows ≤ t' ∧
        AtWork s D g u' ∧ (∀ a, byteAt u' a = byteAt u a ∨ maskStored s p (g.mask n) key u' a) ∧
        ∀ k y, maskByte s p k y → t < k * s.h.vl + min s.h.vl (8 * y + 8) → maskStored s p (g.mask n) key u' (key k y) := by
  have done (t : Nat) (u : State) (ht : s.h.vl * s.h.vrows ≤ t) (hw : AtWork s D g u) :
      ∃ u' t', ((u, { e with prog := t }, Stop.finished) : State × QEntry × Stop) = (u', { e with prog := t' }, .finished) ∧ s.h.vl * s.h.vrows ≤ t' ∧
        AtWork s D g u' ∧ (∀ a, byteAt u' a = byteAt u a ∨ maskStored s p (g.mask n) key u' a) ∧
        ∀ k y, maskByte s p k y → t < k * s.h.vl + min s.h.vl (8 * y + 8) → maskStored s p (g.mask n) key u' (key k y) := by
    refine ⟨u, t, rfl, ht, hw, fun _ => .inl rfl, fun k y hk hlt => ?_⟩
    have := tile_lt hk.1 (x := min s.h.vl (8 * y + 8) - 1) (by omega)
    omega
  intro fuel
  induction fuel with
  | zero => exact fun t u ht _ hw => done t u ht hw
  | succ fuel ih =>
    intro t u ht hp hw
    unfold vsmLoop
    by_cases hend : s.h.vl * s.h.vrows ≤ t
    · rw [if_pos hend]
      exact done t u hend hw
    · rw [if_neg hend]
      have hbyte := maskByte_of_lt hpos hp (Nat.lt_of_not_le hend)
      obtain ⟨hplain, hin⟩ := hkey _ _ hbyte
      obtain ⟨hva, hb⟩ := plainFor_bytes hplain
      dsimp only
      rw [maskSpan_eq hvl hopa hva]
      dsimp only
      generalize hwho : QEntry.maskWho { e with prog := t } u s.cur = w
      have hwho' : w.h = s.cur ∧ w.ctxid = s.h.ctxid.toNat ∧ w.level = s.h.level := by
        rw [← hwho, ← hlevel]
        exact hw.who_eq _ _ _
      have hmask : u.harts[s.cur].mask (e.post.d.setWidth 3) = g.mask n := by
        obtain ⟨r, hr⟩ := hw.hart
        rw [hr, hd]
        rfl
      obtain ⟨b, hget, hbits⟩ := MReg.getBytes_one (g.mask n) s.h.vl (t / s.h.vl) (t % s.h.vl / 8)
      have hbs : (u.harts[s.cur].mask (e.post.d.setWidth 3)).getBytes e.vl (t / e.vl) (t % e.vl / 8) 1 = [b] := by rw [hmask, hvl, hget]
      rw [hbs]
      obtain ⟨v, hwrite, hv, hwrote⟩ := hw.engineWrite hq (e := { e with prog := t }) heager hwho'.1 hwho'.2.1 hwho'.2.2 (by decide) (bs := [b]) (n := 1) rfl hva
        (fun o ho => ⟨hb o ho, by rw [show o = 0 by omega]; exact hin⟩) (fun o q ho hq _ => by omega) 0x03
        (fun a => .store s.cur (BitVec.ofNat 64 a) [b].length) t
      rw [hwrite]
      dsimp only
      have hnext : maskNext { e with prog := t } t 1 = min (t / s.h.vl * s.h.vl + (t % s.h.vl / 8 + 1) * 8) ((t / s.h.vl + 1) * s.h.vl) := by
        unfold maskNext
        dsimp only
        rw [hvl]
      have hlt := le_maskNext (s := s) (t := t) hpos
      have hiff {k x : Nat} (hx : x < s.h.vl) := span_iff (t := t) hpos (k := k) hx
      rw [hnext]
      generalize min (t / s.h.vl * s.h.vl + (t % s.h.vl / 8 + 1) * 8) ((t / s.h.vl + 1) * s.h.vl) = nxt at *
      obtain ⟨u', t', hrun, ht', hw', hcells, hrest⟩ := ih nxt v (by omega) (by omega) hv
      have hhere : byteAt v (key (t / s.h.vl) (t % s.h.vl / 8)) = b := hwrote.inside 0 Nat.one_pos
      have hgood : maskStored s p (g.mask n) key u' (key (t / s.h.vl) (t % s.h.vl / 8)) := by
        rcases hcells (key (t / s.h.vl) (t % s.h.vl / 8)) with h | h
        · exact ⟨_, _, hbyte, rfl, by rw [h, hhere]; exact hbits⟩
        · exact h
      refine ⟨u', t', hrun, ht', hw', fun a => ?_, fun k y hk hlt' => ?_⟩
      · by_cases ha : a = key (t / s.h.vl) (t % s.h.vl / 8)
        · exact .inr (ha ▸ hgood)
        · have hsame : byteAt v a = byteAt u a := hwrote.outside a fun o ho h => ha (by rw [← h, show o = 0 by omega]; rfl)
          rw [← hsame]
          exact hcells a
      · obtain ⟨hkr, hy, -⟩ := id hk
        rcases (hiff (k := k) (x := min s.h.vl (8 * y + 8) - 1) (by omega)).mp (by omega) with ⟨h1, -, h2⟩ | h
        · rw [h1, show y = t % s.h.vl / 8 by omega]
          exact hgood
        · exact hrest k y hk (by omega)

end

/-! ### The instructions -/

theorem bodyRun_maskMem {i : Fin 4} {e : QEntry} {store : Bool} (hbody : e.post.body = if store then .vsm else .vlm) (h0 : e.total ≠ 0) (hi : Nat) (s : State) :
    bodyRun i hi e s = (runMaskMem store i e hi s, none) := by
  unfold bodyRun
  rw [hbody]
  cases store <;> exact congrArg (·, none) (if_neg h0)

theorem runMaskMem_done {store : Bool} {i : Fin 4} {e e' : QEntry} {hi : Nat} {s u : State}
    (h : (if store then vsmLoop i hi (hi + 1) s e else vlmLoop i hi (hi + 1) s e) = (u, e', .finished)) (ht : e.total ≤ e'.prog) :
    runMaskMem store i e hi s = .done u e' := by
  unfold runMaskMem
  rw [h]
  exact if_pos ht

/-- A mask load at an idle hart (R488). -/
theorem vlm_completes {s : State} {g : MNum} {b : XNum} {key : Nat → Nat → Nat} (hruns : Runs s (pVlm g b)) (hq : Quiet s) (hshape : s.h.vl * s.h.vrows ≠ 0)
    (hkey : ∀ k y, maskByte s (pVlm g b) k y →
      PlainAt s s.h.level noByte (maskVa s (pVlm g b) k y) 1 .load .vector (key k y) ∧ Sound s (key k y) 1) :
    ∃ t, exec (.vlm g b) s = .next t ∧ MemFrame s t (fun h => { h with m := s.h.m }) ∧ t.h.v = s.h.v ∧ (∀ a, byteAt t a = byteAt s a) ∧
      (∀ q, q ≠ g → t.h.mask q = s.h.mask q) ∧ ∀ k e, k < 16 → e < 2048 → (t.h.mask g).bit k e =
        if k < s.h.vrows ∧ e < s.h.vl ∧ (s.h.newEntry (pVlm g b)).prog ≤ k * s.h.vl + e then (byteAt s (key k (e / 8))).getLsbD (e % 8) else (s.h.mask g).bit k e := by
  have hg : g ≠ 0#3 := by
    have hb := hruns.1.1
    unfold State.postBad at hb
    simp only [Bool.or_eq_false_iff] at hb
    have hbad := hb.1.2
    rintro rfl
    cases hbad
  obtain ⟨h, e, a, hb, he, hdone⟩ := hruns.completes
  obtain ⟨pc, c0, c1, pv, tok, hh⟩ := id hb.only
  have hpos : 0 < s.h.vl := Nat.pos_of_ne_zero fun h => hshape (by rw [h, Nat.zero_mul])
  have hd : e.post.d.setWidth 3 = g := by
    rw [hb.post]
    simp [pVlm, vecPost]
  obtain ⟨u, t', g', hloop, ht', hw, ⟨⟨m, hm⟩, hothers⟩, hbits⟩ := vlmLoop_plain hq hb.vl hpos (by rw [he]; rfl) (by rw [he]; rfl) (by rw [he]) hg hd hkey
    (s.h.vl * s.h.vrows + 1) e.prog _ h (by omega) hb.prog.ge (hb.atWork hq noByte)
  have hl := hdone (u := u) (e2 := { e with prog := t' }) (x := none) (by
    rw [bodyRun_maskMem (store := false) (by rw [hb.post]; rfl) (by rw [hb.total]; exact hshape), hb.total]
    exact congrArg (·, none) (runMaskMem_done (store := false) hloop (by rw [hb.total]; exact ht'))) rfl hb.post hw.cur_eq
    (by obtain ⟨r, hr⟩ := hw.hart; rw [hr, hm]; exact ⟨_, _, _, _, _, _, _, _, _, rfl⟩)
  have hmask (q : MNum) : (s.postNow (pVlm g b)).h.mask q = g'.mask q := by rw [Hart.mask, Hart.mask, hw.m_eq hl]
  refine ⟨_, issue_postable hruns.1, hw.memFrame hl ?_ (by rw [hm, hh]), ?_, fun a => ?_, fun q hq => ?_, fun k x hk hx => ?_⟩
  · rw [State.restored, ← show (s.postNow (pVlm g b)).h.x = s.h.x by rw [hl.x]; rfl,
      ← show (s.postNow (pVlm g b)).h.gatef = s.h.gatef by rw [hw.gatef_eq hl, hm, hh], ← show (s.postNow (pVlm g b)).h.ev = s.h.ev by rw [hw.ev_eq hl, hm, hh],
      ← show (s.postNow (pVlm g b)).h.ncnt = s.h.ncnt by rw [hw.ncnt_eq hl, hm, hh], ← show (s.postNow (pVlm g b)).h.cfails = s.h.cfails by rw [hw.cfails_eq hl, hm, hh]]
  · rw [hw.v_eq hl, hm, hh]
  · rw [byteAt, hl.mem]
    exact hw.reached.cells a fun h => h
  · rw [hmask, hothers q hq, hb.mask]
  · rw [hmask, hbits k x hk hx, hb.mask, hb.prog]

/-- A mask store at an idle hart (R488). -/
theorem vsm_completes {s : State} {g : MNum} {b : XNum} {key : Nat → Nat → Nat} {D : Nat → Prop} (hD : ∀ a, D a ↔ ∃ k y, maskByte s (pVsm g b) k y ∧ a = key k y)
    (hruns : Runs s (pVsm g b)) (hq : Quiet s) (hshape : s.h.vl * s.h.vrows ≠ 0)
    (hkey : ∀ k y, maskByte s (pVsm g b) k y → PlainAt s s.h.level D (maskVa s (pVsm g b) k y) 1 .store .vector (key k y)) :
    ∃ t, exec (.vsm g b) s = .next t ∧ MemFrame s t id ∧ t.h.v = s.h.v ∧ (∀ a, ¬ D a → byteAt t a = byteAt s a) ∧
      ∀ a, D a → ∃ k y, maskByte s (pVsm g b) k y ∧ a = key k y ∧
        ∀ j, j < 8 → (byteAt t a).getLsbD j = (decide (8 * y + j < s.h.vl) && (s.h.mask g).bit k (8 * y + j)) := by
  obtain ⟨h, e, a, hb, he, hdone⟩ := hruns.completes
  obtain ⟨pc, c0, c1, pv, tok, hh⟩ := id hb.only
  have hpos : 0 < s.h.vl := Nat.pos_of_ne_zero fun h => hshape (by rw [h, Nat.zero_mul])
  have hd : e.post.d.setWidth 3 = g := by
    rw [hb.post]
    simp [pVsm, vecPost]
  obtain ⟨u, t', hloop, ht', hw, -, hstored⟩ := vsmLoop_plain hq hb.vl hpos (by rw [he]; rfl) (by rw [he]) hruns.2.1 hd
    (fun k y hk => ⟨hkey k y hk, (hD _).mpr ⟨k, y, hk, rfl⟩⟩) (s.h.vl * s.h.vrows + 1) e.prog _ (by omega) hb.prog.ge (hb.atWork hq D)
  have hl := hdone (u := u) (e2 := { e with prog := t' }) (x := none) (by
    rw [bodyRun_maskMem (store := true) (by rw [hb.post]; rfl) (by rw [hb.total]; exact hshape), hb.total]
    exact congrArg (·, none) (runMaskMem_done (store := true) hloop (by rw [hb.total]; exact ht'))) rfl hb.post hw.cur_eq
    (by obtain ⟨r, hr⟩ := hw.hart; rw [hr]; exact ⟨_, _, _, _, _, _, _, _, _, rfl⟩)
  refine ⟨_, issue_postable hruns.1, hw.memFrame hl ?_ (by rw [hh]), by rw [hw.v_eq hl, hh], fun a ha => ?_, fun a ha => ?_⟩
  · rw [State.restored, ← show (s.postNow (pVsm g b)).h.x = s.h.x by rw [hl.x]; rfl, ← show (s.postNow (pVsm g b)).h.m = s.h.m by rw [hw.m_eq hl, hh],
      ← show (s.postNow (pVsm g b)).h.gatef = s.h.gatef by rw [hw.gatef_eq hl, hh], ← show (s.postNow (pVsm g b)).h.ev = s.h.ev by rw [hw.ev_eq hl, hh],
      ← show (s.postNow (pVsm g b)).h.ncnt = s.h.ncnt by rw [hw.ncnt_eq hl, hh], ← show (s.postNow (pVsm g b)).h.cfails = s.h.cfails by rw [hw.cfails_eq hl, hh]]
    rfl
  · rw [byteAt, hl.mem]
    exact hw.reached.cells a ha
  · obtain ⟨k, y, hk, rfl⟩ := (hD a).mp ha
    obtain ⟨k', y', hk', heq, hbits⟩ := hstored k y hk (by rw [hb.prog]; exact hk.2.2)
    refine ⟨k', y', hk', heq, fun j hj => ?_⟩
    rw [← hb.mask, ← hbits j hj, byteAt, hl.mem]
    rfl

end Sys2Proof.Machine
end

section
/-! SUPPORT. Vector loads from plain storage at an idle hart (R480 to R483): the addresses of elements, the values that a run over them brings, and the registers that
take them. -/

namespace Sys2Proof.Machine
open Sys2Proof.Claims

/-! ### Elements of an access -/

theorem Cap.active_congr (c : Cap) {h g : Hart} (hm : g.m = h.m) : c.active g = c.active h := by
  funext k x
  rw [Cap.active, Cap.active, Hart.mask, Hart.mask, hm]

/-- A hart once an index register has been read (R481). -/
def Hart.readIndex (h : Hart) (mode : VMode) (e : QEntry) : Hart := if mode.isIndexed then h.relayAll (idxType e.cap.et) e.cap.lmap [e.post.b] else h

theorem Hart.readIndex_only (h : Hart) (mode : VMode) (e : QEntry) : ∃ v, h.readIndex mode e = { h with v := v } := by
  unfold Hart.readIndex
  split
  · exact h.relayAll_only _ _ _
  · exact ⟨_, rfl⟩

theorem Hart.readIndex_regs (h : Hart) (mode : VMode) (e : QEntry) : h.RegsOnly (h.readIndex mode e) := by
  obtain ⟨v, hv⟩ := h.readIndex_only mode e
  exact ⟨v, h.vpi, hv⟩

theorem Hart.readIndex_resv (h : Hart) (mode : VMode) (e : QEntry) (r : Option Nat) :
    ({ h with resv := r } : Hart).readIndex mode e = { h.readIndex mode e with resv := r } := by
  unfold Hart.readIndex
  split
  · exact Hart.relayAll_resv _ _ _ _ _
  · rfl

theorem AtWork.readIndex {s u : State} {D : Nat → Prop} {g : Hart} (h : AtWork s D g u) (mode : VMode) (e : QEntry) :
    AtWork s D (g.readIndex mode e) (u.modHart s.cur fun h => h.readIndex mode e) := by
  obtain ⟨v, hv⟩ := g.readIndex_only mode e
  exact h.modHart (fun r => ⟨r, g.readIndex_resv mode e r⟩) (by rw [hv]) (by rw [hv]) (by rw [hv])

/-- The value that a load reads for element `j`, before it is extended (R480, R482). -/
def rawValue (s : State) (w : Nat) (key : Nat → Nat) (j : Nat) : Nat :=
  leNat (s.mem.peek (key j) ((w + 7) / 8)) / (if w = 4 ∧ j % 2 = 1 then 16 else 1) % 2 ^ w

section
variable {s : State} {p : Posted} {h : Hart} {e : QEntry} (hb : Begun s p h e) (hcap : (s.h.newEntry p).cap.vl = s.h.vl ∧
    (s.h.newEntry p).cap.vrows = s.h.vrows ∧ (s.h.newEntry p).cap.et = vtEt s.h.vtype ∧ (s.h.newEntry p).cap.lmap = vtGroups s.h.vtype)
include hb

omit hb in
/-- An entry that runs is the one posted, begun. -/
theorem entry_of_begun (a : Bool) (he : e = { s.h.newEntry p with started := true, taken := a }) :
    e.opa = (s.h.newEntry p).opa ∧ e.level = s.h.level ∧ e.remote = .none ∧ e.first = (s.h.newEntry p).first ∧ e.ents = [] ∧ e.aux = 0 := by
  rw [he]
  exact ⟨rfl, rfl, rfl, rfl, rfl, rfl⟩

/-- The positions that an access executes are those at or above VSTART that are active. -/
theorem Begun.runsAt_eq (hcvl : (s.h.newEntry p).cap.vl = s.h.vl) {g : Hart} (hm : g.m = h.m) {j : Nat} (hj : j < s.h.vl * s.h.vrows)
    (hp : (s.h.newEntry p).prog ≤ j) : e.cap.active g (j / e.cap.vl) (j % e.cap.vl) = runsAt s p j := by
  have hdiv := Nat.div_add_mod j s.h.vl
  rw [Nat.mul_comm] at hdiv
  rw [Cap.active_congr _ hm, hb.active, runsAt, executes, ← activeAt, decide_eq_true hj, hb.cap, hcvl, hdiv, decide_eq_true hp]
  rfl

include hcap

theorem Begun.readIndex_vreg (mode : VMode) (n : VNum) : (h.readIndex mode e).vreg n = afterIndex s p mode n := by
  obtain ⟨-, -, hcet, hclmap⟩ := hcap
  unfold Hart.readIndex afterIndex indexReg
  cases mode.isIndexed with
  | false => simp [hb.vreg]
  | true => simp [Hart.relayAll_vreg, hb.vreg, hb.post, hb.cap, hcet, hclmap]

omit hcap in
/-- The addresses of elements are those of the statements (R481). -/
theorem Begun.elemAddr_eq (hopa : e.opa = (s.h.newEntry p).opa) {mode : VMode} {vi : VReg} (hvi : mode.isIndexed = true → vi = indexReg s p.b) (w : Nat) :
    elemAddr mode e vi w = elemVa s p mode w := by
  funext j
  have hopb := hb.opb
  have hcap' := hb.cap
  unfold elemVa
  cases mode with
  | unit => simp only [elemAddr, hopa]
  | strided => simp only [elemAddr, hopa, hopb]
  | indexed => simp only [elemAddr, hopa, hcap', hvi rfl]
  | ordered => simp only [elemAddr, hopa, hcap', hvi rfl]

theorem Begun.readIndex_readAs {mode : VMode} (hi : mode.isIndexed = true) :
    (h.readIndex mode e).readAs e.post.b (idxType e.cap.et) e.cap.lmap = indexReg s p.b := by
  obtain ⟨-, -, hcet, hclmap⟩ := id hcap
  rw [Hart.readAs, hb.readIndex_vreg hcap, hb.post, afterIndex, if_pos ⟨hi, rfl⟩, indexReg, hb.cap, hcet, hclmap, VReg.relaid_relaid]

end

/-- Nothing keeps a `.sc` access waiting (R342). -/
theorem AtWork.scReady {s u : State} {D : Nat → Prop} {g : Hart} (h : AtWork s D g u) (hq : Quiet s) {e : QEntry} (hqueue : g.queue = [e]) : u.scReady s.cur e = true := by
  obtain ⟨-, -, -, -, -, -, hwait⟩ := hq
  obtain ⟨r, hr⟩ := h.hart
  unfold State.scReady State.hartUnsent
  rw [hr, h.fab_eq, hwait]
  simp [hqueue, h.stbuf, h.late]

theorem leNat_one (b : Byte) : leNat [b] = b.toNat := by simp [leNat]

theorem leNat_lt : ∀ bs : List Byte, leNat bs < 256 ^ bs.length
  | [] => by simp [leNat]
  | b :: bs => by
    have := leNat_lt bs
    have hb := b.isLt
    rw [leNat, List.length_cons, Nat.pow_succ]
    omega

/-- Bytes of memory below an access and the widths of elements (R480). -/
theorem memBits_cases (et : ETCode) (mw : BitVec 2) : memBits et mw = 4 ∨ ∃ n, 0 < n ∧ memBits et mw = 8 * n ∧ (memBits et mw + 7) / 8 = n := by
  unfold memBits
  split
  · exact .inl rfl
  · exact .inr ⟨2 ^ mw.toNat, by positivity, rfl, by omega⟩

/-! ### The run of a load (R482) -/

section
variable {s : State} {p : Posted} {h g : Hart} {e : QEntry} {mode : VMode} {mw : BitVec 2} {key : Nat → Nat} {vi : VReg} (hq : Quiet s) (hb : Begun s p h e)
  (hcvl : (s.h.newEntry p).cap.vl = s.h.vl) (hlevel : e.level = s.h.level) (hrem : e.remote = .none) (hgm : g.m = h.m) (hgq : g.queue = [e])
include hq hb hcvl hlevel hrem hgm hgq

/-- A run over the elements of a load brings the values of those that it executes. -/
theorem loadLoop_plain {w : Nat} (hw4 : w = 4 ∨ ∃ n, 0 < n ∧ w = 8 * n ∧ (w + 7) / 8 = n) (haddr : elemAddr mode e vi w = elemVa s p mode w) (sc : Bool)
    (hkey : ∀ j, runsAt s p j = true → PlainAt s s.h.level noByte (elemVa s p mode w j) ((w + 7) / 8) .load .vector (key j) ∧ Sound s (key j) ((w + 7) / 8)) :
    ∀ (fuel t : Nat) (u : State) (acc : List (Nat × Nat)), s.h.vl * s.h.vrows ≤ t + fuel → (s.h.newEntry p).prog ≤ t → AtWork s noByte g u →
      ∃ u' t' vals, loadLoop s.cur mode w sc vi (s.h.vl * s.h.vrows) fuel u { e with prog := t } acc = (u', { e with prog := t' }, acc ++ vals, .finished) ∧
        s.h.vl * s.h.vrows ≤ t' ∧ AtWork s noByte g u' ∧ ∀ j v, (j, v) ∈ vals ↔ t ≤ j ∧ runsAt s p j = true ∧ v = rawValue s w key j := by
  have below {j : Nat} (hj : runsAt s p j = true) : j < s.h.vl * s.h.vrows := of_decide_eq_true (Bool.and_eq_true_iff.mp hj).1
  have done (t : Nat) (u : State) (acc : List (Nat × Nat)) (ht : s.h.vl * s.h.vrows ≤ t) (hw : AtWork s noByte g u) : ∃ u' t' vals,
      ((u, { e with prog := t }, acc, Stop.finished) : State × QEntry × List (Nat × Nat) × Stop) = (u', { e with prog := t' }, acc ++ vals, .finished) ∧
        s.h.vl * s.h.vrows ≤ t' ∧ AtWork s noByte g u' ∧ ∀ j v, (j, v) ∈ vals ↔ t ≤ j ∧ runsAt s p j = true ∧ v = rawValue s w key j := by
    refine ⟨u, t, [], by rw [List.append_nil], ht, hw, fun j v => ⟨fun h => (by cases h), fun ⟨h1, h2, _⟩ => ?_⟩⟩
    have := below h2
    omega
  intro fuel
  induction fuel with
  | zero => exact fun t u acc ht _ hw => done t u acc ht hw
  | succ fuel ih =>
    intro t u acc ht hp hw
    unfold loadLoop
    dsimp only
    by_cases hend : s.h.vl * s.h.vrows ≤ t
    · rw [if_pos hend]
      exact done t u acc hend hw
    · rw [if_neg hend]
      obtain ⟨r, hr⟩ := hw.hart
      have hact : ({ e with prog := t } : QEntry).cap.active u.harts[s.cur] (t / ({ e with prog := t } : QEntry).cap.vl) (t % ({ e with prog := t } : QEntry).cap.vl) =
          runsAt s p t := by
        rw [hr]
        exact hb.runsAt_eq hcvl (g := { g with resv := r }) hgm (Nat.lt_of_not_le hend) hp
      have hwait (k x : Nat) : (u.harts[s.cur]).maskWait { e with prog := t } k x = false := by
        rw [hr]
        exact Hart.maskWait_lone (h := { g with resv := r }) hgq rfl k x
      simp only [hact, hwait, Bool.false_eq_true, if_false]
      cases hrun : runsAt s p t with
      | false =>
        simp only [Bool.not_false, if_true]
        obtain ⟨u', t', vals, hloop, ht', hw', hvals⟩ := ih (t + 1) u acc (by omega) (by omega) hw
        refine ⟨u', t', vals, hloop, ht', hw', fun j v => (hvals j v).trans (and_congr_left fun hj => ?_)⟩
        have : j ≠ t := fun h => by rw [h, hrun] at hj; exact Bool.false_ne_true hj.1
        omega
      | true =>
        obtain ⟨hplain, hsound⟩ := hkey t hrun
        obtain ⟨hva, hbytes⟩ := plainFor_bytes hplain
        have hva' : elemAddr mode { e with prog := t } vi w = elemVa s p mode w := haddr
        simp only [hva', Bool.not_true, Bool.false_eq_true, if_false, Nat.not_le.mpr hva, decide_false, Bool.false_and]
        have hlen : (if w = 4 then elemVa s p mode w (t + 1 - 1) - elemVa s p mode w t + 1 else 1 * ((w + 7) / 8)) = (w + 7) / 8 := by
          split
          next h => rw [Nat.add_sub_cancel, Nat.sub_self, h]
          next => rw [Nat.one_mul]
        generalize hwho : QEntry.who { e with prog := t } u s.cur 0 _ = wh
        have hwho' : wh.h = s.cur ∧ wh.ctxid = s.h.ctxid.toNat ∧ wh.level = s.h.level := by
          rw [← hwho, ← hlevel]
          exact hw.who_eq _ _ _
        obtain ⟨v, hread, hv, -⟩ := hw.engineRead hq (e := { e with prog := t }) hrem hwho'.1 hwho'.2.1 hwho'.2.2 (by decide) hva
          (fun o ho => ⟨hbytes o ho, sound_byte hsound ho⟩) 0x01
        have hpeek : ((List.range ((w + 7) / 8)).map fun o => cellGet u.mem.cells (key t + o)) = s.mem.peek (key t) ((w + 7) / 8) := by
          rw [peek_eq_map]
          exact List.map_congr_left fun o _ => hw.reached.cells _ fun h => h
        rw [hlen, hread, hpeek]
        dsimp only
        have hvalue : (List.range 1).map (fun j => if w = 4 then
            (t + j, sliceNat (s.mem.peek (key t) ((w + 7) / 8)) (elemVa s p mode w (t + j) - elemVa s p mode w t) 1 / (if (t + j) % 2 = 0 then 1 else 16) % 16)
            else (t + j, sliceNat (s.mem.peek (key t) ((w + 7) / 8)) (j * ((w + 7) / 8)) ((w + 7) / 8))) = [(t, rawValue s w key t)] := by
          have hlength : (s.mem.peek (key t) ((w + 7) / 8)).length = (w + 7) / 8 := by rw [peek_eq_map, List.length_map, List.length_range]
          have hall := slice_all (s.mem.peek (key t) ((w + 7) / 8))
          rw [hlength] at hall
          rw [show List.range 1 = [0] from rfl, List.map_singleton, Nat.add_zero, Nat.sub_self, Nat.zero_mul]
          have hraw := leNat_lt (s.mem.peek (key t) ((w + 7) / 8))
          rw [hlength] at hraw
          rcases hw4 with rfl | ⟨n, hn, hwn, hdiv⟩
          · rw [if_pos rfl, sliceNat, hall, rawValue]
            rcases Nat.mod_two_eq_zero_or_one t with h | h <;> simp [h]
          · have h4 : w ≠ 4 := by omega
            rw [if_neg h4, sliceNat, hall, rawValue, if_neg fun h => h4 h.1, Nat.div_one, Nat.mod_eq_of_lt]
            rw [hdiv, show (256 : Nat) = 2 ^ 8 from rfl, ← Nat.pow_mul, ← hwn] at hraw
            rw [hdiv]
            exact hraw
        rw [hvalue]
        have hv' : AtWork s noByte g (if sc = true then v.drawTicket else v) := by
          split
          · exact hv.drawTicket
          · exact hv
        obtain ⟨u', t', vals, hloop, ht', hw', hvals⟩ := ih (t + 1) _ (acc ++ [(t, rawValue s w key t)]) (by omega) (by omega) hv'
        refine ⟨u', t', (t, rawValue s w key t) :: vals, ?_, ht', hw', fun j v => ?_⟩
        · rw [List.append_assoc] at hloop
          exact hloop
        · rw [List.mem_cons, hvals, Prod.mk.injEq]
          constructor
          · rintro (⟨rfl, rfl⟩ | ⟨h1, h2, h3⟩)
            · exact ⟨Nat.le_refl _, hrun, rfl⟩
            · exact ⟨by omega, h2, h3⟩
          · rintro ⟨h1, h2, h3⟩
            by_cases hj : j = t
            · subst hj
              exact .inl ⟨rfl, h3⟩
            · exact .inr ⟨by omega, h2, h3⟩

end

/-! ### The instructions -/

/-- A load extends its values by their sign under the .s form (R482). -/
def extended (s : State) (w : Nat) (sx : BitVec 1) (v : Nat) : Nat := if sx = 1#1 ∧ w < width s then wrap (width s) (sval w v) else v

theorem runLoad_done {i : Fin 4} {mode : VMode} {mw : BitVec 2} {sx : BitVec 1} {sc : Bool} {e e' : QEntry} {hi : Nat} {s u : State} {vals : List (Nat × Nat)}
    (hready : s.scReady i e = true)
    (hloop : loadLoop i mode (memBits e.cap.et mw) sc ((s.modHart i fun h => h.readIndex mode e).harts[i].readAs e.post.b (idxType e.cap.et) e.cap.lmap) hi (hi + 1)
      (s.modHart i fun h => h.readIndex mode e) e [] = (u, e', vals, .finished)) (ht : e.total ≤ e'.prog) :
    ∃ f : Nat → Nat, (∀ v, f v = if sx = 1#1 ∧ memBits e.cap.et mw < e.cap.bits then wrap e.cap.bits (sval (memBits e.cap.et mw) v) else v) ∧
      runLoad i mode mw (sx == 1#1) sc e hi s = .done (u.modHart i fun h =>
        (h.putDests e e.cap.et (vals.map fun x => (x.1 / e.cap.vl, x.1 % e.cap.vl, f x.2))).setVpis e.post.d e.copy e'.prog) e' := by
  refine ⟨fun v => if (sx == 1#1) && decide (memBits e.cap.et mw < e.cap.bits) then wrap e.cap.bits (sval (memBits e.cap.et mw) v) else v, fun v => by simp, ?_⟩
  unfold runLoad
  rw [hready, if_neg (by simp)]
  dsimp only
  rw [show (s.modHart i fun h => if mode.isIndexed = true then h.relayAll (idxType e.cap.et) e.cap.lmap [e.post.b] else h) =
    s.modHart i fun h => h.readIndex mode e from rfl, hloop]
  dsimp only
  rw [if_pos ht]
  simp only [Hart.putDests, Hart.putInto, VReg.putAll, putLoaded, List.foldl_map, Cap.bits] <;> rfl

theorem bodyRun_load {i : Fin 4} {e : QEntry} {mode : VMode} {mw : BitVec 2} {sx sc : Bool} (hbody : e.post.body = .load mode mw sx sc) (h0 : e.total ≠ 0) (hi : Nat)
    (s : State) : bodyRun i hi e s = (runLoad i mode mw sx sc e hi s, none) := by
  unfold bodyRun
  rw [hbody]
  exact congrArg (·, none) (if_neg h0)

/-- Destinations are written whatever a hart has reserved. -/
theorem Hart.putDests_resv (h : Hart) (e : QEntry) (et : ETCode) (ws : List (Nat × Nat × Nat)) (t : Nat) (r : Option Nat) :
    (({ h with resv := r } : Hart).putDests e et ws).setVpis e.post.d e.copy t = { (h.putDests e et ws).setVpis e.post.d e.copy t with resv := r } := by
  unfold Hart.putDests Hart.setVpis
  cases e.copy <;> rfl

theorem Hart.putDests_regs (h : Hart) (e : QEntry) (et : ETCode) (ws : List (Nat × Nat × Nat)) (t : Nat) :
    h.RegsOnly ((h.putDests e et ws).setVpis e.post.d e.copy t) := by
  obtain ⟨v, hv⟩ := h.putDests_only e et ws
  obtain ⟨vpi, hvpi⟩ := (h.putDests e et ws).setVpis_only e.post.d e.copy t
  exact ⟨v, vpi, by rw [hvpi, hv]⟩

theorem AtWork.putDests {s u : State} {D : Nat → Prop} {g : Hart} (h : AtWork s D g u) (e : QEntry) (et : ETCode) (ws : List (Nat × Nat × Nat)) (t : Nat) :
    AtWork s D ((g.putDests e et ws).setVpis e.post.d e.copy t) (u.modHart s.cur fun h => (h.putDests e et ws).setVpis e.post.d e.copy t) := by
  obtain ⟨v, vpi, hv⟩ := g.putDests_regs e et ws t
  exact h.modHart (fun r => ⟨r, g.putDests_resv e et ws t r⟩) (by rw [hv]) (by rw [hv]) (by rw [hv])

/-- A load from plain storage at an idle hart completes in its step (R482). -/
theorem load_completes {s : State} {i : Instr} {p : Posted} {mode : VMode} {mw : BitVec 2} {sx : BitVec 1} {sc : Bool} (hx : exec i s = issue p s)
    (hbody : p.body = .load mode mw (sx == 1#1) sc) (hxd : p.xd = none) : LoadsElems s i p mode mw sx := by
  unfold LoadsElems
  intro w n key hruns hq hshape hkey value
  have hcap := hruns.captured
  obtain ⟨hcvl, hcrows, hcet, hclmap⟩ := id hcap
  obtain ⟨h, e, a, hb, he, hdone⟩ := hruns.completes
  obtain ⟨hopa, hlevel, hrem, hfirst, -, -⟩ := entry_of_begun a he
  have hpos : 0 < s.h.vl := Nat.pos_of_ne_zero fun h => hshape (by rw [h, Nat.zero_mul])
  have hw0 := hb.atWork hq noByte
  generalize (s.mod fun _ => h).served s.cur p.eng = u0 at hw0 hdone
  obtain ⟨v1, hv1⟩ := h.readIndex_only mode e
  have hw1 := hw0.readIndex mode e
  have hvi : mode.isIndexed = true →
      (u0.modHart s.cur fun h => h.readIndex mode e).harts[s.cur].readAs e.post.b (idxType e.cap.et) e.cap.lmap = indexReg s p.b := fun hi => by
    obtain ⟨r, hr⟩ := hw1.hart
    rw [hr]
    exact hb.readIndex_readAs hcap hi
  have hmem : memBits e.cap.et mw = w := by rw [hb.cap, hcet]
  have hbits : e.cap.bits = width s := by rw [Cap.bits, hb.cap, hcet, width]
  obtain ⟨u, t', vals, hloop, ht', hw, hvals⟩ := loadLoop_plain hq hb hcvl hlevel hrem (by rw [hv1]) (by rw [hv1]; exact hb.queue) (memBits_cases _ mw)
    (hb.elemAddr_eq hopa hvi w) sc hkey (s.h.vl * s.h.vrows + 1) e.prog _ [] (by omega) hb.prog.ge hw1
  obtain ⟨f, hf, hrun⟩ := runLoad_done (sx := sx) (hw0.scReady hq hb.queue) (by rw [hmem]; exact hloop) (by rw [hb.total]; exact ht')
  have hfe (v : Nat) : f v = extended s w sx v := by rw [hf, hmem, hbits, extended]
  generalize hws : (([] ++ vals).map fun x : Nat × Nat => (x.1 / e.cap.vl, x.1 % e.cap.vl, f x.2)) = ws at hrun
  have hwd := hw.putDests e e.cap.et ws t'
  have hregs := (h.readIndex_regs mode e).trans ((h.readIndex mode e).putDests_regs e e.cap.et ws t')
  have hl := hdone (x := none) (e2 := { e with prog := t' }) ((bodyRun_load (by rw [hb.post, hbody]) (by rw [hb.total]; exact hshape) _ _).trans
    (congrArg (·, none) (by rw [hb.total]; exact hrun))) rfl hb.post hwd.cur_eq (hwd.changed hregs)
  have hcopy : e.copy ≠ some e.post.d := by rw [hb.copy, hb.post]; exact hruns.1.copy_ne
  have hreg (n : VNum) : (s.postNow p).h.vreg n = if n = p.d ∨ (s.h.newEntry p).copy = some n then
      ((afterIndex s p mode n).dest (vtEt s.h.vtype) (vtGroups s.h.vtype) s.h.vl s.h.vrows (wholeWrite s p)).putAll (etBits (vtEt s.h.vtype)) ws
      else afterIndex s p mode n := by
    rw [Hart.vreg, hwd.v_eq hl]
    show (((h.readIndex mode e).putDests e e.cap.et ws).setVpis e.post.d e.copy t').vreg n = _
    rw [Hart.setVpis_vreg, Hart.putDests_vreg hcopy, hb.readIndex_vreg hcap, hb.post, hb.copy, hb.cap, hcvl, hcrows, hcet, hclmap, hfirst]
    rfl
  refine ⟨_, by rw [hx, issue_postable hruns.1], hwd.memFrame_regs hregs hb hl hxd, fun a => ?_, fun n hn => ?_, fun n h1 h2 => ?_⟩
  · rw [byteAt, hl.mem]
    exact hwd.reached.cells a fun h => h
  · refine regWritten_of_putAll ((hreg n).trans (if_pos hn)) fun k x v hk hxl => ?_
    have hpos' := tile_lt hk hxl
    have hdiv : (k * s.h.vl + x) / s.h.vl = k := by rw [Nat.mul_comm, Nat.mul_add_div (by omega), Nat.div_eq_of_lt hxl, Nat.add_zero]
    have hmod : (k * s.h.vl + x) % s.h.vl = x := by rw [Nat.mul_comm, Nat.mul_add_mod, Nat.mod_eq_of_lt hxl]
    have hruns' : runsAt s p (k * s.h.vl + x) = executes s p k x := by rw [runsAt, hdiv, hmod, decide_eq_true hpos', Bool.true_and]
    rw [← hws, List.nil_append]
    simp only [List.mem_map, Prod.exists, Prod.mk.injEq, hb.cap, hcvl]
    constructor
    · rintro ⟨j, v', hmem', rfl, rfl, rfl⟩
      obtain ⟨-, hrun', rfl⟩ := (hvals j v').mp hmem'
      have hj := Nat.div_add_mod j s.h.vl
      rw [Nat.mul_comm] at hj
      rw [← hruns', hj, if_pos hrun', hfe]
      rfl
    · intro hv
      split at hv
      next hexec =>
        cases hv
        exact ⟨k * s.h.vl + x, _, (hvals _ _).mpr ⟨by rw [hb.prog]; exact of_decide_eq_true (Bool.and_eq_true_iff.mp hexec).1, hruns'.trans hexec, rfl⟩, hdiv, hmod, hfe _⟩
      next => cases hv
  · rw [hreg, if_neg (not_or.mpr ⟨h1, h2⟩)]

end Sys2Proof.Machine
end

section
/-! SUPPORT. Vector stores to plain storage at an idle hart (R331, R480 to R485): each element writes its half bytes, a run over the elements in their order or in any
order leaves each half byte with a last writer, and the notify step counts and writes its word. -/

namespace Sys2Proof.Machine
open Sys2Proof.Claims

/-! ### Half bytes -/

theorem natLe_getD_toNat : ∀ (n v o : Nat), o < n → ((natLe n v).getD o 0#8).toNat = v / 256 ^ o % 256
  | n + 1, v, 0, _ => by simp [natLe]
  | n + 1, v, o + 1, h => by
    rw [natLe, List.getD_cons_succ, natLe_getD_toNat n (v / 256) o (Nat.lt_of_succ_lt_succ h), Nat.div_div_eq_div_mul, Nat.pow_succ, Nat.mul_comm]

/-- A half byte of a value. -/
theorem half_of_byte (v o : Nat) {r : Nat} (hr : r < 2) : v / 256 ^ o % 256 / 16 ^ r % 16 = v / 16 ^ (2 * o + r) % 16 := by
  have hpow : (16 : Nat) ^ (2 * o) = 256 ^ o := by rw [Nat.pow_mul]
  rw [Nat.pow_add, hpow, ← Nat.div_div_eq_div_mul]
  obtain rfl | rfl : r = 0 ∨ r = 1 := by omega
  · omega
  · omega

/-- Half bytes after bytes are written side by side. -/
theorem State.Wrote.nibAt {u v : State} {n k : Nat} {bs : List Byte} (h : u.Wrote v n (fun o => k + o) bs) (q : Nat) : Claims.nibAt v q =
    if 2 * k ≤ q ∧ q < 2 * k + 2 * n then (bs.getD (q / 2 - k) 0#8).toNat / 16 ^ (q % 2) % 16 else Claims.nibAt u q := by
  unfold Claims.nibAt byteAt
  split
  next hin =>
    have := h.inside (q / 2 - k) (by omega)
    rw [show k + (q / 2 - k) = q / 2 by omega] at this
    rw [this]
  next hout => rw [h.outside _ fun o ho he => hout (by omega)]

/-! ### One element -/

/-- A 4-bit element alone is an edge of its run (R480). -/
theorem edgeBytes_one (j : Nat) : edgeBytes j 1 = [0] := by
  unfold edgeBytes
  rcases Nat.mod_two_eq_zero_or_one j with h | h
  · simp [h, show (j + 1) % 2 = 1 by omega]
  · simp [h]

/-- A 4-bit element keeps the other half of its byte (R480). -/
theorem nibbleBytes_one (j x : Nat) (b : Byte) : nibbleBytes j [x] [b] =
    [BitVec.ofNat 8 (if j % 2 = 0 then x + 16 * (b.toNat / 16) else b.toNat % 16 + 16 * x)] := by
  unfold nibbleBytes
  rw [List.length_singleton, edgeBytes_one, show (j + 1 - 1) / 2 - j / 2 + 1 = 1 by omega, show List.range 1 = [0] from rfl, List.map_singleton]
  rcases Nat.mod_two_eq_zero_or_one j with h | h
  · rw [if_pos h]
    simp [show 2 * (j / 2) = j by omega]
  · rw [if_neg (by omega)]
    have : ¬ j ≤ 2 * (j / 2) := by omega
    simp [this, show 2 * (j / 2) + 1 = j by omega]

/-- The reads of the edges of one 4-bit element. -/
theorem nibbleEdges_one {i : Fin 4} {wh : Who} {va j : Nat} {s v : State} {e : QEntry} (hents : e.ents = []) {b : Byte}
    (hread : engineRead i wh .vector 0x01 va 1 s e = .ok [b] v e) :
    nibbleEdges i wh va j 1 2 s e = .ok [b] v { e with ents := [(0, b.toNat)] } := by
  unfold nibbleEdges
  rw [edgeBytes_one, hents, List.length_nil]
  simp only [List.getElem?_cons_zero, Nat.add_zero, hread, hents, List.nil_append, leNat_one]
  unfold nibbleEdges
  rw [edgeBytes_one]
  simp

/-- The first half byte of element `j`. -/
def nibFirst (key : Nat → Nat) (w j : Nat) : Nat := 2 * key j + (if w = 4 then j % 2 else 0)

/-- Element `j` is executed and names half byte `q`. -/
def NibNamed (s : State) (p : Posted) (key : Nat → Nat) (w j q : Nat) : Prop := runsAt s p j = true ∧ nibFirst key w j ≤ q ∧ q < nibFirst key w j + w / 4

/-- What element `j` stores in half byte `q`. -/
def nibStored (s : State) (p : Posted) (mode : VMode) (key : Nat → Nat) (w j q : Nat) : Nat := dataElem s p mode j % 2 ^ w / 16 ^ (q - nibFirst key w j) % 16

/-- The elements of a store lie in plain storage, which the statement gives byte by byte. -/
def StorePlaced (s : State) (p : Posted) (mode : VMode) (w : Nat) (D : Nat → Prop) (key : Nat → Nat) : Prop :=
  ∀ j, runsAt s p j = true → PlainAt s s.h.level D (elemVa s p mode w j) ((w + 7) / 8) .store .vector (key j) ∧ (∀ o, o < (w + 7) / 8 → D (key j + o)) ∧
    (w = 4 → PlainAt s s.h.level D (elemVa s p mode w j) ((w + 7) / 8) .load .vector (key j) ∧ Sound s (key j) ((w + 7) / 8))

section
variable {s : State} {p : Posted} {mode : VMode} {w : Nat} {D : Nat → Prop} {key : Nat → Nat} {h g : Hart} {u : State} {e : QEntry}
  (hq : Quiet s) (heager : s.eager = true) (hpl : StorePlaced s p mode w D key) (hlevel : e.level = s.h.level) (hrem : e.remote = .none)
include hq heager hpl hlevel hrem

/-- One element of a store writes its half bytes. -/
theorem storeOne_plain (hw4 : w = 4 ∨ ∃ n, 0 < n ∧ w = 8 * n ∧ (w + 7) / 8 = n) (hents : e.ents = []) (hw : AtWork s D g u) {j : Nat} (hj : runsAt s p j = true) :
    ∃ v, storeOne s.cur w (elemVa s p mode w j) j (natLe ((w + 7) / 8) (dataElem s p mode j % 2 ^ w)) u e = .ok [] v e ∧ AtWork s D g v ∧
      (∀ q, NibNamed s p key w j q → nibAt v q = nibStored s p mode key w j q) ∧ ∀ q, ¬ NibNamed s p key w j q → nibAt v q = nibAt u q := by
  obtain ⟨hplain, hD, hload⟩ := hpl j hj
  obtain ⟨hva, hbytes⟩ := plainFor_bytes hplain
  unfold storeOne
  generalize hwho : e.who u s.cur 0 _ = wh
  have hwho' : wh.h = s.cur ∧ wh.ctxid = s.h.ctxid.toNat ∧ wh.level = s.h.level := by
    rw [← hwho, ← hlevel]
    exact hw.who_eq _ _ _
  rcases hw4 with rfl | ⟨n, hn, hwn, hdiv⟩
  · obtain ⟨hplain', hsound⟩ := hload rfl
    obtain ⟨-, hbytes'⟩ := plainFor_bytes hplain'
    obtain ⟨v1, hread, hv1, hcells⟩ := hw.engineRead hq hrem hwho'.1 hwho'.2.1 hwho'.2.2 (by decide) hva
      (fun o ho => ⟨hbytes' o ho, sound_byte hsound ho⟩) 0x01
    have hread : engineRead s.cur wh .vector 0x01 (elemVa s p mode 4 j) 1 u e = .ok [byteAt u (key j)] v1 e := hread
    have hbyte : byteAt v1 (key j) = byteAt u (key j) := by rw [byteAt, byteAt, hcells]
    generalize hold : byteAt u (key j) = b at hread hbyte
    have hb := b.isLt
    have hval : dataElem s p mode j % 2 ^ 4 < 16 := Nat.mod_lt _ (by decide)
    generalize hx : dataElem s p mode j % 2 ^ 4 = x at hval
    generalize hc : BitVec.ofNat 8 (if j % 2 = 0 then x + 16 * (b.toNat / 16) else b.toNat % 16 + 16 * x) = c
    obtain ⟨v, hwrite, hv, hwrote⟩ := hv1.engineWrite hq (e := e) (bs := [c]) heager hwho'.1 hwho'.2.1 hwho'.2.2 (by decide) (n := 1) rfl hva
      (fun o ho => ⟨hbytes o ho, hD o ho⟩) (fun o q _ _ h => by omega) 0x03 (fun a => .store s.cur (BitVec.ofNat 64 a) [c].length) j
    have hbs : (natLe ((4 + 7) / 8) x).map (fun b => b.toNat % 16) = [x] := by
      rw [show (4 + 7) / 8 = 1 from rfl, natLe, natLe, List.map_singleton, BitVec.toNat_ofNat]
      congr 1
      omega
    have hback : ({ ({ e with ents := [(0, b.toNat)] } : QEntry) with ents := [] } : QEntry) = e := by
      rw [← hents]
    refine ⟨v, ?_, hv, fun q hnamed => ?_, fun q hnamed => ?_⟩
    · rw [if_pos rfl, show (natLe ((4 + 7) / 8) x).length = 1 from natLe_length _ _, nibbleEdges_one hents hread]
      dsimp only
      rw [hbs, nibbleBytes_one, hc, hback]
      exact hwrite
    · obtain ⟨-, h1, h2⟩ := hnamed
      rw [hwrote.nibAt, nibStored, hx]
      unfold nibFirst at h1 h2 ⊢
      rw [if_pos rfl] at h1 h2 ⊢
      rw [if_pos (by omega), show q / 2 - key j = 0 by omega, List.getD_cons_zero, ← hc, BitVec.toNat_ofNat, show q - (2 * key j + j % 2) = 0 by omega]
      rcases Nat.mod_two_eq_zero_or_one j with h | h
      · rw [if_pos h, show q % 2 = 0 by omega]
        omega
      · rw [if_neg (by omega), show q % 2 = 1 by omega]
        omega
    · rw [hwrote.nibAt]
      split
      next hin =>
        have hq2 : q % 2 = 1 - j % 2 := by
          by_contra hne
          exact hnamed ⟨hj, by unfold nibFirst; rw [if_pos rfl]; omega, by unfold nibFirst; rw [if_pos rfl]; omega⟩
        rw [show q / 2 - key j = 0 by omega, List.getD_cons_zero, ← hc, BitVec.toNat_ofNat, nibAt, show q / 2 = key j by omega, hold, hq2]
        rcases Nat.mod_two_eq_zero_or_one j with h | h
        · rw [if_pos h, h]
          omega
        · rw [if_neg (by omega), h]
          omega
      next => rw [nibAt, nibAt, byteAt, byteAt, hcells]
  · have h4 : w ≠ 4 := by omega
    obtain ⟨v, hwrite, hv, hwrote⟩ := hw.engineWrite hq (e := e) heager hwho'.1 hwho'.2.1 hwho'.2.2 (by decide) (natLe_length _ (dataElem s p mode j % 2 ^ w)) hva
      (fun o ho => ⟨hbytes o ho, hD o ho⟩) (fun o q _ _ h => by omega) 0x03 (fun a => .store s.cur (BitVec.ofNat 64 a) (natLe ((w + 7) / 8) (dataElem s p mode j % 2 ^ w)).length) j
    have hfirst : nibFirst key w j = 2 * key j := by rw [nibFirst, if_neg h4, Nat.add_zero]
    refine ⟨v, by rw [if_neg h4]; exact hwrite, hv, fun q hnamed => ?_, fun q hnamed => ?_⟩
    · obtain ⟨-, h1, h2⟩ := hnamed
      rw [hfirst] at h1 h2
      rw [hwrote.nibAt, if_pos ⟨h1, by omega⟩, natLe_getD_toNat _ _ _ (by omega), half_of_byte _ _ (Nat.mod_lt _ Nat.two_pos), nibStored, hfirst]
      congr 3
      omega
    · rw [hwrote.nibAt, if_neg]
      rintro ⟨h1, h2⟩
      exact hnamed ⟨hj, by omega, by omega⟩

omit hq heager hpl hlevel hrem in
/-- What the elements of a set leave where they have been stored: each half byte that they name holds what one of them stores, the last in order; every other stands. -/
def NibsStored (s : State) (p : Posted) (mode : VMode) (key : Nat → Nat) (w : Nat) (S : Nat → Prop) (ord : Prop) (u u' : State) : Prop :=
  ∀ q, (nibAt u' q = nibAt u q ∧ ∀ j, S j → ¬ NibNamed s p key w j q) ∨
    ∃ j, S j ∧ NibNamed s p key w j q ∧ (ord → ∀ l, S l → NibNamed s p key w l q → l ≤ j) ∧ nibAt u' q = nibStored s p mode key w j q

/-- The elements of a store in increasing index (R482). -/
theorem storeLoop_plain (hb : Begun s p h e) (hcvl : (s.h.newEntry p).cap.vl = s.h.vl) (hgm : g.m = h.m) (hgq : g.queue = [e])
    (hw4 : w = 4 ∨ ∃ n, 0 < n ∧ w = 8 * n ∧ (w + 7) / 8 = n) (hents : e.ents = []) {vi vs : VReg} (haddr : elemAddr mode e vi w = elemVa s p mode w)
    (hvs : ∀ j, storeBytes vs e.cap w j = natLe ((w + 7) / 8) (dataElem s p mode j % 2 ^ w)) (sc : Bool) :
    ∀ (fuel t : Nat) (u : State), s.h.vl * s.h.vrows ≤ t + fuel → (s.h.newEntry p).prog ≤ t → AtWork s D g u →
      ∃ u' t', storeLoop s.cur mode w sc vi vs (s.h.vl * s.h.vrows) fuel u { e with prog := t } = (u', { e with prog := t' }, .finished) ∧
        s.h.vl * s.h.vrows ≤ t' ∧ AtWork s D g u' ∧ NibsStored s p mode key w (t ≤ ·) True u u' := by
  have below {j : Nat} (hj : runsAt s p j = true) : j < s.h.vl * s.h.vrows := of_decide_eq_true (Bool.and_eq_true_iff.mp hj).1
  have done (t : Nat) (u : State) (ht : s.h.vl * s.h.vrows ≤ t) (hw : AtWork s D g u) : ∃ u' t',
      ((u, { e with prog := t }, Stop.finished) : State × QEntry × Stop) = (u', { e with prog := t' }, .finished) ∧
        s.h.vl * s.h.vrows ≤ t' ∧ AtWork s D g u' ∧ NibsStored s p mode key w (t ≤ ·) True u u' := by
    refine ⟨u, t, rfl, ht, hw, fun q => .inl ⟨rfl, fun j hj hn => ?_⟩⟩
    have := below hn.1
    omega
  intro fuel
  induction fuel with
  | zero => exact fun t u ht _ hw => done t u ht hw
  | succ fuel ih =>
    intro t u ht hp hw
    unfold storeLoop
    dsimp only
    by_cases hend : s.h.vl * s.h.vrows ≤ t
    · rw [if_pos hend]
      exact done t u hend hw
    · rw [if_neg hend]
      obtain ⟨r, hr⟩ := hw.hart
      have hact : ({ e with prog := t } : QEntry).cap.active u.harts[s.cur] (t / ({ e with prog := t } : QEntry).cap.vl) (t % ({ e with prog := t } : QEntry).cap.vl) =
          runsAt s p t := by
        rw [hr]
        exact hb.runsAt_eq hcvl (g := { g with resv := r }) hgm (Nat.lt_of_not_le hend) hp
      have hwait (k x : Nat) : (u.harts[s.cur]).maskWait { e with prog := t } k x = false := by
        rw [hr]
        exact Hart.maskWait_lone (h := { g with resv := r }) hgq rfl k x
      simp only [hact, hwait, Bool.false_eq_true, if_false]
      cases hrun : runsAt s p t with
      | false =>
        simp only [Bool.not_false, if_true]
        obtain ⟨u', t', hloop, ht', hw', hst⟩ := ih (t + 1) u (by omega) (by omega) hw
        have hnot {j q : Nat} (hj : NibNamed s p key w j q) : j ≠ t := fun h => by rw [h, NibNamed, hrun] at hj; exact Bool.false_ne_true hj.1
        refine ⟨u', t', hloop, ht', hw', fun q => (hst q).imp (fun ⟨h1, h2⟩ => ⟨h1, fun j hj hn => h2 j ?_ hn⟩) fun ⟨j, h1, h2, h3, h4⟩ =>
          ⟨j, Nat.le_of_succ_le h1, h2, fun ho l hl hn => h3 ho l ?_ hn, h4⟩⟩
        · have := hnot hn
          omega
        · have := hnot hn
          omega
      | true =>
        obtain ⟨hva, -⟩ := plainFor_bytes (hpl t hrun).1
        have hva' : elemAddr mode { e with prog := t } vi w = elemVa s p mode w := haddr
        have hvs' : storeBytes vs ({ e with prog := t } : QEntry).cap w (t + 0) = natLe ((w + 7) / 8) (dataElem s p mode t % 2 ^ w) := hvs t
        obtain ⟨v, hone, hv, hnamed, hrest⟩ := storeOne_plain hq heager hpl (e := { e with prog := t }) hlevel hrem hw4 hents hw hrun
        simp only [hva', Bool.not_true, Bool.false_eq_true, if_false, Nat.not_le.mpr hva, decide_false, Bool.false_and, Bool.and_false, List.range_one,
          List.flatMap_singleton, hvs', hone]
        have hv' : AtWork s D g (if sc = true then v.drawTicket else v) ∧ ∀ q, nibAt (if sc = true then v.drawTicket else v) q = nibAt v q := by
          split
          · exact ⟨hv.drawTicket, fun _ => rfl⟩
          · exact ⟨hv, fun _ => rfl⟩
        obtain ⟨u', t', hloop, ht', hw', hst⟩ := ih (t + 1) _ (by omega) (by omega) hv'.1
        refine ⟨u', t', hloop, ht', hw', fun q => ?_⟩
        rcases hst q with ⟨h1, h2⟩ | ⟨j, h1, h2, h3, h4⟩
        · rw [hv'.2] at h1
          by_cases ht : NibNamed s p key w t q
          · refine .inr ⟨t, Nat.le_refl t, ht, fun _ l hl hn => ?_, h1.trans (hnamed q ht)⟩
            by_contra hlt
            exact h2 l (by omega) hn
          · refine .inl ⟨h1.trans (hrest q ht), fun j hj hn => ?_⟩
            by_cases hjt : j = t
            · exact ht (hjt ▸ hn)
            · exact h2 j (by omega) hn
        · refine .inr ⟨j, Nat.le_of_succ_le h1, h2, fun _ l hl hn => ?_, h4⟩
          by_cases hlt : l = t
          · omega
          · exact h3 trivial l (by omega) hn

/-- Elements stored one after another in any order. -/
theorem storeAll_plain (hw4 : w = 4 ∨ ∃ n, 0 < n ∧ w = 8 * n ∧ (w + 7) / 8 = n) (hents : e.ents = []) {f : State → Nat → State} {l : List Nat}
    (hl : ∀ j ∈ l, runsAt s p j = true)
    (hf : ∀ (u v : State) j, j ∈ l → storeOne s.cur w (elemVa s p mode w j) j (natLe ((w + 7) / 8) (dataElem s p mode j % 2 ^ w)) u e = .ok [] v e → f u j = v) :
    ∀ {u : State}, AtWork s D g u → AtWork s D g (l.foldl f u) ∧ NibsStored s p mode key w (· ∈ l) False u (l.foldl f u) := by
  induction l with
  | nil => exact fun hw => ⟨hw, fun q => .inl ⟨rfl, fun j hj => by cases hj⟩⟩
  | cons t l ih =>
    intro u hw
    obtain ⟨v, hone, hv, hnamed, hrest⟩ := storeOne_plain hq heager hpl hlevel hrem hw4 hents hw (hl t List.mem_cons_self)
    rw [List.foldl_cons, hf u v t List.mem_cons_self hone]
    obtain ⟨hw', hst⟩ := ih (fun j hj => hl j (List.mem_cons_of_mem _ hj)) (fun u v j hj => hf u v j (List.mem_cons_of_mem _ hj)) hv
    refine ⟨hw', fun q => ?_⟩
    rcases hst q with ⟨h1, h2⟩ | ⟨j, h1, h2, -, h4⟩
    · by_cases ht : NibNamed s p key w t q
      · exact .inr ⟨t, List.mem_cons_self, ht, False.elim, h1.trans (hnamed q ht)⟩
      · refine .inl ⟨h1.trans (hrest q ht), fun j hj hn => ?_⟩
        rcases List.mem_cons.mp hj with rfl | hj
        · exact ht hn
        · exact h2 j hj hn
    · exact .inr ⟨j, List.mem_cons_of_mem _ h1, h2, False.elim, h4⟩

end

/-- A list in an open order has the same items. -/
theorem mem_pickOrder (seed x : Nat) : ∀ (n : Nat) (l : List Nat), l.length ≤ n → (x ∈ pickOrder seed n l ↔ x ∈ l)
  | 0, l, h => by rw [List.length_eq_zero_iff.mp (Nat.le_zero.mp h)]; rfl
  | n + 1, [], _ => Iff.rfl
  | n + 1, y :: ys, h => by
    have hlt : Config.freeChoice (seed + n) % (ys.length + 1) < (y :: ys).length := Nat.mod_lt _ (Nat.succ_pos _)
    have hperm := List.getElem_cons_eraseIdx_perm hlt
    have hlen : ((y :: ys).eraseIdx (Config.freeChoice (seed + n) % (ys.length + 1))).length ≤ n := by
      rw [List.length_eraseIdx_of_lt hlt]
      simpa using h
    rw [pickOrder, List.mem_cons, mem_pickOrder seed x n _ hlen, List.getD_eq_getElem _ _ hlt, ← List.mem_cons]
    exact hperm.mem_iff

/-! ### The run of a store (R331, R482) -/

/-- The elements of a store: one after another, or, where they write common bytes, in an open order. -/
def storeRun (i : Fin 4) (mode : VMode) (w : Nat) (sc : Bool) (vi vs : VReg) (hi : Nat) (e : QEntry) (s : State) : State × QEntry × Stop :=
  let ts := ((List.range (hi - e.prog)).map (e.prog + ·)).filter fun t => e.cap.active s.harts[i] (t / e.cap.vl) (t % e.cap.vl)
  if mode ≠ .ordered && !sc && w ≠ 4 && !s.harts[i].maskBusy e && anyOverlap (elemAddr mode e vi w) ((w + 7) / 8) ts then
    match (storeAny i mode w vi vs ts s e).2 with
    | some x => ((storeAny i mode w vi vs ts s e).1, { e with prog := x.1 }, .trap x.2)
    | none => ((storeAny i mode w vi vs ts s e).1, { e with prog := max e.prog hi }, .finished)
  else storeLoop i mode w sc vi vs hi (hi + 1) s e

/-- A hart once the index and the data registers of a store have been read (R243). -/
def Hart.readStored (h : Hart) (mode : VMode) (e : QEntry) : Hart := (h.readIndex mode e).relayAll e.cap.et e.cap.lmap [e.post.d]

theorem Hart.readStored_only (h : Hart) (mode : VMode) (e : QEntry) : ∃ v, h.readStored mode e = { h with v := v } := by
  obtain ⟨v, hv⟩ := h.readIndex_only mode e
  obtain ⟨v', hv'⟩ := (h.readIndex mode e).relayAll_only e.cap.et e.cap.lmap [e.post.d]
  exact ⟨v', by rw [Hart.readStored, hv', hv]⟩

theorem AtWork.readStored {s u : State} {D : Nat → Prop} {g : Hart} (h : AtWork s D g u) (mode : VMode) (e : QEntry) :
    AtWork s D (g.readStored mode e) (u.modHart s.cur fun h => h.readStored mode e) := by
  obtain ⟨v, hv⟩ := g.readStored_only mode e
  refine h.modHart (fun r => ⟨r, ?_⟩) (by rw [hv]) (by rw [hv]) (by rw [hv])
  rw [Hart.readStored, Hart.readIndex_resv, Hart.relayAll_resv, Hart.readStored]

theorem Hart.readStored_regs (h : Hart) (mode : VMode) (e : QEntry) : h.RegsOnly (h.readStored mode e) :=
  (h.readIndex_regs mode e).trans (Hart.relayAll_regs _ _ _ _)

/-- What the run over a store's elements comes to. -/
def storeEnd (i : Fin 4) (e : QEntry) (nf : Bool) (x : State × QEntry × Stop) : Ran :=
  match x.2.2 with
  | .finished => if e.total ≤ x.2.1.prog then (if nf then notifyStep i x.1 x.2.1 else .done x.1 x.2.1) else .part x.1 x.2.1
  | .blocked => .block x.1 x.2.1
  | .trap t => .fault x.1 x.2.1 t

theorem storeEnd_finished (i : Fin 4) (e : QEntry) (nf : Bool) {u : State} {e' : QEntry} (ht : e.total ≤ e'.prog) :
    storeEnd i e nf (u, e', .finished) = if nf then notifyStep i u e' else .done u e' := if_pos ht

theorem State.modHart_twice (s : State) (i : Fin 4) (f g : Hart → Hart) : (s.modHart i f).modHart i g = s.modHart i fun h => g (f h) := by
  simp [State.modHart]

theorem runStore_finished {i : Fin 4} {mode : VMode} {mw : BitVec 2} {nf sc : Bool} {e e' : QEntry} {hi : Nat} {s u : State} (hready : s.scReady i e = true)
    (hvl : e.cap.vl ≠ 0) (h0 : e.total ≠ 0)
    (hrun : storeRun i mode (memBits e.cap.et mw) sc ((s.modHart i fun h => h.readIndex mode e).harts[i].readAs e.post.b (idxType e.cap.et) e.cap.lmap)
      ((s.modHart i fun h => h.readStored mode e).harts[i].readAs e.post.d e.cap.et e.cap.lmap) hi e (s.modHart i fun h => h.readStored mode e) =
        (u, e', .finished)) (ht : e.total ≤ e'.prog) :
    runStore i mode mw nf sc e hi s = if nf then notifyStep i u e' else .done u e' := by
  have hindex : (s.modHart i fun h => if mode.isIndexed && e.cap.vl ≠ 0 then h.relayAll (idxType e.cap.et) e.cap.lmap [e.post.b] else h) =
      s.modHart i fun h => h.readIndex mode e := by simp [hvl, Hart.readIndex]
  have hdata : ((s.modHart i fun h => h.readIndex mode e).modHart i fun h => if e.total = 0 then h else h.relayAll e.cap.et e.cap.lmap [e.post.d]) =
      s.modHart i fun h => h.readStored mode e := by
    simp only [h0, if_false]
    exact State.modHart_twice _ _ _ _
  unfold runStore
  rw [hready, if_neg (by simp)]
  dsimp only
  rw [hindex, hdata]
  refine Eq.trans ?_ (storeEnd_finished i e nf ht)
  rw [← hrun]
  exact rfl

/-- The trap of an element whose places cannot be written. -/
def storeBad (i : Fin 4) (mode : VMode) (w : Nat) (vi : VReg) (s : State) (e : QEntry) (t : Nat) : Option (Nat × Trap) :=
  let va := elemAddr mode e vi w t
  match s.locateAll (e.who s i 0 (laneOf e.cap.lmap e.cap.bits (t % e.cap.vl))) .store .vector ((w + 7) / 8)
    (if 2 ^ 63 ≤ va then [(va, (w + 7) / 8)] else pagePieces va ((w + 7) / 8)) with
  | .error tr => some (t, ⟨tr.cause, BitVec.ofNat 64 va⟩)
  | .ok _ => none

/-- A state after an element is stored, where it can be. -/
def storeStep (i : Fin 4) (mode : VMode) (w : Nat) (vi vs : VReg) (e : QEntry) (s : State) (t : Nat) : State :=
  match storeOne i w (elemAddr mode e vi w t) t (storeBytes vs e.cap w t) s e with
  | .ok _ s _ => s
  | _ => s

theorem storeAny_good {i : Fin 4} {mode : VMode} {w : Nat} {vi vs : VReg} {s : State} {e : QEntry} {ts : List Nat} (h : ts.findSome? (storeBad i mode w vi s e) = none) :
    storeAny i mode w vi vs ts s e = (((pickOrder s.free ts.length ts).foldl (storeStep i mode w vi vs e) s).tick, none) := by
  unfold storeAny
  extract_lets addr n wh bad f below
  have hf : f = none := h
  have hbelow : below = ts := by simp only [below, hf]
  rw [hbelow, hf]
  rfl

section
variable {s : State} {p : Posted} {mode : VMode} {w : Nat} {D : Nat → Prop} {key : Nat → Nat} {h g : Hart} {u : State} {e : QEntry}
  (hq : Quiet s) (heager : s.eager = true) (hpl : StorePlaced s p mode w D key) (hlevel : e.level = s.h.level) (hrem : e.remote = .none)
  (hb : Begun s p h e) (hcvl : (s.h.newEntry p).cap.vl = s.h.vl) (hgm : g.m = h.m) (hgq : g.queue = [e])
  (hw4 : w = 4 ∨ ∃ n, 0 < n ∧ w = 8 * n ∧ (w + 7) / 8 = n) (hents : e.ents = []) {vi vs : VReg} (haddr : elemAddr mode e vi w = elemVa s p mode w)
  (hvs : ∀ j, storeBytes vs e.cap w j = natLe ((w + 7) / 8) (dataElem s p mode j % 2 ^ w)) (hw : AtWork s D g u)
include hq heager hpl hlevel hrem hb hcvl hgm hgq hw4 hents haddr hvs hw

omit hb hcvl hgm hgq in
/-- Elements that write common bytes are stored in an open order (R331). -/
theorem storeAny_plain {l : List Nat} (hl : ∀ j ∈ l, runsAt s p j = true) :
    ∃ u', storeAny s.cur mode w vi vs l u e = (u', none) ∧ AtWork s D g u' ∧ NibsStored s p mode key w (· ∈ l) False u u' := by
  have hbad : l.findSome? (storeBad s.cur mode w vi u e) = none := by
    refine List.findSome?_eq_none_iff.mpr fun t ht => ?_
    obtain ⟨hva, hbytes⟩ := plainFor_bytes (hpl t (hl t ht)).1
    obtain ⟨ls, v, hall, -⟩ := hw.locateAll hq.2.2.1 (hw.who_ctxid e 0 (laneOf e.cap.lmap e.cap.bits (t % e.cap.vl))) (w := e.who u s.cur 0 _) hlevel (by decide) hbytes
      ((w + 7) / 8)
    unfold storeBad
    dsimp only
    rw [haddr, if_neg (Nat.not_le.mpr hva), hall]
  have hmem (j : Nat) : j ∈ pickOrder u.free l.length l ↔ j ∈ l := mem_pickOrder _ _ _ _ (Nat.le_refl _)
  obtain ⟨hw', hst⟩ := storeAll_plain hq heager hpl hlevel hrem hw4 hents (l := pickOrder u.free l.length l)
    (f := storeStep s.cur mode w vi vs e) (fun j hj => hl j ((hmem j).mp hj))
    (fun u v j _ hone => by rw [storeStep, haddr, hvs, hone]) hw
  simp only [hmem] at hst
  exact ⟨_, storeAny_good hbad, hw'.tick, hst⟩

/-- The elements of a store, each where it lies (R331, R482). -/
theorem storeRun_plain (sc : Bool) : ∃ u' t', storeRun s.cur mode w sc vi vs (s.h.vl * s.h.vrows) e u = (u', { e with prog := t' }, .finished) ∧
    s.h.vl * s.h.vrows ≤ t' ∧ AtWork s D g u' ∧ NibsStored s p mode key w ((s.h.newEntry p).prog ≤ ·) (mode = .ordered) u u' := by
  unfold storeRun
  dsimp only
  obtain ⟨r, hr⟩ := hw.hart
  have hin {j : Nat} : j ∈ ((List.range (s.h.vl * s.h.vrows - e.prog)).map (e.prog + ·)).filter (fun t => e.cap.active u.harts[s.cur] (t / e.cap.vl) (t % e.cap.vl)) ↔
      (s.h.newEntry p).prog ≤ j ∧ runsAt s p j = true := by
    rw [List.mem_filter, List.mem_map, hb.prog]
    constructor
    · rintro ⟨⟨a, ha, rfl⟩, hact⟩
      have ha := List.mem_range.mp ha
      refine ⟨Nat.le_add_right _ _, ?_⟩
      rw [← hb.runsAt_eq hcvl (g := { g with resv := r }) hgm (by omega) (Nat.le_add_right _ _), ← hr]
      exact hact
    · rintro ⟨hp, hj⟩
      have hlt : j < s.h.vl * s.h.vrows := of_decide_eq_true (Bool.and_eq_true_iff.mp hj).1
      refine ⟨⟨j - (s.h.newEntry p).prog, List.mem_range.mpr (by omega), by omega⟩, ?_⟩
      rw [hr, hb.runsAt_eq hcvl (g := { g with resv := r }) hgm hlt hp]
      exact hj
  generalize ((List.range (s.h.vl * s.h.vrows - e.prog)).map (e.prog + ·)).filter (fun t => e.cap.active u.harts[s.cur] (t / e.cap.vl) (t % e.cap.vl)) = ts at hin ⊢
  split
  next hloose =>
    have hord : mode ≠ .ordered := by
      simp only [Bool.and_eq_true, decide_eq_true_eq] at hloose
      exact hloose.1.1.1.1
    obtain ⟨u', hany, hw', hst⟩ := storeAny_plain hq heager hpl hlevel hrem hw4 hents haddr hvs hw (l := ts) fun j hj => (hin.mp hj).2
    rw [hany]
    refine ⟨u', _, rfl, Nat.le_max_right _ _, hw', fun q => ?_⟩
    rcases hst q with ⟨h1, h2⟩ | ⟨j, h1, h2, -, h4⟩
    · exact .inl ⟨h1, fun j hj hn => h2 j (hin.mpr ⟨hj, hn.1⟩) hn⟩
    · exact .inr ⟨j, (hin.mp h1).1, h2, fun h => absurd h hord, h4⟩
  next =>
    obtain ⟨u', t', hloop, ht', hw', hst⟩ := storeLoop_plain hq heager hpl hlevel hrem hb hcvl hgm hgq hw4 hents haddr hvs sc (s.h.vl * s.h.vrows + 1) e.prog u
      (by omega) hb.prog.ge hw
    refine ⟨u', t', hloop, ht', hw', fun q => ?_⟩
    rw [hb.prog] at hst
    exact (hst q).imp id fun ⟨j, h1, h2, h3, h4⟩ => ⟨j, h1, h2, fun _ => h3 trivial, h4⟩

end

/-! ### The notify step (R485) -/

section
variable {s u : State} {D : Nat → Prop} {g : Hart} {e : QEntry} (hq : Quiet s) (heager : s.eager = true) (hlevel : e.level = s.h.level) (hw : AtWork s D g u)
include hq heager hlevel hw

/-- The notify step counts once, and stores the count where VNOTA is not zero. -/
theorem notifyStep_plain {kn : Nat} (haux : e.aux = 0)
    (hword : g.vnota ≠ 0#64 → PlainAt s s.h.level D g.vnota.toNat 8 .store .aux kn ∧ ∀ o, o < 8 → D (kn + o)) :
    let c := g.ncnt + BitVec.ofNat 64 e.total
    ∃ v, notifyStep s.cur u e = .done v { e with aux := 1 } ∧ AtWork s D { g with ncnt := c } v ∧
      ∀ q, nibAt v q = if g.vnota ≠ 0#64 ∧ 2 * kn ≤ q ∧ q < 2 * kn + 16 then c.toNat / 16 ^ (q - 2 * kn) % 16 else nibAt u q := by
  intro c
  obtain ⟨-, -, -, -, -, hout, hwait⟩ := id hq
  have hw1 : AtWork s D { g with ncnt := c } (u.modHart s.cur fun h => { h with ncnt := h.ncnt + BitVec.ofNat 64 e.total }) :=
    hw.modHart (fun r => ⟨r, rfl⟩) rfl rfl rfl
  obtain ⟨r, hr⟩ := hw1.hart
  have hsame (q : Nat) : nibAt (u.modHart s.cur fun h => { h with ncnt := h.ncnt + BitVec.ofNat 64 e.total }) q = nibAt u q := rfl
  unfold notifyStep
  rw [hw.fab_eq, hout, hwait, (hw.own_stores _ rfl).2]
  simp only [List.any_nil, List.isEmpty_nil, Bool.not_true, Bool.or_self, Bool.false_eq_true, if_false, haux, if_true]
  generalize (u.modHart s.cur fun h => { h with ncnt := h.ncnt + BitVec.ofNat 64 e.total }) = u1 at *
  simp only [hr]
  by_cases h0 : g.vnota = 0#64
  · rw [if_pos h0]
    exact ⟨u1, rfl, hw1, fun q => by rw [hsame, if_neg fun h => h.1 h0]⟩
  · rw [if_neg h0]
    obtain ⟨hplain, hD⟩ := hword h0
    obtain ⟨hva, hbytes⟩ := plainFor_bytes hplain
    generalize hwho : QEntry.who { e with aux := 1 } u1 s.cur 1 0 = wh
    have hwho' : wh.h = s.cur ∧ wh.ctxid = s.h.ctxid.toNat ∧ wh.level = s.h.level := by
      rw [← hwho, ← hlevel]
      exact hw1.who_eq _ _ _
    obtain ⟨v, hwrite, hv, hwrote⟩ := hw1.engineWrite hq (e := { e with aux := 1 }) heager hwho'.1 hwho'.2.1 hwho'.2.2 (by decide) (bs := wordLe c) (n := 8)
      (natLe_length _ _) hva (fun o ho => ⟨hbytes o ho, hD o ho⟩) (fun o q _ _ h => by omega) 0x03 (fun a => .store s.cur (BitVec.ofNat 64 a) 8) e.total
    have htotal : ({ e with aux := 1 } : QEntry).total = e.total := rfl
    rw [htotal, hwrite]
    refine ⟨v, rfl, hv, fun q => ?_⟩
    rw [hwrote.nibAt, hsame]
    by_cases hin : 2 * kn ≤ q ∧ q < 2 * kn + 16
    · rw [if_pos hin, if_pos ⟨h0, hin⟩, wordLe, natLe_getD_toNat _ _ _ (by omega), half_of_byte _ _ (Nat.mod_lt _ Nat.two_pos)]
      congr 3
      omega
    · rw [if_neg hin, if_neg fun h => hin h.2]

end

/-! ### The instructions -/

theorem Begun.readStored_vreg {s : State} {p : Posted} {h : Hart} {e : QEntry} (hb : Begun s p h e) (hcap : (s.h.newEntry p).cap.vl = s.h.vl ∧
    (s.h.newEntry p).cap.vrows = s.h.vrows ∧ (s.h.newEntry p).cap.et = vtEt s.h.vtype ∧ (s.h.newEntry p).cap.lmap = vtGroups s.h.vtype) (mode : VMode) (n : VNum) :
    (h.readStored mode e).vreg n = afterData s p mode n := by
  obtain ⟨-, -, hcet, hclmap⟩ := id hcap
  rw [Hart.readStored, Hart.relayAll_vreg, hb.readIndex_vreg hcap, hb.post, hb.cap, hcet, hclmap]
  simp only [List.mem_singleton, afterData]

theorem bodyRun_store {i : Fin 4} {e : QEntry} {mode : VMode} {mw : BitVec 2} {nf sc : Bool} (hbody : e.post.body = .store mode mw nf sc) (hi : Nat)
    (s : State) : bodyRun i hi e s = (runStore i mode mw nf sc e hi s, none) := by
  unfold bodyRun
  rw [hbody]

/-- A store to plain storage at an idle hart completes in its step (R482, R485). -/
theorem store_completes {s : State} {i : Instr} {p : Posted} {mode : VMode} {mw : BitVec 2} {nf : BitVec 1} {sc : Bool} (hx : exec i s = issue p s)
    (hbody : p.body = .store mode mw (nf == 1#1) sc) (hxd : p.xd = none) : StoresElems s i p mode mw nf := by
  unfold StoresElems
  intro w n count key kn word first names note D hruns hq hshape hel hword
  have hcap := hruns.captured
  obtain ⟨hcvl, hcrows, hcet, hclmap⟩ := id hcap
  obtain ⟨h, e, a, hb, he, hdone⟩ := hruns.completes
  obtain ⟨hopa, hlevel, hrem, hfirst, hents, haux⟩ := entry_of_begun a he
  obtain ⟨pc, c0, c1, pv, tok, hh⟩ := id hb.only
  have hpos : 0 < s.h.vl := Nat.pos_of_ne_zero fun h => hshape (by rw [h, Nat.zero_mul])
  have hpl : StorePlaced s p mode w D key := fun j hj => ⟨(hel j hj).1, fun o ho => .inl ⟨j, hj, Nat.le_add_right _ _, Nat.add_lt_add_left ho _⟩, (hel j hj).2⟩
  have hw0 := hb.atWork hq D
  have hmem0 : ((s.mod fun _ => h).served s.cur p.eng).mem = s.mem := by
    obtain ⟨a, b, hs⟩ := State.served_frame (s.mod fun _ => h) s.cur p.eng
    rw [hs]
    rfl
  generalize (s.mod fun _ => h).served s.cur p.eng = u0 at hw0 hdone hmem0
  obtain ⟨v1, hv1⟩ := h.readIndex_only mode e
  obtain ⟨v2, hv2⟩ := h.readStored_only mode e
  have hw1 := hw0.readIndex mode e
  have hw2 := hw0.readStored mode e
  have hmem : memBits e.cap.et mw = w := by rw [hb.cap, hcet]
  have hbits : e.cap.bits = width s := by rw [Cap.bits, hb.cap, hcet, width]
  have hvi : mode.isIndexed = true →
      (u0.modHart s.cur fun h => h.readIndex mode e).harts[s.cur].readAs e.post.b (idxType e.cap.et) e.cap.lmap = indexReg s p.b := fun hi => by
    obtain ⟨r, hr⟩ := hw1.hart
    rw [hr]
    exact hb.readIndex_readAs hcap hi
  have hvs (j : Nat) : storeBytes ((u0.modHart s.cur fun h => h.readStored mode e).harts[s.cur].readAs e.post.d e.cap.et e.cap.lmap) e.cap w j =
      natLe ((w + 7) / 8) (dataElem s p mode j % 2 ^ w) := by
    obtain ⟨r, hr⟩ := hw2.hart
    have hreg : ((h.readStored mode e).readAs e.post.d e.cap.et e.cap.lmap) = afterData s p mode p.d := by
      rw [Hart.readAs, hb.readStored_vreg hcap, hb.post, afterData, if_pos rfl, hb.cap, hcet, hclmap, VReg.relaid_relaid]
    rw [hr]
    show storeBytes ((h.readStored mode e).readAs e.post.d e.cap.et e.cap.lmap) e.cap w j = _
    rw [hreg, storeBytes, hbits, hb.cap, hcvl]
    rfl
  obtain ⟨u, t', hrun, ht', hw, hst⟩ := storeRun_plain hq hruns.2.1 hpl hlevel hrem hb hcvl (by rw [hv2]) (by rw [hv2]; exact hb.queue) (memBits_cases _ mw) hents
    (hb.elemAddr_eq hopa hvi w) hvs hw2 sc
  have hfin := runStore_finished (nf := nf == 1#1) (hw0.scReady hq hb.queue) (by rw [hb.cap, hcvl]; omega) (by rw [hb.total]; exact hshape)
    (by rw [hmem]; exact hrun) (by rw [hb.total]; exact ht')
  have hvnota : (h.readStored mode e).vnota = s.h.vnota := by rw [hv2, hh]
  have hncnt : (h.readStored mode e).ncnt = s.h.ncnt := by rw [hv2, hh]
  have htotal : ({ e with prog := t' } : QEntry).total = s.h.vl * s.h.vrows := hb.total
  have hend : ∃ u' e' g', (if (nf == 1#1) = true then notifyStep s.cur u { e with prog := t' } else .done u { e with prog := t' }) = .done u' e' ∧ e'.eid = e.eid ∧
      e'.post = e.post ∧ g' = { h.readStored mode e with ncnt := if nf = 1#1 then count else s.h.ncnt } ∧ AtWork s D g' u' ∧
      ∀ q, nibAt u' q = if word ∧ 2 * kn ≤ q ∧ q < 2 * kn + 16 then count.toNat / 16 ^ (q - 2 * kn) % 16 else nibAt u q := by
    by_cases hnf : nf = 1#1
    · obtain ⟨v, hstep, hv, hnib⟩ := notifyStep_plain hq hruns.2.1 (e := { e with prog := t' }) hlevel hw (kn := kn) haux fun h0 => by
        rw [hvnota] at h0 ⊢
        exact ⟨hword ⟨hnf, h0⟩, fun o ho => .inr ⟨⟨hnf, h0⟩, by omega, by omega⟩⟩
      rw [htotal, hncnt] at hv hnib
      refine ⟨v, _, _, (if_pos (by simpa using hnf)).trans hstep, rfl, rfl, by rw [if_pos hnf], hv, fun q => ?_⟩
      rw [hnib, hvnota]
      have hiff : (s.h.vnota ≠ 0#64 ∧ 2 * kn ≤ q ∧ q < 2 * kn + 16) ↔ (word ∧ 2 * kn ≤ q ∧ q < 2 * kn + 16) :=
        and_congr_left fun _ => ⟨fun h => ⟨hnf, h⟩, fun h => h.2⟩
      by_cases hin : word ∧ 2 * kn ≤ q ∧ q < 2 * kn + 16
      · rw [if_pos hin, if_pos (hiff.mpr hin)]
      · rw [if_neg hin, if_neg fun h => hin (hiff.mp h)]
    · refine ⟨u, _, _, if_neg (by simpa using hnf), rfl, rfl, by rw [if_neg hnf], ?_, fun q => (if_neg fun h => hnf h.1.1).symm⟩
      rw [← hncnt]
      exact hw
  obtain ⟨u', e', g', hend, heid, hpost, hg', hw', hnib⟩ := hend
  have hl := hdone (x := none) (e2 := e') ((bodyRun_store (by rw [hb.post, hbody]) _ _).trans
    (congrArg (·, none) (by rw [hb.total]; exact hfin.trans hend))) heid (hpost.trans hb.post) hw'.cur_eq
    (by obtain ⟨r, hr⟩ := hw'.hart; rw [hr, hg', hv2]; exact ⟨_, _, _, _, _, _, _, _, _, rfl⟩)
  refine ⟨_, by rw [hx, issue_postable hruns.1], hw'.memFrame hl ?_ (by rw [hg', hv2, hh]), by rw [hw'.ncnt_eq hl, hg'], fun m => ?_, fun q => ?_⟩
  · rw [State.restored, ← show (s.postNow p).h.x = s.h.x by rw [hl.x, hxd]; rfl, ← show (s.postNow p).h.m = s.h.m by rw [hw'.m_eq hl, hg', hv2, hh],
      ← show (s.postNow p).h.gatef = s.h.gatef by rw [hw'.gatef_eq hl, hg', hv2, hh], ← show (s.postNow p).h.ev = s.h.ev by rw [hw'.ev_eq hl, hg', hv2, hh],
      ← show (s.postNow p).h.cfails = s.h.cfails by rw [hw'.cfails_eq hl, hg', hv2, hh]]
  · rw [Hart.vreg, hw'.v_eq hl, hg']
    exact hb.readStored_vreg hcap mode m
  · have hat : nibAt (s.postNow p) q = nibAt u' q := by rw [nibAt, nibAt, byteAt, byteAt, hl.mem]
    have h0 : nibAt (u0.modHart s.cur fun h => h.readStored mode e) q = nibAt s q := by
      have hmem' : (u0.modHart s.cur fun h => h.readStored mode e).mem = s.mem := hmem0
      rw [nibAt, nibAt, byteAt, byteAt, hmem']
    rw [hat, hnib]
    refine ⟨fun hn => if_pos hn, fun hn hex => ?_, fun hn hnone => ?_⟩
    · rw [if_neg hn]
      rcases hst q with ⟨-, h2⟩ | ⟨j, -, h2, h3, h4⟩
      · obtain ⟨j, hj⟩ := hex
        have hjp : (s.h.newEntry p).prog ≤ j := by
          have hdiv := Nat.div_add_mod j s.h.vl
          rw [Nat.mul_comm] at hdiv
          have := of_decide_eq_true (Bool.and_eq_true_iff.mp (Bool.and_eq_true_iff.mp hj.1).2).1
          omega
        exact absurd hj (h2 j hjp)
      · refine ⟨j, h2, fun ho l hl => h3 ho l ?_ hl, h4⟩
        have hdiv := Nat.div_add_mod l s.h.vl
        rw [Nat.mul_comm] at hdiv
        have := of_decide_eq_true (Bool.and_eq_true_iff.mp (Bool.and_eq_true_iff.mp hl.1).2).1
        omega
    · rw [if_neg hn]
      rcases hst q with ⟨h1, -⟩ | ⟨j, -, h2, -⟩
      · rw [h1, h0]
      · exact absurd h2 (hnone j)

end Sys2Proof.Machine
end

section
/-! SUPPORT. Vector atomics on plain storage at an idle hart (R454, R596 to R598): the elements perform in increasing index, each on what those before it leave. -/

namespace Sys2Proof.Machine
open Sys2Proof.Claims

/-! ### One atomic access -/

theorem State.writeKey_plain {u : State} (hsca : u.mem.sca = []) (hseal : u.mem.sealed = []) {enc : Bool} {k : Nat} (hk : enc = true → hbmEnd ≤ k) (w : Who) (g va : Nat)
    (bs : List Byte) : u.writeKey w enc false g va k bs = some (u.pokeKey w.ownCore k bs) := by
  have hopen := Memory.openUnits_plain hseal hk true (u.encKey w.ctxid) bs.length
  rw [State.writeKey, State.applySca_none hsca, State.writeNow, hopen]
  rfl

/-- A write of bytes at a place of plain storage. -/
theorem AtWork.writePlace {s u : State} {D : Nat → Prop} {g : Hart} (hw : AtWork s D g u) (hq : Quiet s) {enc : Bool} {k n : Nat} (hk : enc = true → hbmEnd ≤ k)
    (hD : ∀ o, o < n → D (k + o)) (wh : Who) (pg va : Nat) {bs : List Byte} (hlen : bs.length = n) :
    u.writeKey wh enc false pg va k bs = some (u.pokeKey wh.ownCore k bs) ∧ AtWork s D g (u.pokeKey wh.ownCore k bs) ∧
      u.Wrote (u.pokeKey wh.ownCore k bs) n (fun o => k + o) bs := by
  have hreached := hw.reached.pokeKey (k := k) (bs := bs) hq.1 (fun a h1 h2 => by
    have := hD (a - k) (by omega)
    rwa [Nat.add_sub_cancel' h1] at this) wh.ownCore
  have hwrote := State.Wrote.pokeKey (hw.reached.wf hq.1) wh.ownCore (ks := fun o => k + o) (fun _ _ => rfl) hlen
  exact ⟨State.writeKey_plain (hw.sca.trans hq.2.1) (hw.reached.sealed_eq.trans hq.2.2.1) hk wh pg va bs, hw.wrote hreached hwrote, hwrote⟩

section
variable {s u : State} {D : Nat → Prop} {g : Hart} {va n k v : Nat} {wh : Who} {f : Nat → Option Nat} (hw : AtWork s D g u) (hq : Quiet s)
  (hpl : PlainAt s s.h.level D va n .atomic .atomic k) (hsound : Sound s k n) (hD : ∀ o, o < n → D (k + o)) (hctx : wh.ctxid = s.h.ctxid.toNat)
  (hl : wh.level = s.h.level)
include hw hq hpl hctx hl

/-- The place of an atomic on plain storage, and what stands there. -/
theorem AtWork.locateAtomic : ∃ l u', u.locate wh va n .atomic .atomic = .ok (l, u') ∧ l.Plain k ∧ AtWork s D g u' ∧ u'.mem.cells = u.mem.cells ∧
    u.Touched s.h.ctxid.toNat u' := by
  obtain ⟨hn, hpage, hfor⟩ := plainFor_of_plainAt hpl
  obtain ⟨l, u', hloc, hplain, hu⟩ := (hw.reached.plainFor hq.2.2.1 hfor).locate (.refl s.h.ctxid.toNat u) hn hpage hctx hl
  exact ⟨l, u', hloc, hplain, hw.touched hq.2.2.1 hu, hu.cells_eq, hu⟩

include hsound

omit hpl hctx hl in
/-- What an atomic reads at its place. -/
theorem AtWork.readPlace {l : Loc} (hplain : l.Plain k) : ∃ enc u', (enc = true → hbmEnd ≤ k) ∧ (l = .spad k ∧ enc = true ∨ ∃ g, l = .hbm k enc false g) ∧
    u.readKey wh enc k n = (some (u.mem.peek k n), u') ∧ AtWork s D g u' ∧ u.Touched s.h.ctxid.toNat u' := by
  have hsca : u.mem.sca = [] := hw.sca.trans hq.2.1
  have hseal : u.mem.sealed = [] := hw.reached.sealed_eq.trans hq.2.2.1
  cases hplain with
  | spad hfar =>
    obtain ⟨u', hread, hu⟩ := (State.Touched.refl s.h.ctxid.toNat u).readKey hsca hseal (hw.reached.sound hsound) (enc := true) (fun _ => hfar) wh false
    exact ⟨true, u', fun _ => hfar, .inl ⟨rfl, rfl⟩, hread, hw.touched hq.2.2.1 hu, hu⟩
  | hbm g =>
    obtain ⟨u', hread, hu⟩ := (State.Touched.refl s.h.ctxid.toNat u).readKey hsca hseal (hw.reached.sound hsound) (enc := false) (fun h => by cases h) wh false
    exact ⟨false, u', fun h => (by cases h), .inr ⟨g, rfl⟩, hread, hw.touched hq.2.2.1 hu, hu⟩

include hD

/-- An atomic access to plain storage reads what stands there and writes its new value. -/
theorem AtWork.atomicAt (hf : f (leNat (u.mem.peek k n)) = some v) : ∃ u', u.atomicAt wh va n f = .ok (leNat (u.mem.peek k n)) u' ∧ AtWork s D g u' ∧
    u.Wrote u' n (fun o => k + o) (natLe n v) := by
  obtain ⟨l, u1, hloc, hplain, hw1, hcells, ht1⟩ := hw.locateAtomic hq hpl hctx hl
  have hpeek : u1.mem.peek k n = u.mem.peek k n := by rw [Memory.peek, hcells, Memory.peek]
  obtain ⟨enc, u2, henc, hplace, hread, hw2, ht2⟩ := hw1.readPlace hq (wh := wh) hsound hplain
  obtain ⟨-, hw3, hwrote⟩ := hw2.writePlace hq henc hD wh 0 va (natLe_length n v)
  refine ⟨u2.pokeKey wh.ownCore k (natLe n v), ?_, hw3, (hwrote.after_touched ht2).after_touched ht1⟩
  rw [hpeek] at hread
  rw [State.atomicAt, hloc]
  rcases hplace with ⟨rfl, rfl⟩ | ⟨g', rfl⟩
  · simp only [hread, hf]
  · obtain ⟨hkey', -⟩ := hw2.writePlace hq henc hD wh g' va (natLe_length n v)
    obtain rfl : enc = false := by cases hplain; rfl
    simp only [hread, hf, hkey']

end

/-! ### The run of a vector atomic (R598) -/

theorem amoNew_eq_amoStored {op : AmoOp} (hop : op ≠ .cas) {n old b : Nat} (hold : old < 2 ^ (8 * n)) (hb : b < 2 ^ (8 * n)) :
    amoNew op n old b 0 = some (amoStored op n old b 0) := by
  cases op with
  | cas => exact absurd rfl hop
  | min => exact congrArg some (lesser_eq_wrap hold hb)
  | max => exact congrArg some (greater_eq_wrap hold hb)
  | minu =>
    refine congrArg some ?_
    show (if b < old then b else old) = min old b
    split <;> omega
  | maxu =>
    refine congrArg some ?_
    show (if old < b then b else old) = max old b
    split <;> omega
  | _ => rfl

/-- One more element performs on what those before it leave. -/
theorem afterAtomics_concat (n : Nat) (f : Nat → Nat → Nat) (key opnd : Nat → Nat) (j a : Nat) : ∀ (l : List Nat) (m : Nat → Byte),
    afterAtomics n f key opnd (l ++ [j]) m a = if key j ≤ a ∧ a < key j + n then
      (natLe n (f (leNat ((List.range n).map fun o => afterAtomics n f key opnd l m (key j + o))) (opnd j))).getD (a - key j) 0#8
      else afterAtomics n f key opnd l m a
  | [], _ => rfl
  | _ :: l, _ => afterAtomics_concat n f key opnd j a l _

section
variable (s : State) (p : Posted)

theorem runsBelow_succ (t : Nat) : runsBelow s p (t + 1) = runsBelow s p t ++ if runsAt s p t = true then [t] else [] := by
  rw [runsBelow, List.range_succ, List.filter_append, List.filter_singleton, Bool.cond_eq_ite]
  rfl

theorem mem_runsBelow {s : State} {p : Posted} {n j : Nat} : j ∈ runsBelow s p n ↔ j < n ∧ runsAt s p j = true := by
  rw [runsBelow, List.mem_filter, List.mem_range]

/-- An executed tile index lies in the shape, at or above VSTART. -/
theorem runsAt_bounds {s : State} {p : Posted} {j : Nat} (h : runsAt s p j = true) : (s.h.newEntry p).prog ≤ j ∧ j < s.h.vl * s.h.vrows := by
  obtain ⟨hlt, hexec⟩ := Bool.and_eq_true_iff.mp h
  have hp := of_decide_eq_true (Bool.and_eq_true_iff.mp hexec).1
  have hdiv := Nat.div_add_mod j s.h.vl
  rw [Nat.mul_comm] at hdiv
  exact ⟨hdiv ▸ hp, of_decide_eq_true hlt⟩

theorem runsBelow_start : runsBelow s p (s.h.newEntry p).prog = [] := by
  refine List.filter_eq_nil_iff.mpr fun j hj h => ?_
  have := (runsAt_bounds h).1
  have := List.mem_range.mp hj
  omega

theorem runsBelow_end {t : Nat} (h : s.h.vl * s.h.vrows ≤ t) : runsBelow s p t = runsBelow s p (s.h.vl * s.h.vrows) := by
  induction t, h using Nat.le_induction with
  | base => rfl
  | succ t ht ih =>
    have hrun : ¬ runsAt s p t = true := fun h => Nat.not_lt.mpr ht (runsAt_bounds h).2
    rw [runsBelow_succ, if_neg hrun, List.append_nil, ih]

end

section
variable {s : State} {p : Posted} {h g : Hart} {e : QEntry} {key : Nat → Nat} {op : AmoOp} {n : Nat} {vi : VReg} (hq : Quiet s) (hb : Begun s p h e)
  (hcvl : (s.h.newEntry p).cap.vl = s.h.vl) (hlevel : e.level = s.h.level) (hrem : e.remote = .none) (hgm : g.m = h.m) (hgq : g.queue = [e])
include hq hb hcvl hlevel hrem hgm hgq

/-- Memory once the executed elements below an index have performed. -/
def amoCells (s : State) (p : Posted) (op : AmoOp) (n : Nat) (key : Nat → Nat) (t : Nat) : Nat → Byte :=
  afterAtomics n (fun old b => amoStored op n old b 0) key (dataElem s p .indexed) (runsBelow s p t) (byteAt s)

/-- The value that element `j` finds. -/
def amoFound (s : State) (p : Posted) (op : AmoOp) (n : Nat) (key : Nat → Nat) (j : Nat) : Nat :=
  leNat ((List.range n).map fun o => amoCells s p op n key j (key j + o))

/-- A run over the elements of a vector atomic. -/
theorem amoLoop_plain (hop : op ≠ .cas) (hbits : e.cap.bits = width s) (hn : width s = 8 * n) (haddr : elemAddr .indexed e vi (width s) = elemVa s p .indexed (width s))
    {opnd : Nat → Nat} (hopnd : opnd = dataElem s p .indexed) {D : Nat → Prop} (hD : ∀ j o, runsAt s p j = true → o < n → D (key j + o))
    (hkey : ∀ j, runsAt s p j = true → elemVa s p .indexed (width s) j % n = 0 ∧
      PlainAt s s.h.level D (elemVa s p .indexed (width s) j) n .atomic .atomic (key j) ∧ Sound s (key j) n) :
    ∀ (fuel t : Nat) (u : State) (acc : List (Nat × Nat)), s.h.vl * s.h.vrows ≤ t + fuel → (s.h.newEntry p).prog ≤ t → AtWork s D g u →
      (∀ a, byteAt u a = amoCells s p op n key t a) →
      ∃ u' t' vals, amoLoop op s.cur vi opnd (s.h.vl * s.h.vrows) fuel u { e with prog := t } acc = (u', { e with prog := t' }, acc ++ vals, .finished) ∧
        s.h.vl * s.h.vrows ≤ t' ∧ AtWork s D g u' ∧ (∀ a, byteAt u' a = amoCells s p op n key (s.h.vl * s.h.vrows) a) ∧
        ∀ j v, (j, v) ∈ vals ↔ t ≤ j ∧ runsAt s p j = true ∧ v = amoFound s p op n key j := by
  have done (t : Nat) (u : State) (acc : List (Nat × Nat)) (ht : s.h.vl * s.h.vrows ≤ t) (hw : AtWork s D g u) (hu : ∀ a, byteAt u a = amoCells s p op n key t a) :
      ∃ u' t' vals, ((u, { e with prog := t }, acc, Stop.finished) : State × QEntry × List (Nat × Nat) × Stop) = (u', { e with prog := t' }, acc ++ vals, .finished) ∧
        s.h.vl * s.h.vrows ≤ t' ∧ AtWork s D g u' ∧ (∀ a, byteAt u' a = amoCells s p op n key (s.h.vl * s.h.vrows) a) ∧
        ∀ j v, (j, v) ∈ vals ↔ t ≤ j ∧ runsAt s p j = true ∧ v = amoFound s p op n key j := by
    refine ⟨u, t, [], by rw [List.append_nil], ht, hw, fun a => ?_, fun j v => ⟨fun h => (by cases h), fun ⟨h1, h2, _⟩ => ?_⟩⟩
    · rw [hu, amoCells, amoCells, runsBelow_end s p ht]
    · have := (runsAt_bounds h2).2
      omega
  intro fuel
  induction fuel with
  | zero => exact fun t u acc ht _ hw hu => done t u acc ht hw hu
  | succ fuel ih =>
    intro t u acc ht hp hw hu
    unfold amoLoop
    dsimp only
    by_cases hend : s.h.vl * s.h.vrows ≤ t
    · rw [if_pos hend]
      exact done t u acc hend hw hu
    · rw [if_neg hend]
      obtain ⟨r, hr⟩ := hw.hart
      have hact : ({ e with prog := t } : QEntry).cap.active u.harts[s.cur] (t / ({ e with prog := t } : QEntry).cap.vl) (t % ({ e with prog := t } : QEntry).cap.vl) =
          runsAt s p t := by
        rw [hr]
        exact hb.runsAt_eq hcvl (g := { g with resv := r }) hgm (Nat.lt_of_not_le hend) hp
      have hwait (k x : Nat) : (u.harts[s.cur]).maskWait { e with prog := t } k x = false := by
        rw [hr]
        exact Hart.maskWait_lone (h := { g with resv := r }) hgq rfl k x
      simp only [hact, hwait, Bool.false_eq_true, if_false]
      cases hrun : runsAt s p t with
      | false =>
        simp only [Bool.not_false, if_true]
        obtain ⟨u', t', vals, hloop, ht', hw', hu', hvals⟩ := ih (t + 1) u acc (by omega) (by omega) hw fun a => by
          rw [hu, amoCells, amoCells, runsBelow_succ, hrun, if_neg Bool.false_ne_true, List.append_nil]
        refine ⟨u', t', vals, hloop, ht', hw', hu', fun j v => (hvals j v).trans (and_congr_left fun hj => ?_)⟩
        have : j ≠ t := fun h => by rw [h, hrun] at hj; exact Bool.false_ne_true hj.1
        omega
      | true =>
        obtain ⟨halign, hplain, hsound⟩ := hkey t hrun
        have hva' : elemAddr .indexed { e with prog := t } vi (width s) = elemVa s p .indexed (width s) := haddr
        have hbits' : ({ e with prog := t } : QEntry).cap.bits = 8 * n := hbits.trans hn
        rw [← hn] at hbits'
        have hdiv : width s / 8 = n := by omega
        rw [hbits', hva', hdiv]
        simp only [halign, Bool.not_true, Bool.false_eq_true, if_false, ne_eq, not_true_eq_false]
        generalize hwho : QEntry.who { e with prog := t } u s.cur 0 _ = wh
        have hwho' : wh.h = s.cur ∧ wh.ctxid = s.h.ctxid.toNat ∧ wh.level = s.h.level := by
          rw [← hwho, ← hlevel]
          exact hw.who_eq _ _ _
        have hpeek : leNat (u.mem.peek (key t) n) = amoFound s p op n key t := by
          rw [peek_eq_map, amoFound]
          exact congrArg leNat (List.map_congr_left fun o _ => hu _)
        have hfound : amoFound s p op n key t < 2 ^ (8 * n) := by
          have := leNat_lt (u.mem.peek (key t) n)
          rw [hpeek, peek_eq_map, List.length_map, List.length_range, show (256 : Nat) = 2 ^ 8 from rfl, ← Nat.pow_mul] at this
          exact this
        have hdata : dataElem s p .indexed t < 2 ^ (8 * n) := hn ▸ VReg.elem_lt _ _ _ _
        obtain ⟨v, hat, hv, hwrote⟩ := hw.atomicAt hq hplain hsound (fun o ho => hD t o hrun ho) hwho'.2.1 hwho'.2.2
          (f := fun old => amoNew op n old (opnd t) 0) (by rw [hpeek, hopnd]; exact amoNew_eq_amoStored hop hfound hdata)
        have hstep : amoElem op s.cur (elemVa s p .indexed (width s) t) n (opnd t) wh u { e with prog := t } =
            .ok (natLe n (amoFound s p op n key t)) v { e with prog := t } := by
          rw [amoElem, hrem]
          simp only [hat, hpeek]
        rw [hstep]
        dsimp only
        obtain ⟨u', t', vals, hloop, ht', hw', hu', hvals⟩ := ih (t + 1) v (acc ++ [(t, amoFound s p op n key t)]) (by omega) (by omega) hv fun a => by
          rw [amoCells, runsBelow_succ, if_pos hrun, afterAtomics_concat]
          split
          next hin =>
            have := hwrote.inside (a - key t) (by omega)
            rw [Nat.add_sub_cancel' hin.1] at this
            rw [byteAt, this]
            rfl
          next hout => exact (hwrote.outside a fun o ho he => hout ⟨by omega, by omega⟩).trans (hu a)
        refine ⟨u', t', (t, amoFound s p op n key t) :: vals, ?_, ht', hw', hu', fun j v => ?_⟩
        · rw [List.append_assoc] at hloop
          rw [leNat_natLe, show 256 ^ n = 2 ^ (8 * n) by rw [Nat.pow_mul], Nat.mod_eq_of_lt hfound]
          exact hloop
        · rw [List.mem_cons, hvals, Prod.mk.injEq]
          constructor
          · rintro (⟨rfl, rfl⟩ | ⟨h1, h2, h3⟩)
            · exact ⟨Nat.le_refl _, hrun, rfl⟩
            · exact ⟨by omega, h2, h3⟩
          · rintro ⟨h1, h2, h3⟩
            by_cases hj : j = t
            · subst hj
              exact .inl ⟨rfl, h3⟩
            · exact .inr ⟨by omega, h2, h3⟩

end

/-! ### The instructions -/

/-- What a register shows that was read before it was written, in the words of the statements about what it was. -/
theorem RegWritten.of_kept {s t : State} {n : VNum} {et : ETCode} {old r : VReg} {whole whole' : Bool} {g : Nat → Nat → Option Nat}
    (h : RegWritten s t n et r whole g)
    (hkept : ∀ k x, k < 16 → (x + 1) * etBits et ≤ 8192 → k < s.h.vrows → x < s.h.vl → g k x = none → keptElem s r et whole k x = keptElem s old et whole' k x) :
    RegWritten s t n et old whole' g := by
  obtain ⟨hvalid, het, hlmap, helem⟩ := h
  refine ⟨hvalid, het, hlmap, fun k x hk hx hkr hxl => (helem k x hk hx hkr hxl).trans ?_⟩
  cases hg : g k x with
  | some v => rfl
  | none => exact hkept k x hk hx hkr hxl hg

theorem Hart.readAs_resv (h : Hart) (r : Option Nat) (m : VNum) (et : ETCode) (l : BitVec 4) : ({ h with resv := r } : Hart).readAs m et l = h.readAs m et l := rfl

theorem runAmo_done {i : Fin 4} {op : AmoOp} {e e' : QEntry} {hi : Nat} {s u : State} {vals : List (Nat × Nat)} (hcopy : e.copy = none)
    (hloop : amoLoop op i ((s.modHart i fun h => h.readStored .indexed e).harts[i].readAs e.post.b (idxType e.cap.et) e.cap.lmap)
      (fun t => ((s.modHart i fun h => h.readStored .indexed e).harts[i].readAs e.post.d e.cap.et e.cap.lmap).elem e.cap.bits (t / e.cap.vl) (t % e.cap.vl)) hi (hi + 1)
      (s.modHart i fun h => h.readStored .indexed e) e [] = (u, e', vals, .finished)) (ht : e.total ≤ e'.prog) :
    runAmo op i e hi s = .done (u.modHart i fun h =>
      (h.putDests e e.cap.et (vals.map fun x => (x.1 / e.cap.vl, x.1 % e.cap.vl, x.2))).setVpis e.post.d e.copy e'.prog) e' := by
  unfold runAmo
  dsimp only
  rw [show (s.modHart i fun h => (h.relayAll (idxType e.cap.et) e.cap.lmap [e.post.b]).relayAll e.cap.et e.cap.lmap [e.post.d]) =
    s.modHart i fun h => h.readStored .indexed e from rfl, hloop]
  dsimp only
  rw [if_pos ht]
  simp only [Hart.putDests, hcopy, Hart.putInto, VReg.putAll, putLoaded, List.foldl_map, Cap.bits, Hart.setVpis]
  rfl

theorem bodyRun_amo {i : Fin 4} {e : QEntry} {op : AmoOp} (hbody : e.post.body = .amo op) (h0 : e.total ≠ 0) (hi : Nat) (s : State) :
    bodyRun i hi e s = (runAmo op i e hi s, none) := by
  unfold bodyRun
  rw [hbody]
  exact congrArg (·, none) (if_neg h0)

/-- The types and registers that a vector atomic may name (R597). -/
theorem Postable.amo {s : State} {p : Posted} {op : AmoOp} (h : Postable s p) (hbody : p.body = .amo op) :
    (width s = 32 ∨ width s = 64) ∧ p.d ≠ p.b := by
  have hbad := h.1
  simp only [State.postBad, Bool.or_eq_false_iff] at hbad
  have hbody' := hbad.1.2
  simp only [bodyBad, hbody, Bool.or_eq_false_iff, Bool.and_eq_false_iff, bne_eq_false_iff_eq, beq_eq_false_iff_ne] at hbody'
  exact ⟨hbody'.1.1, hbody'.2⟩

/-- A vector atomic on plain storage at an idle hart completes in its step (R597, R598). -/
theorem atomic_completes {s : State} {i : Instr} {p : Posted} {op : AmoOp} (hx : exec i s = issue p s) (hbody : p.body = .amo op) (hop : op ≠ .cas)
    (heng : p.eng = .vector) (hcopyable : p.copyable = false) (hxd : p.xd = none) : AtomicElems s i p op := by
  unfold AtomicElems
  intro n N key D mem hruns hq hshape hkey
  have hcap := hruns.captured
  obtain ⟨hcvl, hcrows, hcet, hclmap⟩ := id hcap
  obtain ⟨h, e, a, hb, he, hdone⟩ := hruns.completes
  obtain ⟨hopa, hlevel, hrem, hfirst, -, -⟩ := entry_of_begun a he
  obtain ⟨hwidth, hdb⟩ := hruns.1.amo hbody
  have hwn : width s = 8 * n := by
    show width s = 8 * (width s / 8)
    rcases hwidth with h | h <;> rw [h]
  have hw0 := hb.atWork hq D
  have hmem0 : ((s.mod fun _ => h).served s.cur p.eng).mem = s.mem := by
    obtain ⟨a, b, hs⟩ := State.served_frame (s.mod fun _ => h) s.cur p.eng
    rw [hs]
    rfl
  generalize (s.mod fun _ => h).served s.cur p.eng = u0 at hw0 hdone hmem0
  obtain ⟨v1, hv1⟩ := h.readStored_only .indexed e
  have hw1 := hw0.readStored .indexed e
  have hcopy : e.copy = none := hb.copy.trans (hruns.1.copy_none hcopyable)
  have hbits : e.cap.bits = width s := by rw [Cap.bits, hb.cap, hcet, width]
  obtain ⟨r, hr⟩ := hw1.hart
  have hread (m : VNum) (et : ETCode) (l : BitVec 4) : (u0.modHart s.cur fun h => h.readStored .indexed e).harts[s.cur].readAs m et l =
      (afterData s p .indexed m).relaid et l := by
    rw [hr, ← hb.readStored_vreg hcap, Hart.readAs_resv]
    rfl
  have hvi : (u0.modHart s.cur fun h => h.readStored .indexed e).harts[s.cur].readAs e.post.b (idxType e.cap.et) e.cap.lmap = indexReg s p.b := by
    rw [hread, hb.post, afterData, if_neg (Ne.symm hdb), afterIndex, if_pos ⟨rfl, rfl⟩, indexReg, hb.cap, hcet, hclmap, VReg.relaid_relaid]
  have hopnd : (fun t => ((u0.modHart s.cur fun h => h.readStored .indexed e).harts[s.cur].readAs e.post.d e.cap.et e.cap.lmap).elem e.cap.bits (t / e.cap.vl)
      (t % e.cap.vl)) = dataElem s p .indexed := by
    have hdata : (afterData s p .indexed p.d).relaid (vtEt s.h.vtype) (vtGroups s.h.vtype) = afterData s p .indexed p.d := by
      rw [afterData, if_pos rfl, VReg.relaid_relaid]
    rw [hread, hb.post, hb.cap, hcet, hclmap, hdata, Cap.bits, hcvl, hcet]
    rfl
  obtain ⟨u, t', vals, hloop, ht', hw, hcells, hvals⟩ := amoLoop_plain hq hb hcvl hlevel hrem (by rw [hv1]) (by rw [hv1]; exact hb.queue) hop hbits hwn
    (hb.elemAddr_eq hopa (fun _ => hvi) (width s)) hopnd (fun j o hj ho => ⟨j, hj, Nat.le_add_right _ _, Nat.add_lt_add_left ho _⟩) hkey
    (s.h.vl * s.h.vrows + 1) e.prog _ [] (by omega) hb.prog.ge hw1 fun a => by
      rw [amoCells, hb.prog, runsBelow_start]
      exact congrArg (fun m : Memory => cellGet m.cells a) hmem0
  have hrun := runAmo_done hcopy hloop (by rw [hb.total]; exact ht')
  generalize hws : (([] ++ vals).map fun x : Nat × Nat => (x.1 / e.cap.vl, x.1 % e.cap.vl, x.2)) = ws at hrun
  have hwd := hw.putDests e e.cap.et ws t'
  have hregs := (h.readStored_regs .indexed e).trans ((h.readStored .indexed e).putDests_regs e e.cap.et ws t')
  have hl := hdone (x := none) (e2 := { e with prog := t' }) ((bodyRun_amo (by rw [hb.post, hbody]) (by rw [hb.total]; exact hshape) _ _).trans
    (congrArg (·, none) (by rw [hb.total]; exact hrun))) rfl hb.post hwd.cur_eq (hwd.changed hregs)
  have hcopy' : (s.h.newEntry p).copy = none := hruns.1.copy_none hcopyable
  have hreg (m : VNum) : (s.postNow p).h.vreg m = if m = p.d then
      ((afterData s p .indexed m).dest (vtEt s.h.vtype) (vtGroups s.h.vtype) s.h.vl s.h.vrows (wholeWrite s p)).putAll (etBits (vtEt s.h.vtype)) ws
      else afterData s p .indexed m := by
    rw [Hart.vreg, hwd.v_eq hl]
    show (((h.readStored .indexed e).putDests e e.cap.et ws).setVpis e.post.d e.copy t').vreg m = _
    rw [Hart.setVpis_vreg, Hart.putDests_vreg (by rw [hcopy]; simp), hb.readStored_vreg hcap, hb.post, hcopy, hb.cap, hcvl, hcrows, hcet, hclmap, hfirst]
    simp only [reduceCtorEq, or_false]
    rfl
  have htile {k x : Nat} (hk : k < s.h.vrows) (hxl : x < s.h.vl) : (k * s.h.vl + x) / s.h.vl = k ∧ (k * s.h.vl + x) % s.h.vl = x ∧
      runsAt s p (k * s.h.vl + x) = executes s p k x := by
    have hdiv : (k * s.h.vl + x) / s.h.vl = k := by rw [Nat.mul_comm, Nat.mul_add_div (by omega), Nat.div_eq_of_lt hxl, Nat.add_zero]
    have hmod : (k * s.h.vl + x) % s.h.vl = x := by rw [Nat.mul_comm, Nat.mul_add_mod, Nat.mod_eq_of_lt hxl]
    exact ⟨hdiv, hmod, by rw [runsAt, hdiv, hmod, decide_eq_true (tile_lt hk hxl), Bool.true_and]⟩
  refine ⟨_, by rw [hx, issue_postable hruns.1], hwd.memFrame_regs hregs hb hl hxd, fun a => ?_, fun m hm => ?_, fun m h1 _ => ?_⟩
  · rw [byteAt, hl.mem]
    exact hcells a
  · obtain rfl : m = p.d := hm.resolve_right fun h => by rw [hcopy'] at h; cases h
    refine RegWritten.of_kept (regWritten_of_putAll ((hreg p.d).trans (if_pos rfl)) fun k x v hk hxl => ?_) fun k x hk hx hkr hxl hnone => ?_
    · obtain ⟨hdiv, hmod, hruns'⟩ := htile hk hxl
      rw [← hws, List.nil_append]
      simp only [List.mem_map, Prod.exists, Prod.mk.injEq, hb.cap, hcvl]
      constructor
      · rintro ⟨j, v', hmem', rfl, rfl, rfl⟩
        obtain ⟨-, hrun', rfl⟩ := (hvals j v').mp hmem'
        have hj := Nat.div_add_mod j s.h.vl
        rw [Nat.mul_comm] at hj
        rw [← hruns', hj, if_pos hrun']
        rfl
      · intro hv
        split at hv
        next hexec =>
          cases hv
          exact ⟨k * s.h.vl + x, _, (hvals _ _).mpr ⟨by rw [hb.prog]; exact of_decide_eq_true (Bool.and_eq_true_iff.mp hexec).1, hruns'.trans hexec, rfl⟩, hdiv, hmod, rfl⟩
        next => cases hv
    · rw [afterData, if_pos rfl, keptElem_relaid _ _ hx]
      cases hwhole : wholeWrite s p with
      | false => rfl
      | true =>
        have hx2 : x < 2048 := by
          have hle : (x + 1) * 4 ≤ (x + 1) * etBits (vtEt s.h.vtype) := Nat.mul_le_mul_left _ (by
            have : etBits (vtEt s.h.vtype) = 32 ∨ etBits (vtEt s.h.vtype) = 64 := hwidth
            omega)
          omega
        rw [executes_of_whole heng hwhole hk hx2] at hnone
        cases hnone
  · rw [hreg, if_neg h1, afterData, if_neg h1]

end Sys2Proof.Machine
end

section
/-! SUPPORT. Scatter-accumulates on plain storage at an idle hart (R600 to R603): what one value of an address comes to, the entries that a run over the elements gathers, and
what they do at their home. -/

namespace Sys2Proof.Machine
open Sys2Proof.Claims

/-! ### Combines (R600) -/

/-- The two words for the combine of two values agree. -/
theorem scaCombine_eq (op : ScaOp) (et : ETCode) : scaCombine op et = scaMade op et ∨
    ∀ a b, a < 2 ^ etBits et → b < 2 ^ etBits et → scaCombine op et a b = scaMade op et a b ∧ scaCombine op et a b < 2 ^ etBits et := by
  unfold scaCombine scaMade
  cases etFmt et with
  | some f => cases op <;> exact .inl rfl
  | none =>
    cases hs : etSigned et with
    | false => cases op <;> exact .inl (by simp)
    | true =>
      cases op with
      | max =>
        refine .inr fun a b ha hb => ⟨greater_eq_wrap ha hb, ?_⟩
        dsimp only
        rw [if_pos rfl]
        split_ifs <;> assumption
      | min =>
        refine .inr fun a b ha hb => ⟨lesser_eq_wrap ha hb, ?_⟩
        dsimp only
        rw [if_pos rfl]
        split_ifs <;> assumption
      | add => exact .inl rfl
      | ordered => exact .inl rfl

theorem combine_eq {op : ScaOp} {et : ETCode} {l : List Nat} (hl : ∀ x ∈ l, x < 2 ^ etBits et) : combine 0 (scaCombine op et) l = combine 0 (scaMade op et) l ∧
    ∀ a, a < 2 ^ etBits et → scaCombine op et a (combine 0 (scaCombine op et) l) = scaMade op et a (combine 0 (scaMade op et) l) := by
  rcases scaCombine_eq op et with h | h
  · rw [h]
    exact ⟨rfl, fun _ _ => rfl⟩
  · have fold : ∀ (l : List Nat) (x : Nat), (∀ y ∈ l, y < 2 ^ etBits et) → x < 2 ^ etBits et →
        l.foldl (scaCombine op et) x = l.foldl (scaMade op et) x ∧ l.foldl (scaCombine op et) x < 2 ^ etBits et := by
      intro l
      induction l with
      | nil => exact fun x _ hx => ⟨rfl, hx⟩
      | cons y l ih =>
        intro x hl hx
        obtain ⟨heq, hlt⟩ := h x y hx (hl y List.mem_cons_self)
        rw [List.foldl_cons, List.foldl_cons, ← heq]
        exact ih _ (fun z hz => hl z (List.mem_cons_of_mem _ hz)) hlt
    have hcomb : combine 0 (scaCombine op et) l = combine 0 (scaMade op et) l ∧ combine 0 (scaCombine op et) l < 2 ^ etBits et := by
      cases l with
      | nil => exact ⟨rfl, Nat.two_pow_pos _⟩
      | cons x l => exact fold l x (fun y hy => hl y (List.mem_cons_of_mem _ hy)) (hl x List.mem_cons_self)
    exact ⟨hcomb.1, fun a ha => by rw [(h a _ ha hcomb.2).1, hcomb.1]⟩

theorem combine_concat (z : Nat) (f : Nat → Nat → Nat) {l : List Nat} (hl : l ≠ []) (x : Nat) : combine z f (l ++ [x]) = f (combine z f l) x := by
  cases l with
  | nil => exact absurd rfl hl
  | cons y l => exact List.foldl_concat _ _ _ _

/-! ### The entries of an instruction (R601) -/

/-- The entries that elements leave, one after another. -/
def gathered (op : ScaOp) (et : ETCode) (va data : Nat → Nat) (l : List Nat) : List ScaEntry :=
  l.foldl (fun es j => scaMerge op et es ⟨j, va j, data j⟩) []

theorem gathered_concat (op : ScaOp) (et : ETCode) (va data : Nat → Nat) (l : List Nat) (j : Nat) :
    gathered op et va data (l ++ [j]) = scaMerge op et (gathered op et va data l) ⟨j, va j, data j⟩ := List.foldl_concat _ _ _ _

theorem gathered_ordered (et : ETCode) (va data : Nat → Nat) (l : List Nat) : gathered .ordered et va data l = l.map fun j => ⟨j, va j, data j⟩ := by
  induction l using List.reverseRecOn with
  | nil => rfl
  | append_singleton l j ih => rw [gathered_concat, ih, List.map_append]; rfl

/-- The values of the elements of one address, in index order. -/
def valuesAt (va data : Nat → Nat) (l : List Nat) (a : Nat) : List Nat := (l.filter fun j => va j == a).map data

/-- What the entries of a list of elements are: one for each address, named by one of its elements, with the values there combined in order. -/
structure Gathers (op : ScaOp) (et : ETCode) (va data : Nat → Nat) (l : List Nat) (es : List ScaEntry) : Prop where
  apart : es.Pairwise fun x y => x.va ≠ y.va
  entry : ∀ x ∈ es, x.index ∈ l ∧ x.va = va x.index ∧ x.value = combine 0 (scaCombine op et) (valuesAt va data l x.va)
  complete : ∀ j ∈ l, ∃ x ∈ es, x.va = va j

theorem valuesAt_concat (va data : Nat → Nat) (l : List Nat) (j a : Nat) : valuesAt va data (l ++ [j]) a = valuesAt va data l a ++ if va j = a then [data j] else [] := by
  rw [valuesAt, List.filter_append, List.map_append, List.filter_singleton]
  rw [Bool.cond_eq_ite]
  by_cases h : va j = a <;> simp [h, valuesAt]

theorem valuesAt_ne_nil {va data : Nat → Nat} {l : List Nat} {j : Nat} (hj : j ∈ l) : valuesAt va data l (va j) ≠ [] := by
  have : data j ∈ valuesAt va data l (va j) := List.mem_map_of_mem (List.mem_filter.mpr ⟨hj, by simp⟩)
  exact List.ne_nil_of_mem this

theorem gathers_gathered {op : ScaOp} (hop : op ≠ .ordered) (et : ETCode) (va data : Nat → Nat) (l : List Nat) : Gathers op et va data l (gathered op et va data l) := by
  induction l using List.reverseRecOn with
  | nil => exact ⟨.nil, fun x hx => (by cases hx), fun j hj => (by cases hj)⟩
  | append_singleton l j ih =>
    obtain ⟨hapart, hentry, hall⟩ := ih
    rw [gathered_concat]
    generalize gathered op et va data l = es at *
    unfold scaMerge
    by_cases hin : ∃ y ∈ es, y.va = va j
    · have hany : es.any (fun y => decide (y.va = va j)) = true := by simpa using hin
      rw [if_pos (by rw [hany]; simpa using hop)]
      refine ⟨?_, fun x hx => ?_, fun i hi => ?_⟩
      · refine List.pairwise_map.mpr (hapart.imp fun {x y} hxy => ?_)
        split_ifs <;> exact hxy
      · obtain ⟨y, hy, rfl⟩ := List.mem_map.mp hx
        obtain ⟨h1, h2, h3⟩ := hentry y hy
        have hvals := valuesAt_concat va data l j y.va
        by_cases hyj : y.va = va j
        · rw [if_pos hyj]
          refine ⟨List.mem_append_left _ h1, h2, ?_⟩
          have hne : valuesAt va data l y.va ≠ [] := by rw [h2]; exact valuesAt_ne_nil h1
          show scaCombine op et y.value (data j) = combine 0 (scaCombine op et) (valuesAt va data (l ++ [j]) y.va)
          rw [hvals, if_pos hyj.symm, combine_concat _ _ hne, ← h3]
        · rw [if_neg hyj]
          refine ⟨List.mem_append_left _ h1, h2, ?_⟩
          rw [hvals, if_neg (Ne.symm hyj), List.append_nil]
          exact h3
      · have hmap (y : ScaEntry) (a : Nat) (hy : y ∈ es) (ha : y.va = a) :
            ∃ x ∈ es.map (fun y => if y.va = va j then { y with value := scaCombine op et y.value (data j) } else y), x.va = a :=
          ⟨_, List.mem_map_of_mem hy, by split_ifs <;> exact ha⟩
        rcases List.mem_append.mp hi with hi | hi
        · obtain ⟨y, hy, hya⟩ := hall i hi
          exact hmap y _ hy hya
        · obtain ⟨y, hy, hya⟩ := hin
          rw [List.mem_singleton.mp hi]
          exact hmap y _ hy hya
    · have hany : es.any (fun y => decide (y.va = va j)) = false := by simpa using hin
      have hnot : ∀ y ∈ es, y.va ≠ va j := fun y hy h => hin ⟨y, hy, h⟩
      rw [if_neg (by rw [hany]; simp)]
      refine ⟨?_, fun x hx => ?_, fun i hi => ?_⟩
      · exact List.pairwise_append.mpr ⟨hapart, List.pairwise_singleton _ _, fun x hx y hy => by rw [List.mem_singleton.mp hy]; exact hnot x hx⟩
      · rcases List.mem_append.mp hx with hx | hx
        · obtain ⟨h1, h2, h3⟩ := hentry x hx
          refine ⟨List.mem_append_left _ h1, h2, ?_⟩
          rw [valuesAt_concat, if_neg (Ne.symm (hnot x hx)), List.append_nil]
          exact h3
        · rw [List.mem_singleton.mp hx]
          refine ⟨List.mem_append_right _ List.mem_cons_self, rfl, ?_⟩
          have hnone : valuesAt va data l (va j) = [] := by
            rw [valuesAt, List.map_eq_nil_iff, List.filter_eq_nil_iff]
            intro i hi h
            obtain ⟨y, hy, hya⟩ := hall i hi
            exact hnot y hy (hya.trans (eq_of_beq h))
          rw [valuesAt_concat, if_pos rfl, hnone]
          rfl
      · rcases List.mem_append.mp hi with hi | hi
        · obtain ⟨y, hy, hya⟩ := hall i hi
          exact ⟨y, List.mem_append_left _ hy, hya⟩
        · rw [List.mem_singleton.mp hi]
          exact ⟨_, List.mem_append_right _ List.mem_cons_self, rfl⟩

/-! ### Index registers read at another type of their width (R243, R481) -/

theorem groupCount_le (g : BitVec 4) : groupCount g ≤ 4 := by
  unfold groupCount
  simp only [groupCount.popc]
  omega

/-- Reading a register at another type of its width shows the elements below VLMAX as they were. -/
theorem VReg.elem_relaid_of_bits {r : VReg} {et : ETCode} {l : BitVec 4} (hw : r.valid = true → etBits r.et = etBits et) {k x : Nat}
    (hx : x < vlmaxOf (groupCount l) et) : (r.relaid et l).elem (etBits et) k x = r.elem (etBits et) k x := by
  have hb : (x + 1) * etBits et ≤ 8192 := by
    have h1 : (x + 1) * etBits et ≤ 2048 * groupCount l := (Nat.mul_le_mul_right _ hx).trans (Nat.div_mul_le_self _ _)
    have := groupCount_le l
    omega
  have hpos : 0 < etBits et := by
    rcases Nat.eq_zero_or_pos (etBits et) with h | h
    · rw [vlmaxOf, h, Nat.div_zero] at hx
      exact absurd hx (Nat.not_lt_zero _)
    · exact h
  unfold VReg.relaid
  by_cases h : (r.valid && (r.et != et || r.lmap != l)) = true
  · have hv := (Bool.and_eq_true_iff.mp h).1
    have hlen : (r.len * etBits r.et + etBits et - 1) / etBits et = r.len := by
      rw [hw hv, Nat.add_sub_assoc hpos, Nat.mul_comm, Nat.mul_add_div hpos, Nat.div_eq_of_lt (by omega), Nat.add_zero]
    rw [if_pos h]
    simp only [hlen, VReg.elem, hv, Bool.true_and]
    by_cases hxl : x < r.len
    · have hin : x < min r.len (vlmaxOf (groupCount l) et) := lt_min hxl hx
      simp only [hxl, hin, decide_true, Bool.true_and]
      by_cases hk : k < r.nrows
      · simp only [hk, decide_true, if_true, VReg.row]
        by_cases hk16 : k < 16
        · simp only [Vector.getElem?_eq_getElem hk16, Option.getD_some]
          rw [Vector.getElem_map, rowGet_rowKeep _ _ _ _ hb, if_pos hin]
        · simp [hk16]
      · simp [hk]
    · have hout : ¬ x < min r.len (vlmaxOf (groupCount l) et) := fun h => hxl (lt_of_lt_of_le h (min_le_left _ _))
      simp [hxl, hout]
  · rw [if_neg h]

theorem etBits_idxType {et : ETCode} (h : etBits et = 32 ∨ etBits et = 64) : etBits (idxType et) = etBits et := by
  unfold idxType
  rcases h with h | h <;> rw [h] <;> rfl

/-- An index register that was read as data too gives the same indices. -/
theorem idxAt_relaid {et : ETCode} (h : etBits et = 32 ∨ etBits et = 64) (r : VReg) (l : BitVec 4) (k x : Nat) :
    idxAt (((r.relaid (idxType et) l).relaid et l).relaid (idxType et) l) et l k x = idxAt (r.relaid (idxType et) l) et l k x := by
  have hbits := etBits_idxType h
  unfold idxAt
  dsimp only
  split
  · rename_i hx
    have hx' : x < vlmaxOf (groupCount l) et := by rw [vlmaxOf, ← hbits]; exact hx
    rw [VReg.elem_relaid_of_bits (fun hv => by rw [VReg.relaid_et _ _ _ hv, hbits]) hx, hbits,
      VReg.elem_relaid_of_bits (fun hv => by rw [VReg.relaid_et _ _ _ hv, hbits]) hx']
  · rfl

end Sys2Proof.Machine
end

section
/-! SUPPORT. The run of a scatter-accumulate over its elements and its entries at their home (R601 to R603). -/

namespace Sys2Proof.Machine
open Sys2Proof.Claims

/-- A state with other pending entries in the combining store. -/
def State.withSca (u : State) (l : List ScaPending) : State := { u with mem := { u.mem with sca := l } }

theorem State.withSca_self {u : State} {l : List ScaPending} (h : u.mem.sca = l) : u.withSca l = u := by rw [State.withSca, ← h]

theorem State.Reached.withSca {D : Nat → Prop} {ctx : Nat} {s t : State} (h : s.Reached D ctx t) (l : List ScaPending) : s.Reached D ctx (t.withSca l) := by
  obtain ⟨⟨_, _, _, _, _, _, _, _, rfl⟩, ⟨_, _, _, _, _, hm⟩, hc, hw, ht, hh⟩ := h
  exact ⟨⟨_, _, _, _, _, _, _, _, rfl⟩, ⟨_, _, _, _, l, by rw [State.withSca, hm]⟩, hc, hw, ht, hh⟩

theorem Leaves.withSca {s u t : State} {xd : Option XNum} {x : Option Word} (h : Leaves s u t xd x) (l : List ScaPending) :
    Leaves s (u.withSca l) (t.withSca l) xd x :=
  ⟨h.frame, h.v, h.fcsr, h.m, h.gatef, h.ev, h.ncnt, h.cfails, h.resv, h.x, h.vstart, h.pfxNext, congrArg (fun m : Memory => { m with sca := l }) h.mem, h.core, h.others⟩

/-! ### One entry at its home (R602, R603) -/

section
variable {s u : State} {D : Nat → Prop} {g : Hart} {n k : Nat} {wh : Who} {op : ScaOp} {et : ETCode} {x : ScaEntry} (gr : BitVec 32) (hq : Quiet s)
  (hpl : PlainAt s s.h.level D x.va n .atomic .atomic k) (hctx : wh.ctxid = s.h.ctxid.toNat) (hl : wh.level = s.h.level) (hn : etBits et / 8 = n)
include hq hpl hctx hl hn

/-- An entry combines its value with what stands there. -/
theorem AtWork.scaHome (hw : AtWork s D g u) (hop : op ≠ .ordered) (hsound : Sound s k n) (hD : ∀ o, o < n → D (k + o)) :
    ∃ u', u.scaHome wh op et gr x = (0, u') ∧ AtWork s D g u' ∧
      u.Wrote u' n (fun o => k + o) (natLe n (scaCombine op et (leNat (u.mem.peek k n)) x.value)) := by
  obtain ⟨l, u1, hloc, hplain, hw1, hcells, ht1⟩ := hw.locateAtomic hq hpl hctx hl
  have hpeek : u1.mem.peek k n = u.mem.peek k n := by rw [Memory.peek, hcells, Memory.peek]
  obtain ⟨enc, u2, henc, hplace, hread, hw2, ht2⟩ := hw1.readPlace hq (wh := wh) hsound hplain
  rw [hpeek] at hread
  generalize hv : scaCombine op et (leNat (u.mem.peek k n)) x.value = v
  obtain ⟨-, hw3, hwrote⟩ := hw2.writePlace hq henc hD wh 0 x.va (natLe_length n v)
  refine ⟨u2.pokeKey wh.ownCore k (natLe n v), ?_, hw3, (hwrote.after_touched ht2).after_touched ht1⟩
  unfold State.scaHome
  rw [hn]
  dsimp only
  rw [hloc]
  rcases hplace with ⟨rfl, rfl⟩ | ⟨g', rfl⟩
  · obtain ⟨hkey, -⟩ := hw2.writePlace hq henc hD wh 0 x.va (natLe_length n v)
    simp only [hop, if_false, hread, hv, hkey]
  · obtain ⟨hkey, -⟩ := hw2.writePlace hq henc hD wh g' x.va (natLe_length n v)
    obtain rfl : enc = false := by cases hplain; rfl
    simp only [hop, if_false, hread, hv, hkey]

/-- An entry of an ordered form waits in the combining store. -/
theorem AtWork.insertEntry (hw : AtWork s D g (u.withSca [])) (hlen : u.mem.sca.length < 32768) :
    ∃ v y, u.scaHome wh .ordered et gr x = (0, v) ∧ AtWork s D g (v.withSca []) ∧ v.mem.sca = y :: u.mem.sca ∧
      (y.key, y.et, y.value, y.grank, y.index) = (k, et, x.value, gr, x.index) := by
  obtain ⟨hpos, hpage, hfor⟩ := plainFor_of_plainAt hpl
  have hreached : s.Reached D s.h.ctxid.toNat u := hw.reached.withSca u.mem.sca
  obtain ⟨l, u1, hloc, hplain, hu⟩ := (hreached.plainFor hq.2.2.1 hfor).locate (.refl s.h.ctxid.toNat u) hpos hpage hctx hl
  have hsca := hu.sca_eq
  have hw1 : ∀ L, AtWork s D g ((u1.withSca L).withSca []) := fun L => by
    have hr := (hreached.touched hq.2.2.1 hu).withSca []
    obtain ⟨⟨m, tlb, rfl⟩, -⟩ := hu
    exact ⟨hr, hw.stbuf, hw.late, hw.ctxid, hw.hart, hw.others, hq.2.1.symm⟩
  have hroom (die : Nat) : ¬ 32768 ≤ (u1.scaOf die).length := by
    have : (u1.scaOf die).length ≤ u1.mem.sca.length := List.length_filter_le _ _
    rw [hsca] at this
    omega
  have hinsert (y : ScaPending) : u1.insertSca wh y = u1.withSca (y :: u.mem.sca) := by
    rw [State.insertSca, if_neg (hroom _), ← hsca]
    rfl
  unfold State.scaHome
  rw [hn]
  dsimp only
  rw [hloc]
  cases hplain with
  | spad hfar => exact ⟨_, _, by simp only [if_true, hinsert]; rfl, hw1 _, rfl, rfl⟩
  | hbm g' => exact ⟨_, _, by simp only [if_true, hinsert]; rfl, hw1 _, rfl, rfl⟩

end

/-! ### What the entries of an instruction leave (R601) -/

/-- The places of the elements of a scatter-accumulate. -/
def ScaPlaced (s : State) (p : Posted) (n : Nat) (D : Nat → Prop) (key : Nat → Nat) : Prop :=
  ∀ j, runsAt s p j = true → elemVa s p .indexed (width s) j % n = 0 ∧ PlainAt s s.h.level D (elemVa s p .indexed (width s) j) n .atomic .atomic (key j) ∧ Sound s (key j) n

section
variable {s : State} {p : Posted} {D : Nat → Prop} {key : Nat → Nat} {h g : Hart} {e : QEntry} {n : Nat} {op : ScaOp}
  (hq : Quiet s) (hlevel : e.level = s.h.level) (hpl : ScaPlaced s p n D key) (het : e.cap.et = vtEt s.h.vtype) (hn : width s / 8 = n)
include hq hlevel hpl

/-- The entries of a form that is not ordered, each at its place. -/
theorem combineAll_plain (hop : op ≠ .ordered) (hn : etBits e.cap.et / 8 = n) (hD : ∀ j o, runsAt s p j = true → o < n → D (key j + o)) {f : State → ScaEntry → State}
    (hf : ∀ (u v : State) (x : ScaEntry), u.scaHome (e.who u s.cur 0 0) op e.cap.et u.harts[s.cur].grank x = (0, v) → f u x = v) :
    ∀ (es : List ScaEntry) (u : State), AtWork s D g u →
      (∀ x ∈ es, runsAt s p x.index = true ∧ x.va = elemVa s p .indexed (width s) x.index) →
      es.Pairwise (fun x y => key x.index + n ≤ key y.index ∨ key y.index + n ≤ key x.index) →
      AtWork s D g (es.foldl f u) ∧
      (∀ x ∈ es, ∀ o, o < n → byteAt (es.foldl f u) (key x.index + o) =
        (natLe n (scaCombine op e.cap.et (leNat (u.mem.peek (key x.index) n)) x.value)).getD o 0#8) ∧
      ∀ a, (∀ x ∈ es, a < key x.index ∨ key x.index + n ≤ a) → byteAt (es.foldl f u) a = byteAt u a := by
  intro es
  induction es with
  | nil => exact fun u hw _ _ => ⟨hw, fun x hx => (by cases hx), fun _ _ => rfl⟩
  | cons x es ih =>
    intro u hw hes happ
    obtain ⟨hfirst, hrest⟩ := List.pairwise_cons.mp happ
    obtain ⟨hrun, hva⟩ := hes x List.mem_cons_self
    obtain ⟨-, hplain, hsound⟩ := hpl x.index hrun
    rw [← hva] at hplain
    obtain ⟨v, hhome, hv, hwrote⟩ := hw.scaHome u.harts[s.cur].grank hq hplain (hw.who_ctxid e 0 0) (wh := e.who u s.cur 0 0) hlevel hn hop hsound
      fun o ho => hD _ o hrun ho
    rw [List.foldl_cons, hf u v x hhome]
    obtain ⟨hw', hin, hout⟩ := ih v hv (fun y hy => hes y (List.mem_cons_of_mem _ hy)) hrest
    have hkept {a : Nat} (ha : a < key x.index ∨ key x.index + n ≤ a) : byteAt v a = byteAt u a := hwrote.outside a fun o ho he => by omega
    refine ⟨hw', fun y hy o ho => ?_, fun a ha => ?_⟩
    · rcases List.mem_cons.mp hy with rfl | hy
      · rw [hout _ fun z hz => by have := hfirst z hz; omega]
        exact hwrote.inside o ho
      · have hpeek : v.mem.peek (key y.index) n = u.mem.peek (key y.index) n := by
          rw [peek_eq_map, peek_eq_map]
          exact List.map_congr_left fun q hq' => hkept (by have := hfirst y hy; have := List.mem_range.mp hq'; omega)
        rw [hin y hy o ho, hpeek]
    · rw [hout a fun y hy => ha y (List.mem_cons_of_mem _ hy)]
      exact hkept (ha x List.mem_cons_self)

/-- The entries of an ordered form go into the combining store, the latest first. -/
theorem insertAll_plain (hn : etBits e.cap.et / 8 = n) {gr : BitVec 32} (hgr : g.grank = gr) {f : State → ScaEntry → State}
    (hf : ∀ (u v : State) (x : ScaEntry), u.scaHome (e.who u s.cur 0 0) .ordered e.cap.et u.harts[s.cur].grank x = (0, v) → f u x = v) :
    ∀ (es : List ScaEntry) (u : State), AtWork s D g (u.withSca []) → u.mem.sca.length + es.length ≤ 32768 →
      (∀ x ∈ es, runsAt s p x.index = true ∧ x.va = elemVa s p .indexed (width s) x.index) →
      AtWork s D g ((es.foldl f u).withSca []) ∧ (es.foldl f u).mem.sca.map (fun x => (x.key, x.et, x.value, x.grank, x.index)) =
        (es.reverse.map fun x => (key x.index, e.cap.et, x.value, gr, x.index)) ++ u.mem.sca.map fun x => (x.key, x.et, x.value, x.grank, x.index) := by
  intro es
  induction es with
  | nil => exact fun u hw _ _ => ⟨hw, rfl⟩
  | cons x es ih =>
    intro u hw hlen hes
    obtain ⟨hrun, hva⟩ := hes x List.mem_cons_self
    obtain ⟨-, hplain, -⟩ := hpl x.index hrun
    rw [← hva] at hplain
    rw [List.length_cons] at hlen
    have hgrank : u.harts[s.cur].grank = gr := by
      obtain ⟨r, hr⟩ := hw.hart
      have hr' : u.harts[s.cur] = { g with resv := r } := hr
      rw [hr']
      exact hgr
    have hctx : (e.who u s.cur 0 0).ctxid = s.h.ctxid.toNat := hw.who_ctxid e 0 0
    obtain ⟨v, y, hhome, hv, hsca, hy⟩ := hw.insertEntry u.harts[s.cur].grank hq hplain hctx (wh := e.who u s.cur 0 0) hlevel hn (by omega)
    rw [List.foldl_cons, hf u v x hhome]
    obtain ⟨hw', hmap⟩ := ih v hv (by rw [hsca, List.length_cons]; omega) fun y hy => hes y (List.mem_cons_of_mem _ hy)
    refine ⟨hw', ?_⟩
    rw [hmap, hsca, List.map_cons, hy, List.reverse_cons, List.map_append, List.append_assoc, hgrank]
    rfl

end

end Sys2Proof.Machine
end

section
/-! SUPPORT. Scatter-accumulates at an idle hart complete with their effect (R600 to R603). -/

namespace Sys2Proof.Machine
open Sys2Proof.Claims

/-- The same bytes of plain storage lie at one key, whichever way they are accessed. -/
theorem State.PlainFor.key_unique {s : State} {ctx : Nat} {lvl lvl' : Level} {D D' : Nat → Prop} {va n n' k k' : Nat} {kind kind' : AccKind} {path path' : AccPath}
    (h : s.PlainFor ctx lvl D va n kind path k) (h' : s.PlainFor ctx lvl' D' va n' kind' path' k') : k = k' := by
  cases h with
  | spad b hlo hhi hk hb hbusy hcur =>
    cases h' with
    | spad b' hlo' hhi' hk' hb' hbusy' hcur' => rfl
    | page c e hva hp hlo' hhi' henc hprot hallow hend => unfold spadBase at hlo; omega
  | page c e hva hp hlo hhi henc hprot hallow hend =>
    cases h' with
    | spad b hlo' hhi' hk hb hbusy hcur => unfold spadBase at hlo'; omega
    | page c' e' hva' hp' hlo' hhi' henc' hprot' hallow' hend' =>
      obtain rfl : e = e' := WalkResult.page.inj ((hp.walk _ hlo hhi).symm.trans (hp'.walk _ hlo' hhi'))
      rfl

/-! ### The run over the elements (R601) -/

section
variable {s : State} {p : Posted} {D : Nat → Prop} {key : Nat → Nat} {h g : Hart} {e : QEntry} {n : Nat} {op : ScaOp} {vi vs : VReg}
  (hq : Quiet s) (hb : Begun s p h e) (hcvl : (s.h.newEntry p).cap.vl = s.h.vl) (hlevel : e.level = s.h.level) (hgm : g.m = h.m) (hgq : g.queue = [e])
  (hpl : ScaPlaced s p n D key)
include hq hb hcvl hlevel hgm hgq hpl

/-- The entries that the elements below an index leave. -/
def scaEntries (s : State) (p : Posted) (op : ScaOp) (t : Nat) : List ScaEntry :=
  gathered op (vtEt s.h.vtype) (elemVa s p .indexed (width s)) (dataElem s p .indexed) (runsBelow s p t)

/-- A run over the elements of a scatter-accumulate gathers their entries and accesses nothing. -/
theorem scaGather_plain (het : e.cap.et = vtEt s.h.vtype) (hbits : e.cap.bits = width s) (hn : width s / 8 = n) (haddr : elemAddr .indexed e vi (width s) = elemVa s p .indexed (width s))
    (hdata : (fun t => vs.elem e.cap.bits (t / e.cap.vl) (t % e.cap.vl)) = dataElem s p .indexed) :
    ∀ (fuel t : Nat) (u : State) (acc : List ScaEntry), s.h.vl * s.h.vrows ≤ t + fuel → (s.h.newEntry p).prog ≤ t → acc = scaEntries s p op t → AtWork s D g u →
      ∃ u' t', scaGather op s.cur vi vs (s.h.vl * s.h.vrows) fuel u { e with prog := t } acc =
          (u', { e with prog := t' }, scaEntries s p op (s.h.vl * s.h.vrows), .finished) ∧
        s.h.vl * s.h.vrows ≤ t' ∧ AtWork s D g u' ∧ u'.mem.cells = u.mem.cells := by
  have done (t : Nat) (u : State) (acc : List ScaEntry) (ht : s.h.vl * s.h.vrows ≤ t) (hacc : acc = scaEntries s p op t) (hw : AtWork s D g u) :
      ∃ u' t', ((u, { e with prog := t }, acc, Stop.finished) : State × QEntry × List ScaEntry × Stop) =
          (u', { e with prog := t' }, scaEntries s p op (s.h.vl * s.h.vrows), .finished) ∧ s.h.vl * s.h.vrows ≤ t' ∧ AtWork s D g u' ∧ u'.mem.cells = u.mem.cells :=
    ⟨u, t, by rw [hacc, scaEntries, scaEntries, runsBelow_end s p ht], ht, hw, rfl⟩
  intro fuel
  induction fuel with
  | zero => exact fun t u acc ht _ hacc hw => done t u acc ht hacc hw
  | succ fuel ih =>
    intro t u acc ht hp hacc hw
    unfold scaGather
    dsimp only
    by_cases hend : s.h.vl * s.h.vrows ≤ t
    · rw [if_pos hend]
      exact done t u acc hend hacc hw
    · rw [if_neg hend]
      obtain ⟨r, hr⟩ := hw.hart
      have hact : ({ e with prog := t } : QEntry).cap.active u.harts[s.cur] (t / ({ e with prog := t } : QEntry).cap.vl) (t % ({ e with prog := t } : QEntry).cap.vl) =
          runsAt s p t := by
        rw [hr]
        exact hb.runsAt_eq hcvl (g := { g with resv := r }) hgm (Nat.lt_of_not_le hend) hp
      have hwait (k x : Nat) : (u.harts[s.cur]).maskWait { e with prog := t } k x = false := by
        rw [hr]
        exact Hart.maskWait_lone (h := { g with resv := r }) hgq rfl k x
      simp only [hact, hwait, Bool.false_eq_true, if_false]
      cases hrun : runsAt s p t with
      | false =>
        simp only [Bool.not_false, if_true]
        have hes : acc = scaEntries s p op (t + 1) := by rw [hacc, scaEntries, scaEntries, runsBelow_succ, hrun, if_neg Bool.false_ne_true, List.append_nil]
        exact ih (t + 1) u acc (by omega) (by omega) hes hw
      | true =>
        obtain ⟨halign, hplain, -⟩ := hpl t hrun
        have hva' : elemAddr .indexed { e with prog := t } vi (width s) = elemVa s p .indexed (width s) := haddr
        have hbits' : ({ e with prog := t } : QEntry).cap.bits = width s := hbits
        have hdata' : vs.elem (width s) (t / ({ e with prog := t } : QEntry).cap.vl) (t % ({ e with prog := t } : QEntry).cap.vl) = dataElem s p .indexed t := by
          rw [← hbits]
          exact congrFun hdata t
        rw [hbits', hva', hn, hdata']
        simp only [halign, Bool.not_true, Bool.false_eq_true, if_false, ne_eq, not_true_eq_false]
        have hctx : (QEntry.who { e with prog := t } u s.cur 0 0).ctxid = s.h.ctxid.toNat := hw.who_ctxid _ 0 0
        obtain ⟨l, v, hloc, hlp, hv, hcells, -⟩ := hw.locateAtomic hq hplain (wh := QEntry.who { e with prog := t } u s.cur 0 0) hctx hlevel
        have hbusy : l.isBusy = false := by cases hlp <;> rfl
        have hes : scaMerge op e.cap.et acc ⟨t, elemVa s p .indexed (width s) t, dataElem s p .indexed t⟩ = scaEntries s p op (t + 1) := by
          rw [hacc, scaEntries, scaEntries, runsBelow_succ, if_pos hrun, gathered_concat, het]
        obtain ⟨u', t', hloop, ht', hw', hcells'⟩ := ih (t + 1) v _ (by omega) (by omega) hes hv
        rw [hloc]
        simp only [hbusy, Bool.false_eq_true, if_false]
        exact ⟨u', t', hloop, ht', hw', hcells'.trans hcells⟩

end

/-- What the entry of a scatter-accumulate does at its home, reported where it fails. -/
def sendOne (op : ScaOp) (i : Fin 4) (e : QEntry) (s : State) (x : ScaEntry) : State :=
  let r : Nat × State := s.scaHome (e.who s i 0 0) op e.cap.et s.harts[i].grank x
  if r.1 = 0 then r.2 else r.2.errorTo i (scaError r.2 s.harts[i].ctxid.toNat r.1 x.index x.va (some i) e.pc (natLe 8 x.value))

theorem sendOne_eq {op : ScaOp} {i : Fin 4} {e : QEntry} {u v : State} {x : ScaEntry}
    (h : u.scaHome (e.who u i 0 0) op e.cap.et u.harts[i].grank x = (0, v)) : sendOne op i e u x = v := by
  unfold sendOne
  rw [h]
  rfl

/-- Entries of local addresses go to no other device. -/
theorem sendEntries_local (op : ScaOp) (i : Fin 4) (s : State) (e : QEntry) {es : List ScaEntry} (hes : ∀ x ∈ es, x.va < 2 ^ 63) :
    sendEntries op i s e es = es.foldl (sendOne op i e) s := by
  have hnone : (es.filter fun x => decide (2 ^ 63 ≤ x.va)) = [] := List.filter_eq_nil_iff.mpr fun x hx h => Nat.not_le.mpr (hes x hx) (of_decide_eq_true h)
  have hall : (es.filter fun x => decide (x.va < 2 ^ 63)) = es := List.filter_eq_self.mpr fun x hx => decide_eq_true (hes x hx)
  unfold sendEntries
  rw [hnone, hall]
  rfl

/-! ### What the entries come to -/

section
variable {s u : State} {p : Posted} {D : Nat → Prop} {key : Nat → Nat} {g : Hart} {e : QEntry} {n : Nat} {op : ScaOp} (hq : Quiet s) (hlevel : e.level = s.h.level)
  (het : e.cap.et = vtEt s.h.vtype) (hn : width s / 8 = n) (hpl : ScaPlaced s p n D key)

/-- Each entry is that of an element, at its address. -/
theorem mem_scaEntries (op : ScaOp) {x : ScaEntry} {t : Nat} (hx : x ∈ scaEntries s p op t) :
    runsAt s p x.index = true ∧ x.va = elemVa s p .indexed (width s) x.index := by
  by_cases hop : op = .ordered
  · rw [scaEntries, hop, gathered_ordered] at hx
    obtain ⟨j, hj, rfl⟩ := List.mem_map.mp hx
    exact ⟨(mem_runsBelow.mp hj).2, rfl⟩
  · obtain ⟨hidx, hva, -⟩ := (gathers_gathered hop (vtEt s.h.vtype) (elemVa s p .indexed (width s)) (dataElem s p .indexed) (runsBelow s p t)).entry x hx
    exact ⟨(mem_runsBelow.mp hidx).2, hva⟩

include hq hlevel het hn hpl

/-- The values of one address combine in order, and then with what stands there. -/
theorem combineEntries_plain (hop : op ≠ .ordered) (hwidth : width s = 8 * n) (hD : ∀ j o, runsAt s p j = true → o < n → D (key j + o))
    (hdisjoint : ∀ j l, runsAt s p j = true → runsAt s p l = true → elemVa s p .indexed (width s) j = elemVa s p .indexed (width s) l ∨
      key j + n ≤ key l ∨ key l + n ≤ key j) (hw : AtWork s D g u) (hcells : u.mem.cells = s.mem.cells) :
    let u' := (scaEntries s p op (s.h.vl * s.h.vrows)).foldl (sendOne op s.cur e) u
    AtWork s D g u' ∧ ∀ j o, runsAt s p j = true → o < n → byteAt u' (key j + o) =
      (natLe n (scaMade op (vtEt s.h.vtype) (leNat (s.mem.peek (key j) n)) (combine 0 (scaMade op (vtEt s.h.vtype))
        (valuesAt (elemVa s p .indexed (width s)) (dataElem s p .indexed) (runsBelow s p (s.h.vl * s.h.vrows)) (elemVa s p .indexed (width s) j))))).getD o 0#8 := by
  intro u'
  obtain ⟨hapart, hentry, hall⟩ := gathers_gathered hop (vtEt s.h.vtype) (elemVa s p .indexed (width s)) (dataElem s p .indexed) (runsBelow s p (s.h.vl * s.h.vrows))
  have hbits : etBits e.cap.et / 8 = n := by rw [het]; exact hn
  obtain ⟨hw', hin, -⟩ := combineAll_plain hq hlevel hpl hop hbits hD (f := sendOne op s.cur e) (fun u v x => sendOne_eq) (scaEntries s p op (s.h.vl * s.h.vrows)) u hw
    (fun x hx => mem_scaEntries op hx) (hapart.imp_of_mem fun {x y} hx hy hxy => by
      obtain ⟨hrx, hvx⟩ := mem_scaEntries op hx
      obtain ⟨hry, hvy⟩ := mem_scaEntries op hy
      exact (hdisjoint _ _ hrx hry).resolve_left fun h => hxy (by rw [hvx, hvy, h]))
  refine ⟨hw', fun j o hj ho => ?_⟩
  obtain ⟨x, hx, hxj⟩ := hall j (mem_runsBelow.mpr ⟨(runsAt_bounds hj).2, hj⟩)
  obtain ⟨hrx, hvx⟩ := mem_scaEntries op hx
  have hkey : key x.index = key j := by
    have h1 := (plainFor_of_plainAt (hpl _ hrx).2.1).2.2
    have h2 := (plainFor_of_plainAt (hpl _ hj).2.1).2.2
    rw [← hvx, hxj] at h1
    exact h1.key_unique h2
  have hold : leNat (s.mem.peek (key j) n) < 2 ^ etBits (vtEt s.h.vtype) := by
    have := leNat_lt (s.mem.peek (key j) n)
    rw [peek_eq_map, List.length_map, List.length_range, show (256 : Nat) = 2 ^ 8 from rfl, ← Nat.pow_mul, ← peek_eq_map] at this
    rw [show etBits (vtEt s.h.vtype) = 8 * n from hwidth]
    exact this
  have hvalues : ∀ v ∈ valuesAt (elemVa s p .indexed (width s)) (dataElem s p .indexed) (runsBelow s p (s.h.vl * s.h.vrows)) (elemVa s p .indexed (width s) j),
      v < 2 ^ etBits (vtEt s.h.vtype) := fun v hv => by
    obtain ⟨l, -, rfl⟩ := List.mem_map.mp hv
    exact VReg.elem_lt _ _ _ _
  have hpeek : u.mem.peek (key j) n = s.mem.peek (key j) n := by rw [Memory.peek, hcells, Memory.peek]
  rw [← (combine_eq hvalues).2 _ hold, ← hkey, hin x hx o ho, hkey, hpeek, (hentry x hx).2.2, hxj, het]

omit hn in
/-- The entries of an ordered form stand in the combining store, the latest first. -/
theorem insertEntries_plain (hbits : etBits e.cap.et / 8 = n) (hN : s.h.vl * s.h.vrows ≤ 32768) (hgr : g.grank = s.h.grank) (hw : AtWork s D g u) :
    let u' := (scaEntries s p .ordered (s.h.vl * s.h.vrows)).foldl (sendOne .ordered s.cur e) u
    AtWork s D g (u'.withSca []) ∧ u'.mem.sca.map (fun x => (x.key, x.et, x.value, x.grank, x.index)) =
      (runsBelow s p (s.h.vl * s.h.vrows)).reverse.map fun j => (key j, vtEt s.h.vtype, dataElem s p .indexed j, s.h.grank, j) := by
  intro u'
  have hsca : u.mem.sca = [] := hw.sca.trans hq.2.1
  have hlen : (scaEntries s p .ordered (s.h.vl * s.h.vrows)).length ≤ 32768 := by
    have : (runsBelow s p (s.h.vl * s.h.vrows)).length ≤ (List.range (s.h.vl * s.h.vrows)).length := List.length_filter_le _ _
    rw [List.length_range] at this
    rw [scaEntries, gathered_ordered, List.length_map]
    omega
  obtain ⟨hw', hmap⟩ := insertAll_plain hq hlevel hpl hbits hgr (f := sendOne .ordered s.cur e) (fun u v x => sendOne_eq) (scaEntries s p .ordered (s.h.vl * s.h.vrows)) u
    (by rw [State.withSca_self hsca]; exact hw) (by rw [hsca, List.length_nil]; omega) fun x hx => mem_scaEntries .ordered hx
  refine ⟨hw', hmap.trans ?_⟩
  rw [hsca, List.map_nil, List.append_nil, scaEntries, gathered_ordered, ← List.map_reverse, List.map_map, het]
  rfl

end

theorem runSca_done {i : Fin 4} {op : ScaOp} {e e' : QEntry} {hi : Nat} {s u : State} {es : List ScaEntry}
    (hloop : scaGather op i ((s.modHart i fun h => h.readStored .indexed e).harts[i].readAs e.post.b (idxType e.cap.et) e.cap.lmap)
      ((s.modHart i fun h => h.readStored .indexed e).harts[i].readAs e.post.d e.cap.et e.cap.lmap) hi (hi + 1)
      (s.modHart i fun h => h.readStored .indexed e) e [] = (u, e', es, .finished)) (ht : e.total ≤ e'.prog) (hes : ∀ x ∈ es, x.va < 2 ^ 63) :
    runSca op i e hi s = .done (es.foldl (sendOne op i e') u) e' := by
  unfold runSca
  dsimp only
  rw [show (s.modHart i fun h => (h.relayAll (idxType e.cap.et) e.cap.lmap [e.post.b]).relayAll e.cap.et e.cap.lmap [e.post.d]) =
    s.modHart i fun h => h.readStored .indexed e from rfl, hloop]
  dsimp only
  rw [if_pos ht, sendEntries_local _ _ _ _ hes]

theorem bodyRun_sca {i : Fin 4} {e : QEntry} {op : ScaOp} (hbody : e.post.body = .sca op) (h0 : e.total ≠ 0) (hi : Nat) (s : State) :
    bodyRun i hi e s = (runSca op i e hi s, none) := by
  unfold bodyRun
  rw [hbody]
  exact congrArg (·, none) (if_neg h0)

/-- The types of a scatter-accumulate (R600). -/
theorem Postable.sca {s : State} {p : Posted} {op : ScaOp} (h : Postable s p) (hbody : p.body = .sca op) : width s = 32 ∨ width s = 64 := by
  have hbad := h.1
  simp only [State.postBad, Bool.or_eq_false_iff] at hbad
  have hbody' := hbad.1.2
  simp only [bodyBad, hbody, Bool.not_eq_false', Bool.or_eq_true, beq_iff_eq, Bool.and_eq_true] at hbody'
  unfold width
  rcases hbody' with (h | h) | ⟨-, ((h | h) | h) | h⟩ <;> rw [h]
  · exact .inl rfl
  · exact .inr rfl
  · exact .inl rfl
  · exact .inl rfl
  · exact .inr rfl
  · exact .inr rfl

/-- A scatter-accumulate on plain storage at an idle hart completes in its step (R600 to R603). -/
theorem accumulate_completes {s : State} {i : Instr} {p : Posted} {op : ScaOp} (hx : exec i s = issue p s) (hbody : p.body = .sca op) (hxd : p.xd = none) :
    AccumulatesElems s i p op := by
  unfold AccumulatesElems
  intro et n N key va D hruns hq hshape hN hkey hdisjoint
  have hcap := hruns.captured
  obtain ⟨hcvl, hcrows, hcet, hclmap⟩ := id hcap
  obtain ⟨h, e, a, hb, he, hdone⟩ := hruns.completes
  obtain ⟨hopa, hlevel, -, -, -, -⟩ := entry_of_begun a he
  have hwidth := hruns.1.sca hbody
  have hw0 := hb.atWork hq D
  have hmem0 : ((s.mod fun _ => h).served s.cur p.eng).mem = s.mem := by
    obtain ⟨a, b, hs⟩ := State.served_frame (s.mod fun _ => h) s.cur p.eng
    rw [hs]
    rfl
  generalize (s.mod fun _ => h).served s.cur p.eng = u0 at hw0 hdone hmem0
  have hw1 := hw0.readStored .indexed e
  have hregs := h.readStored_regs .indexed e
  obtain ⟨v1, hv1⟩ := h.readStored_only .indexed e
  have hbits : e.cap.bits = width s := by rw [Cap.bits, hb.cap, hcet, width]
  have het : e.cap.et = et := by rw [hb.cap, hcet]
  obtain ⟨r, hr⟩ := hw1.hart
  have hread (m : VNum) (et : ETCode) (l : BitVec 4) : (u0.modHart s.cur fun h => h.readStored .indexed e).harts[s.cur].readAs m et l =
      (afterData s p .indexed m).relaid et l := by
    rw [hr, ← hb.readStored_vreg hcap, Hart.readAs_resv]
    rfl
  have hidx (k x : Nat) : idxAt ((u0.modHart s.cur fun h => h.readStored .indexed e).harts[s.cur].readAs e.post.b (idxType e.cap.et) e.cap.lmap) et (vtGroups s.h.vtype) k x =
      idxAt (indexReg s p.b) et (vtGroups s.h.vtype) k x := by
    have hindex : afterIndex s p .indexed p.b = indexReg s p.b := if_pos ⟨rfl, rfl⟩
    rw [hread, hb.post, het, hb.cap, hclmap, afterData, hindex]
    split
    · exact idxAt_relaid hwidth _ _ _ _
    · rw [indexReg, VReg.relaid_relaid]
  have haddr : elemAddr .indexed e ((u0.modHart s.cur fun h => h.readStored .indexed e).harts[s.cur].readAs e.post.b (idxType e.cap.et) e.cap.lmap) (width s) =
      elemVa s p .indexed (width s) := by
    funext j
    simp only [elemVa, elemAddr, hopa, hb.cap, hcet, hclmap]
    rw [← hidx, het, hb.cap, hclmap]
  have hdata : (fun t => ((u0.modHart s.cur fun h => h.readStored .indexed e).harts[s.cur].readAs e.post.d e.cap.et e.cap.lmap).elem e.cap.bits (t / e.cap.vl)
      (t % e.cap.vl)) = dataElem s p .indexed := by
    have hdata : (afterData s p .indexed p.d).relaid (vtEt s.h.vtype) (vtGroups s.h.vtype) = afterData s p .indexed p.d := by
      rw [afterData, if_pos rfl, VReg.relaid_relaid]
    rw [hread, hb.post, hb.cap, hcet, hclmap, hdata, Cap.bits, hcvl, hcet]
    rfl
  obtain ⟨u, t', hloop, ht', hw, hcells⟩ := scaGather_plain (op := op) hq hb hcvl hlevel (by rw [hv1]) (by rw [hv1]; exact hb.queue) hkey het hbits rfl haddr hdata
    (s.h.vl * s.h.vrows + 1) e.prog _ [] (by omega) hb.prog.ge (by rw [hb.prog, scaEntries, runsBelow_start]; rfl) hw1
  have hcells : u.mem.cells = s.mem.cells := hcells.trans (congrArg Memory.cells hmem0)
  have hends : ∃ u', u' = (scaEntries s p op (s.h.vl * s.h.vrows)).foldl (sendOne op s.cur { e with prog := t' }) u ∧ AtWork s D (h.readStored .indexed e) (u'.withSca []) ∧
      (op ≠ .ordered → u'.mem.sca = [] ∧ ∀ j o, runsAt s p j = true → o < n → byteAt u' (key j + o) =
        (natLe n (scaMade op et (leNat (s.mem.peek (key j) n)) (combine 0 (scaMade op et) (valuesAt va (dataElem s p .indexed) (runsBelow s p N) (va j))))).getD o 0#8) ∧
      (op = .ordered → u'.mem.sca.map (fun x => (x.key, x.et, x.value, x.grank, x.index)) =
        (runsBelow s p N).reverse.map fun j => (key j, et, dataElem s p .indexed j, s.h.grank, j)) := by
    by_cases hop : op = .ordered
    · subst hop
      obtain ⟨hw', hmap⟩ := insertEntries_plain (e := { e with prog := t' }) hq hlevel het hkey (n := n) (congrArg (etBits · / 8) het) hN
        (by obtain ⟨pc, c0, c1, pv, tok, hh⟩ := hb.only; rw [hv1, hh]) hw
      exact ⟨_, rfl, hw', fun h => absurd rfl h, fun _ => hmap⟩
    · have hwn : width s = 8 * n := by
        show width s = 8 * (width s / 8)
        rcases hwidth with h | h <;> rw [h]
      obtain ⟨hw', hbytes⟩ := combineEntries_plain (e := { e with prog := t' }) hq hlevel het rfl hkey hop hwn
        (fun j o hj ho => ⟨hop, j, hj, Nat.le_add_right _ _, Nat.add_lt_add_left ho _⟩) (hdisjoint hop) hw hcells
      have hsca' := hw'.sca.trans hq.2.1
      refine ⟨_, rfl, ?_, fun _ => ⟨hsca', hbytes⟩, fun h => absurd h hop⟩
      rw [State.withSca_self hsca']
      exact hw'
  obtain ⟨u', hu', hw', hplain, hordered⟩ := hends
  have hl := hdone (u := u') (x := none) (e2 := { e with prog := t' }) ((bodyRun_sca (by rw [hb.post, hbody]) (by rw [hb.total]; exact hshape) _ _).trans
    (congrArg (·, none) (by
      rw [hb.total, hu']
      exact runSca_done hloop (by rw [hb.total]; exact ht') fun x hx => by
        obtain ⟨hrun, hva⟩ := mem_scaEntries op hx
        rw [hva]
        exact (plainFor_bytes (hkey _ hrun).2.1).1))) rfl hb.post hw'.cur_eq (hw'.changed hregs)
  have hl' := hl.withSca []
  have hframe : MemFrame s (s.postNow p) id := (hw'.memFrame_regs hregs hb hl' hxd :)
  refine ⟨_, by rw [hx, issue_postable hruns.1], hframe, fun m => ?_, fun a ha => ?_, fun hop => ?_, fun hop => ?_⟩
  · have hv : (s.postNow p).h.v = (h.readStored .indexed e).v := (hw'.v_eq hl' :)
    rw [Hart.vreg, hv]
    exact hb.readStored_vreg hcap .indexed m
  · rw [byteAt, hl.mem]
    exact hw'.reached.cells a ha
  · obtain ⟨hsca', hbytes⟩ := hplain hop
    refine ⟨by rw [hl.mem, hsca'], fun j o hj ho => ?_⟩
    rw [byteAt, hl.mem]
    exact hbytes j o hj ho
  · rw [hl.mem]
    exact hordered hop

end Sys2Proof.Machine
end

section
/-! SUPPORT. The queue append at an idle hart (R503, R504): the words that it writes in its descriptor, the keys in its ring, and the batches that it completes. -/

namespace Sys2Proof.Machine
open Sys2Proof.Claims

/-! ### Bytes of words -/

theorem natLe_leNat : ∀ bs : List Byte, natLe bs.length (leNat bs) = bs
  | [] => rfl
  | b :: bs => by
    have hb := b.isLt
    rw [List.length_cons, natLe, leNat, show (b.toNat + 256 * leNat bs) / 256 = leNat bs by omega, natLe_leNat bs]
    congr 1
    exact BitVec.eq_of_toNat_eq (by rw [BitVec.toNat_ofNat]; omega)

theorem natLe_mod (n v : Nat) : natLe n (v % 256 ^ n) = natLe n v := by
  have h := natLe_leNat (natLe n v)
  rwa [natLe_length, leNat_natLe] at h

/-- A word that counts on from bytes. -/
theorem natLe_count (n v k : Nat) : natLe n (leNat (natLe n v) + k) = natLe n (v + k) := by
  rw [leNat_natLe, ← natLe_mod, Nat.mod_add_mod, natLe_mod]

theorem slice_peek (m : Memory) (k : Nat) {N off n : Nat} (h : off + n ≤ N) : slice (m.peek k N) off n = m.peek (k + off) n := by
  have hlen : ((m.peek k N).drop off).take n = m.peek (k + off) n := by
    rw [peek_eq_map, peek_eq_map]
    refine List.ext_getElem (by simp; omega) fun i h1 h2 => ?_
    simp [Nat.add_assoc]
  have hn : (m.peek (k + off) n).length = n := by rw [peek_eq_map, List.length_map, List.length_range]
  rw [slice, hlen, hn, Nat.sub_self, List.replicate_zero, List.append_nil]

/-- Bytes of memory are those of their value. -/
theorem natLe_peek (m : Memory) (k n : Nat) : natLe n (leNat (m.peek k n)) = m.peek k n := by
  have h := natLe_leNat (m.peek k n)
  rwa [show (m.peek k n).length = n by rw [peek_eq_map, List.length_map, List.length_range]] at h

theorem peek_getD (m : Memory) {k n o : Nat} (h : o < n) : (m.peek k n).getD o 0#8 = cellGet m.cells (k + o) := by
  rw [peek_eq_map]
  simp [List.getD_eq_getElem?_getD, h]

/-! ### One write (R503) -/

/-- Places of a ring do not wrap onto each other before it is full. -/
theorem ring_slot_inj {cap pos i j : Nat} (hi : i < cap) (hj : j < cap) (h : (pos + i) % cap = (pos + j) % cap) : i = j := by
  have : i % cap = j % cap := Nat.ModEq.add_left_cancel' pos h
  rwa [Nat.mod_eq_of_lt hi, Nat.mod_eq_of_lt hj] at this

/-- The places of `capp`: its descriptor at `kd`, byte `o` of its ring at `ring o`. -/
structure AppendPlaced (s : State) (D : Nat → Prop) (va ringVa cap kd : Nat) (ring : Nat → Nat) : Prop where
  load : PlainAt s s.h.level D va 64 .load .vector kd
  check : PlainAt s s.h.level D va 64 .load .engine kd
  store : PlainAt s s.h.level D va 64 .store .vector kd
  checkStore : PlainAt s s.h.level D va 64 .store .engine kd
  sound : Sound s kd 64
  own : ∀ o, o < 64 → D (kd + o)
  ringAt : ∀ o, o < 4 * cap → PlainAt s s.h.level D (ringVa + o) 1 .store .vector (ring o) ∧ D (ring o) ∧ (ring o < kd ∨ kd + 64 ≤ ring o)
  apart : ∀ o q, o < 4 * cap → q < 4 * cap → ring o = ring q → o = q

section
variable {s u : State} {D : Nat → Prop} {g : Hart} {va ringVa cap kd : Nat} {ring : Nat → Nat} {w : Who} (hpl : AppendPlaced s D va ringVa cap kd ring) (hq : Quiet s)
  (hctx : w.ctxid = s.h.ctxid.toNat) (hl : w.level = s.h.level) (hw : AtWork s D g u)
include hpl hq hctx hl hw

/-- A word of the descriptor is written. -/
theorem cappPut_word {off : Nat} (hoff : off + 8 ≤ 64) (v : Nat) :
    AtWork s D g (cappPut w (va + off) (natLe 8 v) u) ∧ u.Wrote (cappPut w (va + off) (natLe 8 v) u) 8 (fun o => kd + off + o) (natLe 8 v) := by
  obtain ⟨hva, hbytes⟩ := plainFor_bytes hpl.store
  have hpage := (plainFor_of_plainAt hpl.store).2.1
  have hva' : va + off < 2 ^ 63 := by
    have : va / 4096 < 2 ^ 51 := by omega
    omega
  obtain ⟨u', hstore, hw', hwrote⟩ := hw.store hq hctx hl (path := .vector) (by decide) (natLe_length 8 v) hva' (ks := fun o => kd + off + o)
    (fun o ho => ⟨by have := hbytes (off + o) (by omega); rwa [← Nat.add_assoc, ← Nat.add_assoc] at this,
      by have := hpl.own (off + o) (by omega); rwa [← Nat.add_assoc] at this⟩) (fun o q _ _ h => by omega)
  have hput : cappPut w (va + off) (natLe 8 v) u = u' := by rw [cappPut, hstore]
  rw [hput]
  exact ⟨hw', hwrote⟩

/-- A key is written in the ring. -/
theorem cappPut_key {i : Nat} (hi : i < cap) (v : Nat) :
    AtWork s D g (cappPut w ((ringVa + 4 * i) % 2 ^ 64) (natLe 4 v) u) ∧
      u.Wrote (cappPut w ((ringVa + 4 * i) % 2 ^ 64) (natLe 4 v) u) 4 (fun o => ring (4 * i + o)) (natLe 4 v) := by
  obtain ⟨hva, -⟩ := plainFor_bytes (hpl.ringAt (4 * i) (by omega)).1
  rw [Nat.mod_eq_of_lt (by omega)]
  obtain ⟨u', hstore, hw', hwrote⟩ := hw.store hq hctx hl (path := .vector) (by decide) (natLe_length 4 v) hva (ks := fun o => ring (4 * i + o))
    (fun o ho => by
      obtain ⟨hplain, hD, -⟩ := hpl.ringAt (4 * i + o) (by omega)
      have := (plainFor_bytes hplain).2 0 Nat.one_pos
      rw [Nat.add_zero, Nat.add_zero, ← Nat.add_assoc] at this
      exact ⟨this, hD⟩) (fun o q ho hq' h => by have := hpl.apart (4 * i + o) (4 * i + q) (by omega) (by omega) h; omega)
  have hput : cappPut w (ringVa + 4 * i) (natLe 4 v) u = u' := by rw [cappPut, hstore]
  rw [hput]
  exact ⟨hw', hwrote⟩

end

/-! ### The keys, and the batches (R467, R504) -/

/-- The keys of a list written from slot `pos + b` of a ring on. -/
def putKeys (w : Who) (ringVa cap pos base : Nat) (js : List (Nat × Nat)) (u : State) : State :=
  js.foldl (fun s x => cappPut w ((ringVa + 4 * ((pos + x.2) % cap)) % 2 ^ 64) (natLe 4 (base + x.1)) s) u

section
variable {s : State} {D : Nat → Prop} {g : Hart} {va ringVa cap kd : Nat} {ring : Nat → Nat} {w : Who} (hpl : AppendPlaced s D va ringVa cap kd ring) (hq : Quiet s)
  (hctx : w.ctxid = s.h.ctxid.toNat) (hl : w.level = s.h.level)
include hpl hq hctx hl

/-- The keys of an append stand in their slots, and no other byte changes. -/
theorem putKeys_plain (pos base : Nat) : ∀ (js : List Nat) (b : Nat) (u : State), b + js.length ≤ cap → AtWork s D g u →
    AtWork s D g (putKeys w ringVa cap pos base (js.zipIdx b) u) ∧
    (∀ i q, i < js.length → q < 4 → byteAt (putKeys w ringVa cap pos base (js.zipIdx b) u) (ring (4 * ((pos + (b + i)) % cap) + q)) =
      (natLe 4 (base + js.getD i 0)).getD q 0#8) ∧
    ∀ a, (∀ i q, i < js.length → q < 4 → ring (4 * ((pos + (b + i)) % cap) + q) ≠ a) → byteAt (putKeys w ringVa cap pos base (js.zipIdx b) u) a = byteAt u a := by
  intro js
  induction js with
  | nil => exact fun b u _ hw => ⟨hw, fun i q hi => absurd hi (Nat.not_lt_zero _), fun _ _ => rfl⟩
  | cons j js ih =>
    intro b u hb hw
    rw [List.length_cons] at hb
    have hslot : (pos + b) % cap < cap := Nat.mod_lt _ (by omega)
    obtain ⟨hw1, hwrote⟩ := cappPut_key hpl hq hctx hl hw hslot (base + j)
    obtain ⟨hw2, hin, hout⟩ := ih (b + 1) _ (by omega) hw1
    have hstep : putKeys w ringVa cap pos base ((j :: js).zipIdx b) u =
        putKeys w ringVa cap pos base (js.zipIdx (b + 1)) (cappPut w ((ringVa + 4 * ((pos + b) % cap)) % 2 ^ 64) (natLe 4 (base + j)) u) := by
      rw [putKeys, List.zipIdx_cons, List.foldl_cons]
      rfl
    rw [hstep]
    refine ⟨hw2, fun i q hi hq' => ?_, fun a ha => ?_⟩
    · cases i with
      | zero =>
        show byteAt _ (ring (4 * ((pos + b) % cap) + q)) = (natLe 4 (base + j)).getD q 0#8
        refine (hout _ fun i q' hi' hq'' he => ?_).trans (hwrote.inside q hq')
        have hslot' : (pos + (b + 1 + i)) % cap < cap := Nat.mod_lt _ (by omega)
        have heq := hpl.apart _ _ (by omega) (by omega) he
        have := ring_slot_inj (cap := cap) (pos := pos) (i := b + 1 + i) (j := b) (by omega) (by omega) (by omega)
        omega
      | succ i =>
        rw [List.getD_cons_succ, ← hin i q (Nat.lt_of_succ_lt_succ hi) hq', Nat.add_right_comm b 1 i]
        rfl
    · rw [hout a fun i q hi hq' => ?_]
      · exact hwrote.outside a fun q hq' => ha 0 q (Nat.succ_pos _) hq'
      · have := ha (i + 1) q (Nat.succ_lt_succ hi) hq'
        rwa [← Nat.add_assoc b i 1, Nat.add_right_comm b i 1] at this

end

section
variable {s : State} {D : Nat → Prop} {va ringVa cap kd : Nat} {ring : Nat → Nat} (hpl : AppendPlaced s D va ringVa cap kd ring) (hq : Quiet s)
  {e : QEntry} (hva : e.opa.toNat = va) (hlevel : e.level = s.h.level)
include hpl hq hva hlevel

/-- A completed batch without a template is counted, and sets EV. -/
theorem cappBatch_plain {d : List Byte} (htmpl : sliceNat d 40 8 = 0) {g : Hart} {u : State} (q v : Nat)
    (hu : ∀ o, o < 8 → byteAt u (kd + 48 + o) = (natLe 8 v).getD o 0#8) (hw : AtWork s D g u) :
    AtWork s D { g with ev := true } (cappBatch s.cur e d q u) ∧
      (∀ o, o < 8 → byteAt (cappBatch s.cur e d q u) (kd + 48 + o) = (natLe 8 (v + 1)).getD o 0#8) ∧
      ∀ a, (a < kd + 48 ∨ kd + 56 ≤ a) → byteAt (cappBatch s.cur e d q u) a = byteAt u a := by
  obtain ⟨hva', hbytes⟩ := plainFor_bytes hpl.check
  have hpage := (plainFor_of_plainAt hpl.store).2.1
  have hlt : va + 48 < 2 ^ 63 := by
    have : va / 4096 < 2 ^ 51 := by omega
    omega
  generalize hwho : e.who u s.cur 0 0 = wh
  have hwho' : wh.ctxid = s.h.ctxid.toNat ∧ wh.level = s.h.level := by
    rw [← hwho, ← hlevel]
    exact ⟨hw.who_ctxid _ _ _, rfl⟩
  obtain ⟨u1, hload, -, -⟩ := hw.load (w := wh) (va := va + 48) (n := 8) (ks := fun o => kd + 48 + o) (path := .engine) hq.2.1 hq.2.2.1 hwho'.1 hwho'.2 (by decide) hlt
    fun o ho => ⟨by have := hbytes (48 + o) (by omega); rwa [← Nat.add_assoc, ← Nat.add_assoc] at this,
      by have := sound_byte hpl.sound (o := 48 + o) (by omega); rwa [← Nat.add_assoc] at this⟩
  have hread : ((List.range 8).map fun o => cellGet u.mem.cells (kd + 48 + o)) = natLe 8 v := by
    refine List.ext_getElem (by simp [natLe_length]) fun o h1 h2 => ?_
    have ho : o < 8 := by simpa using h1
    have := hu o ho
    rw [List.getD_eq_getElem _ _ h2] at this
    simpa [byteAt] using this
  have hdevice : u.deviceRead wh (va + 48) 8 = some (natLe 8 v) := by
    rw [State.deviceRead, State.deviceLoad, if_neg (Nat.not_le.mpr hlt), hload, hread]
  have hbatch : cappBatch s.cur e d q u = (cappPut wh (va + 48) (natLe 8 (v + 1)) u).modHart s.cur fun h => { h with ev := true } := by
    unfold cappBatch
    rw [hwho, hva]
    dsimp only
    rw [hdevice]
    dsimp only
    rw [if_pos htmpl, natLe_count]
  obtain ⟨hw', hwrote⟩ := cappPut_word hpl hq hwho'.1 hwho'.2 hw (off := 48) (by omega) (v + 1)
  rw [hbatch]
  exact ⟨hw'.modHart (fun r => ⟨r, rfl⟩) rfl rfl rfl, fun o ho => hwrote.inside o ho, fun a ha => hwrote.outside a fun o ho he => by omega⟩

theorem cappBatches_plain {d : List Byte} : ∀ (qs : List Nat) (v : Nat) (u : State) (g : Hart), (qs = [] ∨ sliceNat d 40 8 = 0) →
    (∀ o, o < 8 → byteAt u (kd + 48 + o) = (natLe 8 v).getD o 0#8) → AtWork s D g u →
    AtWork s D { g with ev := g.ev || decide (qs ≠ []) } (qs.foldl (fun s' q => cappBatch s.cur e d q s') u) ∧
      (∀ o, o < 8 → byteAt (qs.foldl (fun s' q => cappBatch s.cur e d q s') u) (kd + 48 + o) = (natLe 8 (v + qs.length)).getD o 0#8) ∧
      ∀ a, (a < kd + 48 ∨ kd + 56 ≤ a) → byteAt (qs.foldl (fun s' q => cappBatch s.cur e d q s') u) a = byteAt u a := by
  intro qs
  induction qs with
  | nil =>
    intro v u g _ hu hw
    refine ⟨?_, hu, fun _ _ => rfl⟩
    have hself : ({ g with ev := g.ev || decide (([] : List Nat) ≠ []) } : Hart) = g := by simp
    rw [hself]
    exact hw
  | cons q qs ih =>
    intro v u g hq' hu hw
    have htmpl := hq'.resolve_left (List.cons_ne_nil _ _)
    obtain ⟨hw1, hcount, hrest⟩ := cappBatch_plain hpl hq hva hlevel htmpl q v hu hw
    obtain ⟨hw2, hcount2, hrest2⟩ := ih (v + 1) _ _ (.inr htmpl) hcount hw1
    refine ⟨?_, fun o ho => ?_, fun a ha => (hrest2 a ha).trans (hrest a ha)⟩
    · have hev : (g.ev || decide (q :: qs ≠ [])) = true := by simp
      rw [hev]
      rwa [Bool.true_or] at hw2
    · rw [List.length_cons, Nat.add_comm qs.length 1, ← Nat.add_assoc]
      exact hcount2 o ho

end

end Sys2Proof.Machine
end

section
/-! SUPPORT. `capp` at an idle hart completes in its step (R503, R504). -/

namespace Sys2Proof.Machine
open Sys2Proof.Claims

/-- The batches that an append completes. -/
def batchesOf (b pos c : Nat) : List Nat := (List.range ((pos + c) / b - pos / b)).map (pos / b + ·)

theorem batchesOf_filter (b pos c : Nat) : (batchesOf b pos c).filter (fun q => decide ((q + 1) * b ≤ pos + c)) = batchesOf b pos c := by
  refine List.filter_eq_self.mpr fun q hq => decide_eq_true ?_
  obtain ⟨i, hi, rfl⟩ := List.mem_map.mp hq
  have hi := List.mem_range.mp hi
  exact (Nat.mul_le_mul_right b (show pos / b + i + 1 ≤ (pos + c) / b by omega)).trans (Nat.div_mul_le_self _ _)

theorem length_batchesOf (b pos c : Nat) : (batchesOf b pos c).length = (pos + c) / b - pos / b := by rw [batchesOf, List.length_map, List.length_range]

section
variable {s u : State} {D : Nat → Prop} {g : Hart} {e : QEntry} {cap kd pos : Nat} {ring : Nat → Nat} {d : List Byte} {act : List Nat} (hq : Quiet s)
  (hpl : AppendPlaced s D e.opa.toNat (sliceNat d 0 8) cap kd ring) (hlevel : e.level = s.h.level) (hcap : cap = 2 ^ sliceNat d 8 1) (hpos : pos = sliceNat d 16 8)
  (hd : d = s.mem.peek kd 64) (hact : act.length ≤ cap)
include hq hpl hlevel hcap hpos hd hact

/-- What an append writes. -/
theorem cappAppend_plain (htmpl : (pos + act.length) / 2 ^ sliceNat d 9 1 - pos / 2 ^ sliceNat d 9 1 = 0 ∨ sliceNat d 40 8 = 0) (hw : AtWork s D g u)
    (hu : ∀ a, byteAt u a = byteAt s a) :
    let batches := (pos + act.length) / 2 ^ sliceNat d 9 1 - pos / 2 ^ sliceNat d 9 1
    AtWork s D { g with ev := g.ev || decide (batches ≠ 0) } (cappAppend s.cur e d act u) ∧
      (∀ o, o < 64 → byteAt (cappAppend s.cur e d act u) (kd + o) =
        if 16 ≤ o ∧ o < 32 then (natLe 8 (pos + act.length)).getD (o % 8) 0#8
        else if 48 ≤ o ∧ o < 56 then (natLe 8 (sliceNat d 48 8 + batches)).getD (o - 48) 0#8 else byteAt s (kd + o)) ∧
      (∀ i q, i < act.length → q < 4 → byteAt (cappAppend s.cur e d act u) (ring (4 * ((pos + i) % cap) + q)) = (natLe 4 (e.opb.toNat + act.getD i 0)).getD q 0#8) ∧
      ∀ a, (a < kd ∨ kd + 64 ≤ a) → (∀ i q, i < act.length → q < 4 → ring (4 * ((pos + i) % cap) + q) ≠ a) →
        byteAt (cappAppend s.cur e d act u) a = byteAt s a := by
  intro batches
  generalize hwho : e.who u s.cur 0 0 = wh
  have hwho' : wh.ctxid = s.h.ctxid.toNat ∧ wh.level = s.h.level := by
    rw [← hwho, ← hlevel]
    exact ⟨hw.who_ctxid _ _ _, rfl⟩
  have happend : cappAppend s.cur e d act u = (batchesOf (2 ^ sliceNat d 9 1) pos act.length).foldl (fun s' q => cappBatch s.cur e d q s')
      (cappPut wh (e.opa.toNat + 24) (natLe 8 (pos + act.length)) (putKeys wh (sliceNat d 0 8) cap pos e.opb.toNat act.zipIdx
        (cappPut wh (e.opa.toNat + 16) (natLe 8 (pos + act.length)) u))) := by
    rw [← batchesOf_filter, ← hwho, hcap, hpos]
    rfl
  obtain ⟨hw1, hwrote1⟩ := cappPut_word hpl hq hwho'.1 hwho'.2 hw (off := 16) (by omega) (pos + act.length)
  obtain ⟨hw2, hin2, hout2⟩ := putKeys_plain hpl hq hwho'.1 hwho'.2 pos e.opb.toNat act 0 _ (by rwa [Nat.zero_add]) hw1
  obtain ⟨hw3, hwrote3⟩ := cappPut_word hpl hq hwho'.1 hwho'.2 hw2 (off := 24) (by omega) (pos + act.length)
  simp only [Nat.zero_add] at hin2 hout2
  have hring {i q : Nat} (hi : i < act.length) (hq' : q < 4) : ring (4 * ((pos + i) % cap) + q) < kd ∨ kd + 64 ≤ ring (4 * ((pos + i) % cap) + q) := by
    have : (pos + i) % cap < cap := Nat.mod_lt _ (by omega)
    exact (hpl.ringAt _ (by omega)).2.2
  generalize hu1 : cappPut wh (e.opa.toNat + 16) (natLe 8 (pos + act.length)) u = u1 at *
  generalize hu2 : putKeys wh (sliceNat d 0 8) cap pos e.opb.toNat act.zipIdx u1 = u2 at *
  generalize hu3 : cappPut wh (e.opa.toNat + 24) (natLe 8 (pos + act.length)) u2 = u3 at *
  have h1 {a : Nat} (ha : a < kd + 16 ∨ kd + 24 ≤ a) : byteAt u1 a = byteAt s a := (hwrote1.outside a fun o ho he => by omega).trans (hu a)
  have h3 {a : Nat} (ha : a < kd + 24 ∨ kd + 32 ≤ a) : byteAt u3 a = byteAt u2 a := hwrote3.outside a fun o ho he => by omega
  have hdesc {o : Nat} (ho : o < 64) : byteAt u2 (kd + o) = byteAt u1 (kd + o) := hout2 _ fun i q hi hq' he => by have := hring hi hq'; omega
  have hcount (o : Nat) (ho : o < 8) : byteAt u3 (kd + 48 + o) = (natLe 8 (sliceNat d 48 8)).getD o 0#8 := by
    rw [h3 (by omega), Nat.add_assoc, hdesc (by omega), h1 (by omega), hd, sliceNat, slice_peek _ _ (by omega), natLe_peek, peek_getD _ ho, byteAt, Nat.add_assoc]
  have hlen := length_batchesOf (2 ^ sliceNat d 9 1) pos act.length
  obtain ⟨hw4, hcount4, hrest4⟩ := cappBatches_plain hpl hq rfl hlevel (batchesOf (2 ^ sliceNat d 9 1) pos act.length) _ u3 g
    (htmpl.imp (fun h => List.length_eq_zero_iff.mp (hlen.trans h)) id) hcount hw3
  have hev : decide (batchesOf (2 ^ sliceNat d 9 1) pos act.length ≠ []) = decide (batches ≠ 0) :=
    decide_eq_decide.mpr (not_congr (List.length_eq_zero_iff.symm.trans (by rw [hlen])))
  rw [hev] at hw4
  rw [hlen] at hcount4
  rw [happend]
  refine ⟨hw4, fun o ho => ?_, fun i q hi hq' => ?_, fun a ha hr => ?_⟩
  · split_ifs with h16 h48
    · rw [hrest4 _ (by omega)]
      by_cases h24 : o < 24
      · rw [h3 (by omega), hdesc ho, show kd + o = kd + 16 + (o - 16) by omega, show o % 8 = o - 16 by omega]
        exact hwrote1.inside _ (by omega)
      · rw [show kd + o = kd + 24 + (o - 24) by omega, show o % 8 = o - 24 by omega]
        exact hwrote3.inside _ (by omega)
    · have := hcount4 (o - 48) (by omega)
      rwa [show kd + 48 + (o - 48) = kd + o by omega] at this
    · rw [hrest4 _ (by omega), h3 (by omega), hdesc ho, h1 (by omega)]
  · have := hring hi hq'
    rw [hrest4 _ (by omega), h3 (by omega)]
    exact hin2 i q hi hq'
  · rw [hrest4 _ (by omega), h3 (by omega), hout2 a hr, h1 (by omega)]

end

/-- The key that stands in a place of the ring after an append. -/
theorem ring_place {cap pos o : Nat} (ho : o < 4 * cap) : (pos + (o / 4 + (cap - pos % cap)) % cap) % cap = o / 4 := by
  have hlt : pos % cap < cap := Nat.mod_lt _ (by omega)
  have hdiv := Nat.div_add_mod pos cap
  rw [Nat.add_mod_mod, show pos + (o / 4 + (cap - pos % cap)) = o / 4 + cap + cap * (pos / cap) by omega, Nat.add_mul_mod_self_left, Nat.add_mod_right,
    Nat.mod_eq_of_lt (by omega)]

/-! ### Checks of an engine's accesses (R497) -/

section
variable {s u : State} {D : Nat → Prop} {g : Hart} {lvl : Level} {va n : Nat} {ks : Nat → Nat} {w : Who} (hw : AtWork s D g u) (hq : Quiet s)
  (hctx : w.ctxid = s.h.ctxid.toNat) (hl : w.level = lvl) (hva : va < 2 ^ 63)
include hw hq hctx hl hva

theorem AtWork.readTrap_none (hb : ∀ o, o < n → s.PlainFor s.h.ctxid.toNat lvl D (va + o) 1 .load .engine (ks o) ∧ Sound s (ks o) 1) : u.readTrap w va n = none := by
  obtain ⟨v, hload, -⟩ := hw.load hq.2.1 hq.2.2.1 hctx hl (by decide) hva hb
  rw [State.readTrap, if_neg (Nat.not_le.mpr hva), hload]

/-- A check of a write to plain storage finds nothing, and nothing to wait for. -/
theorem AtWork.writeTrap_none (hb : ∀ o, o < n → s.PlainFor s.h.ctxid.toNat lvl D (va + o) 1 .store .engine (ks o) ∧ D (ks o))
    (hinj : ∀ o q, o < n → q < n → ks o = ks q → o = q) : u.writeTrap w va n = none ∧ u.bankWait w va n = false := by
  obtain ⟨v, hstore, -⟩ := hw.store hq hctx hl (path := .engine) (by decide) (bs := List.replicate n 0#8) List.length_replicate hva hb hinj
  refine ⟨?_, ?_⟩
  · rw [State.writeTrap, if_neg (Nat.not_le.mpr hva), hstore]
  · rw [State.bankWait, hstore]

end

/-! ### The instruction (R504) -/

/-- The tile indices that an instruction executes, as it finds them. -/
theorem Begun.actives_eq {s : State} {p : Posted} {h g : Hart} {e : QEntry} (hb : Begun s p h e) (hcvl : (s.h.newEntry p).cap.vl = s.h.vl) (hm : g.m = h.m) :
    (((List.range e.total).filter (e.prog ≤ ·)).filter fun t => e.cap.active g (t / e.cap.vl) (t % e.cap.vl)) = runsBelow s p (s.h.vl * s.h.vrows) := by
  rw [hb.total, runsBelow, List.filter_filter]
  refine List.filter_congr fun t ht => ?_
  have hlt := List.mem_range.mp ht
  by_cases hp : e.prog ≤ t
  · rw [hb.runsAt_eq hcvl hm hlt (hb.prog ▸ hp), decide_eq_true hp, Bool.and_true]
  · rw [decide_eq_false hp, Bool.and_false]
    refine (Bool.eq_false_iff.mpr fun h => hp ?_).symm
    rw [hb.prog]
    exact (runsAt_bounds h).1

theorem Hart.any_maskWait_lone {h : Hart} {e : QEntry} (hq : h.queue = [e]) (l : List Nat) :
    (l.any fun t => h.maskWait e (t / e.cap.vl) (t % e.cap.vl)) = false := by
  rw [List.any_eq_false]
  intro t _
  rw [Hart.maskWait_lone hq rfl]
  exact Bool.false_ne_true

theorem bodyRun_capp {i : Fin 4} {e : QEntry} (hbody : e.post.body = .capp) (hi : Nat) (s : State) : bodyRun i hi e s = runCapp i e s := by
  unfold bodyRun
  rw [hbody]

section
variable {s u : State} {p : Posted} {D : Nat → Prop} {h g : Hart} {e : QEntry} {cap kd : Nat} {ring : Nat → Nat} (hq : Quiet s) (hb : Begun s p h e)
  (hcvl : (s.h.newEntry p).cap.vl = s.h.vl) (hlevel : e.level = s.h.level)
include hq hb hcvl hlevel

/-- `capp` appends when its queue has room and its older reservations are written. -/
theorem runCapp_plain (hpl : AppendPlaced s D e.opa.toNat (sliceNat (s.mem.peek kd 64) 0 8) cap kd ring) (hcap : cap = 2 ^ sliceNat (s.mem.peek kd 64) 8 1)
    (hfar : e.opa.toNat < spadBase) (halign : e.opa.toNat % 64 = 0)
    (hgood : cappBad (s.mem.peek kd 64) (runsBelow s p (s.h.vl * s.h.vrows)).length = false)
    (hwritten : sliceNat (s.mem.peek kd 64) 24 8 = sliceNat (s.mem.peek kd 64) 16 8)
    (hroom : sliceNat (s.mem.peek kd 64) 16 8 + (runsBelow s p (s.h.vl * s.h.vrows)).length - sliceNat (s.mem.peek kd 64) 32 8 ≤ cap)
    (hgm : g.m = h.m) (hgq : g.queue = [e]) (hw : AtWork s D g u) (hu : u.mem.cells = s.mem.cells) :
    ∃ v, AtWork s D g v ∧ v.mem.cells = s.mem.cells ∧ runCapp s.cur e u =
      (.done (cappAppend s.cur e (s.mem.peek kd 64) (runsBelow s p (s.h.vl * s.h.vrows)) v) e,
        some (BitVec.ofNat 64 (runsBelow s p (s.h.vl * s.h.vrows)).length)) := by
  obtain ⟨r, hr⟩ := hw.hart
  have hwait (l : List Nat) := Hart.any_maskWait_lone (h := { g with resv := r }) hgq l
  have hact := hb.actives_eq hcvl (g := { g with resv := r }) hgm
  generalize hwho : e.who u s.cur 0 0 = wh
  have hwho' : wh.ctxid = s.h.ctxid.toNat ∧ wh.level = s.h.level := by
    rw [← hwho, ← hlevel]
    exact ⟨hw.who_ctxid _ _ _, rfl⟩
  obtain ⟨hva, hcheck⟩ := plainFor_bytes hpl.check
  have hstoreb := (plainFor_bytes hpl.checkStore).2
  have hloadb := (plainFor_bytes hpl.load).2
  have hread := hw.readTrap_none hq hwho'.1 hwho'.2 hva fun o ho => ⟨hcheck o ho, sound_byte hpl.sound ho⟩
  have hwrite := (hw.writeTrap_none hq hwho'.1 hwho'.2 hva (fun o ho => ⟨hstoreb o ho, hpl.own o ho⟩) fun o q _ _ h => by omega).1
  obtain ⟨u1, hload, hw1, hcells1⟩ := hw.load hq.2.1 hq.2.2.1 hwho'.1 hwho'.2 (path := .vector) (by decide) hva fun o ho => ⟨hloadb o ho, sound_byte hpl.sound ho⟩
  have hd : ((List.range 64).map fun o => cellGet u.mem.cells (kd + o)) = s.mem.peek kd 64 := by rw [hu, peek_eq_map]
  rw [hd] at hload
  have hcap0 : 0 < cap := hcap ▸ Nat.two_pow_pos _
  have hringva := (plainFor_bytes (hpl.ringAt 0 (by omega)).1).1
  rw [Nat.add_zero] at hringva
  obtain ⟨ls, v, hall, hrun, hv, hcells⟩ := hw1.locateAll hq.2.2.1 hwho'.1 hwho'.2 (path := .vector) (by decide) (kind := .store) (n := 4 * cap) (ks := ring)
    (fun o ho => by
      have := (plainFor_bytes (hpl.ringAt o ho).1).2 0 Nat.one_pos
      rwa [Nat.add_zero, Nat.add_zero] at this) (4 * cap)
  refine ⟨v, hv, hcells.trans (hcells1.trans hu), ?_⟩
  have hplace : (decide (2 ^ 63 ≤ e.opa.toNat) || decide (spadBase ≤ e.opa.toNat) && decide (e.opa.toNat < spadBase + 2 ^ 25) || decide (e.opa.toNat % 64 ≠ 0)) = false := by
    simp only [Bool.or_eq_false_iff, Bool.and_eq_false_iff, decide_eq_false_iff_not]
    exact ⟨⟨Nat.not_le.mpr hva, .inl (Nat.not_le.mpr hfar)⟩, fun h => h halign⟩
  have hready : (ls.any (fun l => l.1.isBusy) || decide (cap < sliceNat (s.mem.peek kd 64) 16 8 + (runsBelow s p (s.h.vl * s.h.vrows)).length -
      sliceNat (s.mem.peek kd 64) 32 8) || decide (sliceNat (s.mem.peek kd 64) 24 8 ≠ sliceNat (s.mem.peek kd 64) 16 8)) = false := by
    simp only [hrun.not_busy, Bool.false_or, Bool.or_eq_false_iff, decide_eq_false_iff_not]
    exact ⟨Nat.not_lt.mpr hroom, fun h => h hwritten⟩
  unfold runCapp
  dsimp only
  rw [hr, hwait, if_neg Bool.false_ne_true, hact, hwho, hplace, if_neg Bool.false_ne_true, hread, hwrite]
  dsimp only
  rw [hload]
  dsimp only
  rw [hgood, if_neg Bool.false_ne_true, if_neg (Nat.not_le.mpr hringva), ← hcap, hall]
  dsimp only
  rw [hready, if_neg Bool.false_ne_true]

end

theorem State.restored_flagged {s : State} {g : Hart} (hm : g.m = s.h.m) (hgatef : g.gatef = s.h.gatef) (hncnt : g.ncnt = s.h.ncnt) (hcfails : g.cfails = s.h.cfails) :
    ({ g with x := s.h.x, ev := s.h.ev } : Hart) = s.restored g := by
  rw [State.restored, ← hm, ← hgatef, ← hncnt, ← hcfails]

/-- `capp` with its queue in plain storage completes in its step (R503, R504). -/
theorem capp_completes {s : State} {i : Instr} {p : Posted} (hx : exec i s = issue p s) (hbody : p.body = .capp) : Appends s i p := by
  unfold Appends
  intro e0 act kd ring d cap pos batches D at_ hruns hq hfar halign hload hcheck hstore hcheckStore hsound hgood hwritten hroom hring hapart htmpl
  have hcap := hruns.captured
  obtain ⟨hcvl, -, -, -⟩ := id hcap
  obtain ⟨h, e, a, hb, he, hdone⟩ := hruns.completes
  obtain ⟨hopa, hlevel, -, -, -, -⟩ := entry_of_begun a he
  obtain ⟨pc, c0, c1, pv, tok, hh⟩ := id hb.only
  have hw0 := hb.atWork hq D
  have hmem0 : ((s.mod fun _ => h).served s.cur p.eng).mem = s.mem := by
    obtain ⟨a, b, hs⟩ := State.served_frame (s.mod fun _ => h) s.cur p.eng
    rw [hs]
    rfl
  generalize (s.mod fun _ => h).served s.cur p.eng = u0 at hw0 hdone hmem0
  have hpl : AppendPlaced s D e.opa.toNat (sliceNat (s.mem.peek kd 64) 0 8) cap kd ring := by
    rw [hopa]
    exact ⟨hload, hcheck, hstore, hcheckStore, hsound, fun o ho => .inl ⟨by omega, by omega⟩,
      fun o ho => ⟨(hring o ho).1, .inr ⟨o, ho, rfl⟩, (hring o ho).2⟩, hapart⟩
  obtain ⟨v, hv, hcells, hrun⟩ := runCapp_plain hq hb hcvl hlevel hpl rfl (by rw [hopa]; exact hfar) (by rw [hopa]; exact halign) hgood hwritten hroom rfl hb.queue hw0
    (by rw [hmem0])
  have hact : act.length ≤ cap := by
    simp only [cappBad, Bool.or_eq_false_iff, decide_eq_false_iff_not, Nat.not_lt] at hgood
    exact hgood.2
  obtain ⟨hw, hdesc, hkeys, hrest⟩ := cappAppend_plain (pos := pos) (act := act) hq hpl hlevel rfl rfl rfl hact htmpl hv fun a => by rw [byteAt, byteAt, hcells]
  have hl := hdone ((bodyRun_capp (by rw [hb.post, hbody]) _ _).trans hrun) rfl hb.post hw.cur_eq
    (by obtain ⟨r, hr⟩ := hw.hart; rw [hr]; exact ⟨_, _, _, _, _, _, _, _, _, rfl⟩)
  have hbyte (a : Nat) : byteAt (s.postNow p) a = byteAt (cappAppend s.cur e (s.mem.peek kd 64) act v) a := by rw [byteAt, hl.mem, byteAt]
  refine ⟨_, by rw [hx, issue_postable hruns.1], hw.memFrame hl (State.restored_flagged ?_ ?_ ?_ ?_) (by rw [hh]), ?_, ?_, ?_, fun a ha => ?_, fun o ho => ?_, fun o ho => ?_⟩
  · exact (hw.m_eq hl).trans (by rw [hh])
  · exact (hw.gatef_eq hl).trans (by rw [hh])
  · exact (hw.ncnt_eq hl).trans (by rw [hh])
  · exact (hw.cfails_eq hl).trans (by rw [hh])
  · exact (hw.v_eq hl).trans (by rw [hh])
  · rw [hl.x]
    cases p.xd <;> rfl
  · exact (hw.ev_eq hl).trans (by rw [hh])
  · rw [hbyte]
    exact hw.reached.cells a ha
  · rw [hbyte]
    exact hdesc o ho
  · intro x
    have hplace := ring_place (pos := pos) ho
    rw [hbyte]
    split
    next hxl =>
      have := hkeys x (o % 4) hxl (by omega)
      rw [hplace, show 4 * (o / 4) + o % 4 = o by omega, hb.opb] at this
      exact this
    next hxl =>
      refine hrest _ (hring o ho).2 fun i q hi hq' he => ?_
      have hslot : (pos + i) % cap < cap := Nat.mod_lt _ (by omega)
      have heq := hapart _ _ (by omega) ho he
      have hix : i = x := ring_slot_inj (cap := cap) (pos := pos) (by omega) (Nat.mod_lt _ (by omega)) (by rw [hplace]; omega)
      exact hxl (hix ▸ hi)

end Sys2Proof.Machine
end

section
/-! SUPPORT. The bytes of a copy within plain storage (R493 to R497): where a piece of a row is read and written, and what a chunk leaves. -/

namespace Sys2Proof.Machine
open Sys2Proof.Claims

/-! ### Addresses of a piece -/

/-- The bytes of a copy, each where it is read and where it is written, those read and those written apart. -/
structure CopyBytes (s : State) (D : Nat → Prop) (plan : CopyPlan) (kd ks : Nat → Nat) : Prop where
  src : ∀ o, o < plan.total → s.PlainFor s.h.ctxid.toNat s.h.level D ((plan.src (o / plan.len) + o % plan.len) % 2 ^ 64) 1 .load .engine (ks o) ∧ Sound s (ks o) 1
  dst : ∀ o, o < plan.total → s.PlainFor s.h.ctxid.toNat s.h.level D ((plan.dst (o / plan.len) + o % plan.len) % 2 ^ 64) 1 .store .engine (kd o) ∧ D (kd o)
  apart : ∀ o q, o < plan.total → q < plan.total → kd o ≠ ks q
  inj : ∀ o q, o < plan.total → q < plan.total → kd o = kd q → o = q

theorem copyBytes_of_placed {s : State} {p : Posted} {plan : CopyPlan} {kd ks : Nat → Nat} (h : CopyPlaced s p plan kd ks) :
    CopyBytes s (fun a => ∃ o, o < plan.total ∧ a = kd o) plan kd ks := by
  obtain ⟨hb, hap, -⟩ := h
  exact ⟨fun o ho => ⟨(plainFor_of_plainAt (hb o ho).1).2.2, (hb o ho).2.1⟩, fun o ho => ⟨(plainFor_of_plainAt (hb o ho).2.2).2.2, o, ho, rfl⟩,
    fun o q ho hq => (hap o q ho hq).1, fun o q ho hq => (hap o q ho hq).2⟩

/-- The bytes of a piece lie at addresses that do not wrap. -/
theorem piece_addresses {s : State} {ctx : Nat} {lvl : Level} {D : Nat → Prop} {kind : AccKind} {path : AccPath} {f off m : Nat} {K : Nat → Nat} (hm : 0 < m)
    (hm' : m ≤ 512) (h : ∀ i, i < m → s.PlainFor ctx lvl D ((f + (off + i)) % 2 ^ 64) 1 kind path (K i)) :
    (f + off) % 2 ^ 64 < 2 ^ 63 ∧ ∀ i, i < m → (f + (off + i)) % 2 ^ 64 = (f + off) % 2 ^ 64 + i := by
  have h0 := (h 0 hm).va_lt
  rw [Nat.add_zero] at h0
  exact ⟨h0, fun i hi => by omega⟩

/-- Where a byte of a row stands in copy order. -/
theorem row_offset {len row off : Nat} (h : off < len) : (row * len + off) / len = row ∧ (row * len + off) % len = off :=
  ⟨by rw [Nat.mul_comm, Nat.mul_add_div (by omega), Nat.div_eq_of_lt h, Nat.add_zero], by rw [Nat.mul_comm, Nat.mul_add_mod, Nat.mod_eq_of_lt h]⟩

theorem row_total {plan : CopyPlan} {row off : Nat} (hrow : row < plan.rows) (hoff : off < plan.len) : row * plan.len + off < plan.total := by
  calc row * plan.len + off < (row + 1) * plan.len := by rw [Nat.add_mul, Nat.one_mul]; omega
    _ ≤ plan.rows * plan.len := Nat.mul_le_mul_right _ hrow

section
variable {s u : State} {D : Nat → Prop} {g : Hart} {plan : CopyPlan} {kd ks : Nat → Nat} {row off m : Nat} (hc : CopyBytes s D plan kd ks) (hm : 0 < m)
  (hm' : m ≤ 512) (hrow : row < plan.rows) (hoff : off + m ≤ plan.len)
include hc hm hm' hrow hoff

/-- A piece is read at one run of addresses. -/
theorem CopyBytes.pieceSrc : (plan.src row + off) % 2 ^ 64 < 2 ^ 63 ∧ ∀ i, i < m →
    s.PlainFor s.h.ctxid.toNat s.h.level D ((plan.src row + off) % 2 ^ 64 + i) 1 .load .engine (ks (row * plan.len + off + i)) ∧
      Sound s (ks (row * plan.len + off + i)) 1 := by
  have hb (i : Nat) (hi : i < m) := hc.src (row * plan.len + (off + i)) (row_total hrow (by omega))
  have hrows (i : Nat) (hi : i < m) := row_offset (row := row) (show off + i < plan.len by omega)
  obtain ⟨hva, haddr⟩ := piece_addresses (K := fun i => ks (row * plan.len + (off + i))) hm hm' fun i hi => by
    have := (hb i hi).1
    rwa [(hrows i hi).1, (hrows i hi).2] at this
  refine ⟨hva, fun i hi => ?_⟩
  have := hb i hi
  rwa [(hrows i hi).1, (hrows i hi).2, haddr i hi, ← Nat.add_assoc] at this

/-- A piece is written at one run of addresses. -/
theorem CopyBytes.pieceDst : (plan.dst row + off) % 2 ^ 64 < 2 ^ 63 ∧ ∀ i, i < m →
    s.PlainFor s.h.ctxid.toNat s.h.level D ((plan.dst row + off) % 2 ^ 64 + i) 1 .store .engine (kd (row * plan.len + off + i)) ∧
      D (kd (row * plan.len + off + i)) := by
  have hb (i : Nat) (hi : i < m) := hc.dst (row * plan.len + (off + i)) (row_total hrow (by omega))
  have hrows (i : Nat) (hi : i < m) := row_offset (row := row) (show off + i < plan.len by omega)
  obtain ⟨hva, haddr⟩ := piece_addresses (K := fun i => kd (row * plan.len + (off + i))) hm hm' fun i hi => by
    have := (hb i hi).1
    rwa [(hrows i hi).1, (hrows i hi).2] at this
  refine ⟨hva, fun i hi => ?_⟩
  have := hb i hi
  rwa [(hrows i hi).1, (hrows i hi).2, haddr i hi, ← Nat.add_assoc] at this

end

/-! ### Bytes that are written as they were read (R495, R496) -/

/-- An address in the rows of a set is that of a byte of one of them. -/
theorem exists_of_inRows {f : Nat → Nat} {len n a : Nat} (ha : a < 2 ^ 64) (h : inRows f len n a = true) :
    ∃ j x, j < n ∧ x < len ∧ a = (f j + x) % 2 ^ 64 := by
  obtain ⟨j, hj, hx⟩ := List.any_eq_true.mp h
  refine ⟨j, vaPlus a (-Int.ofNat (f j)), List.mem_range.mp hj, of_decide_eq_true hx, ?_⟩
  unfold vaPlus
  simp only [Int.ofNat_eq_natCast]
  omega

section
variable {s : State} {D : Nat → Prop} {plan : CopyPlan} {kd ks : Nat → Nat} {row off : Nat} (hc : CopyBytes s D plan kd ks)
  (hrow : row < plan.rows) (hoff : off < plan.len)
include hc hrow hoff

/-- A byte whose rows are apart is written as it was read. -/
theorem copyByte_plain (bulk : Bool) (free : Nat) (b : Byte) : copyByte plan bulk free row ((plan.dst row + off) % 2 ^ 64) b = some b := by
  have hlt : (plan.dst row + off) % 2 ^ 64 < 2 ^ 64 := Nat.mod_lt _ (by decide)
  have ho := row_total hrow hoff
  have hrows := row_offset (row := row) hoff
  have hhere := (hc.dst _ ho).1
  rw [hrows.1, hrows.2] at hhere
  have hsrc : inRows plan.src plan.len plan.rows ((plan.dst row + off) % 2 ^ 64) = false := by
    refine Bool.eq_false_iff.mpr fun h => ?_
    obtain ⟨j, x, hj, hx, ha⟩ := exists_of_inRows hlt h
    have hq := row_total hj hx
    have hthere := (hc.src _ hq).1
    rw [(row_offset hx).1, (row_offset hx).2, ← ha] at hthere
    exact hc.apart _ _ ho hq (hhere.key_unique hthere)
  have hdst : inRows plan.dst plan.len row ((plan.dst row + off) % 2 ^ 64) = false := by
    refine Bool.eq_false_iff.mpr fun h => ?_
    obtain ⟨j, x, hj, hx, ha⟩ := exists_of_inRows hlt h
    have hq := row_total (hj.trans hrow) hx
    have hthere := (hc.dst _ hq).1
    rw [(row_offset hx).1, (row_offset hx).2, ← ha] at hthere
    have heq := hc.inj _ _ ho hq (hhere.key_unique hthere)
    have : (j + 1) * plan.len ≤ row * plan.len := Nat.mul_le_mul_right _ hj
    rw [Nat.add_mul, Nat.one_mul] at this
    omega
  unfold copyByte
  rw [hsrc, hdst, Bool.and_false, if_neg Bool.false_ne_true, if_neg Bool.false_ne_true]

end

/-- Bytes that are all written make one run. -/
theorem copyRuns_some : ∀ (a : Nat) (b : Byte) (bs : List Byte), copyRuns a ((b :: bs).map some) = [(a, b :: bs)]
  | a, b, [] => rfl
  | a, b, c :: bs => by
    rw [List.map_cons, copyRuns, copyRuns_some (a + 1) c bs]
    simp

section
variable {s u : State} {D : Nat → Prop} {g : Hart} {plan : CopyPlan} {kd ks : Nat → Nat} {row off m : Nat} {w : Who} {e : QEntry} (hc : CopyBytes s D plan kd ks)
  (hm : 0 < m) (hm' : m ≤ 512) (hrow : row < plan.rows) (hoff : off + m ≤ plan.len) (hq : Quiet s) (hctx : w.ctxid = s.h.ctxid.toNat) (hl : w.level = s.h.level)
  (hw : AtWork s D g u)
include hc hm hm' hrow hoff hq hctx hl hw

/-- A piece is written where it belongs. -/
theorem copyPut_plain (bulk : Bool) (c : Nat) {bs : List Byte} (hlen : bs.length = m) :
    ∃ v, copyPut s.cur w plan bulk c (row, off, m) bs u e = (v, e) ∧ AtWork s D g v ∧
      (∀ i, i < m → byteAt v (kd (row * plan.len + off + i)) = bs.getD i 0#8) ∧
      ∀ a, (∀ i, i < m → kd (row * plan.len + off + i) ≠ a) → byteAt v a = byteAt u a := by
  obtain ⟨hva, hb⟩ := hc.pieceDst hm hm' hrow hoff
  have htotal (i : Nat) (hi : i < m) : row * plan.len + off + i < plan.total := by
    rw [Nat.add_assoc]
    exact row_total hrow (by omega)
  obtain ⟨v, hstore, hv, hwrote⟩ := hw.store hq hctx hl (path := .engine) (by decide) hlen hva hb fun o q ho hq' h => by
    have := hc.inj _ _ (htotal o ho) (htotal q hq') h
    omega
  have hvals : (bs.zipIdx.map fun y => copyByte plan bulk u.free row ((plan.dst row + off + y.2) % 2 ^ 64) y.1) = bs.map some := by
    have hfst : bs.map some = bs.zipIdx.map fun y => some y.1 := by
      conv_lhs => rw [← List.zipIdx_map_fst 0 bs, List.map_map]
      rfl
    rw [hfst]
    refine List.map_congr_left fun y hy => ?_
    have hy2 : y.2 < m := by
      have := List.snd_lt_of_mem_zipIdx hy
      omega
    rw [Nat.add_assoc]
    exact copyByte_plain hc hrow (by omega) bulk _ _
  obtain ⟨b, bs', rfl⟩ : ∃ b bs', bs = b :: bs' := List.exists_cons_of_ne_nil (by rintro rfl; simp at hlen; omega)
  refine ⟨v.tick, ?_, hv.tick, fun i hi => hwrote.inside i hi, fun a ha => hwrote.outside a ha⟩
  unfold copyPut
  dsimp only
  rw [hvals, copyRuns_some, List.foldl_cons, List.foldl_nil, copyWrite]
  dsimp only
  rw [hstore]

end

end Sys2Proof.Machine
end

section
/-! SUPPORT. The chunks of a copy within plain storage, and `cpy`, `cpyr`, `gsp` and `ssp` at an idle hart (R494 to R497). -/

namespace Sys2Proof.Machine
open Sys2Proof.Claims

/-! ### A chunk (R497) -/

/-- The first bytes of a copy have been moved, and no other byte has changed. -/
def CopiedTo (s : State) (kd ks : Nat → Nat) (n : Nat) (u : State) : Prop :=
  (∀ q, q < n → byteAt u (kd q) = byteAt s (ks q)) ∧ ∀ a, (∀ q, q < n → a ≠ kd q) → byteAt u a = byteAt s a

section
variable {s : State} {D : Nat → Prop} {g : Hart} {plan : CopyPlan} {kd ks : Nat → Nat} {w : Who} {e : QEntry} (hc : CopyBytes s D plan kd ks) (hq : Quiet s)
  (hh : w.h = s.cur) (hctx : w.ctxid = s.h.ctxid.toNat) (hl : w.level = s.h.level)
include hc hq hh hctx hl

/-- The pieces of a run of bytes, each read and then written. -/
theorem chunkLoop_pieces (bulk : Bool) (c : Nat) : ∀ (fuel o n : Nat) (u : State) (e : QEntry), n ≤ fuel → n ≤ 512 → o + n ≤ plan.total → e.remote = .none →
    AtWork s D g u → CopiedTo s kd ks o u →
    ∃ v mm, AtWork s D g v ∧ CopiedTo s kd ks (o + n) v ∧ chunkLoop s.cur w plan bulk c (copyPieces plan.len fuel o n) u e =
      chunkLoop s.cur w plan bulk c [] v { e with memo := e.memo ++ mm } := by
  intro fuel
  induction fuel with
  | zero =>
    intro o n u e hn _ _ _ hw hcop
    obtain rfl : n = 0 := by omega
    exact ⟨u, [], hw, hcop, by rw [copyPieces, List.append_nil]⟩
  | succ fuel ih =>
    intro o n u e hn hn' ht hrem hw hcop
    rw [copyPieces]
    by_cases h0 : n = 0
    · subst h0
      exact ⟨u, [], hw, hcop, by simp⟩
    · have hlen : plan.len ≠ 0 := fun h => by rw [CopyPlan.total, h, Nat.mul_zero] at ht; omega
      have hnone : (decide (n = 0) || decide (plan.len = 0)) = false := by simp [h0, hlen]
      rw [hnone, if_neg Bool.false_ne_true]
      dsimp only
      have hmod := Nat.mod_lt o (Nat.pos_of_ne_zero hlen)
      generalize hm : min n (plan.len - o % plan.len) = m
      have hm0 : 0 < m := by omega
      have hrow : o / plan.len < plan.rows := Nat.div_lt_of_lt_mul (by rw [Nat.mul_comm]; exact lt_of_lt_of_le (by omega) ht)
      have hoff : o % plan.len + m ≤ plan.len := by omega
      have ho : o / plan.len * plan.len + o % plan.len = o := by rw [Nat.mul_comm]; exact Nat.div_add_mod _ _
      obtain ⟨hva, hb⟩ := hc.pieceSrc hm0 (by omega) hrow hoff
      rw [ho] at hb
      obtain ⟨v, hread, hv, hcells⟩ := hw.engineRead hq hrem hh hctx hl (path := .engine) (by decide) hva hb 0x10
      have hbytes : ((List.range m).map fun i => cellGet u.mem.cells (ks (o + i))) = (List.range m).map fun i => byteAt s (ks (o + i)) :=
        List.map_congr_left fun i hi => hcop.2 _ fun q hq' he => hc.apart q (o + i) (by omega) (by have := List.mem_range.mp hi; omega) he.symm
      rw [hbytes] at hread
      obtain ⟨v', hput, hv', hin, hout⟩ := copyPut_plain (e := e) hc hm0 (by omega) hrow hoff hq hctx hl hv bulk c (bs := (List.range m).map fun i => byteAt s (ks (o + i)))
        (by rw [List.length_map, List.length_range])
      rw [ho] at hin hout
      have hsame (a : Nat) : byteAt v a = byteAt u a := by rw [byteAt, byteAt, hcells]
      have hcop' : CopiedTo s kd ks (o + m) v' := by
        refine ⟨fun q hq' => ?_, fun a ha => ?_⟩
        · by_cases hqo : q < o
          · rw [hout _ fun i hi he => by have := hc.inj (o + i) q (by omega) (by omega) he; omega, hsame]
            exact hcop.1 q hqo
          · have := hin (q - o) (by omega)
            rw [Nat.add_sub_cancel' (by omega)] at this
            rw [this]
            have hlt : q - o < m := by omega
            simp [List.getD_eq_getElem?_getD, hlt, Nat.add_sub_cancel' (Nat.le_of_not_lt hqo)]
        · rw [hout a fun i hi => (ha (o + i) (by omega)).symm, hsame]
          exact hcop.2 a fun q hq' => ha q (by omega)
      obtain ⟨v2, mm, hw2, hcop2, hloop⟩ := ih (o + m) (n - m) v' { e with memo := e.memo ++ [0] } (by omega) (by omega) (by omega) hrem hv' hcop'
      refine ⟨v2, [0] ++ mm, hw2, ?_, ?_⟩
      · rwa [show o + m + (n - m) = o + n by omega] at hcop2
      · conv_lhs => rw [chunkLoop]
        dsimp only
        rw [hread]
        dsimp only
        rw [hput]
        dsimp only
        rw [hloop, List.append_assoc]

end

/-- Bits of a completion mask set one after another (R247). -/
def Hart.chunksSet (h : Hart) (m : MNum) (n : Nat) : Hart := (List.range n).foldl (fun h c => h.setChunkBit m c) h

theorem Hart.chunksSet_succ (h : Hart) (m : MNum) (n : Nat) : h.chunksSet m (n + 1) = (h.chunksSet m n).setChunkBit m n := by
  rw [Hart.chunksSet, List.range_succ, List.foldl_append]
  rfl

theorem Hart.setChunkBit_only (h : Hart) (m : MNum) (c : Nat) : ∃ ms, h.setChunkBit m c = { h with m := ms } := by
  unfold Hart.setChunkBit Hart.setMask
  split
  · exact ⟨_, rfl⟩
  · exact ⟨_, rfl⟩

theorem Hart.setChunkBit_resv (h : Hart) (m : MNum) (c : Nat) (r : Option Nat) : ({ h with resv := r } : Hart).setChunkBit m c = { h.setChunkBit m c with resv := r } := by
  unfold Hart.setChunkBit Hart.setMask
  split <;> rfl

theorem Hart.chunksSet_only (h : Hart) (m : MNum) (n : Nat) : ∃ ms, h.chunksSet m n = { h with m := ms } := by
  induction n with
  | zero => exact ⟨_, rfl⟩
  | succ n ih =>
    obtain ⟨ms, hms⟩ := ih
    obtain ⟨ms', hms'⟩ := (h.chunksSet m n).setChunkBit_only m n
    exact ⟨ms', by rw [Hart.chunksSet_succ, hms', hms]⟩

/-- The bit of a chunk, where the mask has one. -/
theorem Hart.setChunkBit_bit (h : Hart) (m n : MNum) (c : Nat) {k x : Nat} (hk : k < 16) (hx : x < 2048) :
    ((h.setChunkBit m c).mask n).bit k x = ((h.mask n).bit k x || decide (n = m ∧ n ≠ 0#3 ∧ 2048 * k + x = c)) := by
  unfold Hart.setChunkBit
  by_cases hn : n = m
  · subst hn
    by_cases h0 : n = 0#3
    · subst h0
      simp
    · rw [Hart.mask_setMask_same _ _ _ h0]
      simp only [MReg.bit, hk, Vector.getElem?_ofFn, dite_true, Option.getD_some]
      have hget : (h.mask n)[k]?.getD 0#2048 = (h.mask n)[k] := by simp [hk]
      rw [hget]
      split
      next hkc =>
        rw [BitVec.getLsbD_or]
        congr 1
        have hmod := Nat.mod_lt c (show 0 < 2048 by decide)
        have hdiv := Nat.div_add_mod c 2048
        rw [BitVec.getLsbD_shiftLeft, decide_eq_true hx, Bool.true_and]
        by_cases hxc : x = c % 2048
        · subst hxc
          simp [h0]
          omega
        · have hne : ¬ 2048 * k + x = c := by omega
          by_cases hlt : x < c % 2048
          · simp [hlt, hne]
          · have hsub : ¬ x - c % 2048 = 0 := by omega
            simp [hlt, hne, hsub]
      next hkc =>
        have : ¬ 2048 * k + x = c := by omega
        simp [this]
  · rw [Hart.mask_setMask_other _ _ _ _ hn]
    simp [hn]

theorem Hart.chunksSet_bit (h : Hart) (m n : MNum) (c : Nat) {k x : Nat} (hk : k < 16) (hx : x < 2048) :
    ((h.chunksSet m c).mask n).bit k x = ((h.mask n).bit k x || decide (n = m ∧ n ≠ 0#3 ∧ 2048 * k + x < c)) := by
  induction c with
  | zero => simp [Hart.chunksSet]
  | succ c ih =>
    rw [Hart.chunksSet_succ, Hart.setChunkBit_bit _ _ _ _ hk hx, ih, Bool.or_assoc, ← Bool.decide_or]
    congr 1
    exact decide_eq_decide.mpr (by rw [← and_or_left, ← and_or_left, ← Nat.lt_succ_iff_lt_or_eq])

end Sys2Proof.Machine
end

section
/-! SUPPORT. The chunks of a copy one after another (R220, R496, R497). -/

namespace Sys2Proof.Machine
open Sys2Proof.Claims

/-! ### Chunks that complete -/

theorem natInsert_concat {c : Nat} : ∀ {l : List Nat}, (∀ a ∈ l, a < c) → natInsert l c = l ++ [c]
  | [], _ => rfl
  | a :: l, h => by
    have ha := h a List.mem_cons_self
    rw [natInsert, if_neg (by omega), if_neg (by omega), natInsert_concat fun b hb => h b (List.mem_cons_of_mem _ hb)]
    rfl

/-- An entry of a copy that has moved its first chunks. -/
structure CopyEntry (s : State) (e0 : QEntry) (c : Nat) (e : QEntry) : Prop where
  prog : e.prog = c
  entered : e.entered = 0
  memo : e.memo.length = 1
  remote : e.remote = .none
  part : e.part = []
  chunks : e.chunks = ⟨List.range c, [], []⟩
  level : e.level = s.h.level
  eid : e.eid = e0.eid
  post : e.post = e0.post

/-- The last piece of a chunk is moved, and its bit is set. -/
theorem chunkLoop_end {s u : State} {D : Nat → Prop} {g : Hart} {e0 e : QEntry} {c : Nat} (plan : CopyPlan) (w : Who) (bulk : Bool) (he : CopyEntry s e0 c e)
    (mm : List Nat) (hw : AtWork s D g u) :
    ∃ v e', chunkLoop s.cur w plan bulk c [] u { e with memo := e.memo ++ mm } = .done v e' ∧ CopyEntry s e0 (c + 1) { e' with prog := c + 1 } ∧
      AtWork s D (g.setChunkBit e0.post.m c) v ∧ v.mem = u.mem := by
  obtain ⟨r, hr⟩ := hw.hart
  have hnot : (List.range c).contains c = false := by simp
  have hinsert : natInsert (List.range c) c = List.range (c + 1) := by
    rw [natInsert_concat fun a ha => List.mem_range.mp ha, ← List.range_succ]
  have hdone : Hart.chunkDone { g with resv := r } { e with memo := e.memo ++ mm } c =
      ({ g.setChunkBit e0.post.m c with resv := r }, { e with memo := e.memo ++ mm, chunks := ⟨List.range (c + 1), [], []⟩ }) := by
    unfold Hart.chunkDone
    simp only [he.chunks, hnot, hinsert, he.post, Hart.setChunkBit_resv, List.contains_nil, Bool.false_eq_true, if_false, Nat.add_zero]
  have hpend : chunkPending { e with memo := e.memo ++ mm } c = false := by simp [chunkPending, he.chunks]
  obtain ⟨ms, hms⟩ := g.setChunkBit_only e0.post.m c
  refine ⟨u.modHart s.cur fun _ => { g.setChunkBit e0.post.m c with resv := r },
    { e with memo := (e.memo ++ mm).take 1, chunks := ⟨List.range (c + 1), [], []⟩ }, ?_, ?_, ?_, rfl⟩
  · rw [chunkLoop, hpend, if_neg Bool.false_ne_true, hr, hdone]
  · exact ⟨rfl, he.entered, by simp [he.memo], he.remote, he.part, rfl, he.level, he.eid, he.post⟩
  · exact hw.modHart (fun _ => ⟨r, rfl⟩) (by rw [hms]) (by rw [hms]) (by rw [hms])

/-! ### Nothing stands in the way of a chunk (R497) -/

theorem mem_copyPieces {len : Nat} {x : Nat × Nat × Nat} : ∀ {fuel o n : Nat}, x ∈ copyPieces len fuel o n →
    0 < x.2.2 ∧ x.2.2 ≤ n ∧ x.2.1 + x.2.2 ≤ len ∧ o ≤ x.1 * len + x.2.1 ∧ x.1 * len + x.2.1 + x.2.2 ≤ o + n := by
  intro fuel
  induction fuel with
  | zero => intro o n h; cases h
  | succ fuel ih =>
    intro o n h
    rw [copyPieces] at h
    split at h
    next => cases h
    next hne =>
      simp only [Bool.or_eq_true, decide_eq_true_eq, not_or] at hne
      have hmod := Nat.mod_lt o (Nat.pos_of_ne_zero hne.2)
      have ho : o / len * len + o % len = o := by rw [Nat.mul_comm]; exact Nat.div_add_mod _ _
      rcases List.mem_cons.mp h with rfl | h
      · dsimp only
        omega
      · have := ih h
        omega

theorem lowestTrap_none {ts : List (Option Trap)} (h : ∀ t ∈ ts, t = none) : lowestTrap ts = none := by
  induction ts with
  | nil => rfl
  | cons t ts ih =>
    obtain rfl := h t List.mem_cons_self
    exact ih fun t ht => h t (List.mem_cons_of_mem _ ht)

section
variable {s u : State} {D : Nat → Prop} {g : Hart} {plan : CopyPlan} {kd ks : Nat → Nat} {w : Who} (hc : CopyBytes s D plan kd ks) (hq : Quiet s)
  (hctx : w.ctxid = s.h.ctxid.toNat) (hl : w.level = s.h.level) (hw : AtWork s D g u)
include hc hq hctx hl hw

/-- No check of a chunk fails, and none waits. -/
theorem chunk_checks (far : Bool) {c : Nat} (hcc : 512 * c < plan.total) : u.chunkTrap w plan far c = none ∧ u.chunkWait w plan c = false := by
  have hpiece (x : Nat × Nat × Nat) (hx : x ∈ plan.pieces c) : (plan.src x.1 + x.2.1) % 2 ^ 64 < 2 ^ 63 ∧ (plan.dst x.1 + x.2.1) % 2 ^ 64 < 2 ^ 63 ∧
      u.readTrap w ((plan.src x.1 + x.2.1) % 2 ^ 64) x.2.2 = none ∧ u.writeTrap w ((plan.dst x.1 + x.2.1) % 2 ^ 64) x.2.2 = none ∧
      u.bankWait w ((plan.dst x.1 + x.2.1) % 2 ^ 64) x.2.2 = false := by
    obtain ⟨h0, hn, hlen, -, hend⟩ := mem_copyPieces hx
    have htot : x.1 * plan.len + x.2.1 + x.2.2 ≤ plan.total := by omega
    have hrow : x.1 < plan.rows := by
      by_contra hge
      have : plan.rows * plan.len ≤ x.1 * plan.len := Nat.mul_le_mul_right _ (Nat.not_lt.mp hge)
      unfold CopyPlan.total at htot
      omega
    obtain ⟨hva, hb⟩ := hc.pieceSrc h0 (by omega) hrow hlen
    obtain ⟨hva', hb'⟩ := hc.pieceDst h0 (by omega) hrow hlen
    obtain ⟨hwt, hbw⟩ := hw.writeTrap_none hq hctx hl hva' hb' fun o q ho hq' h => by
      have := hc.inj _ _ (by omega) (by omega) h
      omega
    exact ⟨hva, hva', hw.readTrap_none hq hctx hl hva hb, hwt, hbw⟩
  have hforeign {v : Nat} (hv : v < 2 ^ 63) : u.foreign v = false := by
    rw [State.foreign, decide_eq_false (Nat.not_le.mpr hv), Bool.false_and]
  refine ⟨lowestTrap_none fun t ht => ?_, List.any_eq_false.mpr fun x hx => ?_⟩
  · obtain ⟨x, hx, ht⟩ := List.mem_flatMap.mp ht
    obtain ⟨ha, hb, hread, hwrite, -⟩ := hpiece x hx
    simp only [hforeign ha, hforeign hb, hread, hwrite, Bool.and_false, Bool.false_eq_true, if_false, List.mem_cons, List.not_mem_nil, or_false, or_self] at ht
    exact ht
  · rw [(hpiece x hx).2.2.2.2]
    exact Bool.false_ne_true

end

/-- A copy at an idle hart has the chunks of the others' beside it (R220). -/
theorem chunksOut_eq {s u : State} {D : Nat → Prop} {g : Hart} {e0 e e' : QEntry} (hw : AtWork s D g u) (hgq : g.queue = [e0]) (heid : e.eid = e0.eid)
    (hempty : s.h.queue = []) (hin : e.chunks.inFlight = []) (hin' : e'.chunks.inFlight = []) : u.chunksOut s.cur e = s.chunksOut s.cur e' := by
  have hqueue (j : Fin 4) : (u.harts[j].queue.filter fun x => x.post.body.isCopy && !(decide (j = s.cur) && x.eid == e.eid)) =
      s.harts[j].queue.filter fun x => x.post.body.isCopy && !(decide (j = s.cur) && x.eid == e'.eid) := by
    by_cases hj : j = s.cur
    · subst hj
      obtain ⟨r, hr⟩ := hw.hart
      have hs : s.harts[s.cur].queue = [] := hempty
      rw [hr, hs]
      simp [hgq, heid]
    · obtain ⟨r, hr⟩ := hw.others j hj
      rw [hr]
      simp [hj]
  unfold State.chunksOut
  dsimp only
  rw [hin, hin']
  simp only [hqueue]

/-! ### The chunks of a copy in their order (R496) -/

section
variable {s : State} {D : Nat → Prop} {g : Hart} {plan : CopyPlan} {kd ks : Nat → Nat} {e0 e' : QEntry} (hc : CopyBytes s D plan kd ks) (hq : Quiet s)
  (hempty : s.h.queue = []) (hgq : g.queue = [e0]) (hin' : e'.chunks.inFlight = []) (hout : s.chunksOut s.cur e' < 32)
include hc hq hempty hgq hin' hout

/-- A copy moves its chunks in increasing order. -/
theorem bulkLoop_plain (bulk far : Bool) : ∀ (fuel c : Nat) (u : State) (e : QEntry), c ≤ plan.chunks → plan.chunks < fuel + c → CopyEntry s e0 c e →
    AtWork s D (g.chunksSet e0.post.m c) u → CopiedTo s kd ks (min (512 * c) plan.total) u →
    ∃ v ev, bulkLoop s.cur plan bulk far fuel u e = .done v ev ∧ ev.eid = e0.eid ∧ ev.post = e0.post ∧ AtWork s D (g.chunksSet e0.post.m plan.chunks) v ∧
      CopiedTo s kd ks plan.total v := by
  intro fuel
  induction fuel with
  | zero => intro c u e h1 h2; omega
  | succ fuel ih =>
    intro c u e hcl hfuel he hw hcop
    unfold bulkLoop
    dsimp only
    rw [he.prog]
    by_cases hend : plan.chunks ≤ c
    · obtain rfl : c = plan.chunks := by omega
      have hmin : min (512 * plan.chunks) plan.total = plan.total := by unfold CopyPlan.chunks; omega
      rw [hmin] at hcop
      refine ⟨u, e, ?_, he.eid, he.post, hw, hcop⟩
      rw [if_pos hend, he.chunks, List.length_range, if_pos (Nat.le_refl _)]
    · have hlt : 512 * c < plan.total := by unfold CopyPlan.chunks at hend; omega
      have hmin : min (512 * c) plan.total = 512 * c := by omega
      rw [hmin] at hcop
      have hctx : (e.who u s.cur 2 0).ctxid = s.h.ctxid.toNat := hw.who_ctxid e 2 0
      obtain ⟨htrap, hwait⟩ := chunk_checks (w := e.who u s.cur 2 0) hc hq hctx he.level hw far hlt
      obtain ⟨ms, hms⟩ := g.chunksSet_only e0.post.m c
      have hroom : u.chunksOut s.cur e < 32 := by
        rw [chunksOut_eq (e' := e') hw (by rw [hms]; exact hgq) he.eid hempty (by rw [he.chunks]) hin']
        exact hout
      obtain ⟨v1, mm, hw1, hcop1, hloop1⟩ := chunkLoop_pieces (w := e.who u s.cur 2 0) hc hq rfl hctx he.level bulk c (min 512 (plan.total - 512 * c) + 1) (512 * c)
        (min 512 (plan.total - 512 * c)) u e (by omega) (by omega) (by omega) he.remote hw hcop
      obtain ⟨v2, e2, hloop2, he2, hw2, hmem2⟩ := chunkLoop_end plan (e.who u s.cur 2 0) bulk he mm hw1
      have hloop : chunkLoop s.cur (e.who u s.cur 2 0) plan bulk c ((plan.pieces c).drop (e.memo.length - 1)) u e = .done v2 e2 := by
        rw [he.memo]
        exact hloop1.trans hloop2
      have hcop2 : CopiedTo s kd ks (min (512 * (c + 1)) plan.total) v2 := by
        have hn : 512 * c + min 512 (plan.total - 512 * c) = min (512 * (c + 1)) plan.total := by omega
        rw [hn] at hcop1
        have hb (a : Nat) : byteAt v2 a = byteAt v1 a := by rw [byteAt, byteAt, hmem2]
        exact ⟨fun q hq' => (hb _).trans (hcop1.1 q hq'), fun a ha => (hb _).trans (hcop1.2 a ha)⟩
      rw [← Hart.chunksSet_succ] at hw2
      obtain ⟨v, ev, hrest, hfin⟩ := ih (c + 1) v2 { e2 with prog := c + 1 } (by omega) (by omega) he2 hw2 hcop2
      refine ⟨v, ev, ?_, hfin⟩
      have hgo : (decide (e.entered ≠ 0) && (u.harts[s.cur]).chunkBit e.post.m c) = false := by simp [he.entered]
      rw [if_neg hend, hgo, if_neg Bool.false_ne_true, htrap, hwait, ite_self]
      dsimp only
      rw [Bool.and_false, Bool.false_or, decide_eq_false (Nat.not_le.mpr hroom), if_neg Bool.false_ne_true, hloop]
      exact hrest

end

end Sys2Proof.Machine
end

section
/-! SUPPORT. `cpy`, `cpyr`, `gsp` and `ssp` within plain storage at an idle hart complete in their step (R494 to R497). -/

namespace Sys2Proof.Machine
open Sys2Proof.Claims

/-! ### What a copy leaves -/

theorem State.restored_masked {s : State} {g : Hart} (hx : g.x = s.h.x) (hgatef : g.gatef = s.h.gatef) (hev : g.ev = s.h.ev) (hncnt : g.ncnt = s.h.ncnt)
    (hcfails : g.cfails = s.h.cfails) : ({ g with m := s.h.m } : Hart) = s.restored g := by
  rw [State.restored, ← hx, ← hgatef, ← hev, ← hncnt, ← hcfails]

theorem Hart.mask_congr {h g : Hart} (hm : g.m = h.m) (n : MNum) : g.mask n = h.mask n := by rw [Hart.mask, Hart.mask, hm]

section
variable {s v t : State} {p : Posted} {h g : Hart} {e : QEntry} {D : Nat → Prop} {xd : Option XNum} {x : Option Word} {m : MNum} {n : Nat}
  (hb : Begun s p h e) (hg : ∃ vs, g = { h with v := vs }) (hw : AtWork s D (g.chunksSet m n) v) (hl : Leaves s v t xd x)
include hb hg hw hl

theorem copy_frame (hxd : xd = none) : MemFrame s t (fun h => { h with m := s.h.m }) ∧ t.h.v = g.v := by
  obtain ⟨pc, c0, c1, pv, tok, hh⟩ := hb.only
  obtain ⟨vs, hg⟩ := hg
  obtain ⟨ms, hms⟩ := g.chunksSet_only m n
  have hx : t.h.x = s.h.x := by
    rw [hl.x, hxd]
    rfl
  refine ⟨hw.memFrame hl (State.restored_masked hx ?_ ?_ ?_ ?_) (by rw [hms, hg, hh]), (hw.v_eq hl).trans (by rw [hms])⟩
  · exact (hw.gatef_eq hl).trans (by rw [hms, hg, hh])
  · exact (hw.ev_eq hl).trans (by rw [hms, hg, hh])
  · exact (hw.ncnt_eq hl).trans (by rw [hms, hg, hh])
  · exact (hw.cfails_eq hl).trans (by rw [hms, hg, hh])

/-- The bits of the chunks that a copy has completed. -/
theorem copy_mask (q : MNum) {k y : Nat} (hk : k < 16) (hy : y < 2048) :
    (t.h.mask q).bit k y = ((s.h.mask q).bit k y || decide (q = m ∧ q ≠ 0#3 ∧ 2048 * k + y < n)) := by
  obtain ⟨pc, c0, c1, pv, tok, hh⟩ := hb.only
  obtain ⟨vs, hg⟩ := hg
  rw [Hart.mask_congr (hw.m_eq hl), Hart.chunksSet_bit _ _ _ _ hk hy, Hart.mask_congr (h := s.h) (g := g) (by rw [hg, hh])]

end

theorem AtWork.chunks_changed {s u : State} {D : Nat → Prop} {h g : Hart} {m : MNum} {n : Nat} (hw : AtWork s D (g.chunksSet m n) u) (hg : ∃ vs, g = { h with v := vs }) :
    h.Changed u.harts[s.cur] := by
  obtain ⟨r, hr⟩ := hw.hart
  obtain ⟨vs, rfl⟩ := hg
  obtain ⟨ms, hms⟩ := Hart.chunksSet_only { h with v := vs } m n
  rw [hr, hms]
  exact ⟨_, _, _, _, _, _, _, _, _, rfl⟩

theorem Copies.of_copiedTo {s v t : State} {p : Posted} {plan : CopyPlan} {kd ks : Nat → Nat} (hmem : t.mem = v.mem) (hcop : CopiedTo s kd ks plan.total v)
    (hmask : ∀ (n : MNum) (k x : Nat), k < 16 → x < 2048 → (t.h.mask n).bit k x = ((s.h.mask n).bit k x || decide (n = p.m ∧ n ≠ 0#3 ∧ 2048 * k + x < plan.chunks))) :
    Copies s t p plan kd ks := by
  have hb (a : Nat) : byteAt t a = byteAt v a := by rw [byteAt, byteAt, hmem]
  exact ⟨fun o ho => (hb _).trans (hcop.1 o ho), fun a ha => (hb a).trans (hcop.2 a ha), hmask⟩

/-- An entry of a copy as it begins. -/
theorem copyEntry_of_begun {s : State} {p : Posted} {e : QEntry} {a : Bool} (he : e = { s.h.newEntry p with started := true, taken := a }) (heng : p.eng = .copy)
    (d aux : Nat) : CopyEntry s e 0 { e with memo := [d], aux := aux } := by
  have hprog : (s.h.newEntry p).prog = 0 := by simp only [Hart.newEntry, heng]
  rw [he]
  exact ⟨hprog, rfl, rfl, rfl, rfl, rfl, rfl, rfl, rfl⟩

theorem copiedTo_zero {s u : State} (kd ks : Nat → Nat) (hu : u.mem = s.mem) (n : Nat) : CopiedTo s kd ks (min (512 * 0) n) u :=
  ⟨fun q hq => by omega, fun a _ => by rw [byteAt, byteAt, hu]⟩

/-! ### `cpy` and `cpyr` (R494) -/

/-- A copy by descriptor, once its descriptor has been read. -/
theorem runCopy_read {remote : Bool} {i : Fin 4} {e : QEntry} {s u : State} {bs : List Byte} (hmemo : e.memo = []) (hst : s.harts[i].stbuf = [])
    (hout : s.scalarStoreOut i = false) (halign : e.opa.toNat % 8 = 0) (hread : engineRead i (e.who s i 2 0) .engine 0x10 e.opa.toNat 64 s e = .ok bs u e)
    (hgood : copyBad remote (decide (e.level = .u)) (decide (e.post.m ≠ 0#3)) (leNat bs) = false) (hkind : copyKind (leNat bs) = 0) :
    runCopy remote i e s = bulkLoop i (bulkPlan (leNat bs)) true remote ((bulkPlan (leNat bs)).chunks + 2) u
      { e with memo := [leNat bs], aux := (bulkPlan (leNat bs)).chunks + 1 } := by
  unfold runCopy
  rw [hmemo]
  dsimp only
  rw [hst, hout, if_neg (by simp), if_neg (by omega), hread]
  dsimp only
  rw [hgood, if_neg Bool.false_ne_true, runKind, hkind]
  rfl

/-- A bulk copy within plain storage at an idle hart completes in its step (R494, R496). -/
theorem bulkCopy_completes {s : State} {i : Instr} {p : Posted} {remote : Bool} (hx : exec i s = issue p s) (heng : p.eng = .copy) (hxd : p.xd = none)
    (hbody : ∀ (i : Fin 4) (hi : Nat) (e : QEntry) (s : State), e.post = p → bodyRun i hi e s = (runCopy remote i e s, none)) : BulkCopies s i p remote := by
  unfold BulkCopies
  intro k kd ks d plan hruns hq halign hplain hsound hkind hgood hplaced
  obtain ⟨h, e, a, hb, he, hdone⟩ := hruns.completes
  obtain ⟨hopa, hlevel, hrem, -, -, -⟩ := entry_of_begun a he
  have hc := copyBytes_of_placed hplaced
  have hw0 := hb.atWork hq fun a => ∃ o, o < plan.total ∧ a = kd o
  have hmem0 : ((s.mod fun _ => h).served s.cur p.eng).mem = s.mem := by
    obtain ⟨a, b, hs⟩ := State.served_frame (s.mod fun _ => h) s.cur p.eng
    rw [hs]
    rfl
  generalize (s.mod fun _ => h).served s.cur p.eng = u0 at hw0 hdone hmem0
  obtain ⟨hva, hbytes⟩ := plainFor_bytes hplain
  rw [← hopa] at hva hbytes halign
  obtain ⟨-, -, -, -, -, houtst, hwaiting⟩ := id hq
  have hstores : u0.scalarStoreOut s.cur = false := by
    unfold State.scalarStoreOut
    rw [hw0.fab_eq, houtst, hwaiting]
    rfl
  obtain ⟨u, hread, hw, hcells⟩ := hw0.engineRead hq (e := e) (w := e.who u0 s.cur 2 0) hrem rfl (hw0.who_ctxid e 2 0) hlevel (path := .engine) (by decide) hva
    (fun o ho => ⟨hbytes o ho, sound_byte hsound ho⟩) 0x10
  have hpeek : ((List.range 64).map fun o => cellGet u0.mem.cells (k + o)) = s.mem.peek k 64 := by rw [hmem0, peek_eq_map]
  rw [hpeek] at hread
  have hcop : CopiedTo s kd ks (min (512 * 0) plan.total) u := ⟨fun q hq => by omega, fun a _ => by rw [byteAt, byteAt, hcells, hmem0]⟩
  obtain ⟨v, ev, hloop, heid, hpost, hwv, hcopied⟩ := bulkLoop_plain (e' := s.h.newEntry p) hc hq hruns.2.2.1 hb.queue rfl hplaced.2.2 true remote (plan.chunks + 2) 0 u _
    (Nat.zero_le _) (by omega) (copyEntry_of_begun he heng d (plan.chunks + 1)) hw hcop
  have hrun := (runCopy_read (by rw [he]; rfl) (hw0.own_stores s.cur rfl).1 hstores halign hread (by rw [hlevel, hb.post]; exact hgood) hkind).trans hloop
  have hg : ∃ vs, h = { h with v := vs } := ⟨h.v, rfl⟩
  have hl := hdone (x := none) ((hbody _ _ _ _ hb.post).trans (congrArg (·, none) hrun)) heid (hpost.trans hb.post) hwv.cur_eq (hwv.chunks_changed hg)
  rw [hb.post] at hwv
  obtain ⟨hframe, hv⟩ := copy_frame hb hg hwv hl hxd
  obtain ⟨pc, c0, c1, pv, tok, hh⟩ := hb.only
  exact ⟨_, by rw [hx, issue_postable hruns.1], hframe, hv.trans (by rw [hh]),
    Copies.of_copiedTo hl.mem hcopied fun n k x hk hx => copy_mask hb hg hwv hl n hk hx⟩

/-! ### `gsp` and `ssp` (R495) -/

theorem Hart.relay_gather_resv (h : Hart) (e : QEntry) (r : Option Nat) :
    ({ h with resv := r } : Hart).relayAll e.cap.et e.cap.lmap [e.post.b] = { h.relayAll e.cap.et e.cap.lmap [e.post.b] with resv := r } := Hart.relayAll_resv _ _ _ _ _

theorem gatherPlan_congr {scatter : Bool} {h h' : Hart} {e e' : QEntry} (hcap : e.cap = e'.cap) (htotal : e.total = e'.total) (hopa : e.opa = e'.opa)
    (hopb : e.opb = e'.opb) (hvi : h.readAs e.post.b e.cap.et e.cap.lmap = h'.readAs e'.post.b e'.cap.et e'.cap.lmap) (hcprow : h.cprow = h'.cprow) :
    gatherPlan scatter h e = gatherPlan scatter h' e' := by
  unfold gatherPlan
  dsimp only
  rw [hvi, hcap, htotal, hopa, hopb, hcprow]

/-- A gather or a scatter once its rows are known. -/
theorem runGather_window {scatter : Bool} {i : Fin 4} {e : QEntry} {s : State} {plan : CopyPlan} (h0 : e.total ≠ 0) (hmemo : e.memo = [])
    (hplan : gatherPlan scatter (s.modHart i fun h => h.relayAll e.cap.et e.cap.lmap [e.post.b]).harts[i] e = plan)
    (hwin : inWindow (if scatter then e.opb else e.opa).toNat plan.total = true) :
    runGather scatter i e s = bulkLoop i plan false false (plan.chunks + 2) (s.modHart i fun h => h.relayAll e.cap.et e.cap.lmap [e.post.b])
      { e with memo := [0], aux := plan.chunks + 1 } := by
  unfold runGather
  simp only [h0, if_false, hplan, hwin, hmemo, List.isEmpty_nil, if_true, Bool.not_true, Bool.and_false, Bool.false_eq_true]

/-- A gather or a scatter within plain storage at an idle hart completes in its step (R495). -/
theorem gatherCopy_completes {s : State} {i : Instr} {p : Posted} {scatter : Bool} (hx : exec i s = issue p s) (heng : p.eng = .copy) (hxd : p.xd = none)
    (hbody : ∀ (i : Fin 4) (hi : Nat) (e : QEntry) (s : State), e.post = p → bodyRun i hi e s = (runGather scatter i e s, none)) : GatherCopies s i p scatter := by
  unfold GatherCopies
  intro kd ks e0 plan hruns hq hshape hwin hplaced
  have hcap := hruns.captured
  obtain ⟨hcvl, hcrows, hcet, hclmap⟩ := id hcap
  obtain ⟨h, e, a, hb, he, hdone⟩ := hruns.completes
  obtain ⟨hopa, hlevel, hrem, -, -, -⟩ := entry_of_begun a he
  obtain ⟨pc, c0, c1, pv, tok, hh⟩ := id hb.only
  have hc := copyBytes_of_placed hplaced
  have hw0 := hb.atWork hq fun a => ∃ o, o < plan.total ∧ a = kd o
  have hmem0 : ((s.mod fun _ => h).served s.cur p.eng).mem = s.mem := by
    obtain ⟨a, b, hs⟩ := State.served_frame (s.mod fun _ => h) s.cur p.eng
    rw [hs]
    rfl
  generalize (s.mod fun _ => h).served s.cur p.eng = u0 at hw0 hdone hmem0
  obtain ⟨v1, hv1⟩ := h.relayAll_only e.cap.et e.cap.lmap [e.post.b]
  have hw : AtWork s (fun a => ∃ o, o < plan.total ∧ a = kd o) (h.relayAll e.cap.et e.cap.lmap [e.post.b])
      (u0.modHart s.cur fun h => h.relayAll e.cap.et e.cap.lmap [e.post.b]) :=
    hw0.modHart (fun r => ⟨r, h.relay_gather_resv e r⟩) (by rw [hv1]) (by rw [hv1]) (by rw [hv1])
  have hreg (n : VNum) : (h.relayAll e.cap.et e.cap.lmap [e.post.b]).vreg n = if n = p.b then source s n else s.h.vreg n := by
    rw [Hart.relayAll_vreg, hb.vreg, hb.post, hb.cap, hcet, hclmap, source]
    simp only [List.mem_singleton]
  have hplan : gatherPlan scatter (u0.modHart s.cur fun h => h.relayAll e.cap.et e.cap.lmap [e.post.b]).harts[s.cur] e = plan := by
    obtain ⟨r, hr⟩ := hw.hart
    rw [hr]
    refine gatherPlan_congr hb.cap (by rw [he]; rfl) hopa hb.opb ?_ (by rw [hv1, hh])
    have hpost : (s.h.newEntry p).post.b = p.b := rfl
    rw [Hart.readAs_resv, Hart.readAs, hreg, hb.post, if_pos rfl, hb.cap, hpost, Hart.readAs, source, hcet, hclmap, VReg.relaid_relaid]
  have htotal : e.total ≠ 0 := by rw [hb.total]; exact hshape
  have hgq : (h.relayAll e.cap.et e.cap.lmap [e.post.b]).queue = [e] := by rw [hv1]; exact hb.queue
  obtain ⟨v, ev, hloop, heid, hpost, hwv, hcopied⟩ := bulkLoop_plain (e' := s.h.newEntry p) hc hq hruns.2.2.1 hgq rfl hplaced.2.2 false false
    (plan.chunks + 2) 0 _ _ (Nat.zero_le _) (by omega) (copyEntry_of_begun he heng 0 (plan.chunks + 1)) hw (copiedTo_zero kd ks hmem0 _)
  have hrun := (runGather_window htotal (by rw [he]; rfl) hplan (by rw [hopa, hb.opb]; exact hwin)).trans hloop
  have hg : ∃ vs, h.relayAll e.cap.et e.cap.lmap [e.post.b] = { h with v := vs } := ⟨v1, hv1⟩
  have hl := hdone (x := none) ((hbody _ _ _ _ hb.post).trans (congrArg (·, none) hrun)) heid (hpost.trans hb.post) hwv.cur_eq (hwv.chunks_changed hg)
  rw [show e.post.m = p.m by rw [hb.post]] at hwv
  obtain ⟨hframe, hv⟩ := copy_frame hb hg hwv hl hxd
  refine ⟨_, by rw [hx, issue_postable hruns.1], hframe, Copies.of_copiedTo hl.mem hcopied fun n k x hk hx => copy_mask hb hg hwv hl n hk hx, fun n => ?_⟩
  rw [Hart.vreg, hv]
  exact hreg n

end Sys2Proof.Machine
end

section
/-! What the vector memory, copy, stream and register-body instructions do, assembled. -/

namespace Sys2Proof.Machine
open Sys2Proof.Claims

/-! ### Floating-point combinations at the captured type (R539) -/

section
variable {s : State} {f : Fmt} (hf : etFmt (vtEt s.h.vtype) = some f)
include hf

theorem fmtEt_captured : fmtEt (vtEt s.h.vtype) = f := by rw [fmtEt, hf]; rfl

theorem treeReduces_fsumt {q : RMode} (hq : rmodeOf s.h.rm.toNat = some q) (d a b : BitVec 5) (m : BitVec 3) :
    TreeReduces s (.vfredsumt d a b m) (pVfredsumt d a b m) f (fpAdd f q) 0 := by
  refine treeReduces (op := .fsumt) rfl rfl rfl rfl hf ?_ rfl (by cases f <;> rfl)
  rw [hq, ← fmtEt_captured hf]
  rfl

theorem treeReduces_fmax {down : Nat} (hlt : down < 2 ^ fmtBits f) (hdown : fpDecode f down = .inf true) (d a b : BitVec 5) (m : BitVec 3) :
    TreeReduces s (.vfredmax d a b m) (pVfredmax d a b m) f (fpMinMax f true) down := by
  refine treeReduces (op := .fmax) rfl rfl rfl rfl hf ?_ ?_ (canonical_inf hdown)
  · rw [← fmtEt_captured hf]
    rfl
  · rw [eq_of_fpDecode_inf hlt hdown, ← fmtEt_captured hf]
    rfl

theorem treeReduces_fmin {up : Nat} (hlt : up < 2 ^ fmtBits f) (hup : fpDecode f up = .inf false) (d a b : BitVec 5) (m : BitVec 3) :
    TreeReduces s (.vfredmin d a b m) (pVfredmin d a b m) f (fpMinMax f false) up := by
  refine treeReduces (op := .fmin) rfl rfl rfl rfl hf ?_ ?_ (canonical_inf hup)
  · rw [← fmtEt_captured hf]
    rfl
  · rw [eq_of_fpDecode_inf hlt hup, ← fmtEt_captured hf]
    rfl

end

theorem upToValues_ite (c : Prop) [Decidable c] (z : Nat) (act : Nat → Bool) (v : Nat → Nat) (n : Nat) :
    upToValues (if c then none else some z) act v n = (if c then [] else [z]) ++ ((List.range n).filter act).map v := by
  rw [upToValues]
  split <;> rfl

/-- The type of the elements of a quantisation (R520). -/
theorem qbsTarget_eq (h : Hart) (e : QEntry) : qbsTarget h e =
    if (h.vreg e.post.d).valid = true ∧ ((h.vreg e.post.d).et = 8#4 ∨ (h.vreg e.post.d).et = 9#4 ∨ (h.vreg e.post.d).et = 10#4)
    then (h.vreg e.post.d).et else 8#4 := by
  unfold qbsTarget
  dsimp only
  refine if_congr ?_ rfl rfl
  simp only [Bool.and_eq_true, Bool.or_eq_true, beq_iff_eq]
  tauto

/-! ### Changed bindings (R490) -/

section
variable {s : State} {v : VNum} {f : Binding → Binding} {t : State}

/-- A hart with the streams of a changed binding, slot by slot. -/
theorem slots_of_rebind (hsb : t.h.sb = (s.h.rebind v f).sb) (hfetched : t.h.fetched = (s.h.rebind v f).fetched) (z : Fin 4) :
    if s.h.sb[z].valid = true ∧ s.h.sb[z].reg = v then t.h.sb[z] = f s.h.sb[z] ∧ t.h.fetched[z] = []
    else t.h.sb[z] = s.h.sb[z] ∧ t.h.fetched[z] = s.h.fetched[z] := by
  rw [hsb, hfetched]
  exact Hart.rebind_slot s.h v f z

end

theorem sunbind_slots {s : State} {v : VNum} (hruns : Runs s (pSunbind v)) :
    ∃ t, exec (.sunbind v) s = .next t ∧ PostedFrame s t (fun h => { h with sb := s.h.sb, fetched := s.h.fetched }) ∧ t.h.v = s.h.v ∧ t.h.fcsr = s.h.fcsr ∧
      (∀ z : Fin 4, if s.h.sb[z].valid = true ∧ s.h.sb[z].reg = v then t.h.sb[z] = { s.h.sb[z] with valid := false } ∧ t.h.fetched[z] = []
        else t.h.sb[z] = s.h.sb[z] ∧ t.h.fetched[z] = s.h.fetched[z]) ∧
      ((s.cur, v) ∈ t.core.boundEngines ↔ False ∧ (s.cur, v) ∈ s.core.boundEngines) := by
  obtain ⟨t, ht, hframe, hv, hfcsr, hsb, hfetched, hbound⟩ := sunbind_completes hruns
  refine ⟨t, ht, hframe, hv, hfcsr, slots_of_rebind hsb hfetched, ?_⟩
  rw [hbound]
  simp

theorem spos_slots {s : State} {v : VNum} {b : XNum} (hruns : Runs s (pSpos v b)) :
    ∃ t, exec (.spos v b) s = .next t ∧ PostedFrame s t (fun h => { h with sb := s.h.sb, fetched := s.h.fetched }) ∧ t.h.v = s.h.v ∧ t.h.fcsr = s.h.fcsr ∧
      (∀ z : Fin 4, if s.h.sb[z].valid = true ∧ s.h.sb[z].reg = v
        then t.h.sb[z] = { s.h.sb[z] with pos := min (s.x b).toNat s.h.sb[z].count } ∧ t.h.fetched[z] = []
        else t.h.sb[z] = s.h.sb[z] ∧ t.h.fetched[z] = s.h.fetched[z]) ∧
      ((s.cur, v) ∈ t.core.boundEngines ↔ True ∧ (s.cur, v) ∈ s.core.boundEngines) := by
  obtain ⟨t, ht, hframe, hv, hfcsr, hsb, hfetched, hbound⟩ := spos_completes hruns
  refine ⟨t, ht, hframe, hv, hfcsr, slots_of_rebind hsb hfetched, ?_⟩
  rw [hbound, true_and]

/-! ### The copies run by the copy engine (R494, R495) -/

section
variable {i : Fin 4} {hi : Nat} {e : QEntry} {s : State} {p : Posted} (h : e.post = p)
include h

theorem bodyRun_copy (hbody : p.body = .cpy) : bodyRun i hi e s = (runCopy false i e s, none) := by rw [bodyRun, h, hbody]

theorem bodyRun_copyRemote (hbody : p.body = .cpyr) : bodyRun i hi e s = (runCopy true i e s, none) := by rw [bodyRun, h, hbody]

theorem bodyRun_gather (hbody : p.body = .gsp) : bodyRun i hi e s = (runGather false i e s, none) := by rw [bodyRun, h, hbody]

theorem bodyRun_scatter (hbody : p.body = .ssp) : bodyRun i hi e s = (runGather true i e s, none) := by rw [bodyRun, h, hbody]

end

/-- Settles O34: each instruction completes at an idle hart by the lemma about its kind, and what it leaves is put in the words of the statement. -/
theorem memoryCopyAndRegisterBodiesComplete : Obligations.MemoryCopyAndRegisterBodiesComplete := by
  unfold Obligations.MemoryCopyAndRegisterBodiesComplete
  intro s d b r v m g c n x w
  refine ⟨load_completes rfl rfl rfl, load_completes rfl rfl rfl, load_completes rfl rfl rfl, load_completes rfl rfl rfl,
    store_completes rfl rfl rfl, store_completes rfl rfl rfl, store_completes rfl rfl rfl, store_completes rfl rfl rfl,
    atomic_completes rfl rfl nofun rfl rfl rfl, atomic_completes rfl rfl nofun rfl rfl rfl, atomic_completes rfl rfl nofun rfl rfl rfl,
    atomic_completes rfl rfl nofun rfl rfl rfl, atomic_completes rfl rfl nofun rfl rfl rfl, atomic_completes rfl rfl nofun rfl rfl rfl,
    atomic_completes rfl rfl nofun rfl rfl rfl, atomic_completes rfl rfl nofun rfl rfl rfl, atomic_completes rfl rfl nofun rfl rfl rfl,
    atomic_completes rfl rfl nofun rfl rfl rfl,
    accumulate_completes rfl rfl rfl, accumulate_completes rfl rfl rfl, accumulate_completes rfl rfl rfl, accumulate_completes rfl rfl rfl,
    capp_completes rfl rfl, fun key hruns hq hshape hkey => vlm_completes hruns hq hshape hkey,
    fun key hruns hq hshape hkey => vsm_completes (fun _ => Iff.rfl) hruns hq hshape hkey, ?sbind, ⟨sunbind_slots, spos_slots⟩,
    bulkCopy_completes rfl rfl rfl fun _ _ _ _ h => bodyRun_copy h rfl, bulkCopy_completes rfl rfl rfl fun _ _ _ _ h => bodyRun_copyRemote h rfl,
    gatherCopy_completes rfl rfl rfl fun _ _ _ _ h => bodyRun_gather h rfl, gatherCopy_completes rfl rfl rfl fun _ _ _ _ h => bodyRun_scatter h rfl,
    cwait_completes, ?floats, ?swaps⟩
  case sbind =>
    intro k z bd p va c back hruns hq hslot hlow halign hpl hs hbd hfree
    obtain ⟨t, ht, hframe, hv, hbytes, hsb, hfetched, hbound⟩ := sbind_completes hruns hq hslot hlow halign hpl hs hbd hfree
    exact ⟨t, ht, hframe, hv, hbytes, hsb, hfetched, hbound, bindingOf_fields hbd⟩
  case floats =>
    intro f q up down hf hq hupLt hdownLt hup hdown
    refine ⟨treeReduces_fsumt hf hq d b r m, treeReduces_fmax hf hdownLt hdown d b r m, treeReduces_fmin hf hupLt hup d b r m, ?scan, ?qbs⟩
    case scan =>
      intro p row upTo hoff
      have h := vecWrites_vfscan (d := d) (a := b) (b := r) (m := m) hf hq hoff
      simp only [upToValues_ite] at h
      exact h
    case qbs =>
      intro p dt top prog runs vals el ok hruns hshape hprog
      have h := qbs_completes (p := p) (i := .vqbs d b r m) rfl rfl rfl rfl hf hruns hshape hprog
      rw [show qbsTarget s.h (s.h.newEntry p) = dt from qbsTarget_eq _ _] at h
      obtain ⟨t, ht, hframe, hfcsr, hd, hscale, hrest⟩ := h
      exact ⟨t, ht, hframe, hfcsr, hd, hscale, fun n h1 h2 h3 =>
        (hrest n h1 h2 h3).trans (ite_congr rfl (fun h => congrArg (source s) h) fun _ => rfl)⟩
  case swaps =>
    exact ⟨swap_completes (imm := false) rfl rfl rfl rfl, swap_completes (imm := true) rfl rfl rfl rfl⟩

end Sys2Proof.Machine
end
